-- ==== Sys2Proof/Word.lean ====
section
/-!
DEFINITION. The word types of the hardware: a register word of 32 bits (R57) and an octet (R10).
-/

namespace Sys2Proof

/-- A register word, R57. -/
abbrev Word := BitVec 32

/-- An octet of memory, R10. -/
abbrev Byte := BitVec 8

end Sys2Proof
end

