-- ==== Sys2Proof/Syntax.lean ====
section
/-!
DEFINITION. The commands of the block: one constructor for each row of the table of operations and events, with what the
row's event carries. A physical reading that the spec leaves to the world is an operand (log entry 10).
-/

namespace Sys2Proof

/-- A requester of R72: class (0 core, 1 engine, 2 debug port, 3 block-internal master) and number in its class. -/
structure Rq where
  cls : Nat
  num : Nat
  deriving DecidableEq, Repr

/-- A transmit command to a front-end path, R110: the aerial port (index of LIM_PORTSEL), the centre and the occupied
bandwidth in kHz, the WLAN width code of R111 (0 on the mesh), whether it is timed and its launch time in ns, its duration
in ns, its coexistence activity (0 mesh acknowledgement or beacon, 1 other mesh, 2 WLAN; R120), and a number that names it. -/
structure TxCmd where
  id : Nat
  port : Nat
  freq : Nat
  bw : Nat
  width : Nat
  timed : Bool
  at' : Nat
  dur : Nat
  act : Nat
  deriving DecidableEq, Repr

/-- What the calibration of one entry found, R111: the outcome (0 calibrated, 1 failed) and the trims. -/
structure CalMeas where
  result : Nat
  gain : Nat
  presel : Nat
  txpwr : Nat
  dpdset : Nat
  deriving DecidableEq, Repr

/-- The cancellation measured on coupling path k, R117: achieved and coupled power in 0.25 dB. -/
structure CancMeas where
  k : Nat
  achieved : Nat
  coupled : Int
  deriving DecidableEq, Repr

/-- A listener's assignment, R126, R150: the Tile, the channel centre in kHz, the mode code, the window open and close times
in ns, the square it serves (its index on the board and its ASN), and the attempt whose acknowledgement it waits for (R155). -/
structure Asn where
  tile : Nat
  freq : Nat
  mode : Nat
  opn : Nat
  cls : Nat
  square : Nat
  asn : Nat
  att : Option Nat := none
  deriving DecidableEq, Repr

/-- A mesh carrier request, R140, R141: its number, its Tile, the port (20 ANT_MT0, 21 ANT_MT1, 22 ANT_MG0, 23 ANT_MG1), the
centre in kHz, the mode code, the power in 0.25 dBm, the launch time and air time in ns (MPHY takes the air time that mode, preamble and
PSDU give), the coexistence activity (R120), the class of LIM (0 ordinary, 1 enhanced acknowledgement, 2 beacon), the PSDU, the wagon
whose output it is, and the options of R129: whitening, a 4-octet FCS, the octets of the preamble. -/
structure Carr where
  id : Nat
  tile : Nat
  port : Nat
  freq : Nat
  mode : Nat
  power : Int
  at' : Nat
  dur : Nat
  act : Nat
  cls : Nat
  psdu : List Byte
  wag : Option Nat
  whiten : Bool := false
  fcs4 : Bool := true
  pre : Nat := 8
  deriving DecidableEq, Repr

/-- What a received PHR is checked by, R129: the mode-switch bit, the reserved bits, whether the header check sequence holds (SUN
OFDM). -/
structure Phr where
  modeSwitch : Bool
  reserved : Nat
  hcs : Bool
  deriving DecidableEq, Repr

/-- The end of a qualifier that does not pass, R132, R134: the listener, its normalised correlations in 1/256 and the energy. -/
structure QualEnd where
  l : Nat
  corr : List Nat
  e : Int
  deriving DecidableEq, Repr

/-- A listener in Sync with no SFD, R132, R134, and the units it has waited. -/
structure SfdWait where
  l : Nat
  units : Nat
  deriving DecidableEq, Repr

/-- The receive report of a mesh frame beyond what the listener holds, R138. -/
structure RxRep where
  snr : Int
  fofs : Int
  fosat : Bool
  deriving DecidableEq, Repr

/-- The receive report of a PPDU or of a TB user, R206; powers in 0.25 dB, fofs in Hz / 16 before its range of R207. -/
structure WRep where
  fmt : Nat
  bw : Nat
  mcs : Nat
  nss : Nat
  gi : Nat
  aid : Nat
  color : Nat
  rssi : Int
  nf : Int
  snr : Int
  evm : Int
  fofs : Int
  deriving DecidableEq, Repr

/-- What the PHY header of a PPDU gives, R196, R202: whether its CRC holds and its fields are a combination
that the standard allows; MCS, streams, dual carrier modulation, LDPC, STBC, the tones of the resource unit, the punctured
subchannels, whether the unit is a random-access one, and whether several users share it. -/
structure Sig where
  ok : Bool
  mcs : Nat
  nss : Nat
  dcm : Bool
  ldpc : Bool
  stbc : Bool
  tones : Nat
  punc : Nat
  random : Bool
  shared : Bool
  deriving DecidableEq, Repr

/-- A PSDU received, R206, R210: its octets, whether it is an A-MPDU, its user's report, and buffer status in octets by access category
where an MPDU of it carries one (R220). A TB PPDU has one for each user. -/
structure WPsdu where
  data : List Byte
  agg : Bool
  rep : WRep
  bsr : List (Nat × Nat)
  deriving DecidableEq, Repr

/-- The equaliser taps of a user of a PPDU, R205: its AID, the place of its resource unit, receive chains and streams; by active
subcarrier from the lowest frequency, the taps by chain, then by stream, each as I and Q. -/
structure EqUser where
  aid : Nat
  ru : Nat
  chains : Nat
  streams : Nat
  taps : List (List Nat)
  deriving DecidableEq, Repr

/-- What the planner measures, R204, R220, R222: the energy on each 20 MHz subchannel in 0.25 dBm, lowest first, and correlations in
1/256 by entry pair. -/
structure PlanIn where
  energy : List Int
  corr : List (Nat × Nat × Nat)
  deriving DecidableEq, Repr

/-- What the stations answer in a TXOP, R219 to R222: the frames acknowledged, by handle; the entries whose beamforming feedback
came; buffer reports as (entry, access category, octets), which answer a trigger or an initial control frame (R217); and the energy on each
20 MHz subchannel as the TXOP is won, as in PlanIn (R204). -/
structure TxopObs where
  acked : List Nat
  fed : List Nat
  bsr : List (Nat × Nat × Nat)
  energy : List Int := []
  deriving DecidableEq, Repr

/-- An output descriptor, R250: the frame handle, the destination, the queue word, the launch time in ns modulo 2^16 s,
whether it is timed, wants a completion and keeps the frame, and the completion train; and the ingress stamp in 2^-16 ns that software
supplies for a one-step Pdelay_Resp (R91), for which the layout of R250 has no bits (log entry 58). -/
structure Out where
  handle : Nat
  dest : Nat
  queue : Nat
  launch : Nat
  timed : Bool
  compl : Bool
  keep : Bool
  ctrain : Nat
  ingress : Nat := 0
  deriving DecidableEq, Repr

/-- A template of WNEW or of YARD_SWCREATE in the layout of R233: train, program, engine class, PLACEWAIT, the deadline in ns
modulo 2^16 s, DECL, ARR, CTYPE, USER and the coupling values. -/
structure Tmpl where
  train : Nat
  prog : Nat
  ecls : Nat
  placewait : Bool
  deadline : Nat
  decl : Nat
  arr : Nat
  ctype : Nat
  user : Nat
  cpl : List Nat
  deriving DecidableEq, Repr

/-- A mirror update, R311, R313: a node record's words, a map entry, a shadow entry, octets of the board, a bank switch with its
SWASN, what MLC mirrors of a Tile at a slot edge, a reservation of counter blocks of a key up to a value. -/
inductive Mir where
  | node (i : Nat) (words : List Nat)
  | map (t a v : Nat)
  | shadow (i v : Nat)
  | board (ofs : Nat) (l : List Byte)
  | switch (t sf asn : Nat)
  | tile (t x be w : Nat) (epoch : Option Nat)
  | resv (key limit : Nat)
  deriving DecidableEq, Repr

/-- What the Trail learns of the Lead's time, R312: the stamps t1 to t4 of R312 in 2^-16 ns (t1 the Lead's departure, t2 its
arrival, t3 the Trail's departure, t4 its arrival), the increment, the slew in 2^-32 ns, a step in ns, the sync state, TIME_UNC. -/
structure LeadTime where
  t1 : Nat
  t2 : Nat
  t3 : Nat
  t4 : Nat
  incr : Nat
  slew : Int
  step : Option Int
  st : Nat
  unc : Nat
  deriving DecidableEq, Repr

/-- What radiation or wear has done to a memory word since it was last good: nothing, one bit, two bits (R347). -/
inductive Upset where
  | none | single | double
  deriving DecidableEq, Repr

/-- What the engine instruction of a single step is, R245, R247, R395, R396: one without effect outside the engine, one that
traps, ebreak, and the instructions of R245 with what they carry. -/
inductive EngIns where
  | plain
  | trap
  | ebreak
  | wend (void : Bool)
  | wemit (o : Out)
  | wnew (t : Tmpl)
  | wcpl (wid slot typ val : Nat)
  | wreq (sec : Bool) (req : List Nat) (wid slot : Nat)
  | whand (wid : Nat)
  | wbuf (len : Nat)
  deriving DecidableEq, Repr

/-- The commands, one for each row of the table, in its order. -/
inductive Instr where
  /-- REG_WRITE, R59. -/
  | regWrite (rq : Rq) (addr : Nat) (v : Word)
  /-- RC_READ, R59. -/
  | rcRead (rq : Rq) (addr : Nat)
  /-- OPSTAT_READ, R67. -/
  | opstatRead (rq : Rq) (win units : Nat)
  /-- MULTIWORD_LOW_READ, R75. -/
  | multiwordLowRead (rq : Rq) (addr : Nat)
  /-- MULTIWORD_HIGH_WRITE, R75. -/
  | multiwordHighWrite (rq : Rq) (addr : Nat) (v : Word)
  /-- SUBWORD_ACCESS, R57. -/
  | subwordAccess (rq : Rq) (addr bytes : Nat) (write : Bool)
  /-- DARK_ACCESS, R70. -/
  | darkAccess (rq : Rq) (addr : Nat) (write : Bool)
  /-- SRESET, R64. -/
  | sreset (rq : Rq) (win : Nat)
  /-- LOCK_WRITE, R65. -/
  | lockWrite (rq : Rq) (win : Nat) (v : Word)
  /-- EV_FORCE, R62. -/
  | evForce (rq : Rq) (win : Nat) (v : Word)
  /-- CTRL_ENABLE_WRITE, R62. -/
  | ctrlEnableWrite (rq : Rq) (win : Nat) (v : Word)
  /-- DOMREQ_WRITE, R358. -/
  | domreqWrite (rq : Rq) (win : Nat) (v : Word)
  /-- DOMAIN_TRANSITION_DONE, R359. -/
  | domainTransitionDone (dom : Nat)
  /-- COACH_DRAIN_TIMEOUT, R359. -/
  | coachDrainTimeout (coach : Nat)
  /-- OP_ABORT, R67. -/
  | opAbort (rq : Rq) (win units : Nat)
  /-- OP_RESOURCE_FREE, R67. -/
  | opResourceFree (win : Nat)
  /-- OP_END, R67. -/
  | opEnd (win : Nat) (err : Nat)
  /-- THERM_WARN, R32. -/
  | thermWarn (temp : Int)
  /-- WARN_CLEAR, R32. -/
  | warnClear (temp : Int)
  /-- THERM_HOLD, R32. -/
  | thermHold (temp : Int)
  /-- THERM_CLEAR, R32. -/
  | thermClear (temp : Int)
  /-- THERMAL_CUT, R32. -/
  | thermalCut (temp : Int)
  /-- THERMAL_CUT_RECOVER, R32. -/
  | thermalCutRecover (temp : Int)
  /-- MAINS_GOOD, R47. -/
  | mainsGood
  /-- MAINS_LOSS, R45. -/
  | mainsLoss
  /-- MAINS_RETURN, R45. -/
  | mainsReturn
  /-- BACKUP_GOOD, R47. -/
  | backupGood (volts : Nat)
  /-- BACKUP_LOSS, R45. -/
  | backupLoss (volts : Nat)
  /-- BRIDGE_TIMER_EXPIRE, R45. -/
  | bridgeTimerExpire
  /-- STORE_EXHAUSTED, R45. -/
  | storeExhausted
  /-- NRESET_LOW, R49. -/
  | nresetLow
  /-- NRESET_RELEASE, R384. -/
  | nresetRelease
  /-- BOOT_HANDOVER, R385. -/
  | bootHandover (ms : Nat)
  /-- TIME_TICK, R77. -/
  | timeTick
  /-- PPS_OUT_END, R88. -/
  | ppsOutEnd
  /-- TIME_SLEW_WRITE, R79. -/
  | timeSlewWrite (rq : Rq) (v : Word)
  /-- SLEW_END, R79. -/
  | slewEnd
  /-- TIME_STEP_WRITE, R80. -/
  | timeStepWrite (rq : Rq) (v : Word)
  /-- REF10_VALID, R83. -/
  | ref10Valid (num den : Nat)
  /-- REF10_LOSS, R83. -/
  | ref10Loss
  /-- PPS_IN_EDGE, R88. -/
  | ppsInEdge
  /-- TIME_MEAS_WRITE, R93. -/
  | timeMeasWrite (rq : Rq) (v : Word)
  /-- SYNC_SRC_WRITE, R97. -/
  | syncSrcWrite (rq : Rq) (v : Word)
  /-- SYNC_IVL_BOUNDARY, R97. -/
  | syncIvlBoundary
  /-- SLEEP_CAL_WINDOW, R101. -/
  | sleepCalWindow
  /-- LAUNCH_TIME_REACHED, R89. -/
  | launchTimeReached (eth : Bool) (unit handle : Nat) (open' : Bool)
  /-- PATH_TRANSITION_DONE, R106. -/
  | pathTransitionDone (r p : Nat)
  /-- PATH_RX_COMMAND, R107. -/
  | pathRxCommand (r p : Nat) (rx : Bool) (freq width : Nat)
  /-- PATH_TX_COMMAND, R110. -/
  | pathTxCommand (r p : Nat) (c : TxCmd) (rl : List (Nat × Nat))
  /-- PATH_TX_END, R107. -/
  | pathTxEnd (r p id : Nat) (canc : List CancMeas)
  /-- PATH_RX_END, R107. -/
  | pathRxEnd (r p : Nat)
  /-- PATH_RELEASE, R107. -/
  | pathRelease (r p : Nat)
  /-- PRESEL_RETUNE_DONE, R109. -/
  | preselRetuneDone (r p : Nat)
  /-- RFE_CAL_SWEEP, R112. -/
  | rfeCalSweep (rq : Rq) (r : Nat)
  /-- SWEEP_ENTRY_DONE, R112. -/
  | sweepEntryDone (r : Nat) (m : CalMeas)
  /-- RFE_SURVEY, R113. -/
  | rfeSurvey (rq : Rq) (r : Nat)
  /-- SURVEY_DWELL_END, R113. -/
  | surveyDwellEnd (r : Nat) (energy : Nat) (skipped : Bool)
  /-- RFE_FG_CAL, R112. -/
  | rfeFgCal (rq : Rq) (r : Nat)
  /-- FG_CAL_END, R107. -/
  | fgCalEnd (r : Nat)
  /-- BG_CAL_STEP, R112. -/
  | bgCalStep (r idx : Nat) (last : Bool) (m : CalMeas)
  /-- ENTRY_STALE, R111. -/
  | entryStale (r idx : Nat)
  /-- MASK_MEASURE, R115. -/
  | maskMeasure (r port : Nat) (excess : Int)
  /-- CANC_CLEAR, R117. -/
  | cancClear (rq : Rq) (v : Word)
  /-- CANC_SAVE, R118. -/
  | cancSave (rq : Rq) (v : Word)
  /-- COEX_REQ_IN_RISE, R120. -/
  | coexReqInRise (prio : Bool)
  /-- COEX_LEAD, R121. -/
  | coexLead (r p id : Nat) (reqIn : Bool)
  /-- COEX_GRANT_SAMPLE, R121. -/
  | coexGrantSample (r p id : Nat) (grant : Bool)
  /-- WINDOW_COMMIT, R124. -/
  | windowCommit (rq : Rq) (v : Word)
  /-- WINDOW_APPLY, R124. -/
  | windowApply
  /-- LISTENER_ASSIGN, R126. -/
  | listenerAssign (l : Nat) (a : Asn)
  /-- LISTENER_WINDOW_OPEN, R134. -/
  | listenerWindowOpen (l : Nat)
  /-- ENERGY_DETECT, R131. -/
  | energyDetect (l : Nat) (e : Int)
  /-- QUALIFIER_PASS, R132. -/
  | qualifierPass (l : Nat) (corr : List Nat) (e : Int × Int)
  /-- QUALIFIER_FAIL, R134. -/
  | qualifierFail (q : QualEnd)
  /-- SFD_MATCH, R134. -/
  | sfdMatch (l units : Nat) (rssi : Int)
  /-- SFDWAIT_EXPIRE, R134. -/
  | sfdwaitExpire (w : SfdWait)
  /-- STRONGER_PREAMBLE, R133. -/
  | strongerPreamble (l : Nat) (corr : List Nat) (e : Int) (es : Int × Int)
  /-- PHR_END, R134. -/
  | phrEnd (l : Nat) (h : Phr) (len : Nat) (fcslen dw : Bool)
  /-- PSDU_END, R134. -/
  | psduEnd (l : Nat) (psdu : List Byte) (rep : RxRep) (taps : List Nat)
  /-- LISTENER_WINDOW_CLOSE, R134. -/
  | listenerWindowClose (l : Nat)
  /-- EQ_ARM, R137. -/
  | eqArm (rq : Rq) (v : Word)
  /-- CARRIER_REQUEST, R141. -/
  | carrierRequest (c : Carr)
  /-- CARRIER_LAUNCH, R140. -/
  | carrierLaunch (id : Nat)
  /-- TILE_ENABLE, R146. -/
  | tileEnable (rq : Rq) (t : Nat) (v : Word)
  /-- TILE_CHECKS_DONE, R146. -/
  | tileChecksDone (t : Nat)
  /-- TILE_DISABLE, R146. -/
  | tileDisable (rq : Rq) (t : Nat) (v : Word)
  /-- SLOT_EDGE, R145. -/
  | slotEdge (t : Nat)
  /-- SLOT_PREPARE, R150. -/
  | slotPrepare (t : Nat)
  /-- SF_SWITCH, R149. -/
  | sfSwitch (rq : Rq) (t sf : Nat) (v : Word)
  /-- BOARD_WRITE_DISCARD, R147. -/
  | boardWriteDiscard (rq : Rq) (addr bytes : Nat)
  /-- MLC_BOARD_LOAD, R151. -/
  | mlcBoardLoad (rq : Rq)
  /-- MLC_FRAME_CHECK, R156. -/
  | mlcFrameCheck (l : Nat) (lbt : Option Int)
  /-- TX_SQUARE, R155. -/
  | txSquare (t square : Nat) (lbt : Option Int)
  /-- SHARED_SQUARE, R159. -/
  | sharedSquare (t square : Nat) (cca lbt : Option Int)
  /-- BEACON_SQUARE, R163. -/
  | beaconSquare (t square : Nat) (lbt : Option Int)
  /-- KEEPALIVE_SQUARE, R166. -/
  | keepaliveSquare (t square : Nat) (fin : Bool) (lbt : Option Int)
  /-- ALLOC, R174. -/
  | alloc
  /-- RELEASE, R175. -/
  | release
  /-- READ, R174. -/
  | read
  /-- SETKEY, R182. -/
  | setkey
  /-- FINDEXT, R174. -/
  | findext
  /-- FINDSHORT, R174. -/
  | findshort
  /-- FLUSHQ, R190. -/
  | flushq
  /-- SETSW, R174. -/
  | setsw
  /-- HOLDOFF_EXPIRE, R175. -/
  | holdoffExpire (rec' : Nat)
  /-- FRAME_ATTRIBUTE, R177. -/
  | frameAttribute
  /-- MAP_WRITE_DISCARD, R170. -/
  | mapWriteDiscard (rq : Rq) (addr bytes : Nat)
  /-- DOWNLINK_EXPIRE, R190. -/
  | downlinkExpire (handle : Nat)
  /-- REBUILD_COPY0, R191. -/
  | rebuildCopy0 (rq : Rq)
  /-- REBUILD_COPY1, R191. -/
  | rebuildCopy1 (rq : Rq)
  /-- REBUILD_RESTORE, R191. -/
  | rebuildRestore (rq : Rq)
  /-- WLAN_LSTF_DETECT, R202. -/
  | wlanLstfDetect (r : Nat) (power : Int)
  /-- WLAN_LLTF_CONFIRM, R202. -/
  | wlanLltfConfirm (r : Nat)
  /-- WLAN_LLTF_TIMEOUT, R202. -/
  | wlanLltfTimeout (r : Nat)
  /-- WLAN_LSIG_END, R202. -/
  | wlanLsigEnd (r : Nat) (ok nonHt : Bool) (dur n : Nat)
  /-- WLAN_SIG_END, R202: fmt is the PPDU's format in the code of R206. -/
  | wlanSigEnd (r fmt : Nat) (g : Sig) (mine tb : Bool) (dur n : Nat)
  /-- WLAN_PSDU_END, R202. -/
  | wlanPsduEnd (r : Nat) (l : List WPsdu) (eq : List EqUser) (resp : Option (Nat × Nat))
  /-- WLAN_RESTART, R203. -/
  | wlanRestart (r : Nat) (power : Int)
  /-- GRANT_EXPIRE, R201. -/
  | grantExpire (idx : Nat)
  /-- WLAN_EQ_ARM, R205. -/
  | wlanEqArm (rq : Rq) (r : Nat) (v : Word)
  /-- CHANNEL_COMMIT, R212. -/
  | channelCommit (rq : Rq) (r : Nat) (v : Word)
  /-- CHANNEL_APPLY, R212. -/
  | channelApply (r : Nat)
  /-- STA_ADD, R216. -/
  | staAdd
  /-- STA_DEL, R216. -/
  | staDel
  /-- STA_SETLINK, R216. -/
  | staSetlink
  /-- STA_SETMAP, R216. -/
  | staSetmap
  /-- STA_FLUSH, R216. -/
  | staFlush
  /-- TSF_EPOCH_WRITE, R218. -/
  | tsfEpochWrite (rq : Rq) (reg : Nat) (v : Word)
  /-- TBTT, R218. -/
  | tbtt (r bss : Nat)
  /-- MLD_FRAME_EXPIRE, R219. -/
  | mldFrameExpire (handle : Nat)
  /-- PLAN_REVISE, R220. -/
  | planRevise (r ac : Nat) (inp : PlanIn)
  /-- TXOP_WIN, R220. -/
  | txopWin (r : Nat) (acs : List Nat) (o : TxopObs)
  /-- TWT_VALID_WRITE, R228. -/
  | twtValidWrite (rq : Rq) (v : Word)
  /-- TWT_SP_START, R229. -/
  | twtSpStart (a : Nat)
  /-- SW_CREATE, R241. -/
  | swCreate (rq : Rq) (v : Word)
  /-- SW_COUPLING, R236. -/
  | swCoupling (rq : Rq) (v : Word)
  /-- COUPLING_ARRIVE, R236. -/
  | couplingArrive (wid slot typ val : Nat) (snap : List Byte)
  /-- DISPATCH, R242. -/
  | dispatch (e : Nat)
  /-- WEND, R245. -/
  | wend (e : Nat) (void : Bool)
  /-- WEMIT, R245. -/
  | wemit (e : Nat) (o : Out)
  /-- WNEW, R245. -/
  | wnew (e : Nat) (t : Tmpl)
  /-- WCPL, R245. -/
  | wcpl (e wid slot typ val : Nat)
  /-- WREQ, R245. -/
  | wreq (e : Nat) (sec : Bool) (req : List Nat) (wid slot : Nat)
  /-- WHAND, R245. -/
  | whand (e wid : Nat)
  /-- WBUF, R245. -/
  | wbuf (e len : Nat)
  /-- ENGINE_TRAP, R247. -/
  | engineTrap (e : Nat)
  /-- WAGON_DEADLINE, R252. -/
  | wagonDeadline (wid : Nat)
  /-- WAGON_ABANDON, R241. -/
  | wagonAbandon (wid : Nat)
  /-- PROGRAM_LOAD, R248. -/
  | programLoad (rq : Rq) (coach : Nat)
  /-- PB_ARM, R248. -/
  | pbArm (rq : Rq) (v : Word)
  /-- PB_SWITCH, R248. -/
  | pbSwitch
  /-- HIST_WINDOW, R254. -/
  | histWindow
  /-- ELOAD_WINDOW, R254. -/
  | eloadWindow (retired : List Nat)
  /-- RTE_COMMIT, R259. -/
  | rteCommit (rq : Rq)
  /-- RTE_COMMIT_APPLY, R259. -/
  | rteCommitApply (units : Nat)
  /-- OLD_SET_RELEASE, R260. -/
  | oldSetRelease
  /-- LOOKUP, R263. -/
  | lookup
  /-- DECOMP, R267. -/
  | decomp
  /-- COMP, R268. -/
  | comp
  /-- FRAG, R268. -/
  | frag
  /-- SRHINS, R269. -/
  | srhins
  /-- REASM_EXPIRE, R267. -/
  | reasmExpire (idx : Nat)
  /-- WATCH_CHANGE, R270. -/
  | watchChange (w : Nat)
  /-- WATCH_HOLD_EXPIRE, R270. -/
  | watchHoldExpire (w : Nat)
  /-- WATCH_RESTORE, R270. -/
  | watchRestore (rq : Rq) (w : Nat) (v : Word)
  /-- FRAME_BOUNDARY, R275. -/
  | frameBoundary (n : Nat)
  /-- CREDIT_REFILL, R278. -/
  | creditRefill (n : Nat)
  /-- TL_ENABLE, R281. -/
  | tlEnable (rq : Rq) (n : Nat) (v : Word)
  /-- TL_DISABLE, R281. -/
  | tlDisable (rq : Rq) (n : Nat) (v : Word)
  /-- TL_SWITCH, R281. -/
  | tlSwitch (rq : Rq) (n : Nat) (v : Word)
  /-- TL_START, R281. -/
  | tlStart (n : Nat)
  /-- TL_ENTRY_BOUNDARY, R280. -/
  | tlEntryBoundary (n : Nat)
  /-- SIGNAL_DETECT, R290. -/
  | signalDetect (n : Nat)
  /-- AN_COMPLETE, R290. -/
  | anComplete (n : Nat) (common : Bool) (fec pause : Nat) (eee : Bool)
  /-- TRAIN_COMPLETE, R290. -/
  | trainComplete (n pre main post : Nat)
  /-- TRAIN_TIMEOUT, R290. -/
  | trainTimeout (n : Nat)
  /-- WORD_LOCK, R290. -/
  | wordLock (n : Nat)
  /-- LOCK_TIMEOUT, R290. -/
  | lockTimeout (n : Nat)
  /-- EXCHANGE_COMPLETE, R290. -/
  | exchangeComplete (n speed pause : Nat)
  /-- LOCK_LOSS, R290. -/
  | lockLoss (n : Nat)
  /-- LANE_RETRAIN, R290. -/
  | laneRetrain (rq : Rq) (n : Nat) (v : Word)
  /-- EIDLE_WRITE, R291. -/
  | eidleWrite (rq : Rq) (n : Nat) (v : Word)
  /-- LINK_DOWN, R292. -/
  | linkDown (n : Nat) (loc rem : Bool)
  /-- LINK_UP, R292. -/
  | linkUp (n : Nat)
  /-- ETH_RX_START, R293. -/
  | ethRxStart (n : Nat)
  /-- ETH_RX_END, R293. -/
  | ethRxEnd (n : Nat) (data : List Byte) (code : Bool)
  /-- PAUSE_TIMER_EXPIRE, R297. -/
  | pauseTimerExpire (n c : Nat)
  /-- TXPAUSE_SEND, R298. -/
  | txpauseSend (rq : Rq) (n : Nat) (v : Word)
  /-- PAUSE_REPEAT, R298. -/
  | pauseRepeat (n : Nat)
  /-- LPI_ENTER, R299. -/
  | lpiEnter (n : Nat)
  /-- LPI_EXIT, R299. -/
  | lpiExit (n : Nat)
  /-- HELLO, R309. -/
  | hello (sen pairid role lanes : Nat)
  /-- HEARTBEAT_SEND, R307. -/
  | heartbeatSend
  /-- HEARTBEAT_RECEIVE, R307. -/
  | heartbeatReceive (sen : Nat) (acks : List Nat)
  /-- HEARTBEAT_MISS, R307. -/
  | heartbeatMiss
  /-- LIFE_IN_READING, R308. -/
  | lifeInReading (reading : Nat)
  /-- ALIGNMENT_MARKER, R305. -/
  | alignmentMarker (lanes : Nat)
  /-- COUPLER_LANE_DROP, R306. -/
  | couplerLaneDrop (k resent lost : Nat)
  /-- COUPLER_LANE_JOIN, R306. -/
  | couplerLaneJoin (k : Nat)
  /-- CPL_DATA_RECEIVE, R304. -/
  | cplDataReceive (frame : List Byte)
  /-- SYNC_COMPLETE, R309. -/
  | syncComplete (copy : List Mir)
  /-- MIRROR_UPDATE, R311. -/
  | mirrorUpdate (m : Mir)
  /-- CPL_TIME_CORRECT, R312. -/
  | cplTimeCorrect (t : LeadTime)
  /-- RELEASE_RECEIVE, R310. -/
  | releaseReceive
  /-- CPL_HANDOVER, R310. -/
  | cplHandover (rq : Rq) (v : Word)
  /-- CPL_RESYNC, R310. -/
  | cplResync (rq : Rq) (v : Word)
  /-- CPL_EB_HEARD, R315. -/
  | cplEbHeard (sen pairid role : Nat)
  /-- CPL_EB_MISS, R315. -/
  | cplEbMiss (b : Nat)
  /-- LENT_CARRIER_REQUEST, R317. -/
  | lentCarrierRequest (c : Carr) (answer : Option Nat)
  /-- NVS_PROGRAM, R321. -/
  | nvsProgram (rq : Rq)
  /-- NVS_ACTIVATE, R324. -/
  | nvsActivate (rq : Rq)
  /-- SEC_ENROL, R328. -/
  | secEnrol (rq : Rq)
  /-- CCM_DECRYPT, R329. -/
  | ccmDecrypt
  /-- CCM_ENCRYPT, R330. -/
  | ccmEncrypt
  /-- GCMP_DECRYPT, R329. -/
  | gcmpDecrypt
  /-- GCMP_ENCRYPT, R330. -/
  | gcmpEncrypt
  /-- MACSEC_DECRYPT, R329. -/
  | macsecDecrypt
  /-- MACSEC_ENCRYPT, R330. -/
  | macsecEncrypt
  /-- METER_BUCKET_AGE, R334. -/
  | meterBucketAge (meter : Nat)
  /-- LIM_SNAPSHOT, R335. -/
  | limSnapshot (ok : Bool)
  /-- HART_RELEASE, R342. -/
  | hartRelease (rq : Rq) (v : Word)
  /-- MSIP_WRITE, R343. -/
  | msipWrite (hart by' : Nat) (v : Word)
  /-- PLIC_CLAIM, R345. -/
  | plicClaim (ctx : Nat)
  /-- PLIC_COMPLETE, R345. -/
  | plicComplete (ctx src : Nat)
  /-- MEM_ACCESS, R402. -/
  | memAccess (rq : Rq) (addr bytes : Nat) (write : Bool) (v : Nat) (upset : Upset)
  /-- SCRUB, R347. -/
  | scrub (dram : Bool) (upset : Upset)
  /-- MEM_ALLOC, R350. -/
  | memAlloc (rq : Rq) (v : Word)
  /-- MEM_FREE, R350. -/
  | memFree (rq : Rq) (v : Word)
  /-- CHK_SCAN, R353. -/
  | chkScan (rq : Rq) (unit : Nat)
  /-- STATE_REQUEST, R363. -/
  | stateRequest (rq : Rq) (v : Word) (wake : Nat)
  /-- STATE_CHANGE_DONE, R365. -/
  | stateChangeDone (wake : Nat)
  /-- DORMANT_ALARM, R366. -/
  | dormantAlarm (edges : Nat)
  /-- WAKE_SOURCE, R366. -/
  | wakeSource (src edges : Nat)
  /-- PERF_REQUEST, R368. -/
  | perfRequest (rq : Rq) (v : Word)
  /-- PERF_SWITCH_DONE, R368. -/
  | perfSwitchDone (cluster : Bool)
  /-- FAULT_EVENT, R373. -/
  | faultEvent (code page : Nat) (hard : Bool)
  /-- FLT_RESTORE, R373. -/
  | fltRestore (rq : Rq) (v : Word)
  /-- FLT_STOP, R377. -/
  | fltStop (rq : Rq) (v : Word)
  /-- HANDSHAKE_STALL, R376. -/
  | handshakeStall (cls : Nat)
  /-- RAIL_FAULT, R377. -/
  | railFault
  /-- TICK_LOCK_LOST, R377. -/
  | tickLockLost
  /-- STOPHOLD_EXPIRE, R377. -/
  | stopholdExpire
  /-- ENGINE_STALL, R375. -/
  | engineStall (e : Nat)
  /-- ENGINE_RUNMAX, R375. -/
  | engineRunmax (e : Nat)
  /-- TAP_RESET, R393. -/
  | tapReset
  /-- DBGI_ACCESS, R393. -/
  | dbgiAccess (op off : Nat) (v : Word)
  /-- DMI_ACCESS, R394. -/
  | dmiAccess (op addr : Nat) (v : Word)
  /-- HALT_REQUEST, R396. -/
  | haltRequest (h : Nat)
  /-- RESUME_REQUEST, R396. -/
  | resumeRequest (h : Nat)
  /-- SINGLE_STEP, R396. -/
  | singleStep (h : Nat) (ins : EngIns)
  /-- EBREAK, R395. -/
  | ebreak (h : Nat)
  /-- ABSTRACT_COMMAND, R394. -/
  | abstractCommand (v : Word)
  /-- MAP_READ, R399. -/
  | mapRead (rq : Rq) (v : Word)
  /-- MAP_WRITE, R399. -/
  | mapWrite (rq : Rq) (v : Word)
  /-- TOKEN_WORD_WRITE, R400. -/
  | tokenWordWrite (rq : Rq) (v : Word)
  /-- TOKEN_VERIFY, R400. -/
  | tokenVerify (rq : Rq) (v : Word)
  /-- TOKEN_CHECK_DONE, R400. -/
  | tokenCheckDone
  /-- ENGINE_YIELD, R396. -/
  | engineYield (rq : Rq) (v : Word)
  /-- TWT_SP_END, R229. -/
  | twtSpEnd (a : Nat)
  /-- CREDIT_REACHES_ZERO, R277. -/
  | creditReachesZero (n c : Nat)
  /-- COEX_PRIO_RISE, R119. -/
  | coexPrioRise
  /-- RX_LPI_CHANGE, R299. -/
  | rxLpiChange (n : Nat) (on : Bool)
  deriving DecidableEq, Repr

end Sys2Proof
end

