-- ==== Sys2Proof/Decode.lean ====
section
/-!
DEFINITION. The command that a word spells by the bits of the table of operations and events. The table gives bits for no row, so
no word spells a command: commands reach the queue from outside (log entry 1).
-/

namespace Sys2Proof

/-- The command that the nbits of w spell. -/
def decodeTableWord (_nbits _w : Nat) : Option Instr := none

end Sys2Proof
end

