-- ==== Sys2Proof/Machine/Fields.lean ====
section
/-!
DEFINITION. The form of a register table: a field is a key (window, offset, lowest bit), a width and a reset value; a
register is its offset, up to two array dimensions, and its fields with their access codes (R59) and reset notations (R60).
-/

namespace Sys2Proof.Machine

/-- A register field: its key, its width and its reset value. -/
structure Fld where
  key : Nat
  len : Nat
  rst : Nat
  deriving DecidableEq, Repr

/-- The field of window w at offset off from bit lo, len wide, resetting to rst. -/
def mkF (w off lo len rst : Nat) : Fld := ⟨(w * 65536 + off) * 32 + lo, len, rst⟩

/-- Access codes, R59. -/
inductive Acc where
  | ro | rw | w1c | w1s | rc | wo
  deriving DecidableEq, Repr

/-- Reset notations, R60: a number, a number by instance, a number by index, from the settings store, undefined. -/
inductive Rst where
  | is (v : Nat)
  | byInst (l : List Nat)
  | byIdx (l : List Nat)
  | nv
  | open
  deriving DecidableEq, Repr

/-- What a write may store: any value; only a value within bounds, others being reserved codes (R61); a value clamped to
bounds; the same for an eight-bit signed value whose bounds are given as codes. -/
inductive Store where
  | any
  | within (lo hi : Nat)
  | clamp (lo hi : Nat)
  | clampS (lo hi : Nat)
  deriving DecidableEq, Repr

/-- A field of a register table: lowest bit, width, access, reset, what a write stores, whether it is locked (R65), whether
it is a while-disabled field (R146). -/
structure FldRow where
  lo : Nat
  len : Nat
  acc : Acc
  rst : Rst
  store : Store
  lock : Bool
  wd : Bool
  deriving DecidableEq, Repr

/-- A register of a table: its name, offset, the stride and count of its two array dimensions, and its fields. -/
structure RegRow where
  name : String
  off : Nat
  st1 : Nat
  n1 : Nat
  st2 : Nat
  n2 : Nat
  flds : List FldRow
  deriving DecidableEq, Repr

/-- The reset value of a field of instance i and index j of its register; 0 where the spec gives NV or none. -/
def Rst.val (r : Rst) (i j : Nat) : Nat :=
  match r with
  | .is v => v
  | .byInst l => l.getD i 0
  | .byIdx l => l.getD j 0
  | .nv => 0
  | .open => 0

end Sys2Proof.Machine
end

