-- ==== Sys2Proof/Machine/RegTable.lean ====
section
/-!
DEFINITION. The register tables of spec/02 to spec/21 as data: for each block its registers, for each register its fields
with access code, reset notation and what a write may store. Only the layout stands here; Regs.lean gives it meaning.
-/

namespace Sys2Proof.Machine

/-- Registers of PINS, spec/02_module_entry.md. -/
def rowsPINS0 : List RegRow := [
  ⟨"PINS_EV_RAW", 0x10, 4, 1, 4, 1, [⟨0, 1, .w1c, .is 0, .any, false, false⟩,
    ⟨1, 1, .w1c, .is 0, .any, false, false⟩,
    ⟨2, 1, .w1c, .is 0, .any, false, false⟩,
    ⟨3, 1, .w1c, .is 0, .any, false, false⟩,
    ⟨4, 1, .w1c, .is 0, .any, false, false⟩,
    ⟨5, 1, .w1c, .is 0, .any, false, false⟩,
    ⟨6, 1, .w1c, .is 0, .any, false, false⟩]⟩,
  ⟨"PINS_SUPPLY", 0x40, 4, 1, 4, 1, [⟨0, 1, .ro, .open, .any, false, false⟩,
    ⟨1, 1, .ro, .open, .any, false, false⟩,
    ⟨2, 2, .ro, .open, .any, false, false⟩,
    ⟨16, 12, .ro, .open, .any, false, false⟩]⟩,
  ⟨"PINS_BASETEMP", 0x44, 4, 1, 4, 1, [⟨0, 12, .ro, .open, .any, false, false⟩,
    ⟨16, 1, .ro, .open, .any, false, false⟩,
    ⟨17, 1, .ro, .open, .any, false, false⟩]⟩,
  ⟨"PINS_STATUSOUT", 0x48, 4, 1, 4, 1, [⟨0, 1, .rw, .is 0, .any, false, false⟩,
    ⟨1, 1, .rw, .is 0, .any, false, false⟩,
    ⟨2, 3, .ro, .is 0, .any, false, false⟩]⟩,
  ⟨"PINS_GPIO_DIR", 0x4C, 4, 1, 4, 1, [⟨0, 24, .rw, .is 0, .any, false, false⟩]⟩,
  ⟨"PINS_GPIO_OUT", 0x50, 4, 1, 4, 1, [⟨0, 24, .rw, .is 0, .any, false, false⟩]⟩,
  ⟨"PINS_GPIO_IN", 0x54, 4, 1, 4, 1, [⟨0, 24, .ro, .open, .any, false, false⟩]⟩]

/-- Every register of PINS beyond the common page header. -/
def rowsPINS : List RegRow := rowsPINS0

/-- Registers of PWR, spec/03_register_pages.md, 18_power_states.md. -/
def rowsPWR0 : List RegRow := [
  ⟨"PWR_STATUS", 0xC, 4, 1, 4, 1, [⟨8, 1, .w1c, .is 0, .any, false, false⟩,
    ⟨9, 1, .w1c, .is 0, .any, false, false⟩,
    ⟨10, 3, .ro, .is 0, .any, false, false⟩,
    ⟨13, 1, .ro, .is 0, .any, false, false⟩]⟩,
  ⟨"PWR_DARKADDR", 0x40, 4, 1, 4, 1, [⟨0, 28, .ro, .is 0, .any, false, false⟩,
    ⟨28, 2, .ro, .is 0, .any, false, false⟩,
    ⟨30, 1, .ro, .is 0, .any, false, false⟩]⟩,
  ⟨"PWR_EV_RAW", 0x10, 4, 1, 4, 1, [⟨0, 1, .w1c, .is 0, .any, false, false⟩,
    ⟨1, 1, .w1c, .is 0, .any, false, false⟩,
    ⟨2, 1, .w1c, .is 0, .any, false, false⟩,
    ⟨3, 1, .w1c, .is 0, .any, false, false⟩,
    ⟨4, 1, .w1c, .is 0, .any, false, false⟩]⟩,
  ⟨"PWR_STATECMD", 0x44, 4, 1, 4, 1, [⟨0, 3, .rw, .is 0, .within 0 3, false, false⟩,
    ⟨3, 1, .w1s, .is 0, .any, false, false⟩,
    ⟨4, 1, .ro, .is 0, .any, false, false⟩,
    ⟨8, 4, .ro, .is 0, .any, false, false⟩]⟩,
  ⟨"PWR_STATECFG", 0x48, 4, 1, 4, 1, [⟨0, 8, .rw, .is 0, .any, false, false⟩,
    ⟨8, 1, .rw, .is 0, .any, false, false⟩]⟩,
  ⟨"PWR_PERFREQ", 0x4C, 4, 1, 4, 1, [⟨0, 2, .rw, .is 0, .any, false, false⟩,
    ⟨2, 2, .rw, .is 0, .any, false, false⟩]⟩,
  ⟨"PWR_PERFSTAT", 0x50, 4, 1, 4, 1, [⟨0, 2, .ro, .is 0, .any, false, false⟩,
    ⟨2, 2, .ro, .is 0, .any, false, false⟩,
    ⟨4, 1, .ro, .is 0, .any, false, false⟩,
    ⟨8, 8, .ro, .open, .any, false, false⟩,
    ⟨16, 8, .ro, .open, .any, false, false⟩]⟩,
  ⟨"PWR_WAKEMASK", 0x54, 4, 1, 4, 1, [⟨0, 1, .rw, .is 1, .any, false, false⟩,
    ⟨1, 1, .rw, .is 1, .any, false, false⟩,
    ⟨2, 1, .rw, .is 1, .any, false, false⟩,
    ⟨3, 1, .rw, .is 0, .any, false, false⟩,
    ⟨4, 1, .rw, .is 0, .any, false, false⟩,
    ⟨5, 1, .rw, .is 0, .any, false, false⟩,
    ⟨6, 1, .rw, .is 1, .any, false, false⟩]⟩,
  ⟨"PWR_WAKEGPIO", 0x58, 4, 1, 4, 1, [⟨0, 24, .rw, .is 0, .any, false, false⟩]⟩,
  ⟨"PWR_WAKEPOL", 0x5C, 4, 1, 4, 1, [⟨0, 24, .rw, .is 0, .any, false, false⟩]⟩,
  ⟨"PWR_ALARM", 0x60, 4, 1, 4, 1, [⟨0, 32, .rw, .is 0, .any, false, false⟩]⟩,
  ⟨"PWR_WAKE", 0x64, 4, 1, 4, 1, [⟨0, 7, .ro, .is 0, .any, false, false⟩,
    ⟨7, 1, .ro, .is 0, .any, false, false⟩]⟩]

/-- Registers of PWR, spec/03_register_pages.md, 18_power_states.md. -/
def rowsPWR1 : List RegRow := [
  ⟨"PWR_SRAMRET0", 0x68, 4, 1, 4, 1, [⟨0, 32, .rw, .is 0, .any, false, false⟩]⟩,
  ⟨"PWR_SRAMRET1", 0x6C, 4, 1, 4, 1, [⟨0, 32, .rw, .is 0, .any, false, false⟩]⟩,
  ⟨"PWR_RETSEL", 0x70, 4, 1, 4, 1, [⟨0, 1, .rw, .is 1, .any, false, false⟩,
    ⟨1, 1, .rw, .is 1, .any, false, false⟩,
    ⟨2, 1, .rw, .is 1, .any, false, false⟩]⟩,
  ⟨"PWR_RESSTLO", 0x80, 8, 4, 4, 1, [⟨0, 32, .rw, .is 0, .any, false, false⟩]⟩,
  ⟨"PWR_RESSTHI", 0x84, 8, 4, 4, 1, [⟨0, 32, .rw, .is 0, .any, false, false⟩]⟩,
  ⟨"PWR_RESFLO", 0xA0, 8, 4, 4, 1, [⟨0, 32, .rw, .is 0, .any, false, false⟩]⟩,
  ⟨"PWR_RESFHI", 0xA4, 8, 4, 4, 1, [⟨0, 32, .rw, .is 0, .any, false, false⟩]⟩,
  ⟨"PWR_RESCLO", 0xC0, 8, 4, 4, 1, [⟨0, 32, .rw, .is 0, .any, false, false⟩]⟩,
  ⟨"PWR_RESCHI", 0xC4, 8, 4, 4, 1, [⟨0, 32, .rw, .is 0, .any, false, false⟩]⟩,
  ⟨"PWR_CNT", 0xE0, 4, 3, 4, 1, [⟨0, 31, .rc, .is 0, .any, false, false⟩,
    ⟨31, 1, .w1c, .is 0, .any, false, false⟩]⟩]

/-- Every register of PWR beyond the common page header. -/
def rowsPWR : List RegRow := rowsPWR0 ++ rowsPWR1

/-- Registers of SYS, spec/03_register_pages.md, 20_startup.md. -/
def rowsSYS0 : List RegRow := [
  ⟨"SYS_ERRPOL", 0x40, 4, 1, 4, 1, [⟨0, 1, .rw, .is 1, .any, false, false⟩,
    ⟨1, 1, .rw, .is 1, .any, false, false⟩,
    ⟨2, 1, .rw, .is 0, .any, false, false⟩,
    ⟨3, 1, .rw, .is 1, .any, false, false⟩]⟩,
  ⟨"SYS_START", 0x44, 4, 1, 4, 1, [⟨0, 3, .ro, .open, .any, false, false⟩,
    ⟨3, 1, .ro, .open, .any, false, false⟩,
    ⟨4, 1, .ro, .open, .any, false, false⟩,
    ⟨16, 16, .ro, .open, .any, false, false⟩]⟩]

/-- Every register of SYS beyond the common page header. -/
def rowsSYS : List RegRow := rowsSYS0

/-- Registers of TIME, spec/04_timebase.md. -/
def rowsTIME0 : List RegRow := [
  ⟨"TIME_EV_RAW", 0x10, 4, 1, 4, 1, [⟨0, 1, .w1c, .is 0, .any, false, false⟩,
    ⟨1, 1, .w1c, .is 0, .any, false, false⟩,
    ⟨2, 1, .w1c, .is 0, .any, false, false⟩,
    ⟨3, 1, .w1c, .is 0, .any, false, false⟩,
    ⟨4, 1, .w1c, .is 0, .any, false, false⟩,
    ⟨5, 1, .w1c, .is 0, .any, false, false⟩,
    ⟨6, 1, .w1c, .is 0, .any, false, false⟩,
    ⟨7, 1, .w1c, .is 0, .any, false, false⟩,
    ⟨8, 1, .w1c, .is 0, .any, false, false⟩,
    ⟨9, 1, .w1c, .is 0, .any, false, false⟩]⟩,
  ⟨"TIME_FRAC", 0x40, 4, 1, 4, 1, [⟨0, 16, .rw, .is 0, .any, false, false⟩]⟩,
  ⟨"TIME_NS", 0x44, 4, 1, 4, 1, [⟨0, 32, .rw, .is 0, .any, false, false⟩]⟩,
  ⟨"TIME_SECLO", 0x48, 4, 1, 4, 1, [⟨0, 32, .rw, .is 0, .any, false, false⟩]⟩,
  ⟨"TIME_SECHI", 0x4C, 4, 1, 4, 1, [⟨0, 16, .rw, .is 0, .any, false, false⟩]⟩,
  ⟨"TIME_INCRLO", 0x50, 4, 1, 4, 1, [⟨0, 32, .rw, .is 0, .any, false, false⟩]⟩,
  ⟨"TIME_INCRHI", 0x54, 4, 1, 4, 1, [⟨0, 8, .rw, .is 4, .any, false, false⟩]⟩,
  ⟨"TIME_STEP", 0x58, 4, 1, 4, 1, [⟨0, 32, .wo, .is 0, .any, false, false⟩]⟩,
  ⟨"TIME_SLEW", 0x5C, 4, 1, 4, 1, [⟨0, 32, .rw, .is 0, .any, false, false⟩]⟩,
  ⟨"TIME_SLEWCFG", 0x60, 4, 1, 4, 1, [⟨0, 10, .rw, .is 100, .any, false, false⟩]⟩,
  ⟨"TIME_REFCTL", 0x64, 4, 1, 4, 1, [⟨0, 1, .rw, .is 0, .any, false, false⟩,
    ⟨1, 1, .ro, .is 0, .any, false, false⟩,
    ⟨2, 1, .ro, .is 0, .any, false, false⟩]⟩,
  ⟨"TIME_SYNCCFG", 0x68, 4, 1, 4, 1, [⟨0, 2, .rw, .is 0, .any, false, false⟩,
    ⟨2, 1, .rw, .is 1, .any, false, false⟩,
    ⟨3, 1, .rw, .is 0, .any, false, false⟩,
    ⟨4, 4, .rw, .is 1, .any, false, false⟩,
    ⟨8, 4, .rw, .is 4, .any, false, false⟩]⟩]

/-- Registers of TIME, spec/04_timebase.md. -/
def rowsTIME1 : List RegRow := [
  ⟨"TIME_SYNCIVL", 0x6C, 4, 1, 4, 1, [⟨0, 16, .rw, .is 1000, .any, false, false⟩]⟩,
  ⟨"TIME_MEAS", 0x70, 4, 1, 4, 1, [⟨0, 32, .wo, .is 0, .any, false, false⟩]⟩,
  ⟨"TIME_STATE", 0x74, 4, 1, 4, 1, [⟨0, 3, .ro, .is 0, .any, false, false⟩,
    ⟨8, 8, .ro, .is 0, .any, false, false⟩,
    ⟨16, 1, .w1c, .is 0, .any, false, false⟩]⟩,
  ⟨"TIME_LOCKCFG", 0x78, 4, 1, 4, 1, [⟨0, 16, .rw, .is 1000, .any, false, false⟩,
    ⟨16, 4, .rw, .is 4, .any, false, false⟩]⟩,
  ⟨"TIME_UNC", 0x7C, 4, 1, 4, 1, [⟨0, 32, .rw, .is 4294967295, .any, false, false⟩]⟩,
  ⟨"TIME_UNCCFG", 0x80, 4, 1, 4, 1, [⟨0, 16, .rw, .is 50, .any, false, false⟩,
    ⟨16, 16, .rw, .is 100, .any, false, false⟩]⟩,
  ⟨"TIME_UNCMAX", 0x84, 4, 1, 4, 1, [⟨0, 32, .rw, .is 1000000, .any, false, false⟩]⟩,
  ⟨"TIME_LASTMEAS", 0x88, 4, 1, 4, 1, [⟨0, 32, .ro, .is 0, .any, false, false⟩]⟩,
  ⟨"TIME_MEASCNT", 0x8C, 4, 1, 4, 1, [⟨0, 31, .rw, .is 0, .any, false, false⟩,
    ⟨31, 1, .w1c, .is 0, .any, false, false⟩]⟩,
  ⟨"TIME_MISSCNT", 0x90, 4, 1, 4, 1, [⟨0, 31, .rw, .is 0, .any, false, false⟩,
    ⟨31, 1, .w1c, .is 0, .any, false, false⟩]⟩,
  ⟨"TIME_STEPMAX", 0x94, 4, 1, 4, 1, [⟨0, 16, .rw, .is 10000, .any, false, false⟩]⟩,
  ⟨"TIME_PPSCFG", 0x98, 4, 1, 4, 1, [⟨0, 20, .rw, .is 100000, .any, false, false⟩,
    ⟨20, 1, .rw, .is 0, .any, false, false⟩]⟩]

/-- Registers of TIME, spec/04_timebase.md. -/
def rowsTIME2 : List RegRow := [
  ⟨"TIME_PPSFRAC", 0xA0, 4, 1, 4, 1, [⟨0, 16, .ro, .is 0, .any, false, false⟩]⟩,
  ⟨"TIME_PPSNS", 0xA4, 4, 1, 4, 1, [⟨0, 32, .ro, .is 0, .any, false, false⟩]⟩,
  ⟨"TIME_PPSSECLO", 0xA8, 4, 1, 4, 1, [⟨0, 32, .ro, .is 0, .any, false, false⟩]⟩,
  ⟨"TIME_PPSSECHI", 0xAC, 4, 1, 4, 1, [⟨0, 16, .ro, .is 0, .any, false, false⟩]⟩,
  ⟨"TIME_SLPPER", 0xB0, 4, 1, 4, 1, [⟨0, 16, .ro, .is 37888, .any, false, false⟩,
    ⟨16, 16, .ro, .is 30517, .any, false, false⟩]⟩,
  ⟨"TIME_SLPCFG", 0xB4, 4, 1, 4, 1, [⟨0, 8, .rw, .is 10, .any, false, false⟩,
    ⟨8, 1, .ro, .is 0, .any, false, false⟩]⟩,
  ⟨"TIME_TSMODE", 0xC0, 4, 1, 4, 1, [⟨0, 8, .rw, .is 255, .any, false, false⟩,
    ⟨8, 1, .rw, .is 1, .any, false, false⟩,
    ⟨9, 3, .rw, .is 7, .any, false, false⟩]⟩,
  ⟨"TIME_ETRIM", 0x100, 4, 8, 4, 1, [⟨0, 16, .rw, .is 0, .any, false, false⟩,
    ⟨16, 16, .rw, .is 0, .any, false, false⟩]⟩,
  ⟨"TIME_RTRIM", 0x120, 4, 4, 4, 1, [⟨0, 16, .rw, .is 0, .any, false, false⟩,
    ⟨16, 16, .rw, .is 0, .any, false, false⟩]⟩]

/-- Every register of TIME beyond the common page header. -/
def rowsTIME : List RegRow := rowsTIME0 ++ rowsTIME1 ++ rowsTIME2

/-- Registers of RFE, spec/05_rf_front_end.md. -/
def rowsRFE0 : List RegRow := [
  ⟨"RFE_CAPS", 0x4, 4, 1, 4, 1, [⟨0, 8, .ro, .byInst [4, 8, 8, 6], .any, false, false⟩,
    ⟨8, 9, .ro, .byInst [64, 64, 64, 256], .any, false, false⟩,
    ⟨17, 2, .ro, .byInst [1, 1, 1, 3], .any, false, false⟩]⟩,
  ⟨"RFE_EV_RAW", 0x10, 4, 1, 4, 1, [⟨0, 1, .w1c, .is 0, .any, false, false⟩,
    ⟨1, 1, .w1c, .is 0, .any, false, false⟩,
    ⟨2, 1, .w1c, .is 0, .any, false, false⟩,
    ⟨3, 1, .w1c, .is 0, .any, false, false⟩,
    ⟨4, 1, .w1c, .is 0, .any, false, false⟩,
    ⟨5, 1, .w1c, .is 0, .any, false, false⟩,
    ⟨6, 1, .w1c, .is 0, .any, false, false⟩,
    ⟨7, 1, .w1c, .is 0, .any, false, false⟩,
    ⟨8, 1, .w1c, .is 0, .any, false, false⟩,
    ⟨31, 1, .w1c, .is 0, .any, false, false⟩]⟩,
  ⟨"RFE_PATHCFG", 0x40, 4, 3, 4, 1, [⟨0, 2, .rw, .is 0, .within 0 2, false, false⟩,
    ⟨2, 2, .rw, .byIdx [0, 1, 0], .within 0 2, false, false⟩,
    ⟨4, 2, .rw, .is 0, .within 0 2, false, false⟩,
    ⟨6, 2, .rw, .is 2, .within 0 2, false, false⟩,
    ⟨8, 1, .rw, .is 0, .any, false, false⟩,
    ⟨9, 5, .rw, .is 2, .within 0 12, false, false⟩]⟩,
  ⟨"RFE_PATHSTAT", 0x50, 4, 3, 4, 1, [⟨0, 3, .ro, .is 0, .any, false, false⟩,
    ⟨3, 1, .ro, .is 0, .any, false, false⟩,
    ⟨4, 1, .ro, .is 0, .any, false, false⟩,
    ⟨8, 8, .ro, .is 0, .any, false, false⟩]⟩,
  ⟨"RFE_OPSEL", 0x60, 4, 1, 4, 1, [⟨0, 2, .rw, .is 0, .within 0 2, false, false⟩,
    ⟨2, 2, .rw, .is 0, .any, false, false⟩,
    ⟨8, 8, .rw, .is 0, .any, false, false⟩,
    ⟨16, 8, .rw, .is 0, .any, false, false⟩]⟩,
  ⟨"RFE_SURVEY", 0x64, 4, 1, 4, 1, [⟨0, 16, .rw, .is 1000, .any, false, false⟩,
    ⟨16, 8, .rw, .is 1, .any, false, false⟩]⟩,
  ⟨"RFE_SURVADDR", 0x68, 4, 1, 4, 1, [⟨0, 32, .rw, .is 318767104, .any, false, false⟩]⟩,
  ⟨"RFE_CALIDX", 0x70, 4, 1, 4, 1, [⟨0, 8, .rw, .is 0, .any, false, false⟩]⟩,
  ⟨"RFE_CALDATA", 0x74, 4, 4, 4, 1, [⟨0, 32, .rw, .open, .any, false, false⟩]⟩,
  ⟨"RFE_BGCAL", 0x84, 4, 1, 4, 1, [⟨0, 1, .rw, .is 1, .any, false, false⟩,
    ⟨8, 5, .rw, .is 5, .any, false, false⟩,
    ⟨16, 16, .rw, .is 60, .any, false, false⟩]⟩,
  ⟨"RFE_CNT0", 0x88, 4, 1, 4, 1, [⟨0, 15, .rc, .is 0, .any, false, false⟩,
    ⟨15, 1, .w1c, .is 0, .any, false, false⟩,
    ⟨16, 15, .rc, .is 0, .any, false, false⟩,
    ⟨31, 1, .w1c, .is 0, .any, false, false⟩]⟩,
  ⟨"RFE_CNT1", 0x8C, 4, 1, 4, 1, [⟨0, 15, .rc, .is 0, .any, false, false⟩,
    ⟨15, 1, .w1c, .is 0, .any, false, false⟩,
    ⟨16, 15, .rc, .is 0, .any, false, false⟩,
    ⟨31, 1, .w1c, .is 0, .any, false, false⟩]⟩]

/-- Registers of RFE, spec/05_rf_front_end.md. -/
def rowsRFE1 : List RegRow := [
  ⟨"RFE_CNT2", 0x90, 4, 1, 4, 1, [⟨0, 15, .rc, .is 0, .any, false, false⟩,
    ⟨15, 1, .w1c, .is 0, .any, false, false⟩,
    ⟨16, 15, .rc, .is 0, .any, false, false⟩,
    ⟨31, 1, .w1c, .is 0, .any, false, false⟩]⟩,
  ⟨"RFE_CNT3", 0x94, 4, 1, 4, 1, [⟨0, 15, .rc, .is 0, .any, false, false⟩,
    ⟨15, 1, .w1c, .is 0, .any, false, false⟩]⟩,
  ⟨"RFE_MASKLAST", 0x98, 4, 1, 4, 1, [⟨0, 16, .ro, .is 0, .any, false, false⟩,
    ⟨16, 4, .ro, .is 0, .any, false, false⟩,
    ⟨20, 1, .ro, .is 0, .any, false, false⟩]⟩,
  ⟨"RFE_REFLCFG", 0x9C, 4, 1, 4, 1, [⟨0, 8, .rw, .is 24, .any, false, false⟩]⟩,
  ⟨"RFE_REFL", 0xA0, 4, 8, 4, 1, [⟨0, 8, .ro, .is 0, .any, false, false⟩,
    ⟨8, 1, .ro, .is 0, .any, false, false⟩]⟩,
  ⟨"RFE_CANCCFG", 0xC0, 4, 1, 4, 1, [⟨0, 1, .rw, .is 1, .any, false, false⟩,
    ⟨1, 1, .rw, .is 0, .any, false, false⟩,
    ⟨2, 1, .w1s, .is 0, .any, false, false⟩,
    ⟨3, 1, .w1s, .is 0, .any, false, false⟩,
    ⟨8, 8, .rw, .is 55, .clamp 20 55, false, false⟩]⟩,
  ⟨"RFE_CANCSTAT", 0xC4, 4, 4, 4, 1, [⟨0, 8, .ro, .is 0, .any, false, false⟩,
    ⟨8, 8, .ro, .is 0, .any, false, false⟩,
    ⟨16, 1, .ro, .is 0, .any, false, false⟩,
    ⟨17, 1, .ro, .is 0, .any, false, false⟩]⟩,
  ⟨"RFE_COEXCFG", 0xE0, 4, 1, 4, 1, [⟨0, 1, .rw, .is 0, .any, false, false⟩,
    ⟨1, 5, .rw, .is 17, .any, false, false⟩,
    ⟨6, 2, .rw, .is 1, .any, false, false⟩,
    ⟨8, 2, .rw, .is 2, .any, false, false⟩,
    ⟨10, 2, .rw, .is 3, .any, false, false⟩,
    ⟨12, 2, .rw, .is 2, .any, false, false⟩,
    ⟨14, 2, .rw, .is 1, .any, false, false⟩,
    ⟨16, 8, .rw, .is 20, .any, false, false⟩,
    ⟨24, 1, .rw, .is 0, .any, false, false⟩]⟩,
  ⟨"RFE_COEXSTAT", 0xE4, 4, 1, 4, 1, [⟨0, 1, .ro, .is 0, .any, false, false⟩,
    ⟨1, 1, .ro, .is 0, .any, false, false⟩,
    ⟨2, 1, .ro, .is 0, .any, false, false⟩,
    ⟨3, 1, .ro, .is 0, .any, false, false⟩,
    ⟨4, 1, .ro, .is 0, .any, false, false⟩]⟩]

/-- Every register of RFE beyond the common page header. -/
def rowsRFE : List RegRow := rowsRFE0 ++ rowsRFE1

/-- Registers of MPHY, spec/06_mesh_listeners.md. -/
def rowsMPHY0 : List RegRow := [
  ⟨"MPHY_CAPS", 0x4, 4, 1, 4, 1, [⟨0, 9, .ro, .is 288, .any, false, false⟩,
    ⟨9, 6, .ro, .is 32, .any, false, false⟩,
    ⟨15, 3, .ro, .is 4, .any, false, false⟩]⟩,
  ⟨"MPHY_EV_RAW", 0x10, 4, 1, 4, 1, [⟨0, 1, .w1c, .is 0, .any, false, false⟩,
    ⟨1, 1, .w1c, .is 0, .any, false, false⟩,
    ⟨2, 1, .w1c, .is 0, .any, false, false⟩,
    ⟨3, 1, .w1c, .is 0, .any, false, false⟩,
    ⟨4, 1, .w1c, .is 0, .any, false, false⟩,
    ⟨5, 1, .w1c, .is 0, .any, false, false⟩,
    ⟨6, 1, .w1c, .is 0, .any, false, false⟩,
    ⟨7, 1, .w1c, .is 0, .any, false, false⟩,
    ⟨8, 1, .w1c, .is 0, .any, false, false⟩]⟩,
  ⟨"MPHY_WIN", 0x40, 4, 4, 4, 1, [⟨0, 20, .rw, .is 0, .any, false, false⟩,
    ⟨20, 3, .rw, .is 0, .within 0 4, false, false⟩]⟩,
  ⟨"MPHY_WINCTL", 0x50, 4, 1, 4, 1, [⟨0, 1, .w1s, .is 0, .any, false, false⟩,
    ⟨1, 1, .ro, .is 0, .any, false, false⟩]⟩,
  ⟨"MPHY_TXCFG", 0x54, 4, 1, 4, 1, [⟨0, 5, .rw, .is 6, .within 0 20, false, false⟩]⟩,
  ⟨"MPHY_CARRSTAT", 0x58, 4, 1, 4, 1, [⟨0, 6, .ro, .is 0, .any, false, false⟩,
    ⟨8, 6, .ro, .is 0, .any, false, false⟩,
    ⟨16, 6, .ro, .is 0, .any, false, false⟩]⟩,
  ⟨"MPHY_QUAL", 0x60, 4, 3, 4, 1, [⟨0, 5, .rw, .byIdx [4, 8, 6], .within 4 31, false, false⟩,
    ⟨5, 5, .rw, .byIdx [3, 6, 4], .within 1 31, false, false⟩,
    ⟨10, 8, .rw, .is 160, .any, false, false⟩,
    ⟨18, 10, .rw, .byIdx [12, 4, 4], .any, false, false⟩]⟩,
  ⟨"MPHY_LSEL", 0x70, 4, 1, 4, 1, [⟨0, 9, .rw, .is 0, .within 0 287, false, false⟩]⟩,
  ⟨"MPHY_LCFG", 0x74, 4, 1, 4, 1, [⟨0, 1, .rw, .is 1, .any, false, false⟩,
    ⟨1, 1, .rw, .is 0, .any, false, false⟩,
    ⟨2, 6, .rw, .is 12, .within 0 40, false, false⟩,
    ⟨16, 16, .rw, .is 12, .any, false, false⟩]⟩,
  ⟨"MPHY_LSTAT0", 0x78, 4, 1, 4, 1, [⟨0, 3, .ro, .is 0, .any, false, false⟩,
    ⟨3, 1, .ro, .is 0, .any, false, false⟩,
    ⟨4, 3, .ro, .is 0, .any, false, false⟩,
    ⟨7, 1, .ro, .open, .any, false, false⟩,
    ⟨8, 8, .ro, .is 0, .any, false, false⟩]⟩,
  ⟨"MPHY_LSTAT1", 0x7C, 4, 1, 4, 1, [⟨0, 24, .ro, .is 0, .any, false, false⟩]⟩,
  ⟨"MPHY_NFIDX", 0x80, 4, 1, 4, 1, [⟨0, 8, .rw, .is 0, .any, false, false⟩]⟩]

/-- Registers of MPHY, spec/06_mesh_listeners.md. -/
def rowsMPHY1 : List RegRow := [
  ⟨"MPHY_NFDATA", 0x84, 4, 1, 4, 1, [⟨0, 16, .ro, .nv, .any, false, false⟩,
    ⟨16, 1, .ro, .is 0, .any, false, false⟩]⟩,
  ⟨"MPHY_EQCFG", 0x90, 4, 1, 4, 1, [⟨0, 9, .rw, .is 0, .within 0 287, false, false⟩,
    ⟨9, 1, .w1s, .is 0, .any, false, false⟩,
    ⟨10, 1, .ro, .is 0, .any, false, false⟩]⟩,
  ⟨"MPHY_EQADDR", 0x94, 4, 1, 4, 1, [⟨0, 32, .rw, .is 318767104, .any, false, false⟩]⟩,
  ⟨"MPHY_RXFRAMESLO", 0xA0, 4, 1, 4, 1, [⟨0, 32, .rw, .is 0, .any, false, false⟩]⟩,
  ⟨"MPHY_RXFRAMESHI", 0xA4, 4, 1, 4, 1, [⟨0, 31, .rw, .is 0, .any, false, false⟩,
    ⟨31, 1, .w1c, .is 0, .any, false, false⟩]⟩,
  ⟨"MPHY_CNT", 0xC0, 4, 13, 4, 1, [⟨0, 31, .rc, .is 0, .any, false, false⟩,
    ⟨31, 1, .w1c, .is 0, .any, false, false⟩]⟩]

/-- Every register of MPHY beyond the common page header. -/
def rowsMPHY : List RegRow := rowsMPHY0 ++ rowsMPHY1

/-- Registers of MLC, spec/07_mesh_board.md. -/
def rowsMLC0 : List RegRow := [
  ⟨"MLC_CAPS", 0x4, 4, 1, 4, 1, [⟨0, 4, .ro, .is 8, .any, false, false⟩,
    ⟨4, 4, .ro, .is 8, .any, false, false⟩,
    ⟨8, 5, .ro, .is 16, .any, false, false⟩]⟩,
  ⟨"MLC_EV_RAW", 0x10, 4, 1, 4, 1, [⟨0, 1, .w1c, .is 0, .any, false, false⟩,
    ⟨1, 1, .w1c, .is 0, .any, false, true⟩,
    ⟨2, 1, .w1c, .is 0, .any, false, false⟩,
    ⟨3, 1, .w1c, .is 0, .any, false, false⟩,
    ⟨4, 1, .w1c, .is 0, .any, false, false⟩,
    ⟨5, 1, .w1c, .is 0, .any, false, false⟩,
    ⟨6, 1, .w1c, .is 0, .any, false, false⟩,
    ⟨7, 1, .w1c, .is 0, .any, false, false⟩,
    ⟨8, 1, .w1c, .is 0, .any, false, false⟩,
    ⟨9, 1, .w1c, .is 0, .any, false, false⟩,
    ⟨10, 1, .w1c, .is 0, .any, false, false⟩,
    ⟨11, 1, .w1c, .is 0, .any, false, false⟩,
    ⟨31, 1, .w1c, .is 0, .any, false, false⟩]⟩,
  ⟨"MLC_LOADSRCLO", 0x40, 4, 1, 4, 1, [⟨0, 32, .rw, .is 0, .any, false, false⟩]⟩,
  ⟨"MLC_LOADSRCHI", 0x44, 4, 1, 4, 1, [⟨0, 8, .rw, .is 0, .any, false, false⟩]⟩,
  ⟨"MLC_LOADFIRST", 0x48, 4, 1, 4, 1, [⟨0, 20, .rw, .is 0, .any, false, false⟩]⟩,
  ⟨"MLC_LOADCOUNT", 0x4C, 4, 1, 4, 1, [⟨0, 21, .rw, .is 0, .any, false, false⟩]⟩,
  ⟨"MLC_QUIETCFG", 0x50, 4, 1, 4, 1, [⟨0, 2, .rw, .is 1, .within 0 2, false, false⟩,
    ⟨8, 8, .rw, .is 50, .any, false, false⟩,
    ⟨16, 5, .rw, .is 2, .within 0 20, false, false⟩]⟩,
  ⟨"MLC_VENDORID", 0x54, 4, 1, 4, 1, [⟨0, 24, .ro, .nv, .any, false, false⟩]⟩,
  ⟨"MLC_CNT", 0x80, 4, 15, 4, 1, [⟨0, 31, .rc, .is 0, .any, false, false⟩,
    ⟨31, 1, .w1c, .is 0, .any, false, false⟩]⟩,
  ⟨"MLC_TILE_CTL", 0x100, 128, 8, 4, 1, [⟨0, 1, .rw, .is 0, .any, false, false⟩,
    ⟨1, 1, .rw, .is 0, .any, false, true⟩,
    ⟨2, 1, .rw, .is 0, .any, false, true⟩,
    ⟨3, 1, .rw, .is 1, .any, false, false⟩,
    ⟨4, 1, .ro, .is 0, .any, false, false⟩,
    ⟨5, 1, .ro, .is 0, .any, false, false⟩,
    ⟨8, 12, .rw, .is 0, .any, false, false⟩,
    ⟨20, 4, .ro, .is 0, .any, false, false⟩]⟩,
  ⟨"MLC_TILE_PAN", 0x104, 128, 8, 4, 1, [⟨0, 16, .rw, .is 65535, .any, false, true⟩,
    ⟨16, 16, .rw, .is 0, .any, false, true⟩]⟩,
  ⟨"MLC_TILE_SLOT", 0x108, 128, 8, 4, 1, [⟨0, 16, .rw, .is 25000, .any, false, true⟩,
    ⟨16, 8, .rw, .is 16, .any, false, true⟩]⟩]

/-- Registers of MLC, spec/07_mesh_board.md. -/
def rowsMLC1 : List RegRow := [
  ⟨"MLC_TILE_CH0", 0x10C, 128, 8, 4, 1, [⟨0, 24, .rw, .is 0, .any, false, true⟩]⟩,
  ⟨"MLC_TILE_SPACING", 0x110, 128, 8, 4, 1, [⟨0, 16, .rw, .is 200, .any, false, true⟩]⟩,
  ⟨"MLC_TILE_EPOCHNS", 0x114, 128, 8, 4, 1, [⟨0, 32, .rw, .is 0, .any, false, true⟩]⟩,
  ⟨"MLC_TILE_EPOCHSECLO", 0x118, 128, 8, 4, 1, [⟨0, 32, .rw, .is 0, .any, false, true⟩]⟩,
  ⟨"MLC_TILE_EPOCHSECHI", 0x11C, 128, 8, 4, 1, [⟨0, 16, .rw, .is 0, .any, false, true⟩]⟩,
  ⟨"MLC_TILE_ASNBASELO", 0x120, 128, 8, 4, 1, [⟨0, 32, .rw, .is 0, .any, false, true⟩]⟩,
  ⟨"MLC_TILE_ASNBASEHI", 0x124, 128, 8, 4, 1, [⟨0, 8, .rw, .is 0, .any, false, true⟩]⟩,
  ⟨"MLC_TILE_ASNLO", 0x128, 128, 8, 4, 1, [⟨0, 32, .ro, .is 0, .any, false, false⟩]⟩,
  ⟨"MLC_TILE_ASNHI", 0x12C, 128, 8, 4, 1, [⟨0, 8, .ro, .is 0, .any, false, false⟩]⟩,
  ⟨"MLC_TILE_BEACON", 0x130, 128, 8, 4, 1, [⟨0, 8, .rw, .is 0, .any, false, false⟩,
    ⟨8, 8, .rw, .is 64, .any, false, false⟩,
    ⟨16, 1, .rw, .is 0, .any, false, false⟩,
    ⟨17, 1, .rw, .is 1, .any, false, false⟩]⟩,
  ⟨"MLC_TILE_BCNA", 0x134, 128, 8, 4, 1, [⟨0, 32, .rw, .is 0, .any, false, false⟩]⟩,
  ⟨"MLC_TILE_BCNB", 0x138, 128, 8, 4, 1, [⟨0, 32, .rw, .is 0, .any, false, false⟩]⟩]

/-- Registers of MLC, spec/07_mesh_board.md. -/
def rowsMLC2 : List RegRow := [
  ⟨"MLC_TILE_BCNOFS", 0x13C, 128, 8, 4, 1, [⟨0, 8, .rw, .is 0, .any, false, false⟩,
    ⟨8, 8, .rw, .is 0, .any, false, false⟩,
    ⟨16, 12, .rw, .is 0, .any, false, false⟩]⟩,
  ⟨"MLC_TILE_CSMA", 0x140, 128, 8, 4, 1, [⟨0, 4, .rw, .is 1, .any, false, false⟩,
    ⟨4, 4, .rw, .is 7, .any, false, false⟩,
    ⟨8, 4, .rw, .is 3, .any, false, false⟩,
    ⟨12, 8, .rw, .is 181, .any, false, false⟩]⟩,
  ⟨"MLC_TILE_SEED", 0x144, 128, 8, 4, 1, [⟨0, 32, .rw, .is 1, .any, false, false⟩]⟩,
  ⟨"MLC_TILE_NBR", 0x148, 128, 8, 4, 1, [⟨0, 16, .rw, .is 65534, .any, false, true⟩]⟩,
  ⟨"MLC_TILE_EXTLO", 0x14C, 128, 8, 4, 1, [⟨0, 32, .rw, .nv, .any, false, true⟩]⟩,
  ⟨"MLC_TILE_EXTHI", 0x150, 128, 8, 4, 1, [⟨0, 32, .rw, .nv, .any, false, true⟩]⟩,
  ⟨"MLC_TILE_NBRSCAN", 0x154, 128, 8, 4, 1, [⟨0, 16, .rw, .is 0, .any, false, false⟩,
    ⟨16, 9, .rw, .is 0, .any, false, false⟩]⟩,
  ⟨"MLC_SFCTL", 0x1000, 512, 8, 32, 16, [⟨0, 1, .rw, .is 0, .any, false, true⟩,
    ⟨1, 1, .ro, .is 0, .any, false, false⟩,
    ⟨2, 1, .w1s, .is 0, .any, false, false⟩,
    ⟨3, 1, .ro, .is 0, .any, false, false⟩,
    ⟨4, 3, .ro, .is 0, .any, false, false⟩]⟩,
  ⟨"MLC_HOP", 0x2000, 512, 8, 4, 128, [⟨0, 16, .rw, .is 0, .any, false, true⟩,
    ⟨16, 16, .rw, .is 0, .any, false, true⟩]⟩,
  ⟨"MLC_TPL0", 0x800, 256, 8, 32, 8, [⟨0, 16, .rw, .is 2000, .any, false, true⟩,
    ⟨16, 16, .rw, .is 1000, .any, false, true⟩]⟩,
  ⟨"MLC_TPL1", 0x804, 256, 8, 32, 8, [⟨0, 16, .rw, .is 800, .any, false, true⟩,
    ⟨16, 16, .rw, .is 1000, .any, false, true⟩]⟩,
  ⟨"MLC_TPL2", 0x808, 256, 8, 32, 8, [⟨0, 16, .rw, .is 400, .any, false, true⟩,
    ⟨16, 16, .rw, .is 0, .any, false, true⟩]⟩]

/-- Registers of MLC, spec/07_mesh_board.md. -/
def rowsMLC3 : List RegRow := [
  ⟨"MLC_TPL3", 0x80C, 256, 8, 32, 8, [⟨0, 16, .rw, .is 22000, .any, false, true⟩,
    ⟨16, 8, .rw, .is 1, .any, false, true⟩]⟩,
  ⟨"MLC_TPL4", 0x810, 256, 8, 32, 8, [⟨0, 16, .rw, .is 1800, .any, false, true⟩,
    ⟨16, 16, .rw, .is 0, .any, false, true⟩]⟩,
  ⟨"MLC_SWASNLO", 0x1004, 512, 8, 32, 16, [⟨0, 32, .rw, .is 0, .any, false, false⟩]⟩,
  ⟨"MLC_SWASNHI", 0x1008, 512, 8, 32, 16, [⟨0, 8, .rw, .is 0, .any, false, false⟩]⟩,
  ⟨"MLC_ABASE", 0x100C, 512, 8, 32, 16, [⟨0, 20, .rw, .is 0, .any, false, false⟩]⟩,
  ⟨"MLC_ACOUNT", 0x1010, 512, 8, 32, 16, [⟨0, 21, .rw, .is 0, .any, false, false⟩]⟩,
  ⟨"MLC_LEN", 0x1014, 512, 8, 32, 16, [⟨0, 16, .rw, .is 0, .any, false, false⟩,
    ⟨16, 16, .rw, .is 0, .any, false, false⟩]⟩,
  ⟨"MLC_BBASE", 0x1018, 512, 8, 32, 16, [⟨0, 20, .rw, .is 0, .any, false, false⟩]⟩,
  ⟨"MLC_BCOUNT", 0x101C, 512, 8, 32, 16, [⟨0, 21, .rw, .is 0, .any, false, false⟩]⟩]

/-- Every register of MLC beyond the common page header. -/
def rowsMLC : List RegRow := rowsMLC0 ++ rowsMLC1 ++ rowsMLC2 ++ rowsMLC3

/-- Registers of MNODE, spec/08_mesh_nodes.md. -/
def rowsMNODE0 : List RegRow := [
  ⟨"MNODE_CAPS", 0x4, 4, 1, 4, 1, [⟨0, 19, .ro, .is 262144, .any, false, false⟩,
    ⟨19, 5, .ro, .is 14, .any, false, false⟩]⟩,
  ⟨"MNODE_EV_RAW", 0x10, 4, 1, 4, 1, [⟨0, 1, .w1c, .is 0, .any, false, false⟩,
    ⟨1, 1, .w1c, .is 0, .any, false, false⟩,
    ⟨2, 1, .w1c, .is 0, .any, false, false⟩,
    ⟨3, 1, .w1c, .is 0, .any, false, false⟩,
    ⟨4, 1, .w1c, .is 0, .any, false, false⟩,
    ⟨5, 1, .w1c, .is 0, .any, false, false⟩,
    ⟨6, 1, .w1c, .is 0, .any, false, false⟩,
    ⟨7, 1, .w1c, .is 0, .any, false, false⟩,
    ⟨31, 1, .w1c, .is 0, .any, false, false⟩]⟩,
  ⟨"MNODE_TBL0LO", 0x40, 4, 1, 4, 1, [⟨0, 32, .rw, .is 0, .any, true, false⟩]⟩,
  ⟨"MNODE_TBL0HI", 0x44, 4, 1, 4, 1, [⟨0, 8, .rw, .is 128, .any, true, false⟩]⟩,
  ⟨"MNODE_TBL1LO", 0x48, 4, 1, 4, 1, [⟨0, 32, .rw, .is 0, .any, true, false⟩]⟩,
  ⟨"MNODE_TBL1HI", 0x4C, 4, 1, 4, 1, [⟨0, 8, .rw, .is 130, .any, true, false⟩]⟩,
  ⟨"MNODE_DUPCFG", 0x50, 4, 1, 4, 1, [⟨0, 16, .rw, .is 400, .any, false, false⟩]⟩,
  ⟨"MNODE_PCFG", 0x54, 4, 1, 4, 1, [⟨0, 8, .rw, .is 240, .any, false, false⟩,
    ⟨8, 8, .rw, .is 255, .any, false, false⟩,
    ⟨16, 1, .rw, .is 1, .any, false, false⟩]⟩,
  ⟨"MNODE_ADDRCFG", 0x58, 4, 1, 4, 1, [⟨0, 24, .rw, .is 86400, .any, false, false⟩]⟩,
  ⟨"MNODE_DLCFG", 0x5C, 4, 1, 4, 1, [⟨0, 4, .rw, .is 8, .any, false, false⟩,
    ⟨16, 16, .rw, .is 600, .any, false, false⟩]⟩,
  ⟨"MNODE_DLTOTAL", 0x60, 4, 1, 4, 1, [⟨0, 19, .rw, .is 65536, .any, false, false⟩]⟩,
  ⟨"MNODE_DRIFTCFG", 0x64, 4, 1, 4, 1, [⟨0, 1, .rw, .is 1, .any, false, false⟩,
    ⟨1, 3, .rw, .is 2, .any, false, false⟩,
    ⟨8, 8, .rw, .is 30, .any, false, false⟩,
    ⟨16, 16, .rw, .is 1000, .any, false, false⟩]⟩]

/-- Registers of MNODE, spec/08_mesh_nodes.md. -/
def rowsMNODE1 : List RegRow := [
  ⟨"MNODE_TIMECFG", 0x68, 4, 1, 4, 1, [⟨0, 16, .rw, .is 15000, .any, false, false⟩]⟩,
  ⟨"MNODE_CMD", 0x70, 4, 1, 4, 1, [⟨0, 4, .rw, .is 0, .within 1 8, false, false⟩,
    ⟨4, 1, .w1s, .is 0, .any, false, false⟩,
    ⟨5, 1, .ro, .is 0, .any, false, false⟩,
    ⟨8, 4, .ro, .is 0, .any, false, false⟩]⟩,
  ⟨"MNODE_ARG", 0x74, 4, 4, 4, 1, [⟨0, 32, .rw, .is 0, .any, false, false⟩]⟩,
  ⟨"MNODE_RES", 0x84, 4, 1, 4, 1, [⟨0, 18, .ro, .is 0, .any, false, false⟩,
    ⟨18, 3, .ro, .is 0, .any, false, false⟩]⟩,
  ⟨"MNODE_RESSHORT", 0x88, 4, 1, 4, 1, [⟨0, 16, .ro, .is 65534, .any, false, false⟩]⟩,
  ⟨"MNODE_LOSTIDX", 0x8C, 4, 1, 4, 1, [⟨0, 18, .ro, .is 0, .any, false, false⟩]⟩,
  ⟨"MNODE_RDBUF", 0xA0, 4, 16, 4, 1, [⟨0, 32, .ro, .is 0, .any, false, false⟩]⟩,
  ⟨"MNODE_REBCFG", 0xE0, 4, 1, 4, 1, [⟨0, 2, .rw, .is 0, .within 0 2, false, false⟩]⟩,
  ⟨"MNODE_REBSRCLO", 0xE4, 4, 1, 4, 1, [⟨0, 32, .rw, .is 0, .any, false, false⟩]⟩,
  ⟨"MNODE_REBSRCHI", 0xE8, 4, 1, 4, 1, [⟨0, 8, .rw, .is 0, .any, false, false⟩]⟩,
  ⟨"MNODE_USED", 0xF0, 4, 1, 4, 1, [⟨0, 19, .ro, .is 0, .any, false, false⟩]⟩,
  ⟨"MNODE_QUEUED", 0xF4, 4, 1, 4, 1, [⟨0, 19, .ro, .is 0, .any, false, false⟩]⟩]

/-- Registers of MNODE, spec/08_mesh_nodes.md. -/
def rowsMNODE2 : List RegRow := [
  ⟨"MNODE_CNT", 0x100, 4, 14, 4, 1, [⟨0, 31, .rc, .is 0, .any, false, false⟩,
    ⟨31, 1, .w1c, .is 0, .any, false, false⟩]⟩]

/-- Every register of MNODE beyond the common page header. -/
def rowsMNODE : List RegRow := rowsMNODE0 ++ rowsMNODE1 ++ rowsMNODE2

/-- Registers of WPHY, spec/09_wlan_phy.md. -/
def rowsWPHY0 : List RegRow := [
  ⟨"WPHY_CAPS", 0x4, 4, 1, 4, 1, [⟨0, 4, .ro, .byInst [4, 8, 8], .any, false, false⟩,
    ⟨4, 3, .ro, .byInst [1, 3, 4], .any, false, false⟩,
    ⟨7, 4, .ro, .byInst [4, 8, 8], .any, false, false⟩,
    ⟨11, 1, .ro, .byInst [0, 1, 1], .any, false, false⟩,
    ⟨12, 1, .ro, .byInst [0, 0, 1], .any, false, false⟩]⟩,
  ⟨"WPHY_EV_RAW", 0x10, 4, 1, 4, 1, [⟨0, 1, .w1c, .is 0, .any, false, false⟩,
    ⟨1, 1, .w1c, .is 0, .any, false, false⟩,
    ⟨2, 1, .w1c, .is 0, .any, false, false⟩,
    ⟨3, 1, .w1c, .is 0, .any, false, false⟩,
    ⟨4, 1, .w1c, .is 0, .any, false, false⟩,
    ⟨5, 1, .w1c, .is 0, .any, false, false⟩,
    ⟨6, 1, .w1c, .is 0, .any, false, false⟩]⟩,
  ⟨"WPHY_CHANSTAGE", 0x40, 4, 1, 4, 1, [⟨0, 8, .rw, .byInst [1, 36, 37], .any, false, false⟩,
    ⟨8, 3, .rw, .is 0, .any, false, false⟩,
    ⟨16, 16, .rw, .is 0, .any, false, false⟩]⟩,
  ⟨"WPHY_CHANCTL", 0x44, 4, 1, 4, 1, [⟨0, 1, .w1s, .is 0, .any, false, false⟩,
    ⟨1, 1, .ro, .is 0, .any, false, false⟩,
    ⟨4, 3, .ro, .is 0, .any, false, false⟩]⟩,
  ⟨"WPHY_CHANCUR", 0x48, 4, 1, 4, 1, [⟨0, 32, .ro, .byInst [1, 36, 37], .any, false, false⟩]⟩,
  ⟨"WPHY_RXCFG", 0x4C, 4, 1, 4, 1, [⟨0, 6, .rw, .is 8, .within 0 40, false, false⟩,
    ⟨6, 1, .rw, .is 0, .any, false, false⟩,
    ⟨16, 8, .rw, .is 174, .clampS 161 194, false, false⟩,
    ⟨24, 8, .rw, .is 194, .clampS 174 216, false, false⟩]⟩,
  ⟨"WPHY_PWRCLASS", 0x50, 4, 1, 4, 1, [⟨0, 2, .rw, .is 0, .within 0 2, false, false⟩]⟩,
  ⟨"WPHY_EQCFG", 0x54, 4, 1, 4, 1, [⟨0, 12, .rw, .is 0, .any, false, false⟩,
    ⟨12, 2, .rw, .is 1, .within 0 2, false, false⟩,
    ⟨14, 1, .w1s, .is 0, .any, false, false⟩,
    ⟨15, 1, .ro, .is 0, .any, false, false⟩]⟩,
  ⟨"WPHY_EQADDR", 0x58, 4, 1, 4, 1, [⟨0, 32, .rw, .is 318767104, .any, false, false⟩]⟩,
  ⟨"WPHY_EQSTAT", 0x5C, 4, 1, 4, 1, [⟨0, 12, .ro, .is 0, .any, false, false⟩,
    ⟨12, 4, .ro, .is 0, .any, false, false⟩,
    ⟨16, 4, .ro, .is 0, .any, false, false⟩,
    ⟨20, 4, .ro, .is 0, .any, false, false⟩]⟩,
  ⟨"WPHY_GRANTIDX", 0x60, 4, 1, 4, 1, [⟨0, 5, .rw, .is 0, .any, false, false⟩]⟩,
  ⟨"WPHY_GRANTDATA_W0", 0x64, 4, 1, 4, 1, [⟨0, 8, .rw, .is 0, .any, false, false⟩,
    ⟨8, 8, .rw, .is 0, .any, false, false⟩,
    ⟨16, 1, .rw, .is 0, .any, false, false⟩,
    ⟨17, 1, .ro, .is 0, .any, false, false⟩]⟩]

/-- Registers of WPHY, spec/09_wlan_phy.md. -/
def rowsWPHY1 : List RegRow := [
  ⟨"WPHY_GRANTDATA_W1", 0x68, 4, 1, 4, 1, [⟨0, 16, .rw, .is 0, .any, false, false⟩,
    ⟨16, 16, .rw, .is 0, .any, false, false⟩]⟩,
  ⟨"WPHY_GRANTDATA_W2", 0x6C, 4, 1, 4, 1, [⟨0, 32, .rw, .is 0, .any, false, false⟩]⟩,
  ⟨"WPHY_GRANTDATA_W3", 0x70, 4, 1, 4, 1, [⟨0, 16, .rw, .is 0, .any, false, false⟩]⟩,
  ⟨"WPHY_CNT", 0x80, 4, 11, 4, 1, [⟨0, 31, .rc, .is 0, .any, false, false⟩,
    ⟨31, 1, .w1c, .is 0, .any, false, false⟩]⟩]

/-- Every register of WPHY beyond the common page header. -/
def rowsWPHY : List RegRow := rowsWPHY0 ++ rowsWPHY1

/-- Registers of WMAC, spec/10_wlan_access.md. -/
def rowsWMAC0 : List RegRow := [
  ⟨"WMAC_EV_RAW", 0x10, 4, 1, 4, 1, [⟨0, 1, .w1c, .is 0, .any, false, false⟩,
    ⟨1, 1, .w1c, .is 0, .any, false, false⟩,
    ⟨2, 1, .w1c, .is 0, .any, false, false⟩,
    ⟨3, 1, .w1c, .is 0, .any, false, false⟩]⟩,
  ⟨"WMAC_EDCA", 0x40, 4, 4, 4, 1, [⟨0, 4, .rw, .byIdx [7, 3, 2, 2], .any, false, false⟩,
    ⟨4, 4, .rw, .byIdx [4, 4, 3, 2], .any, false, false⟩,
    ⟨8, 4, .rw, .byIdx [10, 6, 4, 3], .any, false, false⟩,
    ⟨16, 16, .rw, .byIdx [0, 0, 94, 47], .any, false, false⟩]⟩,
  ⟨"WMAC_SEED", 0x50, 4, 4, 4, 1, [⟨0, 32, .rw, .is 1, .any, false, false⟩]⟩,
  ⟨"WMAC_TXCFG", 0x60, 4, 1, 4, 1, [⟨0, 4, .rw, .is 7, .any, false, false⟩,
    ⟨16, 16, .rw, .is 200, .any, false, false⟩]⟩,
  ⟨"WMAC_BSSCTL", 0x80, 4, 16, 4, 1, [⟨0, 1, .rw, .is 0, .any, false, false⟩,
    ⟨16, 16, .rw, .is 100, .any, false, false⟩]⟩,
  ⟨"WMAC_BSSADDR_W0", 0x100, 8, 16, 4, 1, [⟨0, 32, .rw, .nv, .any, false, false⟩]⟩,
  ⟨"WMAC_BSSADDR_W1", 0x104, 8, 16, 4, 1, [⟨0, 16, .rw, .nv, .any, false, false⟩]⟩,
  ⟨"WMAC_MLDADDR_W0", 0x180, 4, 1, 4, 1, [⟨0, 32, .rw, .nv, .any, false, false⟩]⟩,
  ⟨"WMAC_MLDADDR_W1", 0x184, 4, 1, 4, 1, [⟨0, 16, .rw, .nv, .any, false, false⟩]⟩,
  ⟨"WMAC_BCNADDR", 0x200, 4, 16, 4, 1, [⟨0, 32, .rw, .is 0, .any, false, false⟩]⟩,
  ⟨"WMAC_CNT", 0x280, 4, 8, 4, 1, [⟨0, 31, .rc, .is 0, .any, false, false⟩,
    ⟨31, 1, .w1c, .is 0, .any, false, false⟩]⟩]

/-- Every register of WMAC beyond the common page header. -/
def rowsWMAC : List RegRow := rowsWMAC0

/-- Registers of MLD, spec/10_wlan_access.md. -/
def rowsMLD0 : List RegRow := [
  ⟨"MLD_EV_RAW", 0x10, 4, 1, 4, 1, [⟨0, 1, .w1c, .is 0, .any, false, false⟩,
    ⟨1, 1, .w1c, .is 0, .any, false, false⟩,
    ⟨2, 1, .w1c, .is 0, .any, false, false⟩,
    ⟨3, 1, .w1c, .is 0, .any, false, false⟩]⟩,
  ⟨"MLD_STACMD", 0x40, 4, 1, 4, 1, [⟨0, 4, .rw, .is 0, .within 1 5, false, false⟩,
    ⟨4, 1, .w1s, .is 0, .any, false, false⟩,
    ⟨5, 1, .ro, .is 0, .any, false, false⟩,
    ⟨8, 4, .ro, .is 0, .any, false, false⟩,
    ⟨12, 10, .ro, .is 0, .any, false, false⟩]⟩,
  ⟨"MLD_STAARG", 0x44, 4, 4, 4, 1, [⟨0, 32, .rw, .is 0, .any, false, false⟩]⟩,
  ⟨"MLD_TSFEPOCHLO", 0x60, 4, 1, 4, 1, [⟨0, 32, .rw, .is 0, .any, false, false⟩]⟩,
  ⟨"MLD_TSFEPOCHHI", 0x64, 4, 1, 4, 1, [⟨0, 32, .rw, .is 0, .any, false, false⟩]⟩,
  ⟨"MLD_TSFEPOCHSECHI", 0x5C, 4, 1, 4, 1, [⟨0, 16, .rw, .is 0, .any, false, false⟩]⟩,
  ⟨"MLD_QCFG", 0x68, 4, 1, 4, 1, [⟨0, 12, .rw, .is 512, .any, false, false⟩,
    ⟨16, 16, .rw, .is 500, .any, false, false⟩]⟩,
  ⟨"MLD_QTOTAL", 0x6C, 4, 1, 4, 1, [⟨0, 20, .rw, .is 131072, .any, false, false⟩]⟩,
  ⟨"MLD_PLANCFG", 0x70, 4, 1, 4, 1, [⟨0, 7, .rw, .is 64, .within 1 64, false, false⟩,
    ⟨7, 1, .rw, .is 0, .any, false, false⟩,
    ⟨8, 8, .rw, .is 8, .any, false, false⟩,
    ⟨16, 12, .rw, .is 100, .any, false, false⟩]⟩,
  ⟨"MLD_MAXPPDU", 0x74, 4, 1, 4, 1, [⟨0, 13, .rw, .is 5484, .any, false, false⟩]⟩,
  ⟨"MLD_MUCFG", 0x78, 4, 1, 4, 1, [⟨0, 8, .rw, .is 50, .any, false, false⟩,
    ⟨8, 8, .rw, .is 64, .any, false, false⟩,
    ⟨16, 16, .rw, .is 8192, .any, false, false⟩]⟩,
  ⟨"MLD_TWTCFG", 0x7C, 4, 1, 4, 1, [⟨0, 16, .rw, .is 500, .any, false, false⟩]⟩]

/-- Registers of MLD, spec/10_wlan_access.md. -/
def rowsMLD1 : List RegRow := [
  ⟨"MLD_TWTIDX", 0x80, 4, 1, 4, 1, [⟨0, 12, .rw, .is 0, .any, false, false⟩]⟩,
  ⟨"MLD_TWTDATA", 0x84, 4, 5, 4, 1, [⟨0, 32, .rw, .is 0, .any, false, false⟩]⟩,
  ⟨"MLD_LATABLE", 0xA0, 4, 16, 4, 1, [⟨0, 16, .rw, .nv, .any, false, false⟩]⟩,
  ⟨"MLD_CNT", 0x100, 4, 6, 4, 1, [⟨0, 31, .rc, .is 0, .any, false, false⟩,
    ⟨31, 1, .w1c, .is 0, .any, false, false⟩]⟩]

/-- Every register of MLD beyond the common page header. -/
def rowsMLD : List RegRow := rowsMLD0 ++ rowsMLD1

/-- Registers of YARD, spec/11_wagon_fabric.md. -/
def rowsYARD0 : List RegRow := [
  ⟨"YARD_CAPS", 0x4, 4, 1, 4, 1, [⟨0, 5, .ro, .is 16, .any, false, false⟩,
    ⟨5, 5, .ro, .is 12, .any, false, false⟩,
    ⟨10, 4, .ro, .is 4, .any, false, false⟩]⟩,
  ⟨"YARD_EV_RAW", 0x10, 4, 1, 4, 1, [⟨0, 1, .w1c, .is 0, .any, false, false⟩,
    ⟨1, 1, .w1c, .is 0, .any, false, false⟩,
    ⟨2, 1, .w1c, .is 0, .any, false, false⟩,
    ⟨3, 1, .w1c, .is 0, .any, false, false⟩,
    ⟨4, 1, .w1c, .is 0, .any, false, false⟩,
    ⟨5, 1, .w1c, .is 0, .any, false, false⟩,
    ⟨6, 1, .w1c, .is 0, .any, false, false⟩,
    ⟨7, 1, .w1c, .is 0, .any, false, false⟩]⟩,
  ⟨"YARD_CLASS", 0x40, 4, 4, 4, 1, [⟨0, 6, .rw, .is 63, .any, false, false⟩]⟩,
  ⟨"YARD_ISLRESV", 0x50, 4, 1, 4, 1, [⟨0, 17, .rw, .is 8192, .any, false, false⟩]⟩,
  ⟨"YARD_ABANDON", 0x54, 4, 1, 4, 1, [⟨0, 16, .rw, .is 100, .any, false, false⟩]⟩,
  ⟨"YARD_PBNS", 0x58, 4, 1, 4, 1, [⟨0, 32, .rw, .is 0, .any, false, false⟩]⟩,
  ⟨"YARD_PBSECLO", 0x5C, 4, 1, 4, 1, [⟨0, 32, .rw, .is 0, .any, false, false⟩]⟩,
  ⟨"YARD_PBSECHI", 0x60, 4, 1, 4, 1, [⟨0, 16, .rw, .is 0, .any, false, false⟩]⟩,
  ⟨"YARD_PBCTL", 0x64, 4, 1, 4, 1, [⟨0, 1, .rw, .is 1, .any, false, false⟩,
    ⟨1, 1, .w1s, .is 0, .any, false, false⟩,
    ⟨2, 1, .ro, .is 0, .any, false, false⟩,
    ⟨3, 1, .ro, .is 0, .any, false, false⟩]⟩,
  ⟨"YARD_SWCREATE", 0x68, 4, 1, 4, 1, [⟨0, 32, .wo, .is 0, .any, false, false⟩]⟩,
  ⟨"YARD_SWRES", 0x6C, 4, 1, 4, 1, [⟨0, 16, .ro, .is 0, .any, false, false⟩,
    ⟨16, 2, .ro, .is 0, .any, false, false⟩,
    ⟨18, 1, .ro, .is 1, .any, false, false⟩]⟩,
  ⟨"YARD_SWCPL0", 0x70, 4, 1, 4, 1, [⟨0, 16, .rw, .is 0, .any, false, false⟩,
    ⟨16, 3, .rw, .is 0, .any, false, false⟩,
    ⟨19, 4, .rw, .is 0, .any, false, false⟩]⟩]

/-- Registers of YARD, spec/11_wagon_fabric.md. -/
def rowsYARD1 : List RegRow := [
  ⟨"YARD_SWCPL1", 0x74, 4, 1, 4, 1, [⟨0, 32, .wo, .is 0, .any, false, false⟩]⟩,
  ⟨"YARD_HISTCFG", 0x78, 4, 1, 4, 1, [⟨0, 16, .rw, .is 1000, .any, false, false⟩,
    ⟨16, 1, .ro, .is 0, .any, false, false⟩]⟩,
  ⟨"YARD_USED", 0x7C, 4, 1, 4, 1, [⟨0, 17, .ro, .is 0, .any, false, false⟩]⟩,
  ⟨"YARD_DEPTH", 0x80, 4, 4, 4, 1, [⟨0, 17, .ro, .is 0, .any, false, false⟩]⟩,
  ⟨"YARD_MISSLAST", 0x90, 4, 1, 4, 1, [⟨0, 12, .ro, .is 0, .any, false, false⟩,
    ⟨12, 16, .ro, .is 0, .any, false, false⟩]⟩,
  ⟨"YARD_TRSEL", 0x94, 4, 1, 4, 1, [⟨0, 12, .rw, .is 0, .any, false, false⟩]⟩,
  ⟨"YARD_TRSTAT", 0x98, 4, 1, 4, 1, [⟨0, 16, .ro, .is 0, .any, false, false⟩,
    ⟨16, 13, .ro, .is 0, .any, false, false⟩]⟩,
  ⟨"YARD_CNT", 0xC0, 4, 7, 4, 1, [⟨0, 31, .rc, .is 0, .any, false, false⟩,
    ⟨31, 1, .w1c, .is 0, .any, false, false⟩]⟩,
  ⟨"YARD_ORIGIN_W0", 0x100, 8, 21, 4, 1, [⟨0, 16, .rw, .is 1000, .any, false, false⟩,
    ⟨16, 8, .rw, .is 0, .any, false, false⟩,
    ⟨24, 2, .rw, .is 0, .any, false, false⟩]⟩,
  ⟨"YARD_ORIGIN_W1", 0x104, 8, 21, 4, 1, [⟨0, 12, .rw, .byIdx [0, 1, 2, 3, 4, 5, 6, 7, 8, 9, 10, 11, 12, 13, 14, 15, 16, 17, 18, 19, 20], .any, false, false⟩]⟩,
  ⟨"YARD_HIST", 0x200, 64, 4, 4, 16, [⟨0, 31, .ro, .is 0, .any, false, false⟩,
    ⟨31, 1, .w1c, .is 0, .any, false, false⟩]⟩]

/-- Every register of YARD beyond the common page header. -/
def rowsYARD : List RegRow := rowsYARD0 ++ rowsYARD1

/-- Registers of ENG, spec/11_wagon_fabric.md. -/
def rowsENG0 : List RegRow := [
  ⟨"ENG_CAPS", 0x4, 4, 1, 4, 1, [⟨0, 4, .ro, .is 8, .any, false, false⟩,
    ⟨4, 7, .ro, .is 64, .any, false, false⟩]⟩,
  ⟨"ENG_EV_RAW", 0x10, 4, 1, 4, 1, [⟨0, 1, .w1c, .is 0, .any, false, false⟩,
    ⟨1, 1, .w1c, .is 0, .any, false, false⟩,
    ⟨2, 1, .w1c, .is 0, .any, false, false⟩,
    ⟨31, 1, .w1c, .is 0, .any, false, false⟩]⟩,
  ⟨"ENG_LOADSRCLO", 0x40, 4, 1, 4, 1, [⟨0, 32, .rw, .is 0, .any, false, false⟩]⟩,
  ⟨"ENG_LOADSRCHI", 0x44, 4, 1, 4, 1, [⟨0, 8, .rw, .is 0, .any, false, false⟩]⟩,
  ⟨"ENG_LOADLEN", 0x48, 4, 1, 4, 1, [⟨0, 5, .rw, .is 0, .any, false, false⟩]⟩,
  ⟨"ENG_LOADBANK", 0x4C, 4, 1, 4, 1, [⟨0, 1, .rw, .is 0, .any, false, false⟩]⟩,
  ⟨"ENG_ENMASK", 0x50, 4, 1, 4, 1, [⟨0, 8, .rw, .is 255, .any, false, false⟩]⟩,
  ⟨"ENG_DRAMWIN", 0x54, 4, 1, 4, 1, [⟨0, 12, .rw, .is 2048, .any, false, false⟩]⟩,
  ⟨"ENG_ESTAT", 0x80, 8, 8, 4, 1, [⟨0, 2, .ro, .is 0, .any, false, false⟩,
    ⟨2, 1, .ro, .is 0, .any, false, false⟩,
    ⟨8, 16, .ro, .is 0, .any, false, false⟩]⟩,
  ⟨"ENG_ELOAD", 0x84, 8, 8, 4, 1, [⟨0, 10, .ro, .is 0, .any, false, false⟩,
    ⟨10, 1, .ro, .is 0, .any, false, false⟩]⟩,
  ⟨"ENG_RETIRED", 0xC0, 4, 8, 4, 1, [⟨0, 32, .ro, .is 0, .any, false, false⟩]⟩,
  ⟨"ENG_EXCEPT", 0xE0, 4, 1, 4, 1, [⟨0, 31, .rc, .is 0, .any, false, false⟩,
    ⟨31, 1, .w1c, .is 0, .any, false, false⟩]⟩]

/-- Every register of ENG beyond the common page header. -/
def rowsENG : List RegRow := rowsENG0

/-- Registers of RTE, spec/12_router.md. -/
def rowsRTE0 : List RegRow := [
  ⟨"RTE_EV_RAW", 0x10, 4, 1, 4, 1, [⟨0, 1, .w1c, .is 0, .any, false, false⟩,
    ⟨1, 1, .w1c, .is 0, .any, false, false⟩,
    ⟨2, 1, .w1c, .is 0, .any, false, false⟩,
    ⟨3, 1, .w1c, .is 0, .any, false, false⟩,
    ⟨4, 1, .w1c, .is 0, .any, false, false⟩,
    ⟨31, 1, .w1c, .is 0, .any, false, false⟩]⟩,
  ⟨"RTE_TBLBASELO", 0x40, 4, 1, 4, 1, [⟨0, 32, .rw, .is 4227858432, .any, true, false⟩]⟩,
  ⟨"RTE_TBLBASEHI", 0x44, 4, 1, 4, 1, [⟨0, 8, .rw, .is 131, .any, true, false⟩]⟩,
  ⟨"RTE_CHGSRCLO", 0x48, 4, 1, 4, 1, [⟨0, 32, .rw, .is 0, .any, false, false⟩]⟩,
  ⟨"RTE_CHGSRCHI", 0x4C, 4, 1, 4, 1, [⟨0, 8, .rw, .is 0, .any, false, false⟩]⟩,
  ⟨"RTE_CHGCOUNT", 0x50, 4, 1, 4, 1, [⟨0, 13, .rw, .is 0, .any, false, false⟩]⟩,
  ⟨"RTE_COMMITNS", 0x54, 4, 1, 4, 1, [⟨0, 32, .rw, .is 0, .any, false, false⟩]⟩,
  ⟨"RTE_COMMITSECLO", 0x58, 4, 1, 4, 1, [⟨0, 32, .rw, .is 0, .any, false, false⟩]⟩,
  ⟨"RTE_COMMITSECHI", 0x5C, 4, 1, 4, 1, [⟨0, 16, .rw, .is 0, .any, false, false⟩]⟩,
  ⟨"RTE_CFG", 0x60, 4, 1, 4, 1, [⟨0, 1, .rw, .is 0, .any, false, false⟩,
    ⟨1, 13, .rw, .is 0, .any, false, false⟩,
    ⟨16, 16, .rw, .is 200, .any, false, false⟩]⟩,
  ⟨"RTE_REASM", 0x64, 4, 1, 4, 1, [⟨0, 8, .rw, .is 60, .any, false, false⟩]⟩,
  ⟨"RTE_FLOW", 0x68, 4, 1, 4, 1, [⟨0, 12, .rw, .is 2048, .any, false, false⟩,
    ⟨12, 4, .rw, .is 10, .within 0 11, false, false⟩]⟩]

/-- Registers of RTE, spec/12_router.md. -/
def rowsRTE1 : List RegRow := [
  ⟨"RTE_RINGS", 0x6C, 4, 1, 4, 1, [⟨0, 3, .rw, .is 0, .any, false, false⟩,
    ⟨3, 3, .rw, .is 1, .any, false, false⟩,
    ⟨6, 3, .rw, .is 2, .any, false, false⟩]⟩,
  ⟨"RTE_PORTCFG", 0x80, 4, 8, 4, 1, [⟨0, 12, .rw, .is 1, .within 1 4094, false, false⟩]⟩,
  ⟨"RTE_TILECFG", 0xA0, 4, 8, 4, 1, [⟨0, 11, .rw, .is 96, .any, false, false⟩]⟩,
  ⟨"RTE_WATCH", 0x100, 4, 16, 4, 1, [⟨0, 2, .rw, .is 0, .within 0 2, false, false⟩,
    ⟨2, 1, .rw, .is 0, .any, false, false⟩,
    ⟨3, 1, .rw, .is 1, .any, false, false⟩,
    ⟨4, 1, .w1s, .is 0, .any, false, false⟩,
    ⟨8, 10, .rw, .is 0, .any, false, false⟩,
    ⟨18, 4, .rw, .is 4, .any, false, false⟩,
    ⟨22, 1, .ro, .is 1, .any, false, false⟩,
    ⟨24, 8, .rw, .is 100, .any, false, false⟩]⟩,
  ⟨"RTE_USE", 0x140, 4, 3, 4, 1, [⟨0, 20, .ro, .is 0, .any, false, false⟩]⟩,
  ⟨"RTE_CNT", 0x180, 4, 14, 4, 1, [⟨0, 31, .rc, .is 0, .any, false, false⟩,
    ⟨31, 1, .w1c, .is 0, .any, false, false⟩]⟩]

/-- Every register of RTE beyond the common page header. -/
def rowsRTE : List RegRow := rowsRTE0 ++ rowsRTE1

/-- Registers of SHP, spec/13_shaping.md. -/
def rowsSHP0 : List RegRow := [
  ⟨"SHP_CAPS", 0x4, 4, 1, 4, 1, [⟨0, 4, .ro, .is 8, .any, false, false⟩,
    ⟨4, 9, .ro, .is 256, .any, false, false⟩,
    ⟨13, 7, .ro, .is 64, .any, false, false⟩]⟩,
  ⟨"SHP_EV_RAW", 0x10, 4, 1, 4, 1, [⟨0, 1, .w1c, .is 0, .any, false, false⟩,
    ⟨1, 1, .w1c, .is 0, .any, false, false⟩,
    ⟨2, 1, .w1c, .is 0, .any, false, false⟩,
    ⟨3, 1, .w1c, .is 0, .any, false, false⟩,
    ⟨4, 1, .w1c, .is 0, .any, false, false⟩,
    ⟨5, 1, .w1c, .is 0, .any, false, false⟩,
    ⟨6, 1, .w1c, .is 0, .any, false, false⟩,
    ⟨7, 1, .w1c, .is 0, .any, false, false⟩]⟩,
  ⟨"SHP_CLASS", 0x40, 4, 8, 4, 1, [⟨0, 1, .rw, .is 0, .any, false, false⟩,
    ⟨1, 6, .rw, .is 20, .any, false, false⟩,
    ⟨8, 11, .rw, .is 256, .any, false, false⟩]⟩,
  ⟨"SHP_IDLE", 0x60, 4, 8, 4, 1, [⟨0, 25, .rw, .is 0, .any, false, false⟩]⟩,
  ⟨"SHP_CREDIT", 0x80, 4, 8, 4, 1, [⟨0, 32, .ro, .is 0, .any, false, false⟩]⟩,
  ⟨"SHP_QSTAT", 0xA0, 4, 8, 4, 1, [⟨0, 11, .ro, .is 0, .any, false, false⟩]⟩,
  ⟨"SHP_TLCTL", 0xC0, 4, 1, 4, 1, [⟨0, 1, .rw, .is 0, .any, false, false⟩,
    ⟨1, 1, .ro, .is 0, .any, false, false⟩,
    ⟨2, 1, .w1s, .is 0, .any, false, false⟩,
    ⟨3, 1, .ro, .is 0, .any, false, false⟩,
    ⟨4, 2, .ro, .is 0, .any, false, false⟩,
    ⟨6, 1, .ro, .is 0, .any, false, false⟩,
    ⟨7, 1, .ro, .is 0, .any, false, false⟩]⟩,
  ⟨"SHP_TLSTAT", 0xC4, 4, 1, 4, 1, [⟨0, 8, .ro, .is 0, .any, false, false⟩,
    ⟨8, 8, .ro, .is 255, .any, false, false⟩]⟩,
  ⟨"SHP_TLSTARTNS", 0xC8, 4, 1, 4, 1, [⟨0, 32, .ro, .is 0, .any, false, false⟩]⟩,
  ⟨"SHP_TLSTARTSECLO", 0xCC, 4, 1, 4, 1, [⟨0, 32, .ro, .is 0, .any, false, false⟩]⟩,
  ⟨"SHP_TLSTARTSECHI", 0xD0, 4, 1, 4, 1, [⟨0, 16, .ro, .is 0, .any, false, false⟩]⟩,
  ⟨"SHP_PORTRATE", 0xD4, 4, 1, 4, 1, [⟨0, 25, .ro, .is 0, .any, false, false⟩]⟩]

/-- Registers of SHP, spec/13_shaping.md. -/
def rowsSHP1 : List RegRow := [
  ⟨"SHP_CNT", 0x140, 4, 4, 4, 1, [⟨0, 31, .rc, .is 0, .any, false, false⟩,
    ⟨31, 1, .w1c, .is 0, .any, false, false⟩]⟩,
  ⟨"SHP_TURN", 0x400, 1024, 2, 4, 256, [⟨0, 8, .rw, .is 0, .any, false, false⟩,
    ⟨8, 24, .rw, .is 0, .any, false, false⟩]⟩,
  ⟨"SHP_BASENS", 0x100, 32, 2, 4, 1, [⟨0, 32, .rw, .is 0, .any, false, false⟩]⟩,
  ⟨"SHP_BASESECLO", 0x104, 32, 2, 4, 1, [⟨0, 32, .rw, .is 0, .any, false, false⟩]⟩,
  ⟨"SHP_BASESECHI", 0x108, 32, 2, 4, 1, [⟨0, 16, .rw, .is 0, .any, false, false⟩]⟩,
  ⟨"SHP_CYCLE", 0x10C, 32, 2, 4, 1, [⟨0, 30, .rw, .is 0, .any, false, false⟩]⟩,
  ⟨"SHP_COUNT", 0x110, 32, 2, 4, 1, [⟨0, 9, .rw, .is 0, .any, false, false⟩]⟩]

/-- Every register of SHP beyond the common page header. -/
def rowsSHP : List RegRow := rowsSHP0 ++ rowsSHP1

/-- Registers of LANE, spec/14_lanes_ethernet.md. -/
def rowsLANE0 : List RegRow := [
  ⟨"LANE_CAPS", 0x4, 4, 1, 4, 1, [⟨0, 1, .ro, .byInst [0, 0, 0, 0, 1, 1, 1, 1], .any, false, false⟩]⟩,
  ⟨"LANE_EV_RAW", 0x10, 4, 1, 4, 1, [⟨0, 1, .w1c, .is 0, .any, false, false⟩,
    ⟨1, 1, .w1c, .is 0, .any, false, false⟩,
    ⟨2, 1, .w1c, .is 0, .any, false, false⟩,
    ⟨3, 1, .w1c, .is 0, .any, false, false⟩,
    ⟨4, 1, .w1c, .is 0, .any, false, false⟩]⟩,
  ⟨"LANE_MODE", 0x40, 4, 1, 4, 1, [⟨0, 4, .rw, .is 0, .any, false, false⟩,
    ⟨4, 3, .rw, .is 0, .any, false, false⟩,
    ⟨7, 1, .rw, .is 1, .any, false, false⟩,
    ⟨8, 2, .rw, .is 2, .within 0 2, false, false⟩]⟩,
  ⟨"LANE_CTRL2", 0x44, 4, 1, 4, 1, [⟨0, 1, .rw, .is 0, .any, false, false⟩,
    ⟨1, 1, .w1s, .is 0, .any, false, false⟩]⟩,
  ⟨"LANE_STAT", 0x48, 4, 1, 4, 1, [⟨0, 3, .ro, .is 0, .any, false, false⟩,
    ⟨3, 1, .ro, .is 0, .any, false, false⟩,
    ⟨4, 1, .ro, .is 0, .any, false, false⟩,
    ⟨5, 1, .ro, .is 0, .any, false, false⟩,
    ⟨6, 1, .ro, .is 0, .any, false, false⟩,
    ⟨7, 2, .ro, .is 0, .any, false, false⟩]⟩,
  ⟨"LANE_TXEQ", 0x4C, 4, 1, 4, 1, [⟨0, 4, .rw, .is 0, .any, false, false⟩,
    ⟨4, 6, .rw, .is 48, .any, false, false⟩,
    ⟨10, 5, .rw, .is 8, .any, false, false⟩]⟩,
  ⟨"LANE_CNT0", 0x60, 4, 1, 4, 1, [⟨0, 15, .rc, .is 0, .any, false, false⟩,
    ⟨15, 1, .w1c, .is 0, .any, false, false⟩,
    ⟨16, 15, .rc, .is 0, .any, false, false⟩,
    ⟨31, 1, .w1c, .is 0, .any, false, false⟩]⟩,
  ⟨"LANE_CNT1", 0x64, 4, 1, 4, 1, [⟨0, 15, .rc, .is 0, .any, false, false⟩,
    ⟨15, 1, .w1c, .is 0, .any, false, false⟩,
    ⟨16, 15, .rc, .is 0, .any, false, false⟩,
    ⟨31, 1, .w1c, .is 0, .any, false, false⟩]⟩]

/-- Every register of LANE beyond the common page header. -/
def rowsLANE : List RegRow := rowsLANE0

/-- Registers of EMAC, spec/14_lanes_ethernet.md. -/
def rowsEMAC0 : List RegRow := [
  ⟨"EMAC_EV_RAW", 0x10, 4, 1, 4, 1, [⟨0, 1, .w1c, .is 0, .any, false, false⟩,
    ⟨1, 1, .w1c, .is 0, .any, false, false⟩,
    ⟨2, 1, .w1c, .is 0, .any, false, false⟩,
    ⟨3, 1, .w1c, .is 0, .any, false, false⟩,
    ⟨4, 1, .w1c, .is 0, .any, false, false⟩]⟩,
  ⟨"EMAC_CFG", 0x40, 4, 1, 4, 1, [⟨0, 1, .rw, .is 1, .any, false, false⟩,
    ⟨1, 1, .rw, .is 1, .any, false, false⟩,
    ⟨2, 1, .rw, .is 0, .any, false, false⟩,
    ⟨3, 1, .rw, .is 0, .any, false, false⟩,
    ⟨4, 1, .rw, .is 0, .any, false, false⟩,
    ⟨5, 2, .rw, .is 0, .within 0 2, false, false⟩,
    ⟨7, 1, .rw, .is 0, .any, false, false⟩]⟩,
  ⟨"EMAC_MAXLEN", 0x44, 4, 1, 4, 1, [⟨0, 14, .rw, .is 1522, .clamp 1518 9216, false, false⟩]⟩,
  ⟨"EMAC_ADDRLO", 0x48, 4, 1, 4, 1, [⟨0, 32, .rw, .nv, .any, false, false⟩]⟩,
  ⟨"EMAC_ADDRHI", 0x4C, 4, 1, 4, 1, [⟨0, 16, .rw, .nv, .any, false, false⟩]⟩,
  ⟨"EMAC_HASH", 0x50, 4, 8, 4, 1, [⟨0, 32, .rw, .is 0, .any, false, false⟩]⟩,
  ⟨"EMAC_TXPAUSE", 0x70, 4, 1, 4, 1, [⟨0, 16, .rw, .is 0, .any, false, false⟩,
    ⟨16, 8, .rw, .is 0, .any, false, false⟩,
    ⟨24, 1, .w1s, .is 0, .any, false, false⟩,
    ⟨25, 1, .rw, .is 0, .any, false, false⟩,
    ⟨26, 1, .ro, .is 0, .any, false, false⟩]⟩,
  ⟨"EMAC_PAUSESTAT", 0x74, 4, 1, 4, 1, [⟨0, 8, .ro, .is 0, .any, false, false⟩]⟩,
  ⟨"EMAC_EEE", 0x78, 4, 1, 4, 1, [⟨0, 16, .rw, .is 17, .any, false, false⟩,
    ⟨16, 16, .rw, .is 100, .any, false, false⟩]⟩,
  ⟨"EMAC_LINK", 0x7C, 4, 1, 4, 1, [⟨0, 1, .ro, .is 0, .any, false, false⟩,
    ⟨1, 1, .ro, .is 0, .any, false, false⟩,
    ⟨2, 1, .ro, .is 0, .any, false, false⟩,
    ⟨3, 1, .ro, .is 0, .any, false, false⟩,
    ⟨4, 1, .ro, .is 0, .any, false, false⟩,
    ⟨5, 2, .ro, .is 0, .any, false, false⟩,
    ⟨7, 1, .ro, .is 0, .any, false, false⟩]⟩,
  ⟨"EMAC_STICKY", 0x80, 4, 1, 4, 1, [⟨0, 1, .w1c, .is 0, .any, false, false⟩,
    ⟨1, 1, .w1c, .is 0, .any, false, false⟩,
    ⟨2, 1, .w1c, .is 0, .any, false, false⟩,
    ⟨3, 1, .w1c, .is 0, .any, false, false⟩,
    ⟨4, 1, .w1c, .is 0, .any, false, false⟩,
    ⟨5, 1, .w1c, .is 0, .any, false, false⟩,
    ⟨6, 1, .w1c, .is 0, .any, false, false⟩,
    ⟨7, 1, .w1c, .is 0, .any, false, false⟩,
    ⟨8, 1, .w1c, .is 0, .any, false, false⟩,
    ⟨9, 1, .w1c, .is 0, .any, false, false⟩]⟩,
  ⟨"EMAC_FILT_W0", 0x100, 8, 16, 4, 1, [⟨0, 32, .rw, .is 0, .any, false, false⟩]⟩]

/-- Registers of EMAC, spec/14_lanes_ethernet.md. -/
def rowsEMAC1 : List RegRow := [
  ⟨"EMAC_FILT_W1", 0x104, 8, 16, 4, 1, [⟨0, 16, .rw, .is 0, .any, false, false⟩,
    ⟨31, 1, .rw, .is 0, .any, false, false⟩]⟩,
  ⟨"EMAC_STAT_W0", 0x180, 8, 4, 4, 1, [⟨0, 32, .rw, .is 0, .any, false, false⟩]⟩,
  ⟨"EMAC_STAT_W1", 0x184, 8, 4, 4, 1, [⟨0, 31, .rw, .is 0, .any, false, false⟩,
    ⟨31, 1, .w1c, .is 0, .any, false, false⟩]⟩,
  ⟨"EMAC_CNT", 0x1C0, 4, 14, 4, 1, [⟨0, 31, .rc, .is 0, .any, false, false⟩,
    ⟨31, 1, .w1c, .is 0, .any, false, false⟩]⟩]

/-- Every register of EMAC beyond the common page header. -/
def rowsEMAC : List RegRow := rowsEMAC0 ++ rowsEMAC1

/-- Registers of CPL, spec/15_coupler_pairing.md. -/
def rowsCPL0 : List RegRow := [
  ⟨"CPL_CAPS", 0x4, 4, 1, 4, 1, [⟨0, 3, .ro, .is 4, .any, false, false⟩]⟩,
  ⟨"CPL_EV_RAW", 0x10, 4, 1, 4, 1, [⟨0, 1, .w1c, .is 0, .any, false, false⟩,
    ⟨1, 1, .w1c, .is 0, .any, false, false⟩,
    ⟨2, 1, .w1c, .is 0, .any, false, false⟩,
    ⟨3, 1, .w1c, .is 0, .any, false, false⟩,
    ⟨4, 1, .w1c, .is 0, .any, false, false⟩,
    ⟨5, 1, .w1c, .is 0, .any, false, false⟩,
    ⟨6, 1, .w1c, .is 0, .any, false, false⟩,
    ⟨7, 1, .w1c, .is 0, .any, false, false⟩,
    ⟨8, 1, .w1c, .is 0, .any, false, false⟩,
    ⟨9, 1, .w1c, .is 0, .any, false, false⟩,
    ⟨10, 1, .w1c, .is 0, .any, false, false⟩,
    ⟨11, 1, .w1c, .is 0, .any, false, false⟩,
    ⟨12, 1, .w1c, .is 0, .any, false, false⟩]⟩,
  ⟨"CPL_CFG", 0x40, 4, 1, 4, 1, [⟨0, 4, .rw, .is 15, .any, false, false⟩,
    ⟨4, 1, .rw, .is 1, .any, false, false⟩]⟩,
  ⟨"CPL_ROLE", 0x44, 4, 1, 4, 1, [⟨0, 2, .rw, .is 0, .within 0 2, false, false⟩,
    ⟨2, 4, .rw, .is 0, .any, false, false⟩,
    ⟨16, 16, .rw, .is 0, .any, false, false⟩]⟩,
  ⟨"CPL_STAT", 0x48, 4, 1, 4, 1, [⟨0, 3, .ro, .is 0, .any, false, false⟩,
    ⟨4, 4, .ro, .is 0, .any, false, false⟩,
    ⟨8, 2, .ro, .is 1, .any, false, false⟩,
    ⟨10, 1, .ro, .is 0, .any, false, false⟩,
    ⟨11, 4, .ro, .is 0, .any, false, false⟩,
    ⟨16, 8, .ro, .is 0, .any, false, false⟩]⟩,
  ⟨"CPL_CMD", 0x4C, 4, 1, 4, 1, [⟨0, 1, .w1s, .is 0, .any, false, false⟩,
    ⟨1, 1, .w1s, .is 0, .any, false, false⟩]⟩,
  ⟨"CPL_SYNCPROG", 0x50, 4, 1, 4, 1, [⟨0, 16, .ro, .is 0, .any, false, false⟩,
    ⟨16, 16, .ro, .is 432, .any, false, false⟩]⟩,
  ⟨"CPL_TIMEOFS", 0x54, 4, 1, 4, 1, [⟨0, 32, .ro, .is 0, .any, false, false⟩]⟩,
  ⟨"CPL_RESV", 0x58, 4, 1, 4, 1, [⟨0, 16, .rw, .is 256, .any, false, false⟩]⟩,
  ⟨"CPL_DETBLK", 0x5C, 4, 1, 4, 1, [⟨0, 32, .ro, .is 0, .any, false, false⟩]⟩,
  ⟨"CPL_WATCH", 0x60, 4, 1, 4, 1, [⟨0, 3, .rw, .is 0, .any, false, false⟩,
    ⟨3, 9, .rw, .is 0, .any, false, false⟩,
    ⟨16, 8, .ro, .is 0, .any, false, false⟩]⟩,
  ⟨"CPL_PAIRIE", 0x64, 4, 1, 4, 1, [⟨0, 8, .rw, .is 0, .any, false, false⟩]⟩]

/-- Registers of CPL, spec/15_coupler_pairing.md. -/
def rowsCPL1 : List RegRow := [
  ⟨"CPL_LEND", 0x68, 4, 1, 4, 1, [⟨0, 1, .rw, .is 0, .any, false, false⟩,
    ⟨1, 1, .rw, .is 0, .any, false, false⟩,
    ⟨2, 1, .ro, .is 0, .any, false, false⟩]⟩,
  ⟨"CPL_CNT", 0x80, 4, 10, 4, 1, [⟨0, 31, .rc, .is 0, .any, false, false⟩,
    ⟨31, 1, .w1c, .is 0, .any, false, false⟩]⟩]

/-- Every register of CPL beyond the common page header. -/
def rowsCPL : List RegRow := rowsCPL0 ++ rowsCPL1

/-- Registers of SEC, spec/16_security_regulatory.md. -/
def rowsSEC0 : List RegRow := [
  ⟨"SEC_EV_RAW", 0x10, 4, 1, 4, 1, [⟨0, 1, .w1c, .is 0, .any, false, false⟩,
    ⟨1, 1, .w1c, .is 0, .any, false, false⟩,
    ⟨31, 1, .w1c, .is 0, .any, false, false⟩]⟩,
  ⟨"SEC_ENRSRCLO", 0x40, 4, 1, 4, 1, [⟨0, 32, .rw, .is 0, .any, false, false⟩]⟩,
  ⟨"SEC_ENRSRCHI", 0x44, 4, 1, 4, 1, [⟨0, 8, .rw, .is 0, .any, false, false⟩]⟩,
  ⟨"SEC_KEYIDX", 0x48, 4, 1, 4, 1, [⟨0, 12, .rw, .is 0, .any, false, false⟩]⟩,
  ⟨"SEC_KEYINFO", 0x4C, 4, 1, 4, 1, [⟨0, 3, .ro, .nv, .any, false, false⟩,
    ⟨3, 1, .ro, .nv, .any, false, false⟩,
    ⟨4, 1, .ro, .nv, .any, false, false⟩]⟩,
  ⟨"SEC_TXCNT", 0x50, 4, 1, 4, 1, [⟨0, 32, .ro, .nv, .any, false, false⟩]⟩,
  ⟨"SEC_MACSEC", 0x54, 4, 1, 4, 1, [⟨0, 8, .rw, .is 0, .any, false, false⟩]⟩,
  ⟨"SEC_CNT", 0x80, 4, 4, 4, 1, [⟨0, 31, .rc, .is 0, .any, false, false⟩,
    ⟨31, 1, .w1c, .is 0, .any, false, false⟩]⟩]

/-- Every register of SEC beyond the common page header. -/
def rowsSEC : List RegRow := rowsSEC0

/-- Registers of LIM, spec/16_security_regulatory.md. -/
def rowsLIM0 : List RegRow := [
  ⟨"LIM_EV_RAW", 0x10, 4, 1, 4, 1, [⟨0, 1, .w1c, .is 0, .any, false, false⟩,
    ⟨1, 1, .w1c, .is 0, .any, false, false⟩,
    ⟨2, 1, .w1c, .is 0, .any, false, false⟩]⟩,
  ⟨"LIM_IMG", 0x40, 4, 1, 4, 1, [⟨0, 1, .ro, .nv, .any, false, false⟩,
    ⟨1, 1, .ro, .nv, .any, false, false⟩,
    ⟨2, 2, .ro, .nv, .any, false, false⟩,
    ⟨16, 16, .ro, .nv, .any, false, false⟩]⟩,
  ⟨"LIM_IMGVER", 0x44, 4, 1, 4, 1, [⟨0, 32, .ro, .nv, .any, false, false⟩]⟩,
  ⟨"LIM_METSEL", 0x48, 4, 1, 4, 1, [⟨0, 4, .rw, .is 0, .within 0 12, false, false⟩]⟩,
  ⟨"LIM_METLO", 0x4C, 4, 1, 4, 1, [⟨0, 24, .ro, .nv, .any, false, false⟩,
    ⟨24, 1, .ro, .nv, .any, false, false⟩]⟩,
  ⟨"LIM_METHI", 0x50, 4, 1, 4, 1, [⟨0, 24, .ro, .nv, .any, false, false⟩]⟩,
  ⟨"LIM_METCFG", 0x54, 4, 1, 4, 1, [⟨0, 12, .ro, .nv, .any, false, false⟩]⟩,
  ⟨"LIM_METLIM", 0x58, 4, 1, 4, 1, [⟨0, 32, .ro, .nv, .any, false, false⟩]⟩,
  ⟨"LIM_METUSE", 0x5C, 4, 1, 4, 1, [⟨0, 32, .ro, .nv, .any, false, false⟩]⟩,
  ⟨"LIM_METOVF", 0x60, 4, 1, 4, 1, [⟨0, 13, .w1c, .is 0, .any, false, false⟩]⟩,
  ⟨"LIM_PORTSEL", 0x64, 4, 1, 4, 1, [⟨0, 5, .rw, .is 0, .within 0 23, false, false⟩]⟩,
  ⟨"LIM_PORTLIM", 0x68, 4, 1, 4, 1, [⟨0, 16, .ro, .nv, .any, false, false⟩,
    ⟨16, 16, .ro, .nv, .any, false, false⟩]⟩]

/-- Registers of LIM, spec/16_security_regulatory.md. -/
def rowsLIM1 : List RegRow := [
  ⟨"LIM_SNAPSEQ", 0x6C, 4, 1, 4, 1, [⟨0, 32, .ro, .nv, .any, false, false⟩]⟩,
  ⟨"LIM_CNT", 0x80, 4, 5, 4, 1, [⟨0, 31, .rc, .is 0, .any, false, false⟩,
    ⟨31, 1, .w1c, .is 0, .any, false, false⟩]⟩]

/-- Every register of LIM beyond the common page header. -/
def rowsLIM : List RegRow := rowsLIM0 ++ rowsLIM1

/-- Registers of NVS, spec/16_security_regulatory.md. -/
def rowsNVS0 : List RegRow := [
  ⟨"NVS_EV_RAW", 0x10, 4, 1, 4, 1, [⟨0, 1, .w1c, .is 0, .any, false, false⟩,
    ⟨31, 1, .w1c, .is 0, .any, false, false⟩]⟩,
  ⟨"NVS_SRCLO", 0x40, 4, 1, 4, 1, [⟨0, 32, .rw, .is 0, .any, false, false⟩]⟩,
  ⟨"NVS_SRCHI", 0x44, 4, 1, 4, 1, [⟨0, 8, .rw, .is 0, .any, false, false⟩]⟩,
  ⟨"NVS_DST", 0x48, 4, 1, 4, 1, [⟨0, 25, .rw, .is 0, .any, false, false⟩]⟩,
  ⟨"NVS_ROWS", 0x4C, 4, 1, 4, 1, [⟨0, 20, .rw, .is 0, .any, false, false⟩]⟩,
  ⟨"NVS_OPSEL", 0x50, 4, 1, 4, 1, [⟨0, 2, .rw, .is 0, .within 0 1, false, false⟩,
    ⟨2, 3, .rw, .is 0, .within 0 6, false, false⟩]⟩,
  ⟨"NVS_BOOT", 0x54, 4, 1, 4, 1, [⟨0, 1, .ro, .nv, .any, false, false⟩,
    ⟨1, 1, .ro, .nv, .any, false, false⟩,
    ⟨2, 1, .ro, .nv, .any, false, false⟩,
    ⟨3, 1, .ro, .nv, .any, false, false⟩,
    ⟨4, 1, .ro, .nv, .any, false, false⟩,
    ⟨5, 1, .ro, .nv, .any, false, false⟩,
    ⟨6, 1, .ro, .nv, .any, false, false⟩]⟩,
  ⟨"NVS_ROLL", 0x58, 4, 4, 4, 1, [⟨0, 32, .ro, .nv, .any, false, false⟩]⟩]

/-- Every register of NVS beyond the common page header. -/
def rowsNVS : List RegRow := rowsNVS0

/-- Registers of APC, spec/17_cores_memory.md. -/
def rowsAPC0 : List RegRow := [
  ⟨"APC_EV_RAW", 0x10, 4, 1, 4, 1, [⟨0, 1, .w1c, .is 0, .any, false, false⟩,
    ⟨1, 1, .w1c, .is 0, .any, false, false⟩,
    ⟨2, 1, .w1c, .is 0, .any, false, false⟩,
    ⟨3, 1, .w1c, .is 0, .any, false, false⟩,
    ⟨4, 1, .w1c, .is 0, .any, false, false⟩,
    ⟨5, 1, .w1c, .is 0, .any, false, false⟩,
    ⟨6, 1, .w1c, .is 0, .any, false, false⟩,
    ⟨7, 1, .w1c, .is 0, .any, false, false⟩,
    ⟨8, 1, .w1c, .is 0, .any, false, false⟩]⟩,
  ⟨"APC_ENTRYLO", 0x40, 4, 1, 4, 1, [⟨0, 32, .rw, .is 0, .any, false, false⟩]⟩,
  ⟨"APC_ENTRYHI", 0x44, 4, 1, 4, 1, [⟨0, 8, .rw, .is 128, .any, false, false⟩]⟩,
  ⟨"APC_RELEASE", 0x48, 4, 1, 4, 1, [⟨0, 8, .w1s, .is 0, .any, false, false⟩]⟩,
  ⟨"APC_HARTSTAT", 0x4C, 4, 1, 4, 1, [⟨0, 8, .ro, .is 1, .any, false, false⟩,
    ⟨8, 8, .ro, .is 0, .any, false, false⟩,
    ⟨16, 8, .ro, .is 0, .any, false, false⟩]⟩,
  ⟨"APC_RINGBASELO", 0x80, 16, 8, 4, 1, [⟨0, 32, .rw, .is 0, .any, false, false⟩]⟩,
  ⟨"APC_RINGBASEHI", 0x84, 16, 8, 4, 1, [⟨0, 8, .rw, .is 0, .any, false, false⟩]⟩,
  ⟨"APC_RINGCFG", 0x88, 16, 8, 4, 1, [⟨0, 1, .rw, .is 0, .any, false, false⟩,
    ⟨4, 5, .rw, .is 10, .within 4 16, false, false⟩,
    ⟨16, 16, .rw, .is 1, .any, false, false⟩]⟩,
  ⟨"APC_RINGIDX", 0x8C, 16, 8, 4, 1, [⟨0, 16, .ro, .is 0, .any, false, false⟩,
    ⟨16, 16, .rw, .is 0, .any, false, false⟩]⟩,
  ⟨"APC_RINGDROP", 0x100, 4, 8, 4, 1, [⟨0, 31, .rc, .is 0, .any, false, false⟩,
    ⟨31, 1, .w1c, .is 0, .any, false, false⟩]⟩]

/-- Every register of APC beyond the common page header. -/
def rowsAPC : List RegRow := rowsAPC0

/-- Registers of MEM, spec/17_cores_memory.md. -/
def rowsMEM0 : List RegRow := [
  ⟨"MEM_EV_RAW", 0x10, 4, 1, 4, 1, [⟨0, 1, .w1c, .is 0, .any, false, false⟩,
    ⟨1, 1, .w1c, .is 0, .any, false, false⟩,
    ⟨2, 1, .w1c, .is 0, .any, false, false⟩,
    ⟨3, 1, .w1c, .is 0, .any, false, false⟩]⟩,
  ⟨"MEM_POOLCNT", 0x40, 4, 4, 4, 1, [⟨0, 18, .rw, .nv, .any, true, false⟩]⟩,
  ⟨"MEM_POOLFREE", 0x50, 4, 4, 4, 1, [⟨0, 18, .ro, .open, .any, false, false⟩]⟩,
  ⟨"MEM_ALLOC", 0x60, 4, 1, 4, 1, [⟨0, 14, .wo, .is 0, .any, false, false⟩]⟩,
  ⟨"MEM_ALLOCRES", 0x64, 4, 1, 4, 1, [⟨0, 20, .ro, .is 0, .any, false, false⟩]⟩,
  ⟨"MEM_FREE", 0x68, 4, 1, 4, 1, [⟨0, 20, .wo, .is 0, .any, false, false⟩]⟩,
  ⟨"MEM_SCRUB", 0x6C, 4, 1, 4, 1, [⟨0, 8, .rw, .is 10, .any, false, false⟩,
    ⟨8, 8, .rw, .is 24, .any, false, false⟩]⟩,
  ⟨"MEM_UEADDRLO", 0x70, 4, 1, 4, 1, [⟨3, 29, .ro, .is 0, .any, false, false⟩]⟩,
  ⟨"MEM_UEADDRHI", 0x74, 4, 1, 4, 1, [⟨0, 8, .ro, .is 0, .any, false, false⟩,
    ⟨31, 1, .w1c, .is 0, .any, false, false⟩]⟩,
  ⟨"MEM_MIRROR", 0x80, 4, 4, 4, 1, [⟨0, 13, .rw, .is 0, .any, false, false⟩,
    ⟨14, 14, .rw, .is 0, .within 1 8192, false, false⟩,
    ⟨30, 1, .rw, .is 0, .any, false, false⟩,
    ⟨31, 1, .ro, .is 0, .any, false, false⟩]⟩,
  ⟨"MEM_CNT", 0xC0, 4, 12, 4, 1, [⟨0, 31, .rc, .is 0, .any, false, false⟩,
    ⟨31, 1, .w1c, .is 0, .any, false, false⟩]⟩]

/-- Every register of MEM beyond the common page header. -/
def rowsMEM : List RegRow := rowsMEM0

/-- Registers of FLT, spec/19_faults.md. -/
def rowsFLT0 : List RegRow := [
  ⟨"FLT_EV_RAW", 0x10, 4, 1, 4, 1, [⟨0, 1, .w1c, .is 0, .any, false, false⟩,
    ⟨1, 1, .w1c, .is 0, .any, false, false⟩,
    ⟨2, 1, .w1c, .is 0, .any, false, false⟩,
    ⟨3, 1, .w1c, .is 0, .any, false, false⟩,
    ⟨4, 1, .w1c, .is 0, .any, false, false⟩,
    ⟨5, 1, .w1c, .is 0, .any, false, false⟩,
    ⟨6, 1, .w1c, .is 0, .any, false, false⟩]⟩,
  ⟨"FLT_CFG", 0x40, 4, 1, 4, 1, [⟨0, 12, .rw, .is 10, .clamp 0 3600, false, false⟩,
    ⟨12, 4, .rw, .is 3, .any, false, false⟩]⟩,
  ⟨"FLT_STALL", 0x44, 4, 1, 4, 1, [⟨0, 8, .rw, .is 50, .clamp 10 200, false, false⟩,
    ⟨8, 10, .rw, .is 500, .clamp 50 740, false, false⟩,
    ⟨18, 10, .rw, .is 200, .clamp 20 500, false, false⟩]⟩,
  ⟨"FLT_STOPCFG", 0x48, 4, 1, 4, 1, [⟨0, 10, .rw, .is 10, .any, false, false⟩]⟩,
  ⟨"FLT_CMD", 0x4C, 4, 1, 4, 1, [⟨0, 1, .w1s, .is 0, .any, true, false⟩,
    ⟨1, 1, .w1s, .is 0, .any, false, false⟩]⟩,
  ⟨"FLT_RESSEL", 0x50, 4, 1, 4, 1, [⟨0, 16, .rw, .is 0, .any, false, false⟩]⟩,
  ⟨"FLT_RESSTAT", 0x54, 4, 1, 4, 1, [⟨0, 4, .ro, .is 0, .any, false, false⟩,
    ⟨4, 1, .ro, .is 0, .any, false, false⟩,
    ⟨5, 1, .ro, .is 0, .any, false, false⟩]⟩,
  ⟨"FLT_LAST", 0x58, 4, 1, 4, 1, [⟨0, 16, .ro, .is 0, .any, false, false⟩,
    ⟨16, 1, .ro, .is 0, .any, false, false⟩,
    ⟨17, 1, .ro, .is 0, .any, false, false⟩]⟩,
  ⟨"FLT_LASTNS", 0x5C, 4, 1, 4, 1, [⟨0, 32, .ro, .is 0, .any, false, false⟩]⟩,
  ⟨"FLT_LASTSEC", 0x60, 4, 1, 4, 1, [⟨0, 32, .ro, .is 0, .any, false, false⟩]⟩,
  ⟨"FLT_STOPINFO", 0x64, 4, 1, 4, 1, [⟨0, 4, .ro, .is 0, .any, false, false⟩,
    ⟨8, 8, .ro, .is 0, .any, false, false⟩,
    ⟨31, 1, .w1c, .is 0, .any, false, false⟩]⟩,
  ⟨"FLT_PAGE", 0x80, 4, 16, 4, 1, [⟨0, 28, .ro, .is 0, .any, false, false⟩,
    ⟨30, 1, .ro, .is 0, .any, false, false⟩,
    ⟨31, 1, .ro, .is 0, .any, false, false⟩]⟩]

/-- Registers of FLT, spec/19_faults.md. -/
def rowsFLT1 : List RegRow := [
  ⟨"FLT_CNT", 0xC0, 4, 6, 4, 1, [⟨0, 31, .rc, .is 0, .any, false, false⟩,
    ⟨31, 1, .w1c, .is 0, .any, false, false⟩]⟩]

/-- Every register of FLT beyond the common page header. -/
def rowsFLT : List RegRow := rowsFLT0 ++ rowsFLT1

/-- Registers of DBG, spec/21_debug.md. -/
def rowsDBG0 : List RegRow := [
  ⟨"DBG_EV_RAW", 0x10, 4, 1, 4, 1, [⟨0, 1, .w1c, .is 0, .any, false, false⟩,
    ⟨1, 1, .w1c, .is 0, .any, false, false⟩,
    ⟨2, 1, .w1c, .is 0, .any, false, false⟩]⟩,
  ⟨"DBG_AUTH", 0x40, 4, 1, 4, 1, [⟨0, 2, .ro, .is 0, .any, false, false⟩,
    ⟨2, 1, .w1s, .is 0, .any, false, false⟩,
    ⟨3, 1, .ro, .is 0, .any, false, false⟩,
    ⟨4, 1, .w1c, .is 0, .any, false, false⟩]⟩,
  ⟨"DBG_CHALLENGELO", 0x44, 4, 1, 4, 1, [⟨0, 32, .ro, .open, .any, false, false⟩]⟩,
  ⟨"DBG_CHALLENGEHI", 0x48, 4, 1, 4, 1, [⟨0, 32, .ro, .open, .any, false, false⟩]⟩,
  ⟨"DBG_TOKEN", 0x4C, 4, 1, 4, 1, [⟨0, 32, .wo, .is 0, .any, false, false⟩]⟩,
  ⟨"DBG_MAPADDRLO", 0x50, 4, 1, 4, 1, [⟨0, 32, .rw, .is 0, .any, false, false⟩]⟩,
  ⟨"DBG_MAPADDRHI", 0x54, 4, 1, 4, 1, [⟨0, 8, .rw, .is 0, .any, false, false⟩]⟩,
  ⟨"DBG_MAPDATA", 0x58, 4, 1, 4, 1, [⟨0, 32, .rw, .is 0, .any, false, false⟩]⟩,
  ⟨"DBG_MAPCTL", 0x5C, 4, 1, 4, 1, [⟨0, 1, .w1s, .is 0, .any, false, false⟩,
    ⟨1, 1, .w1s, .is 0, .any, false, false⟩,
    ⟨2, 1, .rw, .is 1, .any, false, false⟩]⟩,
  ⟨"DBG_MAPSTAT", 0x60, 4, 1, 4, 1, [⟨0, 1, .ro, .is 1, .any, false, false⟩,
    ⟨1, 1, .ro, .is 0, .any, false, false⟩,
    ⟨2, 1, .ro, .is 0, .any, false, false⟩,
    ⟨3, 1, .ro, .is 0, .any, false, false⟩,
    ⟨4, 1, .ro, .is 0, .any, false, false⟩]⟩,
  ⟨"DBG_ENGCTL", 0x64, 4, 1, 4, 1, [⟨0, 6, .rw, .is 0, .within 0 47, false, false⟩,
    ⟨6, 1, .w1s, .is 0, .any, false, false⟩]⟩,
  ⟨"DBG_CNT0", 0x80, 4, 1, 4, 1, [⟨0, 31, .rc, .is 0, .any, false, false⟩,
    ⟨31, 1, .w1c, .is 0, .any, false, false⟩]⟩]

/-- Every register of DBG beyond the common page header. -/
def rowsDBG : List RegRow := rowsDBG0

/-- Registers of CHK, spec/17_cores_memory.md. -/
def rowsCHK0 : List RegRow := [
  ⟨"CHK_CFG", 0x40, 4, 1, 4, 1, [⟨0, 7, .rw, .is 32, .any, false, false⟩,
    ⟨7, 1, .rw, .is 1, .any, false, false⟩,
    ⟨8, 1, .rw, .is 1, .any, false, false⟩,
    ⟨9, 1, .rw, .is 0, .any, false, false⟩]⟩,
  ⟨"CHK_POLYLO", 0x48, 4, 1, 4, 1, [⟨0, 32, .rw, .is 79764919, .any, false, false⟩]⟩,
  ⟨"CHK_POLYHI", 0x4C, 4, 1, 4, 1, [⟨0, 32, .rw, .is 0, .any, false, false⟩]⟩,
  ⟨"CHK_INITLO", 0x50, 4, 1, 4, 1, [⟨0, 32, .rw, .is 4294967295, .any, false, false⟩]⟩,
  ⟨"CHK_INITHI", 0x54, 4, 1, 4, 1, [⟨0, 32, .rw, .is 0, .any, false, false⟩]⟩,
  ⟨"CHK_XORLO", 0x58, 4, 1, 4, 1, [⟨0, 32, .rw, .is 4294967295, .any, false, false⟩]⟩,
  ⟨"CHK_XORHI", 0x5C, 4, 1, 4, 1, [⟨0, 32, .rw, .is 0, .any, false, false⟩]⟩,
  ⟨"CHK_VALLO", 0x70, 4, 1, 4, 1, [⟨0, 32, .rw, .is 0, .any, false, false⟩]⟩,
  ⟨"CHK_VALHI", 0x74, 4, 1, 4, 1, [⟨0, 32, .rw, .is 0, .any, false, false⟩]⟩,
  ⟨"CHK_RESULTLO", 0x78, 4, 1, 4, 1, [⟨0, 32, .ro, .is 0, .any, false, false⟩]⟩,
  ⟨"CHK_RESULTHI", 0x7C, 4, 1, 4, 1, [⟨0, 32, .ro, .is 0, .any, false, false⟩]⟩,
  ⟨"CHK_ADDRLO", 0x60, 4, 1, 4, 1, [⟨0, 32, .rw, .is 0, .any, false, false⟩]⟩]

/-- Registers of CHK, spec/17_cores_memory.md. -/
def rowsCHK1 : List RegRow := [
  ⟨"CHK_ADDRHI", 0x64, 4, 1, 4, 1, [⟨0, 8, .rw, .is 0, .any, false, false⟩]⟩,
  ⟨"CHK_LEN", 0x68, 4, 1, 4, 1, [⟨0, 32, .rw, .is 0, .any, false, false⟩]⟩]

/-- Every register of CHK beyond the common page header. -/
def rowsCHK : List RegRow := rowsCHK0 ++ rowsCHK1

end Sys2Proof.Machine
end

