-- ==== Sys2Proof/Machine/Maps.lean ====
section
/-!
DEFINITION. Sparse tables by number in one canonical form: a list of (key, value) pairs with keys strictly rising. Register
fields, memory and every table of the machine use these operations.
-/

namespace Sys2Proof.Machine

/-- A sparse table by number. -/
abbrev KMap (α : Type) := List (Nat × α)

/-- The value at key k, if one is listed. -/
def kget {α : Type} : List (Nat × α) → Nat → Option α
  | [], _ => none
  | (j, a) :: t, k => if j = k then some a else kget t k

/-- Lists value a at key k, keeping the keys rising. -/
def kset {α : Type} : List (Nat × α) → Nat → α → List (Nat × α)
  | [], k, a => [(k, a)]
  | (j, b) :: t, k, a =>
    if k < j then (k, a) :: (j, b) :: t
    else if k = j then (k, a) :: t
    else (j, b) :: kset t k a

/-- Unlists key k. -/
def kdel {α : Type} : List (Nat × α) → Nat → List (Nat × α)
  | [], _ => []
  | (j, b) :: t, k => if j = k then kdel t k else (j, b) :: kdel t k

/-- Changes the value at key k, when one is listed. -/
def kmod {α : Type} (l : List (Nat × α)) (k : Nat) (f : α → α) : List (Nat × α) :=
  l.map fun e => if e.1 = k then (e.1, f e.2) else e

/-- The keys are strictly rising and each pair passes the check. -/
def kok {α : Type} (p : Nat → α → Bool) : List (Nat × α) → Bool
  | [] => true
  | [(j, a)] => p j a
  | (j, a) :: (k, b) :: t => p j a && decide (j < k) && kok p ((k, b) :: t)

/-- Replaces element n of a list, when there is one. -/
def lset {α : Type} : List α → Nat → α → List α
  | [], _, _ => []
  | _ :: t, 0, b => b :: t
  | a :: t, n + 1, b => a :: lset t n b

/-- The element n of a list changed by f. -/
def lmod {α : Type} : List α → Nat → (α → α) → List α
  | [], _, _ => []
  | a :: t, 0, f => f a :: t
  | a :: t, n + 1, f => a :: lmod t n f

/-- The first n in lo, lo + 1, ..., lo + fuel - 1 that passes p. -/
def firstFrom (p : Nat → Bool) : Nat → Nat → Option Nat
  | 0, _ => none
  | fuel + 1, lo => if p lo then some lo else firstFrom p fuel (lo + 1)

end Sys2Proof.Machine
end

