-- ==== Sys2Proof/Machine/Bits.lean ====
section
/-!
DEFINITION. Fields of numbers, signed readings of them, and the little-endian order of octets (R10).
-/

namespace Sys2Proof.Machine

/-- Bits lo to lo + len - 1 of v. -/
def bitsOf (v lo len : Nat) : Nat := v / 2 ^ lo % 2 ^ len

/-- Bit b of v. -/
def bitOf (v b : Nat) : Bool := v / 2 ^ b % 2 == 1

/-- A truth value as a bit. -/
def b2n (b : Bool) : Nat := if b then 1 else 0

/-- v, a field of n bits, read as two's complement. -/
def sgn (n v : Nat) : Int := if v % 2 ^ n < 2 ^ (n - 1) then (v % 2 ^ n : Int) else (v % 2 ^ n : Int) - 2 ^ n

/-- x written in n bits of two's complement. -/
def unsgn (n : Nat) (x : Int) : Nat := (x % (2 ^ n : Int)).toNat

/-- v held within lo and hi. -/
def clampN (lo hi v : Nat) : Nat := if v < lo then lo else if hi < v then hi else v

/-- x held within lo and hi. -/
def clampI (lo hi x : Int) : Int := if x < lo then lo else if hi < x then hi else x

/-- x / 2 ^ k rounded towards minus infinity. -/
def asr (x : Int) (k : Nat) : Int := x / (2 ^ k : Int)

/-- The number whose octets, least significant first, are l. -/
def ofLE : List Byte → Nat
  | [] => 0
  | b :: t => b.toNat + 256 * ofLE t

/-- The n octets of v, least significant first. -/
def toLE : Nat → Nat → List Byte
  | 0, _ => []
  | n + 1, v => BitVec.ofNat 8 v :: toLE n (v / 256)

/-- The number whose octets, most significant first, are l. -/
def ofBE (l : List Byte) : Nat := ofLE l.reverse

/-- The n octets of v, most significant first. -/
def toBE (n v : Nat) : List Byte := (toLE n v).reverse

/-- Two numbers bit by bit exclusive-or. -/
def xorN (a b : Nat) : Nat := a ^^^ b

/-- The n lowest bits of v in reverse order. -/
def revBits : Nat → Nat → Nat
  | 0, _ => 0
  | n + 1, v => v % 2 * 2 ^ n + revBits n (v / 2)

/-- n steps of the reflected register of CRC-32, R263. -/
def crcSteps : Nat → Nat → Nat
  | 0, r => r
  | n + 1, r => crcSteps n (if r % 2 = 1 then xorN (r / 2) 0xEDB88320 else r / 2)

/-- CRC-32 of octets: polynomial 0x04C11DB7, reflected, initial value and final exclusive-or all-ones, R263. -/
def crc32 (l : List Byte) : Nat := xorN (l.foldl (fun r b => crcSteps 8 (xorN r b.toNat)) 0xFFFFFFFF) 0xFFFFFFFF

/-- n steps of the reflected polynomial 0x1021. -/
def crc16Steps : Nat → Nat → Nat
  | 0, r => r
  | n + 1, r => crc16Steps n (if r % 2 = 1 then xorN (r / 2) 0x8408 else r / 2)

/-- The 2-octet FCS of IEEE 802.15.4: polynomial 0x1021, reflected, initial value and final exclusive-or 0, R352. -/
def crc16 (l : List Byte) : Nat := l.foldl (fun r b => crc16Steps 8 (xorN r b.toNat)) 0

/-- The largest n below 2 ^ k with n ^ 40 at most v. -/
def root40 (v : Nat) : Nat → Nat → Nat
  | 0, n => n
  | k + 1, n => if (n + 2 ^ k) ^ 40 ≤ v then root40 v k (n + 2 ^ k) else root40 v k n

/-- A power p in 0.25 dBm, from -60 dBm up, in units of 10 ^ -6 mW, rounded down. -/
def powerN (p : Int) : Nat := root40 (10 ^ (p + 240).toNat) 44 0

/-- 10 log10 of a number in 0.25 dB, rounded down. -/
def db40 (x : Nat) : Int := if x = 0 then 0 else ((firstFrom (fun k => decide (x ^ 40 < 10 ^ (k + 1))) 400 0).getD 0 : Nat)

end Sys2Proof.Machine
end

