-- ==== Sys2Proof/Config.lean ====
section
/-!
DEFINITION. What the spec leaves open: constants with no body, of which no proof can see a value. Where the spec names an
outside standard for a computation and gives only its inputs and outputs, the computation is such a constant of the actual
inputs (log entry 9); where it leaves a pick open, the pick is Config.free applied to a counter of State (log entry 5).
-/

namespace Sys2Proof

/-- What a regulatory image gives for one transmit port of LIM_PORTSEL, R331: the declared gain and the conducted limit in
0.25 dB, and the permitted ranges in kHz. -/
structure PortImg where
  gain : Int
  cond : Int
  ranges : List (Nat × Nat)
  deriving DecidableEq, Repr, Inhabited

/-- The EIRP limit and the EIRP density limit per MHz of a frequency range, in 0.25 dB, R331. -/
structure EirpImg where
  lo : Nat
  hi : Nat
  eirp : Int
  psd : Int
  deriving DecidableEq, Repr, Inhabited

/-- A duty meter, R331: its range in kHz, its window in s, its limit in µs. -/
structure MeterImg where
  lo : Nat
  hi : Nat
  window : Nat
  limit : Nat
  deriving DecidableEq, Repr, Inhabited

/-- A listen-before-talk range, R331: the listen time in µs, the threshold in 0.25 dBm, the acknowledgement exemption. -/
structure LbtImg where
  lo : Nat
  hi : Nat
  listen : Nat
  thr : Int
  ackEx : Bool
  deriving DecidableEq, Repr, Inhabited

/-- What a regulatory image gives, R331: bw is the occupied bandwidth in kHz by mesh mode code; removed the WLAN channels it
removes as (radio, width code, channel); cut the cut margin in 0.25 dB; ed the WLAN energy thresholds in dBm by radio; lpi and
sp the 6 GHz classes it permits with their EIRP and density limits in 0.25 dB. -/
structure RegImage where
  region : Nat
  ports : List PortImg
  eirp : List EirpImg
  bw : List (Nat × Nat)
  removed : List (Nat × Nat × Nat)
  meters : List MeterImg
  lbt : List LbtImg
  cut : Option Int
  ed : List (Option Int)
  lpi : Option (Int × Int)
  sp : Option (Int × Int)
  deriving DecidableEq, Repr, Inhabited

/-- A fresh value the spec leaves open, by the counter State.free (log entry 5). -/
opaque Config.free : Nat → Nat

/-- The minor revision a window's ID gives: any value, R62. -/
opaque Config.minor : Nat → Nat

/-- The boot ROM's octets, by address: the spec gives its range and not its content, R54. -/
opaque Config.rom : Nat → BitVec 8

/-- The content of a regulatory image by its body octets, R331: the spec names the content and not its layout. -/
opaque Config.image : List (BitVec 8) → RegImage

/-- The address and value pairs of a default register set by its body octets, R325: the spec names the content and not its
layout. -/
opaque Config.regSet : List (BitVec 8) → List (Nat × Nat)

/-- The engine program banks that a default register set loads, by 2 * coach + bank, R325, R385. -/
opaque Config.regProg : List (BitVec 8) → (bank : Nat) → List (BitVec 8)

/-- Whether the standard defines an MCS for a SUN OFDM option, R128. -/
opaque Config.ofdmMcs : (option mcs : Nat) → Bool

/-- What IEEE 802.15.4 reads in a PSDU (R156, R177 to R180), as mac154 of Machine/Mac154.lean reads it: whether the FCS is valid; the kind (0 enhanced beacon, 1 data,
2 enhanced acknowledgement, 3 MAC command, 4 other); the acknowledgement request; the PAN identifiers; address modes (0 none, 1
short, 2 extended) and addresses; the sequence number; the auxiliary security header; header IEs as (vendor identifier, content
after it); the Time Correction in µs; the ASN of a synchronisation IE. -/
structure Mac154 where
  fcs : Bool
  kind : Nat
  ackReq : Bool
  dstPan : Option Nat
  dstMode : Nat
  dst : Nat
  srcMode : Nat
  src : Nat
  seq : Option Nat
  secured : Bool
  keyMode : Nat
  keyIdx : Nat
  count : Nat
  ies : List (Nat × List (BitVec 8))
  tc : Option Int
  asn : Option Nat
  deriving DecidableEq, Repr, Inhabited

/-- A frame secured at MIC-32 under a key, with the TSCH nonce of an extended address and an ASN, R156. -/
opaque Config.meshSecure : (key : List (BitVec 8)) → (ext asn : Nat) → (frame : List (BitVec 8)) → List (BitVec 8)

/-- The air time in ns of the PHR and a PSDU of n octets in a mode other than plain two-level SUN FSK, R158. -/
opaque Config.meshAir : (mode n : Nat) → Nat

/-- The air time in ns of the preamble and SFD in a mode other than plain two-level SUN FSK, by mode and preamble octets, R129. -/
opaque Config.meshPre : (mode pre : Nat) → Nat

/-- The period in ns of the short training field of a SUN OFDM mode, R132. -/
opaque Config.stfNs : (mode : Nat) → Nat

/-- SHA-384, R322. -/
opaque Config.sha384 : List (BitVec 8) → List (BitVec 8)

/-- ECDSA over P-384: whether a signature of a digest verifies under a public key, R322. -/
opaque Config.ecdsa : (key sig digest : List (BitVec 8)) → Bool

/-- The digest the boot ROM holds: Rondaek's regulatory key, R323. -/
opaque Config.regKey : List (BitVec 8)

/-- The digest a root record's body holds for key n: 0 boot, 1 enrolment, 2 root, 3 debug: R323, R337. -/
opaque Config.rootKey : List (BitVec 8) → Nat → List (BitVec 8)

/-- This die's identifier, in the device record, R319. -/
opaque Config.dieId : Nat

/-- The key an enrolment entry unwraps to with this die's private key, by the request's ephemeral key and the 40 wrapped
octets: R328. -/
opaque Config.unwrap : (ephemeral wrapped : List (BitVec 8)) → Option (List (BitVec 8))

/-- CCM* of a mesh frame, R327, R329: the opened frame by key, ASN, and the frame from its MAC header; none when the integrity
code fails. -/
opaque Config.ccmOpen : (key : List (BitVec 8)) → (asn : Nat) → (frame : List (BitVec 8)) → Option (List (BitVec 8))

/-- CCM* of a mesh frame, R330: the secured frame by key, ASN, outgoing counter and frame. -/
opaque Config.ccmSeal : (key : List (BitVec 8)) → (asn count : Nat) → (frame : List (BitVec 8)) → List (BitVec 8)

/-- GCMP-256 of an MPDU, R327, R329. -/
opaque Config.gcmpOpen : (key frame : List (BitVec 8)) → Option (List (BitVec 8))

/-- GCMP-256 of an MPDU, R330. -/
opaque Config.gcmpSeal : (key : List (BitVec 8)) → (count : Nat) → (frame : List (BitVec 8)) → List (BitVec 8)

/-- IEEE 802.1AE of a frame with a 128-bit or 256-bit key, R327, R329. -/
opaque Config.macsecOpen : (key frame : List (BitVec 8)) → Option (List (BitVec 8))

/-- IEEE 802.1AE of a frame, R330. -/
opaque Config.macsecSeal : (key : List (BitVec 8)) → (count : Nat) → (frame : List (BitVec 8)) → List (BitVec 8)

/-- The time in ns of a WLAN PPDU as IEEE 802.11 computes it, by format in the code of R206, MCS, streams, resource-unit size code and
PSDU octets, R211, R221; that of a non-HT PPDU at 6 Mb/s is nonHtAir. -/
opaque Config.ppduAir : (fmt mcs nss ru octets : Nat) → Nat

/-- The time in ns of what answers a plan step, from SIFS before it, by step kind and number of users, R220. -/
opaque Config.respAir : (kind users : Nat) → Nat

/-- The time in ns of what a TRIG, BSRP or SOUND step sends, by kind and number of users, R220. -/
opaque Config.trigAir : (kind users : Nat) → Nat

/-- Whether IEEE 802.11 allows a puncturing pattern for a width code, R196, R212. -/
opaque Config.puncOk : (width mask : Nat) → Bool

/-- The minimum wake time in µs that IEEE 802.3 gives for a lane mode, R299. -/
opaque Config.wakeMin : (mode : Nat) → Nat

end Sys2Proof
end

