-- ==== Sys2Proof/Machine/RegNames.lean ====
section
/-!
DEFINITION. The name of every register field of the spec: where it stands (window, offset, lowest bit), its width and its
reset value, as the register tables of spec/02 to spec/21 give them. F.<REG>_<FIELD> takes the block instance where the
block has several, then the index of the register in its array. E.<BLOCK>_<EVENT> is the bit of an event in EV_RAW.
A field whose reset the spec gives as NV is 0 here and takes the settings store value at start-up and at SRESET (log
entry 3); one whose reset is undefined is 0 (log entry 2).
-/

namespace Sys2Proof.Machine

/-! The page header, R62; w is the window. -/
def F.CTRL_ENABLE (w : Nat) : Fld := mkF w 0x8 0 1 0
def F.CTRL_DOMREQ (w : Nat) : Fld := mkF w 0x8 2 2 0
def F.EV_MASK (w : Nat) : Fld := mkF w 0x14 0 32 0
def F.OPSTAT_STATE (w : Nat) : Fld := mkF w 0x24 0 4 0
def F.OPSTAT_CAUSE (w : Nat) : Fld := mkF w 0x24 4 4 0
def F.OPSTAT_PROGRESS (w : Nat) : Fld := mkF w 0x24 8 24 0
def F.OPPART (w : Nat) : Fld := mkF w 0x28 0 32 0
def F.ERRINFO_CAUSE (w : Nat) : Fld := mkF w 0x2C 0 4 0
def F.ERRINFO_RQCLASS (w : Nat) : Fld := mkF w 0x2C 4 4 0
def F.ERRINFO_RQNUM (w : Nat) : Fld := mkF w 0x2C 8 8 0
def F.ERRINFO_OFFSET (w : Nat) : Fld := mkF w 0x2C 16 14 0
def F.ERRINFO_VALID (w : Nat) : Fld := mkF w 0x2C 31 1 0
def F.LOCK_OPEN (w : Nat) : Fld := mkF w 0x30 8 1 0
def F.LOCK_HALF (w : Nat) : Fld := mkF w 0x30 9 1 0
/-- EV_RAW bit b of window w, R62. -/
def F.EV_RAW (w b : Nat) : Fld := mkF w 0x10 b 1 0

/-! PINS -/

/-- The window of PINS, R55. -/
def W.PINS : Nat := 0x52
def F.PINS_SUPPLY_MAINS_OK : Fld := mkF 0x52 0x40 0 1 0
def F.PINS_SUPPLY_BACKUP_OK : Fld := mkF 0x52 0x40 1 1 0
def F.PINS_SUPPLY_SOURCE : Fld := mkF 0x52 0x40 2 2 0
def F.PINS_SUPPLY_BATV : Fld := mkF 0x52 0x40 16 12 0
def F.PINS_BASETEMP_TEMP : Fld := mkF 0x52 0x44 0 12 0
def F.PINS_BASETEMP_WARN : Fld := mkF 0x52 0x44 16 1 0
def F.PINS_BASETEMP_HOLD : Fld := mkF 0x52 0x44 17 1 0
def F.PINS_STATUSOUT_READY : Fld := mkF 0x52 0x48 0 1 0
def F.PINS_STATUSOUT_DEGRADED : Fld := mkF 0x52 0x48 1 1 0
def F.PINS_STATUSOUT_CODE : Fld := mkF 0x52 0x48 2 3 0
def F.PINS_GPIO_DIR_DIR : Fld := mkF 0x52 0x4C 0 24 0
def F.PINS_GPIO_OUT_OUT : Fld := mkF 0x52 0x50 0 24 0
def F.PINS_GPIO_IN_IN : Fld := mkF 0x52 0x54 0 24 0

/-! PWR -/

/-- The window of PWR, R55. -/
def W.PWR : Nat := 0x01
def F.PWR_STATUS_DARKACC : Fld := mkF 0x01 0xC 8 1 0
def F.PWR_STATUS_DARKOVF : Fld := mkF 0x01 0xC 9 1 0
def F.PWR_STATUS_STATE : Fld := mkF 0x01 0xC 10 3 0
def F.PWR_STATUS_CHANGING : Fld := mkF 0x01 0xC 13 1 0
def F.PWR_DARKADDR_PAGE : Fld := mkF 0x01 0x40 0 28 0
def F.PWR_DARKADDR_RQCLASS : Fld := mkF 0x01 0x40 28 2 0
def F.PWR_DARKADDR_KIND : Fld := mkF 0x01 0x40 30 1 0
def F.PWR_STATECMD_TARGET : Fld := mkF 0x01 0x44 0 3 0
def F.PWR_STATECMD_GO : Fld := mkF 0x01 0x44 3 1 0
def F.PWR_STATECMD_PEND : Fld := mkF 0x01 0x44 4 1 0
def F.PWR_STATECMD_CAUSE : Fld := mkF 0x01 0x44 8 4 0
def F.PWR_STATECFG_VLANES : Fld := mkF 0x01 0x48 0 8 0
def F.PWR_STATECFG_WAKETO : Fld := mkF 0x01 0x48 8 1 0
def F.PWR_PERFREQ_FABRIC : Fld := mkF 0x01 0x4C 0 2 0
def F.PWR_PERFREQ_CLUSTER : Fld := mkF 0x01 0x4C 2 2 0
def F.PWR_PERFSTAT_FABRIC : Fld := mkF 0x01 0x50 0 2 0
def F.PWR_PERFSTAT_CLUSTER : Fld := mkF 0x01 0x50 2 2 0
def F.PWR_PERFSTAT_SWITCHING : Fld := mkF 0x01 0x50 4 1 0
def F.PWR_PERFSTAT_FVOLT : Fld := mkF 0x01 0x50 8 8 0
def F.PWR_PERFSTAT_CVOLT : Fld := mkF 0x01 0x50 16 8 0
def F.PWR_WAKEMASK_ALARM : Fld := mkF 0x01 0x54 0 1 1
def F.PWR_WAKEMASK_MAINSRET : Fld := mkF 0x01 0x54 1 1 1
def F.PWR_WAKEMASK_BACKUPRET : Fld := mkF 0x01 0x54 2 1 1
def F.PWR_WAKEMASK_BACKUPLOSS : Fld := mkF 0x01 0x54 3 1 0
def F.PWR_WAKEMASK_GPIO : Fld := mkF 0x01 0x54 4 1 0
def F.PWR_WAKEMASK_UART : Fld := mkF 0x01 0x54 5 1 0
def F.PWR_WAKEMASK_INTR : Fld := mkF 0x01 0x54 6 1 1
def F.PWR_WAKEGPIO_MASK : Fld := mkF 0x01 0x58 0 24 0
def F.PWR_WAKEPOL_POL : Fld := mkF 0x01 0x5C 0 24 0
def F.PWR_ALARM_MS : Fld := mkF 0x01 0x60 0 32 0
def F.PWR_WAKE_CAUSE : Fld := mkF 0x01 0x64 0 7 0
def F.PWR_WAKE_DORMANT : Fld := mkF 0x01 0x64 7 1 0
def F.PWR_SRAMRET0_BANKS : Fld := mkF 0x01 0x68 0 32 0
def F.PWR_SRAMRET1_BANKS : Fld := mkF 0x01 0x6C 0 32 0
def F.PWR_RETSEL_ENGDATA : Fld := mkF 0x01 0x70 0 1 1
def F.PWR_RETSEL_MLDTAB : Fld := mkF 0x01 0x70 1 1 1
def F.PWR_RETSEL_TXEQ : Fld := mkF 0x01 0x70 2 1 1
def F.PWR_RESSTLO_COUNT (j : Nat) : Fld := mkF 0x01 (0x80 + 8 * j) 0 32 0
def F.PWR_RESSTHI_COUNT (j : Nat) : Fld := mkF 0x01 (0x84 + 8 * j) 0 32 0
def F.PWR_RESFLO_COUNT (j : Nat) : Fld := mkF 0x01 (0xA0 + 8 * j) 0 32 0
def F.PWR_RESFHI_COUNT (j : Nat) : Fld := mkF 0x01 (0xA4 + 8 * j) 0 32 0
def F.PWR_RESCLO_COUNT (j : Nat) : Fld := mkF 0x01 (0xC0 + 8 * j) 0 32 0
def F.PWR_RESCHI_COUNT (j : Nat) : Fld := mkF 0x01 (0xC4 + 8 * j) 0 32 0
def F.PWR_CNT_COUNT (j : Nat) : Fld := mkF 0x01 (0xE0 + 4 * j) 0 31 0
def F.PWR_CNT_OVF (j : Nat) : Fld := mkF 0x01 (0xE0 + 4 * j) 31 1 0

/-! SYS -/

/-- The window of SYS, R55. -/
def W.SYS : Nat := 0x00
def F.SYS_ERRPOL_CORES : Fld := mkF 0x00 0x40 0 1 1
def F.SYS_ERRPOL_ENGINES : Fld := mkF 0x00 0x40 1 1 1
def F.SYS_ERRPOL_DEBUG : Fld := mkF 0x00 0x40 2 1 0
def F.SYS_ERRPOL_INTERNAL : Fld := mkF 0x00 0x40 3 1 1
def F.SYS_START_CAUSE : Fld := mkF 0x00 0x44 0 3 0
def F.SYS_START_FALLBACK : Fld := mkF 0x00 0x44 3 1 0
def F.SYS_START_VIGIL : Fld := mkF 0x00 0x44 4 1 0
def F.SYS_START_BOOTMS : Fld := mkF 0x00 0x44 16 16 0

/-! TIME -/

/-- The window of TIME, R55. -/
def W.TIME : Nat := 0x02
def F.TIME_FRAC_FRAC : Fld := mkF 0x02 0x40 0 16 0
def F.TIME_NS_NS : Fld := mkF 0x02 0x44 0 32 0
def F.TIME_SECLO_SEC : Fld := mkF 0x02 0x48 0 32 0
def F.TIME_SECHI_SEC : Fld := mkF 0x02 0x4C 0 16 0
def F.TIME_INCRLO_FRAC : Fld := mkF 0x02 0x50 0 32 0
def F.TIME_INCRHI_INT : Fld := mkF 0x02 0x54 0 8 4
def F.TIME_STEP_STEP : Fld := mkF 0x02 0x58 0 32 0
def F.TIME_SLEW_SLEW : Fld := mkF 0x02 0x5C 0 32 0
def F.TIME_SLEWCFG_RATE : Fld := mkF 0x02 0x60 0 10 100
def F.TIME_REFCTL_SEL : Fld := mkF 0x02 0x64 0 1 0
def F.TIME_REFCTL_ACTIVE : Fld := mkF 0x02 0x64 1 1 0
def F.TIME_REFCTL_EXTVALID : Fld := mkF 0x02 0x64 2 1 0
def F.TIME_SYNCCFG_SRC : Fld := mkF 0x02 0x68 0 2 0
def F.TIME_SYNCCFG_SERVO : Fld := mkF 0x02 0x68 2 1 1
def F.TIME_SYNCCFG_STEPOK : Fld := mkF 0x02 0x68 3 1 0
def F.TIME_SYNCCFG_KP : Fld := mkF 0x02 0x68 4 4 1
def F.TIME_SYNCCFG_KI : Fld := mkF 0x02 0x68 8 4 4
def F.TIME_SYNCIVL_IVL : Fld := mkF 0x02 0x6C 0 16 1000
def F.TIME_MEAS_Y : Fld := mkF 0x02 0x70 0 32 0
def F.TIME_STATE_STATE : Fld := mkF 0x02 0x74 0 3 0
def F.TIME_STATE_MISSES : Fld := mkF 0x02 0x74 8 8 0
def F.TIME_STATE_MOVF : Fld := mkF 0x02 0x74 16 1 0
def F.TIME_LOCKCFG_THR : Fld := mkF 0x02 0x78 0 16 1000
def F.TIME_LOCKCFG_N : Fld := mkF 0x02 0x78 16 4 4
def F.TIME_UNC_UNC : Fld := mkF 0x02 0x7C 0 32 4294967295
def F.TIME_UNCCFG_RATE : Fld := mkF 0x02 0x80 0 16 50
def F.TIME_UNCCFG_FLOOR : Fld := mkF 0x02 0x80 16 16 100
def F.TIME_UNCMAX_MAX : Fld := mkF 0x02 0x84 0 32 1000000
def F.TIME_LASTMEAS_Y : Fld := mkF 0x02 0x88 0 32 0
def F.TIME_MEASCNT_COUNT : Fld := mkF 0x02 0x8C 0 31 0
def F.TIME_MEASCNT_OVF : Fld := mkF 0x02 0x8C 31 1 0
def F.TIME_MISSCNT_COUNT : Fld := mkF 0x02 0x90 0 31 0
def F.TIME_MISSCNT_OVF : Fld := mkF 0x02 0x90 31 1 0
def F.TIME_STEPMAX_MAX : Fld := mkF 0x02 0x94 0 16 10000
def F.TIME_PPSCFG_WIDTH : Fld := mkF 0x02 0x98 0 20 100000
def F.TIME_PPSCFG_ALWAYS : Fld := mkF 0x02 0x98 20 1 0
def F.TIME_PPSFRAC_FRAC : Fld := mkF 0x02 0xA0 0 16 0
def F.TIME_PPSNS_NS : Fld := mkF 0x02 0xA4 0 32 0
def F.TIME_PPSSECLO_SEC : Fld := mkF 0x02 0xA8 0 32 0
def F.TIME_PPSSECHI_SEC : Fld := mkF 0x02 0xAC 0 16 0
def F.TIME_SLPPER_FRAC : Fld := mkF 0x02 0xB0 0 16 37888
def F.TIME_SLPPER_INT : Fld := mkF 0x02 0xB0 16 16 30517
def F.TIME_SLPCFG_DRIFT : Fld := mkF 0x02 0xB4 0 8 10
def F.TIME_SLPCFG_CALVALID : Fld := mkF 0x02 0xB4 8 1 0
def F.TIME_TSMODE_EMAC : Fld := mkF 0x02 0xC0 0 8 255
def F.TIME_TSMODE_MESH : Fld := mkF 0x02 0xC0 8 1 1
def F.TIME_TSMODE_WLAN : Fld := mkF 0x02 0xC0 9 3 7
def F.TIME_ETRIM_TX (j : Nat) : Fld := mkF 0x02 (0x100 + 4 * j) 0 16 0
def F.TIME_ETRIM_RX (j : Nat) : Fld := mkF 0x02 (0x100 + 4 * j) 16 16 0
def F.TIME_RTRIM_TX (j : Nat) : Fld := mkF 0x02 (0x120 + 4 * j) 0 16 0
def F.TIME_RTRIM_RX (j : Nat) : Fld := mkF 0x02 (0x120 + 4 * j) 16 16 0

/-! RFE -/

/-- The window of RFE instance i, R55. -/
def W.RFE (i : Nat) : Nat := 0x10 + i
def F.RFE_CAPS_PORTS (i : Nat) : Fld := mkF (0x10 + i) 0x4 0 8 ([4, 8, 8, 6].getD i 0)
def F.RFE_CAPS_ENTRIES (i : Nat) : Fld := mkF (0x10 + i) 0x4 8 9 ([64, 64, 64, 256].getD i 0)
def F.RFE_CAPS_PATHS (i : Nat) : Fld := mkF (0x10 + i) 0x4 17 2 ([1, 1, 1, 3].getD i 0)
def F.RFE_PATHCFG_REST (i : Nat) (j : Nat) : Fld := mkF (0x10 + i) (0x40 + 4 * j) 0 2 0
def F.RFE_PATHCFG_AFTERTX (i : Nat) (j : Nat) : Fld := mkF (0x10 + i) (0x40 + 4 * j) 2 2 ([0, 1, 0].getD j 0)
def F.RFE_PATHCFG_AFTERRX (i : Nat) (j : Nat) : Fld := mkF (0x10 + i) (0x40 + 4 * j) 4 2 0
def F.RFE_PATHCFG_DIVMODE (i : Nat) (j : Nat) : Fld := mkF (0x10 + i) (0x40 + 4 * j) 6 2 2
def F.RFE_PATHCFG_DIVPREF (i : Nat) (j : Nat) : Fld := mkF (0x10 + i) (0x40 + 4 * j) 8 1 0
def F.RFE_PATHCFG_DIVHYST (i : Nat) (j : Nat) : Fld := mkF (0x10 + i) (0x40 + 4 * j) 9 5 2
def F.RFE_PATHSTAT_STATE (i : Nat) (j : Nat) : Fld := mkF (0x10 + i) (0x50 + 4 * j) 0 3 0
def F.RFE_PATHSTAT_TUNING (i : Nat) (j : Nat) : Fld := mkF (0x10 + i) (0x50 + 4 * j) 3 1 0
def F.RFE_PATHSTAT_BGSTEP (i : Nat) (j : Nat) : Fld := mkF (0x10 + i) (0x50 + 4 * j) 4 1 0
def F.RFE_PATHSTAT_ENTRY (i : Nat) (j : Nat) : Fld := mkF (0x10 + i) (0x50 + 4 * j) 8 8 0
def F.RFE_OPSEL_OP (i : Nat) : Fld := mkF (0x10 + i) 0x60 0 2 0
def F.RFE_OPSEL_PATH (i : Nat) : Fld := mkF (0x10 + i) 0x60 2 2 0
def F.RFE_OPSEL_FIRST (i : Nat) : Fld := mkF (0x10 + i) 0x60 8 8 0
def F.RFE_OPSEL_COUNT (i : Nat) : Fld := mkF (0x10 + i) 0x60 16 8 0
def F.RFE_SURVEY_DWELL (i : Nat) : Fld := mkF (0x10 + i) 0x64 0 16 1000
def F.RFE_SURVEY_PASSES (i : Nat) : Fld := mkF (0x10 + i) 0x64 16 8 1
def F.RFE_SURVADDR_ADDR (i : Nat) : Fld := mkF (0x10 + i) 0x68 0 32 318767104
def F.RFE_CALIDX_INDEX (i : Nat) : Fld := mkF (0x10 + i) 0x70 0 8 0
def F.RFE_CALDATA_WORD (i : Nat) (j : Nat) : Fld := mkF (0x10 + i) (0x74 + 4 * j) 0 32 0
def F.RFE_BGCAL_EN (i : Nat) : Fld := mkF (0x10 + i) 0x84 0 1 1
def F.RFE_BGCAL_TEMPSTEP (i : Nat) : Fld := mkF (0x10 + i) 0x84 8 5 5
def F.RFE_BGCAL_PERIOD (i : Nat) : Fld := mkF (0x10 + i) 0x84 16 16 60
def F.RFE_CNT0_LATE (i : Nat) : Fld := mkF (0x10 + i) 0x88 0 15 0
def F.RFE_CNT0_LOVF (i : Nat) : Fld := mkF (0x10 + i) 0x88 15 1 0
def F.RFE_CNT0_BUSY (i : Nat) : Fld := mkF (0x10 + i) 0x88 16 15 0
def F.RFE_CNT0_BOVF (i : Nat) : Fld := mkF (0x10 + i) 0x88 31 1 0
def F.RFE_CNT1_NOCAL (i : Nat) : Fld := mkF (0x10 + i) 0x8C 0 15 0
def F.RFE_CNT1_NOVF (i : Nat) : Fld := mkF (0x10 + i) 0x8C 15 1 0
def F.RFE_CNT1_SPAN (i : Nat) : Fld := mkF (0x10 + i) 0x8C 16 15 0
def F.RFE_CNT1_SOVF (i : Nat) : Fld := mkF (0x10 + i) 0x8C 31 1 0
def F.RFE_CNT2_COEX (i : Nat) : Fld := mkF (0x10 + i) 0x90 0 15 0
def F.RFE_CNT2_COVF (i : Nat) : Fld := mkF (0x10 + i) 0x90 15 1 0
def F.RFE_CNT2_MASK (i : Nat) : Fld := mkF (0x10 + i) 0x90 16 15 0
def F.RFE_CNT2_MOVF (i : Nat) : Fld := mkF (0x10 + i) 0x90 31 1 0
def F.RFE_CNT3_CUT (i : Nat) : Fld := mkF (0x10 + i) 0x94 0 15 0
def F.RFE_CNT3_CUTOVF (i : Nat) : Fld := mkF (0x10 + i) 0x94 15 1 0
def F.RFE_MASKLAST_EXCESS (i : Nat) : Fld := mkF (0x10 + i) 0x98 0 16 0
def F.RFE_MASKLAST_PORT (i : Nat) : Fld := mkF (0x10 + i) 0x98 16 4 0
def F.RFE_MASKLAST_CUT (i : Nat) : Fld := mkF (0x10 + i) 0x98 20 1 0
def F.RFE_REFLCFG_THR (i : Nat) : Fld := mkF (0x10 + i) 0x9C 0 8 24
def F.RFE_REFL_RL (i : Nat) (j : Nat) : Fld := mkF (0x10 + i) (0xA0 + 4 * j) 0 8 0
def F.RFE_REFL_LOW (i : Nat) (j : Nat) : Fld := mkF (0x10 + i) (0xA0 + 4 * j) 8 1 0
def F.RFE_CANCCFG_EN (i : Nat) : Fld := mkF (0x10 + i) 0xC0 0 1 1
def F.RFE_CANCCFG_HOLD (i : Nat) : Fld := mkF (0x10 + i) 0xC0 1 1 0
def F.RFE_CANCCFG_CLEAR (i : Nat) : Fld := mkF (0x10 + i) 0xC0 2 1 0
def F.RFE_CANCCFG_SAVE (i : Nat) : Fld := mkF (0x10 + i) 0xC0 3 1 0
def F.RFE_CANCCFG_MIN (i : Nat) : Fld := mkF (0x10 + i) 0xC0 8 8 55
def F.RFE_CANCSTAT_ACHIEVED (i : Nat) (j : Nat) : Fld := mkF (0x10 + i) (0xC4 + 4 * j) 0 8 0
def F.RFE_CANCSTAT_COUPLED (i : Nat) (j : Nat) : Fld := mkF (0x10 + i) (0xC4 + 4 * j) 8 8 0
def F.RFE_CANCSTAT_CONV (i : Nat) (j : Nat) : Fld := mkF (0x10 + i) (0xC4 + 4 * j) 16 1 0
def F.RFE_CANCSTAT_OVER (i : Nat) (j : Nat) : Fld := mkF (0x10 + i) (0xC4 + 4 * j) 17 1 0
def F.RFE_COEXCFG_EN (i : Nat) : Fld := mkF (0x10 + i) 0xE0 0 1 0
def F.RFE_COEXCFG_SCOPE (i : Nat) : Fld := mkF (0x10 + i) 0xE0 1 5 17
def F.RFE_COEXCFG_PEXTLO (i : Nat) : Fld := mkF (0x10 + i) 0xE0 6 2 1
def F.RFE_COEXCFG_PEXTHI (i : Nat) : Fld := mkF (0x10 + i) 0xE0 8 2 2
def F.RFE_COEXCFG_PMESHP (i : Nat) : Fld := mkF (0x10 + i) 0xE0 10 2 3
def F.RFE_COEXCFG_PMESH (i : Nat) : Fld := mkF (0x10 + i) 0xE0 12 2 2
def F.RFE_COEXCFG_PWLAN (i : Nat) : Fld := mkF (0x10 + i) 0xE0 14 2 1
def F.RFE_COEXCFG_LEAD (i : Nat) : Fld := mkF (0x10 + i) 0xE0 16 8 20
def F.RFE_COEXCFG_RXREQ (i : Nat) : Fld := mkF (0x10 + i) 0xE0 24 1 0
def F.RFE_COEXSTAT_REQIN (i : Nat) : Fld := mkF (0x10 + i) 0xE4 0 1 0
def F.RFE_COEXSTAT_PRIO (i : Nat) : Fld := mkF (0x10 + i) 0xE4 1 1 0
def F.RFE_COEXSTAT_HOLD (i : Nat) : Fld := mkF (0x10 + i) 0xE4 2 1 0
def F.RFE_COEXSTAT_REQOUT (i : Nat) : Fld := mkF (0x10 + i) 0xE4 3 1 0
def F.RFE_COEXSTAT_GRANTIN (i : Nat) : Fld := mkF (0x10 + i) 0xE4 4 1 0

/-! MPHY -/

/-- The window of MPHY, R55. -/
def W.MPHY : Nat := 0x14
def F.MPHY_CAPS_LISTENERS : Fld := mkF 0x14 0x4 0 9 288
def F.MPHY_CAPS_CARRIERS : Fld := mkF 0x14 0x4 9 6 32
def F.MPHY_CAPS_WINDOWS : Fld := mkF 0x14 0x4 15 3 4
def F.MPHY_WIN_CENTRE (j : Nat) : Fld := mkF 0x14 (0x40 + 4 * j) 0 20 0
def F.MPHY_WIN_WIDTH (j : Nat) : Fld := mkF 0x14 (0x40 + 4 * j) 20 3 0
def F.MPHY_WINCTL_COMMIT : Fld := mkF 0x14 0x50 0 1 0
def F.MPHY_WINCTL_PENDING : Fld := mkF 0x14 0x50 1 1 0
def F.MPHY_TXCFG_MAXRED : Fld := mkF 0x14 0x54 0 5 6
def F.MPHY_CARRSTAT_MT0 : Fld := mkF 0x14 0x58 0 6 0
def F.MPHY_CARRSTAT_MT1 : Fld := mkF 0x14 0x58 8 6 0
def F.MPHY_CARRSTAT_MG : Fld := mkF 0x14 0x58 16 6 0
def F.MPHY_QUAL_M (j : Nat) : Fld := mkF 0x14 (0x60 + 4 * j) 0 5 ([4, 8, 6].getD j 0)
def F.MPHY_QUAL_N (j : Nat) : Fld := mkF 0x14 (0x60 + 4 * j) 5 5 ([3, 6, 4].getD j 0)
def F.MPHY_QUAL_QTHR (j : Nat) : Fld := mkF 0x14 (0x60 + 4 * j) 10 8 160
def F.MPHY_QUAL_SFDWAIT (j : Nat) : Fld := mkF 0x14 (0x60 + 4 * j) 18 10 ([12, 4, 4].getD j 0)
def F.MPHY_LSEL_LISTENER : Fld := mkF 0x14 0x70 0 9 0
def F.MPHY_LCFG_THRMODE : Fld := mkF 0x14 0x74 0 1 1
def F.MPHY_LCFG_CAPSPAN : Fld := mkF 0x14 0x74 1 1 0
def F.MPHY_LCFG_MARGIN : Fld := mkF 0x14 0x74 2 6 12
def F.MPHY_LCFG_THR : Fld := mkF 0x14 0x74 16 16 12
def F.MPHY_LSTAT0_STATE : Fld := mkF 0x14 0x78 0 3 0
def F.MPHY_LSTAT0_AERIAL : Fld := mkF 0x14 0x78 3 1 0
def F.MPHY_LSTAT0_TILE : Fld := mkF 0x14 0x78 4 3 0
def F.MPHY_LSTAT0_POWERED : Fld := mkF 0x14 0x78 7 1 0
def F.MPHY_LSTAT0_MODE : Fld := mkF 0x14 0x78 8 8 0
def F.MPHY_LSTAT1_FREQ : Fld := mkF 0x14 0x7C 0 24 0
def F.MPHY_NFIDX_ENTRY : Fld := mkF 0x14 0x80 0 8 0
def F.MPHY_NFDATA_FLOOR : Fld := mkF 0x14 0x84 0 16 0
def F.MPHY_NFDATA_MEASURED : Fld := mkF 0x14 0x84 16 1 0
def F.MPHY_EQCFG_LISTENER : Fld := mkF 0x14 0x90 0 9 0
def F.MPHY_EQCFG_ARM : Fld := mkF 0x14 0x90 9 1 0
def F.MPHY_EQCFG_ARMED : Fld := mkF 0x14 0x90 10 1 0
def F.MPHY_EQADDR_ADDR : Fld := mkF 0x14 0x94 0 32 318767104
def F.MPHY_RXFRAMESLO_COUNT : Fld := mkF 0x14 0xA0 0 32 0
def F.MPHY_RXFRAMESHI_COUNT : Fld := mkF 0x14 0xA4 0 31 0
def F.MPHY_RXFRAMESHI_OVF : Fld := mkF 0x14 0xA4 31 1 0
def F.MPHY_CNT_COUNT (j : Nat) : Fld := mkF 0x14 (0xC0 + 4 * j) 0 31 0
def F.MPHY_CNT_OVF (j : Nat) : Fld := mkF 0x14 (0xC0 + 4 * j) 31 1 0

/-! MLC -/

/-- The window of MLC, R55. -/
def W.MLC : Nat := 0x15
def F.MLC_CAPS_TILES : Fld := mkF 0x15 0x4 0 4 8
def F.MLC_CAPS_TEMPLATES : Fld := mkF 0x15 0x4 4 4 8
def F.MLC_CAPS_SLOTFRAMES : Fld := mkF 0x15 0x4 8 5 16
def F.MLC_LOADSRCLO_ADDR : Fld := mkF 0x15 0x40 0 32 0
def F.MLC_LOADSRCHI_ADDR : Fld := mkF 0x15 0x44 0 8 0
def F.MLC_LOADFIRST_FIRST : Fld := mkF 0x15 0x48 0 20 0
def F.MLC_LOADCOUNT_COUNT : Fld := mkF 0x15 0x4C 0 21 0
def F.MLC_QUIETCFG_QMODE : Fld := mkF 0x15 0x50 0 2 1
def F.MLC_QUIETCFG_QLEAD : Fld := mkF 0x15 0x50 8 8 50
def F.MLC_QUIETCFG_QGUARD : Fld := mkF 0x15 0x50 16 5 2
def F.MLC_VENDORID_ID : Fld := mkF 0x15 0x54 0 24 0
def F.MLC_CNT_COUNT (j : Nat) : Fld := mkF 0x15 (0x80 + 4 * j) 0 31 0
def F.MLC_CNT_OVF (j : Nat) : Fld := mkF 0x15 (0x80 + 4 * j) 31 1 0
def F.MLC_TILE_CTL_EN (j : Nat) : Fld := mkF 0x15 (0x100 + 128 * j) 0 1 0
def F.MLC_TILE_CTL_FOLLOW (j : Nat) : Fld := mkF 0x15 (0x100 + 128 * j) 1 1 0
def F.MLC_TILE_CTL_BAND (j : Nat) : Fld := mkF 0x15 (0x100 + 128 * j) 2 1 0
def F.MLC_TILE_CTL_ACKSEC (j : Nat) : Fld := mkF 0x15 (0x100 + 128 * j) 3 1 1
def F.MLC_TILE_CTL_ACQ (j : Nat) : Fld := mkF 0x15 (0x100 + 128 * j) 4 1 0
def F.MLC_TILE_CTL_RUN (j : Nat) : Fld := mkF 0x15 (0x100 + 128 * j) 5 1 0
def F.MLC_TILE_CTL_ACKKEY (j : Nat) : Fld := mkF 0x15 (0x100 + 128 * j) 8 12 0
def F.MLC_TILE_CTL_REFCAUSE (j : Nat) : Fld := mkF 0x15 (0x100 + 128 * j) 20 4 0
def F.MLC_TILE_PAN_PANID (j : Nat) : Fld := mkF 0x15 (0x104 + 128 * j) 0 16 65535
def F.MLC_TILE_PAN_SHORT (j : Nat) : Fld := mkF 0x15 (0x104 + 128 * j) 16 16 0
def F.MLC_TILE_SLOT_SLOTLEN (j : Nat) : Fld := mkF 0x15 (0x108 + 128 * j) 0 16 25000
def F.MLC_TILE_SLOT_HOPLEN (j : Nat) : Fld := mkF 0x15 (0x108 + 128 * j) 16 8 16
def F.MLC_TILE_CH0_CH0 (j : Nat) : Fld := mkF 0x15 (0x10C + 128 * j) 0 24 0
def F.MLC_TILE_SPACING_SPACING (j : Nat) : Fld := mkF 0x15 (0x110 + 128 * j) 0 16 200
def F.MLC_TILE_EPOCHNS_NS (j : Nat) : Fld := mkF 0x15 (0x114 + 128 * j) 0 32 0
def F.MLC_TILE_EPOCHSECLO_SEC (j : Nat) : Fld := mkF 0x15 (0x118 + 128 * j) 0 32 0
def F.MLC_TILE_EPOCHSECHI_SEC (j : Nat) : Fld := mkF 0x15 (0x11C + 128 * j) 0 16 0
def F.MLC_TILE_ASNBASELO_ASN (j : Nat) : Fld := mkF 0x15 (0x120 + 128 * j) 0 32 0
def F.MLC_TILE_ASNBASEHI_ASN (j : Nat) : Fld := mkF 0x15 (0x124 + 128 * j) 0 8 0
def F.MLC_TILE_ASNLO_ASN (j : Nat) : Fld := mkF 0x15 (0x128 + 128 * j) 0 32 0
def F.MLC_TILE_ASNHI_ASN (j : Nat) : Fld := mkF 0x15 (0x12C + 128 * j) 0 8 0
def F.MLC_TILE_BEACON_JP (j : Nat) : Fld := mkF 0x15 (0x130 + 128 * j) 0 8 0
def F.MLC_TILE_BEACON_JPADD (j : Nat) : Fld := mkF 0x15 (0x130 + 128 * j) 8 8 64
def F.MLC_TILE_BEACON_BSEL (j : Nat) : Fld := mkF 0x15 (0x130 + 128 * j) 16 1 0
def F.MLC_TILE_BEACON_AUTOCH (j : Nat) : Fld := mkF 0x15 (0x130 + 128 * j) 17 1 1
def F.MLC_TILE_BCNA_ADDR (j : Nat) : Fld := mkF 0x15 (0x134 + 128 * j) 0 32 0
def F.MLC_TILE_BCNB_ADDR (j : Nat) : Fld := mkF 0x15 (0x138 + 128 * j) 0 32 0
def F.MLC_TILE_BCNOFS_SYNCOFS (j : Nat) : Fld := mkF 0x15 (0x13C + 128 * j) 0 8 0
def F.MLC_TILE_BCNOFS_TIEOFS (j : Nat) : Fld := mkF 0x15 (0x13C + 128 * j) 8 8 0
def F.MLC_TILE_BCNOFS_LEN (j : Nat) : Fld := mkF 0x15 (0x13C + 128 * j) 16 12 0
def F.MLC_TILE_CSMA_MINBE (j : Nat) : Fld := mkF 0x15 (0x140 + 128 * j) 0 4 1
def F.MLC_TILE_CSMA_MAXBE (j : Nat) : Fld := mkF 0x15 (0x140 + 128 * j) 4 4 7
def F.MLC_TILE_CSMA_MAXRETRY (j : Nat) : Fld := mkF 0x15 (0x140 + 128 * j) 8 4 3
def F.MLC_TILE_CSMA_CCATHR (j : Nat) : Fld := mkF 0x15 (0x140 + 128 * j) 12 8 181
def F.MLC_TILE_SEED_SEED (j : Nat) : Fld := mkF 0x15 (0x144 + 128 * j) 0 32 1
def F.MLC_TILE_NBR_NBRSHORT (j : Nat) : Fld := mkF 0x15 (0x148 + 128 * j) 0 16 65534
def F.MLC_TILE_EXTLO_EXT (j : Nat) : Fld := mkF 0x15 (0x14C + 128 * j) 0 32 0
def F.MLC_TILE_EXTHI_EXT (j : Nat) : Fld := mkF 0x15 (0x150 + 128 * j) 0 32 0
def F.MLC_TILE_NBRSCAN_SCANCH (j : Nat) : Fld := mkF 0x15 (0x154 + 128 * j) 0 16 0
def F.MLC_TILE_NBRSCAN_SCANLIS (j : Nat) : Fld := mkF 0x15 (0x154 + 128 * j) 16 9 0
def F.MLC_SFCTL_EN (j : Nat) (k : Nat) : Fld := mkF 0x15 (0x1000 + 512 * j + 32 * k) 0 1 0
def F.MLC_SFCTL_ACTIVE (j : Nat) (k : Nat) : Fld := mkF 0x15 (0x1000 + 512 * j + 32 * k) 1 1 0
def F.MLC_SFCTL_SWITCH (j : Nat) (k : Nat) : Fld := mkF 0x15 (0x1000 + 512 * j + 32 * k) 2 1 0
def F.MLC_SFCTL_SWPEND (j : Nat) (k : Nat) : Fld := mkF 0x15 (0x1000 + 512 * j + 32 * k) 3 1 0
def F.MLC_SFCTL_CAUSE (j : Nat) (k : Nat) : Fld := mkF 0x15 (0x1000 + 512 * j + 32 * k) 4 3 0
def F.MLC_HOP_EVEN (j : Nat) (k : Nat) : Fld := mkF 0x15 (0x2000 + 512 * j + 4 * k) 0 16 0
def F.MLC_HOP_ODD (j : Nat) (k : Nat) : Fld := mkF 0x15 (0x2000 + 512 * j + 4 * k) 16 16 0
def F.MLC_TPL0_TXOFFSET (j : Nat) (k : Nat) : Fld := mkF 0x15 (0x800 + 256 * j + 32 * k) 0 16 2000
def F.MLC_TPL0_GUARD (j : Nat) (k : Nat) : Fld := mkF 0x15 (0x800 + 256 * j + 32 * k) 16 16 1000
def F.MLC_TPL1_PRESFD (j : Nat) (k : Nat) : Fld := mkF 0x15 (0x804 + 256 * j + 32 * k) 0 16 800
def F.MLC_TPL1_ACKDELAY (j : Nat) (k : Nat) : Fld := mkF 0x15 (0x804 + 256 * j + 32 * k) 16 16 1000
def F.MLC_TPL2_ACKWAIT (j : Nat) (k : Nat) : Fld := mkF 0x15 (0x808 + 256 * j + 32 * k) 0 16 400
def F.MLC_TPL2_ACKSPREAD (j : Nat) (k : Nat) : Fld := mkF 0x15 (0x808 + 256 * j + 32 * k) 16 16 0
def F.MLC_TPL3_RXEND (j : Nat) (k : Nat) : Fld := mkF 0x15 (0x80C + 256 * j + 32 * k) 0 16 22000
def F.MLC_TPL3_MODE (j : Nat) (k : Nat) : Fld := mkF 0x15 (0x80C + 256 * j + 32 * k) 16 8 1
def F.MLC_TPL4_CCAOFFSET (j : Nat) (k : Nat) : Fld := mkF 0x15 (0x810 + 256 * j + 32 * k) 0 16 1800
def F.MLC_TPL4_CCADUR (j : Nat) (k : Nat) : Fld := mkF 0x15 (0x810 + 256 * j + 32 * k) 16 16 0
def F.MLC_SWASNLO_SWASN (j : Nat) (k : Nat) : Fld := mkF 0x15 (0x1004 + 512 * j + 32 * k) 0 32 0
def F.MLC_SWASNHI_SWASN (j : Nat) (k : Nat) : Fld := mkF 0x15 (0x1008 + 512 * j + 32 * k) 0 8 0
def F.MLC_ABASE_BASE (j : Nat) (k : Nat) : Fld := mkF 0x15 (0x100C + 512 * j + 32 * k) 0 20 0
def F.MLC_ACOUNT_COUNT (j : Nat) (k : Nat) : Fld := mkF 0x15 (0x1010 + 512 * j + 32 * k) 0 21 0
def F.MLC_LEN_A (j : Nat) (k : Nat) : Fld := mkF 0x15 (0x1014 + 512 * j + 32 * k) 0 16 0
def F.MLC_LEN_B (j : Nat) (k : Nat) : Fld := mkF 0x15 (0x1014 + 512 * j + 32 * k) 16 16 0
def F.MLC_BBASE_BASE (j : Nat) (k : Nat) : Fld := mkF 0x15 (0x1018 + 512 * j + 32 * k) 0 20 0
def F.MLC_BCOUNT_COUNT (j : Nat) (k : Nat) : Fld := mkF 0x15 (0x101C + 512 * j + 32 * k) 0 21 0

/-! MNODE -/

/-- The window of MNODE, R55. -/
def W.MNODE : Nat := 0x16
def F.MNODE_CAPS_RECORDS : Fld := mkF 0x16 0x4 0 19 262144
def F.MNODE_CAPS_CACHELOG : Fld := mkF 0x16 0x4 19 5 14
def F.MNODE_TBL0LO_ADDR : Fld := mkF 0x16 0x40 0 32 0
def F.MNODE_TBL0HI_ADDR : Fld := mkF 0x16 0x44 0 8 128
def F.MNODE_TBL1LO_ADDR : Fld := mkF 0x16 0x48 0 32 0
def F.MNODE_TBL1HI_ADDR : Fld := mkF 0x16 0x4C 0 8 130
def F.MNODE_DUPCFG_HORIZON : Fld := mkF 0x16 0x50 0 16 400
def F.MNODE_PCFG_PIDXLO : Fld := mkF 0x16 0x54 0 8 240
def F.MNODE_PCFG_PIDXHI : Fld := mkF 0x16 0x54 8 8 255
def F.MNODE_PCFG_MACCMD : Fld := mkF 0x16 0x54 16 1 1
def F.MNODE_ADDRCFG_HOLDOFF : Fld := mkF 0x16 0x58 0 24 86400
def F.MNODE_DLCFG_QDEF : Fld := mkF 0x16 0x5C 0 4 8
def F.MNODE_DLCFG_TTL : Fld := mkF 0x16 0x5C 16 16 600
def F.MNODE_DLTOTAL_TOTAL : Fld := mkF 0x16 0x60 0 19 65536
def F.MNODE_DRIFTCFG_CFO : Fld := mkF 0x16 0x64 0 1 1
def F.MNODE_DRIFTCFG_K : Fld := mkF 0x16 0x64 1 3 2
def F.MNODE_DRIFTCFG_MINSPAN : Fld := mkF 0x16 0x64 8 8 30
def F.MNODE_DRIFTCFG_WIDEGUARD : Fld := mkF 0x16 0x64 16 16 1000
def F.MNODE_TIMECFG_STEADY : Fld := mkF 0x16 0x68 0 16 15000
def F.MNODE_CMD_OP : Fld := mkF 0x16 0x70 0 4 0
def F.MNODE_CMD_GO : Fld := mkF 0x16 0x70 4 1 0
def F.MNODE_CMD_CBUSY : Fld := mkF 0x16 0x70 5 1 0
def F.MNODE_CMD_RESULT : Fld := mkF 0x16 0x70 8 4 0
def F.MNODE_ARG_ARG (j : Nat) : Fld := mkF 0x16 (0x74 + 4 * j) 0 32 0
def F.MNODE_RES_INDEX : Fld := mkF 0x16 0x84 0 18 0
def F.MNODE_RES_STATE : Fld := mkF 0x16 0x84 18 3 0
def F.MNODE_RESSHORT_SHORT : Fld := mkF 0x16 0x88 0 16 65534
def F.MNODE_LOSTIDX_INDEX : Fld := mkF 0x16 0x8C 0 18 0
def F.MNODE_RDBUF_WORD (j : Nat) : Fld := mkF 0x16 (0xA0 + 4 * j) 0 32 0
def F.MNODE_REBCFG_MODE : Fld := mkF 0x16 0xE0 0 2 0
def F.MNODE_REBSRCLO_ADDR : Fld := mkF 0x16 0xE4 0 32 0
def F.MNODE_REBSRCHI_ADDR : Fld := mkF 0x16 0xE8 0 8 0
def F.MNODE_USED_USED : Fld := mkF 0x16 0xF0 0 19 0
def F.MNODE_QUEUED_QUEUED : Fld := mkF 0x16 0xF4 0 19 0
def F.MNODE_CNT_COUNT (j : Nat) : Fld := mkF 0x16 (0x100 + 4 * j) 0 31 0
def F.MNODE_CNT_OVF (j : Nat) : Fld := mkF 0x16 (0x100 + 4 * j) 31 1 0

/-! WPHY -/

/-- The window of WPHY instance i, R55. -/
def W.WPHY (i : Nat) : Nat := 0x18 + i
def F.WPHY_CAPS_PORTS (i : Nat) : Fld := mkF (0x18 + i) 0x4 0 4 ([4, 8, 8].getD i 0)
def F.WPHY_CAPS_MAXBW (i : Nat) : Fld := mkF (0x18 + i) 0x4 4 3 ([1, 3, 4].getD i 0)
def F.WPHY_CAPS_NSS (i : Nat) : Fld := mkF (0x18 + i) 0x4 7 4 ([4, 8, 8].getD i 0)
def F.WPHY_CAPS_MUMIMO (i : Nat) : Fld := mkF (0x18 + i) 0x4 11 1 ([0, 1, 1].getD i 0)
def F.WPHY_CAPS_GRANTS (i : Nat) : Fld := mkF (0x18 + i) 0x4 12 1 ([0, 0, 1].getD i 0)
def F.WPHY_CHANSTAGE_PRIMARY (i : Nat) : Fld := mkF (0x18 + i) 0x40 0 8 ([1, 36, 37].getD i 0)
def F.WPHY_CHANSTAGE_WIDTH (i : Nat) : Fld := mkF (0x18 + i) 0x40 8 3 0
def F.WPHY_CHANSTAGE_DISSUB (i : Nat) : Fld := mkF (0x18 + i) 0x40 16 16 0
def F.WPHY_CHANCTL_COMMIT (i : Nat) : Fld := mkF (0x18 + i) 0x44 0 1 0
def F.WPHY_CHANCTL_PENDING (i : Nat) : Fld := mkF (0x18 + i) 0x44 1 1 0
def F.WPHY_CHANCTL_CAUSE (i : Nat) : Fld := mkF (0x18 + i) 0x44 4 3 0
def F.WPHY_CHANCUR_CHAN (i : Nat) : Fld := mkF (0x18 + i) 0x48 0 32 ([1, 36, 37].getD i 0)
def F.WPHY_RXCFG_MARGIN (i : Nat) : Fld := mkF (0x18 + i) 0x4C 0 6 8
def F.WPHY_RXCFG_RESTARTSPAN (i : Nat) : Fld := mkF (0x18 + i) 0x4C 6 1 0
def F.WPHY_RXCFG_PDTHR (i : Nat) : Fld := mkF (0x18 + i) 0x4C 16 8 174
def F.WPHY_RXCFG_EDTHR (i : Nat) : Fld := mkF (0x18 + i) 0x4C 24 8 194
def F.WPHY_PWRCLASS_CLASS (i : Nat) : Fld := mkF (0x18 + i) 0x50 0 2 0
def F.WPHY_EQCFG_AID (i : Nat) : Fld := mkF (0x18 + i) 0x54 0 12 0
def F.WPHY_EQCFG_NG (i : Nat) : Fld := mkF (0x18 + i) 0x54 12 2 1
def F.WPHY_EQCFG_ARM (i : Nat) : Fld := mkF (0x18 + i) 0x54 14 1 0
def F.WPHY_EQCFG_ARMED (i : Nat) : Fld := mkF (0x18 + i) 0x54 15 1 0
def F.WPHY_EQADDR_ADDR (i : Nat) : Fld := mkF (0x18 + i) 0x58 0 32 318767104
def F.WPHY_EQSTAT_GROUPS (i : Nat) : Fld := mkF (0x18 + i) 0x5C 0 12 0
def F.WPHY_EQSTAT_CHAINS (i : Nat) : Fld := mkF (0x18 + i) 0x5C 12 4 0
def F.WPHY_EQSTAT_STREAMS (i : Nat) : Fld := mkF (0x18 + i) 0x5C 16 4 0
def F.WPHY_EQSTAT_FORMAT (i : Nat) : Fld := mkF (0x18 + i) 0x5C 20 4 0
def F.WPHY_GRANTIDX_INDEX (i : Nat) : Fld := mkF (0x18 + i) 0x60 0 5 0
def F.WPHY_GRANTDATA_W0_LOCH (i : Nat) : Fld := mkF (0x18 + i) 0x64 0 8 0
def F.WPHY_GRANTDATA_W0_HICH (i : Nat) : Fld := mkF (0x18 + i) 0x64 8 8 0
def F.WPHY_GRANTDATA_W0_VALID (i : Nat) : Fld := mkF (0x18 + i) 0x64 16 1 0
def F.WPHY_GRANTDATA_W0_EXPIRED (i : Nat) : Fld := mkF (0x18 + i) 0x64 17 1 0
def F.WPHY_GRANTDATA_W1_PSD (i : Nat) : Fld := mkF (0x18 + i) 0x68 0 16 0
def F.WPHY_GRANTDATA_W1_EIRP (i : Nat) : Fld := mkF (0x18 + i) 0x68 16 16 0
def F.WPHY_GRANTDATA_W2_EXPSEC (i : Nat) : Fld := mkF (0x18 + i) 0x6C 0 32 0
def F.WPHY_GRANTDATA_W3_EXPSEC (i : Nat) : Fld := mkF (0x18 + i) 0x70 0 16 0
def F.WPHY_CNT_COUNT (i : Nat) (j : Nat) : Fld := mkF (0x18 + i) (0x80 + 4 * j) 0 31 0
def F.WPHY_CNT_OVF (i : Nat) (j : Nat) : Fld := mkF (0x18 + i) (0x80 + 4 * j) 31 1 0

/-! WMAC -/

/-- The window of WMAC instance i, R55. -/
def W.WMAC (i : Nat) : Nat := 0x1C + i
def F.WMAC_EDCA_AIFSN (i : Nat) (j : Nat) : Fld := mkF (0x1C + i) (0x40 + 4 * j) 0 4 ([7, 3, 2, 2].getD j 0)
def F.WMAC_EDCA_ECWMIN (i : Nat) (j : Nat) : Fld := mkF (0x1C + i) (0x40 + 4 * j) 4 4 ([4, 4, 3, 2].getD j 0)
def F.WMAC_EDCA_ECWMAX (i : Nat) (j : Nat) : Fld := mkF (0x1C + i) (0x40 + 4 * j) 8 4 ([10, 6, 4, 3].getD j 0)
def F.WMAC_EDCA_TXOPLIM (i : Nat) (j : Nat) : Fld := mkF (0x1C + i) (0x40 + 4 * j) 16 16 ([0, 0, 94, 47].getD j 0)
def F.WMAC_SEED_SEED (i : Nat) (j : Nat) : Fld := mkF (0x1C + i) (0x50 + 4 * j) 0 32 1
def F.WMAC_TXCFG_RETRY (i : Nat) : Fld := mkF (0x1C + i) 0x60 0 4 7
def F.WMAC_TXCFG_CFENDMIN (i : Nat) : Fld := mkF (0x1C + i) 0x60 16 16 200
def F.WMAC_BSSCTL_EN (i : Nat) (j : Nat) : Fld := mkF (0x1C + i) (0x80 + 4 * j) 0 1 0
def F.WMAC_BSSCTL_BI (i : Nat) (j : Nat) : Fld := mkF (0x1C + i) (0x80 + 4 * j) 16 16 100
def F.WMAC_BSSADDR_W0_ADDR (i : Nat) (j : Nat) : Fld := mkF (0x1C + i) (0x100 + 8 * j) 0 32 0
def F.WMAC_BSSADDR_W1_ADDR (i : Nat) (j : Nat) : Fld := mkF (0x1C + i) (0x104 + 8 * j) 0 16 0
def F.WMAC_MLDADDR_W0_ADDR (i : Nat) : Fld := mkF (0x1C + i) 0x180 0 32 0
def F.WMAC_MLDADDR_W1_ADDR (i : Nat) : Fld := mkF (0x1C + i) 0x184 0 16 0
def F.WMAC_BCNADDR_ADDR (i : Nat) (j : Nat) : Fld := mkF (0x1C + i) (0x200 + 4 * j) 0 32 0
def F.WMAC_CNT_COUNT (i : Nat) (j : Nat) : Fld := mkF (0x1C + i) (0x280 + 4 * j) 0 31 0
def F.WMAC_CNT_OVF (i : Nat) (j : Nat) : Fld := mkF (0x1C + i) (0x280 + 4 * j) 31 1 0

/-! MLD -/

/-- The window of MLD, R55. -/
def W.MLD : Nat := 0x1F
def F.MLD_STACMD_OP : Fld := mkF 0x1F 0x40 0 4 0
def F.MLD_STACMD_GO : Fld := mkF 0x1F 0x40 4 1 0
def F.MLD_STACMD_CBUSY : Fld := mkF 0x1F 0x40 5 1 0
def F.MLD_STACMD_RESULT : Fld := mkF 0x1F 0x40 8 4 0
def F.MLD_STACMD_INDEX : Fld := mkF 0x1F 0x40 12 10 0
def F.MLD_STAARG_ARG (j : Nat) : Fld := mkF 0x1F (0x44 + 4 * j) 0 32 0
def F.MLD_TSFEPOCHLO_NS : Fld := mkF 0x1F 0x60 0 32 0
def F.MLD_TSFEPOCHHI_SEC : Fld := mkF 0x1F 0x64 0 32 0
def F.MLD_TSFEPOCHSECHI_SEC : Fld := mkF 0x1F 0x5C 0 16 0
def F.MLD_QCFG_STAQ : Fld := mkF 0x1F 0x68 0 12 512
def F.MLD_QCFG_TTL : Fld := mkF 0x1F 0x68 16 16 500
def F.MLD_QTOTAL_TOTAL : Fld := mkF 0x1F 0x6C 0 20 131072
def F.MLD_PLANCFG_MAXUSERS : Fld := mkF 0x1F 0x70 0 7 64
def F.MLD_PLANCFG_BCSYNC : Fld := mkF 0x1F 0x70 7 1 0
def F.MLD_PLANCFG_LAMARGIN : Fld := mkF 0x1F 0x70 8 8 8
def F.MLD_PLANCFG_MINIVL : Fld := mkF 0x1F 0x70 16 12 100
def F.MLD_MAXPPDU_MAX : Fld := mkF 0x1F 0x74 0 13 5484
def F.MLD_MUCFG_SNDAGE : Fld := mkF 0x1F 0x78 0 8 50
def F.MLD_MUCFG_MUCORR : Fld := mkF 0x1F 0x78 8 8 64
def F.MLD_MUCFG_MUMIN : Fld := mkF 0x1F 0x78 16 16 8192
def F.MLD_TWTCFG_TLEAD : Fld := mkF 0x1F 0x7C 0 16 500
def F.MLD_TWTIDX_INDEX : Fld := mkF 0x1F 0x80 0 12 0
def F.MLD_TWTDATA_WORD (j : Nat) : Fld := mkF 0x1F (0x84 + 4 * j) 0 32 0
def F.MLD_LATABLE_SNR (j : Nat) : Fld := mkF 0x1F (0xA0 + 4 * j) 0 16 0
def F.MLD_CNT_COUNT (j : Nat) : Fld := mkF 0x1F (0x100 + 4 * j) 0 31 0
def F.MLD_CNT_OVF (j : Nat) : Fld := mkF 0x1F (0x100 + 4 * j) 31 1 0

/-! YARD -/

/-- The window of YARD, R55. -/
def W.YARD : Nat := 0x20
def F.YARD_CAPS_WAGONLOG : Fld := mkF 0x20 0x4 0 5 16
def F.YARD_CAPS_TRAINLOG : Fld := mkF 0x20 0x4 5 5 12
def F.YARD_CAPS_CLASSES : Fld := mkF 0x20 0x4 10 4 4
def F.YARD_CLASS_COACHES (j : Nat) : Fld := mkF 0x20 (0x40 + 4 * j) 0 6 63
def F.YARD_ISLRESV_RESV : Fld := mkF 0x20 0x50 0 17 8192
def F.YARD_ABANDON_MS : Fld := mkF 0x20 0x54 0 16 100
def F.YARD_PBNS_NS : Fld := mkF 0x20 0x58 0 32 0
def F.YARD_PBSECLO_SEC : Fld := mkF 0x20 0x5C 0 32 0
def F.YARD_PBSECHI_SEC : Fld := mkF 0x20 0x60 0 16 0
def F.YARD_PBCTL_TARGET : Fld := mkF 0x20 0x64 0 1 1
def F.YARD_PBCTL_ARM : Fld := mkF 0x20 0x64 1 1 0
def F.YARD_PBCTL_ARMED : Fld := mkF 0x20 0x64 2 1 0
def F.YARD_PBCTL_CUR : Fld := mkF 0x20 0x64 3 1 0
def F.YARD_SWCREATE_ADDR : Fld := mkF 0x20 0x68 0 32 0
def F.YARD_SWRES_WID : Fld := mkF 0x20 0x6C 0 16 0
def F.YARD_SWRES_RESULT : Fld := mkF 0x20 0x6C 16 2 0
def F.YARD_SWRES_DONE : Fld := mkF 0x20 0x6C 18 1 1
def F.YARD_SWCPL0_WID : Fld := mkF 0x20 0x70 0 16 0
def F.YARD_SWCPL0_SLOT : Fld := mkF 0x20 0x70 16 3 0
def F.YARD_SWCPL0_TYPE : Fld := mkF 0x20 0x70 19 4 0
def F.YARD_SWCPL1_VALUE : Fld := mkF 0x20 0x74 0 32 0
def F.YARD_HISTCFG_WINDOW : Fld := mkF 0x20 0x78 0 16 1000
def F.YARD_HISTCFG_VALID : Fld := mkF 0x20 0x78 16 1 0
def F.YARD_USED_USED : Fld := mkF 0x20 0x7C 0 17 0
def F.YARD_DEPTH_READY (j : Nat) : Fld := mkF 0x20 (0x80 + 4 * j) 0 17 0
def F.YARD_MISSLAST_TRAIN : Fld := mkF 0x20 0x90 0 12 0
def F.YARD_MISSLAST_SEQ : Fld := mkF 0x20 0x90 12 16 0
def F.YARD_TRSEL_TRAIN : Fld := mkF 0x20 0x94 0 12 0
def F.YARD_TRSTAT_NEXT : Fld := mkF 0x20 0x98 0 16 0
def F.YARD_TRSTAT_INFLIGHT : Fld := mkF 0x20 0x98 16 13 0
def F.YARD_CNT_COUNT (j : Nat) : Fld := mkF 0x20 (0xC0 + 4 * j) 0 31 0
def F.YARD_CNT_OVF (j : Nat) : Fld := mkF 0x20 (0xC0 + 4 * j) 31 1 0
def F.YARD_ORIGIN_W0_BUDGET (j : Nat) : Fld := mkF 0x20 (0x100 + 8 * j) 0 16 1000
def F.YARD_ORIGIN_W0_PROG (j : Nat) : Fld := mkF 0x20 (0x100 + 8 * j) 16 8 0
def F.YARD_ORIGIN_W0_ECLASS (j : Nat) : Fld := mkF 0x20 (0x100 + 8 * j) 24 2 0
def F.YARD_ORIGIN_W1_TRAIN (j : Nat) : Fld := mkF 0x20 (0x104 + 8 * j) 0 12 ([0, 1, 2, 3, 4, 5, 6, 7, 8, 9, 10, 11, 12, 13, 14, 15, 16, 17, 18, 19, 20].getD j 0)
def F.YARD_HIST_COUNT (j : Nat) (k : Nat) : Fld := mkF 0x20 (0x200 + 64 * j + 4 * k) 0 31 0
def F.YARD_HIST_OVF (j : Nat) (k : Nat) : Fld := mkF 0x20 (0x200 + 64 * j + 4 * k) 31 1 0

/-! ENG -/

/-- The window of ENG instance i, R55. -/
def W.ENG (i : Nat) : Nat := 0x21 + i
def F.ENG_CAPS_ENGINES (i : Nat) : Fld := mkF (0x21 + i) 0x4 0 4 8
def F.ENG_CAPS_LOCALKIB (i : Nat) : Fld := mkF (0x21 + i) 0x4 4 7 64
def F.ENG_LOADSRCLO_ADDR (i : Nat) : Fld := mkF (0x21 + i) 0x40 0 32 0
def F.ENG_LOADSRCHI_ADDR (i : Nat) : Fld := mkF (0x21 + i) 0x44 0 8 0
def F.ENG_LOADLEN_KIB (i : Nat) : Fld := mkF (0x21 + i) 0x48 0 5 0
def F.ENG_LOADBANK_BANK (i : Nat) : Fld := mkF (0x21 + i) 0x4C 0 1 0
def F.ENG_ENMASK_EN (i : Nat) : Fld := mkF (0x21 + i) 0x50 0 8 255
def F.ENG_DRAMWIN_BASE (i : Nat) : Fld := mkF (0x21 + i) 0x54 0 12 2048
def F.ENG_ESTAT_STATE (i : Nat) (j : Nat) : Fld := mkF (0x21 + i) (0x80 + 8 * j) 0 2 0
def F.ENG_ESTAT_INDISP (i : Nat) (j : Nat) : Fld := mkF (0x21 + i) (0x80 + 8 * j) 2 1 0
def F.ENG_ESTAT_WID (i : Nat) (j : Nat) : Fld := mkF (0x21 + i) (0x80 + 8 * j) 8 16 0
def F.ENG_ELOAD_LOAD (i : Nat) (j : Nat) : Fld := mkF (0x21 + i) (0x84 + 8 * j) 0 10 0
def F.ENG_ELOAD_VALID (i : Nat) (j : Nat) : Fld := mkF (0x21 + i) (0x84 + 8 * j) 10 1 0
def F.ENG_RETIRED_COUNT (i : Nat) (j : Nat) : Fld := mkF (0x21 + i) (0xC0 + 4 * j) 0 32 0
def F.ENG_EXCEPT_COUNT (i : Nat) : Fld := mkF (0x21 + i) 0xE0 0 31 0
def F.ENG_EXCEPT_OVF (i : Nat) : Fld := mkF (0x21 + i) 0xE0 31 1 0

/-! RTE -/

/-- The window of RTE, R55. -/
def W.RTE : Nat := 0x28
def F.RTE_TBLBASELO_ADDR : Fld := mkF 0x28 0x40 0 32 4227858432
def F.RTE_TBLBASEHI_ADDR : Fld := mkF 0x28 0x44 0 8 131
def F.RTE_CHGSRCLO_ADDR : Fld := mkF 0x28 0x48 0 32 0
def F.RTE_CHGSRCHI_ADDR : Fld := mkF 0x28 0x4C 0 8 0
def F.RTE_CHGCOUNT_COUNT : Fld := mkF 0x28 0x50 0 13 0
def F.RTE_COMMITNS_NS : Fld := mkF 0x28 0x54 0 32 0
def F.RTE_COMMITSECLO_SEC : Fld := mkF 0x28 0x58 0 32 0
def F.RTE_COMMITSECHI_SEC : Fld := mkF 0x28 0x5C 0 16 0
def F.RTE_CFG_ACLDEF : Fld := mkF 0x28 0x60 0 1 0
def F.RTE_CFG_ACLCOUNT : Fld := mkF 0x28 0x60 1 13 0
def F.RTE_CFG_RETAIN : Fld := mkF 0x28 0x60 16 16 200
def F.RTE_REASM_TIMEOUT : Fld := mkF 0x28 0x64 0 8 60
def F.RTE_FLOW_BASE : Fld := mkF 0x28 0x68 0 12 2048
def F.RTE_FLOW_LOG : Fld := mkF 0x28 0x68 12 4 10
def F.RTE_RINGS_ASSOC : Fld := mkF 0x28 0x6C 0 3 0
def F.RTE_RINGS_LOCAL : Fld := mkF 0x28 0x6C 3 3 1
def F.RTE_RINGS_EXCEPT : Fld := mkF 0x28 0x6C 6 3 2
def F.RTE_PORTCFG_PVID (j : Nat) : Fld := mkF 0x28 (0x80 + 4 * j) 0 12 1
def F.RTE_TILECFG_MTU (j : Nat) : Fld := mkF 0x28 (0xA0 + 4 * j) 0 11 96
def F.RTE_WATCH_KIND (j : Nat) : Fld := mkF 0x28 (0x100 + 4 * j) 0 2 0
def F.RTE_WATCH_FORCEDOWN (j : Nat) : Fld := mkF 0x28 (0x100 + 4 * j) 2 1 0
def F.RTE_WATCH_REVERT (j : Nat) : Fld := mkF 0x28 (0x100 + 4 * j) 3 1 1
def F.RTE_WATCH_RESTORE (j : Nat) : Fld := mkF 0x28 (0x100 + 4 * j) 4 1 0
def F.RTE_WATCH_TARGET (j : Nat) : Fld := mkF 0x28 (0x100 + 4 * j) 8 10 0
def F.RTE_WATCH_WMISS (j : Nat) : Fld := mkF 0x28 (0x100 + 4 * j) 18 4 4
def F.RTE_WATCH_UP (j : Nat) : Fld := mkF 0x28 (0x100 + 4 * j) 22 1 1
def F.RTE_WATCH_HOLD (j : Nat) : Fld := mkF 0x28 (0x100 + 4 * j) 24 8 100
def F.RTE_USE_USED (j : Nat) : Fld := mkF 0x28 (0x140 + 4 * j) 0 20 0
def F.RTE_CNT_COUNT (j : Nat) : Fld := mkF 0x28 (0x180 + 4 * j) 0 31 0
def F.RTE_CNT_OVF (j : Nat) : Fld := mkF 0x28 (0x180 + 4 * j) 31 1 0

/-! SHP -/

/-- The window of SHP instance i, R55. -/
def W.SHP (i : Nat) : Nat := 0x40 + i
def F.SHP_CAPS_CLASSES (i : Nat) : Fld := mkF (0x40 + i) 0x4 0 4 8
def F.SHP_CAPS_ENTRIES (i : Nat) : Fld := mkF (0x40 + i) 0x4 4 9 256
def F.SHP_CAPS_TIMED (i : Nat) : Fld := mkF (0x40 + i) 0x4 13 7 64
def F.SHP_CLASS_MODE (i : Nat) (j : Nat) : Fld := mkF (0x40 + i) (0x40 + 4 * j) 0 1 0
def F.SHP_CLASS_OVERHEAD (i : Nat) (j : Nat) : Fld := mkF (0x40 + i) (0x40 + 4 * j) 1 6 20
def F.SHP_CLASS_QLIM (i : Nat) (j : Nat) : Fld := mkF (0x40 + i) (0x40 + 4 * j) 8 11 256
def F.SHP_IDLE_IDLESLOPE (i : Nat) (j : Nat) : Fld := mkF (0x40 + i) (0x60 + 4 * j) 0 25 0
def F.SHP_CREDIT_CREDIT (i : Nat) (j : Nat) : Fld := mkF (0x40 + i) (0x80 + 4 * j) 0 32 0
def F.SHP_QSTAT_FRAMES (i : Nat) (j : Nat) : Fld := mkF (0x40 + i) (0xA0 + 4 * j) 0 11 0
def F.SHP_TLCTL_EN (i : Nat) : Fld := mkF (0x40 + i) 0xC0 0 1 0
def F.SHP_TLCTL_ACTIVE (i : Nat) : Fld := mkF (0x40 + i) 0xC0 1 1 0
def F.SHP_TLCTL_SWITCH (i : Nat) : Fld := mkF (0x40 + i) 0xC0 2 1 0
def F.SHP_TLCTL_SWPEND (i : Nat) : Fld := mkF (0x40 + i) 0xC0 3 1 0
def F.SHP_TLCTL_CAUSE (i : Nat) : Fld := mkF (0x40 + i) 0xC0 4 2 0
def F.SHP_TLCTL_RUNNING (i : Nat) : Fld := mkF (0x40 + i) 0xC0 6 1 0
def F.SHP_TLCTL_SLOPEBAD (i : Nat) : Fld := mkF (0x40 + i) 0xC0 7 1 0
def F.SHP_TLSTAT_ENTRY (i : Nat) : Fld := mkF (0x40 + i) 0xC4 0 8 0
def F.SHP_TLSTAT_GATES (i : Nat) : Fld := mkF (0x40 + i) 0xC4 8 8 255
def F.SHP_TLSTARTNS_NS (i : Nat) : Fld := mkF (0x40 + i) 0xC8 0 32 0
def F.SHP_TLSTARTSECLO_SEC (i : Nat) : Fld := mkF (0x40 + i) 0xCC 0 32 0
def F.SHP_TLSTARTSECHI_SEC (i : Nat) : Fld := mkF (0x40 + i) 0xD0 0 16 0
def F.SHP_PORTRATE_RATE (i : Nat) : Fld := mkF (0x40 + i) 0xD4 0 25 0
def F.SHP_CNT_COUNT (i : Nat) (j : Nat) : Fld := mkF (0x40 + i) (0x140 + 4 * j) 0 31 0
def F.SHP_CNT_OVF (i : Nat) (j : Nat) : Fld := mkF (0x40 + i) (0x140 + 4 * j) 31 1 0
def F.SHP_TURN_GATES (i : Nat) (j : Nat) (k : Nat) : Fld := mkF (0x40 + i) (0x400 + 1024 * j + 4 * k) 0 8 0
def F.SHP_TURN_INTERVAL (i : Nat) (j : Nat) (k : Nat) : Fld := mkF (0x40 + i) (0x400 + 1024 * j + 4 * k) 8 24 0
def F.SHP_BASENS_NS (i : Nat) (j : Nat) : Fld := mkF (0x40 + i) (0x100 + 32 * j) 0 32 0
def F.SHP_BASESECLO_SEC (i : Nat) (j : Nat) : Fld := mkF (0x40 + i) (0x104 + 32 * j) 0 32 0
def F.SHP_BASESECHI_SEC (i : Nat) (j : Nat) : Fld := mkF (0x40 + i) (0x108 + 32 * j) 0 16 0
def F.SHP_CYCLE_CYCLE (i : Nat) (j : Nat) : Fld := mkF (0x40 + i) (0x10C + 32 * j) 0 30 0
def F.SHP_COUNT_COUNT (i : Nat) (j : Nat) : Fld := mkF (0x40 + i) (0x110 + 32 * j) 0 9 0

/-! LANE -/

/-- The window of LANE instance i, R55. -/
def W.LANE (i : Nat) : Nat := 0x30 + i
def F.LANE_CAPS_COUPLER (i : Nat) : Fld := mkF (0x30 + i) 0x4 0 1 ([0, 0, 0, 0, 1, 1, 1, 1].getD i 0)
def F.LANE_MODE_MODE (i : Nat) : Fld := mkF (0x30 + i) 0x40 0 4 0
def F.LANE_MODE_FEC (i : Nat) : Fld := mkF (0x30 + i) 0x40 4 3 0
def F.LANE_MODE_AN (i : Nat) : Fld := mkF (0x30 + i) 0x40 7 1 1
def F.LANE_MODE_SGSPEED (i : Nat) : Fld := mkF (0x30 + i) 0x40 8 2 2
def F.LANE_CTRL2_EIDLE (i : Nat) : Fld := mkF (0x30 + i) 0x44 0 1 0
def F.LANE_CTRL2_RETRAIN (i : Nat) : Fld := mkF (0x30 + i) 0x44 1 1 0
def F.LANE_STAT_STATE (i : Nat) : Fld := mkF (0x30 + i) 0x48 0 3 0
def F.LANE_STAT_SIGNAL (i : Nat) : Fld := mkF (0x30 + i) 0x48 3 1 0
def F.LANE_STAT_BITLOCK (i : Nat) : Fld := mkF (0x30 + i) 0x48 4 1 0
def F.LANE_STAT_WORDLOCK (i : Nat) : Fld := mkF (0x30 + i) 0x48 5 1 0
def F.LANE_STAT_IDLE (i : Nat) : Fld := mkF (0x30 + i) 0x48 6 1 0
def F.LANE_STAT_FECUSED (i : Nat) : Fld := mkF (0x30 + i) 0x48 7 2 0
def F.LANE_TXEQ_PRE (i : Nat) : Fld := mkF (0x30 + i) 0x4C 0 4 0
def F.LANE_TXEQ_MAIN (i : Nat) : Fld := mkF (0x30 + i) 0x4C 4 6 48
def F.LANE_TXEQ_POST (i : Nat) : Fld := mkF (0x30 + i) 0x4C 10 5 8
def F.LANE_CNT0_LOCKLOSS (i : Nat) : Fld := mkF (0x30 + i) 0x60 0 15 0
def F.LANE_CNT0_LOVF (i : Nat) : Fld := mkF (0x30 + i) 0x60 15 1 0
def F.LANE_CNT0_CODEERR (i : Nat) : Fld := mkF (0x30 + i) 0x60 16 15 0
def F.LANE_CNT0_COVF (i : Nat) : Fld := mkF (0x30 + i) 0x60 31 1 0
def F.LANE_CNT1_TRAINFAIL (i : Nat) : Fld := mkF (0x30 + i) 0x64 0 15 0
def F.LANE_CNT1_TOVF (i : Nat) : Fld := mkF (0x30 + i) 0x64 15 1 0
def F.LANE_CNT1_ANFAIL (i : Nat) : Fld := mkF (0x30 + i) 0x64 16 15 0
def F.LANE_CNT1_AOVF (i : Nat) : Fld := mkF (0x30 + i) 0x64 31 1 0

/-! EMAC -/

/-- The window of EMAC instance i, R55. -/
def W.EMAC (i : Nat) : Nat := 0x38 + i
def F.EMAC_CFG_RXEN (i : Nat) : Fld := mkF (0x38 + i) 0x40 0 1 1
def F.EMAC_CFG_TXEN (i : Nat) : Fld := mkF (0x38 + i) 0x40 1 1 1
def F.EMAC_CFG_PROMISC (i : Nat) : Fld := mkF (0x38 + i) 0x40 2 1 0
def F.EMAC_CFG_ALLGROUPS (i : Nat) : Fld := mkF (0x38 + i) 0x40 3 1 0
def F.EMAC_CFG_NOBCAST (i : Nat) : Fld := mkF (0x38 + i) 0x40 4 1 0
def F.EMAC_CFG_FCMODE (i : Nat) : Fld := mkF (0x38 + i) 0x40 5 2 0
def F.EMAC_CFG_EEE (i : Nat) : Fld := mkF (0x38 + i) 0x40 7 1 0
def F.EMAC_MAXLEN_MAXLEN (i : Nat) : Fld := mkF (0x38 + i) 0x44 0 14 1522
def F.EMAC_ADDRLO_ADDR (i : Nat) : Fld := mkF (0x38 + i) 0x48 0 32 0
def F.EMAC_ADDRHI_ADDR (i : Nat) : Fld := mkF (0x38 + i) 0x4C 0 16 0
def F.EMAC_HASH_BITS (i : Nat) (j : Nat) : Fld := mkF (0x38 + i) (0x50 + 4 * j) 0 32 0
def F.EMAC_TXPAUSE_QUANTA (i : Nat) : Fld := mkF (0x38 + i) 0x70 0 16 0
def F.EMAC_TXPAUSE_CLASSES (i : Nat) : Fld := mkF (0x38 + i) 0x70 16 8 0
def F.EMAC_TXPAUSE_SEND (i : Nat) : Fld := mkF (0x38 + i) 0x70 24 1 0
def F.EMAC_TXPAUSE_HOLD (i : Nat) : Fld := mkF (0x38 + i) 0x70 25 1 0
def F.EMAC_TXPAUSE_PENDING (i : Nat) : Fld := mkF (0x38 + i) 0x70 26 1 0
def F.EMAC_PAUSESTAT_PAUSED (i : Nat) : Fld := mkF (0x38 + i) 0x74 0 8 0
def F.EMAC_EEE_TWSYS (i : Nat) : Fld := mkF (0x38 + i) 0x78 0 16 17
def F.EMAC_EEE_IDLE (i : Nat) : Fld := mkF (0x38 + i) 0x78 16 16 100
def F.EMAC_LINK_UP (i : Nat) : Fld := mkF (0x38 + i) 0x7C 0 1 0
def F.EMAC_LINK_LOCFAULT (i : Nat) : Fld := mkF (0x38 + i) 0x7C 1 1 0
def F.EMAC_LINK_REMFAULT (i : Nat) : Fld := mkF (0x38 + i) 0x7C 2 1 0
def F.EMAC_LINK_TXLPI (i : Nat) : Fld := mkF (0x38 + i) 0x7C 3 1 0
def F.EMAC_LINK_RXLPI (i : Nat) : Fld := mkF (0x38 + i) 0x7C 4 1 0
def F.EMAC_LINK_PARTNERPAUSE (i : Nat) : Fld := mkF (0x38 + i) 0x7C 5 2 0
def F.EMAC_LINK_PARTNEREEE (i : Nat) : Fld := mkF (0x38 + i) 0x7C 7 1 0
def F.EMAC_STICKY_RUNT (i : Nat) : Fld := mkF (0x38 + i) 0x80 0 1 0
def F.EMAC_STICKY_GIANT (i : Nat) : Fld := mkF (0x38 + i) 0x80 1 1 0
def F.EMAC_STICKY_FCSERR (i : Nat) : Fld := mkF (0x38 + i) 0x80 2 1 0
def F.EMAC_STICKY_CODEERR (i : Nat) : Fld := mkF (0x38 + i) 0x80 3 1 0
def F.EMAC_STICKY_NOBUF (i : Nat) : Fld := mkF (0x38 + i) 0x80 4 1 0
def F.EMAC_STICKY_TXLONG (i : Nat) : Fld := mkF (0x38 + i) 0x80 5 1 0
def F.EMAC_STICKY_LINKDOWN (i : Nat) : Fld := mkF (0x38 + i) 0x80 6 1 0
def F.EMAC_STICKY_LOCFAULT (i : Nat) : Fld := mkF (0x38 + i) 0x80 7 1 0
def F.EMAC_STICKY_REMFAULT (i : Nat) : Fld := mkF (0x38 + i) 0x80 8 1 0
def F.EMAC_STICKY_MEMERR (i : Nat) : Fld := mkF (0x38 + i) 0x80 9 1 0
def F.EMAC_FILT_W0_ADDR (i : Nat) (j : Nat) : Fld := mkF (0x38 + i) (0x100 + 8 * j) 0 32 0
def F.EMAC_FILT_W1_ADDR (i : Nat) (j : Nat) : Fld := mkF (0x38 + i) (0x104 + 8 * j) 0 16 0
def F.EMAC_FILT_W1_VALID (i : Nat) (j : Nat) : Fld := mkF (0x38 + i) (0x104 + 8 * j) 31 1 0
def F.EMAC_STAT_W0_COUNT (i : Nat) (j : Nat) : Fld := mkF (0x38 + i) (0x180 + 8 * j) 0 32 0
def F.EMAC_STAT_W1_COUNT (i : Nat) (j : Nat) : Fld := mkF (0x38 + i) (0x184 + 8 * j) 0 31 0
def F.EMAC_STAT_W1_OVF (i : Nat) (j : Nat) : Fld := mkF (0x38 + i) (0x184 + 8 * j) 31 1 0
def F.EMAC_CNT_COUNT (i : Nat) (j : Nat) : Fld := mkF (0x38 + i) (0x1C0 + 4 * j) 0 31 0
def F.EMAC_CNT_OVF (i : Nat) (j : Nat) : Fld := mkF (0x38 + i) (0x1C0 + 4 * j) 31 1 0

/-! CPL -/

/-- The window of CPL, R55. -/
def W.CPL : Nat := 0x48
def F.CPL_CAPS_MAXLANES : Fld := mkF 0x48 0x4 0 3 4
def F.CPL_CFG_LANES : Fld := mkF 0x48 0x40 0 4 15
def F.CPL_CFG_VIGILREL : Fld := mkF 0x48 0x40 4 1 1
def F.CPL_ROLE_ROLE : Fld := mkF 0x48 0x44 0 2 0
def F.CPL_ROLE_SENIORITY : Fld := mkF 0x48 0x44 2 4 0
def F.CPL_ROLE_PAIRID : Fld := mkF 0x48 0x44 16 16 0
def F.CPL_STAT_STATE : Fld := mkF 0x48 0x48 0 3 0
def F.CPL_STAT_ACTIVE : Fld := mkF 0x48 0x48 4 4 0
def F.CPL_STAT_LIFE : Fld := mkF 0x48 0x48 8 2 1
def F.CPL_STAT_HB : Fld := mkF 0x48 0x48 10 1 0
def F.CPL_STAT_PSEN : Fld := mkF 0x48 0x48 11 4 0
def F.CPL_STAT_HBMISS : Fld := mkF 0x48 0x48 16 8 0
def F.CPL_CMD_HANDOVER : Fld := mkF 0x48 0x4C 0 1 0
def F.CPL_CMD_RESYNC : Fld := mkF 0x48 0x4C 1 1 0
def F.CPL_SYNCPROG_DONE : Fld := mkF 0x48 0x50 0 16 0
def F.CPL_SYNCPROG_TOTAL : Fld := mkF 0x48 0x50 16 16 432
def F.CPL_TIMEOFS_OFS : Fld := mkF 0x48 0x54 0 32 0
def F.CPL_RESV_GAP : Fld := mkF 0x48 0x58 0 16 256
def F.CPL_DETBLK_BLOCKS : Fld := mkF 0x48 0x5C 0 32 0
def F.CPL_WATCH_TILE : Fld := mkF 0x48 0x60 0 3 0
def F.CPL_WATCH_LISTENER : Fld := mkF 0x48 0x60 3 9 0
def F.CPL_WATCH_MISSES : Fld := mkF 0x48 0x60 16 8 0
def F.CPL_PAIRIE_OFS : Fld := mkF 0x48 0x64 0 8 0
def F.CPL_LEND_MT0 : Fld := mkF 0x48 0x68 0 1 0
def F.CPL_LEND_MT1 : Fld := mkF 0x48 0x68 1 1 0
def F.CPL_LEND_BYFLT : Fld := mkF 0x48 0x68 2 1 0
def F.CPL_CNT_COUNT (j : Nat) : Fld := mkF 0x48 (0x80 + 4 * j) 0 31 0
def F.CPL_CNT_OVF (j : Nat) : Fld := mkF 0x48 (0x80 + 4 * j) 31 1 0

/-! SEC -/

/-- The window of SEC, R55. -/
def W.SEC : Nat := 0x29
def F.SEC_ENRSRCLO_ADDR : Fld := mkF 0x29 0x40 0 32 0
def F.SEC_ENRSRCHI_ADDR : Fld := mkF 0x29 0x44 0 8 0
def F.SEC_KEYIDX_INDEX : Fld := mkF 0x29 0x48 0 12 0
def F.SEC_KEYINFO_USE : Fld := mkF 0x29 0x4C 0 3 0
def F.SEC_KEYINFO_PAIRED : Fld := mkF 0x29 0x4C 3 1 0
def F.SEC_KEYINFO_EXH : Fld := mkF 0x29 0x4C 4 1 0
def F.SEC_TXCNT_COUNT : Fld := mkF 0x29 0x50 0 32 0
def F.SEC_MACSEC_EN : Fld := mkF 0x29 0x54 0 8 0
def F.SEC_CNT_COUNT (j : Nat) : Fld := mkF 0x29 (0x80 + 4 * j) 0 31 0
def F.SEC_CNT_OVF (j : Nat) : Fld := mkF 0x29 (0x80 + 4 * j) 31 1 0

/-! LIM -/

/-- The window of LIM, R55. -/
def W.LIM : Nat := 0x05
def F.LIM_IMG_VALID : Fld := mkF 0x05 0x40 0 1 0
def F.LIM_IMG_SLOT : Fld := mkF 0x05 0x40 1 1 0
def F.LIM_IMG_RESTORE : Fld := mkF 0x05 0x40 2 2 0
def F.LIM_IMG_REGION : Fld := mkF 0x05 0x40 16 16 0
def F.LIM_IMGVER_VERSION : Fld := mkF 0x05 0x44 0 32 0
def F.LIM_METSEL_METER : Fld := mkF 0x05 0x48 0 4 0
def F.LIM_METLO_FREQ : Fld := mkF 0x05 0x4C 0 24 0
def F.LIM_METLO_DEFINED : Fld := mkF 0x05 0x4C 24 1 0
def F.LIM_METHI_FREQ : Fld := mkF 0x05 0x50 0 24 0
def F.LIM_METCFG_WINDOW : Fld := mkF 0x05 0x54 0 12 0
def F.LIM_METLIM_LIMIT : Fld := mkF 0x05 0x58 0 32 0
def F.LIM_METUSE_USE : Fld := mkF 0x05 0x5C 0 32 0
def F.LIM_METOVF_OVF : Fld := mkF 0x05 0x60 0 13 0
def F.LIM_PORTSEL_PORT : Fld := mkF 0x05 0x64 0 5 0
def F.LIM_PORTLIM_COND : Fld := mkF 0x05 0x68 0 16 0
def F.LIM_PORTLIM_GAIN : Fld := mkF 0x05 0x68 16 16 0
def F.LIM_SNAPSEQ_SEQ : Fld := mkF 0x05 0x6C 0 32 0
def F.LIM_CNT_COUNT (j : Nat) : Fld := mkF 0x05 (0x80 + 4 * j) 0 31 0
def F.LIM_CNT_OVF (j : Nat) : Fld := mkF 0x05 (0x80 + 4 * j) 31 1 0

/-! NVS -/

/-- The window of NVS, R55. -/
def W.NVS : Nat := 0x04
def F.NVS_SRCLO_ADDR : Fld := mkF 0x04 0x40 0 32 0
def F.NVS_SRCHI_ADDR : Fld := mkF 0x04 0x44 0 8 0
def F.NVS_DST_OFS : Fld := mkF 0x04 0x48 0 25 0
def F.NVS_ROWS_ROWS : Fld := mkF 0x04 0x4C 0 20 0
def F.NVS_OPSEL_OP : Fld := mkF 0x04 0x50 0 2 0
def F.NVS_OPSEL_SLOT : Fld := mkF 0x04 0x50 2 3 0
def F.NVS_BOOT_REGBOOT : Fld := mkF 0x04 0x54 0 1 0
def F.NVS_BOOT_REGPREF : Fld := mkF 0x04 0x54 1 1 0
def F.NVS_BOOT_SETBOOT : Fld := mkF 0x04 0x54 2 1 0
def F.NVS_BOOT_SETPREF : Fld := mkF 0x04 0x54 3 1 0
def F.NVS_BOOT_SWBOOT : Fld := mkF 0x04 0x54 4 1 0
def F.NVS_BOOT_SWPREF : Fld := mkF 0x04 0x54 5 1 0
def F.NVS_BOOT_ROOTSET : Fld := mkF 0x04 0x54 6 1 0
def F.NVS_ROLL_MINVER (j : Nat) : Fld := mkF 0x04 (0x58 + 4 * j) 0 32 0

/-! APC -/

/-- The window of APC, R55. -/
def W.APC : Nat := 0x50
def F.APC_ENTRYLO_ADDR : Fld := mkF 0x50 0x40 0 32 0
def F.APC_ENTRYHI_ADDR : Fld := mkF 0x50 0x44 0 8 128
def F.APC_RELEASE_HART : Fld := mkF 0x50 0x48 0 8 0
def F.APC_HARTSTAT_RUN : Fld := mkF 0x50 0x4C 0 8 1
def F.APC_HARTSTAT_WFI : Fld := mkF 0x50 0x4C 8 8 0
def F.APC_HARTSTAT_HALT : Fld := mkF 0x50 0x4C 16 8 0
def F.APC_RINGBASELO_ADDR (j : Nat) : Fld := mkF 0x50 (0x80 + 16 * j) 0 32 0
def F.APC_RINGBASEHI_ADDR (j : Nat) : Fld := mkF 0x50 (0x84 + 16 * j) 0 8 0
def F.APC_RINGCFG_EN (j : Nat) : Fld := mkF 0x50 (0x88 + 16 * j) 0 1 0
def F.APC_RINGCFG_SIZE (j : Nat) : Fld := mkF 0x50 (0x88 + 16 * j) 4 5 10
def F.APC_RINGCFG_THRESH (j : Nat) : Fld := mkF 0x50 (0x88 + 16 * j) 16 16 1
def F.APC_RINGIDX_PROD (j : Nat) : Fld := mkF 0x50 (0x8C + 16 * j) 0 16 0
def F.APC_RINGIDX_CONS (j : Nat) : Fld := mkF 0x50 (0x8C + 16 * j) 16 16 0
def F.APC_RINGDROP_COUNT (j : Nat) : Fld := mkF 0x50 (0x100 + 4 * j) 0 31 0
def F.APC_RINGDROP_OVF (j : Nat) : Fld := mkF 0x50 (0x100 + 4 * j) 31 1 0

/-! MEM -/

/-- The window of MEM, R55. -/
def W.MEM : Nat := 0x51
def F.MEM_POOLCNT_COUNT (j : Nat) : Fld := mkF 0x51 (0x40 + 4 * j) 0 18 0
def F.MEM_POOLFREE_FREE (j : Nat) : Fld := mkF 0x51 (0x50 + 4 * j) 0 18 0
def F.MEM_ALLOC_LEN : Fld := mkF 0x51 0x60 0 14 0
def F.MEM_ALLOCRES_HANDLE : Fld := mkF 0x51 0x64 0 20 0
def F.MEM_FREE_HANDLE : Fld := mkF 0x51 0x68 0 20 0
def F.MEM_SCRUB_SRAMS : Fld := mkF 0x51 0x6C 0 8 10
def F.MEM_SCRUB_DRAMH : Fld := mkF 0x51 0x6C 8 8 24
def F.MEM_UEADDRLO_ADDR : Fld := mkF 0x51 0x70 3 29 0
def F.MEM_UEADDRHI_ADDR : Fld := mkF 0x51 0x74 0 8 0
def F.MEM_UEADDRHI_VALID : Fld := mkF 0x51 0x74 31 1 0
def F.MEM_MIRROR_BASE (j : Nat) : Fld := mkF 0x51 (0x80 + 4 * j) 0 13 0
def F.MEM_MIRROR_SIZE (j : Nat) : Fld := mkF 0x51 (0x80 + 4 * j) 14 14 0
def F.MEM_MIRROR_EN (j : Nat) : Fld := mkF 0x51 (0x80 + 4 * j) 30 1 0
def F.MEM_MIRROR_VALID (j : Nat) : Fld := mkF 0x51 (0x80 + 4 * j) 31 1 0
def F.MEM_CNT_COUNT (j : Nat) : Fld := mkF 0x51 (0xC0 + 4 * j) 0 31 0
def F.MEM_CNT_OVF (j : Nat) : Fld := mkF 0x51 (0xC0 + 4 * j) 31 1 0

/-! FLT -/

/-- The window of FLT, R55. -/
def W.FLT : Nat := 0x03
def F.FLT_CFG_WINDOW : Fld := mkF 0x03 0x40 0 12 10
def F.FLT_CFG_THRESH : Fld := mkF 0x03 0x40 12 4 3
def F.FLT_STALL_NOPROG : Fld := mkF 0x03 0x44 0 8 50
def F.FLT_STALL_RUNMAX : Fld := mkF 0x03 0x44 8 10 500
def F.FLT_STALL_HSSTALL : Fld := mkF 0x03 0x44 18 10 200
def F.FLT_STOPCFG_STOPHOLD : Fld := mkF 0x03 0x48 0 10 10
def F.FLT_CMD_STOP : Fld := mkF 0x03 0x4C 0 1 0
def F.FLT_CMD_RESTORE : Fld := mkF 0x03 0x4C 1 1 0
def F.FLT_RESSEL_CODE : Fld := mkF 0x03 0x50 0 16 0
def F.FLT_RESSTAT_COUNT : Fld := mkF 0x03 0x54 0 4 0
def F.FLT_RESSTAT_RETIRED : Fld := mkF 0x03 0x54 4 1 0
def F.FLT_RESSTAT_VALID : Fld := mkF 0x03 0x54 5 1 0
def F.FLT_LAST_CODE : Fld := mkF 0x03 0x58 0 16 0
def F.FLT_LAST_HARD : Fld := mkF 0x03 0x58 16 1 0
def F.FLT_LAST_LASTING : Fld := mkF 0x03 0x58 17 1 0
def F.FLT_LASTNS_NS : Fld := mkF 0x03 0x5C 0 32 0
def F.FLT_LASTSEC_SEC : Fld := mkF 0x03 0x60 0 32 0
def F.FLT_STOPINFO_CAUSE : Fld := mkF 0x03 0x64 0 4 0
def F.FLT_STOPINFO_CLASS : Fld := mkF 0x03 0x64 8 8 0
def F.FLT_STOPINFO_VALID : Fld := mkF 0x03 0x64 31 1 0
def F.FLT_PAGE_PAGE (j : Nat) : Fld := mkF 0x03 (0x80 + 4 * j) 0 28 0
def F.FLT_PAGE_RETIRED (j : Nat) : Fld := mkF 0x03 (0x80 + 4 * j) 30 1 0
def F.FLT_PAGE_VALID (j : Nat) : Fld := mkF 0x03 (0x80 + 4 * j) 31 1 0
def F.FLT_CNT_COUNT (j : Nat) : Fld := mkF 0x03 (0xC0 + 4 * j) 0 31 0
def F.FLT_CNT_OVF (j : Nat) : Fld := mkF 0x03 (0xC0 + 4 * j) 31 1 0

/-! DBG -/

/-- The window of DBG, R55. -/
def W.DBG : Nat := 0x0F
def F.DBG_AUTH_LEVEL : Fld := mkF 0x0F 0x40 0 2 0
def F.DBG_AUTH_VERIFY : Fld := mkF 0x0F 0x40 2 1 0
def F.DBG_AUTH_BUSY : Fld := mkF 0x0F 0x40 3 1 0
def F.DBG_AUTH_FAIL : Fld := mkF 0x0F 0x40 4 1 0
def F.DBG_CHALLENGELO_CHAL : Fld := mkF 0x0F 0x44 0 32 0
def F.DBG_CHALLENGEHI_CHAL : Fld := mkF 0x0F 0x48 0 32 0
def F.DBG_TOKEN_WORD : Fld := mkF 0x0F 0x4C 0 32 0
def F.DBG_MAPADDRLO_ADDR : Fld := mkF 0x0F 0x50 0 32 0
def F.DBG_MAPADDRHI_ADDR : Fld := mkF 0x0F 0x54 0 8 0
def F.DBG_MAPDATA_DATA : Fld := mkF 0x0F 0x58 0 32 0
def F.DBG_MAPCTL_READ : Fld := mkF 0x0F 0x5C 0 1 0
def F.DBG_MAPCTL_WRITE : Fld := mkF 0x0F 0x5C 1 1 0
def F.DBG_MAPCTL_INC : Fld := mkF 0x0F 0x5C 2 1 1
def F.DBG_MAPSTAT_DONE : Fld := mkF 0x0F 0x60 0 1 1
def F.DBG_MAPSTAT_DARK : Fld := mkF 0x0F 0x60 1 1 0
def F.DBG_MAPSTAT_UE : Fld := mkF 0x0F 0x60 2 1 0
def F.DBG_MAPSTAT_BUSERR : Fld := mkF 0x0F 0x60 3 1 0
def F.DBG_MAPSTAT_DENIED : Fld := mkF 0x0F 0x60 4 1 0
def F.DBG_ENGCTL_ENGINE : Fld := mkF 0x0F 0x64 0 6 0
def F.DBG_ENGCTL_YIELD : Fld := mkF 0x0F 0x64 6 1 0
def F.DBG_CNT0_AUTHFAIL : Fld := mkF 0x0F 0x80 0 31 0
def F.DBG_CNT0_OVF : Fld := mkF 0x0F 0x80 31 1 0

/-! CHK -/

/-- The window of CHK instance i, R55. -/
def W.CHK (i : Nat) : Nat := 0x08 + i
def F.CHK_CFG_WIDTH (i : Nat) : Fld := mkF (0x08 + i) 0x40 0 7 32
def F.CHK_CFG_REFIN (i : Nat) : Fld := mkF (0x08 + i) 0x40 7 1 1
def F.CHK_CFG_REFOUT (i : Nat) : Fld := mkF (0x08 + i) 0x40 8 1 1
def F.CHK_CFG_CONT (i : Nat) : Fld := mkF (0x08 + i) 0x40 9 1 0
def F.CHK_POLYLO_POLY (i : Nat) : Fld := mkF (0x08 + i) 0x48 0 32 79764919
def F.CHK_POLYHI_POLY (i : Nat) : Fld := mkF (0x08 + i) 0x4C 0 32 0
def F.CHK_INITLO_INIT (i : Nat) : Fld := mkF (0x08 + i) 0x50 0 32 4294967295
def F.CHK_INITHI_INIT (i : Nat) : Fld := mkF (0x08 + i) 0x54 0 32 0
def F.CHK_XORLO_XOROUT (i : Nat) : Fld := mkF (0x08 + i) 0x58 0 32 4294967295
def F.CHK_XORHI_XOROUT (i : Nat) : Fld := mkF (0x08 + i) 0x5C 0 32 0
def F.CHK_VALLO_V (i : Nat) : Fld := mkF (0x08 + i) 0x70 0 32 0
def F.CHK_VALHI_V (i : Nat) : Fld := mkF (0x08 + i) 0x74 0 32 0
def F.CHK_RESULTLO_RESULT (i : Nat) : Fld := mkF (0x08 + i) 0x78 0 32 0
def F.CHK_RESULTHI_RESULT (i : Nat) : Fld := mkF (0x08 + i) 0x7C 0 32 0
def F.CHK_ADDRLO_ADDR (i : Nat) : Fld := mkF (0x08 + i) 0x60 0 32 0
def F.CHK_ADDRHI_ADDR (i : Nat) : Fld := mkF (0x08 + i) 0x64 0 8 0
def F.CHK_LEN_LEN (i : Nat) : Fld := mkF (0x08 + i) 0x68 0 32 0

/-! Events: the bit of each in its block EV_RAW. -/
def E.PINS_MAINS_LOSS : Nat := 0
def E.PINS_MAINS_RETURN : Nat := 1
def E.PINS_BACKUP_LOSS : Nat := 2
def E.PINS_BACKUP_RETURN : Nat := 3
def E.PINS_THERM_WARN : Nat := 4
def E.PINS_THERM_HOLD : Nat := 5
def E.PINS_THERM_CLEAR : Nat := 6
def E.PWR_STATECHG : Nat := 0
def E.PWR_REFUSED : Nat := 1
def E.PWR_WAKE : Nat := 2
def E.PWR_PERFDONE : Nat := 3
def E.PWR_CNTSAT : Nat := 4
def E.TIME_STATECHG : Nat := 0
def E.TIME_COASTING : Nat := 1
def E.TIME_ADRIFT : Nat := 2
def E.TIME_STEPREF : Nat := 3
def E.TIME_INCRCLAMP : Nat := 4
def E.TIME_REFLOSS : Nat := 5
def E.TIME_REFSWITCH : Nat := 6
def E.TIME_PPSCAP : Nat := 7
def E.TIME_SLEWDONE : Nat := 8
def E.TIME_CNTSAT : Nat := 9
def E.RFE_MASKVIOL : Nat := 0
def E.RFE_MASKCUT : Nat := 1
def E.RFE_REFLLOW : Nat := 2
def E.RFE_NOCAL : Nat := 3
def E.RFE_SPAN : Nat := 4
def E.RFE_CANCLOSS : Nat := 5
def E.RFE_COEXDENY : Nat := 6
def E.RFE_STALE : Nat := 7
def E.RFE_CNTSAT : Nat := 8
def E.RFE_OPEND : Nat := 31
def E.MPHY_OUTWIN : Nat := 0
def E.MPHY_NOBUF : Nat := 1
def E.MPHY_BLANK : Nat := 2
def E.MPHY_TXREF : Nat := 3
def E.MPHY_PWRRED : Nat := 4
def E.MPHY_EQDONE : Nat := 5
def E.MPHY_WINREF : Nat := 6
def E.MPHY_WINAPPLIED : Nat := 7
def E.MPHY_CNTSAT : Nat := 8
def E.MLC_TILEREF : Nat := 0
def E.MLC_TILEBUSY : Nat := 1
def E.MLC_SFSWITCH : Nat := 2
def E.MLC_SFREF : Nat := 3
def E.MLC_ACKDROP : Nat := 4
def E.MLC_LCLASH : Nat := 5
def E.MLC_BOARDWR : Nat := 6
def E.MLC_TXDROP : Nat := 7
def E.MLC_BCNREF : Nat := 8
def E.MLC_NBRSYNC : Nat := 9
def E.MLC_SQSKIP : Nat := 10
def E.MLC_CNTSAT : Nat := 11
def E.MLC_OPEND : Nat := 31
def E.MNODE_CMDDONE : Nat := 0
def E.MNODE_PEXHAUST : Nat := 1
def E.MNODE_QFULL : Nat := 2
def E.MNODE_COPYERR : Nat := 3
def E.MNODE_BOTHERR : Nat := 4
def E.MNODE_DRIFTLOST : Nat := 5
def E.MNODE_MAPWR : Nat := 6
def E.MNODE_CNTSAT : Nat := 7
def E.MNODE_OPEND : Nat := 31
def E.WPHY_CHAPPLIED : Nat := 0
def E.WPHY_CHREF : Nat := 1
def E.WPHY_GRANTEXP : Nat := 2
def E.WPHY_GRANTREF : Nat := 3
def E.WPHY_EQDONE : Nat := 4
def E.WPHY_NOBUF : Nat := 5
def E.WPHY_CNTSAT : Nat := 6
def E.WMAC_PLANMISS : Nat := 0
def E.WMAC_LATE : Nat := 1
def E.WMAC_QUIET : Nat := 2
def E.WMAC_CNTSAT : Nat := 3
def E.MLD_CMDDONE : Nat := 0
def E.MLD_QFULL : Nat := 1
def E.MLD_NOLINK : Nat := 2
def E.MLD_CNTSAT : Nat := 3
def E.YARD_MISS : Nat := 0
def E.YARD_ABANDON : Nat := 1
def E.YARD_STRAY : Nat := 2
def E.YARD_FULL : Nat := 3
def E.YARD_HISTVALID : Nat := 4
def E.YARD_REDO : Nat := 5
def E.YARD_PBSWITCH : Nat := 6
def E.YARD_CNTSAT : Nat := 7
def E.ENG_EXCEPT : Nat := 0
def E.ENG_FAIL : Nat := 1
def E.ENG_CNTSAT : Nat := 2
def E.ENG_OPEND : Nat := 31
def E.RTE_WATCHDOWN : Nat := 0
def E.RTE_WATCHUP : Nat := 1
def E.RTE_REASMEXP : Nat := 2
def E.RTE_STALELOOK : Nat := 3
def E.RTE_CNTSAT : Nat := 4
def E.RTE_OPEND : Nat := 31
def E.SHP_TLSTART : Nat := 0
def E.SHP_TLREF : Nat := 1
def E.SHP_SLOPEREF : Nat := 2
def E.SHP_QFULL : Nat := 3
def E.SHP_GATEDROP : Nat := 4
def E.SHP_FLUSH : Nat := 5
def E.SHP_CNTSAT : Nat := 6
def E.SHP_TLBUSY : Nat := 7
def E.LANE_ACTIVE : Nat := 0
def E.LANE_LOCKLOSS : Nat := 1
def E.LANE_TRAINFAIL : Nat := 2
def E.LANE_ANFAIL : Nat := 3
def E.LANE_CNTSAT : Nat := 4
def E.EMAC_LINKUP : Nat := 0
def E.EMAC_LINKDOWN : Nat := 1
def E.EMAC_STICKY : Nat := 2
def E.EMAC_PAUSERX : Nat := 3
def E.EMAC_CNTSAT : Nat := 4
def E.CPL_STATECHG : Nat := 0
def E.CPL_TAKEOVER : Nat := 1
def E.CPL_TRAILLOST : Nat := 2
def E.CPL_LANEDROP : Nat := 3
def E.CPL_LANEJOIN : Nat := 4
def E.CPL_LIFELOSS : Nat := 5
def E.CPL_LIFEFAULT : Nat := 6
def E.CPL_LEADHEARD : Nat := 7
def E.CPL_YIELD : Nat := 8
def E.CPL_PAIRREF : Nat := 9
def E.CPL_ORPHAN : Nat := 10
def E.CPL_GAPRISK : Nat := 11
def E.CPL_CNTSAT : Nat := 12
def E.SEC_KEYEXH : Nat := 0
def E.SEC_CNTSAT : Nat := 1
def E.SEC_OPEND : Nat := 31
def E.LIM_REFUSED : Nat := 0
def E.LIM_SNAPERR : Nat := 1
def E.LIM_CNTSAT : Nat := 2
def E.NVS_ACTIVATED : Nat := 0
def E.NVS_OPEND : Nat := 31
def E.APC_RING : Nat := 0
def E.APC_CNTSAT : Nat := 8
def E.MEM_UE : Nat := 0
def E.MEM_MIRRORREF : Nat := 1
def E.MEM_POOLBAD : Nat := 2
def E.MEM_CNTSAT : Nat := 3
def E.FLT_UPSET : Nat := 0
def E.FLT_RETIRED : Nat := 1
def E.FLT_STALL : Nat := 2
def E.FLT_STOPPED : Nat := 3
def E.FLT_LEDGERFULL : Nat := 4
def E.FLT_CNTSAT : Nat := 5
def E.FLT_RUNLONG : Nat := 6
def E.DBG_LEVELCHG : Nat := 0
def E.DBG_AUTHFAIL : Nat := 1
def E.DBG_HALTED : Nat := 2

end Sys2Proof.Machine
end

