-- ==== Sys2Proof/Machine/State.lean ====
section
/-!
DEFINITION. The state of the module as plain data: every register field, memory, and the state inside each block that no
register shows whole. State.reset is the module at a power-on start, before the boot ROM hands over (R384, R385).
-/

namespace Sys2Proof.Machine

/-! No meaning ends in a fault: the block reports what goes wrong in its own registers (R62 to R71, R372 to R377). The one
constructor keeps the type inhabited for a command queue that holds a term no table row spells. -/

/-- Faults. -/
inductive Fault where
  /-- Raised by no meaning: the spec describes an effect for every command. Safe: it would only stop the machine. -/
  | none
  deriving DecidableEq, Repr

/-- Refusals. -/
inductive Refusal where
  /-- A command whose meaning is not written, by its mnemonic. Raised by Dispatch alone. Safe: the machine stops. -/
  | notModelled (mnemonic : String)
  deriving DecidableEq, Repr

/-- The phase of the die: R384, R385, R387, R377, R49, R45. -/
inductive Phase where
  | boot | safeHold | software | inReset | stopped | off
  deriving DecidableEq, Repr

/-- The state of the supply path, R45. -/
inductive SupPath where
  | onMains | onBackup | bridging | off
  deriving DecidableEq, Repr

/-- Supply, temperature, reset and the pins that no register shows: R32, R45 to R50, R308. lifeOut is 0 low, 1 pulses,
2 held high. cut is the Off of the thermal cut. timer is the bridge timer. bootVigil is the turned hand-over of R387. -/
structure EnvS where
  phase : Phase
  path : SupPath
  timer : Bool
  cut : Bool
  lifeOut : Nat
  startKind : Nat
  bootVigil : Bool
  deriving DecidableEq, Repr

/-- A change of the time that waits for the next tick, R80: a step in ns, or a counter value in units of 2^-16 ns. -/
inductive TimeChange where
  | step (ns : Int)
  | load (v : Nat)
  deriving DecidableEq, Repr

/-- The clock that ticks TIME, R100, R102. -/
inductive Tick where
  | run | hush | stopped
  deriving DecidableEq, Repr

/-- The timebase: tb in units of 2^-32 ns (R76, R77), the increment in force (R78), the slew still to remove in 2^-32 ns
(R79), changes waiting for a tick (R80), elapsed nominal ns towards a measurement boundary (R97) and since the start, the Acquiring count and
whether a measurement has come since the boundary (R97), the last path delay (R94), PPS_OUT and when in elapsed ns it falls (R88), uncertainty growth in
10^-9 ns (R96), the last reference ratio (R84), what ticks have added in the calibration window in 2^-32 ns (R101), and T0 of Dormant (R102). -/
structure TimeS where
  tb : Nat
  incr : Nat
  slew : Int
  slewing : Bool
  pend : List TimeChange
  tick : Tick
  elapsed : Nat
  mono : Nat
  meas : Bool
  acq : Nat
  lastD : Int
  ppsOut : Bool
  ppsEnd : Nat
  uncAcc : Nat
  refNum : Nat
  refDen : Nat
  calAcc : Nat
  t0 : Nat
  deriving DecidableEq, Repr

/-- PWR: the state whose caps hold (R357), the target of the change in progress and its final target (R363, R365), the
pending target (R364), a forced change still to run (R364), rail switches and requests waiting (R368), and the residency
counters in ns: four states, four fabric levels, four cluster levels (R369). -/
structure PwrS where
  capState : Nat
  change : Option Nat
  final : Nat
  pend : Option Nat
  forced : Bool
  fabTo : Option Nat
  cluTo : Option Nat
  res : List Nat
  deriving DecidableEq, Repr

/-- A ledger entry: the times in ns of its events in order, and whether it is retired: R372, R373. -/
structure Ledger where
  times : List Nat
  retired : Bool
  deriving DecidableEq, Repr

/-- FLT: ledger entries by resource code (R373, R374), and the page of each of the 16 page entries (R374). -/
structure FltS where
  led : KMap Ledger
  pages : KMap Nat
  deriving DecidableEq, Repr

/-- The cluster: each hart released, waiting, halted, stopped by the device state (R342, R361, R396); where each last
started; its last load address is not kept. mtimecmp and its held low words, msip (R343); the PLIC (R345). -/
structure ApcS where
  mtimecmp : List Nat
  msip : List Nat
  parked : List Bool
  entry : List Nat
  plicPend : List Nat
  plicSvc : KMap Nat
  prio : KMap Nat
  enab : KMap Nat
  thr : KMap Nat
  deriving DecidableEq, Repr

/-- MEM: counts of the pool classes in force (R349, R355), allocated buffers by handle with their class (R350), each
requester's last allocation (R350), words that hold an uncorrectable error (R347), buffers that return to
the pool once the requests that write to them are answered (R261), the scrub positions (R347), DRAM on. -/
structure MemS where
  counts : List Nat
  pool : KMap Nat
  res : KMap Nat
  ue : List Nat
  late : List Nat
  scrubS : Nat
  scrubD : Nat
  deriving DecidableEq, Repr

/-- The answer of the last bus access: data, bus error, the DARK flag (R70, R71), and whether it met an uncorrectable error (R347). -/
structure BusS where
  data : Nat
  err : Bool
  dark : Bool
  ue : Bool
  deriving DecidableEq, Repr

/-- The settings store's register set as delivered: the default pool counts of R349, and 0 for every other field the spec
marks NV (log entry 3). -/
def nvDelivered : KMap Nat :=
  [(F.MEM_POOLCNT_COUNT 0, 32768), (F.MEM_POOLCNT_COUNT 1, 8192), (F.MEM_POOLCNT_COUNT 2, 1024),
    (F.MEM_POOLCNT_COUNT 3, 640)].map fun e => (e.1.key, e.2)

/-- A front-end path, R106 to R110: the state it moves to and the state it is bound for (codes of RFE_PATHSTAT), the
preselector code in force by port, the end of a retune in ns, what it has accepted to transmit, the last command's status
(0 accepted, 1 BUSY, 2 NOCAL, 3 SPAN, 4 LATE, 5 COEX, 6 CUT), whether it has been foreground-calibrated since its
domain came on (R389), and the entry that a background calibration under way is at (R112). -/
structure PathS where
  nxt : Option Nat
  goal : Nat
  presel : KMap Nat
  tuneEnd : Nat
  txs : List TxCmd
  status : Nat
  fg : Bool
  bg : Option Nat
  deriving DecidableEq, Repr

/-- The coexistence wires, R119 to R121: the priority of the hold, whether it ends with the current frame, COEX_REQ_IN and
COEX_PRIO as sampled with the external priority, COEX_REQ_OUT. -/
structure CoexS where
  hold : Option Nat
  ending : Bool
  reqIn : Bool
  prio : Bool
  ext : Nat
  reqOut : Bool
  deriving DecidableEq, Repr

/-- The front ends: paths by 3 * instance + path; calibration words by (instance * 256 + entry) * 4 + word and the time in
ns of each entry's last calibration (R111, R112); the survey's position and pass by instance (R113); cancellation taps by
coupling path * 64 + tap, those last saved, and transmit time by mesh port (R117, R118); the coexistence wires. -/
structure RfeS where
  paths : KMap PathS
  cal : KMap Nat
  calAt : KMap Nat
  surv : KMap (Nat × Nat)
  taps : KMap Nat
  saved : KMap Nat
  txTime : KMap Nat
  coex : CoexS
  deriving DecidableEq, Repr

/-- A listener, R134: its state in the code of MPHY_LSTAT0 (0 Idle to 6 Payload), the aerial, the assignment and the next,
the MPHY_LCFG word it searches with, the energy of its frame, the noise floor, the receive stamp in 2^-16 ns and the increment
(R183) at the SFD, the buffer and wagon slot reserved at the SFD with the train of the slot, and what the PHR gave: length, FCS type,
whitening. -/
structure Lis where
  st : Nat
  aerial : Nat
  cur : Option Asn
  next : Option Asn
  cfg : Nat
  rssi : Int
  nf : Int
  stamp : Nat
  incr : Nat
  buf : Option Nat
  trn : Nat
  len : Nat
  fcslen : Bool
  dw : Bool
  deriving DecidableEq, Repr

/-- A frame handed to MLC and not yet checked, R138: the listener, what it holds of the assignment, its buffer and the train of its
reserved slot, its receive stamp in 2^-16 ns and the increment there, the report, and the PSDU; jd the outcome of MLC's class P check
(R181) once that is made, as Attr.mlc has it. -/
structure Handed where
  lis : Nat
  aerial : Nat
  asn : Asn
  buf : Nat
  trn : Nat
  stamp : Nat
  incr : Nat
  fcslen : Bool
  snr : Int
  fofs : Int
  fosat : Bool
  rssi : Int
  ended : Nat
  psdu : List Byte
  jd : Option (Option Nat)
  deriving DecidableEq, Repr

/-- MPHY: listeners that are not Idle, by number (R125, R134); configuration words of MPHY_LCFG by listener; the windows in
force as (lower edge, upper edge) in kHz by window (R123, R124); noise floors measured, by calibration entry (R135); the
listener armed for taps (R137); carriers accepted and those active (R140); the status of the last request (R141) and its
reduction in 0.25 dB (R142); frames handed to MLC (R134, R138); assignments MLC has been told are refused or void (R126,
R127); samples of noise floors by calibration entry, newest first, as (time in ns, energy) (R135). -/
structure MphyS where
  lis : KMap Lis
  lcfg : KMap Nat
  win : KMap (Nat × Nat)
  nf : KMap Nat
  waiting : List Carr
  active : List Carr
  status : Nat
  red : Nat
  handed : List Handed
  told : List (Nat × Asn)
  nfs : KMap (List (Nat × Int))
  deriving DecidableEq, Repr

/-- A frame in a downlink or shared queue, R188 to R190: its output, MISS of the wagon that emitted it, when it arrived in ns,
its retries, the record it is for, and whether it is a promoted head. -/
structure QEnt where
  out : Out
  miss : Bool
  since : Nat
  retries : Nat
  rec' : Option Nat
  promo : Bool
  deriving DecidableEq, Repr

/-- A frame MLC has handed on that MNODE has still to judge, R177, R178: its wagon, its receive stamp and listener, its slot's
ASN, D and TC of R157, whether MLC acknowledged it in a receive square and that square's reference time in ns, and the verdict
MLC has reached for class P (R181), if it has. -/
structure Attr where
  wid : Nat
  lis : Nat
  tile : Nat
  stamp : Nat
  asn : Nat
  d : Int
  tc : Int
  sample : Bool
  ref : Nat
  mlc : Option Nat
  fofs : Int
  fosat : Bool
  snr : Int
  freq : Nat
  rssi : Int
  incr : Nat
  psdu : List Byte
  deriving DecidableEq, Repr

/-- MNODE: the command that runs with its arguments (R176); the last address assigned by Tile (R174); the record cache, most
recent first (R172); lost records (R172); EXT of Associated and Held records (R169); how many they are; frames to judge (R178);
downlink queues by record and shared queues by Tile (R188); records whose last NEW frame gave no timing sample, while no sample
has come since (R184, R185); the time correction in µs of the last acknowledgement from a node, by record (R155). -/
structure MnodeS where
  cmd : Option (Nat × List Nat)
  last : KMap Nat
  cache : List Nat
  lost : List Nat
  idx : KMap Nat
  used : Nat
  todo : List Attr
  q : KMap (List QEnt)
  sq : KMap (List QEnt)
  missed : List Nat
  atc : KMap Int
  deriving DecidableEq, Repr

/-- A Tile, R144 to R166: its checks (0 none, 1 running, 2 passed); a disable that waits for its edge; the shared-square state
BE, W and x (R159), and whether SEED was written; the register words in force since the last edge: CTL, BEACON, BCNA, BCNB,
BCNOFS, CSMA, NBRSCAN (R146); the ASN of the last edge and whether there was one; the slot prepared last; the beacon of the exchange with a neighbour: e_b and whether it waits for its keep-alive (R166); e_a of the last one. -/
structure TileS where
  chk : Nat
  stop : Bool
  be : Nat
  w : Nat
  x : Nat
  seedWr : Bool
  words : List Nat
  edge : Option Nat
  prep : Nat
  eb : Option Int
  ea : Option Int
  deriving DecidableEq, Repr

/-- What MLC has in progress for a carrier or an acknowledgement window, R155, R159, R166: the Tile, what it is (0 transmit
square, 1 shared square, 2 keep-alive, 3 beacon, 4 acknowledgement), the frame, the carrier with its departure stamp, the listener of its acknowledgement
window, the sequence number looked for, and the listener of the shared square it sends in (R159). -/
structure Try where
  tile : Nat
  what : Nat
  q : Option QEnt
  id : Nat
  stamp : Nat
  lis : Option Nat
  seq : Option Nat
  own : Option Nat
  deriving DecidableEq, Repr

/-- MLC: Tiles; attempts in progress; windows given to listeners as (listener, Tile, open, close) in ns (R150); assignments held back
until a listener's earlier window has closed; squares served and not yet run as (Tile, slot, square) (R150); quiet turns as
(start, end) in ns (R167); the class P known bitmap and the pending bitmap, by record (R22, R23); the number of the next carrier;
whether the Tiles are muted, and whether they are from the next slot edge (R310); carriers sent to the Trail (R317);
the receive paths of RFE_M that it holds in Rx (R108). -/
structure MlcS where
  tiles : KMap TileS
  tries : List Try
  wins : List (Nat × Nat × Nat × Nat)
  later : List (Nat × Asn)
  plan : List (Nat × Nat × Nat)
  quiet : List (Nat × Nat)
  known : KMap Nat
  pend : KMap Nat
  nextId : Nat
  mute : Bool
  mutePend : Bool
  lent : List Carr
  held : List Nat
  deriving DecidableEq, Repr

/-- The receiver of a radio, R202: 0 Search, 1 Train, 2 LSig, 3 Sig, 4 Data; the power of the PPDU in 0.25 dBm, when its L-STF
came in 2^-16 ns, the buffer reserved and the train of the slot reserved with it, whether its own trigger solicited it, until when CCA
is held busy in ns, its format. -/
structure WRx where
  st : Nat
  power : Int
  cap : Nat
  buf : Option Nat
  trn : Nat := 0
  tb : Bool
  cca : Nat
  fmt : Nat
  deriving DecidableEq, Repr

/-- A station entry, R216: its address, AID, links as (link address, BSS) by link, completion train, flags and capability word, the
TID map once SETMAP has given one; per link what MLD has learnt: SNR in 0.25 dB (R206), the time of the last beamforming
feedback in ns (R222), the MCS offset and the failure-free run (R221); buffer reports by access category and the time of each in ns
(R220); power save; of an EMLSR peer the link on which it has answered an initial control frame and until when it stays there, and its
padding and transition delays in ns (R215, R217). -/
structure StaS where
  addr : Nat
  aid : Nat
  links : KMap (Nat × Nat)
  train : Nat
  mld : Bool
  twtmem : Bool
  emlsr : Bool
  caps : Nat
  map : Option Nat
  snr : KMap Int
  fed : KMap Nat
  adj : KMap Int
  good : KMap Nat
  bsr : KMap Nat
  bsrAt : KMap Nat := []
  ps : Bool
  em : Option (Nat × Nat) := none
  pad : Nat := 0
  tran : Nat := 0
  deriving DecidableEq, Repr

/-- A frame queued in MLD, R219: its output, MISS and deadline of its wagon, its arrival in ns, its retries, the station entry and
TID (for a group frame 1024 + BSS and 0). -/
structure WEnt where
  out : Out
  miss : Bool
  dl : Nat
  since : Nat
  retries : Nat
  sta : Nat
  tid : Nat
  deriving DecidableEq, Repr

/-- A user of a plan step, R220: the station entry (1024 + BSS for group frames), the resource unit's place, MCS, streams, power in 0.25
dBm and frames by handle. -/
structure WUser where
  sta : Nat
  ru : Nat
  mcs : Nat
  nss : Nat
  pow : Int
  frames : List Nat
  deriving DecidableEq, Repr

/-- A plan step, R220: 0 DLMU, 1 MUMIMO, 2 TRIG, 3 BSRP, 4 SOUND, 5 SU; its PPDU's format in the code of R206, its users, the
resource-unit size (0 for 26 tones to 7 for 3,984; 8 + n for a multiple RU over n 20 MHz subchannels), and in ns the air time of what it
sends and its time with the response. -/
structure WStep where
  kind : Nat
  fmt : Nat
  users : List WUser
  ru : Nat
  air : Nat
  dur : Nat
  deriving DecidableEq, Repr

/-- A standing plan with the time in ns at which it reached the dock. -/
structure WPlan where
  at' : Nat
  steps : List WStep
  deriving DecidableEq, Repr

/-- A lower MAC: the end in ns of the TXOP it holds; by access category the window exponent and the backoff slots left, R225, R226;
until when it knows the medium busy, in ns; the BSSs whose beacon waits for the medium, R218. -/
structure WMac where
  hold : Nat
  cw : KMap Nat
  roll : KMap Nat
  busy : Nat
  bcn : List Nat
  deriving DecidableEq, Repr

/-- A PPDU accepted by its path: its number, radio, step kind (6 beacon, 7 CF-End, 8 timed, 9 acknowledgement, 10 CTS), format in the
code of R206, users, the frames that will be acknowledged, its departure stamp in 2^-16 ns, the octets of a beacon, the power in 0.25
dBm by port (R198), and the time in ns to which its duration fields reach (R230). -/
structure WTx where
  id : Nat
  radio : Nat
  kind : Nat
  fmt : Nat
  users : List WUser
  acked : List Nat
  stamp : Nat
  data : List Byte
  pow : List (Nat × Int)
  nav : Nat
  deriving DecidableEq, Repr

/-- The WLAN: receivers and lower MACs by radio; generators by 4 * radio + AC (R226); standing plans and the times of their last
revision by 4 * radio + AC (R220); channels staged and pending, with their centre channel
number above bit 32, and the centre in force by radio (R194, R212); what the planner measured last (R220); PPDUs in progress; the power
used that the last transmit completion of a radio reported (R198); timed frames by radio (R89); the grant table's words by entry (R200); export
of taps armed with its AID and NG (R205); stations; queues by 16 * entry + TID and group queues by 16 * radio + BSS (R219); the
station command that runs; TWT words by agreement (R227), next service periods in ns and open ones as (start, end,
whether it wakes every member, the members that a frame of theirs has woken) (R228, R229); the TSF epoch in ns that held before the last
write and the elapsed time from which the new one holds (R218). -/
structure WlanS where
  rx : KMap WRx
  mac : KMap WMac
  rng : KMap Nat
  plans : KMap WPlan
  revAt : KMap Nat
  stage : KMap Nat
  cen : KMap Nat
  inp : KMap PlanIn
  tx : List WTx
  txPow : KMap (List (Nat × Int))
  timed : List (Nat × WEnt)
  grants : KMap (List Nat)
  sta : KMap StaS
  q : KMap (List WEnt)
  grp : KMap (List WEnt)
  cmd : Option (Nat × List Nat)
  twt : KMap (List Nat)
  spNext : KMap Nat
  spOpen : KMap (Nat × Nat × Bool × List Nat)
  epochOld : Nat
  epochFrom : Nat
  deriving DecidableEq, Repr

/-- A coupling an engine has staged, R245. -/
structure Cpl where
  wid : Nat
  slot : Nat
  typ : Nat
  val : Nat
  deriving DecidableEq, Repr

/-- A wagon, R233: st is STATE (1 Staged, 2 Filling, 3 Ready, 4 Running, 5 Done). Times are ns modulo 2^16 s (R234). snap
holds the record snapshots of NODE couplings by slot (R235); bufs the buffers it owns (R238); tbufs those its template names,
which it owns once its parent commits; outs, cpls and kids what its program has staged or committed (R245, R249); succ its
successor; parent the wagon that made it; rdy the order and rdyNs the time in which it became Ready (R242, R254); ing whether
it came from an island. -/
structure Wagon where
  train : Nat
  seq : Nat
  decl : Nat
  arr : Nat
  prog : Nat
  ecls : Nat
  st : Nat
  miss : Bool
  void : Bool
  pend : Bool
  pbank : Nat
  origin : Nat
  placewait : Bool
  dl : Nat
  cs : Nat
  ctype : Nat
  user : Nat
  cpl : List Nat
  snap : KMap (List Byte)
  bufs : List Nat
  tbufs : List Nat
  outs : List Out
  cpls : List Cpl
  kids : List Nat
  succ : Option Nat
  parent : Option Nat
  rdy : Nat
  rdyNs : Nat
  deriving DecidableEq, Repr

/-- An engine: the wagon it holds, since when in ns, the time it has held wagons in this millisecond, whether it is halted,
the last result in rd (R245), and what its last dispatch gave it (R244): pc, a0, sp, the words of the inbox and of the frame header
shown beside it. -/
structure EngS where
  wag : Option Nat
  since : Nat
  busy : Nat
  halted : Bool
  rd : Int
  pc : Nat
  a0 : Nat
  sp : Nat
  inbox : List Nat
  hdr : List Nat
  deriving DecidableEq, Repr

/-- A request to RTE, or with sec to SEC: its four words, the creation stamp in ns of the wagon that issued it, and where the result
goes, R245, R260. -/
structure Req where
  words : List Nat
  sec : Bool
  cs : Nat
  wid : Nat
  slot : Nat
  deriving DecidableEq, Repr

/-- The yard: wagons that are not Free by WID; slots islands have reserved, by train (R237); ALLOC and NEXT of trains that
have moved (R240); engines by number; requests issued and not answered; program banks as octets at (2 * coach + bank) * 32768
(R248); the order counter of Ready; waiting-time bins by 16 * class + bin and the start of their window in ns (R254); the
start of the load window; when in ns each coach's domain last came on (R254). -/
structure YardS where
  wagons : KMap Wagon
  resv : KMap Nat
  trains : KMap (Nat × Nat)
  engs : KMap EngS
  reqs : List Req
  prog : List Host.Cell
  order : Nat
  bins : KMap Nat
  histAt : Nat
  loadAt : Nat
  coachOn : KMap Nat
  deriving DecidableEq, Repr

/-- A reassembly context, R267: its key (Tile, link source as mode and address, size, tag), its age's start in ns, and the parts it
holds by datagram offset. -/
structure Reasm where
  tile : Nat
  src : Nat × Nat
  size : Nat
  tag : Nat
  since : Nat
  held : List (Nat × List Byte)
  sum : Option (Nat × Nat)
  deriving DecidableEq, Repr

/-- A watch, R270: whether its indication is up and since when in ns, what was reported before the last change and when that
change was, in ns. -/
structure WatchS where
  raw : Bool
  since : Nat
  prev : Bool
  chg : Nat
  deriving DecidableEq, Repr

/-- RTE: its tables, by table number and key, as entry images (R258); the tables of before the last commit while an old set is
kept, with the commit's time in ns modulo 2^16 s and in ns (R260); the time in ns of the last commit whose old set is gone; the staged list as changes of 20
words (R259); reassembly contexts; watches; consecutive RETRIES by station entry (R270). -/
structure RteS where
  tabs : KMap (KMap (List Nat))
  old : Option (Nat × KMap (KMap (List Nat)))
  lastT : Option Nat
  stage : List (List Nat)
  reasm : List Reasm
  watch : KMap WatchS
  miss : KMap Nat
  deriving DecidableEq, Repr

/-- A frame a shaper holds, R274: its output, MISS of its wagon, and the launch time in ns of a timed one. -/
structure SEnt where
  out : Out
  miss : Bool
  at' : Nat
  deriving DecidableEq, Repr

/-- What EMAC sends: the frame (none for a PAUSE or PFC frame), its class, when it began in 2^-16 ns of elapsed time, its counted
length L (R276), the octets on the medium, and its departure stamp in 2^-16 ns (0 in software mode). -/
structure STx where
  ent : Option SEnt
  cls : Nat
  beg : Nat
  len : Nat
  data : List Byte
  stamp : Nat
  deriving DecidableEq, Repr

/-- A shaper: class queues, the timed list in order of arrival (R274), credits in 2^-16 bits and the elapsed time in 2^-16 ns for
which they hold (R277), the parameters in force by class as (MODE, OVERHEAD, QLIM, IDLESLOPE) and whether a write waits for its
refill (R278) and when the last was, in elapsed ns, the pending start of an enabled list and of an armed switch as (time in ns, bank) (R281),
what EMAC sends. -/
structure ShpS where
  q : KMap (List SEnt)
  timed : List SEnt
  credit : KMap Int
  mark : Nat
  cfg : List (Nat × Nat × Nat × Nat)
  dirty : Bool
  wrote : Option Nat
  start : Option (Nat × Nat)
  swit : Option (Nat × Nat)
  tx : Option STx
  deriving DecidableEq, Repr

/-- An EMAC: the reservation of the frame it receives as (buffer, receive stamp in 2^-16 ns) (R293); pause timers by class as the
elapsed time in 2^-16 ns at which they end (R297); the requested PAUSE or PFC frame as (quanta, classes) and the last one sent with
its time (R298); the speed code of the SGMII exchange (R292); since when in ns of elapsed time nothing kept it from LPI, and when
it has woken (R299). -/
structure EmacS where
  rx : Option (Nat × Nat × Nat)
  pause : KMap Nat
  want : Option (Nat × Nat)
  sent : Option (Nat × Nat × Nat)
  speed : Nat
  busyAt : Nat
  wake : Nat
  deriving DecidableEq, Repr

/-- CPL beyond its registers: the partner's locked lanes by its last marker, lanes that have dropped and not rejoined (R305, R306),
whether a Lead has been heard since Watch was entered (R310), the data queue (R304), updates queued while Syncing (R309), and the
keys whose next block has been asked of the Trail and not acknowledged (R313). -/
structure CplS where
  map : Nat
  gone : Nat
  heard : Bool
  q : List (Out × Bool)
  mq : List Mir
  resv : List Nat
  deriving DecidableEq, Repr

/-- NVS: the slot booted and the slot preferred of kinds 1 to 3 (0 A, 1 B), whether a root record is set and which half is
current, and the rollback counters: R319, R324, R325, R340. They are in the settings store and last through every start. -/
structure NvsS where
  boot : List Nat
  pref : List Nat
  rootSet : Bool
  half : Nat
  roll : List Nat
  deriving DecidableEq, Repr

/-- A key of the key store, R326: USE in the code of SEC_KEYINFO, whether it is paired and exhausted, the next outgoing counter,
the octets, the end of the blocks reserved to this module (R313). -/
structure KeyS where
  use : Nat
  paired : Bool
  exh : Bool
  cnt : Nat
  val : List Byte
  limit : Nat
  deriving DecidableEq, Repr

/-- A transmission admitted on a duty meter, R334: the meter, the transmission, its air time in ns, the part reserved in ns. -/
structure Admit where
  meter : Nat
  id : Nat
  frm : Nat
  til : Nat
  part : Nat
  deriving DecidableEq, Repr

/-- LIM: the image in force with its slot and version, how the meters were restored (R336), each meter's buckets as (start in
ns, use in ns) (R334), what is admitted, the last snapshot (R335). -/
structure LimS where
  img : Option RegImage
  slot : Nat
  ver : Nat
  restore : Nat
  buckets : KMap (List (Nat × Nat))
  adm : List Admit
  seq : Nat
  row : Nat
  deriving DecidableEq, Repr

/-- What the debug module keeps of a hart, R394 to R398: halted (a hart; an engine's is in EngS), ebreakm, ebreaks, ebreaku and
step of dcsr, the cause of the last halt, and the resume acknowledgement, reset indication and reset halt request of dmstatus. -/
structure HartDbg where
  halted : Bool
  ebreakm : Bool
  ebreaks : Bool
  ebreaku : Bool
  step : Bool
  cause : Nat
  ack : Bool
  havereset : Bool
  rhr : Bool
  deriving DecidableEq, Repr

/-- A token check that runs, R400: its 56 words, whether it has failed, and the challenge it answers. -/
structure TokenChk where
  words : List Nat
  bad : Bool
  chal : Nat
  deriving DecidableEq, Repr

/-- The debug port, R393 to R401: the instruction register of the TAP, what DBGI and DMI capture; dmactive, hartsel, data0 to data3, the program buffer, cmderr, abstractauto, the last
command; harts by hartsel; register values of halted
harts by hartsel * 65536 + register number, and local memory of engines by hartsel * 65536 + offset, as far as they are known
(log entry 40); the token's words and the checks that run. -/
structure DbgS where
  ir : Nat
  dbgi : Nat
  dmi : Nat
  active : Bool
  sel : Nat
  data : List Nat
  pbuf : List Nat
  cmderr : Nat
  auto : Nat
  command : Nat
  harts : KMap HartDbg
  regs : KMap Nat
  lmem : KMap Nat
  token : List Nat
  checks : List TokenChk
  deriving DecidableEq, Repr

/-- The whole state. regs holds every register field that differs from its reset value, by field key (R59, R60); nv the
register set of the settings store as last applied (R60, R385); bus the last bus answer; oppart and latch the requesters'
latches, held their held words (R67, R75); doms the state of each power domain that is not on, in the code of DOMSTATE
(R62, R357); drain the coaches whose engines have left dispatch to drain (R359); mem the octets of memory that are not 0
(R54, R346); pending the commands waiting (the row's cut); free the counter of free values (log entry 5). -/
structure State where
  regs : KMap Nat
  nv : KMap Nat
  bus : BusS
  oppart : KMap Nat
  latch : KMap Nat
  held : KMap Nat
  doms : KMap Nat
  drain : List Nat
  mem : List Host.Cell
  pending : List Instr
  free : Nat
  env : EnvS
  tm : TimeS
  pwr : PwrS
  flt : FltS
  apc : ApcS
  ram : MemS
  rfe : RfeS
  mphy : MphyS
  mn : MnodeS
  mlc : MlcS
  wl : WlanS
  yard : YardS
  rte : RteS
  shp : KMap ShpS
  emac : KMap EmacS
  pair : CplS
  nvs : NvsS
  keys : KMap KeyS
  lim : LimS
  dbg : DbgS
  deriving DecidableEq, Repr

/-- The module at a power-on start: R48, R60, R76, R384, R385; memory zero (R385, R386); every value the spec does not state
is named in log entries 2 to 7. -/
def State.reset : State where
  regs := [(F.PINS_SUPPLY_MAINS_OK.key, 1)]
  nv := nvDelivered
  bus := { data := 0, err := false, dark := false, ue := false }
  oppart := []
  latch := []
  held := []
  doms := []
  drain := []
  mem := []
  pending := []
  free := 0
  env := { phase := .boot, path := .onMains, timer := false, cut := false, lifeOut := 0, startKind := 0, bootVigil := false }
  tm := { tb := 0, incr := 0x400000000, slew := 0, slewing := false, pend := [], tick := .run, elapsed := 0, mono := 0, meas := false, acq := 0, lastD := 0, ppsOut := false, ppsEnd := 0, uncAcc := 0, refNum := 1, refDen := 1, calAcc := 0, t0 := 0 }
  pwr := { capState := 0, change := none, final := 0, pend := none, forced := false, fabTo := none, cluTo := none, res := [0, 0, 0, 0, 0, 0, 0, 0, 0, 0, 0, 0] }
  flt := { led := [], pages := [] }
  apc := { mtimecmp := [0, 0, 0, 0, 0, 0, 0, 0], msip := [0, 0, 0, 0, 0, 0, 0, 0], parked := [false, false, false, false, false, false, false, false], entry := [0, 0, 0, 0, 0, 0, 0, 0], plicPend := [], plicSvc := [], prio := [], enab := [], thr := [] }
  ram := { counts := [32768, 8192, 1024, 640], pool := [], res := [], ue := [], late := [], scrubS := 0, scrubD := 0 }
  rfe := { paths := [], cal := [], calAt := [], surv := [], taps := [], saved := [], txTime := [], coex := { hold := none, ending := false, reqIn := false, prio := false, ext := 0, reqOut := false } }
  mphy := { lis := [], lcfg := [], win := [], nf := [], waiting := [], active := [], status := 0, red := 0, handed := [], told := [], nfs := [] }
  mn := { cmd := none, last := [], cache := [], lost := [], idx := [], used := 0, todo := [], q := [], sq := [], missed := [], atc := [] }
  mlc := { tiles := [], tries := [], wins := [], later := [], plan := [], quiet := [], known := [], pend := [], nextId := 1, mute := false, mutePend := false, lent := [], held := [] }
  wl := { rx := [], mac := [], rng := [], plans := [], revAt := [], stage := [], cen := [], inp := [], tx := [], txPow := [], timed := [], grants := [], sta := [], q := [], grp := [], cmd := none, twt := [], spNext := [], spOpen := [], epochOld := 0, epochFrom := 0 }
  yard := { wagons := [], resv := [], trains := [], engs := [], reqs := [], prog := [], order := 0, bins := [], histAt := 0, loadAt := 0, coachOn := [] }
  rte := { tabs := [], old := none, lastT := none, stage := [], reasm := [], watch := [], miss := [] }
  shp := []
  emac := []
  pair := { map := 0, gone := 0, heard := false, q := [], mq := [], resv := [] }
  nvs := { boot := [0, 0, 0], pref := [0, 0, 0], rootSet := false, half := 0, roll := [0, 0, 0, 0] }
  keys := []
  lim := { img := none, slot := 0, ver := 0, restore := 0, buckets := [], adm := [], seq := 0, row := 0 }
  dbg := { ir := 1, dbgi := 0, dmi := 0, active := false, sel := 0, data := [0, 0, 0, 0], pbuf := [0, 0, 0, 0, 0, 0, 0, 0], cmderr := 0, auto := 0, command := 0, harts := [], regs := [], lmem := [], token := [], checks := [] }

end Sys2Proof.Machine
end

