-- ==== Sys2Proof/Machine/Ops.lean ====
section
/-!
DEFINITION. The named operations over registers, events, counters, the operation table of R67, the latches of R67 and R75,
accesses that find no live register, memory, and free values. Every family of commands is written over these.
-/

namespace Sys2Proof.Machine

/-! Register fields -/

/-- What a field reads when nothing has written it: the settings store value (R60), else its reset value. -/
def State.base (s : State) (f : Fld) : Nat := (kget s.nv f.key).getD f.rst

/-- The value of a register field. -/
def State.get (s : State) (f : Fld) : Nat := (kget s.regs f.key).getD (s.base f)

/-- Whether a field is not 0. -/
def State.on (s : State) (f : Fld) : Bool := s.get f != 0

/-- Stores v, cut to the width of the field, in a register field. -/
def State.set (s : State) (f : Fld) (v : Nat) : State :=
  let x := v % 2 ^ min f.len 32
  { s with regs := if x = s.base f then kdel s.regs f.key else kset s.regs f.key x }

/-- Stores several fields in order. -/
def State.sets (s : State) (l : List (Fld × Nat)) : State := l.foldl (fun t e => t.set e.1 e.2) s

/-- A field read as a signed number of its width. -/
def State.getI (s : State) (f : Fld) : Int := sgn f.len (s.get f)

/-- Stores a signed number in a field. -/
def State.setI (s : State) (f : Fld) (x : Int) : State := s.set f (unsgn f.len x)

/-! Events, R62, R68, R69 -/

/-- Bit b of EV_RAW of window w. -/
def State.ev (s : State) (w b : Nat) : Bool := s.on (F.EV_RAW w b)

/-- EV_OUT of window w as a number: EV_RAW and EV_MASK, R62. -/
def State.evOut (s : State) (w : Nat) : Nat :=
  (List.range 32).foldl (fun a b => if s.ev w b && bitOf (s.get (F.EV_MASK w)) b then a + 2 ^ b else a) 0

/-- The gateway of the interrupt source of window w: it asks once when the level is asserted and waits for completion,
R69, R345. -/
def State.plicSample (s : State) (w : Nat) (level : Bool) : State :=
  if level && !(s.apc.plicPend.contains (w + 1)) && (kget s.apc.plicSvc (w + 1)).isNone then
    { s with apc := { s.apc with plicPend := (w + 1) :: s.apc.plicPend } }
  else s

/-- An event occurs: its EV_RAW bit is set whatever the mask, R62, R68. -/
def State.raise (s : State) (w b : Nat) : State :=
  (s.set (F.EV_RAW w b) 1).plicSample w (bitOf (s.get (F.EV_MASK w)) b)

/-- An event occurs when c holds. -/
def State.raiseIf (s : State) (c : Bool) (w b : Nat) : State := if c then s.raise w b else s

/-! Counters, R73, R74 -/

/-- A saturating counter cnt with overflow bit ovf counts n: it sticks at all-ones, sets ovf and raises event ev of window
w once, on reaching it. -/
def State.satAdd (s : State) (cnt ovf : Fld) (w ev n : Nat) : State :=
  let m := 2 ^ cnt.len - 1
  let v := s.get cnt
  if v + n < m then s.set cnt (v + n)
  else if v = m then s
  else ((s.set cnt m).set ovf 1).raise w ev

/-- A saturating counter with no overflow bit. -/
def State.satAdd0 (s : State) (cnt : Fld) (w ev n : Nat) : State :=
  let m := 2 ^ cnt.len - 1
  let v := s.get cnt
  if v + n < m then s.set cnt (v + n)
  else if v = m then s
  else (s.set cnt m).raise w ev

/-- Counter at offset off of window w, with COUNT in [30:0] and OVF in [31]; ev is the block's CNTSAT event. -/
def State.bump (s : State) (w off ev : Nat) : State := s.satAdd (mkF w off 0 31 0) (mkF w off 31 1 0) w ev 1

/-- A wrapping counter field counts 1. -/
def State.wrapInc (s : State) (f : Fld) : State := s.set f (s.get f + 1)

/-! Requesters, R72 -/

/-- A requester as a number. -/
def rqKey (r : Rq) : Nat := r.cls * 256 + r.num % 256

/-- Whether a bus error reaches a requester of this class, R71. -/
def State.busErrs (s : State) (r : Rq) : Bool :=
  match r.cls with
  | 0 => s.on F.SYS_ERRPOL_CORES
  | 1 => s.on F.SYS_ERRPOL_ENGINES
  | 2 => s.on F.SYS_ERRPOL_DEBUG
  | _ => s.on F.SYS_ERRPOL_INTERNAL

/-- The bus answers v with no error. -/
def State.answer (s : State) (v : Nat) : State := { s with bus := { data := v, err := false, dark := false, ue := false } }

/-- An access that completes with a bus error for the classes that SYS_ERRPOL names, R71. -/
def State.answerErr (s : State) (r : Rq) (dark : Bool) : State :=
  { s with bus := { data := 0, err := s.busErrs r, dark := dark && !s.busErrs r, ue := false } }

/-- ERRINFO records the first access error after VALID was cleared, R63. -/
def State.errRec (s : State) (r : Rq) (w off cause : Nat) : State :=
  if s.on (F.ERRINFO_VALID w) then s
  else s.sets [(F.ERRINFO_CAUSE w, cause), (F.ERRINFO_RQCLASS w, r.cls), (F.ERRINFO_RQNUM w, r.num),
    (F.ERRINFO_OFFSET w, off / 4), (F.ERRINFO_VALID w, 1)]

/-- PWR records an access to a dark page (kind 0) or an unassigned address (kind 1), R70. -/
def State.darkRec (s : State) (r : Rq) (addr kind : Nat) : State :=
  if s.on F.PWR_STATUS_DARKACC then s.set F.PWR_STATUS_DARKOVF 1
  else s.sets [(F.PWR_DARKADDR_PAGE, addr / 4096), (F.PWR_DARKADDR_RQCLASS, r.cls), (F.PWR_DARKADDR_KIND, kind),
    (F.PWR_STATUS_DARKACC, 1)]

/-! Domains, R357 -/

/-- The domain of a window: 0 AON, 1 TIME, 2 MESH, 3 to 5 WLAN_A to WLAN_C, 6 MLD, 7 FABRIC, 8 to 13 COACH0 to COACH5,
14 the Coupler of LANES, 15 APC, 16 MEM, 20 to 27 the lanes of LANES, R357. -/
def winDom (w : Nat) : Nat :=
  if w = 0x02 || w = 0x05 then 1
  else if w = 0x13 || w = 0x14 || w = 0x15 then 2
  else if 0x10 ≤ w && w ≤ 0x12 then w - 0x10 + 3
  else if 0x18 ≤ w && w ≤ 0x1A then w - 0x18 + 3
  else if 0x1C ≤ w && w ≤ 0x1E then w - 0x1C + 3
  else if w = 0x1F then 6
  else if w = 0x20 || w = 0x28 || w = 0x29 || w = 0x16 then 7
  else if 0x21 ≤ w && w ≤ 0x26 then w - 0x21 + 8
  else if 0x30 ≤ w && w ≤ 0x37 then w - 0x30 + 20
  else if 0x38 ≤ w && w ≤ 0x3F then w - 0x38 + 20
  else if 0x40 ≤ w && w ≤ 0x47 then w - 0x40 + 20
  else if w = 0x48 then 14
  else if w = 0x50 || (0x08 ≤ w && w ≤ 0x0B) then 15
  else if w = 0x51 then 16
  else 0

/-- The state of a domain in the code of STATUS.DOMSTATE, R62. -/
def State.domSt (s : State) (d : Nat) : Nat := (kget s.doms d).getD 2

/-- Puts a domain in a state. -/
def State.setDom (s : State) (d st : Nat) : State :=
  { s with doms := if st = 2 then kdel s.doms d else kset s.doms d st }

/-- Whether the die runs: R45, R49, R377. -/
def State.live (s : State) : Bool :=
  match s.env.phase with
  | .boot => true
  | .safeHold => true
  | .software => true
  | _ => false

/-- Whether the domain of window w is on. -/
def State.winOn (s : State) (w : Nat) : Bool := s.live && s.domSt (winDom w) == 2

/-- Whether the block of window w operates: its domain is on and CTRL.ENABLE is 1, R62. -/
def State.enabled (s : State) (w : Nat) : Bool := s.winOn w && s.on (F.CTRL_ENABLE w)

/-- The windows of R55 that are assigned. -/
def winOk (w : Nat) : Bool :=
  (w ≤ 0x05) || (0x08 ≤ w && w ≤ 0x0B) || w == 0x0F || (0x10 ≤ w && w ≤ 0x16) || (0x18 ≤ w && w ≤ 0x1A)
    || (0x1C ≤ w && w ≤ 0x1F) || (0x20 ≤ w && w ≤ 0x26) || w == 0x28 || w == 0x29 || (0x30 ≤ w && w ≤ 0x48)
    || (0x50 ≤ w && w ≤ 0x52)

/-! The operation table, R66, R67 -/

/-- OPSTAT.STATE of window w. -/
def State.opSt (s : State) (w : Nat) : Nat := s.get (F.OPSTAT_STATE w)

/-- STATUS.BUSY: OPSTAT.STATE is Queued or Running, R62. -/
def State.busy (s : State) (w : Nat) : Bool := s.opSt w == 1 || s.opSt w == 2

/-- An operation ends in state st with a cause, and OPEND is set. -/
def State.opFinish (s : State) (w st cause : Nat) : State :=
  ((s.set (F.OPSTAT_STATE w) st).set (F.OPSTAT_CAUSE w) cause).raise w 31

/-- An operation ends Done. -/
def State.opDone (s : State) (w : Nat) : State := s.opFinish w 3 0

/-- An operation ends Failed with a cause. -/
def State.opFail (s : State) (w cause : Nat) : State := s.opFinish w 4 cause

/-- An operation ends Aborted with cause 2 when it is Queued or Running, R67. -/
def State.opKill (s : State) (w : Nat) : State := if s.busy w then s.opFinish w 5 2 else s

/-- Sets PROGRESS, a saturating counter, and PART. -/
def State.opUnits (s : State) (w n part : Nat) : State :=
  (s.set (F.OPSTAT_PROGRESS w) (min n (2 ^ 24 - 1))).set (F.OPPART w) part

/-- What START does, R67: its first rows are the domain and an operation in progress; valid judges the parameters, isFree
the resource. The new state is Running or Queued, with PROGRESS and PART 0. -/
def State.opStart (s : State) (r : Rq) (w : Nat) (valid isFree : Bool) : State :=
  if s.busy w then s.errRec r w 0x20 4
  else if !s.winOn w then s.errRec r w 0x20 4
  else if !valid then s.opFail w 3
  else ((s.opUnits w 0 0).set (F.OPSTAT_CAUSE w) 0).set (F.OPSTAT_STATE w) (if isFree then 2 else 1)

/-! Free values (log entry 5) -/

/-- The next free value, and the state with its counter advanced. -/
def State.fresh (s : State) : Nat × State := (Config.free s.free, { s with free := s.free + 1 })

/-- A pick among lo, ..., lo + n - 1 that the spec leaves open: a free value when it passes p, else the lowest that does. -/
def State.pick (s : State) (p : Nat → Bool) (n lo : Nat) : Option Nat × State :=
  let c := lo + s.fresh.1 % n
  if p c then (some c, s.fresh.2) else (firstFrom p n lo, s.fresh.2)

/-! Time -/

/-- The timebase in whole nanoseconds, R76. -/
def State.ns (s : State) : Nat := s.tm.tb / 2 ^ 32

/-- The timebase in whole microseconds. -/
def State.us (s : State) : Nat := s.ns / 1000

/-- The timebase in whole seconds. -/
def State.sec (s : State) : Nat := s.ns / 1000000000

/-! The ledger of FLT, R372 to R374 -/

/-- The window of the ledger in ns. -/
def State.fltWindow (s : State) : Nat := max 1 (s.get F.FLT_CFG_WINDOW) * 1000000000

/-- FLT's counter n: 0 UPSETS, 1 RETIRES, 2 STALLS, 3 RUNLONG, 4 STOPS, 5 LEDGERFULL. -/
def State.fltCnt (s : State) (n : Nat) : State := s.bump W.FLT (0xC0 + 4 * n) E.FLT_CNTSAT

/-- The ledger entry of a resource. -/
def State.ledger (s : State) (code : Nat) : Ledger := (kget s.flt.led code).getD { times := [], retired := false }

/-- Stores a ledger entry. -/
def State.setLedger (s : State) (code : Nat) (l : Ledger) : State := { s with flt := { s.flt with led := kset s.flt.led code l } }

/-- A code names a ledger resource, R374. -/
def State.fltCode (s : State) (code : Nat) : Bool :=
  let c := code / 256
  let u := code % 256
  (c == 0x10 && u ≤ 25) || (c == 0x21 && u ≤ 47) || (c == 0x30 && 4 ≤ u && u ≤ 7)
    || (c == 0x51 && u ≤ 15 && (kget s.flt.pages u).isSome)

/-- The times of events still in the window at a time. -/
def inWin (l : List Nat) (now win : Nat) : List Nat := l.filter fun t => now < t + win

/-- The page entry that takes an event of a page, R374: its own, a free one, or the oldest in service. -/
def State.pageEntry (s : State) (page : Nat) : Option Nat :=
  match s.flt.pages.find? fun e => e.2 == page with
  | some e => some e.1
  | none =>
    match (List.range 16).find? fun n => (kget s.flt.pages n).isNone with
    | some n => some n
    | none =>
      ((List.range 16).filter fun n => !(s.ledger (0x5100 + n)).retired).foldl (fun b n => match b with
        | none => some n
        | some m => if (s.ledger (0x5100 + n)).times.getLastD 0 < (s.ledger (0x5100 + m)).times.getLastD 0 then some n else some m)
        none

/-- FLT_LAST. -/
def State.fltLast (s : State) (code : Nat) (hard lasting : Bool) : State :=
  s.sets [(F.FLT_LAST_CODE, code), (F.FLT_LAST_HARD, b2n hard), (F.FLT_LAST_LASTING, b2n lasting),
    (F.FLT_LASTNS_NS, s.ns % 1000000000), (F.FLT_LASTSEC_SEC, s.sec)]

/-- An event of a resource with its code, R372, R373. -/
def State.fltTake (s : State) (code : Nat) (hard : Bool) : State :=
  let l := s.ledger code
  let times := inWin l.times s.ns s.fltWindow ++ [s.ns]
  if l.retired then (s.setLedger code { l with times := times }).fltLast code hard false
  else if hard || max 2 (s.get F.FLT_CFG_THRESH) ≤ times.length then
    let t := (((s.setLedger code { times := times, retired := true }).fltLast code hard true).fltCnt 1).raise W.FLT E.FLT_RETIRED
    if code / 256 = 0x51 then t.set (F.FLT_PAGE_RETIRED (code % 256)) 1 else t
  else (((s.setLedger code { l with times := times }).fltLast code hard false).fltCnt 0).raise W.FLT E.FLT_UPSET

/-- An event that a block reports, R372 to R374; a page event finds its entry first. -/
def State.fltEvent (s : State) (code page : Nat) (hard : Bool) : State :=
  if code / 256 = 0x51 then
    match s.pageEntry page with
    | none => (s.fltCnt 5).raise W.FLT E.FLT_LEDGERFULL
    | some n =>
      if kget s.flt.pages n = some page then s.fltTake (0x5100 + n) hard
      else
        let t := { s with flt := { s.flt with led := kdel s.flt.led (0x5100 + n), pages := kset s.flt.pages n page } }
        (t.sets [(F.FLT_PAGE_PAGE n, page), (F.FLT_PAGE_RETIRED n, 0), (F.FLT_PAGE_VALID n, 1)]).fltTake (0x5100 + n) hard
  else if s.fltCode code then s.fltTake code hard
  else s

/-- Whether FLT has retired a resource, R373. -/
def State.retired (s : State) (code : Nat) : Bool :=
  match kget s.flt.led code with
  | some l => l.retired
  | none => false

/-! Memory, R54, R346 -/

/-- SRAM. -/
def inSram (a : Nat) : Bool := 0x10000000 ≤ a && a < 0x14000000

/-- DRAM. -/
def inDram (a : Nat) : Bool := 0x8000000000 ≤ a && a < 0x8400000000

/-- The settings store window. -/
def inNvs (a : Nat) : Bool := 0x20000000 ≤ a && a < 0x22000000

/-- The boot ROM. -/
def inRom (a : Nat) : Bool := a < 0x10000

/-- The register windows. -/
def inRegs (a : Nat) : Bool := 0x40000000 ≤ a && a < 0x50000000

/-- The board region, R147. -/
def inBoard (a : Nat) : Bool := 0x13800000 ≤ a && a < 0x14000000

/-- The short-address map and the frame-counter shadow, R169. -/
def inMap (a : Nat) : Bool := 0x13500000 ≤ a && a < 0x13800000

/-- The octet at an address; an unlisted address reads 0 (R385, R386). -/
def State.peek (s : State) (a : Nat) : Byte := (kget s.mem a).getD 0

/-- Memory with octet b at address a, in canonical form. -/
def memPut (m : List Host.Cell) (a : Nat) (b : Byte) : List Host.Cell := if b = 0 then kdel m a else kset m a b

/-- Memory with octets written from address a upward. -/
def memPuts : List Host.Cell → Nat → List Byte → List Host.Cell
  | m, _, [] => m
  | m, a, b :: t => memPuts (memPut m a b) (a + 1) t

/-- The canonical form of memory: addresses strictly rising and no octet 0 listed. -/
def Memory.wf (m : List Host.Cell) : Bool := kok (fun _ b => b != 0) m

/-- The memory at a physical address is dark: its domain is not on. -/
def State.memDark (s : State) (a : Nat) : Bool := (inSram a || inDram a) && s.domSt 16 != 2

/-- The octets at a, ..., a + n - 1. -/
def State.peeks (s : State) (a n : Nat) : List Byte := (List.range n).map fun i => s.peek (a + i)

/-- The little-endian number of n octets at a. -/
def State.peekN (s : State) (a n : Nat) : Nat := ofLE (s.peeks a n)

/-- The mirror window that holds address a, R348. -/
def State.mirrorOf (s : State) (a : Nat) : Option Nat :=
  (List.range 4).find? fun w =>
    let b := 0x8000000000 + s.get (F.MEM_MIRROR_BASE w) * 0x100000
    s.on (F.MEM_MIRROR_VALID w) && b ≤ a && a < b + s.get (F.MEM_MIRROR_SIZE w) * 0x100000

/-- Whether one of the 64-bit words that hold octets a to a + n - 1 holds an uncorrectable error, R347. -/
def State.ueIn (s : State) (a n : Nat) : Bool := s.ram.ue.any fun u => u / 8 * 8 + 7 ≥ a && u / 8 * 8 < a + n

/-- MEM's record of an uncorrectable error found in the word at a, R347: the address of the first one, its counts, FLT. -/
def State.ueReport (s : State) (a : Nat) : State :=
  let t := ((s.bump W.MEM (0xC0 + 4 * 3) E.MEM_CNTSAT).bump W.MEM (0xC0 + 4 * (if inSram a then 10 else 11)) E.MEM_CNTSAT).raise W.MEM E.MEM_UE
  let t := if t.on F.MEM_UEADDRHI_VALID then t
    else t.sets [(F.MEM_UEADDRLO_ADDR, a % 2 ^ 32 / 8), (F.MEM_UEADDRHI_ADDR, a / 2 ^ 32), (F.MEM_UEADDRHI_VALID, 1)]
  t.fltEvent 0x5100 (a / 4096) false

/-- A read meets uncorrectable words among octets a to a + n - 1, R347: the primary of a mirror window is rewritten from a good
secondary (MIRRORFIX), any other is reported. -/
def State.ueHit (s : State) (a n : Nat) : State :=
  (s.ram.ue.filter fun u => u / 8 * 8 + 7 ≥ a && u / 8 * 8 < a + n).foldl (fun t u =>
    let b := u / 8 * 8
    if (t.mirrorOf b).isSome && !t.ueIn (b + 0x200000000) 8 then
      ({ t with mem := memPuts t.mem b (t.peeks (b + 0x200000000) 8),
                ram := { t.ram with ue := t.ram.ue.filter fun v => v / 8 * 8 != b } }).bump W.MEM (0xC0 + 4 * 4) E.MEM_CNTSAT
    else t.ueReport b) s

/-- Writes octets to one copy, R347: words written whole are good again; a part of an uncorrectable word takes no effect and is
reported. -/
def State.pokeOne (s : State) (a : Nat) (l : List Byte) : State :=
  if !s.ueIn a l.length then { s with mem := memPuts s.mem a l }
  else
    let whole := fun u => decide (a ≤ u / 8 * 8 ∧ u / 8 * 8 + 8 ≤ a + l.length)
    let t := { s with ram := { s.ram with ue := s.ram.ue.filter fun u => !whole u } }
    let m := ((List.range l.length).zip l).foldl (fun m e => if t.ueIn (a + e.1) 1 then m else memPut m (a + e.1) e.2) s.mem
    ({ t with mem := m }).ueHit a l.length

/-- Writes octets to memory, to both copies where a mirror window holds the address (R348). -/
def State.poke (s : State) (a : Nat) (l : List Byte) : State :=
  match s.mirrorOf a with
  | some _ => ((s.ueHit a l.length).pokeOne a l).pokeOne (a + 0x200000000) l
  | none => s.pokeOne a l

/-- Writes the little-endian number v in n octets at a. -/
def State.pokeN (s : State) (a n v : Nat) : State := s.poke a (toLE n v)

/-! The frame pool, R349, R350 -/

/-- The octets of a buffer of class k. -/
def bufSize (k : Nat) : Nat := match k with | 0 => 320 | 1 => 2176 | 2 => 9344 | _ => 16448

/-- The data octets of a buffer of class k. -/
def bufData (k : Nat) : Nat := match k with | 0 => 256 | 1 => 2112 | 2 => 9280 | _ => 16384

/-- The number of buffers of class k in force. -/
def State.bufCount (s : State) (k : Nat) : Nat := s.ram.counts.getD k 0

/-- The handle of buffer j of class k: its address less the base of SRAM, in units of 64 octets. -/
def State.bufHandle (s : State) (k j : Nat) : Nat :=
  1 + (List.range k).foldl (fun a i => a + s.bufCount i * (bufSize i / 64)) 0 + j * (bufSize k / 64)

/-- The address of a handle. -/
def handleAddr (h : Nat) : Nat := 0x10000000 + 64 * h

/-- The free buffers of class k. -/
def State.bufFree (s : State) (k : Nat) : Nat := s.bufCount k - (s.ram.pool.filter fun e => e.2 == k).length

/-- The smallest class that holds n data octets. -/
def classFor (n : Nat) : Nat := if n ≤ 256 then 0 else if n ≤ 2112 then 1 else if n ≤ 9280 then 2 else 3

/-- Allocates a buffer for n data octets, R350: the smallest class that fits, else the next larger that has one; CHAIN of
its header takes the class. none counts NOBUF for the class first asked. -/
def State.bufAlloc (s : State) (n : Nat) : Option Nat × State :=
  match (List.range 4).find? fun k => classFor n ≤ k && 0 < s.bufFree k with
  | none => (none, s.bump 0x51 (0xC0 + 4 * (5 + classFor n)) E.MEM_CNTSAT)
  | some k =>
    let p := s.pick (fun j => (kget s.ram.pool (s.bufHandle k j)).isNone) (s.bufCount k) 0
    match p.1 with
    | none => (none, p.2)
    | some j =>
      let h := s.bufHandle k j
      (some h, ({ p.2 with ram := { p.2.ram with pool := kset p.2.ram.pool h k } }).pokeN (handleAddr h + 4) 4 k)

/-- A request that is not answered yet writes to a buffer, R261, R329. -/
def State.bufAimed (s : State) (h : Nat) : Bool :=
  s.yard.reqs.any fun r => r.words.getD (if r.sec then 2 else 3) 0 % 2 ^ 20 == h

/-- Returns a buffer to the pool, or once the requests that write to it are answered, R238, R261. -/
def State.bufRelease (s : State) (h : Nat) : State :=
  if s.bufAimed h then { s with ram := { s.ram with late := h :: s.ram.late } }
  else { s with ram := { s.ram with pool := kdel s.ram.pool h } }

/-- Takes a request off the list; buffers that waited for it return, R261. -/
def State.reqTake (s : State) (r : Req) : State :=
  let t := { s with yard := { s.yard with reqs := s.yard.reqs.erase r } }
  let go := t.ram.late.filter fun h => !t.bufAimed h
  { t with ram := { t.ram with late := t.ram.late.filter fun h => t.bufAimed h, pool := go.foldl kdel t.ram.pool } }

end Sys2Proof.Machine
end

