-- ==== Sys2Proof/Machine/Rfe.lean ====
section
/-!
DEFINITION. The front-end blocks: paths, tuning and calibration entries, surveys, cancellation and coexistence: spec/05, R104
to R122.
-/

namespace Sys2Proof.Machine

/-- A path with nothing in progress. -/
def pathIdle : PathS := { nxt := none, goal := 0, presel := [], tuneEnd := 0, txs := [], status := 0, fg := false, bg := none }

/-- Path p of instance r. -/
def State.path (s : State) (r p : Nat) : PathS := (kget s.rfe.paths (3 * r + p)).getD pathIdle

/-- Stores a path. -/
def State.setPath (s : State) (r p : Nat) (x : PathS) : State :=
  { s with rfe := { s.rfe with paths := kset s.rfe.paths (3 * r + p) x } }

/-- The paths of an instance, R104. -/
def pathsOf (r : Nat) : Nat := if r = 3 then 3 else 1

/-- RFE_PATHSTAT.STATE. -/
def State.pst (s : State) (r p : Nat) : Nat := s.get (F.RFE_PATHSTAT_STATE r p)

/-- The times of R106 in ns, by state codes; 0 where the state already holds. -/
def transTime (r p a b : Nat) : Nat :=
  let k := if r < 3 then 0 else p + 1
  match a, b with
  | 0, 1 => 300000
  | 1, 2 => 1500000
  | 2, 3 => if k = 0 then 2000 else 4000
  | 2, 4 => if k = 0 then 2000 else 6000
  | 3, 4 => if k = 0 then 2000 else 8000
  | 4, 3 => if k = 0 then 2000 else 8000
  | 3, 2 => if k ≤ 1 then 1000 else 2000
  | 4, 2 => if k ≤ 1 then 1000 else 2000
  | 2, 1 => 10000
  | _, 0 => 20000
  | _, _ => 0

/-- The next state on the way from state a to state b, R106, R107. -/
def hop (a b : Nat) : Nat :=
  if a = b then a
  else if b = 0 then 0
  else match a with
    | 0 => 1
    | 1 => 2
    | 2 => b
    | 3 => if b = 4 then 4 else 2
    | 4 => if b = 3 then 3 else 2
    | _ => 2

/-- Sets the state a path is bound for and starts the first transition towards it. -/
def State.pathGo (s : State) (r p goal : Nat) : State :=
  let x := s.path r p
  let a := s.pst r p
  s.setPath r p { x with goal := goal, nxt := if a = goal then none else some (hop a goal) }

/-- The state REST names, R107: Sleep, Ready or Rx. -/
def State.rest (s : State) (r p : Nat) : Nat := s.get (F.RFE_PATHCFG_REST r p) + 1

/-- The state AFTERTX or AFTERRX names: Rx, Ready or REST. -/
def State.after (s : State) (r p code : Nat) : Nat := match code with | 0 => 3 | 1 => 2 | _ => s.rest r p

/-- Something accepted on a path is due at t: it has no launch time, or its launch time has come, R110. -/
def txDue (l : List TxCmd) (t : Nat) : Bool := l.any fun d => !d.timed || decide (d.at' ≤ t)

/-- PATH_TRANSITION_DONE, R106, R107, R110: the new state holds; the path goes on towards the state it is bound for, from Sleep to
Ready when REST is Ready or Rx, and from Ready or Rx to Tx while it has accepted transmissions, with the first launch. -/
def State.pathArrive (s : State) (r p : Nat) : State :=
  let x := s.path r p
  match x.nxt with
  | none => s
  | some st =>
    if st = 4 && !txDue x.txs s.ns then s
    else
      let goal := if st = 1 && x.goal = 1 then s.rest r p else if (st = 2 || st = 3) && !x.txs.isEmpty then 4 else x.goal
      (s.set (F.RFE_PATHSTAT_STATE r p) st).pathGo r p goal

/-- A path that has accepted a transmission is bound for Tx; in Tx it stays, or comes back from where AFTERTX leads, R107, R110. -/
def State.txBound (s : State) (r p : Nat) : State := if s.pst r p = 4 then s else s.pathGo r p 4

/-- A path bound for Tx with nothing left to send stays in its state, or in the Ready it is on its way to, R110. -/
def State.pathHold (s : State) (r p : Nat) : State :=
  let x := s.path r p
  let st := s.pst r p
  if x.txs.isEmpty && x.goal = 4 && st ≠ 4 then
    (if x.nxt = some 2 then s.setPath r p { x with goal := 2 } else s.setPath r p { x with goal := st, nxt := none })
  else s

/-! Calibration entries, R111 -/

/-- Word w of entry i of instance r. -/
def State.calW (s : State) (r i w : Nat) : Nat := (kget s.rfe.cal ((r * 256 + i) * 4 + w)).getD 0

/-- Stores a word of an entry. -/
def State.setCalW (s : State) (r i w v : Nat) : State :=
  { s with rfe := { s.rfe with cal := if v = 0 then kdel s.rfe.cal ((r * 256 + i) * 4 + w)
                                      else kset s.rfe.cal ((r * 256 + i) * 4 + w) v } }

def calFreq (w : Nat) : Nat := bitsOf w 0 24
def calPath (w : Nat) : Nat := bitsOf w 24 2
def calValid (w : Nat) : Bool := bitOf w 26
def calStale (w : Nat) : Bool := bitOf w 27
def calWidth (w : Nat) : Nat := bitsOf w 28 3

/-- The distance of two numbers. -/
def dist (a b : Nat) : Nat := a - b + (b - a)

/-- Whether entry word w serves frequency f on path p of instance r, R109. -/
def calServes (r p f width w : Nat) : Bool :=
  calValid w && calPath w == p &&
    (if r = 3 then dist (calFreq w) f ≤ (if p = 2 then 2500 else 4000) else calFreq w == f && calWidth w == width)

/-- The valid entry whose FREQ is nearest f, the lower index winning a tie, R109. -/
def State.calFind (s : State) (r p f width : Nat) : Option Nat :=
  (List.range (if r = 3 then 256 else 64)).foldl (fun best i =>
    if calServes r p f width (s.calW r i 0) then
      match best with
      | none => some i
      | some b => if dist (calFreq (s.calW r i 0)) f < dist (calFreq (s.calW r b 0)) f then some i else best
    else best) none

/-- Counts NOCAL and raises it, R109, R110. -/
def State.nocal (s : State) (r : Nat) : State :=
  (s.satAdd (F.RFE_CNT1_NOCAL r) (F.RFE_CNT1_NOVF r) (W.RFE r) E.RFE_CNTSAT 1).raise (W.RFE r) E.RFE_NOCAL

/-- The time in ns a retune takes, R109. -/
def tuneTime (r : Nat) : Nat := if r = 3 then 20000 else 5000

/-- The key of a filter: a sub-GHz transmit port has one of its own, a WLAN path one for all its ports, R109. -/
def preselKey (r port : Nat) : Nat := if r = 3 then port else 0

/-- PRESEL of an entry. -/
def State.preselOf (s : State) (r i : Nat) : Nat := s.calW r i 1 / 65536

/-- An entry asks for a retune: its code differs from the code in force; path 2 has a fixed filter, and the receive preselector follows
the capture windows alone, R109. -/
def State.retunes (s : State) (r p port i : Nat) : Bool :=
  (r != 3 || p == 1) && (kget (s.path r p).presel (preselKey r port)).getD 0 != s.preselOf r i

/-- A filter is set to an entry's code; a retune that this takes shows in TUNING until its end. -/
def State.retune (s : State) (r p port i : Nat) (tEnd : Nat) : State :=
  let x := s.path r p
  if s.retunes r p port i then
    (s.setPath r p { x with presel := kset x.presel (preselKey r port) (s.preselOf r i), tuneEnd := tEnd }).set (F.RFE_PATHSTAT_TUNING r p) 1
  else s

/-- A receive selects its entry, R109; with no usable one it goes on and counts NOCAL. A WLAN path retunes to the entry's code. -/
def State.rxEntry (s : State) (r p freq width : Nat) : State :=
  match s.calFind r p freq width with
  | none => s.nocal r
  | some i => (if r < 3 then s.retune r p 0 i (s.ns + tuneTime r) else s).set (F.RFE_PATHSTAT_ENTRY r p) i

/-- PATH_RX_COMMAND, R107, R109, R13: receive in Sleep or Ready, or leave Sleep; without effect in any other state and while a
transmission is due. -/
def State.pathRx (s : State) (r p : Nat) (rx : Bool) : Option State :=
  let st := s.pst r p
  let x := s.path r p
  if !s.enabled (W.RFE r) || x.nxt == some 0 || (x.nxt == some 4 && txDue x.txs (s.ns + 8000)) then none
  else if !rx then (if st = 1 then some (s.pathGo r p 2) else none)
  else if (st = 1 || st = 2) && !(r = 3 && p = 1) then some (s.pathGo r p 3)
  else none

/-! Calibration that yields, R110, R112 -/

/-- A path receives a packet, or has detected its preamble. -/
def State.receiving (s : State) (r p : Nat) : Bool :=
  if r < 3 then (match kget s.wl.rx r with | some x => x.st != 0 | none => false)
  else s.mphy.lis.any fun e => (if e.1 < 256 then 0 else 2) == p && decide (4 ≤ e.2.st)

/-- Calibration may work on a path: it neither sends, nor is to send, nor receives a packet, R112. -/
def State.calFree (s : State) (r p : Nat) : Bool :=
  let st := s.pst r p
  (st == 1 || st == 2 || st == 3) && (s.path r p).txs.isEmpty && !s.receiving r p

/-- A background step or a sweep entry is in progress on a path: BGSTEP. -/
def State.calStep (s : State) (r p : Nat) : Bool :=
  s.calFree r p && ((s.path r p).bg.isSome
    || (s.opSt (W.RFE r) == 2 && s.get (F.RFE_OPSEL_OP r) == 0 && s.get (F.RFE_OPSEL_PATH r) == p))

/-! Transmit commands, R109, R110 -/

/-- The edges of a command's occupied band in kHz, R109. -/
def txLo (c : TxCmd) : Nat := c.freq - c.bw / 2
def txHi (c : TxCmd) : Nat := c.freq + (c.bw + 1) / 2

/-- Whether the air times of two commands overlap. -/
def txMeets (a b : TxCmd) : Bool := a.at' < b.at' + b.dur && b.at' < a.at' + a.dur

/-- Whether the band fits one 40 MHz span with the carriers of the port whose air times overlap, R109. -/
def spanOk (c : TxCmd) (l : List TxCmd) : Bool :=
  let m := c :: l.filter fun d => d.port == c.port && txMeets c d
  m.foldl (fun a d => max a (txHi d)) 0 ≤ m.foldl (fun a d => min a (txLo d)) (txLo c) + 40000

/-- The end of the last accepted carrier's air time on a path. -/
def PathS.airEnd (x : PathS) : Nat := x.txs.foldl (fun a d => max a (d.at' + d.dur)) 0

/-- Until when accepted carriers keep a path on the air from time t, one taking over from another. -/
def airReach (l : List TxCmd) : Nat → Nat → Nat
  | 0, t => t
  | n + 1, t => airReach l n ((l.filter fun d => decide (d.at' ≤ t)).foldl (fun a d => max a (d.at' + d.dur)) t)

/-- Whether accepted carriers keep the path on the air from now until T, R110. -/
def covered (l : List TxCmd) (now t : Nat) : Bool :=
  (l.any fun d => decide (d.at' ≤ now ∧ now ≤ d.at' + d.dur)) && decide (t ≤ airReach l l.length now)

/-- The frequency range of a transmit port in kHz, R33. -/
def portRange (port : Nat) : Nat × Nat :=
  if port < 4 then (2400000, 2483500) else if port < 12 then (5150000, 5895000) else if port < 20 then (5925000, 7125000)
  else if port = 20 then (400000, 520000) else if port = 21 then (750000, 960000) else (2400000, 2483500)

/-- A port covers a frequency, R33. -/
def portCovers (port f : Nat) : Bool := (portRange port).1 ≤ f && f ≤ (portRange port).2

/-- The end of the air times accepted on a port of a path. -/
def portEnd (l : List TxCmd) (port t : Nat) : Nat :=
  (l.filter fun d => d.port == port).foldl (fun a d => max a (d.at' + d.dur)) t

/-- The transition a command needs, R110: from the state that holds, or in Tx from the state AFTERTX leads to. -/
def State.txTrans (s : State) (r p now t : Nat) : Nat × Nat :=
  let x := s.path r p
  let st := s.pst r p
  if st = 4 then
    if covered x.txs now t then (now, 0)
    else
      let a := s.after r p (s.get (F.RFE_PATHCFG_AFTERTX r p))
      let from' := max now x.airEnd
      (from', if a = 1 then transTime r p 1 2 + transTime r p 2 4 else transTime r p a 4)
  else (now, transTime r p (max 2 st) 4)

/-- COEXCFG.EN. -/
def State.coexOn (s : State) : Bool := s.on (F.RFE_COEXCFG_EN 3)

/-- Whether SCOPE names a path: bits for Radio A, B, C, the sub-GHz mesh and the 2.4 GHz mesh. -/
def State.coexScope (s : State) (r p : Nat) : Bool :=
  s.coexOn && bitOf (s.get (F.RFE_COEXCFG_SCOPE 3)) (if r < 3 then r else if p = 2 then 4 else 3)

/-- LEAD in ns. -/
def State.coexLeadNs (s : State) : Nat := 1000 * s.get (F.RFE_COEXCFG_LEAD 3)

/-- When a retune that a command needs, or that is in progress, has ended: a sub-GHz port retunes only while no carrier is active on it,
R109. -/
def State.tuneDone (s : State) (r p : Nat) (c : TxCmd) (i : Nat) : Nat :=
  let x := s.path r p
  let busy := if s.on (F.RFE_PATHSTAT_TUNING r p) then max s.ns x.tuneEnd else s.ns
  if s.retunes r p c.port i then (if r = 3 then portEnd x.txs c.port busy else busy) + tuneTime r else busy

/-- Rows 1 to 6 of R110 for a command that reaches the path now: the status (0 accepted, 1 BUSY, 2 NOCAL, 3 SPAN, 4 LATE)
and the command with its launch time. A scoped transmission without one takes it LEAD after its commit, R121. -/
def State.txCheck (s : State) (r p : Nat) (c : TxCmd) : Nat × TxCmd :=
  let x := s.path r p
  let st := s.pst r p
  let now := s.ns
  if st = 0 || st = 5 || x.nxt == some 0 || !s.enabled (W.RFE r) then (1, c)
  else if !portCovers c.port c.freq then (2, c)
  else match s.calFind r p c.freq c.width with
    | none => (2, c)
    | some i =>
      let c1 := { c with at' := if c.timed then c.at' else now }
      if r = 3 && p = 1 && !spanOk c1 x.txs then (3, c)
      else
        let stop := if s.calStep r p then 1000 else 0
        let tune := s.tuneDone r p c i
        let ready := if st = 1 then max tune (now + transTime r p 1 2) else tune
        let tr := s.txTrans r p ready c1.at'
        let first := tr.1 + tr.2 + stop
        if !c.timed then (0, { c with at' := if s.coexScope r p then max first (now + s.coexLeadNs) else first })
        else if first ≤ c.at' then (0, c) else (4, c)

/-- Counts a refusal of R110 with its event; a refusal COEX counts in RFE_M, which alone has the coexistence fields (R122). -/
def State.txRefuse (s : State) (r status : Nat) : State :=
  match status with
  | 1 => s.satAdd (F.RFE_CNT0_BUSY r) (F.RFE_CNT0_BOVF r) (W.RFE r) E.RFE_CNTSAT 1
  | 2 => s.nocal r
  | 3 => (s.satAdd (F.RFE_CNT1_SPAN r) (F.RFE_CNT1_SOVF r) (W.RFE r) E.RFE_CNTSAT 1).raise (W.RFE r) E.RFE_SPAN
  | 4 => s.satAdd (F.RFE_CNT0_LATE r) (F.RFE_CNT0_LOVF r) (W.RFE r) E.RFE_CNTSAT 1
  | 5 => (s.satAdd (F.RFE_CNT2_COEX 3) (F.RFE_CNT2_COVF 3) (W.RFE 3) E.RFE_CNTSAT 1).raise (W.RFE 3) E.RFE_COEXDENY
  | _ => s

/-- A command is taken by the path: recorded with its entry, its filter set to the entry's code, a background step stopped, R109,
R110. -/
def State.txAccept (s : State) (r p : Nat) (c : TxCmd) : State :=
  match s.calFind r p c.freq c.width with
  | none => s
  | some i =>
    let t := s.retune r p c.port i (s.tuneDone r p c i)
    (t.setPath r p { t.path r p with txs := (s.path r p).txs ++ [c], status := 0, bg := none }).set (F.RFE_PATHSTAT_ENTRY r p) i

/-- The status of the last command to a path. -/
def State.txStatus (s : State) (r p st : Nat) : State := s.setPath r p { s.path r p with status := st }

/-- The index in RFE_REFLn of a port of LIM_PORTSEL, R116. -/
def reflIdx (port : Nat) : Nat :=
  if port < 4 then port else if port < 12 then port - 4 else if port < 20 then port - 12 else port - 20

/-- The instance and path of a transmit port of LIM_PORTSEL, R104. -/
def portPath (port : Nat) : Nat × Nat :=
  if port < 4 then (0, 0) else if port < 12 then (1, 0) else if port < 20 then (2, 0)
  else if port < 22 then (3, 1) else (3, 2)

/-- RETURN_LOSS_MEASURE, R116: each transmitting port's return loss in 0.25 dB; below THR it sets LOW and raises REFLLOW. -/
def State.reflMeas (s : State) (r : Nat) (rl : List (Nat × Nat)) : State :=
  rl.foldl (fun t e =>
    let low := e.2 < t.get (F.RFE_REFLCFG_THR r)
    ((t.set (F.RFE_REFL_RL r e.1) e.2).set (F.RFE_REFL_LOW r e.1) (b2n low)).raiseIf low (W.RFE r) E.RFE_REFLLOW) s

/-- The taps adapt from a transmission of a mesh port, R117: unless held, each tap of its two coupling paths takes a free
value; CONV rises once the cumulative transmit time has reached 2 ms. -/
def State.tapsAdapt (s : State) (port dur : Nat) : State :=
  if !s.on (F.RFE_CANCCFG_EN 3) || s.on (F.RFE_CANCCFG_HOLD 3) || port < 20 || 21 < port then s
  else
    let n := (kget s.rfe.txTime port).getD 0 + dur
    let t := { s with free := s.free + 128 }
    let k := 2 * (port - 20)
    let t := { t with rfe := { t.rfe with txTime := kset t.rfe.txTime port n,
                                          taps := (List.range 128).foldl (fun m j => kset m (64 * k + j) (Config.free (s.free + j) % 2 ^ 40)) t.rfe.taps } }
    if 2000000 ≤ n then (t.set (F.RFE_CANCSTAT_CONV 3 k) 1).set (F.RFE_CANCSTAT_CONV 3 (k + 1)) 1 else t

/-- The return loss of transmitting ports that no command brings: each a free value, R116. -/
def State.reflAir (s : State) (r : Nat) (ports : List Nat) : State :=
  ports.foldl (fun t port => t.fresh.2.reflMeas r [(reflIdx port, t.fresh.1 % 256)]) s

/-- The cancellation measured during a transmission of a sub-GHz port on its two coupling paths, R117. -/
def State.cancMeas (s : State) (port : Nat) (l : List CancMeas) : State :=
  if !s.on (F.RFE_CANCCFG_EN 3) || port < 20 || 21 < port then s
  else (l.filter fun m => m.k / 2 + 20 == port).foldl (fun t m =>
    let high := decide (20 < m.coupled)
    let t := ((t.set (F.RFE_CANCSTAT_ACHIEVED 3 m.k) m.achieved).setI (F.RFE_CANCSTAT_COUPLED 3 m.k) m.coupled).set
      (F.RFE_CANCSTAT_OVER 3 m.k) (b2n high)
    t.raiseIf (m.achieved < 4 * t.get (F.RFE_CANCCFG_MIN 3)) (W.RFE 3) E.RFE_CANCLOSS) s

/-- A scoped transmission is on the air. -/
def State.coexOnAir (s : State) : Bool :=
  s.rfe.paths.any fun e => s.coexScope (e.1 / 3) (e.1 % 3) && e.2.txs.any fun d => decide (d.at' ≤ s.ns)

/-- Something scoped keeps the hold of the band: a transmission within LEAD of its start, with RXREQ a receive square, R120, R121. -/
def State.coexMore (s : State) : Bool :=
  (s.rfe.paths.any fun e => s.coexScope (e.1 / 3) (e.1 % 3) && e.2.txs.any fun d => decide (d.at' ≤ s.ns + s.coexLeadNs))
    || (s.on (F.RFE_COEXCFG_RXREQ 3) && s.mphy.lis.any fun e => e.2.cur.isSome && s.coexScope 3 (if e.1 < 256 then 0 else 2))

/-- The hold of the band ends after the last symbol on the air when no other scoped activity starts within LEAD, or when an external
request waits for it, R120, R121. -/
def State.coexRelease (s : State) : State :=
  if !s.coexOnAir && (s.rfe.coex.ending || !s.coexMore) then
    { s with rfe := { s.rfe with coex := { s.rfe.coex with hold := none, ending := false, reqOut := false } } }
  else s

/-- PATH_TX_END, R107, R117, R120: the last symbol of transmission id leaves the port. When nothing else is on the air on the path,
AFTERTX applies. -/
def State.txEnd (s : State) (r p id : Nat) (canc : List CancMeas) : State :=
  let x := s.path r p
  match x.txs.find? fun d => d.id == id with
  | none => s
  | some c =>
    let rest := x.txs.filter fun d => d.id != id
    let t := s.setPath r p { x with txs := rest }
    let t := if r = 3 then (t.tapsAdapt c.port c.dur).cancMeas c.port canc else t
    let t := if t.coexScope r p then t.coexRelease else t
    if !(rest.any fun d => decide (d.at' ≤ s.ns)) && s.pst r p = 4 then
      t.pathGo r p (t.after r p (t.get (F.RFE_PATHCFG_AFTERTX r p)))
    else t

/-- The owner releases a path, R107. -/
def State.pathFree (s : State) (r p : Nat) : State :=
  let st := s.pst r p
  if st = 2 || st = 3 || st = 4 then s.pathGo r p (s.rest r p) else s

/-- Everything a path transmits or has accepted ends with a status, R107, R115. -/
def State.pathCut (s : State) (r p st : Nat) : State := s.setPath r p { s.path r p with txs := [], status := st, bg := none }

/-- CTRL.ENABLE of a front end, R107: 1 takes its paths out of Off; 0 stops its transmitters, fails its operation with cause
6 and takes its paths to Off. -/
def State.rfeEnable (s : State) (r : Nat) (en : Bool) : State :=
  let t := (List.range (pathsOf r)).foldl (fun t p =>
    if en then (if t.pst r p = 0 && !(r < 3 && s.get F.CPL_STAT_STATE == 5) then t.pathGo r p 1 else t)
    else (t.pathCut r p 6).pathGo r p 0) s
  if !en && t.opSt (W.RFE r) == 2 then t.opFail (W.RFE r) 6 else t

/-! Operations, R112, R113 -/

/-- The number of entries of an instance. -/
def entriesOf (r : Nat) : Nat := if r = 3 then 256 else 64

/-- COUNT of OPSEL, 0 meaning 256. -/
def State.opCount (s : State) (r : Nat) : Nat :=
  if s.get (F.RFE_OPSEL_COUNT r) = 0 then 256 else s.get (F.RFE_OPSEL_COUNT r)

/-- The path and range of OPSEL are in range, R112, R122. -/
def State.opRange (s : State) (r : Nat) : Bool :=
  s.get (F.RFE_OPSEL_PATH r) < pathsOf r && s.get (F.RFE_OPSEL_FIRST r) + s.opCount r ≤ entriesOf r

/-- An operation of a path in Off fails with cause 6, R112; c is a further reason for cause 6. -/
def State.rfeStart (s : State) (rq : Rq) (r : Nat) (valid c : Bool) : State :=
  let t := s.opStart rq (W.RFE r) valid true
  if t.opSt (W.RFE r) == 2 && s.opSt (W.RFE r) != 2 && (s.pst r (s.get (F.RFE_OPSEL_PATH r)) = 0 || c) then
    t.opFail (W.RFE r) 6
  else t

/-- Entries of the range that the sweep passes over at once because their PATH is another, R112. -/
def State.sweepSkip (s : State) (r : Nat) : Nat → State
  | 0 => s
  | n + 1 =>
    let k := s.get (F.OPSTAT_PROGRESS (W.RFE r))
    let i := s.get (F.RFE_OPSEL_FIRST r) + k
    if k < s.opCount r && r = 3 && calPath (s.calW r i 0) ≠ s.get (F.RFE_OPSEL_PATH r) then
      (s.opUnits (W.RFE r) (k + 1) i).sweepSkip r n
    else s

/-- The sweep is Done once every entry of its range is, R112. -/
def State.sweepEnd (s : State) (r : Nat) : State :=
  if s.get (F.OPSTAT_PROGRESS (W.RFE r)) < s.opCount r then s else s.opDone (W.RFE r)

/-- START with OP = 0, R112, R389: a path not foreground-calibrated since its domain came on fails with cause 6; entries of another
PATH count as done at once. -/
def State.startSweep (s : State) (rq : Rq) (r : Nat) : State :=
  let t := s.rfeStart rq r (s.opRange r) (!(s.path r (s.get (F.RFE_OPSEL_PATH r))).fg)
  if t.opSt (W.RFE r) == 2 && s.opSt (W.RFE r) != 2 then (t.sweepSkip r 256).sweepEnd r else t

/-- The words of an entry after its calibration, R111, R112. -/
def State.calStore (s : State) (r i : Nat) (m : CalMeas) : State :=
  let w0 := s.calW r i 0
  let base := bitsOf w0 0 26 + bitsOf w0 28 4 * 2 ^ 28
  let t := s.setCalW r i 0 (base + if m.result = 0 then 2 ^ 26 else 0)
  let t := t.setCalW r i 1 (m.gain % 65536 + m.presel % 65536 * 65536)
  let t := t.setCalW r i 2 (m.txpwr % 65536 + m.dpdset % 65536 * 65536)
  let t := t.setCalW r i 3 (s.get F.PINS_BASETEMP_TEMP + min m.result 1 * 65536)
  { t with rfe := { t.rfe with calAt := kset t.rfe.calAt (r * 256 + i) s.ns } }

/-- SWEEP_ENTRY_DONE, R112: the entry takes its trims, PROGRESS and OPPART advance, and the last entry ends the sweep. While the path
has something to send or receives a packet the entry has stopped and reruns later (R110). -/
def State.sweepStep (s : State) (r : Nat) (m : CalMeas) : State :=
  let w := W.RFE r
  let k := s.get (F.OPSTAT_PROGRESS w)
  let i := s.get (F.RFE_OPSEL_FIRST r) + k
  if s.opSt w == 2 && s.get (F.RFE_OPSEL_OP r) = 0 && k < s.opCount r && s.calFree r (s.get (F.RFE_OPSEL_PATH r)) then
    (((s.calStore r i m).opUnits w (k + 1) i).sweepSkip r 256).sweepEnd r
  else s

def execSweepEntryDone (r : Nat) (m : CalMeas) (s : State) : Host.Outcome State Fault Refusal := .next (s.sweepStep r m)

/-- Whether the survey's record array lies where R113 and RFE_SURVADDR allow. -/
def State.survOk (s : State) (r : Nat) : Bool :=
  let a := s.get (F.RFE_SURVADDR_ADDR r)
  a % 4 == 0 && 0x13000000 ≤ a && a + 4 * s.opCount r ≤ 0x14000000

/-- A write by a block into SRAM outside the regions that only MLC and MNODE write, R147, R170. -/
def State.dmaWord (s : State) (a v : Nat) : State :=
  if inBoard a then s.raise W.MLC E.MLC_BOARDWR
  else if inMap a then s.raise W.MNODE E.MNODE_MAPWR
  else s.pokeN a 4 v

/-- START with OP = 1, R113: every record is written ENERGY 0x8000 and DWELLS 0. -/
def State.startSurvey (s : State) (rq : Rq) (r : Nat) : State :=
  let ok := s.opRange r && s.survOk r && 10 ≤ s.get (F.RFE_SURVEY_DWELL r) && !(r = 3 && s.get (F.RFE_OPSEL_PATH r) = 1)
  let t := s.rfeStart rq r ok false
  if t.opSt (W.RFE r) == 2 && s.opSt (W.RFE r) != 2 then
    let t := { t with rfe := { t.rfe with surv := kset t.rfe.surv r (0, 0) } }
    (List.range (s.opCount r)).foldl (fun t i => t.dmaWord (s.get (F.RFE_SURVADDR_ADDR r) + 4 * i) 0x8000) t
  else t

/-- SURVEY_DWELL_END, R113: energy is the average so far in the record's format; a skipped entry sets SKIPPED and is no
dwell. -/
def State.surveyStep (s : State) (r energy : Nat) (skipped : Bool) : State :=
  let w := W.RFE r
  if s.opSt w == 2 && s.get (F.RFE_OPSEL_OP r) = 1 then
    let pp := (kget s.rfe.surv r).getD (0, 0)
    let i := s.get (F.RFE_OPSEL_FIRST r) + pp.1
    let a := s.get (F.RFE_SURVADDR_ADDR r) + 4 * pp.1
    let old := s.peekN a 4
    let t := if skipped then s.dmaWord a (bitsOf old 0 24 + 2 ^ 24)
      else (s.dmaWord a (energy % 65536 + min 255 (bitsOf old 16 8 + 1) * 65536)).opUnits w
        (s.get (F.OPSTAT_PROGRESS w) + 1) i
    let last := s.opCount r ≤ pp.1 + 1
    let t := { t with rfe := { t.rfe with surv := kset t.rfe.surv r (if last then (0, pp.2 + 1) else (pp.1 + 1, pp.2)) } }
    if last && s.get (F.RFE_SURVEY_PASSES r) != 0 && s.get (F.RFE_SURVEY_PASSES r) ≤ pp.2 + 1 then t.opDone w else t
  else s

def execSurveyDwellEnd (r energy : Nat) (skipped : Bool) (s : State) : Host.Outcome State Fault Refusal :=
  .next (s.surveyStep r energy skipped)

/-- START with OP = 2, R107, R112: transmission stops and the path is in Cal. -/
def State.startFg (s : State) (rq : Rq) (r : Nat) : State :=
  let p := s.get (F.RFE_OPSEL_PATH r)
  let t := s.rfeStart rq r (p < pathsOf r) false
  if t.opSt (W.RFE r) == 2 && s.opSt (W.RFE r) != 2 then
    let t := (t.pathCut r p 6).set (F.RFE_PATHSTAT_STATE r p) 5
    t.setPath r p { t.path r p with nxt := none, goal := 5 }
  else t

/-- The path leaves Cal: it is in Ready and moves to REST, R107. -/
def State.fgLeave (s : State) (r p : Nat) (done : Bool) : State :=
  let t := s.setPath r p { s.path r p with fg := done || (s.path r p).fg }
  (t.set (F.RFE_PATHSTAT_STATE r p) 2).pathGo r p (t.rest r p)

/-- FG_CAL_END, R107, R112. -/
def State.fgEnd (s : State) (r : Nat) : State :=
  if s.opSt (W.RFE r) == 2 && s.get (F.RFE_OPSEL_OP r) = 2 then
    ((s.opUnits (W.RFE r) 1 0).fgLeave r (s.get (F.RFE_OPSEL_PATH r)) true).opDone (W.RFE r)
  else s

def execFgCalEnd (r : Nat) (s : State) : Host.Outcome State Fault Refusal := .next (s.fgEnd r)

/-- BG_CAL_STEP, R112: a step has been done on a valid entry that is STALE or aged, on a path in Ready or in Rx with no packet being
received; with a next step the path is in it (BGSTEP), the last one renews the entry. -/
def State.bgStep (s : State) (r i : Nat) (last : Bool) (m : CalMeas) : State :=
  let w0 := s.calW r i 0
  let p := calPath w0
  let aged := (kget s.rfe.calAt (r * 256 + i)).getD 0 + max 1 (s.get (F.RFE_BGCAL_PERIOD r)) * 1000000000 ≤ s.ns
  if s.on (F.RFE_BGCAL_EN r) && calValid w0 && (calStale w0 || aged) && s.pst r p ≠ 1 && s.calFree r p then
    let t := s.setPath r p { s.path r p with bg := if last then none else some i }
    if last then t.calStore r i m else t
  else s

def execBgCalStep (r idx : Nat) (last : Bool) (m : CalMeas) (s : State) : Host.Outcome State Fault Refusal :=
  .next (s.bgStep r idx last m)

/-- ENTRY_STALE, R111: the baseplate has moved more than TEMPSTEP from the entry's calibration temperature. -/
def State.staleStep (s : State) (r i : Nat) : State :=
  let w0 := s.calW r i 0
  let d := (s.getI F.PINS_BASETEMP_TEMP - sgn 12 (s.calW r i 3)).natAbs
  if calValid w0 && !calStale w0 && 8 * clampN 1 20 (s.get (F.RFE_BGCAL_TEMPSTEP r)) < d then
    (s.setCalW r i 0 (w0 + 2 ^ 27)).raise (W.RFE r) E.RFE_STALE
  else s

def execEntryStale (r idx : Nat) (s : State) : Host.Outcome State Fault Refusal := .next (s.staleStep r idx)

/-! Coexistence, R119 to R121 -/

/-- The priority of an activity. -/
def State.coexPrio (s : State) (act : Nat) : Nat :=
  match act with
  | 0 => s.get (F.RFE_COEXCFG_PMESHP 3)
  | 1 => s.get (F.RFE_COEXCFG_PMESH 3)
  | _ => s.get (F.RFE_COEXCFG_PWLAN 3)

/-- The external request's priority by COEX_PRIO. -/
def State.coexExt (s : State) (prio : Bool) : Nat :=
  if prio then s.get (F.RFE_COEXCFG_PEXTHI 3) else s.get (F.RFE_COEXCFG_PEXTLO 3)

/-- Changes the coexistence wires. -/
def State.setCoex (s : State) (c : CoexS) : State := { s with rfe := { s.rfe with coex := c } }

/-- COEX_PRIO_RISE, R119: the priority is sampled again while COEX_REQ_IN is high. -/
def execCoexPrioRise (s : State) : Host.Outcome State Fault Refusal :=
  .next (if s.coexOn && s.rfe.coex.reqIn then s.setCoex { s.rfe.coex with prio := true, ext := s.coexExt true } else s)

/-- A transmission accepted on a path is refused COEX: it does not launch and leaves the path in its state, R110, R120. -/
def State.coexRefuse (s : State) (r p id : Nat) : State :=
  let x := s.path r p
  ((s.setPath r p { x with txs := x.txs.filter fun d => d.id != id, status := 5 }).pathHold r p).txRefuse r 5

/-- With RXREQ the band is held and asked for through a receive square too, R120: id is its listener. -/
def State.coexRx (s : State) (p id : Nat) (reqIn : Bool) : State :=
  let given := match kget s.mphy.lis id with | some x => x.cur.isSome | none => false
  if !s.coexScope 3 p || !s.on (F.RFE_COEXCFG_RXREQ 3) || !given || (p == 2) != (256 ≤ id : Bool) then s
  else
    let t := s.setCoex { s.rfe.coex with reqIn := reqIn }
    if (reqIn && s.coexPrio 1 ≤ s.rfe.coex.ext) || s.rfe.coex.ending then t.raise (W.RFE 3) E.RFE_COEXDENY
    else t.setCoex { t.rfe.coex with hold := some (max (s.coexPrio 1) (s.rfe.coex.hold.getD 0)), reqOut := true }

/-- COEX_LEAD, R120, R121: reqIn is the level of COEX_REQ_IN. The module holds the band and asks for it, unless an external
request of at least its priority is there. -/
def State.coexStart (s : State) (r p id : Nat) (reqIn : Bool) : State :=
  match (s.path r p).txs.find? fun d => d.id == id with
  | none => if r = 3 then s.coexRx p id reqIn else s
  | some c =>
    if !s.coexScope r p || c.at' < s.ns then s
    else
      let t := s.setCoex { s.rfe.coex with reqIn := reqIn }
      if (reqIn && s.coexPrio c.act ≤ s.rfe.coex.ext) || s.rfe.coex.ending then t.coexRefuse r p id
      else t.setCoex { t.rfe.coex with hold := some (max (s.coexPrio c.act) (s.rfe.coex.hold.getD 0)), reqOut := true }

/-- COEX_GRANT_SAMPLE, R110 row 7, R121: a low COEX_GRANT_IN, or a hold that an external request has ended (R120), refuses the
transmission and COEX_REQ_OUT falls. -/
def State.coexSample (s : State) (r p id : Nat) (grant : Bool) : State :=
  if s.coexScope r p && (!grant || s.rfe.coex.ending) && ((s.path r p).txs.any fun d => d.id == id && decide (s.ns ≤ d.at')) then
    ((s.coexRefuse r p id).setCoex { s.rfe.coex with reqOut := false }).coexRelease
  else s

/-! Cancellation registers, R117, R118 -/

/-- CLEAR: every tap 0, none converged. -/
def State.cancClr (s : State) : State :=
  let t := { s with rfe := { s.rfe with taps := [], txTime := [] } }
  (List.range 4).foldl (fun t k => t.set (F.RFE_CANCSTAT_CONV 3 k) 0) t

/-- SAVE: the taps go to the settings store. -/
def State.cancSav (s : State) : State := { s with rfe := { s.rfe with saved := s.rfe.taps } }

end Sys2Proof.Machine
end

