-- ==== Sys2Proof/Machine/Chan.lean ====
section
/-!
DEFINITION. The channels of the radios, and the medium as each lower MAC counts it: spec/09, R194, with the width codes of R111;
spec/10, R225, R230.
-/

namespace Sys2Proof.Machine

/-- The group of 20 MHz channels that holds a primary channel of Radio B or C: its first channel. -/
def chanGroup (r p : Nat) : Nat := if r = 2 then 1 else if p < 149 then 36 else 149

/-- The centre channel numbers of the channels of a width code that hold a primary, R194: on Radio A the one with the higher secondary
before the other, on Radio C the lower 320 MHz channel before the other. -/
def chanCands (r p w : Nat) : List Nat :=
  if r = 0 then (if w = 0 then [p] else (if p ≤ 9 then [p + 2] else []) ++ (if 5 ≤ p then [p - 2] else []))
  else if w = 4 then [31, 63, 95, 127, 159, 191].filter fun c => dist c p ≤ 30
  else
    let g := chanGroup r p
    let n := 2 ^ w
    [g + 4 * n * ((p - g) / 4 / n) + 2 * (n - 1)]

/-- The frequency of a channel number in kHz. -/
def chanKHz (r c : Nat) : Nat := ((match r with | 0 => 2407 | 1 => 5000 | _ => 5950) + 5 * c) * 1000

/-- The width of a code in kHz, R111. -/
def widthKHz (w : Nat) : Nat := 20000 * 2 ^ w

/-- Primary and width are a channel of R194. -/
def chanOk (r p w : Nat) : Bool :=
  match r with
  | 0 => 1 ≤ p && p ≤ 13 && w ≤ 1
  | 1 => ((36 ≤ p && p ≤ 48 && p % 4 == 0 && w ≤ 2) || (149 ≤ p && p ≤ 177 && p % 4 == 1 && w ≤ 3))
  | _ => 1 ≤ p && p % 4 == 1 && w ≤ 4 && p ≤ (match w with | 0 => 233 | 1 => 229 | _ => 221)

/-- The 20 MHz channels of a channel by its centre and width code, lowest first. -/
def chanSubs (c w : Nat) : List Nat := (List.range (2 ^ w)).map fun k => c + 4 * k - 2 * (2 ^ w - 1)

/-- The channel in force of radio r: primary, width code, centre channel number. -/
def State.chanP (s : State) (r : Nat) : Nat := bitsOf (s.get (F.WPHY_CHANCUR_CHAN r)) 0 8
def State.chanW (s : State) (r : Nat) : Nat := bitsOf (s.get (F.WPHY_CHANCUR_CHAN r)) 8 3
def State.chanN (s : State) (r : Nat) : Nat := (kget s.wl.cen r).getD ((chanCands r (s.chanP r) (s.chanW r)).headD 0)

/-- Its centre in kHz. -/
def State.chanC (s : State) (r : Nat) : Nat := chanKHz r (s.chanN r)

/-! The medium, R225, R230 -/

/-- The lower MAC of radio r. -/
def State.wmac (s : State) (r : Nat) : WMac := (kget s.wl.mac r).getD { hold := 0, cw := [], roll := [], busy := 0, bcn := [] }

/-- Changes the WLAN state. -/
def State.setWl (s : State) (w : WlanS) : State := { s with wl := w }

/-- Stores a lower MAC. -/
def State.setWmac (s : State) (r : Nat) (x : WMac) : State := s.setWl { s.wl with mac := kset s.wl.mac r x }

/-- SIFS of a radio and the slot of IEEE 802.11 in ns (log entry 59). -/
def sifs (r : Nat) : Nat := if r = 0 then 10000 else 16000
def slotNs : Nat := 9000

/-- The arbitration time of an AIFSN in ns; 0 acts as 1. -/
def aifs (r n : Nat) : Nat := sifs r + max 1 n * slotNs

/-- The backoff slots an access category counts from the end of a busy time to time t. -/
def State.slotsIn (s : State) (r ac frm t : Nat) : Nat := (t - (frm + aifs r (s.get (F.WMAC_EDCA_AIFSN r ac)))) / slotNs

/-- A busy time from a to b: what has counted down before a is counted, R225, and nothing counts until b. -/
def State.busyFor (s : State) (r : Nat) (x : WMac) (a b : Nat) : WMac :=
  { x with roll := (x.roll.map fun e => (e.1, e.2 - s.slotsIn r e.1 x.busy a)), busy := max x.busy b }

/-- A lower MAC at time t: during a quiet turn of Radio A it counts the medium busy, R230. -/
def State.wmacAt (s : State) (r t : Nat) : WMac :=
  if r = 0 then (s.mlc.quiet.filter fun q => q.1 ≤ t).foldl (fun x q => s.busyFor 0 x q.1 q.2) (s.wmac 0) else s.wmac r

/-- The medium of a radio is busy from now until b. -/
def State.medBusy (s : State) (r b : Nat) : State := s.setWmac r (s.busyFor r (s.wmacAt r s.ns) s.ns b)

/-- Quiet turns that have ended are counted, R230, before MLC forgets them. -/
def State.quietPast (s : State) : State :=
  let l := s.mlc.quiet.filter fun q => q.2 ≤ s.ns
  if l.isEmpty then s else s.setWmac 0 (l.foldl (fun x q => s.busyFor 0 x q.1 q.2) (s.wmac 0))

/-- An access category's backoff has reached zero: the medium has been idle for its arbitration time and the slots left, R225. -/
def State.boDone (s : State) (r ac : Nat) : Bool :=
  let x := s.wmacAt r s.ns
  x.busy + aifs r (s.get (F.WMAC_EDCA_AIFSN r ac)) + (kget x.roll ac).getD 0 * slotNs ≤ s.ns

end Sys2Proof.Machine
end

