-- ==== Sys2Proof/Machine/Fabric.lean ====
section
/-!
DEFINITION. The wagon fabric but for the release stage: wagons, couplings, dispatch, the wagon extensions, program banks and
the observation windows: spec/11, R233 to R257. Release.lean holds what release hands on.
-/

namespace Sys2Proof.Machine

/-- The span of deadlines and creation stamps: 2^16 s in ns, R234. -/
def wMod : Nat := 65536 * 1000000000

/-- a is earlier than b, R234. -/
def earlier (a b : Nat) : Bool := let d := (b + wMod - a % wMod) % wMod; 1 ≤ d && d ≤ 32768 * 1000000000

/-- The timebase in the form of R234. -/
def State.wNow (s : State) : Nat := s.ns % wMod

/-- Whether the timebase has reached time a. -/
def State.reached (s : State) (a : Nat) : Bool := !earlier s.wNow a

/-- The wagon of a WID. -/
def State.wag (s : State) (w : Nat) : Option Wagon := kget s.yard.wagons w

/-- Stores a wagon. -/
def State.setWag (s : State) (w : Nat) (x : Wagon) : State :=
  { s with yard := { s.yard with wagons := kset s.yard.wagons w x } }

/-- Counter n of the yard: 0 MISS, 1 ABANDON, 2 STRAY, 3 FULL, 4 VOID, 5 REDO, 6 RELEASED. -/
def State.yardCnt (s : State) (n : Nat) : State := s.bump 0x20 (0xC0 + 4 * n) E.YARD_CNTSAT

/-- ALLOC and NEXT of a train. -/
def State.train (s : State) (t : Nat) : Nat × Nat := (kget s.yard.trains t).getD (0, 0)

/-- Stores ALLOC and NEXT of a train. -/
def State.setTrain (s : State) (t : Nat) (x : Nat × Nat) : State :=
  { s with yard := { s.yard with trains := if x = (0, 0) then kdel s.yard.trains t else kset s.yard.trains t x } }

/-- Wagons in flight on a train, R240: places given and not released, and places Staged and PEND wagons have reserved. -/
def State.inflight (s : State) (t : Nat) : Nat :=
  ((s.train t).1 + 65536 - (s.train t).2) % 65536 + (s.yard.wagons.filter fun e => e.2.train == t && e.2.pend).length

/-- Slots reserved by islands on all trains. -/
def State.resvAll (s : State) : Nat := s.yard.resv.foldl (fun a e => a + e.2) 0

/-- Free slots of the yard, those that islands have reserved among them. -/
def State.slotsFree (s : State) : Nat := 65536 - s.yard.wagons.length

/-- WNEW and software creation find a slot, R240: more than ISLRESV are Free, and not all of them are reserved; in a yard that is
not enabled there is none (R388, log entry 28). -/
def State.slotsSpare (s : State) : Bool :=
  s.enabled 0x20 && decide (s.get F.YARD_ISLRESV_RESV < s.slotsFree) && decide (s.resvAll < s.slotsFree)

/-- Whether a train admits one more wagon. -/
def State.trainRoom (s : State) (t : Nat) : Bool := s.inflight t + (kget s.yard.resv t).getD 0 < 4096

/-- The ingress train of an origin, R237. -/
def State.origTrain (s : State) (o : Nat) : Nat := s.get (F.YARD_ORIGIN_W1_TRAIN o)

/-- The reservation of a Free slot and a place in flight at the commit point, R237; none when it cannot be had. What holds the
reservation keeps its train, origTrain at that moment (log entry 49). -/
def State.resvSlot (s : State) (o : Nat) : Option State :=
  let t := s.origTrain o
  if s.enabled 0x20 && s.resvAll < s.slotsFree && s.trainRoom t then
    some { s with yard := { s.yard with resv := kset s.yard.resv t ((kget s.yard.resv t).getD 0 + 1) } }
  else none

/-- Gives a reservation back, R237. -/
def State.unresv (s : State) (t : Nat) : State :=
  let n := (kget s.yard.resv t).getD 0
  { s with yard := { s.yard with resv := if n ≤ 1 then kdel s.yard.resv t else kset s.yard.resv t (n - 1) } }

/-- A time in ns from its register words. -/
def nsOf (seclo sechi ns : Nat) : Nat := (sechi * 2 ^ 32 + seclo) * 1000000000 + ns

/-- The program bank of a wagon with creation stamp cs in ns, R248. -/
def State.bankFor (s : State) (cs : Nat) : Nat :=
  if s.on F.YARD_PBCTL_ARMED && nsOf (s.get F.YARD_PBSECLO_SEC) (s.get F.YARD_PBSECHI_SEC) (s.get F.YARD_PBNS_NS) ≤ cs then
    s.get F.YARD_PBCTL_TARGET
  else s.get F.YARD_PBCTL_CUR

/-- A wagon becomes Ready, in order, R241, R242. -/
def State.makeReady (s : State) (w : Nat) : State :=
  match s.wag w with
  | none => s
  | some x =>
    let t := s.setWag w { x with st := 3, rdy := s.yard.order, rdyNs := s.ns }
    { t with yard := { t.yard with order := t.yard.order + 1 } }

/-- A Filling wagon whose declared couplings have arrived becomes Ready unless it waits for its place, R236. -/
def State.settle (s : State) (w : Nat) : State :=
  match s.wag w with
  | none => s
  | some x => if x.st = 2 && x.arr = x.decl && !(x.placewait && x.pend) then s.makeReady w else s

/-- A WID that is Free, a pick the spec leaves open (log entry 5). -/
def State.freeWid (s : State) : Option Nat × State := s.pick (fun w => (s.wag w).isNone) 65536 0

/-- An empty descriptor. -/
def wagon0 : Wagon :=
  { train := 0, seq := 0, decl := 0, arr := 0, prog := 0, ecls := 0, st := 2, miss := false, void := false, pend := false,
    pbank := 0, origin := 0, placewait := false, dl := 0, cs := 0, ctype := 0, user := 0, cpl := [0, 0, 0, 0, 0, 0, 0, 0],
    snap := [], bufs := [], tbufs := [], outs := [], cpls := [], kids := [], succ := none, parent := none, rdy := 0,
    rdyNs := 0 }

/-- A wagon with coupling k of type ty declared, and arrived with a value when there is one. -/
def Wagon.couple (x : Wagon) (k ty : Nat) (v : Option Nat) : Wagon :=
  let y := { x with decl := x.decl + 2 ^ k, ctype := x.ctype + ty * 16 ^ k }
  match v with
  | none => y
  | some n => { y with arr := y.arr + 2 ^ k, cpl := lset y.cpl k n,
                       bufs := if (ty = 1 || ty = 2) && n % 2 ^ 20 ≠ 0 then n % 2 ^ 20 :: y.bufs else y.bufs }

/-- Puts a new wagon in the yard at the next place of its train, R241. -/
def State.placeNew (s : State) (x : Wagon) : Option Nat × State :=
  let p := s.freeWid
  match p.1 with
  | none => (none, p.2)
  | some w =>
    let tr := p.2.train x.train
    let t := (p.2.setTrain x.train ((tr.1 + 1) % 65536, tr.2)).setWag w { x with seq := tr.1, pend := false, st := 2 }
    (some w, t.settle w)

/-- WAGON_CREATE_ISLAND, R237: a wagon of origin o with creation stamp cs in ns and couplings (slot, type, value); train is
that of YARD_ORIGIN, or for a completion its CTRAIN. -/
def State.islandWagon (s : State) (o train cs : Nat) (c : List (Nat × Nat × Option Nat)) : Option Nat × State :=
  let b := s.get (F.YARD_ORIGIN_W0_BUDGET o) * 1000
  let x := { wagon0 with train := train, prog := s.get (F.YARD_ORIGIN_W0_PROG o), ecls := s.get (F.YARD_ORIGIN_W0_ECLASS o),
                         origin := o, cs := cs % wMod, dl := (cs + b) % wMod, pbank := s.bankFor cs }
  s.placeNew (c.foldl (fun x e => x.couple e.1 e.2.1 e.2.2) x)

/-- The creation that completes a reservation on a train, R237. -/
def State.islandCommit (s : State) (o train cs : Nat) (c : List (Nat × Nat × Option Nat)) : Option Nat × State :=
  (s.unresv train).islandWagon o train cs c

/-- A creation refused: FULL counted and raised, R240. -/
def State.yardFull (s : State) : State := (s.yardCnt 3).raise W.YARD E.YARD_FULL

/-- The completion wagon of an output that finished, R251: origin 20 on its CTRAIN with TXDONE, the stamp words and the frame
when it is kept; refused FULL, the kept frame returns to the pool (R238); a yard that is not enabled creates none (R388, log entry 28). stamp is in 2^-16 ns, none in software mode. -/
def State.txDone (s : State) (ctrain status : Nat) (stamp : Option Nat) (miss : Bool) (frame : Option Nat) : State :=
  let v := stamp.getD 0
  let ns := v / 65536
  let tx := status % 256 + b2n stamp.isSome * 256 + b2n miss * 512
  let w2 := v % 65536 + ns / 1000000000 / 2 ^ 32 * 65536
  let c := [(0, 5, some tx), (1, 7, some w2), (2, 7, some (ns % 1000000000)), (3, 7, some (ns / 1000000000 % 2 ^ 32))]
    ++ (match frame with | some h => [(4, 1, some h)] | none => [])
  if s.enabled 0x20 && s.resvAll < s.slotsFree && s.trainRoom ctrain then
    (s.islandWagon 20 ctrain (if stamp.isSome then ns else s.ns) c).2
  else
    let u := if s.enabled 0x20 then s.yardFull else s
    match frame with
    | some h => u.bufRelease h
    | none => u

/-- An output finishes with a status, R238, R251: its completion when asked for, and its buffer returned unless kept. -/
def State.outDone (s : State) (o : Out) (miss : Bool) (status : Nat) (stamp : Option Nat) : State :=
  let t := if o.compl && o.keep then s else s.bufRelease o.handle
  if o.compl then t.txDone o.ctrain status stamp miss (if o.keep then some o.handle else none) else t

/-! Couplings, R235, R236 -/

/-- A coupling that no wagon takes, R236: its buffer goes back to the pool. -/
def State.stray (s : State) (ty v : Nat) : State :=
  let t := if ty = 1 || ty = 2 then s.bufRelease (v % 2 ^ 20) else s
  (t.yardCnt 2).raise W.YARD E.YARD_STRAY

/-- A coupling arrives, R236; snap is the record snapshot of a NODE coupling. -/
def State.couple (s : State) (w k ty v : Nat) (snap : List Byte) : State :=
  match s.wag w with
  | none => s.stray ty v
  | some x =>
    if (x.st = 1 || x.st = 2) && bitOf x.decl k && !bitOf x.arr k && bitsOf x.ctype (4 * k) 4 == ty && k < 8 then
      let y := { x with arr := x.arr + 2 ^ k, cpl := lset x.cpl k (v % 2 ^ 32),
                        snap := if ty = 3 then kset x.snap k snap else x.snap,
                        bufs := if (ty = 1 || ty = 2) && v % 2 ^ 20 ≠ 0 then v % 2 ^ 20 :: x.bufs else x.bufs }
      (s.setWag w y).settle w
    else s.stray ty v

/-- COUPLING_ARRIVE, R236. -/
def execCouplingArrive (wid slot typ val : Nat) (snap : List Byte) (s : State) : Host.Outcome State Fault Refusal :=
  .next (if s.winOn 0x20 then s.couple wid slot typ val snap else s)

/-! Engines and dispatch, R242 to R247 -/

def eng0 : EngS :=
  { wag := none, since := 0, busy := 0, halted := false, rd := 0, pc := 0, a0 := 0, sp := 0, inbox := [], hdr := [] }

/-- Engine e = 8 × c + k. -/
def State.eng (s : State) (e : Nat) : EngS := (kget s.yard.engs e).getD eng0

/-- Stores an engine. -/
def State.setEng (s : State) (e : Nat) (x : EngS) : State :=
  { s with yard := { s.yard with engs := kset s.yard.engs e x } }

/-- The window of an engine's coach. -/
def coachWin (e : Nat) : Nat := 0x21 + e / 8

/-- Whether an engine takes wagons, R242: its coach on, enabled and not draining; ENMASK; neither halted nor retired. -/
def State.inDisp (s : State) (e : Nat) : Bool :=
  s.enabled (coachWin e) && bitOf (s.get (F.ENG_ENMASK_EN (e / 8))) (e % 8) && !(s.eng e).halted
    && !s.retired (0x2100 + e) && !s.drain.contains (e / 8)

/-- The classes a coach serves, R242; in Hush coach 0 serves every class (R361). -/
def State.serves (s : State) (coach cls : Nat) : Bool :=
  if s.get F.PWR_STATUS_STATE = 2 then coach == 0 else bitOf (s.get (F.YARD_CLASS_COACHES cls)) coach

/-- The better of two Ready wagons, R242: the earlier deadline, then the one Ready first, then the lower WID. -/
def better (a b : Nat × Wagon) : Bool :=
  earlier a.2.dl b.2.dl || (a.2.dl == b.2.dl && (a.2.rdy < b.2.rdy || (a.2.rdy == b.2.rdy && a.1 < b.1)))

/-- The wagon engine e takes, R242. -/
def State.dispPick (s : State) (e : Nat) : Option (Nat × Wagon) :=
  (s.yard.wagons.filter fun x => x.2.st == 3 && s.serves (e / 8) x.2.ecls).foldl
    (fun b x => match b with | none => some x | some y => if better x y then some x else some y) none

/-- The bin of a waiting time in ns, R254. -/
def waitBin (ns : Nat) : Nat := if ns < 500 then 0 else min 15 (Nat.log2 (ns / 500) + 1)

/-- Counts a waiting time in its class, R254. -/
def State.histAdd (s : State) (c ns : Nat) : State :=
  let k := 16 * c + waitBin ns
  { s with yard := { s.yard with bins := kset s.yard.bins k (min (2 ^ 31 - 1) ((kget s.yard.bins k).getD 0 + 1)) } }

/-- The descriptor of wagon w as its 16 words, R233; shown to a program, STATE, MISS and PEND are 0 (R243). -/
def Wagon.words (x : Wagon) (w : Nat) (shown : Bool) : List Nat :=
  [w % 2 ^ 16 + x.train % 2 ^ 12 * 2 ^ 16,
   x.seq % 2 ^ 16 + x.decl % 2 ^ 8 * 2 ^ 16 + x.arr % 2 ^ 8 * 2 ^ 24,
   x.prog % 2 ^ 8 + x.ecls % 4 * 2 ^ 8 + (if shown then 0 else x.st % 8 * 2 ^ 10 + b2n x.miss * 2 ^ 13) + b2n x.void * 2 ^ 14
     + (if shown then 0 else b2n x.pend * 2 ^ 15) + x.pbank % 2 * 2 ^ 16 + x.origin % 32 * 2 ^ 17 + b2n x.placewait * 2 ^ 22,
   x.dl % 1000000000, x.dl / 1000000000 % 2 ^ 16 + x.cs / 1000000000 % 2 ^ 16 * 2 ^ 16, x.cs % 1000000000, x.ctype % 2 ^ 32,
   x.user % 2 ^ 32] ++ (List.range 8).map fun k => x.cpl.getD k 0 % 2 ^ 32

/-- The handle in the lowest-numbered FRAME coupling that has arrived, R243. -/
def Wagon.frame (x : Wagon) : Option Nat :=
  ((List.range 8).find? fun k => bitOf x.arr k && bitsOf x.ctype (4 * k) 4 == 1).map fun k => x.cpl.getD k 0 % 2 ^ 20

/-- Word PROG of the entry table of bank PBANK, R244. -/
def State.entryPc (s : State) (coach bank prog : Nat) : Nat :=
  ofLE ((List.range 4).map fun i => (kget s.yard.prog ((2 * coach + bank) * 32768 + 4 * prog + i)).getD 0)

/-- An engine is able to take a wagon, R242. -/
def State.engIdle (s : State) (e : Nat) : Bool := s.inDisp e && (s.eng e).wag.isNone

/-- DISPATCH, R241, R242, R244: an engine able to take a wagon takes the one the rule names, unless an engine with a lower requester
number takes it at that moment; the inbox, pc, a0 and sp are written. -/
def State.dispatchTo (s : State) (e : Nat) : State :=
  if e < 48 && s.enabled 0x20 && s.engIdle e then
    match s.dispPick e with
    | none => s
    | some (w, x) =>
      if (List.range e).any fun k => s.engIdle k && s.dispPick k == some (w, x) then s
      else
        let t := (s.setWag w { x with st := 4 }).histAdd x.ecls (s.ns - x.rdyNs)
        t.setEng e { t.eng e with
          wag := some w, since := s.ns, pc := s.entryPc (e / 8) x.pbank x.prog, a0 := 0xE000, sp := 0xE000, inbox := x.words w true,
          hdr := match x.frame with
            | some h => (List.range 16).map fun k => s.peekN (handleAddr h + 4 * k) 4
            | none => [] }
  else s

def execDispatch (e : Nat) (s : State) : Host.Outcome State Fault Refusal := .next (s.dispatchTo e)

/-- The engine no longer holds its wagon; the time it held it counts towards its load, R254. -/
def State.engFree (s : State) (e : Nat) : State :=
  let x := s.eng e
  match x.wag with
  | none => s
  | some _ => s.setEng e { x with wag := none, busy := x.busy + (s.ns - max x.since s.yard.loadAt) }

/-- The result of an engine's instruction in rd. -/
def State.setRd (s : State) (e : Nat) (v : Int) : State := s.setEng e { s.eng e with rd := v }

/-- The statuses of R245. -/
def rFull : Int := -1
def rBadarg : Int := -2
def rLimit : Int := -3
def rNobuf : Int := -4

/-- The wagon of an engine that executes: it holds one, its coach is on and it is not halted (R396). -/
def State.running (s : State) (e : Nat) : Option (Nat × Wagon) :=
  match (s.eng e).wag with
  | none => none
  | some w => if s.winOn (coachWin e) && !(s.eng e).halted then (s.wag w).map fun x => (w, x) else none

/-- WEMIT, R245: a staged output. -/
def State.wemitOp (s : State) (e : Nat) (o : Out) : State :=
  match s.running e with
  | none => s
  | some (w, x) =>
    if 7 ≤ o.dest then s.setRd e rBadarg
    else if 16 ≤ x.outs.length then s.setRd e rLimit
    else (s.setWag w { x with outs := x.outs ++ [o] }).setRd e 0

def execWemit (e : Nat) (o : Out) (s : State) : Host.Outcome State Fault Refusal := .next (s.wemitOp e o)

/-- The handles of the FRAME and CRYPT couplings that a template brings arrived. -/
def tmplBufs (t : Tmpl) : List Nat :=
  ((List.range 8).filter fun k => bitOf t.arr k && (bitsOf t.ctype (4 * k) 4 == 1 || bitsOf t.ctype (4 * k) 4 == 2)
    && t.cpl.getD k 0 % 2 ^ 20 != 0).map fun k => t.cpl.getD k 0 % 2 ^ 20

/-- The wagon of a template. -/
def tmplWagon (t : Tmpl) : Wagon :=
  { wagon0 with train := t.train % 4096, prog := t.prog % 256, ecls := t.ecls % 4, placewait := t.placewait,
                dl := t.deadline % wMod, decl := t.decl % 256, arr := t.arr % 256, ctype := t.ctype % 2 ^ 32,
                user := t.user % 2 ^ 32, cpl := (List.range 8).map fun k => t.cpl.getD k 0 % 2 ^ 32 }

/-- ARR lies within DECL, R245. -/
def tmplOk (t : Tmpl) : Bool := (List.range 8).all fun k => !bitOf t.arr k || bitOf t.decl k

/-- WNEW, R240, R245: a Staged child with one place reserved on its train. -/
def State.wnewOp (s : State) (e : Nat) (t : Tmpl) : State :=
  match s.running e with
  | none => s
  | some (w, x) =>
    if !tmplOk t then s.setRd e rBadarg
    else if 16 ≤ x.kids.length then s.setRd e rLimit
    else if !s.slotsSpare || !s.trainRoom (t.train % 4096) then (s.yardFull).setRd e rFull
    else
      let p := s.freeWid
      match p.1 with
      | none => p.2.yardFull.setRd e rFull
      | some c =>
        let y := { tmplWagon t with st := 1, pend := true, origin := 30, cs := x.cs, parent := some w, tbufs := tmplBufs t,
                                    pbank := s.bankFor (s.ns - (s.wNow + wMod - x.cs) % wMod) }
        ((p.2.setWag w { x with kids := x.kids ++ [c] }).setWag c y).setRd e c

def execWnew (e : Nat) (t : Tmpl) (s : State) : Host.Outcome State Fault Refusal := .next (s.wnewOp e t)

/-- WCPL, R245: a staged coupling. -/
def State.wcplOp (s : State) (e wid slot typ val : Nat) : State :=
  match s.running e with
  | none => s
  | some (w, x) =>
    if 32 ≤ x.cpls.length then s.setRd e rLimit
    else (s.setWag w { x with cpls := x.cpls ++ [⟨wid, slot, typ, val⟩] }).setRd e 0

def execWcpl (e wid slot typ val : Nat) (s : State) : Host.Outcome State Fault Refusal :=
  .next (s.wcplOp e wid slot typ val)

/-- WREQ, R245, R246: the request goes to RTE or SEC at once. -/
def State.wreqOp (s : State) (e : Nat) (sec : Bool) (req : List Nat) (wid slot : Nat) : State :=
  match s.running e with
  | none => s
  | some (_, x) =>
    ({ s with yard := { s.yard with reqs := s.yard.reqs ++ [({ words := req.map fun w => w % 2 ^ 32, sec := sec, cs := x.cs, wid := wid, slot := slot } : Req)] } }).setRd e 0

/-- WHAND, R245: names a child as successor, once. -/
def State.whandOp (s : State) (e wid : Nat) : State :=
  match s.running e with
  | none => s
  | some (w, x) =>
    if x.succ.isSome || !x.kids.contains wid then s.setRd e rBadarg
    else (s.setWag w { x with succ := some wid }).setRd e 0

def execWhand (e wid : Nat) (s : State) : Host.Outcome State Fault Refusal := .next (s.whandOp e wid)

/-- WBUF, R245, R350: a new buffer owned by the wagon. A length out of range is BADARG (R245 gives the range). -/
def State.wbufOp (s : State) (e len : Nat) : State :=
  match s.running e with
  | none => s
  | some (w, x) =>
    if len = 0 || 16383 < len then s.setRd e rBadarg
    else
      let p := s.bufAlloc len
      match p.1 with
      | none => p.2.setRd e rNobuf
      | some h => (p.2.setWag w { x with bufs := h :: x.bufs }).setRd e h

def execWbuf (e len : Nat) (s : State) : Host.Outcome State Fault Refusal := .next (s.wbufOp e len)

/-- Frees a wagon's slot and every buffer it still owns, R238. -/
def State.wagFree (s : State) (w : Nat) : State :=
  match s.wag w with
  | none => s
  | some x =>
    let t := x.bufs.foldl (fun t h => t.bufRelease h) s
    { t with yard := { t.yard with wagons := kdel t.yard.wagons w } }

/-- The effects a program has staged are discarded, R241: its children become Free. -/
def State.unstage (s : State) (w : Nat) : State :=
  match s.wag w with
  | none => s
  | some x =>
    (x.kids.foldl (fun t c => t.wagFree c) s).setWag w { x with outs := [], cpls := [], kids := [], succ := none }

/-- Handles passed on by outputs and couplings leave the wagon when its work is committed, R238. -/
def passed (x : Wagon) (s : State) : List Nat :=
  (x.outs.map fun o => o.handle) ++ ((x.cpls.filter fun c => c.typ == 1 || c.typ == 2).map fun c => c.val % 2 ^ 20)
    ++ x.kids.flatMap fun c => match s.wag c with | some y => y.tbufs | none => []

/-- The commit of a wagon that ends done, R241: couplings delivered, children Filling or Ready, ownership passed. -/
def State.commit (s : State) (w : Nat) : State :=
  match s.wag w with
  | none => s
  | some x =>
    let gone := passed x s
    let t := s.setWag w { x with st := 5, bufs := x.bufs.filter fun h => !gone.contains h, cpls := [] }
    let t := x.kids.foldl (fun t c => match t.wag c with
      | none => t
      | some y => (t.setWag c { y with st := 2, bufs := y.bufs ++ y.tbufs, tbufs := [] }).settle c) t
    x.cpls.foldl (fun t c => t.couple c.wid c.slot c.typ c.val []) t

/-- A wagon ends void, R241: everything staged is discarded and it is Done. -/
def State.voidWag (s : State) (w : Nat) : State :=
  let t := s.unstage w
  match t.wag w with
  | none => t
  | some x => (t.setWag w { x with st := 5, void := true }).yardCnt 4

/-- ENGINE_FAIL, R241, R246: the wagon is Ready again and what it staged is discarded; REDO is counted when charged. -/
def State.engFail (s : State) (e : Nat) (charge : Bool) : State :=
  match (s.eng e).wag with
  | none => s
  | some w =>
    let t := ((s.engFree e).unstage w).makeReady w
    if charge then (t.yardCnt 5).raise W.YARD E.YARD_REDO else t

/-! Deadlines, R252 -/

/-- WAGON_DEADLINE, R252: MISS is set, counted and raised once. -/
def State.deadline (s : State) (w : Nat) : State :=
  match s.wag w with
  | none => s
  | some x =>
    if !x.miss && s.reached x.dl then
      (((s.setWag w { x with miss := true }).yardCnt 0).sets
        [(F.YARD_MISSLAST_TRAIN, x.train), (F.YARD_MISSLAST_SEQ, if x.pend then 0 else x.seq)]).raise W.YARD E.YARD_MISS
    else s

def execWagonDeadline (wid : Nat) (s : State) : Host.Outcome State Fault Refusal := .next (s.deadline wid)

/-! Software creation and couplings, R240, R241, R256 -/

/-- The template at an address, in the layout of R233. -/
def State.tmplAt (s : State) (a : Nat) : Tmpl :=
  let w := fun k => s.peekN (a + 4 * k) 4
  { train := bitsOf (w 0) 16 12, prog := bitsOf (w 2) 0 8, ecls := bitsOf (w 2) 8 2, placewait := bitOf (w 2) 22,
    deadline := bitsOf (w 4) 0 16 * 1000000000 + w 3, decl := bitsOf (w 1) 16 8, arr := bitsOf (w 1) 24 8, ctype := w 6,
    user := w 7, cpl := (List.range 8).map fun k => w (8 + k) }

/-- YARD_SWCREATE, R240, R241: the template at address a makes a wagon of origin 31; RESULT 1 FULL, 2 BADARG. -/
def State.swCreate (s : State) (rq : Rq) (a : Nat) : State :=
  if !s.on F.YARD_SWRES_DONE then s.errRec rq 0x20 0x68 4
  else
    let t := s.tmplAt a
    if !inSram a || a % 64 ≠ 0 || !tmplOk t then s.set F.YARD_SWRES_RESULT 2
    else if !s.slotsSpare || !s.trainRoom t.train then s.yardFull.set F.YARD_SWRES_RESULT 1
    else
      let p := s.placeNew { tmplWagon t with origin := 31, cs := s.wNow, pbank := s.bankFor s.ns, bufs := tmplBufs t }
      match p.1 with
      | none => p.2.yardFull.set F.YARD_SWRES_RESULT 1
      | some w => (p.2.set F.YARD_SWRES_RESULT 0).set F.YARD_SWRES_WID w

/-- YARD_SWCPL1: the coupling named in YARD_SWCPL0 is delivered, R236. -/
def State.swCouple (s : State) (v : Nat) : State :=
  s.couple (s.get F.YARD_SWCPL0_WID) (s.get F.YARD_SWCPL0_SLOT) (s.get F.YARD_SWCPL0_TYPE) v []

/-! Program banks, R248 -/

/-- START of a coach's load: cause 3 for its length or source, cause 6 while the bank is in use. -/
def State.startLoad (s : State) (rq : Rq) (c : Nat) : State :=
  let n := s.get (F.ENG_LOADLEN_KIB c) * 1024
  let a := s.get (F.ENG_LOADSRCHI_ADDR c) * 2 ^ 32 + s.get (F.ENG_LOADSRCLO_ADDR c)
  let ok := 0 < n && n ≤ 24576 && a % 4 == 0 && ((inSram a && inSram (a + n - 1)) || (inDram a && inDram (a + n - 1)))
  let b := s.get (F.ENG_LOADBANK_BANK c)
  let used := b == s.get F.YARD_PBCTL_CUR || s.yard.wagons.any fun e => e.2.pbank == b
  let t := s.opStart rq (W.ENG c) ok true
  if t.opSt (W.ENG c) == 2 && s.opSt (W.ENG c) != 2 && used then t.opFail (W.ENG c) 6 else t

/-- One KiB of the load, R248; an uncorrectable word of the source ends it with cause 5. -/
def State.loadUnit (s : State) (c : Nat) : State :=
  let w := W.ENG c
  let k := s.get (F.OPSTAT_PROGRESS w)
  let a := s.get (F.ENG_LOADSRCHI_ADDR c) * 2 ^ 32 + s.get (F.ENG_LOADSRCLO_ADDR c) + 1024 * k
  let b := s.get (F.ENG_LOADBANK_BANK c)
  if s.memDark a then s.opFail w 4
  else
    let s := s.ueHit a 1024
    if s.ueIn a 1024 then s.opFail w 5
    else
      let m := memPuts s.yard.prog ((2 * c + b) * 32768 + 1024 * k) (s.peeks a 1024)
      ({ s with yard := { s.yard with prog := m } }).opUnits w (k + 1) (b * 0x6000 + 1024 * (k + 1) - 1)

/-- PB_ARM: the switch is armed, R248. -/
def State.pbArmOp (s : State) : State := s.set F.YARD_PBCTL_ARMED 1

/-- PB_SWITCH, R248: the timebase has reached the switch time. -/
def State.pbSwitchOp (s : State) : State :=
  if s.on F.YARD_PBCTL_ARMED
      && nsOf (s.get F.YARD_PBSECLO_SEC) (s.get F.YARD_PBSECHI_SEC) (s.get F.YARD_PBNS_NS) ≤ s.ns then
    ((s.set F.YARD_PBCTL_CUR (s.get F.YARD_PBCTL_TARGET)).set F.YARD_PBCTL_ARMED 0).raise W.YARD E.YARD_PBSWITCH
  else s

def execPbSwitch (s : State) : Host.Outcome State Fault Refusal := .next s.pbSwitchOp

/-! Observation, R254 -/

/-- HIST_WINDOW: the bins are copied, VALID set and HISTVALID raised. -/
def State.histClose (s : State) : State :=
  if s.enabled 0x20 && s.yard.histAt + max 1 (s.get F.YARD_HISTCFG_WINDOW) * 1000000 ≤ s.ns then
    let t := (List.range 64).foldl (fun t k =>
      let n := (kget s.yard.bins k).getD 0
      let t := t.set (F.YARD_HIST_COUNT (k / 16) (k % 16)) n
      if n = 2 ^ 31 - 1 then t.set (F.YARD_HIST_OVF (k / 16) (k % 16)) 1 else t) s
    let t := { t with yard := { t.yard with bins := [], histAt := s.ns } }
    (t.set F.YARD_HISTCFG_VALID 1).raise W.YARD E.YARD_HISTVALID
  else s

def execHistWindow (s : State) : Host.Outcome State Fault Refusal := .next s.histClose

/-- ELOAD_WINDOW: a timebase millisecond has closed; LOAD is the part of it each engine held a wagon, RETIRED the
instructions it retired. -/
def State.loadClose (s : State) (retired : List Nat) : State :=
  if s.yard.loadAt / 1000000 < s.ns / 1000000 then
    let t := (List.range 48).foldl (fun t e =>
      if !t.winOn (coachWin e) then t
      else
        let x := t.eng e
        let b := x.busy + (if x.wag.isSome then s.ns - max x.since s.yard.loadAt else 0)
        let span := max 1 (s.ns - s.yard.loadAt)
        if s.yard.loadAt < (kget s.yard.coachOn (e / 8)).getD 0 then t.setEng e { x with busy := 0 }
        else ((t.setEng e { x with busy := 0 }).sets
          [(F.ENG_ELOAD_LOAD (e / 8) (e % 8), min 1000 (b * 1000 / span)), (F.ENG_ELOAD_VALID (e / 8) (e % 8), 1),
           (F.ENG_RETIRED_COUNT (e / 8) (e % 8), retired.getD e 0)])) s
    { t with yard := { t.yard with loadAt := s.ns } }
  else s

def execEloadWindow (retired : List Nat) (s : State) : Host.Outcome State Fault Refusal := .next (s.loadClose retired)

end Sys2Proof.Machine
end

