-- ==== Sys2Proof/Machine/Lim.lean ====
section
/-!
DEFINITION. The limiter: the regulatory image in force, the checks of a transmission, the duty meters and their snapshots:
spec/16, R331 to R336.
-/

namespace Sys2Proof.Machine

/-- The kHz band edges lo to hi lie within a range of the list. -/
def inRanges (l : List (Nat × Nat)) (lo hi : Nat) : Bool := l.any fun r => r.1 ≤ lo && hi ≤ r.2

/-- Two bands overlap. -/
def meets (a b c d : Nat) : Bool := a < d && c < b

/-- The image's entry for a port of LIM_PORTSEL. -/
def portImg (g : RegImage) (p : Nat) : PortImg := g.ports.getD p { gain := 0, cond := -400, ranges := [] }

/-- The transmit ceiling of a port in 0.25 dBm, R33. -/
def ceiling (port : Nat) : Int :=
  if port < 4 then 96 else if port < 12 then 92 else if port < 20 then 88 else if port < 22 then 120 else 80

/-- The occupied bandwidth of a mesh mode code in kHz, R331. -/
def State.modeBw (s : State) (mode : Nat) : Nat :=
  match s.lim.img with
  | some g => ((g.bw.find? fun e => e.1 == mode).map fun e => e.2).getD 0
  | none => 0

/-- The cap of a port, R333, in 0.25 dBm: n chains, steered or not, over the band lo to hi. Each logarithm is taken to the
0.25 dB that lowers the cap. -/
def State.limCap (s : State) (port lo hi n : Nat) (steer : Bool) (eirp psd : List (Int)) : Int :=
  match s.lim.img with
  | none => ceiling port
  | some g =>
    let q := portImg g port
    let a := if 1 < n then db40 n + 1 else 0
    let less := q.gain + a + (if steer then a else 0)
    let es := (g.eirp.filter fun e => meets e.lo e.hi lo hi)
    let b := db40 (hi - lo) - 120
    let caps := (es.map fun e => e.eirp - less) ++ (es.map fun e => e.psd + b - less) ++ (eirp.map fun e => e - less)
      ++ (psd.map fun e => e + b - less)
    caps.foldl min (min (ceiling port) q.cond)

/-- The part of the air time a to b that no interval of the list covers. -/
def uncov : List (Nat × Nat) → Nat → Nat → Nat
  | [], a, b => b - a
  | (c, d) :: t, a, b =>
    if d ≤ a || b ≤ c then uncov t a b
    else (if a < c then uncov t a c else 0) + (if d < b then uncov t d b else 0)

/-- The use of a meter in ns: the sum of its buckets, R334. -/
def State.meterUse (s : State) (m : Nat) : Nat := ((kget s.lim.buckets m).getD []).foldl (fun a e => a + e.2) 0

/-- The meters that a band overlaps, with their data. -/
def State.metersOf (s : State) (lo hi : Nat) : List (Nat × MeterImg) :=
  match s.lim.img with
  | none => []
  | some g => ((List.range (min 13 g.meters.length)).filterMap fun i => (g.meters[i]?).map fun m => (i, m)).filter
      fun e => meets e.2.lo e.2.hi lo hi

/-- The part of an air time that a meter would reserve, R334. -/
def State.limPart (s : State) (m frm til : Nat) : Nat :=
  uncov ((s.lim.adm.filter fun a => a.meter == m).map fun a => (a.frm, a.til)) frm til

/-- Adds ns of use to a meter, in the bucket that runs, else in a new one, R334. -/
def State.meterAdd (s : State) (m window n : Nat) : State :=
  let l := (kget s.lim.buckets m).getD []
  let l' := match l with
    | [] => [(s.ns, n)]
    | (t, u) :: r => if s.ns < t + window * 1000000000 / 60 then (t, u + n) :: r else (s.ns, n) :: (t, u) :: r
  let t := { s with lim := { s.lim with buckets := kset s.lim.buckets m l' } }
  if 2 ^ 32 - 1 ≤ t.meterUse m / 1000 && !bitOf (t.get F.LIM_METOVF_OVF) m then
    (t.set F.LIM_METOVF_OVF (t.get F.LIM_METOVF_OVF + 2 ^ m)).raise 0x05 E.LIM_CNTSAT
  else t

/-- A transmission the limiter is asked about: its number, port, band in kHz, air time in ns, whether it is an acknowledgement,
and the 6 GHz class it uses (0 none, 1 LPI, 2 SP). -/
structure LimAsk where
  id : Nat
  port : Nat
  lo : Nat
  hi : Nat
  frm : Nat
  til : Nat
  ack : Bool
  cls : Nat
  deriving DecidableEq, Repr

/-- The steps of R332 that refuse: 0 none, 1 channel, 2 class, 3 duty. With no image, and in safe hold, every transmission is
refused (R325). -/
def State.limCheck (s : State) (q : LimAsk) : Nat :=
  if s.env.phase = .safeHold then 1
  else match s.lim.img with
  | none => 1
  | some g =>
    if !inRanges (portImg g q.port).ranges q.lo q.hi then 1
    else if (q.cls == 1 && g.lpi.isNone) || (q.cls == 2 && g.sp.isNone) then 2
    else if (s.metersOf q.lo q.hi).all fun e => s.meterUse e.1 + s.limPart e.1 q.frm q.til ≤ e.2.limit * 1000 then 0 else 3

/-- LIM_ADMIT, R332, R334: admitted, with its duty reserved; or refused and counted: 0 CHREF, 1 DUTYREF, 2 CLASSREF, 3 ACKREF. -/
def State.limAdmit (s : State) (q : LimAsk) : Bool × State :=
  match s.limCheck q with
  | 0 => (true, (s.metersOf q.lo q.hi).foldl (fun t e =>
      let n := t.limPart e.1 q.frm q.til
      let t := t.meterAdd e.1 e.2.window n
      { t with lim := { t.lim with adm := ⟨e.1, q.id, q.frm, q.til, n⟩ :: t.lim.adm } }) s)
  | c =>
    let k := match c with | 1 => 0 | 2 => 2 | _ => 1
    let t := (s.bump 0x05 (0x80 + 4 * k) E.LIM_CNTSAT).raise 0x05 E.LIM_REFUSED
    (false, if q.ack then t.bump 0x05 (0x80 + 4 * 3) E.LIM_CNTSAT else t)

/-- Takes n ns from a meter's latest bucket. -/
def takeUse (l : List (Nat × Nat)) (n : Nat) : List (Nat × Nat) :=
  match l with
  | [] => []
  | (t, u) :: r => (t, u - n) :: r

/-- A transmission cut short counts only its actual air time, R334. -/
def State.limCut (s : State) (id : Nat) : State :=
  let mine := s.lim.adm.filter fun a => a.id == id
  let bs := mine.foldl (fun b a => kmod b a.meter fun l => takeUse l (min a.part (a.til - max a.frm s.ns))) s.lim.buckets
  { s with lim := { s.lim with buckets := bs, adm := s.lim.adm.map fun a =>
      if a.id = id then { a with til := max a.frm (min a.til s.ns) } else a } }

/-- METER_BUCKET_AGE, R334: buckets that began a window ago or earlier leave the meter. -/
def State.meterAge (s : State) (m : Nat) : State :=
  match s.lim.img with
  | none => s
  | some g =>
    match g.meters[m]? with
    | none => s
    | some x => { s with lim := { s.lim with
        buckets := kmod s.lim.buckets m fun l => l.filter fun e => s.ns < e.1 + x.window * 1000000000,
        adm := s.lim.adm.filter fun a => !(a.meter == m && a.til + x.window * 1000000000 ≤ s.ns) } }

def execMeterBucketAge (meter : Nat) (s : State) : Host.Outcome State Fault Refusal := .next (s.meterAge meter)

/-! Snapshots, R335, R336 -/

/-- The address of snapshot row r. -/
def snapRow (r : Nat) : Nat := 0x20060000 + 64 * r

/-- The words of a snapshot row but for its CRC. -/
def State.snapWords (s : State) (seq kind : Nat) : List Nat :=
  [seq, kind + s.lim.ver % 65536 * 65536] ++ (List.range 13).map fun m => min (2 ^ 32 - 1) (s.meterUse m / 1000)

/-- LIM writes a snapshot row, R335; one that fails to write is counted and raised. -/
def State.limSnap (s : State) (kind : Nat) (ok : Bool) : State :=
  if !ok then (s.bump 0x05 (0x80 + 4 * 4) E.LIM_CNTSAT).raise 0x05 E.LIM_SNAPERR
  else
    let seq := (s.lim.seq + 1) % 2 ^ 32
    let l := (s.snapWords seq kind).flatMap fun w => toLE 4 w
    let t := s.poke (snapRow s.lim.row) (l ++ toLE 4 (crc32 l))
    { t with lim := { t.lim with seq := seq, row := (s.lim.row + 1) % 4 } }

/-- LIM_SNAPSHOT: every 10 s, or every 1 s while the store supplies the module. -/
def execLimSnapshot (ok : Bool) (s : State) : Host.Outcome State Fault Refusal :=
  .next (if s.live then s.limSnap (if s.env.path = .bridging then 1 else 0) ok else s)

/-- Whether a snapshot row is valid. -/
def State.rowOk (s : State) (r : Nat) : Bool :=
  let l := s.peeks (snapRow r) 60
  s.peekN (snapRow r + 60) 4 == crc32 l

/-- The valid row with the highest SEQ modulo 2^32, R336. -/
def State.rowLast (s : State) : Option Nat :=
  (List.range 4).foldl (fun b r =>
    if !s.rowOk r then b
    else match b with
      | none => some r
      | some q => if (s.peekN (snapRow r) 4 + 2 ^ 32 - s.peekN (snapRow q) 4) % 2 ^ 32 < 2 ^ 31 then some r else b) none

/-- At start-up LIM restores each meter, R336. -/
def State.limRestore (s : State) : State :=
  match s.rowLast with
  | none => { s with lim := { s.lim with restore := 0, seq := 0, row := 0, buckets := [], adm := [] } }
  | some r =>
    let w := fun k => s.peekN (snapRow r + 4 * k) 4
    let plus := match w 1 % 4 with | 0 => 10000000 | 1 => 1000000 | _ => 0
    let same := w 1 / 65536 == s.lim.ver % 65536
    let top := (List.range 13).foldl (fun a m => max a (w (2 + m))) 0
    let ms := match s.lim.img with | some g => g.meters | none => []
    let bs : KMap (List (Nat × Nat)) := (List.range (min 13 ms.length)).map fun m =>
      (m, [(s.ns, min (((ms.map fun x => x.limit).getD m 0)) ((if same then w (2 + m) else top) + plus) * 1000)])
    { s with lim := { s.lim with restore := if same then 1 else 2, seq := w 0, row := (r + 1) % 4, buckets := bs, adm := [] } }

end Sys2Proof.Machine
end

