-- ==== Sys2Proof/Machine/Mac154.lean ====
section
/-!
DEFINITION. What IEEE 802.15.4 reads in a frame: its frame control, addresses, auxiliary security header and IEs (log entry 53); used by
R156, R164, R166, R177 to R180 and R266.
-/

namespace Sys2Proof.Machine

/-- The header IEs of a frame as (element identifier, content) and what stands after an IE that ends the list: the payload IEs after
0x7E, nothing after 0x7F. n bounds their number. -/
def headerIes : Nat → List Byte → List (Nat × List Byte) × List Byte
  | 0, _ => ([], [])
  | n + 1, l =>
    let d := ofLE (l.take 2)
    let rest := (l.drop 2).drop (d % 128)
    if l.length < 2 + d % 128 || 32768 ≤ d then ([], [])
    else if bitsOf d 7 8 = 0x7F then ([], [])
    else if bitsOf d 7 8 = 0x7E then ([], rest)
    else let r := headerIes n rest; ((bitsOf d 7 8, (l.drop 2).take (d % 128)) :: r.1, r.2)

/-- The content of the first short nested IE of a sub-identifier in an MLME IE. -/
def nestedIe (sub : Nat) : Nat → List Byte → Option (List Byte)
  | 0, _ => none
  | n + 1, l =>
    let d := ofLE (l.take 2)
    let len := if d < 32768 then d % 256 else d % 2048
    if l.length < 2 + len then none
    else if d < 32768 && bitsOf d 8 7 = sub then some ((l.drop 2).take len)
    else nestedIe sub n (l.drop (2 + len))

/-- The content of the first payload IE of a group, 1 being MLME. -/
def payloadIe (group : Nat) : Nat → List Byte → Option (List Byte)
  | 0, _ => none
  | n + 1, l =>
    let d := ofLE (l.take 2)
    if l.length < 2 + d % 2048 || d < 32768 || bitsOf d 11 4 = 15 then none
    else if bitsOf d 11 4 = group then some ((l.drop 2).take (d % 2048))
    else payloadIe group n (l.drop (2 + d % 2048))

/-- Octets of an address of a frame-control address mode. -/
def modeLen (m : Nat) : Nat := match m with | 2 => 2 | 3 => 8 | _ => 0

/-- Whether a frame of a version and address modes carries a destination and a source PAN identifier. -/
def pans (ver dm sm : Nat) (comp : Bool) : Bool × Bool :=
  if ver < 2 then (dm ≠ 0, sm ≠ 0 && !comp)
  else if dm = 0 && sm = 0 then (comp, false)
  else if sm = 0 then (!comp, false)
  else if dm = 0 then (false, !comp)
  else if dm = 3 && sm = 3 then (!comp, false)
  else (true, !comp)

/-- The octets of a key identifier of a key identifier mode. -/
def keyLen (m : Nat) : Nat := match m with | 1 => 1 | 2 => 5 | 3 => 9 | _ => 0

/-- The octets of the integrity code of a security level. -/
def micLen (lev : Nat) : Nat := match lev % 4 with | 1 => 4 | 2 => 8 | 3 => 16 | _ => 0

/-- The reading of a frame without its FCS; what stands beyond its end reads as 0. -/
def mac154 (l : List Byte) : Mac154 :=
  let fc := ofLE (l.take 2)
  let ver := bitsOf fc 12 2
  let typ := fc % 8
  let sec := bitOf fc 3
  let dm := bitsOf fc 10 2
  let sm := bitsOf fc 14 2
  let noSeq := ver == 2 && bitOf fc 8
  let pn := pans ver dm sm (bitOf fc 6)
  let a0 := if noSeq then 2 else 3
  let a1 := a0 + 2 * b2n pn.1
  let a2 := a1 + modeLen dm
  let a3 := a2 + 2 * b2n pn.2
  let a4 := a3 + modeLen sm
  let at' := fun (a n : Nat) => ofLE ((l.drop a).take n)
  let sc := if sec then at' a4 1 else 0
  let noCnt := bitOf sc 5 && ver == 2
  let a5 := a4 + b2n sec
  let a6 := if sec && !noCnt then a5 + 4 else a5
  let a7 := a6 + keyLen (bitsOf sc 3 2)
  let body := (l.take (l.length - micLen (bitsOf sc 0 3))).drop a7
  let hie := if ver = 2 && bitOf fc 9 then headerIes 64 body else ([], [])
  { fcs := false
    kind := match typ with | 0 => if ver = 2 then 0 else 4 | 1 => 1 | 2 => if ver = 2 then 2 else 4 | 3 => 3 | _ => 4
    ackReq := bitOf fc 5
    dstPan := if pn.1 then some (at' a0 2) else none
    dstMode := dm - 1
    dst := at' a1 (modeLen dm)
    srcMode := sm - 1
    src := at' a3 (modeLen sm)
    seq := if noSeq then none else some (at' 2 1)
    secured := sec
    keyMode := bitsOf sc 3 2
    keyIdx := if keyLen (bitsOf sc 3 2) = 0 then 0 else at' (a7 - 1) 1
    count := if sec && !noCnt then at' a5 4 else 0
    ies := hie.1.filterMap fun e => if e.1 = 0 && 3 ≤ e.2.length then some (ofLE (e.2.take 3), e.2.drop 3) else none
    tc := (hie.1.find? fun e => e.1 == 0x1E).map fun e => sgn 12 (ofLE (e.2.take 2))
    asn := if 4 ≤ bitsOf sc 0 3 then none
      else ((payloadIe 1 16 hie.2).bind fun c => nestedIe 0x1A 64 c).map fun c => ofLE (c.take 5) }

/-- A frame with its FCS: of 2 octets as R352 gives the CRC, of 4 octets by the CRC-32 of IEEE 802.15.4 (log entry 53). -/
def fcsOf (four : Bool) (l : List Byte) : List Byte := if four then toLE 4 (crc32 l) else toLE 2 (crc16 l)

/-- A PSDU without its FCS. -/
def noFcs (four : Bool) (l : List Byte) : List Byte := l.take (l.length - if four then 4 else 2)

/-- Whether the FCS of a PSDU is valid. -/
def fcsOk (four : Bool) (l : List Byte) : Bool := fcsOf four (noFcs four l) == l.drop (noFcs four l).length

end Sys2Proof.Machine
end

