-- ==== Sys2Proof/Machine/Mphy.lean ====
section
/-!
DEFINITION. Mesh reception and transmission: capture windows, listeners, noise floors, carriers: spec/06, R123 to R143, with
the stamps of R85 to R87.
-/

namespace Sys2Proof.Machine

/-! Stamps, R85 to R87 -/

/-- The timebase in units of 2^-16 ns, the format of a stamp. -/
def State.now16 (s : State) : Nat := s.tm.tb / 65536

/-- The span of the counter in 2^-16 ns: 2^48 s. -/
def stampMod : Nat := 2 ^ 48 * 1000000000 * 65536

/-- A stamp moved by a signed number of 2^-16 ns. -/
def moveStamp (a : Nat) (d : Int) : Nat := (((a : Int) + d) % (stampMod : Int)).toNat

/-- Nanoseconds of a stamp, its fraction ignored. -/
def stampNs (a : Nat) : Nat := a / 65536

/-! PHY modes, R128 to R130 -/

/-- The family of a mode code: 0 SUN FSK, 1 SUN OFDM, 2 O-QPSK. -/
def modeFam (m : Nat) : Nat := m / 64 % 4

/-- Whether a mode code is one R128 lists. -/
def modeOk (m : Nat) : Bool :=
  let r := m % 8
  match modeFam m with
  | 0 => r ≤ 4 && m < 64 && (!bitOf m 3 || r == 1 || r == 3)
  | 1 => bitsOf m 2 3 < 7 && Config.ofdmMcs (m % 4 + 1) (bitsOf m 2 3)
  | 2 => m == 0x80
  | _ => false

/-- The longest PSDU of a mode, R130. -/
def psduMax (m : Nat) : Nat := if modeFam m = 2 then 127 else 2047

/-- The PSDU length is within R130. -/
def psduOk (m n : Nat) : Bool := 5 ≤ n && n ≤ psduMax m

/-- SUN FSK with two levels and no FEC, whose octet time and header R128, R129 and the example of R158 give. -/
def fskPlain (m : Nat) : Bool := modeFam m == 0 && m % 8 ≤ 4 && !bitOf m 3 && !bitOf m 4

/-- The time in ns of n octets at the symbol rate of a two-level SUN FSK mode, R128. -/
def fskOctets (m n : Nat) : Nat := n * 8000000 / ([50, 100, 150, 200, 300].getD (m % 8) 50)

/-- A, R158: the air time in ns of the PHR and a PSDU of n octets. -/
def airNs (m n : Nat) : Nat := if fskPlain m then fskOctets m (2 + n) else Config.meshAir m n

/-- The air time in ns of the preamble, of pre octets on SUN FSK (R129), and the SFD of 2. -/
def preNs (m pre : Nat) : Nat := if fskPlain m then fskOctets m (pre + 2) else Config.meshPre m pre

/-- The preamble in octets of a mesh frame whose request names none: the default of R129 (log entry 52). -/
def preDef : Nat := 8

/-- A frame with its FCS of 4 or 2 octets. -/
def fcsAppend (four : Bool) (l : List Byte) : List Byte := l ++ fcsOf four l

/-- The receive correction of R87 in 2^-16 ns. -/
def meshRxCorr (m : Nat) : Nat :=
  match modeFam m with
  | 0 => (6400 + 1500000 / ([50, 100, 150, 200, 300].getD (m % 8) 50)) * 65536
  | 1 => (6400 + 120000) * 65536
  | _ => (2400 + 32000) * 65536

/-- The transmit correction of R87 in 2^-16 ns. -/
def meshTxCorr (m : Nat) : Nat := (if modeFam m = 2 then 800 else 1200) * 65536

/-- The receive stamp of a mesh frame whose SFD ends now, or 0 in software mode. -/
def State.meshStamp (s : State) (m : Nat) : Nat :=
  if s.on F.TIME_TSMODE_MESH then
    moveStamp s.now16 (-((meshRxCorr m : Int) + s.getI (F.TIME_RTRIM_RX 0) * 65536))
  else 0

/-! Counters and events -/

/-- MPHY's counter n. -/
def State.mphyCnt (s : State) (n : Nat) : State := s.bump W.MPHY (0xC0 + 4 * n) E.MPHY_CNTSAT

/-- RXFRAMES, a saturating counter of 63 bits. -/
def State.rxFrames (s : State) : State :=
  let v := s.get F.MPHY_RXFRAMESHI_COUNT * 2 ^ 32 + s.get F.MPHY_RXFRAMESLO_COUNT
  let m := 2 ^ 63 - 1
  if v = m then s
  else
    let t := (s.set F.MPHY_RXFRAMESLO_COUNT ((v + 1) % 2 ^ 32)).set F.MPHY_RXFRAMESHI_COUNT ((v + 1) / 2 ^ 32)
    if v + 1 = m then (t.set F.MPHY_RXFRAMESHI_OVF 1).raise W.MPHY E.MPHY_CNTSAT else t

/-! Listeners -/

/-- An Idle listener. -/
def lis0 : Lis :=
  { st := 0, aerial := 0, cur := none, next := none, cfg := 0, rssi := 0, nf := 0, stamp := 0, incr := 0, buf := none, trn := 0, len := 0,
    fcslen := false, dw := false }

/-- Listener l. -/
def State.lis (s : State) (l : Nat) : Lis := (kget s.mphy.lis l).getD lis0

/-- Stores listener l. -/
def State.setLis (s : State) (l : Nat) (x : Lis) : State :=
  { s with mphy := { s.mphy with lis := if x = lis0 then kdel s.mphy.lis l else kset s.mphy.lis l x } }

/-- MPHY_LCFG as it resets: THRMODE 1, CAPSPAN 0, MARGIN 12, THR 12. -/
def lcfg0 : Nat := 12 * 65536 + 12 * 4 + 1

/-- MPHY_LCFG of listener l. -/
def State.lcfg (s : State) (l : Nat) : Nat := (kget s.mphy.lcfg l).getD lcfg0

/-- A listener is powered under R125 while MPHY is on. -/
def State.powered (s : State) (l : Nat) : Bool :=
  s.winOn W.MPHY && (s.get F.PWR_STATUS_STATE == 0 || l < 56 || (256 ≤ l && l < 264)) && l < 288

/-- The aerial a listener chooses from its energies, R114, with a retired aerial left out (R378). p is the path. -/
def State.aerial (s : State) (p : Nat) (e0 e1 : Int) : Nat :=
  let r0 := s.retired (if p = 0 then 0x1018 else 0x1016)
  let r1 := s.retired (if p = 0 then 0x1019 else 0x1017)
  if r0 && !r1 then 1
  else if r1 && !r0 then 0
  else match s.get (F.RFE_PATHCFG_DIVMODE 3 p) with
    | 0 => 0
    | 1 => 1
    | _ => if (e0 - e1).natAbs < 2 * s.get (F.RFE_PATHCFG_DIVHYST 3 p) then s.get (F.RFE_PATHCFG_DIVPREF 3 p)
           else if e0 < e1 then 1 else 0

/-- The path of a listener. -/
def lisPath (l : Nat) : Nat := if l < 256 then 0 else 2

/-- The noise floor of a calibration entry in use, R135. -/
def State.floor (s : State) (entry : Nat) : Int :=
  match kget s.mphy.nf entry with
  | some v => sgn 16 v
  | none => sgn 16 (s.base F.MPHY_NFDATA_FLOOR)

/-- The entry of a channel, if one serves it. -/
def State.chanEntry (s : State) (l freq : Nat) : Option Nat := s.calFind 3 (lisPath l) freq 0

/-- The noise floor of a listener's channel. -/
def State.lisFloor (s : State) (l : Nat) : Int :=
  match (s.lis l).cur with
  | some a => match s.chanEntry l a.freq with | some e => s.floor e | none => sgn 16 (s.base F.MPHY_NFDATA_FLOOR)
  | none => 0

/-- The detection threshold of a listener, R131. -/
def State.lisThr (s : State) (l : Nat) : Int :=
  let c := (s.lis l).cfg
  if c % 2 = 0 then sgn 16 (c / 65536) else s.lisFloor l + sgn 16 (c / 65536)

/-- Entry to Search: the configuration word in force is taken, R131. -/
def State.lisSearch (s : State) (l : Nat) : State :=
  s.setLis l { s.lis l with st := 2, cfg := s.lcfg l, buf := none, len := 0, fcslen := false, dw := false }

/-- A listener returns to Idle. -/
def State.lisIdle (s : State) (l : Nat) : State := s.setLis l lis0

/-- With no next assignment a row whose Next is Search leads to Idle once the window close time has passed, R134. -/
def State.lisReturn (s : State) (l : Nat) : State :=
  match (s.lis l).cur with
  | some a => if s.ns < a.cls then s.lisSearch l else s.lisIdle l
  | none => s.lisIdle l

/-- MPHY tells MLC that an assignment is refused or void. -/
def State.lisTell (s : State) (l : Nat) (a : Asn) : State :=
  { s with mphy := { s.mphy with told := s.mphy.told ++ [(l, a)] } }

/-- A row whose Next is Search, and the end of a frame: the next assignment starts at the later of its window open time and now, R127;
when its window has closed it is void, and the listener goes where it goes with none, R134. -/
def State.lisBack (s : State) (l : Nat) : State :=
  let x := s.lis l
  match x.next with
  | none => s.lisReturn l
  | some a =>
    if a.cls < s.ns then (((s.setLis l { x with next := none }).mphyCnt 7).lisTell l a).lisReturn l
    else
      let t := (s.setLis l { lis0 with st := 1, cur := some a }).rxEntry 3 (lisPath l) a.freq 0
      if a.opn ≤ s.ns then t.lisSearch l else t

/-- Released, R134: the buffer and the dock slot reserved at the SFD are given back. -/
def State.lisRelease (s : State) (l : Nat) : State :=
  let x := s.lis l
  match x.buf with
  | none => s
  | some h =>
    ((s.unresv x.trn).bufRelease h).setLis l { x with buf := none }

/-- A channel centre lies inside an enabled window, R126. -/
def State.inWindow (s : State) (f : Nat) : Bool :=
  s.mphy.win.any fun e => e.2.1 + 1000 ≤ f && f + 1000 ≤ e.2.2

/-- The checks of R126. -/
def State.asnOk (s : State) (l : Nat) (a : Asn) : Bool :=
  s.powered l && s.on (F.CTRL_ENABLE W.MPHY) && modeOk a.mode &&
    (if l < 256 then modeFam a.mode < 2 && s.inWindow a.freq
     else modeFam a.mode == 2 && 2401000 ≤ a.freq && a.freq ≤ 2482500)

/-! The paths of RFE_M as MLC commands them, R100, R108 -/

/-- A listener's window opens within 2 ms, or is open. -/
def State.opensSoon (s : State) (a : Option Asn) : Bool :=
  match a with | some a => decide (a.opn ≤ s.ns + 2000000) | none => false

/-- A Tile's checks have passed, it runs or it acquires. -/
def State.tileUp (s : State) (t : Nat) : Bool :=
  (s.on (F.MLC_TILE_CTL_EN t) && (match kget s.mlc.tiles t with | some x => x.chk == 2 | none => false))
    || s.on (F.MLC_TILE_CTL_RUN t) || s.on (F.MLC_TILE_CTL_ACQ t)

/-- MLC wants receive path p of RFE_M in Rx, R100, R108: in Hush from 2 ms before a window until every window has closed and no
listener is in Header or Payload; else the sub-GHz path while a sub-GHz Tile is up, the 2.4 GHz path while a listener of it holds an
assignment. -/
def State.pathWant (s : State) (p : Nat) : Bool :=
  if s.get F.PWR_STATUS_STATE = 2 then
    (s.mphy.lis.any fun e => lisPath e.1 == p && (decide (5 ≤ e.2.st) || s.opensSoon e.2.cur || s.opensSoon e.2.next))
      || s.mlc.later.any fun e => lisPath e.1 == p && s.opensSoon (some e.2)
  else if p = 0 then (List.range 8).any fun t => s.get (F.MLC_TILE_CTL_BAND t) == 0 && s.tileUp t
  else s.mphy.lis.any fun e => lisPath e.1 == p

/-- MLC commands receive path p: Rx when it wants it there, released to REST when it no longer does; outside Hush the 2.4 GHz path is
left to REST, AFTERTX and AFTERRX (log entry 47). -/
def State.mlcPath1 (s : State) (p : Nat) : State :=
  let st := s.pst 3 p
  let held := s.mlc.held.contains p
  let drop := fun (t : State) => { t with mlc := { t.mlc with held := t.mlc.held.filter (· != p) } }
  if st = 0 || st = 5 then drop s
  else if s.pathWant p then
    let t := (s.pathRx 3 p true).getD s
    if held then t else { t with mlc := { t.mlc with held := p :: t.mlc.held } }
  else if held && st ≠ 4 && (p = 0 || s.get F.PWR_STATUS_STATE = 2) then drop (s.pathFree 3 p)
  else s

/-- MLC commands both receive paths. -/
def State.mlcPath (s : State) : State := (s.mlcPath1 0).mlcPath1 2

/-- Path 2 is blanked from the start of its transition into Tx until it has left Tx, R104. -/
def State.tx2 (s : State) : Bool :=
  let st := s.pst 3 2
  st == 4 || (s.path 3 2).txs.any fun d => decide (d.at' ≤ s.ns + transTime 3 2 st 4)

/-- A receive path is blanked: by a retune (R109, R124) or by a transmission on path 2 (R104). -/
def State.blanked (s : State) (p : Nat) : Bool := if p = 0 then s.on (F.RFE_PATHSTAT_TUNING 3 0) else s.tx2

/-- LISTENER_ASSIGN, R126, R127: accepted (true) or refused, counted OUTWIN and told to MLC. -/
def State.giveAsn (s : State) (l : Nat) (a : Asn) : Bool × State :=
  if !s.asnOk l a then (false, ((s.mphyCnt 6).raise W.MPHY E.MPHY_OUTWIN).lisTell l a)
  else
    let x := s.lis l
    if 5 ≤ x.st then (true, s.setLis l { x with next := some a })
    else (true, ((s.setLis l { lis0 with st := 1, cur := some a }).rxEntry 3 (lisPath l) a.freq 0).mlcPath)

/-- LISTENER_WINDOW_OPEN, R134. -/
def State.lisOpen (s : State) (l : Nat) : State :=
  let x := s.lis l
  match x.cur with
  | some a => if x.st = 1 && a.opn ≤ s.ns then s.lisSearch l else s
  | none => s

/-- The listener of a shared square does not receive on the channel of the frame MLC has on the air there, R159. -/
def State.deaf (s : State) (l : Nat) : Bool :=
  match (s.lis l).cur with
  | some a => s.mlc.tries.any fun r => r.own == some l && s.mphy.active.any fun c => c.id == r.id && c.freq == a.freq
  | none => false

/-- A shared-square frame has gone on the air: its listener leaves a frame it was receiving on that channel, R159. -/
def State.deafen (s : State) (id : Nat) : State :=
  match s.mlc.tries.find? fun r => r.id == id with
  | some r =>
    (match r.own with
    | some l => if 3 ≤ (s.lis l).st && s.deaf l then (s.lisRelease l).lisBack l else s
    | none => s)
  | none => s

/-! Noise floors, R135 -/

/-- The time in ns of a correlation unit, R132: a preamble octet of SUN FSK, a short training field period of SUN OFDM, a preamble
symbol of O-QPSK at 62.5 ksymbol/s. -/
def unitNs (m : Nat) : Nat :=
  match modeFam m with
  | 0 => fskOctets m 1 / (if bitOf m 3 then 2 else 1)
  | 1 => Config.stfNs m
  | _ => 16000

/-- Samples, newest first, that make up the most recent 256 ms. -/
def nfTrim : Nat → List (Nat × Int) → List (Nat × Int)
  | _, [] => []
  | n, e :: l => if n < 256000000 then e :: nfTrim (n + e.1) l else []

/-- The average energy of samples in 0.25 dBm, of their power. -/
def nfMean (l : List (Nat × Int)) : Int :=
  db40 ((l.foldl (fun a e => a + e.1 * powerN (e.2 + 400)) 0) / max 1 (l.foldl (fun a e => a + e.1) 0)) - 640

/-- A listener in Search has measured one unit with no preamble: a sample of its channel's floor, which is measured once 256 ms of them
exist. -/
def State.nfSample (s : State) (l : Nat) (e : Int) : State :=
  match (s.lis l).cur with
  | none => s
  | some a => match s.chanEntry l a.freq with
    | none => s
    | some i =>
      let k := nfTrim 0 ((unitNs a.mode, e) :: (kget s.mphy.nfs i).getD [])
      let full := decide (256000000 ≤ k.foldl (fun a e => a + e.1) 0)
      { s with mphy := { s.mphy with nfs := kset s.mphy.nfs i k,
                                     nf := if full then kset s.mphy.nf i (unsgn 16 (nfMean k)) else s.mphy.nf } }

/-! Detection, R131 to R134 -/

/-- Units that have correlated, R132: their normalised correlation in 1/256 reaches QTHR. -/
def State.corrCount (s : State) (f : Nat) (corr : List Nat) : Nat :=
  (corr.filter fun v => decide (s.get (F.MPHY_QUAL_QTHR f) ≤ v)).length

/-- The qualifier passes on M consecutive units of which N have correlated, R132. -/
def State.qualified (s : State) (f : Nat) (corr : List Nat) : Bool :=
  corr.length == s.get (F.MPHY_QUAL_M f) && decide (s.get (F.MPHY_QUAL_N f) ≤ s.corrCount f corr)

/-- SFDWAIT of a mode family; 0 acts as 1, R143. -/
def State.sfdWait (s : State) (f : Nat) : Nat := max 1 (s.get (F.MPHY_QUAL_SFDWAIT f))

/-- The mode family of a listener's assignment. -/
def State.lisFam (s : State) (l : Nat) : Nat := match (s.lis l).cur with | some a => modeFam a.mode | none => 0

/-- A listener may receive: its path is not blanked, and MLC does not send on its channel (R159). -/
def State.hears (s : State) (l : Nat) : Bool := !s.blanked (lisPath l) && !s.deaf l

/-- ENERGY_DETECT, R131, R135: e is the energy of one correlation unit in 0.25 dBm. Below the threshold it is a sample of the floor. -/
def State.lisEnergy (s : State) (l : Nat) (e : Int) : State :=
  let x := s.lis l
  if x.st ≠ 2 || !s.hears l then s
  else if s.lisThr l ≤ e then s.setLis l { x with st := 3, rssi := e }
  else s.nfSample l e

/-- QUALIFIER_PASS, R132, R114: corr is the correlation of the qualifier's units. -/
def State.lisQualify (s : State) (l : Nat) (corr : List Nat) (e0 e1 : Int) : State :=
  let x := s.lis l
  if x.st = 3 && s.hears l && s.qualified (s.lisFam l) corr then s.setLis l { x with st := 4, aerial := s.aerial (lisPath l) e0 e1 } else s

/-- QUALIFIER_FAIL, R134: M units without N correlated, or energy e below the threshold. -/
def State.lisUnqualify (s : State) (l : Nat) (corr : List Nat) (e : Int) : State :=
  let f := s.lisFam l
  if (s.lis l).st = 3 && ((corr.length == s.get (F.MPHY_QUAL_M f) && !s.qualified f corr) || decide (e < s.lisThr l)) then s.lisBack l else s

/-- SFD_MATCH, R134, R17: within SFDWAIT units; rssi over the preamble and SFD. A buffer and a wagon slot are reserved, or NOBUF is
counted. -/
def State.lisSfd (s : State) (l units : Nat) (rssi : Int) : State :=
  let x := s.lis l
  match x.cur with
  | none => s
  | some a =>
    if x.st ≠ 4 || !s.hears l || s.sfdWait (modeFam a.mode) < units then s
    else
      let p := s.bufAlloc (psduMax a.mode)
      let fail := fun (u : State) => ((u.mphyCnt 4).raise W.MPHY E.MPHY_NOBUF).lisBack l
      match p.1 with
      | none => fail p.2
      | some h =>
        match p.2.resvSlot a.tile with
        | none => fail (p.2.bufRelease h)
        | some u => u.setLis l { x with st := 5, rssi := rssi, nf := s.lisFloor l, stamp := s.meshStamp a.mode,
                                        incr := s.tm.incr, buf := some h, trn := s.origTrain a.tile }

/-- SFDWAIT_EXPIRE, R134: so many units have passed without an SFD. -/
def State.lisFalse (s : State) (l units : Nat) : State :=
  if (s.lis l).st = 4 && s.sfdWait (s.lisFam l) ≤ units then (s.mphyCnt 0).lisBack l else s

/-- STRONGER_PREAMBLE, R133: a further preamble of energy e whose units pass the qualifier on the secondary correlator. -/
def State.lisCapture (s : State) (l : Nat) (corr : List Nat) (e e0 e1 : Int) : State :=
  let x := s.lis l
  let margin := bitsOf x.cfg 2 6
  let y := { x with st := 4, rssi := e, aerial := s.aerial (lisPath l) e0 e1 }
  if margin = 0 || e < x.rssi + 2 * margin || !s.hears l || !s.qualified (s.lisFam l) corr then s
  else if x.st = 4 then s.setLis l y
  else if x.st = 5 || (x.st = 6 && bitOf x.cfg 1) then
    ((s.mphyCnt 3).lisRelease l).setLis l { y with buf := none, len := 0, fcslen := false, dw := false }
  else s

/-- A listener in Header or Payload loses its frame to the blanking of its channel, R134. -/
def State.lisBlank (s : State) (l : Nat) : State := (((s.mphyCnt 5).raise W.MPHY E.MPHY_BLANK).lisRelease l).lisBack l

/-- The PHR check, R129: on SUN FSK the mode-switch bit and the reserved bits are 0, on SUN OFDM the header check sequence holds, on
O-QPSK the reserved bit is 0. -/
def phrOk (fam : Nat) (h : Phr) : Bool :=
  match fam with
  | 0 => !h.modeSwitch && h.reserved == 0
  | 1 => h.hcs
  | _ => h.reserved == 0

/-- PHR_END, R129, R130, R134, with the PSDU length, the FCS type (true: 2 octets) and whitening of the PHR. -/
def State.lisPhr (s : State) (l : Nat) (h : Phr) (len : Nat) (fcslen dw : Bool) : State :=
  let x := s.lis l
  match x.cur with
  | none => s
  | some a =>
    if x.st ≠ 5 then s
    else if s.blanked (lisPath l) then s.lisBlank l
    else if !phrOk (modeFam a.mode) h then ((s.mphyCnt 1).lisRelease l).lisBack l
    else if !psduOk a.mode len then ((s.mphyCnt 2).lisRelease l).lisBack l
    else
      let fsk := modeFam a.mode == 0
      s.setLis l { x with st := 6, len := len, fcslen := fsk && fcslen, dw := fsk && dw }

/-- Words 0 to 9 of the header of a mesh frame, R138, R239. -/
def meshHeader (l : Nat) (x : Lis) (a : Asn) (rep : RxRep) : List Nat :=
  let ns := x.stamp / 65536
  let sec := ns / 1000000000
  [ a.tile % 8 * 4 + (if x.stamp = 0 then 0 else 32) + x.len % 16384 * 1024, 0,
    x.stamp % 65536 + sec / 2 ^ 32 % 65536 * 65536, ns % 1000000000, sec % 2 ^ 32,
    l % 512 + x.aerial % 2 * 512 + a.tile % 8 * 1024 + a.mode % 256 * 8192 + x.len % 2048 * 2097152,
    a.freq % 2 ^ 24 + b2n x.fcslen * 2 ^ 24 + b2n x.dw * 2 ^ 25 + b2n rep.fosat * 2 ^ 26,
    unsgn 16 x.rssi + unsgn 16 x.nf * 65536, unsgn 16 rep.snr, unsgn 20 rep.fofs ]

/-- Writes header words to a buffer from word k up, except CHAIN, which MEM holds (R349). -/
def State.pokeHdr (s : State) (h k : Nat) (ws : List Nat) : State :=
  ((List.range ws.length).filter fun i => i + k ≠ 1).foldl
    (fun t i => t.pokeN (handleAddr h + 4 * (i + k)) 4 (ws.getD i 0)) s

/-- The data of a buffer. -/
def State.pokeData (s : State) (h ofs : Nat) (l : List Byte) : State := s.poke (handleAddr h + 64 + ofs) l

/-- Header word k of a buffer. -/
def State.hdrW (s : State) (h k : Nat) : Nat := s.peekN (handleAddr h + 4 * k) 4

/-- LENGTH of a frame. -/
def State.frmLen (s : State) (h : Nat) : Nat := bitsOf (s.hdrW h 0) 10 14

/-- The octets of a frame. -/
def State.frame (s : State) (h : Nat) : List Byte := s.peeks (handleAddr h + 64) (s.frmLen h)

/-- The number of taps of a SUN OFDM option, R137. -/
def tapCount (m : Nat) : Nat := match m % 4 with | 0 => 104 | 1 => 52 | 2 => 26 | _ => 14

/-- EQDONE: the taps (I and Q in turn) of an armed listener's SUN OFDM frame are written, R105, R137. -/
def State.eqExport (s : State) (l m : Nat) (taps : List Nat) : State :=
  if s.on F.MPHY_EQCFG_ARMED && s.get F.MPHY_EQCFG_LISTENER == l && modeFam m == 1 then
    let a := s.get F.MPHY_EQADDR_ADDR
    let t := (List.range (2 * tapCount m)).foldl
      (fun t i => t.dmaWord (a + 4 * i) (unsgn 32 (sgn 20 (taps.getD i 0)))) s
    (t.set F.MPHY_EQCFG_ARMED 0).raise W.MPHY E.MPHY_EQDONE
  else s

/-- PSDU_END, R134, R136 to R138: the frame and its report go to MLC. -/
def State.lisPsdu (s : State) (l : Nat) (psdu : List Byte) (rep : RxRep) (taps : List Nat) : State :=
  let x := s.lis l
  match x.cur, x.buf with
  | some a, some h =>
    if x.st ≠ 6 then s
    else if s.blanked (lisPath l) then s.lisBlank l
    else
      let d := psdu.take x.len
      let fo := clampI (-524287) 524287 rep.fofs
      let r : RxRep := { rep with fofs := fo, fosat := rep.fosat || fo != rep.fofs }
      let t := ((s.pokeHdr h 0 (meshHeader l x a r)).pokeData h 0 d).rxFrames.eqExport l a.mode taps
      let y : Handed := { lis := l, aerial := x.aerial, asn := a, buf := h, trn := x.trn, stamp := x.stamp, incr := x.incr,
                          fcslen := x.fcslen, snr := r.snr, fofs := r.fofs, fosat := r.fosat, rssi := x.rssi, ended := s.ns, psdu := d,
                          jd := none }
      (({ t with mphy := { t.mphy with handed := t.mphy.handed ++ [y] } }).setLis l { x with buf := none }).lisBack l
  | _, _ => s

/-- LISTENER_WINDOW_CLOSE, R134; a next assignment that a captured frame has left starts, R127, R133. -/
def State.lisClose (s : State) (l : Nat) : State :=
  let x := s.lis l
  match x.cur with
  | some a => if a.cls ≤ s.ns && 2 ≤ x.st && x.st ≤ 4 then s.lisBack l else s
  | none => s

/-- LISTENER_BLANK, R134: every listener in Header or Payload on a blanked path loses its frame. -/
def State.blank (s : State) (p : Nat) : State :=
  (s.mphy.lis.filter fun e => lisPath e.1 == p && 5 ≤ e.2.st).foldl (fun t e => t.lisBlank e.1) s

/-- A listener is released to Idle: MPHY SRESET or its loss of power, R134. -/
def State.lisDrop (s : State) (l : Nat) : State := (s.lisRelease l).lisIdle l

/-- Listeners that are no longer powered are released, R125, R134. -/
def State.lisPower (s : State) : State :=
  (s.mphy.lis.filter fun e => !s.powered e.1).foldl (fun t e => t.lisDrop e.1) s

/-! Capture windows, R123, R124 -/

/-- The staged windows that are on, by number, as lower and upper edge in kHz. -/
def State.stagedWin (s : State) : KMap (Nat × Nat) :=
  ((List.range 4).filter fun k => s.on (F.MPHY_WIN_WIDTH k)).map fun k =>
    let w := [0, 5000, 10000, 20000, 40000].getD (s.get (F.MPHY_WIN_WIDTH k)) 0
    (k, s.get (F.MPHY_WIN_CENTRE k) - w / 2, s.get (F.MPHY_WIN_CENTRE k) + w / 2)

/-- A group of windows spans at most 120 MHz. -/
def spanFits (l : List (Nat × Nat)) : Bool :=
  l.all fun a => l.all fun b => b.2 ≤ a.1 + 120000

/-- The windows fall into at most two such groups, R124. -/
def groupsOk (l : List (Nat × Nat)) : Bool :=
  (List.range 16).any fun m =>
    let q := (List.range l.length).zip l
    spanFits ((q.filter fun e => bitOf m e.1).map fun e => e.2) && spanFits ((q.filter fun e => !bitOf m e.1).map fun e => e.2)

/-- WINDOW_APPLY, R109, R124: the staged set, as the registers hold it at this moment, takes effect, and where it changes a window the
preselector retunes, blanking the path; or it is refused (log entry 50). -/
def State.winApply (s : State) : State :=
  if !s.on F.MPHY_WINCTL_PENDING then s
  else
    let w := s.stagedWin
    let t := s.set F.MPHY_WINCTL_PENDING 0
    if groupsOk (w.map fun e => e.2) then
      let u := { t with mphy := { t.mphy with win := w } }
      let u := if w = s.mphy.win then u
        else ((u.setPath 3 0 { u.path 3 0 with tuneEnd := s.ns + 20000 }).set (F.RFE_PATHSTAT_TUNING 3 0) 1).blank 0
      u.raise W.MPHY E.MPHY_WINAPPLIED
    else t.raise W.MPHY E.MPHY_WINREF

/-! Carriers, R140 to R142 -/

/-- A mesh transmit port's path of RFE_M. -/
def carrPath (port : Nat) : Nat := if port < 22 then 1 else 2

/-- A carrier as a command to its path. -/
def State.carrCmd (s : State) (c : Carr) : TxCmd :=
  { id := c.id, port := c.port, freq := c.freq, bw := s.modeBw c.mode, width := 0, timed := true, at' := c.at', dur := c.dur,
    act := c.act }

/-- Carriers of a port that are accepted or active; path 2 uses one port at a time. -/
def State.portCarr (s : State) (port : Nat) : List Carr :=
  (s.mphy.waiting ++ s.mphy.active).filter fun d => carrPath d.port == carrPath port && (22 ≤ port || d.port == port)

/-- The carriers on the air at time t. -/
def onAir (l : List Carr) (t : Nat) : List Carr := l.filter fun d => d.at' ≤ t && t < d.at' + d.dur

/-- The instants of an air time at which what is on the air can be greatest. -/
def instants (c : Carr) (l : List Carr) : List Nat :=
  c.at' :: ((l.map fun d => d.at').filter fun t => c.at' ≤ t && t < c.at' + c.dur)

/-- More than 32 carriers at some instant, R141; on path 2 one port sends at a time, R33 (log entry 48). -/
def carrFull (c : Carr) (l : List Carr) : Bool :=
  (instants c l).any fun t => decide (32 ≤ (onAir l t).length) || (onAir l t).any fun d => d.port != c.port

/-- The greatest power on the port during a new carrier, in 10^-6 mW. -/
def carrSum (c : Carr) (l : List Carr) : Nat :=
  (instants c l).foldl (fun a t => max a ((onAir l t).foldl (fun b d => b + powerN d.power) (powerN c.power))) 0

/-- The excess of the power check in 0.25 dB, rounded up, R142. -/
def State.carrExcess (s : State) (c : Carr) : Nat :=
  let bw := s.modeBw c.mode
  let avail := s.limCap c.port (c.freq - bw / 2) (c.freq + (bw + 1) / 2) 1 false [] []
  let sum := carrSum c (s.portCarr c.port)
  (firstFrom (fun k => sum ≤ powerN (avail + k)) 400 0).getD 400

/-- The status of R141 of a refusal of R110. -/
def statusOf110 (n : Nat) : Nat := match n with | 1 => 2 | 2 => 3 | 3 => 4 | 4 => 1 | 5 => 5 | _ => 2

/-- Records the status of a carrier request; a refusal raises TXREF. -/
def State.carrStatus (s : State) (st : Nat) : State :=
  let t := { s with mphy := { s.mphy with status := st } }
  t.raiseIf (st != 0) W.MPHY E.MPHY_TXREF

/-- A carrier on the port path 2 has left when the other is retired, R378. -/
def State.livePort (s : State) (c : Carr) : Carr :=
  if 22 ≤ c.port && s.retired (0x1000 + c.port) then { c with port := 45 - c.port } else c

/-- CARRIER_REQUEST, R141: the checks in order; accepted, reduced under R142, or refused with a status. -/
def State.carrReq (s : State) (c : Carr) : Nat × State :=
  let p := carrPath c.port
  let c := s.livePort c
  let lent := s.retired (0x1000 + c.port)
  let c := { c with dur := preNs c.mode c.pre + airNs c.mode c.psdu.length }
  if !s.enabled W.MPHY || !s.enabled (W.RFE 3) || lent then (2, s.carrStatus 2)
  else if !psduOk c.mode c.psdu.length then (6, (s.mphyCnt 8).carrStatus 6)
  else if !modeOk c.mode || (modeFam c.mode == 2) != decide (22 ≤ c.port) then (7, (s.mphyCnt 9).carrStatus 7)
  else if carrFull c (s.portCarr c.port) then (8, (s.mphyCnt 10).carrStatus 8)
  else
    let chk := s.txCheck 3 p (s.carrCmd c)
    if chk.1 ≠ 0 then (statusOf110 chk.1, (s.txRefuse 3 chk.1).carrStatus (statusOf110 chk.1))
    else
      let red := s.carrExcess c
      if 4 * s.get F.MPHY_TXCFG_MAXRED < red then (9, (s.mphyCnt 11).carrStatus 9)
      else
        let bw := s.modeBw c.mode
        let q : LimAsk := { id := c.id, port := c.port, lo := c.freq - bw / 2, hi := c.freq + (bw + 1) / 2, frm := c.at',
                            til := c.at' + c.dur, ack := c.cls == 1, cls := 0 }
        let a := s.limAdmit q
        if !a.1 then (10, a.2.carrStatus 10)
        else
          let d := { c with power := c.power - red }
          let t := (a.2.txAccept 3 p chk.2).txBound 3 p
          let t := { t with mphy := { t.mphy with waiting := t.mphy.waiting ++ [d], red := red } }
          let t := if red = 0 then t else (t.mphyCnt 12).raise W.MPHY E.MPHY_PWRRED
          (0, t.carrStatus 0)

/-- MPHY_CARRSTAT follows the carriers active. -/
def State.carrShow (s : State) : State :=
  let n := fun p => (s.mphy.active.filter p).length
  s.sets [(F.MPHY_CARRSTAT_MT0, n fun d => d.port == 20), (F.MPHY_CARRSTAT_MT1, n fun d => d.port == 21),
    (F.MPHY_CARRSTAT_MG, n fun d => 22 ≤ d.port)]

/-- A carrier goes on the air at its launch time, R140, by when the path is in Tx (R110); the port's return loss is measured (R116), and
on path 2 the listeners are blanked (R134). -/
def State.carrLaunch (s : State) (id : Nat) : State :=
  match s.mphy.waiting.find? fun d => d.id == id with
  | none => s
  | some c =>
    if s.ns < c.at' then s
    else
      let p := carrPath c.port
      let t := { s with mphy := { s.mphy with waiting := s.mphy.waiting.filter fun d => d.id != id,
                                              active := s.mphy.active ++ [c] } }
      let t := (t.set (F.RFE_PATHSTAT_STATE 3 p) 4).carrShow
      let t := (t.setPath 3 p { t.path 3 p with nxt := none, goal := 4 }).reflAir 3 [c.port]
      if p = 2 then t.blank 2 else t

/-- A carrier leaves the air or the queue of accepted ones. -/
def State.carrDrop (s : State) (id : Nat) : State :=
  ({ s with mphy := { s.mphy with waiting := s.mphy.waiting.filter fun d => d.id != id,
                                  active := s.mphy.active.filter fun d => d.id != id } }).carrShow

end Sys2Proof.Machine
end

