-- ==== Sys2Proof/Machine/Timebase.lean ====
section
/-!
DEFINITION. TIME: the tick, the slew, steps and counter writes, the reference, PPS, measurements and the sync state, and time
across Hush and Dormant: spec/04, R76 to R103. The effects of a register write stand here; the writes themselves are in
Writes.lean.
-/

namespace Sys2Proof.Machine

/-- The span of the counter: 2^48 seconds in units of 2^-32 ns, R76. -/
def tbMod : Nat := 2 ^ 48 * 1000000000 * 2 ^ 32

/-- One second in units of 2^-32 ns. -/
def tbSec : Nat := 1000000000 * 2 ^ 32

/-- The ends of the range of the increment, R78. -/
def incrMin : Nat := 0x3FEF9DB23
def incrMax : Nat := 0x4010624DD

/-- Stores an increment, clamped with INCRCLAMP, R78. -/
def State.setIncr (s : State) (v : Int) : State :=
  let c := clampI incrMin incrMax v
  let t := { s with tm := { s.tm with incr := c.toNat } }
  t.raiseIf (c != v) W.TIME E.TIME_INCRCLAMP

/-- Whether any Tile is enabled in MLC, R80; a follow Tile does not count (R144). -/
def State.anyTile (s : State) : Bool :=
  (List.range 8).any fun t => s.on (F.MLC_TILE_CTL_EN t) && !s.on (F.MLC_TILE_CTL_FOLLOW t)

/-- The largest step while a Tile is enabled, ns. -/
def State.stepMax (s : State) : Nat := s.get F.TIME_STEPMAX_MAX

/-- The slew rate in units of 2^-32 ns a tick of 4 ns: RATE ppm of the nominal increment, R79, without its fraction (log entry 56). -/
def State.slewRate (s : State) : Nat := clampN 1 1000 (s.get F.TIME_SLEWCFG_RATE) * 2 ^ 34 / 1000000

/-- The slew adjustment of a tick of 4 ns, the sum held within the range of the increment, R78, R79. -/
def State.slewPart (s : State) : Int :=
  if s.tm.slew = 0 then 0
  else if 0 < s.tm.slew then min (s.slewRate : Int) ((incrMax : Int) - s.tm.incr)
  else max (-(s.slewRate : Int)) ((incrMin : Int) - s.tm.incr)

/-- A quantity of one 4 ns tick at the tick in force: a 40 MHz tick of Hush is 6.25 of it, R100. -/
def Tick.scale (t : Tick) (x : Int) : Int :=
  match t with
  | .run => x
  | .hush => x * 25 / 4
  | .stopped => 0

/-- What the next tick removes of the slew: no more than is left, R79. -/
def State.slewNow (s : State) : Int :=
  let a := s.tm.tick.scale s.slewPart
  if 0 < s.tm.slew then min a s.tm.slew else max a s.tm.slew

/-- What the next tick adds to the counter, R81: the increment and the slew adjustment. -/
def State.tickAdd (s : State) : Nat := (s.tm.tick.scale s.tm.incr + s.slewNow).toNat

/-- A change of the time applied to the counter, R80, R82: the counter, the sum of the steps in ns so far, and whether one was refused
because it would make TIME_SEC negative. The offset of a counter write counts as a step in whole ns. -/
def applyChange (a : Nat × Int × Bool) (c : TimeChange) : Nat × Int × Bool :=
  match c with
  | .step n =>
    let v := (a.1 : Int) + n * 2 ^ 32
    if v < 0 then (a.1, a.2.1, true) else (v.toNat % tbMod, a.2.1 + n, a.2.2)
  | .load v =>
    let w := v * 65536 % tbMod
    (w, a.2.1 + ((w : Int) - a.1) / 2 ^ 32, a.2.2)

/-- The counter as the next tick leaves it by its addition and the changes that wait, R81. -/
def State.tickNext (s : State) : Nat × Int × Bool := s.tm.pend.foldl applyChange ((s.tm.tb + s.tickAdd) % tbMod, 0, false)

/-- Asks for a step of n ns at the next tick, or refuses it with STEPREF, R80: judged on the counter as it will stand there. -/
def State.askStep (s : State) (n : Int) : State :=
  if (s.anyTile && s.stepMax < n.natAbs) || (s.tickNext.1 : Int) + n * 2 ^ 32 < 0 then s.raise W.TIME E.TIME_STEPREF
  else { s with tm := { s.tm with pend := s.tm.pend ++ [.step n] } }

/-- Asks for a counter value at the next tick, or refuses it with STEPREF: seconds, nanoseconds and fraction, R80. -/
def State.askLoad (s : State) (sec ns frac : Nat) : State :=
  let v := (sec * 1000000000 + ns) * 65536 + frac
  let off : Int := (v : Int) * 65536 - (s.tickNext.1 : Int)
  if ns > 999999999 || (s.anyTile && (s.stepMax * 2 ^ 32 : Nat) < off.natAbs) then s.raise W.TIME E.TIME_STEPREF
  else { s with tm := { s.tm with pend := s.tm.pend ++ [.load v] } }

/-- Replaces the amount still to slew by n ns; 0 cancels the slew, R79. -/
def State.setSlew (s : State) (n : Int) : State :=
  { s with tm := { s.tm with slew := n * 2 ^ 32, slewing := n != 0 } }

/-- The nominal period of the tick in force in ns, R97, R369. -/
def Tick.period (t : Tick) : Nat :=
  match t with
  | .run => 4
  | .hush => 25
  | .stopped => 0

/-- The sync state moves to st; every change raises STATECHG, R97. -/
def State.syncTo (s : State) (st : Nat) : State :=
  let t := { s with tm := { s.tm with acq := if st = 1 then 0 else s.tm.acq } }
  if s.get F.TIME_STATE_STATE = st then t
  else (t.set F.TIME_STATE_STATE st).raise W.TIME E.TIME_STATECHG

/-- TIME_UNC set to v, holding at all-ones, R96. -/
def State.setUnc (s : State) (v : Nat) : State := s.set F.TIME_UNC_UNC (min v 0xFFFFFFFF)

/-- Coasting and Resumed become Adrift when TIME_UNC exceeds TIME_UNCMAX, R97. -/
def State.driftCheck (s : State) : State :=
  let st := s.get F.TIME_STATE_STATE
  if (st = 3 || st = 5) && s.get F.CPL_STAT_STATE < 4 && s.get F.TIME_UNCMAX_MAX < s.get F.TIME_UNC_UNC then
    (s.syncTo 4).raise W.TIME E.TIME_ADRIFT
  else s

/-- The growth of TIME_UNC over dt ns, R96. -/
def State.growUnc (s : State) (dt : Nat) : State :=
  if s.get F.TIME_STATE_STATE = 0 then s
  else
    let a := s.tm.uncAcc + s.get F.TIME_UNCCFG_RATE * dt
    let t := { s with tm := { s.tm with uncAcc := a % 1000000000 } }
    (t.setUnc (t.get F.TIME_UNC_UNC + a / 1000000000)).driftCheck

/-- The EPOCH of Tile t in ns, R145. -/
def State.epoch (s : State) (t : Nat) : Nat :=
  (s.get (F.MLC_TILE_EPOCHSECHI_SEC t) * 2 ^ 32 + s.get (F.MLC_TILE_EPOCHSECLO_SEC t)) * 1000000000
    + s.get (F.MLC_TILE_EPOCHNS_NS t)

/-- Stores the EPOCH of a Tile. -/
def State.setEpoch (s : State) (t ns : Nat) : State :=
  s.sets [(F.MLC_TILE_EPOCHNS_NS t, ns % 1000000000), (F.MLC_TILE_EPOCHSECLO_SEC t, ns / 1000000000 % 2 ^ 32),
    (F.MLC_TILE_EPOCHSECHI_SEC t, ns / 1000000000 / 2 ^ 32)]

/-- MLC adds a step to the EPOCH of a follow Tile, one that stops included, R145. -/
def State.followStep (s : State) (n : Int) : State :=
  if n = 0 then s
  else (List.range 8).foldl (fun t i =>
    if t.on (F.MLC_TILE_CTL_FOLLOW i) && (t.on (F.MLC_TILE_CTL_EN i) || t.on (F.MLC_TILE_CTL_RUN i)) then t.setEpoch i ((t.epoch i : Int) + n).toNat else t) s

/-- Whether PPS_OUT pulses in the sync state, R98. -/
def State.ppsOn (s : State) : Bool :=
  match s.get F.TIME_STATE_STATE with
  | 2 => true
  | 3 => true
  | 5 => true
  | _ => s.on F.TIME_PPSCFG_ALWAYS

/-- PPS_OUT rises when the tick's addition carries into the seconds, R88; its width runs in elapsed time, which no step moves. -/
def State.ppsPulse (s : State) (before after : Nat) : State :=
  if before / tbSec < after / tbSec && s.ppsOn then
    { s with tm := { s.tm with ppsOut := true, ppsEnd := s.tm.mono + s.tm.tick.period + clampN 1 999999 (s.get F.TIME_PPSCFG_WIDTH) * 1000 } }
  else s

/-- The residency counters over dt ns of elapsed time, R369: the state in force and the level of each powered rail. -/
def State.residency (s : State) (dt : Nat) : State :=
  let st := s.get F.PWR_STATUS_STATE
  let r := lmod s.pwr.res st (· + dt)
  let r := lmod r (4 + s.get F.PWR_PERFSTAT_FABRIC) (· + dt)
  let r := if st < 2 then lmod r (8 + s.get F.PWR_PERFSTAT_CLUSTER) (· + dt) else r
  { s with pwr := { s.pwr with res := r } }

/-- One tick, in the order of R81: the increment in force, the slew, the addition, then steps and counter writes; one that would make the
seconds negative is refused. -/
def tickOp (s : State) : State :=
  if s.tm.tick == .stopped || !s.live then s
  else
    let add := s.tickAdd
    let dt := s.tm.tick.period
    let nx := s.tickNext
    let t := s.ppsPulse s.tm.tb (s.tm.tb + add)
    let t := { t with tm := { t.tm with tb := nx.1, slew := s.tm.slew - s.slewNow, pend := [], elapsed := t.tm.elapsed + dt,
                                        mono := t.tm.mono + dt, calAcc := t.tm.calAcc + add } }
    (((t.raiseIf nx.2.2 W.TIME E.TIME_STEPREF).followStep nx.2.1).residency dt).growUnc dt

/-- PPS_OUT_END, R88: PPS_OUT falls when it has been high for WIDTH. -/
def execPpsOutEnd (s : State) : Host.Outcome State Fault Refusal :=
  .next (if s.tm.ppsOut && s.tm.ppsEnd ≤ s.tm.mono then { s with tm := { s.tm with ppsOut := false } } else s)

/-- SLEW_END, R79: nothing is left to remove, the slew ends and SLEWDONE is raised. -/
def execSlewEnd (s : State) : Host.Outcome State Fault Refusal :=
  .next (if s.tm.slewing && s.tm.slew == 0 then
    ({ s with tm := { s.tm with slewing := false } }).raise W.TIME E.TIME_SLEWDONE else s)

/-! The reference, R83, R84 -/

/-- x divided and multiplied, rounded to the nearest. -/
def ratio (x mul div : Nat) : Nat := (2 * x * mul + div) / (2 * max div 1)

/-- TIME switches reference: to REF10_IN or back to the TCXO. The increment is divided by the ratio of the new tick frequency
to the old, so the rate of time is unchanged, and REFSWITCH is raised, R84. -/
def State.refSwitch (s : State) (toExt : Bool) : State :=
  if s.on F.TIME_REFCTL_ACTIVE = toExt then s
  else
    let i := if toExt then ratio s.tm.incr s.tm.refDen s.tm.refNum else ratio s.tm.incr s.tm.refNum s.tm.refDen
    ((s.setIncr i).set F.TIME_REFCTL_ACTIVE (b2n toExt)).raise W.TIME E.TIME_REFSWITCH

/-- Uses the reference that SEL and EXTVALID ask for; in Hush only the TCXO, R83, R100. -/
def State.refChoose (s : State) : State :=
  s.refSwitch (s.on F.TIME_REFCTL_SEL && s.on F.TIME_REFCTL_EXTVALID && s.tm.tick == .run)

/-- REF10_VALID, R83, R84: num / den is the ratio of the REF10_IN tick frequency to that of the TCXO over the 1 s window that ends now. It
is given again for every later window while both sources are valid, so that a switch divides by the last ratio measured. -/
def execRef10Valid (num den : Nat) (s : State) : Host.Outcome State Fault Refusal :=
  .next (if s.live && s.domSt 1 == 2 && num != 0 && den != 0 then
    (({ s with tm := { s.tm with refNum := num, refDen := den } }).set F.TIME_REFCTL_EXTVALID 1).refChoose else s)

/-- REF10_LOSS, R83. -/
def execRef10Loss (s : State) : Host.Outcome State Fault Refusal :=
  .next (if s.on F.TIME_REFCTL_EXTVALID then
    ((s.set F.TIME_REFCTL_EXTVALID 0).raise W.TIME E.TIME_REFLOSS).refChoose else s)

/-! Measurements, R93 to R97 -/

/-- x / d rounded to the nearest, halves away from 0. -/
def roundDiv (x : Int) (d : Nat) : Int :=
  if 0 ≤ x then (2 * x + d) / (2 * d) else -((2 * (-x) + d) / (2 * d))

/-- TIME_SYNCIVL in nanoseconds. -/
def State.syncIvl (s : State) : Nat := max 1 (s.get F.TIME_SYNCIVL_IVL) * 1000000

/-- The hardware servo acts on y, R95. -/
def State.servo (s : State) (y : Int) : State :=
  if !s.on F.TIME_SYNCCFG_SERVO then s
  else if s.stepMax < y.natAbs && s.on F.TIME_SYNCCFG_STEPOK && !s.anyTile then s.askStep (-y)
  else
    let t := s.setIncr ((s.tm.incr : Int) - roundDiv (y * 2 ^ 34) (2 ^ s.get F.TIME_SYNCCFG_KI * s.syncIvl))
    let sl := roundDiv (-y * 2 ^ 32) (2 ^ s.get F.TIME_SYNCCFG_KP)
    { t with tm := { t.tm with slew := sl, slewing := sl != 0 } }

/-- The next sync state after a measurement y, R97, and the Acquiring count. -/
def State.measState (s : State) (y : Int) : State :=
  let thr := s.get F.TIME_LOCKCFG_THR
  let small := decide (y.natAbs ≤ thr)
  match s.get F.TIME_STATE_STATE with
  | 0 => s.syncTo 1
  | 1 =>
    let a := if small then s.tm.acq + 1 else 0
    let t := { s with tm := { s.tm with acq := a } }
    if max 1 (s.get F.TIME_LOCKCFG_N) ≤ a then t.syncTo 2 else t
  | 3 => s.syncTo 2
  | 4 => s.syncTo 1
  | 5 => if small then s.syncTo 2 else s.syncTo 1
  | _ => s

/-- CPL in Syncing, Shadow, Stale or Watch: TIME follows the Lead, or runs on its last increment in Coasting, R312. -/
def State.trails (s : State) : Bool := 4 ≤ s.get F.CPL_STAT_STATE

/-- A measurement y arrives, R93 to R97; on a Trail it is shown and counted, and nothing follows it (R312). -/
def State.measure (s : State) (y : Int) : State :=
  let t := (s.setI F.TIME_LASTMEAS_Y y).satAdd F.TIME_MEASCNT_COUNT F.TIME_MEASCNT_OVF W.TIME E.TIME_CNTSAT 1
  if s.trails then t
  else
    let t := (t.set F.TIME_STATE_MISSES 0).setUnc (y.natAbs + s.get F.TIME_UNCCFG_FLOOR)
    let t := { t with tm := { t.tm with meas := true, uncAcc := 0 } }
    (t.servo y).measState y

/-- The sync state after SRC is written, R97; old is the source before. The boundaries run from here; a measurement that has arrived since
the last one still counts for the interval that begins (log entry 57). -/
def State.srcWritten (s : State) (old : Nat) : State :=
  let src := s.get F.TIME_SYNCCFG_SRC
  let t := { s with tm := { s.tm with elapsed := 0 } }
  if src = 0 then (t.setUnc 0xFFFFFFFF).syncTo 0
  else if t.get F.TIME_STATE_STATE ≠ 0 && src ≠ old then (t.set F.TIME_STATE_MISSES 0).syncTo 1
  else t

/-- A boundary of TIME_SYNCIVL passes, R97. -/
def State.boundary (s : State) : State :=
  let t := { s with tm := { s.tm with elapsed := s.tm.elapsed - s.syncIvl, meas := false } }
  if s.tm.meas || s.trails then t
  else
    let t := t.satAdd F.TIME_MISSCNT_COUNT F.TIME_MISSCNT_OVF W.TIME E.TIME_CNTSAT 1
    let t := t.satAdd F.TIME_STATE_MISSES F.TIME_STATE_MOVF W.TIME E.TIME_CNTSAT 1
    let m := t.get F.TIME_STATE_MISSES
    match t.get F.TIME_STATE_STATE with
    | 2 => if 3 ≤ m then (t.syncTo 3).raise W.TIME E.TIME_COASTING else t
    | 3 => if 16 ≤ m then (t.syncTo 4).raise W.TIME E.TIME_ADRIFT else t.driftCheck
    | 5 => if 16 ≤ m then (t.syncTo 4).raise W.TIME E.TIME_ADRIFT else t.driftCheck
    | _ => t

/-- SYNC_IVL_BOUNDARY, R97: the boundary falls once IVL ms of elapsed time have passed. -/
def execSyncIvlBoundary (s : State) : Host.Outcome State Fault Refusal :=
  .next (if s.syncIvl ≤ s.tm.elapsed then s.boundary else s)

/-- The parts of the counter as R76 names them: seconds, nanoseconds, fraction. -/
def tbSecOf (tb : Nat) : Nat := tb / tbSec
def tbNsOf (tb : Nat) : Nat := tb / 2 ^ 32 % 1000000000
def tbFracOf (tb : Nat) : Nat := tb / 65536 % 65536

/-- PPS_IN_EDGE, R88, R93: the capture, and with SRC = 3 the measurement of it. -/
def execPpsInEdge (s : State) : Host.Outcome State Fault Refusal :=
  .next (if s.live && s.domSt 1 == 2 && s.tm.tick != .stopped then
    let ns := tbNsOf s.tm.tb
    let t := (s.sets [(F.TIME_PPSFRAC_FRAC, tbFracOf s.tm.tb), (F.TIME_PPSNS_NS, ns),
      (F.TIME_PPSSECLO_SEC, tbSecOf s.tm.tb % 2 ^ 32), (F.TIME_PPSSECHI_SEC, tbSecOf s.tm.tb / 2 ^ 32)]).raise
        W.TIME E.TIME_PPSCAP
    if s.get F.TIME_SYNCCFG_SRC = 3 then
      t.measure (if ns < 500000000 then (ns : Int) else (ns : Int) - 1000000000)
    else t
  else s)

/-! Hush and Dormant, R100 to R102 -/

/-- The tick moves to 40 MHz on entry to Hush, R100. -/
def State.hushEntry (s : State) : State :=
  let t := { s with tm := { s.tm with tick := .hush } }
  t.refChoose

/-- The tick returns to 250 MHz, R100. -/
def State.hushExit (s : State) : State :=
  let t := { s with tm := { s.tm with tick := .run } }
  t.refChoose

/-- SLEEP_CAL_WINDOW, R101: 32,768 sleep edges have passed; TIME_SLPPER takes the mean period in 2^-16 ns, its rest dropped (log entry 56).
What the ticks have added is the elapsed time: no step or counter write counts. -/
def execSleepCalWindow (s : State) : Host.Outcome State Fault Refusal :=
  .next (if s.live && s.tm.tick != .stopped then
    let p := s.tm.calAcc / 2 ^ 31
    ({ s with tm := { s.tm with calAcc := 0 } }).sets
      [(F.TIME_SLPPER_FRAC, p % 65536), (F.TIME_SLPPER_INT, p / 65536), (F.TIME_SLPCFG_CALVALID, 1)]
  else s)

/-- The sleep period in 2^-16 ns and the drift in ppm that a wake uses, R102. -/
def State.slpPer (s : State) : Nat :=
  if s.on F.TIME_SLPCFG_CALVALID then s.get F.TIME_SLPPER_INT * 65536 + s.get F.TIME_SLPPER_FRAC else 0x77359400
def State.slpDrift (s : State) : Nat :=
  if s.on F.TIME_SLPCFG_CALVALID then s.get F.TIME_SLPCFG_DRIFT else 200

/-- The elapsed time E of n sleep edges in 2^-16 ns, R102. -/
def State.slpElapsed (s : State) (n : Nat) : Nat := n * s.slpPer

/-- The counter loaded and TIME_UNC grown at a wake from Dormant n edges after T0, R102; the sync state becomes Resumed
unless it was Free, R97. -/
def State.timeRestore (s : State) (n : Nat) : State :=
  let e := s.slpElapsed n
  let u := s.get F.TIME_UNC_UNC + (e * s.slpDrift + 65536 * 1000000 - 1) / (65536 * 1000000)
  let c := (s.tm.t0 + e * 65536) % tbMod
  let tm : TimeS := { s.tm with tb := c, tick := .run, elapsed := 0, meas := false, calAcc := 0 }
  let t : State := { s with tm := tm }
  let t := t.set F.TIME_SLPCFG_CALVALID 0
  if t.get F.TIME_STATE_STATE = 0 then t else (t.setUnc u).syncTo 5

end Sys2Proof.Machine
end

