-- ==== Sys2Proof/Machine/Mnode.lean ====
section
/-!
DEFINITION. Node records, short addresses, verdicts, drift, downlink queues and rebuilds: spec/08, R169 to R192.
-/

namespace Sys2Proof.Machine

/-- MNODE's counter n. -/
def State.mnCnt (s : State) (n : Nat) : State := s.bump W.MNODE (0x100 + 4 * n) E.MNODE_CNTSAT

/-- Changes MNODE's own state. -/
def State.setMn (s : State) (m : MnodeS) : State := { s with mn := m }

/-! Where node state lies, R169 to R172 -/

/-- The base of table copy c. -/
def State.tbl (s : State) (c : Nat) : Nat :=
  if c = 0 then s.get F.MNODE_TBL0HI_ADDR * 2 ^ 32 + s.get F.MNODE_TBL0LO_ADDR
  else s.get F.MNODE_TBL1HI_ADDR * 2 ^ 32 + s.get F.MNODE_TBL1LO_ADDR

/-- The address of record i in copy c. -/
def State.recAddr (s : State) (c i : Nat) : Nat := s.tbl c + 64 * i

/-- Whether a copy of a record holds an uncorrectable error. -/
def State.recUe (s : State) (c i : Nat) : Bool := s.ueIn (s.recAddr c i) 64

/-- The copy that serves a read, R172: during a rebuild its source copy, R191. -/
def State.recCopy (s : State) (i : Nat) : Nat :=
  if (s.opSt W.MNODE = 2 && s.get F.MNODE_REBCFG_MODE = 1) || (s.recUe 0 i && !s.mn.cache.contains i) then 1 else 0

/-- Word w of record i. -/
def State.recW (s : State) (i w : Nat) : Nat := s.peekN (s.recAddr (s.recCopy i) i + 4 * w) 4

/-- Stores word w of record i in both copies, R172, in whole words of 64 bits. -/
def State.setRecW (s : State) (i w v : Nat) : State :=
  let l := (List.range 2).flatMap fun k => toLE 4 (if 2 * (w / 2) + k = w then v else s.recW i (2 * (w / 2) + k))
  (s.poke (s.recAddr 0 i + 8 * (w / 2)) l).poke (s.recAddr 1 i + 8 * (w / 2)) l

/-- A field of a record: word, lowest bit, width. -/
def State.recF (s : State) (i w lo len : Nat) : Nat := bitsOf (s.recW i w) lo len

/-- Stores a field of a record. -/
def State.setRecF (s : State) (i w lo len v : Nat) : State :=
  let o := s.recW i w
  s.setRecW i w (o - bitsOf o lo len * 2 ^ lo + v % 2 ^ len * 2 ^ lo)

/-- STATE of a record: 0 Free, 1 Associated, 2 Held. -/
def State.recState (s : State) (i : Nat) : Nat := s.recF i 2 19 3

/-- The record as octets. -/
def State.recBytes (s : State) (i : Nat) : List Byte := s.peeks (s.recAddr (s.recCopy i) i) 64

/-- The address of the map entry of short address a on Tile t, and of the shadow entry of record i. -/
def mapAt (t a : Nat) : Nat := 0x13500000 + 4 * (65536 * t + a)
def shadowAt (i : Nat) : Nat := 0x13700000 + 4 * i

/-- A map entry, and one written by its parts, R171. -/
def State.mapE (s : State) (t a : Nat) : Nat := s.peekN (mapAt t a) 4
def mapWord (i key : Nat) (held valid : Bool) : Nat := i % 2 ^ 18 + key % 2 ^ 12 * 2 ^ 18 + b2n held * 2 ^ 30 + b2n valid * 2 ^ 31
def State.setMap (s : State) (t a v : Nat) : State := s.pokeN (mapAt t a) 4 v

/-- PFC and PKNOWN of a record, R173. -/
def State.setPfcRec (s : State) (i c : Nat) (known : Bool) : State := (s.setRecW i 5 c).setRecF i 2 25 1 (b2n known)

/-- The shadow entry and the known bit of a record, R169, R181. -/
def State.setShadow (s : State) (i c : Nat) (known : Bool) : State :=
  let t := s.pokeN (shadowAt i) 4 c
  { t with mlc := { t.mlc with known := if known then kset t.mlc.known i 1 else kdel t.mlc.known i } }

/-- PFC and PKNOWN with the shadow entry and the known bit, R181: ALLOC, SETKEY, REVIVED, a rebuild. -/
def State.setPfc (s : State) (i c : Nat) (known : Bool) : State := (s.setPfcRec i c known).setShadow i c known

/-- The shadow entry and the known bit follow a frame that MNODE accepts, R181; a later count that MLC has accepted stays. -/
def State.shadowUp (s : State) (i c : Nat) : State :=
  if (kget s.mlc.known i).isSome && c ≤ s.peekN (shadowAt i) 4 then s else s.setShadow i c true

/-- A record is lost in both copies, R172: MNODE knows its map entry (log entry 51). -/
def State.recLose (s : State) (i : Nat) : State :=
  let t := (s.recF i 2 16 3, s.recF i 2 0 16)
  let e := s.mapE t.1 t.2
  let u := s.setMap t.1 t.2 (bitsOf e 0 30)
  ((u.setMn { u.mn with lost := i :: u.mn.lost }).set F.MNODE_LOSTIDX_INDEX i).raise W.MNODE E.MNODE_BOTHERR

/-- The record goes to the front of the cache of 16,384, R172. -/
def State.recCache (s : State) (i : Nat) : State :=
  s.setMn { s.mn with cache := (i :: s.mn.cache.filter fun j => j != i).take 16384 }

/-- RECORD_COPY_ERROR, R172: a read of a record that the cache does not hold; one damaged copy is repaired and reported, two
lose the record. -/
def State.recLoad (s : State) (i : Nat) : State :=
  if s.mn.cache.contains i || !s.recUe 0 i then s.recCache i
  else if s.recUe 1 i then
    (if s.mn.lost.contains i then s else ((s.ueHit (s.recAddr 0 i) 64).ueHit (s.recAddr 1 i) 64).recLose i)
  else
    let a := s.recAddr 0 i
    let t := (s.ueHit a 64).poke a (s.peeks (s.recAddr 1 i) 64)
    ((t.mnCnt 11).raise W.MNODE E.MNODE_COPYERR).recCache i

/-- A record no longer counts as lost, and its words are good again: it is written whole. -/
def State.recFresh (s : State) (i : Nat) (ws : List Nat) : State :=
  let t := s.setMn { s.mn with lost := s.mn.lost.filter fun j => j != i, missed := s.mn.missed.filter fun j => j != i }
  let l := (List.range 16).flatMap fun w => toLE 4 (ws.getD w 0)
  ((t.poke (s.recAddr 0 i) l).poke (s.recAddr 1 i) l).recCache i

/-- A list of words with field [lo + len - 1:lo] of word w set. -/
def setField (l : List Nat) (w lo len v : Nat) : List Nat :=
  lset l w (l.getD w 0 - bitsOf (l.getD w 0) lo len * 2 ^ lo + v % 2 ^ len * 2 ^ lo)

/-- A lost record written whole again at its release, R172: its addresses, Tile and key from the index and the map, PFC and PKNOWN from
the shadow and the bitmap, Held; no other word can be read, and each holds a free value (log entry 51). -/
def State.recSalvage (s : State) (i : Nat) : State :=
  let t := s.recF i 2 16 3
  let a := s.recF i 2 0 16
  let ext := s.recW i 0 + s.recW i 1 * 2 ^ 32
  let p := s.peekN (shadowAt i) 4
  let known := (kget s.mlc.known i).isSome
  let ws := (List.range 16).map fun k => Config.free (s.free + k) % 2 ^ 32
  let ws := lset (lset (lset ws 0 (ext % 2 ^ 32)) 1 (ext / 2 ^ 32)) 5 p
  let ws := lset ws 2 (a + t * 2 ^ 16 + 2 * 2 ^ 19 + b2n (p == 0xFFFFFFFF) * 2 ^ 24 + b2n known * 2 ^ 25)
  let ws := setField (setField (setField (setField ws 3 16 12 (bitsOf (s.mapE t a) 18 12)) 6 24 8 0) 13 20 12 0) 14 16 16 0
  ({ s with free := s.free + 16 }).recFresh i ws

/-! Downlink queues, R188 to R190 -/

/-- The queue of a record, and the shared queue of a Tile. -/
def State.nodeQ (s : State) (i : Nat) : List QEnt := (kget s.mn.q i).getD []
def State.sharedQ (s : State) (t : Nat) : List QEnt := (kget s.mn.sq t).getD []

/-- Stores a node queue with QDEPTH and the pending bit, R23, R189. -/
def State.setNodeQ (s : State) (i : Nat) (l : List QEnt) : State :=
  let s := s.recLoad i
  let t := s.setMn { s.mn with q := if l.isEmpty then kdel s.mn.q i else kset s.mn.q i l }
  let t := { t with mlc := { t.mlc with pend := if l.isEmpty then kdel t.mlc.pend i else kset t.mlc.pend i 1 } }
  let promo := match l with | e :: _ => e.promo | [] => false
  (t.setRecF i 2 28 4 l.length).setRecF i 2 27 1 (b2n promo)

/-- Stores a shared queue. -/
def State.setSharedQ (s : State) (t : Nat) (l : List QEnt) : State :=
  s.setMn { s.mn with sq := if l.isEmpty then kdel s.mn.sq t else kset s.mn.sq t l }

/-- Frames now queued: a promoted frame counts once. -/
def State.queued (s : State) : Nat :=
  s.mn.q.foldl (fun a e => a + e.2.length) 0 + s.mn.sq.foldl (fun a e => a + (e.2.filter fun x => !x.promo).length) 0

/-- QMAX in force for a record. -/
def State.qmax (s : State) (i : Nat) : Nat :=
  let m := s.recF i 3 28 4
  if m = 0 then max 1 (s.get F.MNODE_DLCFG_QDEF) else m

/-- A frame dropped for want of room, R188: status QFULL. -/
def State.mnFull (s : State) (o : Out) (miss : Bool) : State :=
  ((s.mnCnt 8).raise W.MNODE E.MNODE_QFULL).outDone o miss 7 none

/-- DOWNLINK_ENQUEUE, R188: a node queue for DEST 2, a shared queue for DEST 3; a frame for no Associated record ends GONE. -/
def State.mnEnqueue (s : State) (o : Out) (miss : Bool) : State :=
  let full := max 1 (s.get F.MNODE_DLTOTAL_TOTAL) ≤ s.queued
  let e : QEnt := { out := o, miss := miss, since := s.ns, retries := 0, rec' := none, promo := false }
  if o.dest = 2 then
    let i := o.queue % 2 ^ 18
    let s := if s.enabled W.MNODE then s.recLoad i else s
    if !s.enabled W.MNODE || s.recState i ≠ 1 || s.mn.lost.contains i then s.outDone o miss 8 none
    else if full || s.qmax i ≤ (s.nodeQ i).length then s.mnFull o miss
    else s.setNodeQ i (s.nodeQ i ++ [{ e with rec' := some i }])
  else
    let t := o.queue % 8
    if !s.enabled W.MNODE then s.outDone o miss 8 none
    else if full || 256 ≤ (s.sharedQ t).length then s.mnFull o miss
    else s.setSharedQ t (s.sharedQ t ++ [e])

/-- The attempts of a frame that is removed lose it, so that their result is discarded, R190. -/
def State.tryForget (s : State) (h : Nat) : State :=
  let f := fun (r : Try) => match r.q with | some e => if e.out.handle = h then { r with q := none } else r | none => r
  { s with mlc := { s.mlc with tries := s.mlc.tries.map f } }

/-- Removes a frame from every queue that holds it, by its handle. -/
def State.qDrop (s : State) (h : Nat) : State :=
  let s := s.tryForget h
  let keep := fun (l : List QEnt) => l.filter fun e => e.out.handle != h
  let t := s.mn.q.foldl (fun t e => if e.2.any fun x => x.out.handle == h then t.setNodeQ e.1 (keep e.2) else t) s
  s.mn.sq.foldl (fun t e => if e.2.any fun x => x.out.handle == h then t.setSharedQ e.1 (keep e.2) else t) t

/-- The entry of a queued frame. -/
def State.qFind (s : State) (h : Nat) : Option QEnt :=
  (s.mn.q.flatMap fun e => e.2) ++ (s.mn.sq.flatMap fun e => e.2) |>.find? fun e => e.out.handle == h

/-- A queued frame ends with a status and its departure stamp. -/
def State.qEnd (s : State) (h status : Nat) (stamp : Option Nat) : State :=
  match s.qFind h with
  | none => s
  | some e => (s.qDrop h).outDone e.out e.miss status stamp

/-- Changes a queued frame wherever it stands. -/
def State.qMod (s : State) (h : Nat) (f : QEnt → QEnt) : State :=
  let g := fun (l : List QEnt) => l.map fun e => if e.out.handle = h then f e else e
  s.setMn { s.mn with q := s.mn.q.map (fun e => (e.1, g e.2)), sq := s.mn.sq.map (fun e => (e.1, g e.2)) }

/-- PENDING_PROMOTION, R189: the queue head joins the tail of the Tile's shared queue; with no room there it does not. -/
def State.promote (s : State) (i : Nat) : State :=
  let t := s.recF i 2 16 3
  match s.nodeQ i with
  | e :: r =>
    if e.promo || 256 ≤ (s.sharedQ t).length then s
    else (s.setNodeQ i ({ e with promo := true } :: r)).setSharedQ t (s.sharedQ t ++ [{ e with promo := true }])
  | [] => s

/-- Every frame of a node is flushed, R190. -/
def State.qFlush (s : State) (i : Nat) : State :=
  (s.nodeQ i).foldl (fun t e => (t.mnCnt 10).qEnd e.out.handle 8 none) s

/-- DOWNLINK_EXPIRE, R190. -/
def State.qExpire (s : State) (h : Nat) : State :=
  match s.qFind h with
  | none => s
  | some e =>
    let ttl := s.get F.MNODE_DLCFG_TTL
    if ttl ≠ 0 && e.since + ttl * 1000000000 ≤ s.ns then (s.mnCnt 9).qEnd h 9 none else s

def execDownlinkExpire (handle : Nat) (s : State) : Host.Outcome State Fault Refusal := .next (s.qExpire handle)

/-! Commands, R174 to R176, R182 -/

/-- A command ends with a result. -/
def State.mnDone (s : State) (result : Nat) : State :=
  (((s.setMn { s.mn with cmd := none }).set F.MNODE_CMD_CBUSY 0).set F.MNODE_CMD_RESULT result).raise
    W.MNODE E.MNODE_CMDDONE

/-- The record a command returns. -/
def State.mnShow (s : State) (i : Nat) : State :=
  s.sets [(F.MNODE_RES_INDEX, i), (F.MNODE_RES_STATE, s.recState i), (F.MNODE_RESSHORT_SHORT, s.recF i 2 0 16)]

/-- Runs command op when it is the one in progress. -/
def State.mnRun (s : State) (op : Nat) (f : State → List Nat → State) : State :=
  match s.mn.cmd with
  | some (o, args) => if o = op && s.winOn W.MNODE then f s args else s
  | none => s

/-- GO, R176: one command at a time; a reserved OP ends BADARG. -/
def State.mnGo (s : State) (rq : Rq) : State :=
  if s.on F.MNODE_CMD_CBUSY then s.errRec rq W.MNODE 0x70 4
  else
    let op := s.get F.MNODE_CMD_OP
    if op = 0 || 8 < op then s.mnDone 5
    else (s.setMn { s.mn with cmd := some (op, (List.range 4).map fun n => s.get (F.MNODE_ARG_ARG n)) }).set
      F.MNODE_CMD_CBUSY 1

/-- Whether address a of Tile t is neither in use nor Held. -/
def State.addrFree (s : State) (t a : Nat) : Bool := bitsOf (s.mapE t a) 30 2 == 0

/-- The first free address after the Tile's last assigned one, R174. -/
def State.nextAddr (s : State) (t : Nat) : Option Nat :=
  let l := (kget s.mn.last t).getD 0xFFFD
  ((List.range 0xFFFE).map fun k => (l + 1 + k) % 0xFFFE).find? fun a => s.addrFree t a

/-- The words of a new record, R174. -/
def State.newRec (s : State) (ext t key train qm a : Nat) : List Nat :=
  [ext % 2 ^ 32, ext / 2 ^ 32, a + t * 2 ^ 16 + 1 * 2 ^ 19, key * 2 ^ 16 + qm * 2 ^ 28, 0, 0, train, 0, 0, 0, 0, 0,
    s.sec % 2 ^ 32, 0, 0, 0]

/-- ALLOC, R174. -/
def State.mnAlloc (s : State) (args : List Nat) : State :=
  let ext := args.getD 0 0 + args.getD 1 0 * 2 ^ 32
  let g := args.getD 2 0
  let t := bitsOf g 0 3
  let key := bitsOf g 4 12
  let a := args.getD 3 0 % 65536
  match kget s.mn.idx ext with
  | some i =>
    let u := s.recLoad i
    if u.recF i 2 16 3 ≠ t then u.mnDone 6
    else if u.recState i = 1 then (u.mnShow i).mnDone 1
    else
      let sh := u.recF i 2 0 16
      let u := ((u.setRecF i 2 19 3 1).setRecF i 2 26 1 0).setRecF i 2 22 2 0
      let u := (((u.setRecF i 3 0 16 0).setRecW i 4 0).setRecW i 7 0).setRecW i 12 (s.sec % 2 ^ 32)
      let u := (((u.setRecW i 8 0).setRecW i 9 0).setRecW i 10 0).setRecW i 11 0
      let u := (u.setRecF i 6 12 12 0).setPfc i (u.recW i 5) (u.recF i 2 25 1 == 1)
      ((u.setMap t sh (mapWord i (u.recF i 3 16 12) false true)).mnShow i).mnDone 2
  | none =>
    if bitOf g 3 && 0xFFFD < a then s.mnDone 5
    else
      let p := s.pick (fun i => s.recState i == 0 && !s.mn.lost.contains i) 262144 0
      match p.1 with
      | none => p.2.mnDone 3
      | some i =>
        let s' := p.2
        let ad := if bitOf g 3 then (if s'.addrFree t a then some a else none) else s'.nextAddr t
        match ad with
        | none => s'.mnDone 4
        | some sh =>
          let u := s'.recFresh i (s'.newRec ext t key (bitsOf g 16 12) (bitsOf g 28 4) sh)
          let u := (u.setPfc i 0 false).setMap t sh (mapWord i key false true)
          let u := u.setMn { u.mn with idx := kset u.mn.idx ext i, used := u.mn.used + 1, last := kset u.mn.last t sh }
          (u.mnShow i).mnDone 0

def execAlloc (s : State) : Host.Outcome State Fault Refusal := .next (s.mnRun 1 State.mnAlloc)

/-- RELEASE, R175. A record lost under R172 may be released: it is written whole. -/
def State.mnRelease (s : State) (args : List Nat) : State :=
  let i := args.getD 0 0 % 2 ^ 18
  let u := s.recLoad i
  if u.mn.lost.contains i && u.recState i ≠ 0 then
    let t := u.recF i 2 16 3
    let a := u.recF i 2 0 16
    let key := bitsOf (u.mapE t a) 18 12
    let u := (u.qFlush i).recSalvage i
    let u := u.setRecW i 12 (s.sec % 2 ^ 32)
    ((u.setMap t a (mapWord i key true false)).mnShow i).mnDone 0
  else if u.recState i ≠ 1 then u.mnDone 5
  else
    let t := u.recF i 2 16 3
    let a := u.recF i 2 0 16
    let key := u.recF i 3 16 12
    let u := u.qFlush i
    let u := (u.setRecF i 2 19 3 2).setRecW i 12 (s.sec % 2 ^ 32)
    ((u.setMap t a (mapWord i key true false)).mnShow i).mnDone 0

def execRelease (s : State) : Host.Outcome State Fault Refusal := .next (s.mnRun 2 State.mnRelease)

/-- READ, R174. -/
def State.mnRead (s : State) (args : List Nat) : State :=
  let i := args.getD 0 0 % 2 ^ 18
  let u := s.recLoad i
  (((List.range 16).foldl (fun t w => t.set (F.MNODE_RDBUF_WORD w) (u.recW i w)) u).mnShow i).mnDone 0

def execRead (s : State) : Host.Outcome State Fault Refusal := .next (s.mnRun 3 State.mnRead)

/-- SETKEY, R182. -/
def State.mnSetkey (s : State) (args : List Nat) : State :=
  let i := args.getD 0 0 % 2 ^ 18
  let key := args.getD 1 0 % 2 ^ 12
  let u := s.recLoad i
  if u.recState i ≠ 1 then u.mnDone 5
  else
    let t := u.recF i 2 16 3
    let a := u.recF i 2 0 16
    let u := ((u.setRecF i 3 16 12 key).setPfc i 0 false).setRecF i 2 24 1 0
    ((u.setMap t a (mapWord i key false true)).mnShow i).mnDone 0

def execSetkey (s : State) : Host.Outcome State Fault Refusal := .next (s.mnRun 4 State.mnSetkey)

/-- FINDEXT, R174. -/
def State.mnFindext (s : State) (args : List Nat) : State :=
  match kget s.mn.idx (args.getD 0 0 + args.getD 1 0 * 2 ^ 32) with
  | some i => ((s.recLoad i).mnShow i).mnDone 0
  | none => s.mnDone 7

def execFindext (s : State) : Host.Outcome State Fault Refusal := .next (s.mnRun 5 State.mnFindext)

/-- FINDSHORT, R174. -/
def State.mnFindshort (s : State) (args : List Nat) : State :=
  let e := s.mapE (bitsOf (args.getD 0 0) 16 3) (args.getD 0 0 % 65536)
  if bitsOf e 30 2 = 0 then s.mnDone 7 else ((s.recLoad (e % 2 ^ 18)).mnShow (e % 2 ^ 18)).mnDone 0

def execFindshort (s : State) : Host.Outcome State Fault Refusal := .next (s.mnRun 6 State.mnFindshort)

/-- FLUSHQ, R190. -/
def State.mnFlushq (s : State) (args : List Nat) : State :=
  let i := args.getD 0 0 % 2 ^ 18
  (((s.recLoad i).qFlush i).mnShow i).mnDone 0

def execFlushq (s : State) : Host.Outcome State Fault Refusal := .next (s.mnRun 7 State.mnFlushq)

/-- SETSW, R174. -/
def State.mnSetsw (s : State) (args : List Nat) : State :=
  let i := args.getD 0 0 % 2 ^ 18
  (((s.recLoad i).setRecW i 15 (args.getD 1 0)).mnShow i).mnDone 0

def execSetsw (s : State) : Host.Outcome State Fault Refusal := .next (s.mnRun 8 State.mnSetsw)

/-- HOLDOFF_EXPIRE, R175, R173: the record becomes Free, with no short address, and its map entry is cleared. -/
def State.mnHoldoff (s : State) (i : Nat) : State :=
  if !s.winOn W.MNODE then s
  else
    let s := s.recLoad i
    if s.recState i = 2 && !s.mn.lost.contains i
        && s.get F.MNODE_ADDRCFG_HOLDOFF ≤ (s.sec + 2 ^ 32 - s.recW i 12) % 2 ^ 32 then
      let ext := s.recW i 0 + s.recW i 1 * 2 ^ 32
      let t := ((s.setMap (s.recF i 2 16 3) (s.recF i 2 0 16) 0).setRecF i 2 19 3 0).setRecF i 2 0 16 0xFFFE
      t.setMn { t.mn with idx := kdel t.mn.idx ext, used := t.mn.used - 1 }
    else s

def execHoldoffExpire (i : Nat) (s : State) : Host.Outcome State Fault Refusal := .next (s.mnHoldoff i)

/-! Verdicts, R177 to R181 -/

/-- Whether a frame is class P, R180. -/
def State.classP (s : State) (m : Mac154) : Bool :=
  m.secured && ((m.kind == 3 && s.on F.MNODE_PCFG_MACCMD)
    || (m.keyMode == 1 && s.get F.MNODE_PCFG_PIDXLO ≤ m.keyIdx && m.keyIdx ≤ s.get F.MNODE_PCFG_PIDXHI))

/-- The octets of a key of the key store. -/
def State.keyVal (s : State) (k : Nat) : List Byte := match kget s.keys k with | some x => x.val | none => []

/-- Whether the integrity code of a mesh frame holds under a key of CCM* use. -/
def State.micOk (s : State) (k asn : Nat) (psdu : List Byte) : Bool :=
  match kget s.keys k with
  | some x => x.use == 1 && (Config.ccmOpen x.val asn psdu).isSome
  | none => false

/-- The judgement of a class P frame of valid MIC, R180: 0 NEW, 1 DUP, 2 neither. -/
def judgeP (c p : Nat) (known : Bool) : Nat := if p < c || (c = p && !known) then 0 else if c = p then 1 else 2

/-- DRIFTN counts, R173. -/
def State.driftN (s : State) (i : Nat) : State :=
  let n := s.recF i 7 24 8
  if n = 255 then s else (s.setRecF i 7 24 8 (n + 1)).raiseIf (n = 254) W.MNODE E.MNODE_CNTSAT

/-- The anchor restarts at a sample, R185. -/
def State.anchor (s : State) (i : Nat) (a : Attr) : State :=
  ((s.setRecW i 8 (a.ref / 1000000000 % 2 ^ 32)).setRecW i 9 (a.ref % 1000000000)).setRecW i 10 (unsgn 32 (a.d - 1000 * a.tc))

/-- DRIFT_SAMPLE, R185, R187. -/
def State.driftSample (s : State) (i verdict : Nat) (a : Attr) : State :=
  let none' := s.recW i 8 = 0 && s.recW i 9 = 0
  let ref0 := sgn 32 (s.recW i 10) + (if verdict = 1 && !none' && !s.mn.missed.contains i then 1000 * sgn 12 (s.recF i 6 12 12) else 0)
  let t :=
    if s.recF i 2 22 1 = 1 && s.get F.MNODE_TIMECFG_STEADY < a.d.natAbs then
      ((((s.mnCnt 13).raise W.MNODE E.MNODE_DRIFTLOST).setRecF i 2 22 1 0).anchor i a)
    else if none' then s.anchor i a
    else
      let m := 2 ^ 32 * 1000000000
      let del := (a.ref % m + m - (s.recW i 8 * 1000000000 + s.recW i 9) % m) % m
      if max 30 (s.get F.MNODE_DRIFTCFG_MINSPAN) * 1000000000 ≤ del then
        let d := roundDiv ((a.d - ref0) * 1000000000) del
        let t :=
          if 60000 < d.natAbs then s.mnCnt 12
          else if s.recF i 2 22 1 = 0 then (s.setRecF i 7 0 24 (unsgn 24 d)).setRecF i 2 22 2 1
          else
            let o := sgn 24 (s.recF i 7 0 24)
            s.setRecF i 7 0 24 (unsgn 24 (o + roundDiv (d - o) (2 ^ s.get F.MNODE_DRIFTCFG_K)))
        (t.driftN i).anchor i a
      else s.setRecW i 10 (unsgn 32 (ref0 - 1000 * a.tc))
  let t := t.setMn { t.mn with missed := t.mn.missed.filter fun j => j != i }
  (t.setRecW i 11 (unsgn 32 a.d)).setRecF i 6 12 12 (unsgn 12 a.tc)

/-- The deviation of an increment from nominal in ppb. -/
def incrPpb (incr : Nat) : Int := roundDiv (((incr : Int) - 2 ^ 34) * 1000000000) (2 ^ 34)

/-- The provisional drift of a record's first frame, R183. -/
def State.driftFirst (s : State) (i : Nat) (a : Attr) : State :=
  if s.on F.MNODE_DRIFTCFG_CFO && s.recF i 2 22 2 = 0 && !a.fosat && 40 ≤ a.snr then
    let d := roundDiv (a.fofs * 1000000) a.freq - incrPpb a.incr
    (s.setRecF i 7 0 24 (unsgn 24 d)).setRecF i 2 23 1 1
  else s

/-- The record a frame names, R177: its index and verdict so far: 0 go on, 5 UNKNOWN, 6 STALE, 7 LOST. -/
def State.findRec (s : State) (tile : Nat) (m : Mac154) : Nat × Nat :=
  match m.srcMode with
  | 1 =>
    let e := s.mapE tile (m.src % 65536)
    let i := e % 2 ^ 18
    if bitOf e 31 then (i, if s.mn.lost.contains i then 7 else 0)
    else if bitOf e 30 then (i, 6)
    else match s.mn.lost.find? fun j => s.recF j 2 16 3 == tile && s.recF j 2 0 16 == m.src % 65536 with
      | some j => (j, 7)
      | none => (0, 5)
  | 2 =>
    match kget s.mn.idx m.src with
    | none => (0, 5)
    | some i => if s.mn.lost.contains i then (i, 7) else if s.recState i = 2 then (i, 6) else (i, 0)
  | _ => (0, 5)

/-- The verdict on a frame of an Associated record, with the record's update, R179, R180, R181. -/
def State.judge (s : State) (i : Nat) (m : Mac154) (a : Attr) : Nat × State :=
  if s.classP m then
    let ok := match a.mlc with | some v => v != 3 | none => s.micOk (s.recF i 3 16 12) a.asn a.psdu
    if !ok then (3, s)
    else
      let j := match a.mlc with | some v => v | none => judgeP m.count (s.recW i 5) (s.recF i 2 25 1 == 1)
      match j with
      | 0 =>
        let t := s.setPfcRec i m.count true
        let t := if a.mlc.isNone then t.shadowUp i m.count else t
        (0, if m.count = 0xFFFFFFFF then (t.setRecF i 2 24 1 1).raise W.MNODE E.MNODE_PEXHAUST else t)
      | 1 => (1, s)
      | _ => (if s.recF i 2 24 1 = 1 then 4 else 2, s)
  else match m.seq with
    | none => (0, s)
    | some q =>
      let last := s.recW i 4 + s.recF i 3 8 8 * 2 ^ 32
      let gap := (a.asn + 2 ^ 40 - last) % 2 ^ 40
      if s.recF i 2 26 1 = 1 && q = s.recF i 3 0 8 && gap ≤ max 1 (s.get F.MNODE_DUPCFG_HORIZON) then (1, s)
      else (0, ((((s.setRecF i 3 0 8 q).setRecF i 3 8 8 (a.asn / 2 ^ 32)).setRecW i 4 (a.asn % 2 ^ 32)).setRecF i 2 26 1 1))

/-- A frame of the same record with an earlier receive stamp, or that of a lower listener, still waits for MLC, R178. -/
def State.attrWaits (s : State) (a : Attr) : Bool :=
  let f := s.findRec a.tile (mac154 a.psdu)
  f.2 ≠ 5 && s.mphy.handed.any fun x =>
    let st := if x.stamp = 0 then x.ended * 65536 else x.stamp
    (st < a.stamp || (st = a.stamp && x.lis < a.lis)) && s.findRec x.asn.tile (mac154 x.psdu) == f

/-- The frame MNODE judges next: the earliest receive stamp, then the lower listener, R178. -/
def State.nextAttr (s : State) : Option Attr :=
  (s.mn.todo.filter fun a => !s.attrWaits a).foldl (fun b a => match b with
    | none => some a
    | some c => if a.stamp < c.stamp || (a.stamp = c.stamp && a.lis < c.lis) then some a else some c) none

/-- FRAME_ATTRIBUTE, R177 to R187: the verdict is counted and goes with the record's snapshot to coupling 2 of the wagon. -/
def State.attribute (s : State) (a : Attr) : State :=
  let m := mac154 a.psdu
  let s := s.setMn { s.mn with todo := s.mn.todo.erase a }
  let s := match m.srcMode == 2, kget s.mn.idx m.src with
    | true, some i => s.recLoad i
    | _, _ => s
  let f := s.findRec a.tile m
  let t := if f.2 = 0 then s.recLoad f.1 else s
  let v := if f.2 = 0 && t.mn.lost.contains f.1 then 7 else f.2
  let give := fun (t : State) (i v : Nat) (snap : List Byte) =>
    (t.mnCnt v).couple a.wid 2 3 ((if v = 5 then 0 else i) + v * 2 ^ 18) snap
  if v ≠ 0 then give t f.1 v (if v = 6 then t.recBytes f.1 else List.replicate 64 0)
  else
    let i := f.1
    let p := t.judge i m a
    let t := (p.2.setRecF i 13 0 20 (unsgn 20 a.fofs)).setRecF i 14 0 16 (unsgn 16 a.rssi)
    let t := t.driftFirst i a
    let t := if a.sample then t.driftSample i p.1 a
      else if p.1 = 0 then t.setMn { t.mn with missed := i :: t.mn.missed.filter fun j => j != i } else t
    give t i p.1 (t.recBytes i)

def execFrameAttribute (s : State) : Host.Outcome State Fault Refusal :=
  .next (match s.nextAttr with
    | some a => if s.enabled W.MNODE then s.attribute a else s
    | none => s)

/-! Rebuilds, R191 -/

/-- Whether an address lies in the map or the shadow. -/
def inDerived (a : Nat) : Bool := 0x13500000 ≤ a && a < 0x13800000

/-- The map, hash, shadow, known bitmap and pending bitmap follow from the records. -/
def State.rebuildAll (s : State) : State :=
  let t : State := { s with mem := s.mem.filter (fun c => !inDerived c.1),
                            mlc := { s.mlc with known := [], pend := [] },
                            mn := { s.mn with idx := [], used := 0, lost := [], cache := [] } }
  (List.range 262144).foldl (fun t i =>
    let st := t.recState i
    if st = 0 then t
    else
      let ext := t.recW i 0 + t.recW i 1 * 2 ^ 32
      let u := t.setMap (t.recF i 2 16 3) (t.recF i 2 0 16) (mapWord i (t.recF i 3 16 12) (st == 2) (st == 1))
      let u := u.setPfc i (u.recW i 5) (u.recF i 2 25 1 == 1)
      let u := u.setMn { u.mn with idx := kset u.mn.idx ext i, used := u.mn.used + 1 }
      if (u.nodeQ i).isEmpty then u else { u with mlc := { u.mlc with pend := kset u.mlc.pend i 1 } }) t

/-- The image of mode 2. -/
def State.rebSrc (s : State) : Nat := s.get F.MNODE_REBSRCHI_ADDR * 2 ^ 32 + s.get F.MNODE_REBSRCLO_ADDR

/-- START of a rebuild of mode m. -/
def State.rebStart (s : State) (rq : Rq) (m : Nat) : State :=
  if s.get F.MNODE_REBCFG_MODE ≠ m then s
  else
    let ok := m < 2 || (s.rebSrc % 64 == 0 && inDram s.rebSrc && inDram (s.rebSrc + 64 * 262144 - 1))
    let t := s.opStart rq W.MNODE ok true
    if t.opSt W.MNODE == 2 && s.opSt W.MNODE != 2 && m = 2 then
      if (List.range 8).any fun i => s.on (F.MLC_TILE_CTL_EN i) then t.opFail W.MNODE 9
      else
        let hs := (t.mn.q.flatMap fun e => e.2) ++ t.mn.sq.flatMap fun e => e.2
        hs.foldl (fun t e => t.qEnd e.out.handle 8 none) t
    else t

/-- One record of a rebuild; the last one rebuilds the derived structures. -/
def State.rebUnit (s : State) : State :=
  let w := W.MNODE
  let k := s.get (F.OPSTAT_PROGRESS w)
  let m := s.get F.MNODE_REBCFG_MODE
  let src := if m = 2 then s.rebSrc + 64 * k else s.recAddr m k
  let s := s.ueHit src 64
  if s.ueIn src 64 then s.opFail w 5
  else
    let l := s.peeks src 64
    let t :=
      if m < 2 then s.poke (s.recAddr (1 - m) k) l
      else
        let ws := (List.range 16).map fun j => s.peekN (src + 4 * j) 4
        let w2 := bitsOf (ws.getD 2 0) 0 27
        let w2 := if 2 < bitsOf w2 19 3 then w2 - bitsOf w2 19 3 * 2 ^ 19 - w2 % 65536 + 0xFFFE else w2
        (List.range 16).foldl (fun t j => t.setRecW k j (if j = 2 then w2 else ws.getD j 0)) s
    let t := t.opUnits w (k + 1) k
    if 262144 ≤ k + 1 then t.rebuildAll.opDone w else t

def execRebuildCopy0 (rq : Rq) (s : State) : Host.Outcome State Fault Refusal := .next (s.rebStart rq 0)
def execRebuildCopy1 (rq : Rq) (s : State) : Host.Outcome State Fault Refusal := .next (s.rebStart rq 1)
def execRebuildRestore (rq : Rq) (s : State) : Host.Outcome State Fault Refusal := .next (s.rebStart rq 2)

end Sys2Proof.Machine
end

