-- ==== Sys2Proof/Machine/Mlc.lean ====
section
/-!
DEFINITION. The mesh link controller: Tiles, the board, slots, squares: spec/07, R144 to R155, R159 to R168. MlcRx.lean holds what
MLC does with a received frame.
-/

namespace Sys2Proof.Machine

/-- MLC's counter n. -/
def State.mlcCnt (s : State) (n : Nat) : State := s.bump W.MLC (0x80 + 4 * n) E.MLC_CNTSAT

/-- Changes MLC's own state. -/
def State.setMlc (s : State) (m : MlcS) : State := { s with mlc := m }

/-- A Tile that is disabled. -/
def tile0 : TileS :=
  { chk := 0, stop := false, be := 1, w := 0, x := 1, seedWr := false, words := [], edge := none, prep := 0, eb := none,
    ea := none }

/-- Tile t. -/
def State.tile (s : State) (t : Nat) : TileS := (kget s.mlc.tiles t).getD tile0

/-- Stores a Tile. -/
def State.setTile (s : State) (t : Nat) (x : TileS) : State := s.setMlc { s.mlc with tiles := kset s.mlc.tiles t x }

/-- The Tile fields that take effect at a slot edge, as the registers hold them, R146. -/
def State.tileRegs (s : State) (t : Nat) : List Nat :=
  [s.get (F.MLC_TILE_CTL_ACKSEC t), s.get (F.MLC_TILE_CTL_ACKKEY t), s.get (F.MLC_TILE_BEACON_JP t),
    s.get (F.MLC_TILE_BEACON_JPADD t), s.get (F.MLC_TILE_BEACON_BSEL t), s.get (F.MLC_TILE_BEACON_AUTOCH t),
    s.get (F.MLC_TILE_BCNA_ADDR t), s.get (F.MLC_TILE_BCNB_ADDR t), s.get (F.MLC_TILE_BCNOFS_SYNCOFS t),
    s.get (F.MLC_TILE_BCNOFS_TIEOFS t), s.get (F.MLC_TILE_BCNOFS_LEN t), s.get (F.MLC_TILE_CSMA_MINBE t),
    s.get (F.MLC_TILE_CSMA_MAXBE t), s.get (F.MLC_TILE_CSMA_MAXRETRY t), s.get (F.MLC_TILE_CSMA_CCATHR t),
    s.get (F.MLC_TILE_NBRSCAN_SCANCH t), s.get (F.MLC_TILE_NBRSCAN_SCANLIS t)]

/-- The value in force of Tile field k of tileRegs. -/
def State.tv (s : State) (t k : Nat) : Nat := (s.tile t).words.getD k 0

/-! Slots, R145, R152 -/

/-- The band of a Tile: 0 sub-GHz, 1 2.4 GHz. -/
def State.band (s : State) (t : Nat) : Nat := s.get (F.MLC_TILE_CTL_BAND t)

/-- The slot length in ns. -/
def State.slotNs (s : State) (t : Nat) : Nat := s.get (F.MLC_TILE_SLOT_SLOTLEN t) * 1000

/-- The time of the edge of slot k, counted from the first edge. -/
def State.edgeNs (s : State) (t k : Nat) : Nat := s.epoch t + k * s.slotNs t

/-- The slot in progress, counted from the first edge; none before it. -/
def State.slotK (s : State) (t : Nat) : Option Nat :=
  if s.epoch t ≤ s.ns then some ((s.ns - s.epoch t) / max 1 (s.slotNs t)) else none

/-- The ASN of slot k. -/
def State.asnOf (s : State) (t k : Nat) : Nat :=
  (s.get (F.MLC_TILE_ASNBASEHI_ASN t) * 2 ^ 32 + s.get (F.MLC_TILE_ASNBASELO_ASN t) + k) % 2 ^ 40

/-- Entry j of the hopping sequence. -/
def State.hopAt (s : State) (t j : Nat) : Nat :=
  if j % 2 = 0 then s.get (F.MLC_HOP_EVEN t (j / 2)) else s.get (F.MLC_HOP_ODD t (j / 2))

/-- HOPLEN, 0 meaning 256. -/
def State.hopLen (s : State) (t : Nat) : Nat :=
  if s.get (F.MLC_TILE_SLOT_HOPLEN t) = 0 then 256 else s.get (F.MLC_TILE_SLOT_HOPLEN t)

/-- The frequency of a channel number in kHz. -/
def State.tileFreq (s : State) (t n : Nat) : Nat := s.get (F.MLC_TILE_CH0_CH0 t) + n * s.get (F.MLC_TILE_SPACING_SPACING t)

/-- The frequency of a channel offset in the slot of an ASN, R152. -/
def State.hopFreq (s : State) (t asn choff : Nat) : Nat := s.tileFreq t (s.hopAt t ((asn + choff) % s.hopLen t))

/-! Squares and banks, R147 to R149 -/

/-- A square, R148. -/
structure Square where
  idx : Nat
  slot : Nat
  choff : Nat
  tpl : Nat
  kind : Nat
  lis : Nat
  node : Nat
  any : Bool
  valid : Bool
  deriving DecidableEq, Repr

/-- The address of square i. -/
def squareAt (i : Nat) : Nat := 0x13800000 + 8 * i

/-- Square i of the board. -/
def State.square (s : State) (i : Nat) : Square :=
  let v := s.peekN (squareAt i) 8
  { idx := i, slot := bitsOf v 0 16, choff := bitsOf v 16 8, tpl := bitsOf v 24 3, kind := bitsOf v 27 3, lis := bitsOf v 30 9,
    node := bitsOf v 40 18, any := bitOf v 58, valid := bitOf v 63 }

/-- BASE, COUNT and LEN of a bank. -/
def State.bank (s : State) (t f b : Nat) : Nat × Nat × Nat :=
  if b = 0 then (s.get (F.MLC_ABASE_BASE t f), s.get (F.MLC_ACOUNT_COUNT t f), s.get (F.MLC_LEN_A t f))
  else (s.get (F.MLC_BBASE_BASE t f), s.get (F.MLC_BCOUNT_COUNT t f), s.get (F.MLC_LEN_B t f))

/-- The active bank. -/
def State.actBank (s : State) (t f : Nat) : Nat := s.get (F.MLC_SFCTL_ACTIVE t f)

/-- A valid square suits the Tile, R149. -/
def State.squareOk (s : State) (t : Nat) (q : Square) : Bool :=
  !q.valid || (q.kind < 6 && (q.kind == 3 || (if s.band t = 0 then q.lis < 256 else 256 ≤ q.lis && q.lis < 288))
    && ((q.kind == 4 || q.kind == 5) == s.on (F.MLC_TILE_CTL_FOLLOW t)))

/-- The refusal cause of a bank under R149, 0 when it passes. -/
def State.bankCause (s : State) (t f b : Nat) : Nat :=
  let k := s.bank t f b
  let q := (List.range k.2.1).map fun i => s.square (k.1 + i)
  if k.2.1 = 0 then 0
  else if 1048576 < k.1 + k.2.1 then 4
  else if !((q.zip (q.drop 1)).all fun e => e.1.slot ≤ e.2.slot) then 1
  else if k.2.2 = 0 || !(q.all fun x => x.slot < k.2.2 && s.squareOk t x && !s.ueIn (squareAt x.idx) 8) then 2
  else 0

/-- MEM's record of the squares of a bank that a check cannot read, R347. -/
def State.bankRead (s : State) (t f b : Nat) : State :=
  let k := s.bank t f b
  if 1048576 < k.1 + k.2.1 then s else s.ueHit (squareAt k.1) (8 * k.2.1)

/-! Tile checks, R146, R153 -/

/-- The mode of a template belongs to the Tile's band path. -/
def State.modeFits (s : State) (t m : Nat) : Bool := modeOk m && (modeFam m == 2) == (s.band t == 1)

/-- Template k of a Tile meets R153. -/
def State.tplOk (s : State) (t k : Nat) : Bool :=
  let tx := s.get (F.MLC_TPL0_TXOFFSET t k)
  let g := s.get (F.MLC_TPL0_GUARD t k)
  let pre := s.get (F.MLC_TPL1_PRESFD t k)
  let n := s.get (F.MLC_TILE_SLOT_SLOTLEN t)
  let aw := s.get (F.MLC_TPL2_ACKWAIT t k)
  let cd := s.get (F.MLC_TPL4_CCADUR t k)
  g ≤ tx && tx ≤ n && 100 ≤ g && g ≤ 10000 && 1 ≤ pre && 200 ≤ s.get (F.MLC_TPL1_ACKDELAY t k) && 20 ≤ aw && aw ≤ 10000
    && s.get (F.MLC_TPL2_ACKSPREAD t k) ≤ 4000 && s.get (F.MLC_TPL3_RXEND t k) ≤ n
    && (cd == 0 || s.get (F.MLC_TPL4_CCAOFFSET t k) + cd + 20 ≤ tx) && s.modeFits t (s.get (F.MLC_TPL3_MODE t k))
    && tx + pre + g ≤ n

/-- A frequency lies in the Tile's band, R146. -/
def State.freqFits (s : State) (t f : Nat) : Bool :=
  if s.band t = 0 then (400000 ≤ f && f ≤ 520000) || (750000 ≤ f && f ≤ 960000) else 2401000 ≤ f && f ≤ 2482500

/-- The code of the first failing check of R146, 0 when all pass. -/
def State.tileCause (s : State) (t : Nat) : Nat :=
  let others := (List.range 8).filter fun u => u != t && s.on (F.MLC_TILE_CTL_EN u)
  let fol := s.get (F.MLC_TILE_CTL_FOLLOW t)
  if others.any fun u => s.band u == s.band t && s.get (F.MLC_TILE_CTL_FOLLOW u) == fol
      && s.get (F.MLC_TILE_PAN_PANID u) == s.get (F.MLC_TILE_PAN_PANID t) then 1
  else if !((List.range 8).all fun k => s.tplOk t k) then 2
  else if !((List.range (s.hopLen t)).all fun j => s.freqFits t (s.tileFreq t (s.hopAt t j))) then 3
  else if s.get (F.MLC_TILE_SLOT_SLOTLEN t) < 1000 then 4
  else if (List.range 16).any fun f => s.on (F.MLC_SFCTL_EN t f) && s.bankCause t f (s.actBank t f) != 0 then 5
  else if fol = 1 && others.any fun u => s.on (F.MLC_TILE_CTL_FOLLOW u) then 6
  else 0

/-! Assignments -/

/-- An assignment has to wait: the listener still has one for an earlier window, or in a frame the next one already (log entry 12). One
for the square that the listener serves replaces it. -/
def State.asnWaits (s : State) (l : Nat) (a : Asn) : Bool :=
  let x := s.lis l
  match x.cur with
  | some c =>
    if 5 ≤ x.st then x.next.any fun n => !(n.square == a.square && n.asn == a.asn)
    else !(c.square == a.square && c.asn == a.asn) && decide (c.cls ≤ a.opn)
  | none => false

/-- MLC gives an assignment, or holds it back until the listener can take it: false where MPHY refuses it, R126. -/
def State.mlcGive (s : State) (l : Nat) (a : Asn) : Bool × State :=
  if s.asnOk l a && s.asnWaits l a then (true, s.setMlc { s.mlc with later := s.mlc.later ++ [(l, a)] }) else s.giveAsn l a

/-- The assignment held back for a listener whose window opens first. -/
def State.laterOf (s : State) (l : Nat) : Option (Nat × Asn) :=
  (s.mlc.later.filter fun e => e.1 == l).foldl (fun b e => match b with
    | none => some e
    | some c => if e.2.opn < c.2.opn then some e else some c) none

/-- A listener that has come free takes the assignment held back for it. -/
def State.mlcFeed (s : State) (l : Nat) : State :=
  let x := s.lis l
  if x.st = 0 || (5 ≤ x.st && x.next.isNone) then
    match s.laterOf l with
    | some e => ((s.setMlc { s.mlc with later := s.mlc.later.erase e }).giveAsn l e.2).2
    | none => s
  else s

/-- The number that marks the scan of a follow Tile in an assignment. -/
def scanMark : Nat := 2 ^ 23

/-! Attempts, R155, R159, R162 -/

/-- The die-roll generator, R159. -/
def rollX (x : Nat) : Nat :=
  let a := xorN x (x * 2 ^ 13 % 2 ^ 32)
  let b := xorN a (a / 2 ^ 17)
  xorN b (b * 2 ^ 5 % 2 ^ 32)

/-- The shared-square state after a success. -/
def State.csmaOk (s : State) (t : Nat) : State := s.setTile t { s.tile t with be := s.tv t 11, w := 0 }

/-- The shared-square state after a failure that is to be retried. -/
def State.csmaFail (s : State) (t : Nat) : State :=
  let x := s.tile t
  let be := min (x.be + 1) (s.tv t 12)
  let n := rollX x.x
  s.setTile t { x with be := be, x := n, w := n % 2 ^ be }

/-- An attempt of a frame failed: a retry, or the end with RETRIES. -/
def State.frameFail (s : State) (t what h : Nat) : State :=
  match s.qFind h with
  | none => s
  | some e =>
    if s.tv t 13 < e.retries + 1 then
      let u := ((s.mlcCnt 6).raise W.MLC E.MLC_TXDROP).qEnd h 16 none
      if what = 1 then u.csmaOk t else u
    else
      let u := s.qMod h fun e => { e with retries := e.retries + 1 }
      if what = 1 then u.csmaFail t else u

/-- Forgets an attempt. -/
def State.tryDrop (s : State) (id : Nat) : State := s.setMlc { s.mlc with tries := s.mlc.tries.filter fun r => r.id != id }

/-- An attempt succeeded. -/
def State.tryOk (s : State) (r : Try) : State :=
  let s := s.tryDrop r.id
  match r.q with
  | none => s
  | some e =>
    let t := s.qEnd e.out.handle 0 (if s.on F.TIME_TSMODE_MESH then some r.stamp else none)
    if r.what = 1 then t.csmaOk r.tile else t

/-- An attempt failed; noAck counts TXNOACK. -/
def State.tryFail (s : State) (r : Try) (noAck : Bool) : State :=
  let s := s.tryDrop r.id
  let s := if noAck then s.mlcCnt 5 else s
  match r.q with
  | none => s
  | some e => s.frameFail r.tile r.what e.out.handle

/-- A refusal of R141 of a frame's carrier, R162: LEN and MODE end it, the others keep it. -/
def State.tryRefused (s : State) (r : Try) (status : Nat) : State :=
  let s := s.tryDrop r.id
  if status = 6 || status = 7 then
    match r.q with
    | some e => s.qEnd e.out.handle status none
    | none => s
  else s.mlcCnt 9

/-- The acknowledgement window of an attempt is still to come, open, or has given a frame that waits for its check. -/
def State.ackComes (s : State) (r : Try) : Bool :=
  let is := fun (a : Asn) => a.att == some r.id
  (s.mphy.lis.any fun e => e.2.cur.any is || e.2.next.any is) || (s.mlc.later.any fun e => is e.2) || s.mphy.handed.any fun x => is x.asn

/-- An acknowledgement window that is over, refused or void has failed its attempt, R155; MLC has taken note of what MPHY told it. -/
def State.mlcTold (s : State) : State :=
  let t := { s with mphy := { s.mphy with told := [] } }
  (t.mlc.tries.filter fun r => r.lis.isSome && !t.ackComes r).foldl (fun t r => t.tryFail r true) t

/-! Sending, R155, R161 -/

/-- The listen-before-talk entry of a frequency. -/
def State.lbtOf (s : State) (f : Nat) : Option LbtImg :=
  match s.lim.img with
  | some g => g.lbt.find? fun e => e.lo ≤ f && f ≤ e.hi
  | none => none

/-- Whether MLC can listen on a frequency, R161. -/
def State.canListen (s : State) (t f : Nat) : Bool :=
  if s.band t = 0 then s.mphy.win.any fun e => e.2.1 ≤ f && f ≤ e.2.2 else 2400000 ≤ f && f ≤ 2483500

/-- Listen before talk for a transmission, R161: busy or not; e is the largest energy measured in the interval. -/
def State.lbt (s : State) (t f : Nat) (e : Option Int) (ack : Bool) : Bool × State :=
  match s.lbtOf f with
  | none => (false, s)
  | some g =>
    if ack && g.ackEx then (false, s)
    else if !s.canListen t f then (true, s.mlcCnt 14)
    else match e with
      | none => (false, s)
      | some v => if g.thr ≤ v then (true, if ack then s else s.mlcCnt 8) else (false, s)

/-- The transmit port of a Tile's channel; aerial is that of the frame answered, else DIVPREF, R114, R378. -/
def State.meshPort (s : State) (t f : Nat) (aerial : Option Nat) : Nat :=
  if s.band t = 0 then (if f < 600000 then 20 else 21)
  else
    let a := aerial.getD (s.get (F.RFE_PATHCFG_DIVPREF 3 2))
    if s.retired (0x1016 + a) && !s.retired (0x1016 + (1 - a)) then 22 + (1 - a) else 22 + a

/-- The number of the next carrier. -/
def State.carrId (s : State) : Nat × State := (s.mlc.nextId, s.setMlc { s.mlc with nextId := s.mlc.nextId + 1 })

/-- The departure stamp of a mesh frame launched at time a in ns, R28, R86, R87: the launch holds at the aerial port, so the
capture lies before the event by the transmit correction that the stamp adds (log entry 15). -/
def State.meshDepart (s : State) (mode a : Nat) : Nat :=
  moveStamp (moveStamp ((a + preNs mode preDef) * 65536) (-(meshTxCorr mode : Int)))
    ((meshTxCorr mode : Int) + s.getI (F.TIME_RTRIM_TX 0) * 65536)

/-- A port lent to the Trail, R317. -/
def State.lentPort (s : State) (port : Nat) : Bool :=
  s.get F.CPL_STAT_STATE == 3 && ((port == 20 && s.on F.CPL_LEND_MT0) || (port == 21 && s.on F.CPL_LEND_MT1))

/-- MLC requests a carrier, R141, R317, with an FCS of 4 or 2 octets. Its power and its whitening, which the spec does not set, are free
values, the power one of R140's range (log entries 5, 52). The status is 0 for a request on its way to the Trail. -/
def State.meshSend (s : State) (port freq mode at' cls : Nat) (four : Bool) (psdu : List Byte) (r : Nat → Nat → Try) : Nat × State :=
  let i := s.carrId
  let wh := i.2.fresh
  let p := wh.2.fresh
  let c : Carr := { id := i.1, tile := 0, port := port, freq := freq, mode := mode, power := -40 + (p.1 % 161 : Nat), at' := at',
                    dur := preNs mode preDef + airNs mode psdu.length, act := if cls = 0 then 1 else 0, cls := cls,
                    psdu := psdu, wag := none, whiten := wh.1 % 2 == 1, fcs4 := four, pre := preDef }
  let q := if s.lentPort port then (0, p.2.setMlc { p.2.mlc with lent := p.2.mlc.lent ++ [c] }) else p.2.carrReq c
  if q.1 = 0 then (0, q.2.setMlc { q.2.mlc with tries := q.2.mlc.tries ++ [r i.1 (s.meshDepart mode at')] })
  else (q.1, q.2)

/-- Whether MLC sends at all: it is enabled and its Tiles are not muted, R310. -/
def State.mayTx (s : State) : Bool := s.enabled W.MLC && !s.mlc.mute

/-- A frame is already being attempted. -/
def State.trying (s : State) (h : Nat) : Bool :=
  s.mlc.tries.any fun r => match r.q with | some e => e.out.handle == h | none => false

/-- The acknowledgement window of an attempt that is not made is taken back. -/
def State.asnUndo (s : State) (l id : Nat) : State :=
  let is := fun (a : Asn) => a.att == some id
  let t := s.setMlc { s.mlc with later := s.mlc.later.filter fun e => !is e.2 }
  let x := t.lis l
  if x.next.any is then t.setLis l { x with next := none }
  else if x.cur.any is && x.st < 5 then t.lisIdle l
  else t

/-- The acknowledgement window of a frame of n octets sent in square q of slot k, R155. -/
def State.ackWindow (s : State) (t k : Nat) (q : Square) (n : Nat) : Nat × Nat :=
  let mode := s.get (F.MLC_TPL3_MODE t q.tpl)
  let stop := s.edgeNs t k + s.get (F.MLC_TPL0_TXOFFSET t q.tpl) * 1000 + preNs mode preDef + airNs mode n
  let del := s.get (F.MLC_TPL1_ACKDELAY t q.tpl) * 1000
  let aw := s.get (F.MLC_TPL2_ACKWAIT t q.tpl) * 1000
  (stop + del - aw, stop + del + s.get (F.MLC_TPL1_PRESFD t q.tpl) * 1000 + aw)

/-- The assignment of the acknowledgement window of the attempt that is next. -/
def State.ackAsn (s : State) (t k : Nat) (q : Square) (n : Nat) : Asn :=
  let w := s.ackWindow t k q n
  { tile := t, freq := s.hopFreq t (s.asnOf t k) q.choff, mode := s.get (F.MLC_TPL3_MODE t q.tpl), opn := w.1, cls := w.2,
    square := q.idx, asn := s.asnOf t k, att := some s.mlc.nextId }

/-- The attempt of a queued frame in a square of slot k, R155, R159: the acknowledgement window first, then the carrier. -/
def State.attempt (s : State) (t k what : Nat) (q : Square) (e : QEnt) (busy : Bool) (lbt : Option Int) : State :=
  let h := e.out.handle
  let f := s.hopFreq t (s.asnOf t k) q.choff
  let mode := s.get (F.MLC_TPL3_MODE t q.tpl)
  let at' := s.edgeNs t k + s.get (F.MLC_TPL0_TXOFFSET t q.tpl) * 1000
  if busy then (s.mlcCnt 7).frameFail t what h
  else
    let b := s.lbt t f lbt false
    if b.1 then b.2.frameFail t what h
    else
      let psdu := s.frame h
      let m := mac154 psdu
      let g := if m.ackReq then s.mlcGive q.lis (s.ackAsn t k q psdu.length) else (true, s)
      if !g.1 then (g.2.mlcTold.mlcCnt 5).frameFail t what h
      else
        let r := fun id st => ({ tile := t, what := what, q := some e, id := id, stamp := st,
                                 lis := if m.ackReq then some q.lis else none, seq := m.seq,
                                 own := if what = 1 then some q.lis else none } : Try)
        let c := g.2.meshSend (s.meshPort t f none) f mode at' 0 (modeFam mode != 2) psdu r
        if c.1 = 0 then c.2
        else (if m.ackReq then c.2.asnUndo q.lis s.mlc.nextId else c.2).tryRefused (r 0 0) c.1

/-- The slot of a square that SLOT_PREPARE served and that has not yet run, taken from the plan. -/
def State.takePlan (s : State) (t square : Nat) : Option Nat × State :=
  match s.mlc.plan.find? fun e => e.1 == t && e.2.2 == square with
  | some e => (some e.2.1, s.setMlc { s.mlc with plan := s.mlc.plan.erase e })
  | none => (none, s)

/-- TX_SQUARE, R155, R189: the head of the node's queue, or with ANYNODE of the shared queue. -/
def State.txSq (s : State) (t square : Nat) (lbt : Option Int) : State :=
  let p := s.takePlan t square
  match p.1 with
  | none => s
  | some k =>
    let q := s.square square
    let l := if q.any then s.sharedQ t else s.nodeQ q.node
    match l with
    | e :: _ => if q.kind = 1 && s.mayTx && !s.trying e.out.handle then p.2.attempt t k 0 q e false lbt else p.2
    | [] => p.2

def execTxSquare (t square : Nat) (lbt : Option Int) (s : State) : Host.Outcome State Fault Refusal := .next ((s.txSq t square lbt).mlcPath)

/-- SHARED_SQUARE, R159, R160: cca is the largest energy of the CCA interval. -/
def State.shSq (s : State) (t square : Nat) (cca lbt : Option Int) : State :=
  let p := s.takePlan t square
  match p.1 with
  | none => s
  | some k =>
    let q := s.square square
    match s.sharedQ t with
    | [] => p.2
    | e :: _ =>
      if q.kind ≠ 2 then p.2
      else if 0 < (s.tile t).w then p.2.setTile t { s.tile t with w := (s.tile t).w - 1 }
      else if !s.mayTx || s.trying e.out.handle then p.2
      else
        let busy := 0 < s.get (F.MLC_TPL4_CCADUR t q.tpl) && (match cca with
          | some v => decide (4 * sgn 8 (s.tv t 14) ≤ v)
          | none => false)
        p.2.attempt t k 1 q e busy lbt

def execSharedSquare (t square : Nat) (cca lbt : Option Int) (s : State) : Host.Outcome State Fault Refusal :=
  .next ((s.shSq t square cca lbt).mlcPath)

/-! Beacons, R152, R163 to R165, R315, R316 -/

/-- The content of the subtype-1 time IE of a frame launched at time a, R164. -/
def State.timeIe (s : State) (a : Nat) : List Byte :=
  toLE 3 (s.get F.MLC_VENDORID_ID) ++ toLE 1 1 ++ toLE 4 (a % 1000000000) ++ toLE 6 (a / 1000000000)
    ++ toLE 4 (s.get F.TIME_UNC_UNC) ++ toLE 1 (s.get F.TIME_STATE_STATE)

/-- Octets written into a frame at an offset. -/
def putAt (l : List Byte) (ofs : Nat) (d : List Byte) : List Byte := l.take ofs ++ d ++ l.drop (ofs + d.length)

/-- A 2.4 GHz channel overlaps Radio A, R167. -/
def State.overlapsA (s : State) (f : Nat) : Bool :=
  2 * dist f (s.chanC 0) < widthKHz (s.chanW 0) + 2000 * s.get F.MLC_QUIETCFG_QGUARD

/-- The frequency of a beacon: with AUTOCH the first offset clear of Radio A, R152. -/
def State.bcnFreq (s : State) (t asn choff : Nat) : Nat :=
  if s.band t = 1 && s.tv t 5 = 1 then
    match (List.range 256).find? fun d => !s.overlapsA (s.hopFreq t asn ((choff + d) % 256)) with
    | some d => s.hopFreq t asn ((choff + d) % 256)
    | none => s.hopFreq t asn choff
  else s.hopFreq t asn choff

/-- The join metric, R165. -/
def State.joinMetric (s : State) (t : Nat) : Nat :=
  if s.get F.TIME_STATE_STATE = 4 then min 255 (s.tv t 2 + s.tv t 3) else s.tv t 2

/-- The role a beacon carries: 1 Lead, 2 Trail; 0 in Solo and Linking, R316. -/
def State.pairRole (s : State) : Nat :=
  match s.get F.CPL_STAT_STATE with | 0 => 0 | 1 => 0 | 2 => 1 | 3 => 1 | _ => 2

/-- The beacon's PSDU before its FCS: the template with ASN, join metric, time IE and pair IE, R163, R316. -/
def State.beacon (s : State) (t asn a : Nat) : List Byte :=
  let l := s.peeks (s.tv t (6 + s.tv t 4)) (s.tv t 10)
  let l := putAt (putAt l (s.tv t 8) (toLE 5 asn)) (s.tv t 8 + 5) (toLE 1 (s.joinMetric t))
  let l := if s.tv t 9 = 0 then l else putAt l (s.tv t 9) (s.timeIe a)
  let o := s.get F.CPL_PAIRIE_OFS
  if o = 0 then l
  else putAt l (o + 4) (toLE 2 (s.get F.CPL_ROLE_PAIRID) ++ toLE 1 (s.get F.CPL_ROLE_SENIORITY + 16 * s.pairRole))

/-- A frame as MLC secures it, R156: MIC-32 under ACKKEY with the Tile's extended address. -/
def State.secure (s : State) (t asn : Nat) (l : List Byte) : List Byte :=
  Config.meshSecure (s.keyVal (s.tv t 1)) (s.get (F.MLC_TILE_EXTHI_EXT t) * 2 ^ 32 + s.get (F.MLC_TILE_EXTLO_EXT t)) asn l

/-- How many of the edges before edge k, from the first, fall in a timeslot of a slotframe of length len, the first having ASN base. -/
def edgesIn (base len slot k : Nat) : Nat := (k + len - 1 - (slot + len - base % len) % len) / len

/-- The number of a beacon square in slot k of a Tile, R315: the beacon squares of the board from the Tile's first edge before it. -/
def State.bcnNo (s : State) (t k square : Nat) : Nat :=
  let l := (List.range 16).flatMap fun f =>
    let b := s.bank t f (s.actBank t f)
    if !s.on (F.MLC_SFCTL_EN t f) || b.2.2 = 0 then []
    else (((List.range b.2.1).map fun i => s.square (b.1 + i)).filter fun q => q.valid && q.kind == 3).map fun q => (b.2.2, q)
  l.foldl (fun n e => n + edgesIn (s.asnOf t 0) e.1 e.2.slot k) 0
    + ((l.filter fun e => e.2.slot == s.asnOf t k % e.1).takeWhile fun e => e.2.idx != square).length

/-- Whether a beacon square of the watched Tile, by its number b, is listened in: in Watch, and in those that a Detached Lead leaves
silent; OFS 0 rules it out, R315, R316. -/
def State.bcnWatch (s : State) (t b : Nat) : Bool :=
  t == s.get F.CPL_WATCH_TILE && s.get F.CPL_PAIRIE_OFS != 0 && (match s.get F.CPL_STAT_STATE with
    | 7 => true
    | 2 => b % 16 == s.get F.CPL_ROLE_SENIORITY
    | _ => false)

/-- BEACON_SQUARE, R163: sent, or refused and counted; a Detached Lead is silent in one square of 16 (R315). -/
def State.bcnSq (s : State) (t square : Nat) (lbt : Option Int) : State :=
  let p := s.takePlan t square
  match p.1 with
  | none => s
  | some k =>
    let q := s.square square
    if q.kind ≠ 3 then p.2
    else
      let s1 := p.2
      let quiet := s.get F.CPL_STAT_STATE == 2 && s.bcnWatch t (s.bcnNo t k square)
      if !s.mayTx || quiet then s1
      else
        let asn := s.asnOf t k
        let mode := s.get (F.MLC_TPL3_MODE t q.tpl)
        let a := s.edgeNs t k + s.get (F.MLC_TPL0_TXOFFSET t q.tpl) * 1000
        let adr := s.tv t (6 + s.tv t 4)
        let l := s.beacon t asn a
        let l := if (mac154 l).secured then s.secure t asn l else l
        let d := fcsAppend (modeFam mode != 2) l
        if !psduOk mode d.length || s.tv t 10 = 0 || !inSram adr || !inSram (adr + s.tv t 10 - 1) then
          (s1.mlcCnt 13).raise W.MLC E.MLC_BCNREF
        else
          let f := s.bcnFreq t asn q.choff
          let v := s1.lbt t f lbt false
          if v.1 then v.2
          else
            let c := v.2.meshSend (s.meshPort t f none) f mode a 2 (modeFam mode != 2) d fun id st =>
              { tile := t, what := 3, q := none, id := id, stamp := st, lis := none, seq := none, own := none }
            if c.1 = 0 then c.2 else c.2.mlcCnt 9

def execBeaconSquare (t square : Nat) (lbt : Option Int) (s : State) : Host.Outcome State Fault Refusal :=
  .next (s.bcnSq t square lbt)

/-! Following a neighbour, R94, R166 -/

/-- The measurement of a neighbour's beacon goes to TIME: with its acknowledgement's error when there was one, R94; an error without a
beacon is dropped. -/
def State.nbrDeliver (s : State) (t : Nat) (useAck : Bool) : State :=
  let x := s.tile t
  let u := s.setTile t { x with eb := none, ea := none }
  match x.eb with
  | none => u
  | some e =>
    let src2 := fun (u : State) (y : Int) => if u.get F.TIME_SYNCCFG_SRC = 2 then u.measure y else u
    match (if useAck then x.ea else none) with
    | some a => src2 { u with tm := { u.tm with lastD := roundDiv (e + a) 2 } } (roundDiv (e - a) 2)
    | none => src2 u (e - u.tm.lastD)

/-- A frame control field of IEEE 802.15.4, frame version 2 (log entry 53): the type, security, pending, acknowledgement request, PAN
identifier compression, no sequence number, IEs, destination and source address modes in the code of Mac154. -/
def fcf (typ : Nat) (sec pend ar comp noSeq ie : Bool) (dst src : Nat) : List Byte :=
  let m := fun (n : Nat) => if n = 0 then 0 else n + 1
  toLE 2 (typ + b2n sec * 8 + b2n pend * 16 + b2n ar * 32 + b2n comp * 64 + b2n noSeq * 256 + b2n ie * 512 + m dst * 1024 + 2 * 4096
    + m src * 16384)

/-- An address of a mode of Mac154. -/
def addr154 (mode a : Nat) : List Byte := match mode with | 1 => toLE 2 a | 2 => toLE 8 a | _ => []

/-- A header IE of an element identifier, and the vendor-specific one, R164. -/
def headerIe (id : Nat) (c : List Byte) : List Byte := toLE 2 (c.length + id * 128) ++ c
def vendorIe (c : List Byte) : List Byte := headerIe 0 c

/-- The keep-alive of R166: a data frame of version 2 that asks for an acknowledgement, with the time IE and no payload; its sequence
number is a free value. -/
def State.keepAlive (s : State) (t a : Nat) : (Nat × List Byte) × State :=
  let p := s.fresh
  ((p.1 % 256, fcf 1 false false true true false true 1 1 ++ toLE 1 (p.1 % 256) ++ toLE 2 (s.get (F.MLC_TILE_PAN_PANID t))
    ++ toLE 2 (s.get (F.MLC_TILE_NBR_NBRSHORT t)) ++ toLE 2 (s.get (F.MLC_TILE_PAN_SHORT t)) ++ vendorIe (s.timeIe a)), p.2)

/-- KEEPALIVE_SQUARE, R166: the keep-alive is sent, and when the square ends (fin) y is delivered. -/
def State.kaSq (s : State) (t square : Nat) (fin : Bool) (lbt : Option Int) : State :=
  if fin then (if s.on (F.MLC_TILE_CTL_FOLLOW t) then s.nbrDeliver t true else s)
  else
    let p := s.takePlan t square
    match p.1 with
    | none => s
    | some k =>
      let q := s.square square
      if q.kind ≠ 4 || !s.mayTx then p.2
      else
        let mode := s.get (F.MLC_TPL3_MODE t q.tpl)
        let a := s.edgeNs t k + s.get (F.MLC_TPL0_TXOFFSET t q.tpl) * 1000
        let f := s.hopFreq t (s.asnOf t k) q.choff
        let ka := p.2.keepAlive t a
        let d := fcsAppend (modeFam mode != 2) ka.1.2
        let v := ka.2.lbt t f lbt false
        if v.1 then v.2
        else
          let g := v.2.mlcGive q.lis (v.2.ackAsn t k q d.length)
          if !g.1 then g.2.mlcTold
          else
            let c := g.2.meshSend (s.meshPort t f none) f mode a 0 (modeFam mode != 2) d fun id st =>
              { tile := t, what := 2, q := none, id := id, stamp := st, lis := some q.lis, seq := some ka.1.1, own := none }
            if c.1 = 0 then c.2 else (c.2.asnUndo q.lis v.2.mlc.nextId).mlcCnt 9

def execKeepaliveSquare (t square : Nat) (fin : Bool) (lbt : Option Int) (s : State) : Host.Outcome State Fault Refusal :=
  .next ((s.kaSq t square fin lbt).mlcPath)

/-! Tiles start and stop, R146 -/

/-- The assignments of a Tile's slots from k on are withdrawn, with what was prepared for them, R146; the squares of earlier slots, their
acknowledgement windows among them, go on. Quiet turns stay (R167). -/
def State.withdraw (s : State) (t k : Nat) : State :=
  let start := s.edgeNs t k
  let is := fun (a : Asn) => a.tile == t && a.square < scanMark && a.att.isNone && decide (start ≤ a.opn)
  let u := s.setMlc { s.mlc with later := s.mlc.later.filter (fun e => !is e.2),
                                 plan := s.mlc.plan.filter (fun e => !(e.1 == t && k ≤ e.2.1)),
                                 wins := s.mlc.wins.filter fun e => !(e.2.1 == t && decide (start ≤ e.2.2.1)) }
  u.mphy.lis.foldl (fun u e =>
    if e.2.next.any is then u.setLis e.1 { e.2 with next := none }
    else if e.2.st < 5 && e.2.cur.any is then (u.lisIdle e.1).mlcFeed e.1
    else u) u

/-- EN written: old and new value. -/
def State.tileEn (s : State) (t : Nat) (old new : Bool) : State :=
  let x := s.tile t
  let run := s.on (F.MLC_TILE_CTL_RUN t)
  (match old, new with
  | false, true => if run then s.setTile t { x with stop := false } else s.setTile t { tile0 with chk := 1 }
  | true, false =>
    if run then s.setTile t { x with stop := true }
    else
      let u := (s.withdraw t 0).setTile t { x with chk := 0, stop := false, prep := 0 }
      if u.on (F.MLC_TILE_CTL_ACQ t) then (u.set (F.MLC_TILE_CTL_ACQ t) 0).lisDrop (x.words.getD 16 0) else u
  | _, _ => s).mlcPath

/-- TILE_CHECKS_DONE, R146, R159, R166. -/
def State.tileChecked (s : State) (t : Nat) : State :=
  let x := s.tile t
  if !s.enabled W.MLC || !s.on (F.MLC_TILE_CTL_EN t) || x.chk ≠ 1 then s
  else
    let c := s.tileCause t
    if c ≠ 0 then
      let s := if c = 5 then (List.range 16).foldl (fun u f =>
        if u.on (F.MLC_SFCTL_EN t f) then u.bankRead t f (u.actBank t f) else u) s else s
      (((s.setTile t tile0).set (F.MLC_TILE_CTL_EN t) 0).set (F.MLC_TILE_CTL_REFCAUSE t) c).raise W.MLC E.MLC_TILEREF
    else
      let w := s.tileRegs t
      let u := (s.setTile t { tile0 with chk := 2, words := w, be := w.getD 11 0, x := max 1 (s.get (F.MLC_TILE_SEED_SEED t)) }).set
        (F.MLC_TILE_CTL_REFCAUSE t) 0
      if !s.on (F.MLC_TILE_CTL_FOLLOW t) then u
      else
        let l := w.getD 16 0
        let a : Asn := { tile := t, freq := s.tileFreq t (w.getD 15 0), mode := s.get (F.MLC_TPL3_MODE t 0), opn := s.ns,
                         cls := 2 ^ 80, square := scanMark, asn := 0, att := none }
        ((u.set (F.MLC_TILE_CTL_ACQ t) 1).mlcGive l a).2

def execTileChecksDone (t : Nat) (s : State) : Host.Outcome State Fault Refusal := .next (s.tileChecked t).mlcTold.mlcPath

/-- A switch that is armed is refused with a cause, R149. -/
def State.sfRefuse (s : State) (t f cause : Nat) : State :=
  ((s.set (F.MLC_SFCTL_SWPEND t f) 0).set (F.MLC_SFCTL_CAUSE t f) cause).raise W.MLC E.MLC_SFREF

/-- The inactive bank becomes active, R149. -/
def State.sfDo (s : State) (t f : Nat) : State :=
  (((s.set (F.MLC_SFCTL_ACTIVE t f) (1 - s.actBank t f)).set (F.MLC_SFCTL_SWPEND t f) 0).set (F.MLC_SFCTL_CAUSE t f) 0).raise
    W.MLC E.MLC_SFSWITCH

/-- SWASN of a slotframe. -/
def State.swAsn (s : State) (t f : Nat) : Nat := s.get (F.MLC_SWASNHI_SWASN t f) * 2 ^ 32 + s.get (F.MLC_SWASNLO_SWASN t f)

/-- SWITCH written, R149: at once while RUN is 0, else armed for SWASN. -/
def State.sfArm (s : State) (t f : Nat) : State :=
  if s.on (F.MLC_SFCTL_SWPEND t f) then s.raise W.MLC E.MLC_TILEBUSY
  else
    let c := s.bankCause t f (1 - s.actBank t f)
    if !s.on (F.MLC_TILE_CTL_RUN t) then (if c = 0 then s.sfDo t f else (s.bankRead t f (1 - s.actBank t f)).sfRefuse t f c)
    else
      let now := s.asnOf t ((s.slotK t).getD 0)
      if s.swAsn t f < now + 2 then s.sfRefuse t f 3
      else if c ≠ 0 then (s.bankRead t f (1 - s.actBank t f)).sfRefuse t f c
      else s.set (F.MLC_SFCTL_SWPEND t f) 1

/-- A Tile stops at its edge: RUN falls, armed switches are refused, later assignments are withdrawn, R146, R149. Squares in progress
complete under the fields that were in force. -/
def State.tileStop (s : State) (t k : Nat) : State :=
  let u := (List.range 16).foldl (fun u f => if u.on (F.MLC_SFCTL_SWPEND t f) then u.sfRefuse t f 3 else u) s
  let u := (u.withdraw t k).set (F.MLC_TILE_CTL_RUN t) 0
  u.setTile t { u.tile t with chk := 0, stop := false, prep := 0 }

/-- A beacon of a neighbour that no keep-alive square has followed is delivered at the next kind 5 square, R166. -/
def State.nbrSquare (s : State) (t k : Nat) : State :=
  if s.on (F.MLC_TILE_CTL_FOLLOW t) && s.mlc.plan.any fun e => e.1 == t && e.2.1 == k && (s.square e.2.2).kind == 5 then
    s.nbrDeliver t false
  else s

/-- At an edge of slot k a running Tile takes its registers over, and slotframe switches whose ASN it is act, R146, R149. -/
def State.edgeRun (s : State) (t k : Nat) : State :=
  let s := s.nbrSquare t k
  let x := s.tile t
  let y := { x with edge := some k, words := s.tileRegs t, seedWr := false,
                    x := if x.seedWr then max 1 (s.get (F.MLC_TILE_SEED_SEED t)) else x.x }
  (List.range 16).foldl (fun u f =>
    if !u.on (F.MLC_SFCTL_SWPEND t f) then u
    else if u.swAsn t f = s.asnOf t k then u.sfDo t f else u) ((s.setTile t y).sets
      [(F.MLC_TILE_CTL_RUN t, 1), (F.MLC_TILE_ASNLO_ASN t, s.asnOf t k % 2 ^ 32), (F.MLC_TILE_ASNHI_ASN t, s.asnOf t k / 2 ^ 32)])

/-- What an edge does whatever the Tile: a mute that waits begins (R310), and windows committed are applied (R124). -/
def State.edgePre (s : State) (t : Nat) : State :=
  let s := if s.mlc.mutePend then s.setMlc { s.mlc with mute := true, mutePend := false } else s
  if s.band t = 0 then s.winApply else s

/-- SLOT_EDGE of the slot that o gives, R124, R145, R146, R149, R159, R310. -/
def State.edgeAt (s : State) (t : Nat) (o : Option Nat) : State :=
  match o with
  | none => s
  | some k =>
    if !s.enabled W.MLC || (s.tile t).chk ≠ 2 || (s.tile t).edge = some k || s.on (F.MLC_TILE_CTL_ACQ t) then s
    else if (s.tile t).stop then ((s.edgePre t).tileStop t k).mlcPath
    else ((s.edgePre t).edgeRun t k).mlcPath

/-- SLOT_EDGE: the edge of the slot in progress. -/
def State.slotEdgeOp (s : State) (t : Nat) : State := s.edgeAt t (s.slotK t)

def execSlotEdge (t : Nat) (s : State) : Host.Outcome State Fault Refusal := .next (s.slotEdgeOp t)

/-! Preparing a slot, R150, R167 -/

/-- The bank in force in the slot of an ASN: a switch armed for it, or for the slot before, acts by then, R149. -/
def State.bankAt (s : State) (t f asn : Nat) : Nat :=
  if s.on (F.MLC_SFCTL_SWPEND t f) && (asn + 2 ^ 40 - s.swAsn t f) % 2 ^ 40 ≤ 1 then 1 - s.actBank t f else s.actBank t f

/-- The valid squares of a slotframe's bank in the slot of an ASN. -/
def State.sfSquares (s : State) (t f asn : Nat) : List Square :=
  let k := s.bank t f (s.bankAt t f asn)
  if !s.on (F.MLC_SFCTL_EN t f) || k.2.2 = 0 then []
  else ((List.range k.2.1).map fun i => s.square (k.1 + i)).filter fun q =>
    q.valid && q.slot == asn % k.2.2 && !s.ueIn (squareAt q.idx) 8

/-- Drops a second transmit square for the same node. -/
def dropTwice : List Nat → List Square → List Square
  | _, [] => []
  | seen, q :: r =>
    if q.kind = 1 && !q.any then
      (if seen.contains q.node then dropTwice seen r else q :: dropTwice (q.node :: seen) r)
    else q :: dropTwice seen r

/-- The receive window of a square of slot k, R154. -/
def State.rxWindow (s : State) (t k : Nat) (q : Square) : Nat × Nat :=
  let e := s.edgeNs t k + s.get (F.MLC_TPL0_TXOFFSET t q.tpl) * 1000
  let g := s.get (F.MLC_TPL0_GUARD t q.tpl) * 1000
  (e - g, e + s.get (F.MLC_TPL1_PRESFD t q.tpl) * 1000 + g)

/-- The octets of the keep-alive of R166 with its FCS. -/
def kaLen (mode : Nat) : Nat := 2 + 1 + 2 + 2 + 2 + 21 + (if modeFam mode = 2 then 2 else 4)

/-- The windows a square of slot k gives its listener, R150, R154, R155: a receive window where MLC may receive, and that of the
acknowledgement to what it sends; the frame is the head of its queue as the square is prepared (log entry 54). -/
def State.sqWindows (s : State) (t k : Nat) (q : Square) (watch : Bool) : List (Nat × Nat) :=
  let ack := fun (l : List QEnt) => match l with
    | e :: _ => if (mac154 (s.frame e.out.handle)).ackReq then [s.ackWindow t k q (s.frmLen e.out.handle)] else []
    | [] => []
  match q.kind with
  | 1 => ack (if q.any then s.sharedQ t else s.nodeQ q.node)
  | 2 => s.rxWindow t k q :: ack (s.sharedQ t)
  | 3 => if watch then [s.rxWindow t k q] else []
  | 4 => [s.rxWindow t k q, s.ackWindow t k q (kaLen (s.get (F.MLC_TPL3_MODE t q.tpl)))]
  | _ => [s.rxWindow t k q]

/-- Merges a quiet turn with those it overlaps, R167; the turns stand in order of time. -/
def mergeTurn : List (Nat × Nat) → Nat × Nat → List (Nat × Nat)
  | [], w => [w]
  | q :: r, w =>
    if q.1 ≤ w.2 && w.1 ≤ q.2 then mergeTurn r (min q.1 w.1, max q.2 w.2) else if w.2 < q.1 then w :: q :: r else q :: mergeTurn r w

/-- QUIET_TURN_GIVE, R167. -/
def State.quietGive (s : State) (t k : Nat) (q : Square) (f : Nat) : State :=
  let m := s.get F.MLC_QUIETCFG_QMODE
  if s.band t = 1 && (q.kind == 0 || q.kind == 2 || q.kind == 5) && (m == 2 || (m == 1 && s.overlapsA f)) then
    let w := ((s.rxWindow t k q).1 - s.get F.MLC_QUIETCFG_QLEAD * 1000,
      s.edgeNs t k + s.get (F.MLC_TPL3_RXEND t q.tpl) * 1000)
    s.setMlc { s.mlc with quiet := mergeTurn s.mlc.quiet w }
  else s

/-- A square clashes with one served: one listener, windows that overlap, R150. -/
def State.clash (s : State) (l : Nat) (ws : List (Nat × Nat)) : Bool :=
  ws.any fun w => s.mlc.wins.any fun v => v.1 == l && v.2.2.1 < w.2 && w.1 < v.2.2.2

/-- Whether a beacon square of slot k is one to listen in, R315. -/
def State.sqWatch (s : State) (t k : Nat) (q : Square) : Bool := q.kind == 3 && s.bcnWatch t (s.bcnNo t k q.idx)

/-- One square of a slot is served or skipped for a clash. -/
def State.serve (s : State) (t k : Nat) (q : Square) : State :=
  let watch := s.sqWatch t k q
  let l := if watch then s.get F.CPL_WATCH_LISTENER else q.lis
  let ws := s.sqWindows t k q watch
  if s.clash l ws then (s.mlcCnt 10).raise W.MLC E.MLC_LCLASH
  else
    let f := if watch then s.bcnFreq t (s.asnOf t k) q.choff else s.hopFreq t (s.asnOf t k) q.choff
    let u := s.setMlc { s.mlc with wins := ws.map (fun w => (l, t, w.1, w.2)) ++ s.mlc.wins,
                                   plan := s.mlc.plan ++ [(t, k, q.idx)] }
    let u := if q.kind ≤ 1 && !q.any then u.recLoad q.node else u
    let u := u.quietGive t k q f
    if (q.kind = 1 || q.kind = 3) && !watch then u
    else
      let w := s.rxWindow t k q
      (u.mlcGive l { tile := t, freq := f, mode := s.get (F.MLC_TPL3_MODE t q.tpl), opn := w.1, cls := w.2, square := q.idx,
                     asn := s.asnOf t k, att := none }).2

/-- The next slot of a Tile, while none of it has been prepared, R150. -/
def State.prepSlot (s : State) (t : Nat) : Option Nat :=
  let x := s.tile t
  let k := match s.slotK t with | none => 0 | some n => n + 1
  if !s.enabled W.MLC || x.chk ≠ 2 || x.stop || s.on (F.MLC_TILE_CTL_ACQ t) || k < x.prep then none else some k

/-- Slot k of a Tile is prepared: its squares are read and served, R150. -/
def State.prepTile (s : State) (t k : Nat) : State :=
  let asn := s.asnOf t k
  let all := dropTwice [] ((List.range 16).flatMap fun f => s.sfSquares t f asn)
  let bad := (List.range 16).flatMap fun f =>
    let b := s.bank t f (s.bankAt t f asn)
    if s.on (F.MLC_SFCTL_EN t f) && b.2.2 ≠ 0 then
      ((List.range b.2.1).map (· + b.1)).filter fun i =>
        s.ueIn (squareAt i) 8 && bitsOf (s.peekN (squareAt i) 8) 0 16 == asn % b.2.2
    else []
  let u := s.setTile t { s.tile t with prep := k + 1 }
  let u := u.quietPast
  let u := u.setMlc { u.mlc with wins := u.mlc.wins.filter (fun v => s.ns < v.2.2.2),
                                 quiet := u.mlc.quiet.filter (fun v => s.ns < v.2),
                                 plan := u.mlc.plan.filter fun e => !(e.1 == t && e.2.1 + 2 ≤ k) }
  let u := bad.foldl (fun u i => u.ueHit (squareAt i) 8) u
  let u := (all.drop 512).foldl (fun u _ => (u.mlcCnt 11).raise W.MLC E.MLC_SQSKIP) u
  (all.take 512).foldl (fun u q => u.serve t k q) u

/-- Puts a slot to prepare, as (edge, Tile, slot), in its place: order of edge, then of Tile. -/
def prepIns (x : Nat × Nat × Nat) : List (Nat × Nat × Nat) → List (Nat × Nat × Nat)
  | [] => [x]
  | y :: r => if x.1 < y.1 || (x.1 = y.1 && x.2.1 < y.2.1) then x :: y :: r else y :: prepIns x r

/-- SLOT_PREPARE, R150: the next slot of Tile t, after those of other Tiles whose edge comes before it or with it and a lower Tile
number; Tiles whose edges fall together are prepared together (log entry 54). -/
def State.prepare (s : State) (t : Nat) : State :=
  match s.prepSlot t with
  | none => s
  | some k =>
    let e := s.edgeNs t k
    let l := (List.range 8).filterMap fun u => match s.prepSlot u with
      | some j => if s.edgeNs u j ≤ e then some (s.edgeNs u j, u, j) else none
      | none => none
    (l.foldl (fun b x => prepIns x b) []).foldl (fun u x => u.prepTile x.2.1 x.2.2) s

def execSlotPrepare (t : Nat) (s : State) : Host.Outcome State Fault Refusal := .next ((s.prepare t).mlcTold.mlcPath)

/-- Radio A's channel has changed: squares already prepared on channels that overlap it now get their quiet turn at once, R167, R230. -/
def State.quietAgain (s : State) : State :=
  s.mlc.plan.foldl (fun u e =>
    let q := s.square e.2.2
    if (s.rxWindow e.1 e.2.1 q).2 ≤ s.ns then u else u.quietGive e.1 e.2.1 q (s.hopFreq e.1 (s.asnOf e.1 e.2.1) q.choff)) s

/-! The board load, R151 -/

/-- The source of a board load. -/
def State.loadSrc (s : State) : Nat := s.get F.MLC_LOADSRCHI_ADDR * 2 ^ 32 + s.get F.MLC_LOADSRCLO_ADDR

/-- The target overlaps the active bank of a slotframe whose Tile is running. -/
def State.loadHits (s : State) : Bool :=
  (List.range 8).any fun t => s.on (F.MLC_TILE_CTL_RUN t) && (List.range 16).any fun f =>
    let k := s.bank t f (s.actBank t f)
    k.1 < s.get F.MLC_LOADFIRST_FIRST + s.get F.MLC_LOADCOUNT_COUNT
      && s.get F.MLC_LOADFIRST_FIRST < k.1 + k.2.1

/-- START of a board load. -/
def State.boardStart (s : State) (rq : Rq) : State :=
  let n := s.get F.MLC_LOADCOUNT_COUNT
  let a := s.loadSrc
  let src := (inSram a && a + 8 * n ≤ 0x13800000) || (inDram a && inDram (a + 8 * n - 1))
  let t := s.opStart rq W.MLC (src && a % 8 == 0 && 0 < n && s.get F.MLC_LOADFIRST_FIRST + n ≤ 1048576) true
  if t.opSt W.MLC == 2 && s.opSt W.MLC != 2 && s.loadHits then t.opFail W.MLC 9 else t

def execMlcBoardLoad (rq : Rq) (s : State) : Host.Outcome State Fault Refusal := .next (s.boardStart rq)

/-- One square of a board load: cause 4 where its source has gone dark, 5 where it cannot be read. -/
def State.boardUnit (s : State) : State :=
  let k := s.get (F.OPSTAT_PROGRESS W.MLC)
  let a := s.loadSrc + 8 * k
  let i := s.get F.MLC_LOADFIRST_FIRST + k
  if s.memDark a then s.opFail W.MLC 4
  else
    let s := s.ueHit a 8
    if s.ueIn a 8 then s.opFail W.MLC 5
    else
      let t := (s.poke (squareAt i) (s.peeks a 8)).opUnits W.MLC (k + 1) i
      if s.get F.MLC_LOADCOUNT_COUNT ≤ k + 1 then t.opDone W.MLC else t

/-! Listener rows, R124 to R134, with what MLC does when a listener comes free or an acknowledgement window closes -/

/-- After an event of listener l: assignments held back go on, MLC learns what MPHY told it, attempts whose acknowledgement window is over
fail, and the paths and the hold of the band follow. -/
def State.lisThen (s : State) (l : Nat) : State :=
  let t := (s.mlcFeed l).mlcTold.mlcPath
  if t.on (F.RFE_COEXCFG_RXREQ 3) && (t.lis l).st == 0 then t.coexRelease else t

def execListenerAssign (l : Nat) (a : Asn) (s : State) : Host.Outcome State Fault Refusal := .next ((s.giveAsn l a).2.lisThen l)
def execListenerWindowOpen (l : Nat) (s : State) : Host.Outcome State Fault Refusal := .next (s.lisOpen l)
def execEnergyDetect (l : Nat) (e : Int) (s : State) : Host.Outcome State Fault Refusal := .next (s.lisEnergy l e)
def execQualifierPass (l : Nat) (corr : List Nat) (e : Int × Int) (s : State) : Host.Outcome State Fault Refusal :=
  .next (s.lisQualify l corr e.1 e.2)
def execQualifierFail (q : QualEnd) (s : State) : Host.Outcome State Fault Refusal :=
  .next ((s.lisUnqualify q.l q.corr q.e).lisThen q.l)
def execSfdMatch (l units : Nat) (rssi : Int) (s : State) : Host.Outcome State Fault Refusal :=
  .next ((s.lisSfd l units rssi).lisThen l)
def execSfdwaitExpire (w : SfdWait) (s : State) : Host.Outcome State Fault Refusal := .next ((s.lisFalse w.l w.units).lisThen w.l)
def execStrongerPreamble (l : Nat) (corr : List Nat) (e : Int) (es : Int × Int) (s : State) : Host.Outcome State Fault Refusal :=
  .next (s.lisCapture l corr e es.1 es.2)
def execPhrEnd (l : Nat) (h : Phr) (len : Nat) (fcslen dw : Bool) (s : State) : Host.Outcome State Fault Refusal :=
  .next ((s.lisPhr l h len fcslen dw).lisThen l)
def execPsduEnd (l : Nat) (psdu : List Byte) (rep : RxRep) (taps : List Nat) (s : State) : Host.Outcome State Fault Refusal :=
  .next ((s.lisPsdu l psdu rep taps).lisThen l)

/-- LISTENER_WINDOW_CLOSE, R134, R155. -/
def State.winClose (s : State) (l : Nat) : State := (s.lisClose l).lisThen l

def execListenerWindowClose (l : Nat) (s : State) : Host.Outcome State Fault Refusal := .next (s.winClose l)

/-- Whether a sub-GHz Tile's checks have passed, R124. -/
def State.subGhzTile (s : State) : Bool :=
  (List.range 8).any fun t => s.on (F.MLC_TILE_CTL_EN t) && s.band t == 0 && (s.tile t).chk == 2

/-- COMMIT of the staged windows, R124. -/
def State.winCommit (s : State) : State :=
  let t := s.set F.MPHY_WINCTL_PENDING 1
  if s.subGhzTile then t else t.winApply

/-- WINDOW_APPLY, R124. -/
def execWindowApply (s : State) : Host.Outcome State Fault Refusal := .next s.winApply

/-- PRESEL_RETUNE_DONE, R109, R134: the retune ends; frames it has blanked are lost. -/
def execPreselRetuneDone (r p : Nat) (s : State) : Host.Outcome State Fault Refusal :=
  .next (if s.on (F.RFE_PATHSTAT_TUNING r p) then
    let t := s.set (F.RFE_PATHSTAT_TUNING r p) 0
    if r = 3 && p = 0 then (t.blank 0).mlcTold else t
  else s)

/-- ARM of a tap export, R137: the range must lie within the tap region. -/
def State.eqArm (s : State) (rq : Rq) : State :=
  let a := s.get F.MPHY_EQADDR_ADDR
  if a % 8 = 0 && 0x13000000 ≤ a && a + 832 ≤ 0x14000000 then s.set F.MPHY_EQCFG_ARMED 1
  else s.errRec rq W.MPHY 0x90 5

end Sys2Proof.Machine
end

