-- ==== Sys2Proof/Machine/MlcRx.lean ====
section
/-!
DEFINITION. What MLC does with a frame a listener hands over: the checks, the wagon, the acknowledgement: spec/07, R154 to R158,
R166, with R22, R23, R181, R237 and the header words of R239.
-/

namespace Sys2Proof.Machine

/-- The FCS of a PSDU has 4 octets: SUN modes, unless the PHR of SUN FSK says 2. -/
def fcs4 (mode : Nat) (fcslen : Bool) : Bool := modeFam mode == 1 || (modeFam mode == 0 && !fcslen)

/-- What a frame handed over reads as, and whether its FCS is valid. -/
def Handed.mac (x : Handed) : Mac154 :=
  let four := fcs4 x.asn.mode x.fcslen
  { mac154 (noFcs four x.psdu) with fcs := fcsOk four x.psdu }

/-- The content after the subtype octet of a frame's Rondaek IE of a subtype, R164. -/
def State.timeIeOf (s : State) (m : Mac154) (sub : Nat) : Option (List Byte) :=
  (m.ies.find? fun e => e.1 == s.get F.MLC_VENDORID_ID && (e.2.headD 0).toNat == sub).map fun e => e.2.drop 1

/-- The launch time in ns a subtype-1 IE gives. -/
def ieTime (l : List Byte) : Nat := ofLE (l.take 4) + ofLE ((l.drop 4).take 6) * 1000000000

/-- Addressed to the Tile, R156. -/
def State.tileAddressed (s : State) (t : Nat) (m : Mac154) : Bool :=
  (m.dstPan.isNone || m.dstPan == some (s.get (F.MLC_TILE_PAN_PANID t))) &&
    ((m.dstMode == 1 && m.dst == s.get (F.MLC_TILE_PAN_SHORT t) && m.dst != 0xFFFF)
      || (m.dstMode == 2 && m.dst == s.get (F.MLC_TILE_EXTHI_EXT t) * 2 ^ 32 + s.get (F.MLC_TILE_EXTLO_EXT t)))

/-- The record of a short source whose map entry is VALID, R181. -/
def State.mapRec (s : State) (t : Nat) (m : Mac154) : Option Nat :=
  if m.srcMode = 1 && bitOf (s.mapE t (m.src % 65536)) 31 then some (s.mapE t (m.src % 65536) % 2 ^ 18) else none

/-- MLC's own judgement of a class P frame, R181: none where MLC does not judge; 0 NEW, 1 DUP, 2 neither, 3 MIC invalid. NEW
moves the shadow and the known bit. -/
def State.mlcJudge (s : State) (t asn : Nat) (m : Mac154) (psdu : List Byte) : Option Nat × State :=
  match s.classP m, s.mapRec t m with
  | true, some i =>
    if !s.micOk (bitsOf (s.mapE t (m.src % 65536)) 18 12) asn psdu then (some 3, s)
    else
      let v := judgeP m.count (s.peekN (shadowAt i) 4) (kget s.mlc.known i).isSome
      if v = 0 then
        let u := s.pokeN (shadowAt i) 4 m.count
        (some 0, u.setMlc { u.mlc with known := kset u.mlc.known i 1 })
      else (some v, s)
  | _, _ => (none, s)

/-- The receive stamp in ns; in software mode the end of the frame less its air time. -/
def Handed.sNs (x : Handed) (n : Nat) : Nat := if x.stamp = 0 then x.ended - airNs x.asn.mode n else stampNs x.stamp

/-- A listener of path 2 whose frame has passed its PHR ends after time c, R158. -/
def State.blanksAt (s : State) (c : Nat) : Bool :=
  s.mphy.lis.any fun e => lisPath e.1 == 2 && e.2.st == 6 && (match e.2.cur with
    | some a => decide (c < stampNs e.2.stamp + airNs a.mode e.2.len)
    | none => false)

/-- The launch time of an acknowledgement, R158. -/
def State.ackTime (s : State) (c : Carr) (l0 spread : Nat) : Option Nat :=
  let l := (List.range (spread / 10 + 1)).map fun k => l0 + 10000 * k
  let ok := fun (a : Nat) => !carrFull { c with at' := a } (s.portCarr c.port)
  match (if 22 ≤ c.port then l.find? fun a => ok a && !s.blanksAt a else none) with
  | some a => some a
  | none => l.find? ok

/-- D of R157 in ns; in software mode, where S has no value, a free value within GUARD and 1 µs (log entry 13). -/
def State.arrivalD (s : State) (x : Handed) (ref guard : Nat) : Int × State :=
  if x.stamp = 0 then
    let p := s.fresh
    (((p.1 % (2 * guard + 2001) : Nat) : Int) - (guard + 1000 : Nat), p.2)
  else (((ref : Int) - stampNs x.stamp), s)

/-- The template of the square a frame came in. -/
def State.tplOf (s : State) (x : Handed) : Nat := if x.asn.square < scanMark then (s.square x.asn.square).tpl else 0

/-- L0, R158. -/
def State.ackL0 (s : State) (x : Handed) : Nat :=
  x.sNs x.psdu.length + airNs x.asn.mode x.psdu.length + s.get (F.MLC_TPL1_ACKDELAY x.asn.tile (s.tplOf x)) * 1000

/-- The enhanced acknowledgement of frame m without security and FCS, R156, R157: frame control, sequence number, PAN identifier and
source of the frame as destination, Time Correction IE, time IE of subtype 2 (log entry 53). -/
def State.ackFrame (s : State) (t : Nat) (m : Mac154) (sec pend : Bool) (tc : Int) (arrival : Option (List Byte)) : List Byte :=
  let dm := min m.srcMode 2
  fcf 2 sec pend false false m.seq.isNone true dm 0 ++ (match m.seq with | some n => toLE 1 n | none => [])
    ++ (if dm = 0 then [] else toLE 2 (s.get (F.MLC_TILE_PAN_PANID t))) ++ addr154 dm m.src
    ++ headerIe 0x1E (toLE 2 (unsgn 12 tc)) ++ (match arrival with | some c => vendorIe c | none => [])

/-- The acknowledgement of a frame, R156 to R158, R161: whether it was sent. One that the image does not exempt is listened for at the
candidate chosen. -/
def State.ackSend (s : State) (x : Handed) (m : Mac154) (pend : Bool) (tc : Int) (lbt : Option Int) : Bool × State :=
  let t := x.asn.tile
  let tpl := s.tplOf x
  let n := x.psdu.length
  let start := x.sNs n - s.get (F.MLC_TPL1_PRESFD t tpl) * 1000
  let arr := (s.timeIeOf m 1).map fun l =>
    toLE 3 (s.get F.MLC_VENDORID_ID) ++ toLE 1 2 ++ toLE 4 (unsgn 32 ((start : Int) - ieTime l))
  let sec := m.secured && s.tv t 0 == 1
  let l := s.ackFrame t m sec pend tc arr
  let l := if sec then s.secure t x.asn.asn l else l
  let four := fcs4 x.asn.mode x.fcslen
  let d := fcsAppend four l
  let port := s.meshPort t x.asn.freq (some x.aerial)
  let l0 := s.ackL0 x
  let c : Carr := { id := 0, tile := t, port := port, freq := x.asn.freq, mode := x.asn.mode, power := 0, at' := l0,
                    dur := preNs x.asn.mode preDef + airNs x.asn.mode d.length, act := 0, cls := 1, psdu := d, wag := none,
                    whiten := false, fcs4 := four, pre := preDef }
  match s.ackTime c l0 (s.get (F.MLC_TPL2_ACKSPREAD t tpl)) with
  | none => (false, (s.mlcCnt 1).raise W.MLC E.MLC_ACKDROP)
  | some a =>
    let b := s.lbt t x.asn.freq lbt true
    if b.1 then (false, b.2.mlcCnt 2)
    else
      let r := b.2.meshSend port x.asn.freq x.asn.mode a 1 four d fun id st =>
        { tile := t, what := 4, q := none, id := id, stamp := st, lis := none, seq := none, own := none }
      if r.1 = 0 then (true, r.2) else (false, r.2.mlcCnt 9)

/-- What a frame in an acknowledgement window means for its attempt, R155: success, with the time correction passed to MNODE. -/
def State.ackHeard (s : State) (x : Handed) (m : Mac154) : State :=
  match s.mlc.tries.find? fun r => x.asn.att == some r.id with
  | none => s
  | some r =>
    if m.fcs && m.kind == 2 && s.tileAddressed r.tile m && m.seq == r.seq then
      let s := match m.tc, r.q.bind fun e => e.rec' with
        | some c, some i => s.setMn { s.mn with atc := kset s.mn.atc i c }
        | _, _ => s
      let s := s.tryOk r
      match s.timeIeOf m 2 with
      | some l => if r.what = 2 then s.setTile r.tile { s.tile r.tile with ea := some (sgn 32 (ofLE (l.take 4))) } else s
      | none => s
    else s

/-- A neighbour's beacon, R166: it ends the acquisition, or is the beacon of a kind 5 square. -/
def State.nbrHeard (s : State) (x : Handed) (m : Mac154) (tpl : Nat) : State :=
  let t := x.asn.tile
  if m.kind ≠ 0 || m.srcMode ≠ 1 || m.src ≠ s.get (F.MLC_TILE_NBR_NBRSHORT t) then s
  else match s.timeIeOf m 1 with
    | none => s
    | some l =>
      let start := x.sNs x.psdu.length - s.get (F.MLC_TPL1_PRESFD t tpl) * 1000
      let eb : Int := (start : Int) - ieTime l
      if x.asn.square = scanMark then
        match m.asn with
        | none => s
        | some n =>
          let u := s.setEpoch t (start - s.get (F.MLC_TPL0_TXOFFSET t 0) * 1000)
          let u := u.sets [(F.MLC_TILE_ASNBASELO_ASN t, n % 2 ^ 32), (F.MLC_TILE_ASNBASEHI_ASN t, n / 2 ^ 32),
            (F.MLC_TILE_CTL_ACQ t, 0)]
          ((u.setTile t { u.tile t with eb := some eb }).lisDrop x.lis).raise W.MLC E.MLC_NBRSYNC
      else
        let u := s.nbrDeliver t false
        u.setTile t { u.tile t with eb := some eb }

/-- A request to SEC that an island makes for a secured ingress frame, R237, R326: OP and key; SEC takes a buffer of its own
for the result (log entry 14). -/
def State.secAsk (s : State) (op key h wid : Nat) : State :=
  { s with yard := { s.yard with reqs := s.yard.reqs ++
      [({ words := [op + 16 * key, h, 0, 0], sec := true, cs := s.wNow, wid := wid, slot := 1 } : Req)] } }

/-- The key of a mesh frame, R326: the map entry's, or the record's for an extended source. -/
def State.meshKey (s : State) (t : Nat) (m : Mac154) : Nat :=
  if m.srcMode = 1 then bitsOf (s.mapE t (m.src % 65536)) 18 12
  else match kget s.mn.idx m.src with
    | some i => s.recF i 3 16 12
    | none => 0

/-- A frame with a valid FCS is handed on, R237: header words 10 to 15, the wagon, SEC's part and MNODE's. -/
def State.handOn (s : State) (x : Handed) (m : Mac154) (w11 : Nat) (d : Int) (a : Attr) : State :=
  let t := x.asn.tile
  let s := s.pokeHdr x.buf 10 [x.asn.asn % 2 ^ 32, x.asn.asn / 2 ^ 32 % 256 + w11, unsgn 32 d, 0, 0, 0]
  let s := match m.srcMode == 2, kget s.mn.idx m.src with
    | true, some i => s.recLoad i
    | _, _ => s
  let c : List (Nat × Nat × Option Nat) := [(0, 1, some x.buf)] ++ (if m.secured then [(1, 2, none)] else []) ++ [(2, 3, none)]
  let p := s.islandCommit t x.trn (if x.stamp = 0 then s.ns else stampNs x.stamp) c
  match p.1 with
  | none => p.2.bufRelease x.buf
  | some w =>
    let u := if m.secured then p.2.secAsk 1 (p.2.meshKey t m) x.buf w else p.2
    u.setMn { u.mn with todo := u.mn.todo ++ [{ a with wid := w }] }

/-- KIND of the square a frame came in, R239. -/
def State.kindOf (s : State) (x : Handed) : Nat := if x.asn.square = scanMark then 5 else (s.square x.asn.square).kind

/-- A frame's FCS check completes before another's, R181: frame end, then the lower listener. -/
def Handed.before (a b : Handed) : Bool := a.ended < b.ended || (a.ended = b.ended && a.lis < b.lis)

/-- Puts a frame in the order of the FCS checks. -/
def fcsIns (x : Handed) : List Handed → List Handed
  | [] => [x]
  | y :: r => if x.before y then x :: y :: r else y :: fcsIns x r

/-- The frame that MLC finishes next: acknowledgements are planned in order of L0, then of the listener, R158. -/
def State.nextHanded (s : State) : Option Handed :=
  s.mphy.handed.foldl (fun b x => match b with
    | none => some x
    | some c => if s.ackL0 x < s.ackL0 c || (s.ackL0 x = s.ackL0 c && x.lis < c.lis) then some x else some c) none

/-- Class P is judged in the order of the FCS checks, R181: every frame up to x that is not yet judged. -/
def State.judgeTo (s : State) (x : Handed) : State :=
  ((s.mphy.handed.filter fun y => y.jd.isNone && (y == x || y.before x)).foldl (fun l y => fcsIns y l) []).foldl (fun s y =>
    let m := y.mac
    let j := if m.fcs then s.mlcJudge y.asn.tile y.asn.asn m y.psdu else (none, s)
    { j.2 with mphy := { j.2.mphy with handed := j.2.mphy.handed.map fun z => if z = y then { z with jd := some j.1 } else z } }) s

/-- The record of a frame's source as MLC's pending bitmap has it, R23: by the map for a short source, by EXT for an extended one
(log entry 55). -/
def State.pendRec (s : State) (t : Nat) (m : Mac154) : Option Nat :=
  if m.srcMode = 2 then (match kget s.mn.idx m.src with
    | some i => if s.recState i = 1 && !s.mn.lost.contains i then some i else none
    | none => none)
  else s.mapRec t m

/-- MLC's work on a frame of valid FCS: what it means for an attempt or a neighbour, the acknowledgement, the wagon, R155 to R158,
R166. j is its class P check. -/
def State.mlcFrame (s : State) (x : Handed) (m : Mac154) (j : Option Nat) (lbt : Option Int) : State :=
  let t := x.asn.tile
  let kind := s.kindOf x
  let tpl := s.tplOf x
  let s := s.ackHeard x m
  let s := if kind = 5 && s.on (F.MLC_TILE_CTL_FOLLOW t) then s.nbrHeard x m tpl else s
  let slot := x.asn.square < scanMark
  let k := (x.asn.asn + 2 ^ 40 - s.asnOf t 0) % 2 ^ 40
  let ref := s.edgeNs t k + (s.get (F.MLC_TPL0_TXOFFSET t tpl) + s.get (F.MLC_TPL1_PRESFD t tpl)) * 1000
  let dp := if slot then s.arrivalD x ref (s.get (F.MLC_TPL0_GUARD t tpl) * 1000) else (0, s)
  let d := dp.1
  let s := dp.2
  let tc := clampI (-2047) 2047 (roundDiv d 1000)
  let want := m.ackReq && s.tileAddressed t m && slot
  let mayAck := match j with | some v => decide (v ≤ 1) | none => true
  let node := s.pendRec t m
  let pend := match node with | some i => (kget s.mlc.pend i).isSome | none => false
  let r := if want && mayAck then s.ackSend x m pend tc lbt else (false, if want then s.mlcCnt 4 else s)
  let u := match r.1 && pend, node with
    | true, some i => r.2.promote i
    | _, _ => r.2
  let w11 := b2n r.1 * 2 ^ 8 + b2n (r.1 && pend) * 2 ^ 9 + unsgn 12 tc * 2 ^ 10 + kind % 8 * 2 ^ 22
  u.handOn x m w11 (if kind = 0 then d else 0)
    { wid := 0, lis := x.lis, tile := t, stamp := if x.stamp = 0 then x.ended * 65536 else x.stamp, asn := x.asn.asn, d := d, tc := tc,
      sample := r.1 && kind == 0, ref := ref, mlc := j, fofs := x.fofs, fosat := x.fosat, snr := x.snr, freq := x.asn.freq,
      rssi := x.rssi, incr := x.incr, psdu := x.psdu }

/-- MLC_FRAME_CHECK, R156, R158, R181: the frame that is next, when listener l has handed it over; lbt is the largest energy of the
listen interval. -/
def State.mlcCheck (s : State) (l : Nat) (lbt : Option Int) : State :=
  match s.nextHanded with
  | none => s
  | some x =>
    if x.lis ≠ l then s
    else
      let off := !s.enabled W.MLC || s.mlc.mute
      let s := if off then s else s.judgeTo x
      let j := ((s.mphy.handed.find? fun y => { y with jd := none } == { x with jd := none }).bind fun y => y.jd).getD none
      let s := { s with mphy := { s.mphy with handed := s.mphy.handed.filter fun y => { y with jd := none } != { x with jd := none } } }
      let m := x.mac
      let drop := fun (u : State) => (u.bufRelease x.buf).unresv x.trn
      if off then drop s
      else if !m.fcs then (drop s).mlcCnt 3
      else s.mlcFrame x m j lbt

def execMlcFrameCheck (l : Nat) (lbt : Option Int) (s : State) : Host.Outcome State Fault Refusal :=
  .next ((s.mlcCheck l lbt).lisThen l)

/-- BOARD_WRITE_DISCARD, R147: a write to the board region by a requester other than MLC. -/
def execBoardWriteDiscard (rq : Rq) (addr bytes : Nat) (s : State) : Host.Outcome State Fault Refusal :=
  .next (if inBoard addr && !(rq.cls == 3 && rq.num == W.MLC) && 0 < bytes then s.raise W.MLC E.MLC_BOARDWR else s)

/-- MAP_WRITE_DISCARD, R169, R170: a write to the map by a requester other than MNODE, or to the shadow by one other than MLC and
MNODE. -/
def execMapWriteDiscard (rq : Rq) (addr bytes : Nat) (s : State) : Host.Outcome State Fault Refusal :=
  .next (
    let mn := rq.cls == 3 && rq.num == W.MNODE
    let mlc := rq.cls == 3 && rq.num == W.MLC && 0x13700000 ≤ addr
    if inMap addr && !mn && !mlc && 0 < bytes then s.raise W.MNODE E.MNODE_MAPWR else s)

end Sys2Proof.Machine
end

