-- ==== Sys2Proof/Machine/Air.lean ====
section
/-!
DEFINITION. How mesh carriers end: on the air in full, cut, refused at the launch; lent ports; the mask monitor; the ledger of
FLT with what a retirement does: spec/05 R107, R110, R115, spec/06, spec/19 R371 to R379.
-/

namespace Sys2Proof.Machine

/-! Carriers that end -/

/-- The attempt a carrier serves. -/
def State.carrTry (s : State) (id : Nat) : Option Try := s.mlc.tries.find? fun r => r.id == id

/-- A carrier has left the air in full: a frame that wants no acknowledgement is sent, R155. -/
def State.carrSent (s : State) (id : Nat) : State :=
  let t := s.carrDrop id
  match t.carrTry id with
  | none => t
  | some r => if r.what ≤ 1 && r.lis.isNone then t.tryOk r else if r.what = 3 || r.what = 4 then t.tryDrop id else t

/-- A carrier is cut in mid-frame, R107, R162: its attempt has failed; LIM counts the air time used (R334). -/
def State.carrCut (s : State) (id : Nat) : State :=
  let t := (s.carrDrop id).limCut id
  let t := { t with mphy := { t.mphy with status := 11 } }
  match t.carrTry id with
  | none => t
  | some r => if r.what ≤ 1 then t.tryFail r false else t.tryDrop id

/-- An accepted carrier is refused before its launch with a status of R141, R162. -/
def State.carrRefused (s : State) (id status : Nat) : State :=
  let t := ((s.carrDrop id).limCut id).carrStatus status
  match t.carrTry id with
  | none => t
  | some r => t.tryRefused r status

/-- Takes a carrier's command off its path. -/
def State.pathForget (s : State) (p id : Nat) : State :=
  s.setPath 3 p { s.path 3 p with txs := (s.path 3 p).txs.filter fun d => d.id != id }

/-- Every active carrier of a port stops, R107, R115. -/
def State.portCut (s : State) (port : Nat) : State :=
  (s.mphy.active.filter fun c => c.port == port).foldl (fun t c => (t.carrCut c.id).pathForget (carrPath port) c.id) s

/-- A mesh path stops transmitting: its carriers on the air are cut, those accepted are refused BUSY, R107. -/
def State.meshStop (s : State) (p : Nat) : State :=
  let t := (s.mphy.active.filter fun c => carrPath c.port == p).foldl (fun t c => t.carrCut c.id) s
  (s.mphy.waiting.filter fun c => carrPath c.port == p).foldl (fun t c => t.carrRefused c.id 2) t

/-- A carrier for a lent port goes to the Trail, R317. -/
def State.carrLend (s : State) (c : Carr) : State :=
  let t := (s.carrDrop c.id).pathForget (carrPath c.port) c.id
  t.setMlc { t.mlc with lent := t.mlc.lent ++ [c] }

/-- CARRIER_REQUEST, R141, R317. -/
def execCarrierRequest (c : Carr) (s : State) : Host.Outcome State Fault Refusal :=
  .next (if s.lentPort c.port then s.setMlc { s.mlc with lent := s.mlc.lent ++ [c] } else (s.carrReq c).2)

/-- MLC counts a beacon or an acknowledgement that has been launched, R158, R163. -/
def State.carrCount (s : State) (id : Nat) : State :=
  match s.carrTry id with
  | some r => if r.what = 3 then s.mlcCnt 12 else if r.what = 4 then s.mlcCnt 0 else s
  | none => s

/-- CARRIER_LAUNCH, R15, R82: within the 50 ns of R28 the carrier goes on the air; past them a forward step has made it LATE. None
starts while the hold of the band ends with the current frame, R120. -/
def State.carrGo (s : State) (id : Nat) : State :=
  match s.mphy.waiting.find? fun d => d.id == id with
  | none => s
  | some c =>
    if s.ns < c.at' then s
    else if c.at' + 50 < s.ns then (s.carrRefused id 1).pathForget (carrPath c.port) id
    else if s.rfe.coex.ending && s.coexScope 3 (carrPath c.port) then (s.coexRefuse 3 (carrPath c.port) id).carrRefused id 5
    else ((s.carrLaunch id).carrCount id).deafen id

def execCarrierLaunch (id : Nat) (s : State) : Host.Outcome State Fault Refusal := .next (s.carrGo id)

/-! Retirement, R378 -/

/-- What the retirement of an aerial chain does at once, R378. -/
def State.airRetire (s : State) (code : Nat) : State :=
  let port := code % 256
  if code = 0x1014 || code = 0x1015 then
    let t := s.portCut port
    let w := t.mphy.waiting.filter fun c => c.port == port
    if s.get F.CPL_STAT_STATE = 3 then
      let t := (t.set (if port = 20 then F.CPL_LEND_MT0 else F.CPL_LEND_MT1) 1).set F.CPL_LEND_BYFLT 1
      w.foldl (fun t c => t.carrLend c) t
    else w.foldl (fun t c => (t.carrRefused c.id 2).pathForget 1 c.id) t
  else if code = 0x1016 || code = 0x1017 then
    let t := s.portCut port
    if t.retired (0x1000 + 45 - port) then
      (t.mphy.waiting.filter fun c => 22 ≤ c.port).foldl (fun t c => (t.carrRefused c.id 2).pathForget 2 c.id) t
    else { t with mphy := { t.mphy with waiting := t.mphy.waiting.map fun c => t.livePort c } }
  else s

/-- An event of any resource, with what a retirement of an aerial chain does, R373, R378. -/
def State.fltAir (s : State) (code page : Nat) (hard : Bool) : State :=
  let t := s.fltEvent code page hard
  if !s.retired code && t.retired code then t.airRetire code else t

/-- RESTORE, R373: the count is cleared and the resource is in service. -/
def State.fltRestoreOp (s : State) : State :=
  let code := s.get F.FLT_RESSEL_CODE
  if !s.fltCode code then s
  else
    let t := { s with flt := { s.flt with led := kdel s.flt.led code } }
    if code / 256 = 0x51 then t.set (F.FLT_PAGE_RETIRED (code % 256)) 0 else t

/-! The mask monitor, R115 -/

/-- MASK_MEASURE: the worst excess over the mask in 0.25 dB. -/
def State.maskOp (s : State) (r port : Nat) (excess : Int) : State :=
  let margin := match s.lim.img with | some g => g.cut.getD 12 | none => 12
  if excess ≤ 0 || (portPath port).1 ≠ r then s
  else
    let cut := decide (margin ≤ excess)
    let t := (s.satAdd (F.RFE_CNT2_MASK r) (F.RFE_CNT2_MOVF r) (W.RFE r) E.RFE_CNTSAT 1).raise (W.RFE r) E.RFE_MASKVIOL
    let t := ((t.setI (F.RFE_MASKLAST_EXCESS r) excess).set (F.RFE_MASKLAST_PORT r) (reflIdx port)).set (F.RFE_MASKLAST_CUT r) (b2n cut)
    if !cut then t
    else
      let t := (t.satAdd (F.RFE_CNT3_CUT r) (F.RFE_CNT3_CUTOVF r) (W.RFE r) E.RFE_CNTSAT 1).raise (W.RFE r) E.RFE_MASKCUT
      let t := if r = 3 then t.portCut port else t
      t.fltAir (0x1000 + port) 0 false

end Sys2Proof.Machine
end

