-- ==== Sys2Proof/Machine/Six.lean ====
section
/-!
DEFINITION. 6LoWPAN header compression, R266: IPHC with contexts, NHC for UDP, the IPv6 extension headers and an encapsulated IPv6 header,
in the encodings of RFC 6282 (log entry 68).
-/

namespace Sys2Proof.Machine

/-- Contexts as (identifier, prefix octets, length in bits). -/
abbrev SixCtx := List (Nat × List Byte × Nat)

/-- The interface identifier of a link-layer address, by the mode of Mac154: none without an address. -/
def sixIid (mode a : Nat) : Option (List Byte) :=
  match mode with
  | 1 => some (toBE 8 (0xFFFE000000 + a % 65536))
  | 2 => some (toBE 8 (xorN (a % 2 ^ 64) (2 ^ 57)))
  | _ => none

/-- The first n bits of a prefix over an address. -/
def overlay (p : List Byte) (n : Nat) (a : List Byte) : List Byte :=
  let k := 128 - min 128 n
  toBE 16 (ofBE p / 2 ^ k * 2 ^ k + ofBE a % 2 ^ k)

/-- Octets an address of a mode carries inline. -/
def amLen (am : Nat) : Nat := match am with | 0 => 16 | 1 => 8 | 2 => 2 | _ => 0

/-- The link-local prefix. -/
def linkLocal : List Byte := toBE 16 (0xFE80 * 2 ^ 112)

/-- A unicast address from its mode and inline octets; ctx is none for a stateless one. Mode 0 with a context is the unspecified address,
which only a source may be. -/
def uniOpen (ctx : Option (List Byte × Nat)) (am : Nat) (iid : Option (List Byte)) (l : List Byte) : Option (List Byte) :=
  let p := ctx.getD (linkLocal, 64)
  match am with
  | 0 => if ctx.isSome then some (toBE 16 0) else some l
  | 1 => some (overlay p.1 p.2 (toBE 8 0 ++ l))
  | 2 => some (overlay p.1 p.2 (toBE 8 0 ++ toBE 6 0xFFFE00 ++ l))
  | _ => iid.map fun i => overlay p.1 p.2 (toBE 8 0 ++ i)

/-- Octets a multicast address of a mode carries inline. -/
def mcLen (dac : Bool) (am : Nat) : Nat := if dac then 6 else match am with | 0 => 16 | 1 => 6 | 2 => 4 | _ => 1

/-- A multicast address from its mode and inline octets; none for a reserved mode. -/
def mcOpen (ctx : Option (List Byte × Nat)) (am : Nat) (l : List Byte) : Option (List Byte) :=
  match ctx with
  | some p => if am = 0 then some (toBE 1 0xFF ++ l.take 2 ++ toBE 1 p.2 ++ p.1.take 8 ++ l.drop 2) else none
  | none => match am with
    | 0 => some l
    | 1 => some (toBE 1 0xFF ++ l.take 1 ++ toBE 9 0 ++ l.drop 1)
    | 2 => some (toBE 1 0xFF ++ l.take 1 ++ toBE 11 0 ++ l.drop 1)
    | _ => some (toBE 2 0xFF02 ++ toBE 13 0 ++ l)

/-- The protocol that an NHC octet stands for. -/
def nhcProto (b : Nat) : Option Nat :=
  if b / 8 = 0x1E then some 17
  else if b / 16 = 0xE then match b / 2 % 8 with
    | 0 => some 0
    | 1 => some 43
    | 2 => some 44
    | 3 => some 60
    | 4 => some 135
    | 7 => some 41
    | _ => none
  else none

/-- The padding option that fills n octets. -/
def padOpt (n : Nat) : List Byte := if n = 0 then [] else if n = 1 then toBE 1 0 else toBE 1 1 ++ toBE 1 (n - 2) ++ toBE (n - 2) 0

/-- Headers decompressed so far: their octets, the length fields still to fill as (offset, where what they count begins), where an elided
UDP checksum's header and its IPv6 header begin, where the last IPv6 header begins, and the identifiers elided addresses take. -/
structure SixAcc where
  out : List Byte
  fixes : List (Nat × Nat)
  sum : Option (Nat × Nat)
  ip : Nat
  iidS : Option (List Byte)
  iidD : Option (List Byte)
  deriving DecidableEq, Repr

/-- One IPHC header: the headers with it, whether an NHC follows, and what follows; none when it is malformed. -/
def sixIp (ctx : SixCtx) (x : SixAcc) (l : List Byte) : Option (SixAcc × Bool × List Byte) :=
  let b0 := ofLE (l.take 1)
  let b1 := ofLE ((l.drop 1).take 1)
  let cid := bitOf b1 7
  let k := if cid then ofLE ((l.drop 2).take 1) else 0
  let find := fun (i : Nat) => (ctx.find? fun e => e.1 == i).map fun e => e.2
  let l := l.drop (2 + b2n cid)
  let tf := bitsOf b0 3 2
  let nt := match tf with | 0 => 4 | 1 => 3 | 2 => 1 | _ => 0
  let t := ofBE (l.take nt)
  let e := match tf with | 0 => t / 2 ^ 24 | 1 => t / 2 ^ 22 * 64 | 2 => t | _ => 0
  let fl := match tf with | 0 => t % 2 ^ 20 | 1 => t % 2 ^ 20 | _ => 0
  let l := l.drop nt
  let nhc := bitOf b0 2
  let nh := ofLE (l.take 1)
  let l := if nhc then l else l.drop 1
  let hl := match b0 % 4 with | 0 => ofLE (l.take 1) | 1 => 1 | 2 => 64 | _ => 255
  let l := if b0 % 4 = 0 then l.drop 1 else l
  let sac := bitOf b1 6
  let sam := bitsOf b1 4 2
  let ns := if sac && sam == 0 then 0 else amLen sam
  let sctx := if sac then (if sam = 0 then some ([], 0) else find (k / 16)) else none
  let dac := bitOf b1 2
  let dam := b1 % 4
  let mc := bitOf b1 3
  let dctx := if dac then find (k % 16) else none
  let nd := if mc then mcLen dac dam else amLen dam
  let d := (l.drop ns).take nd
  let rest := l.drop (ns + nd)
  let nx := if nhc then nhcProto (ofLE (rest.take 1)) else some nh
  let da := if mc then mcOpen dctx dam d else if dac && dam == 0 then none else uniOpen dctx dam x.iidD d
  if b0 / 32 ≠ 3 || l.length < ns + nd || (sac && sctx.isNone) || (dac && dctx.isNone) then none
  else match uniOpen sctx sam x.iidS (l.take ns), da, nx with
    | some s, some d, some p =>
      let o := x.out.length
      some ({ x with out := x.out ++ toBE 4 (6 * 2 ^ 28 + (e % 64 * 4 + e / 64) * 2 ^ 20 + fl) ++ toBE 2 0 ++ toBE 1 p ++ toBE 1 hl ++ s ++ d,
                     fixes := (o + 4, o + 40) :: x.fixes, ip := o, iidS := some (s.drop 8), iidD := some (d.drop 8) }, nhc, rest)
    | _, _, _ => none

/-- One UDP header of NHC. -/
def sixUdp (x : SixAcc) (l : List Byte) : Option (SixAcc × List Byte) :=
  let b := ofLE (l.take 1)
  let l := l.drop 1
  let n := match b % 4 with | 0 => 4 | 3 => 1 | _ => 3
  let v := ofBE (l.take n)
  let ports := match b % 4 with
    | 0 => toBE 4 v
    | 1 => toBE 2 (v / 256) ++ toBE 2 (0xF000 + v % 256)
    | 2 => toBE 2 (0xF000 + v / 65536) ++ toBE 2 v
    | _ => toBE 2 (0xF0B0 + v / 16) ++ toBE 2 (0xF0B0 + v % 16)
  let elided := bitOf b 2
  let c := if elided then 0 else 2
  let o := x.out.length
  if l.length < n + c then none
  else some ({ x with out := x.out ++ ports ++ toBE 2 0 ++ (if elided then toBE 2 0 else (l.drop n).take 2),
                      fixes := (o + 4, o) :: x.fixes, sum := if elided then some (o, x.ip) else x.sum }, l.drop (n + c))

/-- One extension header of NHC: the headers with it, whether an NHC follows, and what follows. -/
def sixExt (x : SixAcc) (l : List Byte) : Option (SixAcc × Bool × List Byte) :=
  let b := ofLE (l.take 1)
  let nhc := bitOf b 0
  let nh := ofLE ((l.drop 1).take 1)
  let l := l.drop (if nhc then 1 else 2)
  let n := ofLE (l.take 1)
  let d := (l.drop 1).take n
  let rest := l.drop (1 + n)
  let pad := (8 - (n + 2) % 8) % 8
  let nx := if nhc then nhcProto (ofLE (rest.take 1)) else some nh
  if l.length < 1 + n then none
  else nx.map fun p =>
    ({ x with out := x.out ++ toBE 1 p ++ toBE 1 (if b / 2 % 8 = 2 then 0 else (n + 2 + pad) / 8 - 1) ++ d ++ padOpt pad }, nhc, rest)

/-- The chain of headers from an IPHC header (nhc false) or an NHC on: the headers and what follows them. -/
def sixWalk (ctx : SixCtx) : Nat → Bool → SixAcc → List Byte → Option (SixAcc × List Byte)
  | 0, _, _, _ => none
  | n + 1, nhc, x, l =>
    let on := fun (r : Option (SixAcc × Bool × List Byte)) => match r with
      | none => none
      | some (y, true, t) => sixWalk ctx n true y t
      | some (y, false, t) => some (y, t)
    if !nhc then on (sixIp ctx x l)
    else match nhcProto (ofLE (l.take 1)) with
      | none => none
      | some 17 => sixUdp x l
      | some 41 => sixWalk ctx n false x (l.drop 1)
      | some _ => on (sixExt x l)

/-- The sum of 16-bit words in wire order. -/
def sum16 : List Byte → Nat
  | a :: b :: t => 256 * a.toNat + b.toNat + sum16 t
  | [a] => 256 * a.toNat
  | [] => 0

/-- A UDP checksum over IPv6: of the datagram l with the UDP header at u and its IPv6 header at ip. -/
def udpSum (l : List Byte) (u ip : Nat) : Nat :=
  let n := sum16 ((l.drop (ip + 8)).take 32) + (l.length - u) + 17 + sum16 (l.drop u)
  let f := fun (n : Nat) => n / 65536 + n % 65536
  let c := 65535 - f (f n)
  if c = 0 then 65535 else c

/-- A datagram with an elided UDP checksum put in. -/
def sumFix (l : List Byte) (sum : Option (Nat × Nat)) : List Byte :=
  match sum with
  | none => l
  | some (u, ip) => l.take (u + 6) ++ toBE 2 (udpSum l u ip) ++ l.drop (u + 8)

/-- The IPv6 octets an IPHC payload stands for and an elided UDP checksum's place; size is the datagram's when it is a first fragment. -/
def iphcOpen (ctx : SixCtx) (m : Mac154) (l : List Byte) (size : Option Nat) : Option (List Byte × Option (Nat × Nat)) :=
  let x : SixAcc := { out := [], fixes := [], sum := none, ip := 0, iidS := sixIid m.srcMode m.src, iidD := sixIid m.dstMode m.dst }
  (sixWalk ctx 16 false x l).map fun r =>
    let n := size.getD (r.1.out.length + r.2.length)
    (r.1.fixes.foldl (fun o f => o.take f.1 ++ toBE 2 (n - f.2) ++ o.drop (f.1 + 2)) r.1.out ++ r.2, r.1.sum)

/-- How an address is carried: with a context, which, the mode, and the octets inline. -/
structure SixAddr where
  ac : Bool
  k : Nat
  am : Nat
  inl : List Byte
  deriving DecidableEq, Repr

/-- A unicast address in the fewest octets: stateless before a context, and contexts in order. -/
def uniSeal (ctx : SixCtx) (iid : Option (List Byte)) (a : List Byte) : SixAddr :=
  let inl := fun (am : Nat) => a.drop (16 - amLen am)
  let ways := [3, 2, 1].flatMap fun am =>
    (none, 0, am) :: ctx.map fun e => (some e.2, e.1, am)
  match ways.find? fun w => uniOpen w.1 w.2.2 iid (inl w.2.2) == some a with
  | some w => { ac := w.1.isSome, k := w.2.1, am := w.2.2, inl := inl w.2.2 }
  | none => { ac := false, k := 0, am := 0, inl := a }

/-- A source address; the unspecified one takes no octets. -/
def srcSeal (ctx : SixCtx) (iid : Option (List Byte)) (a : List Byte) : SixAddr :=
  if ofBE a = 0 then { ac := true, k := 0, am := 0, inl := [] } else uniSeal ctx iid a

/-- A multicast address in the fewest octets. -/
def mcSeal (ctx : SixCtx) (a : List Byte) : SixAddr :=
  let one : Nat → SixAddr := fun am =>
    { ac := false, k := 0, am := am, inl := match am with
      | 3 => a.drop 15
      | 2 => (a.drop 1).take 1 ++ a.drop 13
      | 1 => (a.drop 1).take 1 ++ a.drop 11
      | _ => a }
  let pre : Nat → SixAddr := fun k => { ac := true, k := k, am := 0, inl := (a.drop 1).take 2 ++ a.drop 12 }
  let ways := [(none, one 3), (none, one 2)] ++ ctx.map (fun e => (some e.2, pre e.1)) ++ [(none, one 1)]
  match ways.find? fun w => mcOpen w.1 w.2.am w.2.inl == some a with
  | some w => w.2
  | none => one 0

/-- The compressed form of the header of a protocol at the front of l and of the compressible headers after it, with the octets they stand
for; none where it cannot be compressed. 41 is an IPv6 header, its first octet then the NHC of an encapsulated one. -/
def sixSeal (ctx : SixCtx) : Nat → Nat → Option (List Byte) → Option (List Byte) → List Byte → Option (List Byte × Nat)
  | 0, _, _, _, _ => none
  | n + 1, proto, iidS, iidD, l =>
    let o := fun (k : Nat) => ofLE ((l.drop k).take 1)
    let ext := fun (eid len : Nat) (stop : Bool) =>
      let sub := if stop then none else sixSeal ctx n (o 0) iidS iidD (l.drop len)
      if l.length < len || 257 < len then none
      else some (toBE 1 (0xE0 + 2 * eid + b2n sub.isSome) ++ (if sub.isSome then [] else toBE 1 (o 0)) ++ toBE 1 (len - 2)
        ++ (l.drop 2).take (len - 2) ++ (sub.getD ([], 0)).1, len + (sub.getD ([], 0)).2)
    match proto with
    | 41 =>
      let w := ofBE (l.take 4)
      let tc := w / 2 ^ 20 % 256
      let e := tc % 4 * 64 + tc / 4
      let fl := w % 2 ^ 20
      let src := (l.drop 8).take 16
      let dst := (l.drop 24).take 16
      let sub := sixSeal ctx n (o 6) (some (src.drop 8)) (some (dst.drop 8)) (l.drop 40)
      let mc := (dst.headD 0).toNat == 0xFF
      let s := srcSeal ctx iidS src
      let d := if mc then mcSeal ctx dst else uniSeal ctx iidD dst
      let tf := if fl = 0 then (if tc = 0 then (3, []) else (2, toBE 1 e))
        else if tc / 4 = 0 then (1, toBE 3 (tc % 4 * 2 ^ 22 + fl)) else (0, toBE 4 (e * 2 ^ 24 + fl))
      let hl := match o 7 with | 1 => 1 | 64 => 2 | 255 => 3 | _ => 0
      let cid := s.k ≠ 0 || d.k ≠ 0
      if l.length < 40 || w / 2 ^ 28 ≠ 6 || ofBE ((l.drop 4).take 2) ≠ l.length - 40 then none
      else some (toBE 1 0xEE ++ toBE 1 (0x60 + 8 * tf.1 + 4 * b2n sub.isSome + hl)
        ++ toBE 1 (128 * b2n cid + 64 * b2n s.ac + 16 * s.am + 8 * b2n mc + 4 * b2n d.ac + d.am)
        ++ (if cid then toBE 1 (16 * s.k + d.k) else []) ++ tf.2 ++ (if sub.isSome then [] else toBE 1 (o 6))
        ++ (if hl = 0 then toBE 1 (o 7) else []) ++ s.inl ++ d.inl ++ (sub.getD ([], 0)).1, 40 + (sub.getD ([], 0)).2)
    | 17 =>
      let a := ofBE (l.take 2)
      let b := ofBE ((l.drop 2).take 2)
      let p := if a / 16 = 0xF0B && b / 16 = 0xF0B then (3, toBE 1 (a % 16 * 16 + b % 16))
        else if a / 256 = 0xF0 then (2, toBE 1 a ++ toBE 2 b)
        else if b / 256 = 0xF0 then (1, toBE 2 a ++ toBE 1 b) else (0, toBE 2 a ++ toBE 2 b)
      if l.length < 8 || ofBE ((l.drop 4).take 2) ≠ l.length then none
      else some (toBE 1 (0xF0 + p.1) ++ p.2 ++ (l.drop 6).take 2, 8)
    | 0 => ext 0 (8 * (o 1 + 1)) false
    | 43 => ext 1 (8 * (o 1 + 1)) false
    | 44 => if o 1 = 0 then ext 2 8 (ofBE ((l.drop 2).take 2) / 8 ≠ 0) else none
    | 60 => ext 3 (8 * (o 1 + 1)) false
    | 135 => ext 4 (8 * (o 1 + 1)) false
    | _ => none

/-- The compressed headers of an IPv6 packet and how many of its octets they stand for, R266, R268. -/
def iphcSeal (ctx : SixCtx) (m : Mac154) (l : List Byte) : List Byte × Nat :=
  match sixSeal ctx 16 41 (sixIid m.srcMode m.src) (sixIid m.dstMode m.dst) l with
  | some (h, n) => (h.drop 1, n)
  | none => (toBE 1 0x41, 0)

end Sys2Proof.Machine
end

