-- ==== Sys2Proof/Machine/Rte.lean ====
section
/-!
DEFINITION. Forwarding and header compression: tables and commits, requests and answers, the 6LoWPAN unit, source routes, fast
reroute: spec/12, R258 to R273.
-/

namespace Sys2Proof.Machine

/-- RTE's counter n. -/
def State.rteCnt (s : State) (n : Nat) : State := s.bump W.RTE (0x180 + 4 * n) E.RTE_CNTSAT

/-- Changes RTE's state. -/
def State.setRte (s : State) (r : RteS) : State := { s with rte := r }

/-! Tables and their keys, R258 -/

/-- A table of a set. -/
def rteTab (t : KMap (KMap (List Nat))) (n : Nat) : KMap (List Nat) := (kget t n).getD []

/-- An entry of a set. -/
def rteEnt (t : KMap (KMap (List Nat))) (n key : Nat) : Option (List Nat) := kget (rteTab t n) key

/-- The first n words of an image as a number, first octet on the wire most significant. -/
def addrBE (ws : List Nat) (n : Nat) : Nat := ofBE ((ws.take n).flatMap fun w => toLE 4 w)

/-- The width of an address of table 0 or 1. -/
def tabWidth (n : Nat) : Nat := if n = 0 then 128 else 32

/-- The key of a change, R258, R259: c is its 20 words. -/
def chgKey (c : List Nat) : Nat :=
  let img := c.drop 4
  let i := c.getD 1 0
  match c.getD 0 0 % 16 with
  | 0 => img.getD 4 0 % 256 * 2 ^ 128 + addrBE img 4 / 2 ^ (128 - img.getD 4 0 % 256) * 2 ^ (128 - img.getD 4 0 % 256)
  | 1 => img.getD 4 0 % 256 * 2 ^ 128 + addrBE img 1 / 2 ^ (32 - img.getD 4 0 % 256) * 2 ^ (32 - img.getD 4 0 % 256)
  | 2 => if bitOf (img.getD 4 0) 1 then 2 ^ 128 + addrBE img 1 else addrBE img 4
  | 7 => bitsOf (c.getD 0 0) 5 3 * 16 + i
  | _ => i

/-- A change is valid but for its BACKUP, R259 cause 9. -/
def chgOk (c : List Nat) : Bool :=
  let img := c.drop 4
  let i := c.getD 1 0
  match c.getD 0 0 % 16 with
  | 0 => img.getD 4 0 % 256 ≤ 128
  | 1 => img.getD 4 0 % 256 ≤ 32
  | 2 => true
  | 3 => i < 4096
  | 4 => i < 16384
  | 5 => 1 ≤ i && i ≤ 4094
  | 6 => i < 65536
  | 7 => i < 16 && img.getD 4 0 % 256 ≤ 128
  | _ => false

/-- The capacity of a table. -/
def tabCap (n : Nat) : Nat := match n with | 0 => 65536 | 1 => 65536 | 2 => 524288 | 3 => 4096 | 4 => 16384 | 5 => 4094 | 6 => 65536 | _ => 128

/-- A next hop is in use. -/
def nhValid (t : KMap (KMap (List Nat))) (i : Nat) : Bool :=
  match rteEnt t 4 i with | some w => bitOf (w.getD 0 0) 4 | none => false

/-- Applies the changes of a list in order, n being the index of the first: the tables, or the cause and the index of the
offending change, R259. -/
def chgAll (t : KMap (KMap (List Nat))) : Nat → List (List Nat) → (Nat × Nat) ⊕ KMap (KMap (List Nat))
  | _, [] => .inr t
  | n, c :: l =>
    let k := c.getD 0 0 % 16
    if !chgOk c then .inl (9, n)
    else if bitOf (c.getD 0 0) 4 then chgAll (kset t k (kdel (rteTab t k) (chgKey c))) (n + 1) l
    else
      let w := c.getD 4 0
      let bad := k = 4 && bitOf w 19 && !nhValid t (bitsOf w 5 14)
      let u := kset (rteTab t k) (chgKey c) (c.drop 4)
      if bad then .inl (9, n)
      else if tabCap k < u.length then .inl (8, n)
      else chgAll (kset t k u) (n + 1) l

/-! The commit, R259, R260 -/

/-- The source of the change list, and COMMITAT in ns. -/
def State.chgSrc (s : State) : Nat := s.get F.RTE_CHGSRCHI_ADDR * 2 ^ 32 + s.get F.RTE_CHGSRCLO_ADDR
def State.commitAt (s : State) : Nat := nsOf (s.get F.RTE_COMMITSECLO_SEC) (s.get F.RTE_COMMITSECHI_SEC) (s.get F.RTE_COMMITNS_NS)

/-- START of the commit. -/
def State.commitStart (s : State) (rq : Rq) : State :=
  let n := s.get F.RTE_CHGCOUNT_COUNT
  let a := s.chgSrc
  let inside := (inSram a && inSram (a + 80 * n - 1)) || (inDram a && inDram (a + 80 * n - 1))
  let ok := 0 < n && n ≤ 4096 && a % 16 == 0 && inside && s.ns + 1000000 ≤ s.commitAt
  let t := s.opStart rq W.RTE ok s.rte.old.isNone
  if t.busy W.RTE && !s.busy W.RTE then t.setRte { t.rte with stage := [] } else t

/-- RTE_COMMIT. -/
def execRteCommit (rq : Rq) (s : State) : Host.Outcome State Fault Refusal := .next (s.commitStart rq)

/-- One change is staged. -/
def State.stageUnit (s : State) : State :=
  let k := s.get (F.OPSTAT_PROGRESS W.RTE)
  let a := s.chgSrc + 80 * k
  if s.get F.RTE_CHGCOUNT_COUNT ≤ k then s
  else if s.memDark a then s.opFail W.RTE 4
  else
    let s := s.ueHit a 80
    let c := (List.range 20).map fun w => s.peekN (a + 4 * w) 4
    if s.ueIn a 80 then s.opFail W.RTE 5
    else (s.setRte { s.rte with stage := s.rte.stage ++ [c] }).opUnits W.RTE (k + 1) k

/-- Stages until units changes are staged. -/
def State.stageTo (s : State) : Nat → State
  | 0 => s
  | n + 1 => if s.opSt W.RTE = 2 then s.stageUnit.stageTo n else s

/-- The USED counts follow the tables. -/
def State.useShow (s : State) : State :=
  (List.range 3).foldl (fun t k => t.set (F.RTE_USE_USED k) (rteTab s.rte.tabs k).length) s

/-- RTE_COMMIT_APPLY, R259, R260: at COMMITAT, with units changes staged by then. -/
def State.commitApply (s : State) (units : Nat) : State :=
  if s.opSt W.RTE ≠ 2 || s.ns < s.commitAt then s
  else
    let s := s.stageTo (min units 4096 - s.get (F.OPSTAT_PROGRESS W.RTE))
    if s.opSt W.RTE ≠ 2 then s
    else if s.get (F.OPSTAT_PROGRESS W.RTE) < s.get F.RTE_CHGCOUNT_COUNT then s.opFail W.RTE 7
    else match chgAll s.rte.tabs 0 s.rte.stage with
      | .inl e => (s.set (F.OPPART W.RTE) e.2).opFail W.RTE e.1
      | .inr t =>
        let at' := s.commitAt % wMod
        ((s.setRte { s.rte with old := some (at', s.rte.tabs), tabs := t, stage := [] }).useShow).opDone W.RTE

def execRteCommitApply (units : Nat) (s : State) : Host.Outcome State Fault Refusal := .next (s.commitApply units)

/-- A time of the old set's form, ns modulo 2^16 s, as the last such time in full. -/
def State.lastAt (s : State) (t : Nat) : Nat := s.ns - (s.ns + wMod - t) % wMod

/-- The old set goes. -/
def State.oldGone (s : State) : State :=
  match s.rte.old with
  | some (t, _) => s.setRte { s.rte with old := none, lastT := some (s.lastAt t) }
  | none => s

/-- OLD_SET_RELEASE, R260. -/
def execOldSetRelease (s : State) : Host.Outcome State Fault Refusal :=
  .next (match s.rte.old with
    | none => s
    | some (t, _) =>
      let older := s.yard.wagons.any fun w => earlier w.2.cs t
      let limit := (t + max 1 (s.get F.RTE_CFG_RETAIN) * 1000000) % wMod
      if !older || s.reached limit then s.oldGone else s)

/-- A stamp falls before the last commit whose old set is gone. A commit further back than half of 2^16 s is no stamp's (R234). -/
def State.pastSet (s : State) (cs : Nat) : Bool :=
  match s.rte.lastT with
  | some t => decide (s.ns < t + wMod / 2) && earlier cs (t % wMod)
  | none => false

/-- The tables that answer a request by its stamp; a request past its old set counts STALELOOK, R260. -/
def State.rteSet (s : State) (cs : Nat) : KMap (KMap (List Nat)) × State :=
  if s.pastSet cs then (s.rte.tabs, (s.rteCnt 11).raise W.RTE E.RTE_STALELOOK)
  else match s.rte.old with
    | some (t, o) => (if earlier cs t then o else s.rte.tabs, s)
    | none => (s.rte.tabs, s)

/-! Watches, R270 -/

/-- Watch w as RTE holds it. -/
def State.watch (s : State) (w : Nat) : WatchS :=
  (kget s.rte.watch w).getD { raw := true, since := 0, prev := true, chg := 0 }

/-- What the watched port or station says, R270. -/
def State.watchInd (s : State) (w : Nat) : Bool :=
  let n := s.get (F.RTE_WATCH_TARGET w)
  !s.on (F.RTE_WATCH_FORCEDOWN w) && (match s.get (F.RTE_WATCH_KIND w) with
    | 1 => s.on (F.EMAC_LINK_UP (n % 8))
    | 2 => decide ((kget s.rte.miss n).getD 0 < max 1 (s.get (F.RTE_WATCH_WMISS w)))
    | _ => true)

/-- A watch is reported up or down from now on. -/
def State.watchSet (s : State) (w : Nat) (up : Bool) : State :=
  let old := s.on (F.RTE_WATCH_UP w)
  let t := (s.setRte { s.rte with watch := kset s.rte.watch w { s.watch w with prev := old, chg := s.ns % wMod } }).set
    (F.RTE_WATCH_UP w) (b2n up)
  t.raise W.RTE (if up then E.RTE_WATCHUP else E.RTE_WATCHDOWN)

/-- WATCH_CHANGE: a watch that goes down is down at once; one that comes up starts its HOLD. -/
def State.watchChg (s : State) (w : Nat) : State :=
  let x := s.watch w
  let i := s.watchInd w
  if i = x.raw then s
  else
    let t := s.setRte { s.rte with watch := kset s.rte.watch w { x with raw := i, since := s.ns } }
    if !i && t.on (F.RTE_WATCH_UP w) then t.watchSet w false else t

def execWatchChange (w : Nat) (s : State) : Host.Outcome State Fault Refusal := .next (if w < 16 then s.watchChg w else s)

/-- WATCH_HOLD_EXPIRE. -/
def execWatchHoldExpire (w : Nat) (s : State) : Host.Outcome State Fault Refusal :=
  .next (
    let x := s.watch w
    if w < 16 && x.raw && !s.on (F.RTE_WATCH_UP w) && s.on (F.RTE_WATCH_REVERT w)
        && x.since + s.get (F.RTE_WATCH_HOLD w) * 10000000 ≤ s.ns then s.watchSet w true
    else s)

/-- RESTORE returns an up watch at once. -/
def State.watchBack (s : State) (w : Nat) : State :=
  if (s.watch w).raw && !s.on (F.RTE_WATCH_UP w) then s.watchSet w true else s

/-- A watch as a request of a stamp finds it: a change later than the stamp is not there yet. -/
def State.watchUp (s : State) (w cs : Nat) : Bool :=
  let x := s.watch w
  if (kget s.rte.watch w).isSome && earlier cs x.chg then x.prev else s.on (F.RTE_WATCH_UP w)

/-- The lower MAC reports an MPDU to a station entry that ended OK or RETRIES. -/
def State.staReport (s : State) (e : Nat) (ok : Bool) : State :=
  s.setRte { s.rte with miss := if ok then kdel s.rte.miss e else kset s.rte.miss e ((kget s.rte.miss e).getD 0 + 1) }

/-! Requests and answers, R261, R262 -/

/-- Words of a request. -/
def Req.w (r : Req) (k : Nat) : Nat := r.words.getD k 0
def Req.op (r : Req) : Nat := bitsOf (r.w 0) 0 4
def Req.tile (r : Req) : Nat := bitsOf (r.w 0) 4 3
def Req.fragk (r : Req) : Nat := bitsOf (r.w 0) 7 4
def Req.outofs (r : Req) : Nat := bitsOf (r.w 0) 11 8
def Req.inorig (r : Req) : Nat := bitsOf (r.w 0) 19 5
def Req.inofs (r : Req) : Nat := bitsOf (r.w 0) 24 8
def Req.inH (r : Req) : Nat := r.w 1 % 2 ^ 20
def Req.inlen (r : Req) : Nat := r.w 2 % 2 ^ 14
def Req.tag (r : Req) : Nat := bitsOf (r.w 2) 16 16
def Req.outH (r : Req) : Nat := r.w 3 % 2 ^ 20

/-- A handle lies inside the frame pool. -/
def State.inPool (s : State) (h : Nat) : Bool := 0 < h && h < s.bufHandle 4 0

/-- Answers a request with a ROUTE coupling. -/
def State.rteAns (s : State) (r : Req) (status detail : Nat) : State :=
  (s.reqTake r).couple r.wid r.slot 4 (r.outH + status * 2 ^ 20 + detail % 256 * 2 ^ 24) []

/-- The counter of a status that is counted, R273. -/
def rteCntOf (status : Nat) : Option Nat :=
  match status with
  | 1 => some 0
  | 2 => some 1
  | 3 => some 2
  | 5 => some 3
  | 6 => some 4
  | 7 => some 5
  | 8 => some 6
  | 11 => some 9
  | 12 => some 10
  | 15 => some 13
  | _ => none

/-- Answers with a status that is counted. -/
def State.rteFail (s : State) (r : Req) (status : Nat) : State :=
  (match rteCntOf status with | some n => s.rteCnt n | none => s).rteAns r status 0

/-- The octets of a request's packet. -/
def State.reqData (s : State) (r : Req) : List Byte := s.peeks (handleAddr r.inH + 64 + r.inofs) r.inlen

/-- The data octets OUT can hold. -/
def State.outCap (s : State) (h : Nat) : Nat := match kget s.ram.pool h with | some k => bufData k | none => 0

/-- Writes a result to OUT, with its LENGTH, and answers OK; OUTSMALL when it does not fit. -/
def State.rteOut (s : State) (r : Req) (l : List Byte) : State :=
  let n := r.outofs + l.length
  if s.outCap r.outH < n then s.rteFail r 14
  else
    let w := s.hdrW r.outH 0
    ((s.pokeData r.outH r.outofs l).pokeHdr r.outH 0 [w - bitsOf w 10 14 * 1024 + n % 2 ^ 14 * 1024]).rteAns r 0 0

/-- Runs the oldest request to RTE with an OP; BADREQ first, R261, R262. -/
def State.rteRun (s : State) (op : Nat) (f : State → Req → State) : State :=
  match s.yard.reqs.find? fun r => !r.sec && r.op == op with
  | none => s
  | some r =>
    if !s.enabled W.RTE || !s.inPool r.inH || !s.inPool r.outH || s.frmLen r.inH < r.inofs + r.inlen then s.rteFail r 15
    else f s r

/-! Packets -/

/-- What RTE reads in a packet: its family, addresses, hop limit, protocol, ports when they are present, whether it is a first
fragment, and its octets in all. -/
structure Pkt where
  v4 : Bool
  src : List Byte
  dst : List Byte
  hop : Nat
  proto : Nat
  ports : Option (List Byte)
  first : Bool
  total : Nat
  deriving DecidableEq, Repr

/-- The upper protocol of an IPv6 packet, where it starts, and whether the packet is a first fragment. -/
def ip6Walk (l : List Byte) : Nat → Nat → Nat → Bool → Nat × Nat × Bool
  | 0, p, a, f => (p, a, f)
  | n + 1, p, a, f =>
    let nx := (l.getD a 0).toNat
    let len := 8 * (l.getD (a + 1) 0).toNat + 8
    if p = 0 || p = 43 || p = 60 then ip6Walk l n nx (a + len) f
    else if p = 44 then ip6Walk l n nx (a + 8) (f && ofBE ((l.drop (a + 2)).take 2) / 8 = 0)
    else (p, a, f)

/-- The ports of a packet, when its protocol has them and they are there. -/
def portsAt (l : List Byte) (proto a : Nat) (first : Bool) : Option (List Byte) :=
  if (proto = 6 || proto = 17) && first && a + 4 ≤ l.length then some ((l.drop a).take 4) else none

/-- Step 1 of R263: a packet, or none for BADHDR. -/
def pktOf (l : List Byte) : Option Pkt :=
  let b := (l.headD 0).toNat
  if b / 16 = 6 then
    let n := 40 + ofBE ((l.drop 4).take 2)
    if l.length < 40 || l.length < n then none
    else
      let w := ip6Walk l 8 (l.getD 6 0).toNat 40 true
      some { v4 := false, src := (l.drop 8).take 16, dst := (l.drop 24).take 16, hop := (l.getD 7 0).toNat, proto := w.1,
             ports := portsAt l w.1 w.2.1 w.2.2, first := w.2.2, total := n }
  else if b / 16 = 4 then
    let h := 4 * (b % 16)
    let n := ofBE ((l.drop 2).take 2)
    if h < 20 || n < h || l.length < n then none
    else
      let first := ofBE ((l.drop 6).take 2) % 8192 == 0
      let p := (l.getD 9 0).toNat
      some { v4 := true, src := (l.drop 12).take 4, dst := (l.drop 16).take 4, hop := (l.getD 8 0).toNat, proto := p,
             ports := portsAt l p h first, first := first, total := n }
  else none

/-- Two addresses of a width agree in their first n bits. -/
def agree (w n a b : Nat) : Bool := a / 2 ^ (w - n) == b / 2 ^ (w - n)

/-! Lookup, R263 to R265, R270 -/

/-- A port lies in a range that is not whole. -/
def portIn (lo hi : Nat) (ports : Option (List Byte)) (k : Nat) : Bool :=
  if lo = 0 && hi = 65535 then true
  else match ports with
    | none => false
    | some l => let p := ofBE ((l.drop (2 * k)).take 2); decide (lo ≤ p) && decide (p ≤ hi)

/-- A rule matches, R265; vid is none where the packet has no VLAN. -/
def aclMatch (w : List Nat) (p : Pkt) (origin : Nat) (vid : Option Nat) : Bool :=
  let g := w.getD 8 0
  let wd := if p.v4 then 32 else 128
  let nw := if p.v4 then 1 else 4
  let x := w.getD 12 0
  bitOf g 17 && bitOf g 16 == p.v4
    && agree wd (min wd (bitsOf g 0 8)) (addrBE w nw) (ofBE p.src)
    && agree wd (min wd (bitsOf g 8 8)) (addrBE (w.drop 4) nw) (ofBE p.dst)
    && (bitOf x 13 || bitsOf g 24 8 == p.proto)
    && portIn (bitsOf (w.getD 9 0) 0 16) (bitsOf (w.getD 9 0) 16 16) p.ports 0
    && portIn (bitsOf (w.getD 10 0) 0 16) (bitsOf (w.getD 10 0) 16 16) p.ports 1
    && bitOf (w.getD 11 0) origin
    && (bitOf x 12 || vid == some (bitsOf x 0 12))

/-- The longest matching prefix of a family: its LEN and image. -/
def lpm (t : KMap (KMap (List Nat))) (v4 : Bool) (dst : Nat) : Option (Nat × List Nat) :=
  let n := if v4 then 1 else 0
  let wd := tabWidth n
  (rteTab t n).foldl (fun b e =>
    let len := e.1 / 2 ^ 128
    if agree wd len (e.1 % 2 ^ 128) dst then
      (match b with | none => some (len, e.2) | some c => if c.1 < len then some (len, e.2) else b)
    else b) none

/-- The host entry of an address, R258. -/
def hostOf (t : KMap (KMap (List Nat))) (v4 : Bool) (dst : Nat) : Option (List Nat) :=
  match rteEnt t 2 (if v4 then 2 ^ 128 + dst else dst) with
  | some w => if bitOf (w.getD 4 0) 0 then some w else none
  | none => none

/-- The CRC of a flow, R263. -/
def flowHash (p : Pkt) : Nat := crc32 (p.src ++ p.dst ++ toLE 1 p.proto ++ p.ports.getD [])

/-- The next hop of step 6: its image and whether the backup is used. -/
def State.nhPick (s : State) (t : KMap (KMap (List Nat))) (nh cs : Nat) : Option (List Nat × Bool) :=
  match rteEnt t 4 nh with
  | none => none
  | some w =>
    let a := w.getD 0 0
    if !bitOf a 4 then none
    else
      let down := bitOf a 24 && !s.watchUp (bitsOf a 20 4) cs
      if down && bitOf a 19 then
        match rteEnt t 4 (bitsOf a 5 14) with
        | some b =>
          let c := b.getD 0 0
          if bitOf c 4 && (!bitOf c 24 || s.watchUp (bitsOf c 20 4) cs) then some (b, true) else some (w, false)
        | none => some (w, false)
      else some (w, false)

/-- The VID of an Ethernet packet, R264. -/
def State.vidOf (s : State) (r : Req) : Option Nat :=
  if 11 ≤ r.inorig && r.inorig ≤ 18 then
    let w := s.hdrW r.inH 5
    some (if bitOf w 16 && bitsOf w 0 12 ≠ 0 then bitsOf w 0 12 else s.get (F.RTE_PORTCFG_PVID (r.inorig - 11)))
  else none

/-- LOOKUP, R263. -/
def State.lookupOp (s : State) (r : Req) : State :=
  let set := s.rteSet r.cs
  let t := set.1
  let s := set.2
  match pktOf (s.reqData r) with
  | none => s.rteFail r 7
  | some p =>
    let vid := s.vidOf r
    let vlanBad := match vid with
      | none => false
      | some v => match rteEnt t 5 v with
        | some w => !(bitOf (w.getD 0 0) 16 && bitOf (w.getD 0 0) (r.inorig - 11))
        | none => true
    if vlanBad then s.rteFail r 6
    else
      let hit := (List.range (min 4096 (s.get F.RTE_CFG_ACLCOUNT))).find? fun i => match rteEnt t 3 i with
        | some w => aclMatch w p r.inorig vid
        | none => false
      let act := match hit with
        | some i => bitsOf (((rteEnt t 3 i).getD []).getD 8 0) 18 2
        | none => s.get F.RTE_CFG_ACLDEF
      if act = 1 || act = 3 then s.rteFail r 2
      else if act = 2 then s.rteFail r 4
      else
        let dst := ofBE p.dst
        let host := hostOf t p.v4 dst
        let pre := if host.isSome then none else lpm t p.v4 dst
        let w5 := match host, pre with
          | some h, _ => some (h.getD 5 0)
          | none, some e => some (e.2.getD 5 0)
          | none, none => none
        match w5 with
        | none => s.rteFail r 1
        | some w =>
          if host.isNone && bitOf w 14 then s.rteFail r 3
          else if host.isNone && bitOf w 15 then s.rteFail r 4
          else if p.hop ≤ 1 then s.rteFail r 5
          else
            let h := host.getD []
            let node := bitOf (h.getD 4 0) 2
            let acl := hit.getD 0 + b2n hit.isSome * 2 ^ 12
            let len := match pre with | some e => e.1 | none => if p.v4 then 32 else 128
            let w7 := h.getD 6 0 % 2 ^ 17 + b2n node * 2 ^ 17
            if node then
              let tr := bitsOf (h.getD 6 0) 17 12
              let l := [b2n host.isSome * 2 ^ 15 + len * 2 ^ 16, acl + tr * 2 ^ 16, 2, w % 2 ^ 18, tr * 2 ^ 16, 0, 0, w7]
              s.rteOut r (l.flatMap fun x => toLE 4 x)
            else match s.nhPick t (w % 2 ^ 14) r.cs with
              | none => s.rteFail r 1
              | some n =>
                let img := n.1
                let tr := if bitOf (img.getD 2 0) 28 then
                    (s.get F.RTE_FLOW_BASE + flowHash p % 2 ^ min 11 (s.get F.RTE_FLOW_LOG)) % 4096
                  else bitsOf (img.getD 2 0) 16 12
                let s := if n.2 then s.rteCnt 12 else s
                let l := [w % 2 ^ 14 + b2n n.2 * 2 ^ 14 + b2n host.isSome * 2 ^ 15 + len * 2 ^ 16, acl + tr * 2 ^ 16]
                  ++ img.take 5 ++ [w7]
                s.rteOut r (l.flatMap fun x => toLE 4 x)

def execLookup (s : State) : Host.Outcome State Fault Refusal := .next (s.rteRun 1 State.lookupOp)

/-! The 6LoWPAN unit, R266 to R268 -/

/-- The contexts of a Tile that are valid; for compression those marked COMPRESS. -/
def rteCtx (t : KMap (KMap (List Nat))) (tile : Nat) (comp : Bool) : SixCtx :=
  (List.range 16).filterMap fun k => match rteEnt t 7 (16 * tile + k) with
    | some w => if bitOf (w.getD 4 0) 8 && (!comp || bitOf (w.getD 4 0) 9) then
        some (k, (w.take 4).flatMap (fun x => toLE 4 x), w.getD 4 0 % 256) else none
    | none => none

/-- A payload that is no fragment, decompressed: the uncompressed dispatch, or IPHC; with the place of an elided UDP checksum. -/
def sixOpen (ctx : SixCtx) (m : Mac154) (l : List Byte) (size : Option Nat) : Option (List Byte × Option (Nat × Nat)) :=
  let b := (l.headD 0).toNat
  if b = 0x41 then some (l.drop 1, none)
  else if b / 32 = 3 then iphcOpen ctx m l size
  else none

/-- Two parts of a datagram overlap without being the same part. -/
def partsClash (a b : Nat × List Byte) : Bool := a != b && a.1 < b.1 + b.2.length && b.1 < a.1 + a.2.length

/-- A fragment joins its context, R267; the elided UDP checksum of a first one is computed over the whole datagram. -/
def State.fragIn (s : State) (r : Req) (src : Nat × Nat) (size tag ofs : Nat) (d : List Byte) (sum : Option (Nat × Nat)) : State :=
  let mine := fun (x : Reasm) => x.tile == r.inorig % 8 && x.src == src && x.tag == tag
  let err := fun (u : State) => u.rteFail r 11
  match s.rte.reasm.find? mine with
  | none =>
    if 1024 ≤ s.rte.reasm.length then s.rteFail r 12
    else if size < ofs + d.length then err s
    else if ofs = 0 && d.length = size then (s.rteCnt 7).rteOut r (sumFix d sum)
    else
      let x : Reasm := { tile := r.inorig % 8, src := src, size := size, tag := tag, since := s.ns, held := [(ofs, d)], sum := sum }
      (s.setRte { s.rte with reasm := s.rte.reasm ++ [x] }).rteAns r 10 0
  | some x =>
    let rest := s.rte.reasm.erase x
    if x.size ≠ size || size < ofs + d.length || x.held.any fun p => partsClash p (ofs, d) then
      err (s.setRte { s.rte with reasm := rest })
    else
      let held := if x.held.contains (ofs, d) then x.held else x.held ++ [(ofs, d)]
      if held.foldl (fun a p => a + p.2.length) 0 = size then
        let whole := held.foldl (fun l p => putAt' l p.1 p.2) (List.replicate size 0)
        ((s.setRte { s.rte with reasm := rest }).rteCnt 7).rteOut r (sumFix whole (sum.or x.sum))
      else (s.setRte { s.rte with reasm := rest ++ [{ x with held := held, sum := sum.or x.sum }] }).rteAns r 10 0
where
  putAt' (l : List Byte) (ofs : Nat) (d : List Byte) : List Byte := l.take ofs ++ d ++ l.drop (ofs + d.length)

/-- DECOMP, R267. -/
def State.decompOp (s : State) (r : Req) : State :=
  let set := s.rteSet r.cs
  let s := set.2
  let ctx := rteCtx set.1 (r.inorig % 8) false
  let m := mac154 (s.frame r.inH)
  let l := s.reqData r
  let b := (l.headD 0).toNat
  let size := ofBE (l.take 2) % 2048
  let tag := ofBE ((l.drop 2).take 2)
  if b / 8 = 0x18 then
    match sixOpen ctx m (l.drop 4) (some size) with
    | none => s.rteFail r 7
    | some d => s.fragIn r (m.srcMode, m.src) size tag 0 d.1 d.2
  else if b / 8 = 0x1C then s.fragIn r (m.srcMode, m.src) size tag (8 * (l.getD 4 0).toNat) (l.drop 5) none
  else match sixOpen ctx m l none with
    | none => s.rteFail r 7
    | some d => s.rteOut r (sumFix d.1 d.2)

def execDecomp (s : State) : Host.Outcome State Fault Refusal := .next (s.rteRun 2 State.decompOp)

/-- REASM_EXPIRE, R267. -/
def execReasmExpire (idx : Nat) (s : State) : Host.Outcome State Fault Refusal :=
  .next (match s.rte.reasm[idx]? with
    | some x =>
      if x.since + max 1 (s.get F.RTE_REASM_TIMEOUT) * 1000000000 < s.ns then
        ((s.setRte { s.rte with reasm := s.rte.reasm.erase x }).rteCnt 8).raise W.RTE E.RTE_REASMEXP
      else s
    | none => s)

/-- The MTU of a Tile. -/
def State.mtu (s : State) (t : Nat) : Nat := max 24 (s.get (F.RTE_TILECFG_MTU t))

/-- The packet octets in the first fragment, in each further one but the last, and at most in the last: h header octets stand for k
octets of the packet. -/
def frag0 (mtu h k : Nat) : Nat := (k + (mtu - 4 - h)) / 8 * 8
def fragN (mtu : Nat) : Nat := (mtu - 5) / 8 * 8
def fragLast (mtu : Nat) : Nat := mtu - 5

/-- The number of fragments of a packet of n octets. -/
def fragCount (mtu h k n : Nat) : Nat := 2 + (n - frag0 mtu h k - fragLast mtu + fragN mtu - 1) / fragN mtu

/-- What COMP and FRAG make of a request: the IPv6 packet, its compressed headers, the octets they stand for, and the MTU; or the status
that refuses it, R268. -/
def State.compWhat (s : State) (t : KMap (KMap (List Nat))) (r : Req) : Nat ⊕ (List Byte × List Byte × Nat × Nat) :=
  let l := s.reqData r
  match pktOf l with
  | some p =>
    if p.v4 then .inl 7
    else if 2047 < p.total then .inl 8
    else
      let l := l.take p.total
      let c := iphcSeal (rteCtx t r.tile true) (mac154 (s.peeks (handleAddr r.outH + 64) r.outofs)) l
      .inr (l, c.1, c.2, s.mtu r.tile)
  | none => .inl 7

/-- Whether a packet can be cut for an MTU: its headers fit the first fragment, and the fragments are at most 16. -/
def cuts (mtu h k n : Nat) : Bool := k ≤ frag0 mtu h k && 4 + h ≤ mtu && fragCount mtu h k n ≤ 16

/-- The packet is compressed whole when it fits, else FRAGS with the count, R268. -/
def State.compOp (s : State) (r : Req) : State :=
  let set := s.rteSet r.cs
  let s := set.2
  match s.compWhat set.1 r with
  | .inl st => s.rteFail r st
  | .inr (l, h, k, mtu) =>
    let whole := h ++ l.drop k
    if whole.length ≤ mtu then s.rteOut r whole
    else if cuts mtu h.length k l.length then s.rteAns r 9 (fragCount mtu h.length k l.length)
    else s.rteFail r 8

def execComp (s : State) : Host.Outcome State Fault Refusal := .next (s.rteRun 3 State.compOp)

/-- One fragment, R268: FRAG1 or FRAGN with the tag. -/
def State.fragOp (s : State) (r : Req) : State :=
  let set := s.rteSet r.cs
  let s := set.2
  match s.compWhat set.1 r with
  | .inl st => s.rteFail r st
  | .inr (l, h, k, mtu) =>
    let a := frag0 mtu h.length k
    let n := fragCount mtu h.length k l.length
    let ofs := a + (r.fragk - 1) * fragN mtu
    if !cuts mtu h.length k l.length then s.rteFail r 8
    else if r.fragk = 0 then s.rteOut r (toBE 2 (0xC000 + l.length) ++ toBE 2 r.tag ++ h ++ (l.take a).drop k)
    else if n ≤ r.fragk then s.rteFail r 15
    else s.rteOut r (toBE 2 (0xE000 + l.length) ++ toBE 2 r.tag ++ toLE 1 (ofs / 8)
      ++ (l.drop ofs).take (if r.fragk + 1 = n then fragLast mtu else fragN mtu))

def execFrag (s : State) : Host.Outcome State Fault Refusal := .next (s.rteRun 4 State.fragOp)

/-! Downward source routes, R269 -/

/-- The first 8 octets of context 0 of a Tile, the prefix of its addresses. -/
def tilePrefix (t : KMap (KMap (List Nat))) (tile : Nat) : List Byte :=
  (((rteEnt t 7 (16 * tile)).getD []).take 2).flatMap fun x => toLE 4 x

/-- The Tile's address: the prefix and the identifier of its extended address. -/
def State.tileAddr (s : State) (t : KMap (KMap (List Nat))) (tile : Nat) : List Byte :=
  tilePrefix t tile ++ toBE 8 (xorN (s.get (F.MLC_TILE_EXTHI_EXT tile) * 2 ^ 32 + s.get (F.MLC_TILE_EXTLO_EXT tile)) (2 ^ 57))

/-- The interface identifier of hop j. -/
def hopIid (w : List Nat) (j : Nat) : List Byte := toLE 4 (w.getD (2 + 2 * j) 0) ++ toLE 4 (w.getD (3 + 2 * j) 0)

/-- SRHINS, R269. The traffic class, flow label and hop limit of the outer header, which the spec does not give, are free
values (log entry 5). -/
def State.srhOp (s : State) (r : Req) : State :=
  let set := s.rteSet r.cs
  let s := set.2
  let t := set.1
  let l := s.reqData r
  if (l.headD 0).toNat / 16 ≠ 6 || l.length < 40 then s.rteFail r 7
  else match hostOf t false (ofBE ((l.drop 24).take 16)) with
    | none => s.rteFail r 13
    | some h =>
      let w := (rteEnt t 6 (h.getD 6 0 % 2 ^ 16)).getD []
      let n := w.getD 0 0 % 8
      if !bitOf (h.getD 6 0) 16 || n = 0 then s.rteFail r 13
      else if n = 1 then s.rteOut r l
      else
        let p := s.fresh
        let q := p.2.fresh
        let outer := toBE 4 (6 * 2 ^ 28 + p.1 % 2 ^ 28) ++ toBE 2 (8 * n + l.length) ++ toLE 1 43 ++ toLE 1 (q.1 % 256)
          ++ s.tileAddr t r.tile ++ (tilePrefix t r.tile ++ hopIid w 0)
        let srh := toLE 1 41 ++ toLE 1 (n - 1) ++ toLE 1 3 ++ toLE 1 (n - 1) ++ toLE 1 0x88 ++ toLE 3 0
          ++ (List.range (n - 1)).flatMap fun j => hopIid w (j + 1)
        q.2.rteOut r (outer ++ srh ++ l)

def execSrhins (s : State) : Host.Outcome State Fault Refusal := .next (s.rteRun 5 State.srhOp)

end Sys2Proof.Machine
end

