-- ==== Sys2Proof/Machine/Forward.lean ====
section
/-!
DEFINITION. The forwarding program of the default register set, R271: what it does with a wagon, from the couplings the wagon holds.
-/

namespace Sys2Proof.Machine

/-- What the supplied program does next (R271): ends the wagon void, ends it done with no output, asks RTE for an operation of R261,
puts the frame on an application ring, sends it in a child on an egress train, waits for the coupling it needs, or meets a result to
which R271 gives no action. -/
inductive FwdAct where
  | void
  | done
  | ask (op : Nat)
  | ring (n : Nat)
  | egress (train : Nat)
  | wait
  | untold
  deriving DecidableEq, Repr

/-- The arrived coupling of a type in a wagon's lowest slot, R235, R236. -/
def Wagon.held (x : Wagon) (ty : Nat) : Option (Nat × Nat) :=
  ((List.range 8).find? fun k => bitOf x.arr k && bitsOf x.ctype (4 * k) 4 == ty).map fun k => (k, x.cpl.getD k 0)

/-- Whether a wagon declared a coupling of a type. -/
def Wagon.awaits (x : Wagon) (ty : Nat) : Bool := (List.range 8).any fun k => bitOf x.decl k && bitsOf x.ctype (4 * k) 4 == ty

/-- On a mesh frame's verdict (R177) and CRYPT RESULT (none: unsecured): the first four rows of R271. -/
def State.fwdVerdict (s : State) (verdict : Nat) (crypt : Option Nat) : FwdAct :=
  match verdict with
  | 0 => if crypt.getD 0 = 0 then .ask 2 else .void
  | 5 => .ring (s.get F.RTE_RINGS_ASSOC)
  | _ => .void

/-- After DECOMP, by its status (R262): LOOKUP on OK, done on HELD, and the last row's statuses void. -/
def fwdDecomp (status : Nat) : FwdAct :=
  match status with
  | 0 => .ask 1
  | 10 => .done
  | 7 => .void
  | 11 => .void
  | 12 => .void
  | _ => .untold

/-- After LOOKUP, by its status; the egress train is the record's for a mesh ingress wagon and ETRAIN for the others. -/
def State.fwdLookup (s : State) (status train : Nat) : FwdAct :=
  match status with
  | 0 => .egress train
  | 1 => .ring (s.get F.RTE_RINGS_EXCEPT)
  | 2 => .void
  | 3 => .void
  | 4 => .ring (s.get F.RTE_RINGS_LOCAL)
  | 5 => .ring (s.get F.RTE_RINGS_EXCEPT)
  | 6 => .void
  | 7 => .void
  | 8 => .void
  | 11 => .void
  | 12 => .void
  | _ => .untold

/-- TRAIN of the record in a wagon's NODE snapshot (R173, R235): word 6. -/
def Wagon.nodeTrain (x : Wagon) : Nat :=
  match x.held 3 with
  | some (k, _) => ofLE (((kget x.snap k).getD []).drop 24 |>.take 4) % 2 ^ 12
  | none => 0

/-- ETRAIN of LOOKUP's result (R263): word 1 [27:16] of what RTE wrote at offset ofs of the data of frame h. -/
def State.etrain (s : State) (h ofs : Nat) : Nat := bitsOf (ofLE (s.peeks (handleAddr h + 64 + ofs + 4) 4)) 16 12

/-- A mesh ingress wagon before it has asked RTE anything: waits for its NODE coupling, and for CRYPT where the frame is secured. -/
def State.fwdMesh (s : State) (x : Wagon) : FwdAct :=
  match x.held 3 with
  | none => .wait
  | some (_, v) =>
    match x.held 2 with
    | some (_, c) => s.fwdVerdict (bitsOf v 18 3) (some (bitsOf c 20 4))
    | none => if x.awaits 2 then .wait else s.fwdVerdict (bitsOf v 18 3) none

/-- On a ROUTE coupling that answers operation op of a wagon of origin o, with LOOKUP's result at offset ofs of its OUT. -/
def State.fwdRoute (s : State) (x : Wagon) (op v ofs : Nat) : FwdAct :=
  if op = 2 then fwdDecomp (bitsOf v 20 4)
  else if op = 1 then s.fwdLookup (bitsOf v 20 4) (if x.origin < 8 then x.nodeTrain else s.etrain (v % 2 ^ 20) ofs)
  else .untold

/-- A downlink to a node: the operations of R261 in order, LOOKUP, SRHINS when SRH = 1, COMP, and FRAG k for each k of n fragments. -/
def fwdDown (srh : Bool) (n : Nat) : List (Nat × Nat) :=
  (1, 0) :: (if srh then [(5, 0)] else []) ++ (3, 0) :: (List.range n).map fun k => (4, k)

/-- What a downlink emits: DEST 2 with the RECORD of the host as QUEUE (R250). -/
def fwdEmit (h record : Nat) : List Nat := [h + 2 * 2 ^ 20, record, 0, 0]

/-- The train of a downlink child: the host's TRAIN, where it equals the record's. -/
def fwdDownTrain (host record : Nat) : Option Nat := if host = record then some host else none

end Sys2Proof.Machine
end

