-- ==== Sys2Proof/Machine/Wphy.lean ====
section
/-!
DEFINITION. The 802.11 basebands: the receiver, grants, channel changes, tap exports: spec/09, R193 to R213.
-/

namespace Sys2Proof.Machine

/-- WPHY's counter n. -/
def State.wphyCnt (s : State) (r n : Nat) : State := s.bump (W.WPHY r) (0x80 + 4 * n) E.WPHY_CNTSAT

/-- A receiver in Search. -/
def wrx0 : WRx := { st := 0, power := 0, cap := 0, buf := none, trn := 0, tb := false, cca := 0, fmt := 0 }

/-- The receiver of radio r. -/
def State.wrx (s : State) (r : Nat) : WRx := (kget s.wl.rx r).getD wrx0

/-- Stores a receiver. -/
def State.setWrx (s : State) (r : Nat) (x : WRx) : State :=
  s.setWl { s.wl with rx := if x = wrx0 then kdel s.wl.rx r else kset s.wl.rx r x }

/-- The receiver runs while its path is in Rx, R202. -/
def State.wrxRuns (s : State) (r : Nat) : Bool := r < 3 && s.enabled (W.WPHY r) && s.pst r 0 == 3

/-- Gives back what was reserved at the PHY header, R17, R202. -/
def State.wrxFree (s : State) (r : Nat) : State :=
  match (s.wrx r).buf with
  | none => s
  | some h => ((s.bufRelease h).unresv (s.wrx r).trn).setWrx r { s.wrx r with buf := none }

/-- The receiver returns to Search; CCA stays as it is held. -/
def State.wrxSearch (s : State) (r : Nat) : State := s.setWrx r { wrx0 with cca := (s.wrx r).cca }

/-- A power exceeds the preamble threshold in dBm, R202. -/
def State.pdThr (s : State) (r : Nat) : Int := 4 * s.getI (F.WPHY_RXCFG_PDTHR r)

/-- WLAN_LSTF_DETECT, R202: the capture of R87 is taken at the start of the L-STF. -/
def State.wDetect (s : State) (r : Nat) (power : Int) : State :=
  if s.wrxRuns r && (s.wrx r).st = 0 && s.pdThr r ≤ power then
    s.setWrx r { wrx0 with st := 1, power := power, cap := s.now16, cca := (s.wrx r).cca }
  else s

def execWlanLstfDetect (r : Nat) (power : Int) (s : State) : Host.Outcome State Fault Refusal := .next (s.wDetect r power)

/-- WLAN_LLTF_CONFIRM, R202. -/
def execWlanLltfConfirm (r : Nat) (s : State) : Host.Outcome State Fault Refusal :=
  .next (if s.wrxRuns r && (s.wrx r).st = 1 then s.setWrx r { s.wrx r with st := 2 } else s)

/-- WLAN_LLTF_TIMEOUT, R202. -/
def execWlanLltfTimeout (r : Nat) (s : State) : Host.Outcome State Fault Refusal :=
  .next (if (s.wrx r).st = 1 then s.wrxSearch r else s)

/-- The commit point, R17, R202, R350: a buffer for the first MPDU, of n octets, and a wagon slot, or NOBUF. -/
def State.wCommit (s : State) (r n : Nat) : State :=
  let fail := fun (u : State) => ((u.wphyCnt r 4).raise (W.WPHY r) E.WPHY_NOBUF).wrxSearch r
  let p := s.bufAlloc n
  match p.1 with
  | none => fail p.2
  | some h =>
    match p.2.resvSlot (8 + r) with
    | none => fail (p.2.bufRelease h)
    | some u => u.setWrx r { u.wrx r with st := 4, buf := some h, trn := p.2.origTrain (8 + r) }

/-- WLAN_LSIG_END, R202, R204: dur is the L-SIG duration in ns. -/
def State.wLsig (s : State) (r : Nat) (ok nonHt : Bool) (dur n : Nat) : State :=
  if (s.wrx r).st ≠ 2 then s
  else if !ok then (s.wphyCnt r 0).wrxSearch r
  else
    let t := (s.medBusy r (s.ns + dur)).setWrx r { s.wrx r with st := 3, cca := s.ns + dur, fmt := 0 }
    if nonHt then t.wCommit r n else t

def execWlanLsigEnd (r : Nat) (ok nonHt : Bool) (dur n : Nat) (s : State) : Host.Outcome State Fault Refusal :=
  .next (s.wLsig r ok nonHt dur n)

/-- Formats a radio receives, R195, in the code of R206. -/
def wRxFmt (r fmt : Nat) : Bool :=
  match fmt with
  | 2 => r ≤ 1
  | 3 => r == 1
  | 6 => false
  | f => f ≤ 9

/-- A PPDU's features are those of R196: MCS, dual carrier modulation, coding, STBC and puncturing by format; no random-access unit, no
uplink MU-MIMO. -/
def featOk (r fmt : Nat) (g : Sig) : Bool :=
  let he := 4 ≤ fmt && fmt ≤ 7
  let eht := fmt == 8 || fmt == 9
  (!he || g.mcs ≤ 11) && (!eht || g.mcs ≤ 13 || (g.mcs == 14 && r == 2))
    && (!g.dcm || (he && [0, 1, 3, 4].contains g.mcs))
    && (g.ldpc || !(he || eht) || (g.tones ≤ 242 && g.nss ≤ 4))
    && (!g.stbc || (!eht && (!he || g.nss == 2)))
    && (g.punc == 0 || (eht && 1 ≤ r))
    && !g.random && !(g.shared && (fmt == 7 || fmt == 9))

/-- WLAN_SIG_END, R196, R202: mine is whether the PPDU is for this radio, tb whether its own trigger solicited it, dur the PPDU's
duration in ns. -/
def State.wSig (s : State) (r fmt : Nat) (g : Sig) (mine tb : Bool) (dur n : Nat) : State :=
  if (s.wrx r).st ≠ 3 then s
  else if !g.ok || !featOk r fmt g || !wRxFmt r fmt || 5484000 < dur then (s.wphyCnt r 1).wrxSearch r
  else if !mine || ((fmt = 7 || fmt = 9) && !tb) then s.wrxSearch r
  else (s.setWrx r { s.wrx r with fmt := fmt, tb := tb }).wCommit r n

def execWlanSigEnd (r fmt : Nat) (g : Sig) (mine tb : Bool) (dur n : Nat) (s : State) : Host.Outcome State Fault Refusal :=
  .next (s.wSig r fmt g mine tb dur n)

/-- WLAN_RESTART, R202, R203. -/
def State.wRestart (s : State) (r : Nat) (power : Int) : State :=
  let x := s.wrx r
  let m := s.get (F.WPHY_RXCFG_MARGIN r)
  let y : WRx := { wrx0 with st := 1, power := power, cap := s.now16, cca := x.cca }
  if x.st = 0 || m = 0 || x.tb || power < x.power + 2 * m then s
  else if x.st = 1 then s.setWrx r y
  else if x.st = 4 && !s.on (F.WPHY_RXCFG_RESTARTSPAN r) then s
  else ((s.wphyCnt r 2).wrxFree r).setWrx r y

def execWlanRestart (r : Nat) (power : Int) (s : State) : Host.Outcome State Fault Refusal := .next (s.wRestart r power)

/-- The path leaves Rx, R202. -/
def State.wAbort (s : State) (r : Nat) : State :=
  if (s.wrx r).st = 0 then s else ((s.wphyCnt r 3).wrxFree r).wrxSearch r

/-- The busy 20 MHz subchannels of a radio's channel, lowest 0, R204: those whose energy in 0.25 dBm is at least EDTHR, or the image's
threshold where that is lower, and the primary while a valid L-SIG holds it. -/
def State.ccaBusy (s : State) (r : Nat) (energy : List Int) : List Nat :=
  let thr := match s.lim.img with
    | some g => (match g.ed.getD r none with | some e => min e (s.getI (F.WPHY_RXCFG_EDTHR r)) | none => s.getI (F.WPHY_RXCFG_EDTHR r))
    | none => s.getI (F.WPHY_RXCFG_EDTHR r)
  (List.range (2 ^ s.chanW r)).filter fun k =>
    (match energy[k]? with | some e => decide (4 * thr ≤ e) | none => false)
      || ((chanSubs (s.chanN r) (s.chanW r)).getD k 0 == s.chanP r && decide (s.ns < (s.wrx r).cca))

/-- The primary 20 MHz subchannel is busy, R204. -/
def State.primBusy (s : State) (r : Nat) (energy : List Int) : Bool :=
  (s.ccaBusy r energy).any fun k => (chanSubs (s.chanN r) (s.chanW r)).getD k 0 == s.chanP r

/-! Frames received, R206, R207, R209, R210, R237 -/

/-- The largest MPDU, the number of MPDUs and the largest PSDU of a format, R209. -/
def fmtMax (fmt : Nat) : Nat × Nat × Nat :=
  if fmt ≤ 1 then (4095, 1, 4095) else if fmt = 2 then (4095, 64, 65535) else if fmt = 3 then (11454, 64, 1048575)
  else if fmt ≤ 7 then (11454, 256, 6500631) else (11454, 1024, 15523198)

/-- The octets of an address in an MPDU as a number. -/
def macAt (l : List Byte) (k : Nat) : Nat := ofLE ((l.drop k).take 6)

/-- The BSS of a radio whose address is a, R214. -/
def State.bssOf (s : State) (r a : Nat) : Option Nat :=
  (List.range 16).find? fun n =>
    s.on (F.WMAC_BSSCTL_EN r n) && s.get (F.WMAC_BSSADDR_W0_ADDR r n) + s.get (F.WMAC_BSSADDR_W1_ADDR r n) * 2 ^ 32 == a

/-- The station entry of a transmitter address on a radio. -/
def State.staOf (s : State) (r a : Nat) : Option Nat :=
  (s.wl.sta.find? fun e => e.2.addr == a || (match kget e.2.links r with | some l => l.1 == a | none => false)).map fun e => e.1

/-- The receive stamp of a PPDU in 2^-16 ns, R86, R87; 0 in software mode. -/
def State.wStamp (s : State) (r : Nat) (rep : WRep) : Nat :=
  if bitOf (s.get F.TIME_TSMODE_WLAN) r then
    moveStamp (s.wrx r).cap (-((if rep.bw = 0 then 1600 else 800) + s.getI (F.TIME_RTRIM_RX (r + 1))) * 65536)
  else 0

/-- Header words of an MPDU of a PPDU of the format held, R206, R207, R239: AID only of a TB user, COLOR only where the format has one, GI
not applicable to non-HT. -/
def wHeader (r stamp : Nat) (len fmt : Nat) (p : WRep) (bss sta : Nat) : List Nat :=
  let ns := stamp / 65536
  let sec := ns / 1000000000
  let fo := clampI (-524287) 524287 p.fofs
  let f := if fmt = 0 then min p.fmt 1 else fmt
  let gi := if f ≤ 1 then 3 else p.gi % 4
  let aid := if f = 7 || f = 9 then p.aid % 4096 else 0
  let color := if 4 ≤ f then p.color % 64 else 0
  [ 1 + r * 4 + (if stamp = 0 then 0 else 32) + len % 16384 * 1024, 0, stamp % 65536 + sec / 2 ^ 32 % 65536 * 65536,
    ns % 1000000000, sec % 2 ^ 32,
    r + f % 16 * 4 + p.bw % 8 * 64 + p.mcs % 16 * 512 + p.nss % 16 * 8192 + gi * 2 ^ 17 + aid * 2 ^ 19 + b2n (fo != p.fofs) * 2 ^ 31,
    color + bss % 16 * 64 + sta % 2048 * 1024,
    unsgn 16 p.rssi + unsgn 16 p.nf * 65536, unsgn 16 p.snr + unsgn 16 p.evm * 65536, unsgn 20 fo, 0, 0, 0, 0, 0, 0 ]

/-- The CRC-8 of an MPDU delimiter over its first two octets, by IEEE 802.11 (log entry 60): x^8 + x^2 + x + 1, from all ones,
inverted. -/
def delimCrc (v : Nat) : Nat :=
  255 - (List.range 16).foldl (fun c i => if (c / 128 + v / 2 ^ i) % 2 = 1 then c * 2 % 256 ^^^ 7 else c * 2 % 256) 255

/-- The octet c with its bits in reverse order. -/
def rev8 (c : Nat) : Nat := (List.range 8).foldl (fun a i => a + c / 2 ^ i % 2 * 2 ^ (7 - i)) 0

/-- The delimiter at the start of octets, by IEEE 802.11 (log entry 60): its MPDU length; none where its CRC or its signature fails. -/
def delim (l : List Byte) (fmt : Nat) : Option Nat :=
  let v := ofLE (l.take 2)
  if l.length < 4 || (l.getD 3 0).toNat ≠ 0x4E || (l.getD 2 0).toNat ≠ rev8 (delimCrc v) then none
  else some (if fmt = 2 then v / 16 else v / 16 + v / 4 % 4 * 4096)

/-- The walk of an A-MPDU from an octet offset, R210: what it finds in order, as octets handed on or a counter (5 RXLONG, 6 RXSHORT, 7
RXOVER); n counts the MPDUs. The search goes on at the next 4-octet boundary; an MPDU is passed over with its padding. -/
def walk (fmt : Nat) : (fuel n : Nat) → List Byte → List (Sum (List Byte) Nat)
  | 0, _, _ => []
  | k + 1, n, l =>
    if l.length < 4 then []
    else match delim l fmt with
      | none => walk fmt k n (l.drop 4)
      | some d =>
        let past := l.drop (4 + (d + 3) / 4 * 4)
        if d = 0 then walk fmt k n (l.drop 4)
        else if d < 14 then .inr 6 :: walk fmt k n (l.drop 4)
        else if (fmtMax fmt).1 < d then .inr 5 :: walk fmt k n past
        else if (fmtMax fmt).2.1 ≤ n then .inr 7 :: walk fmt k (n + 1) past
        else .inl ((l.drop 4).take d) :: walk fmt k (n + 1) past

/-- What a PSDU holds, R210: the A-MPDU's walk, or the one MPDU of a PSDU that is none. -/
def psduWalk (fmt : Nat) (p : WPsdu) : List (Sum (List Byte) Nat) :=
  if p.agg && 2 ≤ fmt then walk fmt (p.data.length / 4 + 1) 0 p.data
  else if p.data.length < 14 then [.inr 6]
  else if (fmtMax fmt).1 < p.data.length then [.inr 5]
  else [.inl p.data]

/-- The FCS at the end of an MPDU holds, which the lower MAC checks, R210. -/
def mpduOk (d : List Byte) : Bool := ofLE (d.drop (d.length - 4)) == crc32 (d.take (d.length - 4))

/-- Whether an agreement of word 0 is an entry's on a link: its own, or a broadcast one of its BSS when it is a member. -/
def twtMine (w : Nat) (e : Nat) (x : StaS) (r : Nat) : Bool :=
  bitOf w 31 && bitsOf w 16 2 == r &&
    (if bitOf w 13 then x.twtmem && (match kget x.links r with | some l => l.2 == w % 16 | none => false) else w % 1024 == e)

/-- The buffer reserved for the first MPDU holds n octets, R350. -/
def State.resvFits (s : State) (h n : Nat) : Bool :=
  match kget s.ram.pool h with
  | some k => decide (n ≤ bufData k)
  | none => false

/-- The buffer of an MPDU of n octets and the train of its slot, R17, R237, R350: the first MPDU takes the reservation, in a buffer that
holds it; each further one makes its own. -/
def State.wBuf (s : State) (r n : Nat) : Option (Nat × Nat) × State :=
  let x := s.wrx r
  match x.buf with
  | some h =>
    let t := s.setWrx r { x with buf := none }
    if s.resvFits h n then (some (h, x.trn), t)
    else
      let a := (t.bufRelease h).bufAlloc n
      match a.1 with
      | none => (none, a.2.unresv x.trn)
      | some g => (some (g, x.trn), a.2)
  | none =>
    let a := s.bufAlloc n
    match a.1 with
    | none => (none, a.2)
    | some h => match a.2.resvSlot (8 + r) with
      | some u => (some (h, a.2.origTrain (8 + r)), u)
      | none => (none, a.2.bufRelease h)

/-- One MPDU of valid FCS goes on as a wagon, R237, R239, R350. -/
def State.wHand (s : State) (r fmt : Nat) (rep : WRep) (d : List Byte) : State :=
  let p := s.wBuf r d.length
  let t := p.2
  match p.1 with
  | none => (t.wphyCnt r 4).raise (W.WPHY r) E.WPHY_NOBUF
  | some (h, trn) =>
    let st := t.wStamp r rep
    let e := t.staOf r (macAt d 10)
    let b := (t.bssOf r (macAt d 4)).getD 0
    let prot := bitOf (d.getD 1 0).toNat 6
    let t := (t.pokeHdr h 0 (wHeader r st d.length fmt rep b (e.getD 0x7FF))).pokeData h 0 d
    let c := t.islandCommit (8 + r) trn (if st = 0 then t.ns else stampNs st) ([(0, 1, some h)] ++ if prot then [(1, 2, none)] else [])
    match c.1 with
    | none => c.2.bufRelease h
    | some w => if prot then c.2.secAsk 3 (e.getD (1024 + 16 * r + b)) h w else c.2

/-- What MLD learns from an MPDU of a station: SNR, power save, buffer reports with their time; a frame of a member wakes it for an
announced service period, R206, R220, R229. -/
def State.staLearn (s : State) (r : Nat) (p : WPsdu) (d : List Byte) : State :=
  match s.staOf r (macAt d 10) with
  | none => s
  | some e => match kget s.wl.sta e with
    | none => s
    | some x =>
      let y := { x with snr := kset x.snr r p.rep.snr, ps := bitOf (d.getD 1 0).toNat 4,
                        bsr := p.bsr.foldl (fun b v => kset b v.1 v.2) x.bsr,
                        bsrAt := p.bsr.foldl (fun b v => kset b v.1 s.ns) x.bsrAt }
      let sp := s.wl.spOpen.map fun a =>
        if twtMine (((kget s.wl.twt a.1).getD []).getD 0 0) e x r && !a.2.2.2.2.contains e then
          (a.1, a.2.1, a.2.2.1, a.2.2.2.1, a.2.2.2.2 ++ [e]) else a
      s.setWl { s.wl with sta := kset s.wl.sta e y, spOpen := sp }

/-- The MPDUs of a PSDU go on or are counted, R210. -/
def State.wWalk (s : State) (r fmt : Nat) (p : WPsdu) : State :=
  (psduWalk fmt p).foldl (fun t m => match m with
    | .inl d => if mpduOk d then (t.wHand r fmt p.rep d).staLearn r p d else t
    | .inr k => t.wphyCnt r k) s

/-- A time span meets a quiet turn of Radio A, R230. -/
def State.quietMeets (s : State) (r a b : Nat) : Bool := r == 0 && s.mlc.quiet.any fun q => q.1 < b && a < q.2

/-- WMAC's counter n. -/
def State.wmacCnt (s : State) (r n : Nat) : State := s.bump (W.WMAC r) (0x280 + 4 * n) E.WMAC_CNTSAT

/-- The user whose taps are exported, R205: of a TB PPDU the one of the AID, with AID 0 the lowest resource unit. -/
def eqPick (fmt aid : Nat) (l : List EqUser) : Option EqUser :=
  if fmt = 7 || fmt = 9 then
    if aid = 0 then l.foldl (fun b u => match b with | none => some u | some v => if u.ru < v.ru then some u else b) none
    else l.find? fun u => u.aid == aid
  else l.head?

/-- One tap in NG. -/
def ngOf (code : Nat) : Nat := [1, 4, 16].getD code 1

/-- The export of taps, R105, R205: of an HE or EHT PPDU, the lowest tap of each group. -/
def State.wEqExport (s : State) (r : Nat) (l : List EqUser) (fmt : Nat) : State :=
  match eqPick fmt (s.get (F.WPHY_EQCFG_AID r)) l with
  | none => s
  | some q =>
    if s.on (F.WPHY_EQCFG_ARMED r) && 4 ≤ fmt then
      let a := s.get (F.WPHY_EQADDR_ADDR r)
      let ng := ngOf (s.get (F.WPHY_EQCFG_NG r))
      let groups := (q.taps.length + ng - 1) / ng
      let n := 2 * q.chains * q.streams
      let ws := (List.range groups).flatMap fun g => (List.range n).map fun j => (q.taps.getD (g * ng) []).getD j 0
      let t := ((List.range ws.length).zip ws).foldl (fun t e => t.dmaWord (a + 4 * e.1) (unsgn 32 (sgn 20 e.2))) s
      (t.sets [(F.WPHY_EQSTAT_GROUPS r, groups), (F.WPHY_EQSTAT_CHAINS r, q.chains), (F.WPHY_EQSTAT_STREAMS r, q.streams),
        (F.WPHY_EQSTAT_FORMAT r, fmt), (F.WPHY_EQCFG_ARMED r, 0)]).raise (W.WPHY r) E.WPHY_EQDONE
    else s

/-- WLAN_EQ_ARM, R205: ARM acts only when the worst case fits. v is the word written. -/
def State.wEqArm (s : State) (rq : Rq) (r v : Nat) : State :=
  let ng := ngOf (bitsOf v 12 2)
  let t := [484, 1992, 3984].getD r 0
  let c := [4, 8, 8].getD r 0
  let a := s.get (F.WPHY_EQADDR_ADDR r)
  let n := (t + ng - 1) / ng * c * c * 8
  if 0x13000000 ≤ a && a % 8 = 0 && a + n ≤ 0x14000000 then s.set (F.WPHY_EQCFG_ARMED r) 1
  else s.errRec rq (W.WPHY r) 0x54 5

/-! Grants, R200, R201 -/

/-- Word w of grant entry i. -/
def State.grantW (s : State) (i w : Nat) : Nat := ((kget s.wl.grants i).getD []).getD w 0

/-- Stores word w of grant entry i. -/
def State.setGrantW (s : State) (i w v : Nat) : State :=
  let l := (List.range 4).map fun k => if k = w then v else s.grantW i k
  s.setWl { s.wl with grants := if l = [0, 0, 0, 0] then kdel s.wl.grants i else kset s.wl.grants i l }

/-- The expiry of a grant entry in seconds. -/
def State.grantEnd (s : State) (i : Nat) : Nat := s.grantW i 2 + s.grantW i 3 % 65536 * 2 ^ 32

/-- GRANT_EXPIRE, R201. -/
def State.grantExp (s : State) (i : Nat) : State :=
  let w := s.grantW i 0
  if bitOf w 16 && s.grantEnd i ≤ s.sec then (s.setGrantW i 0 (w % 65536 + 2 ^ 17)).raise (W.WPHY 2) E.WPHY_GRANTEXP else s

def execGrantExpire (idx : Nat) (s : State) : Host.Outcome State Fault Refusal := .next (s.grantExp idx)

/-- The limits of the valid entries that cover every one of a PPDU's 20 MHz channels, R200; none when one is not covered. -/
def State.grantFor (s : State) (chans : List Nat) : Option (List Int × List Int) :=
  let live := if s.get F.TIME_STATE_STATE = 0 then []
    else (List.range 32).filter fun i => bitOf (s.grantW i 0) 16 && s.sec < s.grantEnd i
  let cov := fun (c i : Nat) => bitsOf (s.grantW i 0) 0 8 ≤ c && c ≤ bitsOf (s.grantW i 0) 8 8
  if chans.all fun c => live.any fun i => cov c i then
    let u := live.filter fun i => chans.any fun c => cov c i
    some (u.map fun i => sgn 16 (s.grantW i 1 / 65536), u.map fun i => sgn 16 (s.grantW i 1))
  else none

/-! Channels, R212 -/

/-- The staged channel in the layout of WPHY_CHANSTAGE. -/
def State.chanStage (s : State) (r : Nat) : Nat :=
  s.get (F.WPHY_CHANSTAGE_PRIMARY r) + s.get (F.WPHY_CHANSTAGE_WIDTH r) * 256 + s.get (F.WPHY_CHANSTAGE_DISSUB r) * 65536

/-- The index of the primary among the 20 MHz channels. -/
def primIdx (c p w : Nat) : Nat := (firstFrom (fun k => (chanSubs c w).getD k 0 == p) 16 0).getD 0

/-- The image removes a channel, R194. -/
def State.chanGone (s : State) (r w c : Nat) : Bool := match s.lim.img with | some g => g.removed.contains (r, w, c) | none => false

/-- The centre of the staged channel: of the channels that primary and width name, the first that the image leaves and a valid calibration
entry serves, else the first that the image leaves, else the first (log entry 61). -/
def State.chanPick (s : State) (r p w : Nat) : Nat :=
  let l := chanCands r p w
  let k := l.filter fun c => !s.chanGone r w c
  ((k.filter fun c => (s.calFind r 0 (chanKHz r c) w).isSome) ++ k ++ l).headD 0

/-- The centre of what WPHY_CHANSTAGE holds. -/
def State.stageN (s : State) (r : Nat) : Nat := s.chanPick r (s.get (F.WPHY_CHANSTAGE_PRIMARY r)) (s.get (F.WPHY_CHANSTAGE_WIDTH r))

/-- The refusal cause of a staged channel, R212, 0 when it passes. -/
def State.chanCause (s : State) (r : Nat) : Nat :=
  let p := s.get (F.WPHY_CHANSTAGE_PRIMARY r)
  let w := s.get (F.WPHY_CHANSTAGE_WIDTH r)
  let d := s.get (F.WPHY_CHANSTAGE_DISSUB r)
  let c := s.stageN r
  if !chanOk r p w then 1
  else if s.chanGone r w c then 2
  else if d ≠ 0 && (r = 0 || bitOf d (primIdx c p w) || !Config.puncOk w d) then 3
  else if (s.calFind r 0 (chanKHz r c) w).isNone then 4
  else 0

/-- CHANNEL_COMMIT, R212. -/
def State.chanCommit (s : State) (r : Nat) : State :=
  let c := s.chanCause r
  let t := (s.set (F.WPHY_CHANCTL_CAUSE r) c).set (F.WPHY_CHANCTL_PENDING r) (b2n (c == 0))
  if c = 0 then t.setWl { t.wl with stage := kset t.wl.stage r (s.chanStage r + s.stageN r * 2 ^ 32) } else t.raise (W.WPHY r) E.WPHY_CHREF

/-- CHANNEL_APPLY, R109, R212, R230: the radio holds no TXOP and neither sends nor receives. The preselector retunes when the entry's code
differs; MLC takes Radio A's centre and width at once. -/
def State.chanApply (s : State) (r : Nat) : State :=
  if !s.on (F.WPHY_CHANCTL_PENDING r) || !s.winOn (W.WPHY r) || s.ns < (s.wmac r).hold || (s.wrx r).st ≠ 0 || !(s.path r 0).txs.isEmpty then s
  else
    let v := (kget s.wl.stage r).getD (s.chanStage r + s.stageN r * 2 ^ 32)
    let t := (s.set (F.WPHY_CHANCTL_PENDING r) 0).set (F.WPHY_CHANCUR_CHAN r) (v % 2 ^ 32)
    let t := (t.setWl { t.wl with cen := kset t.wl.cen r (v / 2 ^ 32) }).raise (W.WPHY r) E.WPHY_CHAPPLIED
    let t := t.rxEntry r 0 (t.chanC r) (t.chanW r)
    if r = 0 then t.quietAgain else t

def execChannelApply (r : Nat) (s : State) : Host.Outcome State Fault Refusal := .next (s.chanApply r)

end Sys2Proof.Machine
end

