-- ==== Sys2Proof/Machine/Mld.lean ====
section
/-!
DEFINITION. The multi-link planner: stations, queues, TSF, target wake time, plans: spec/10, R214 to R222, R227 to R229, R232.
-/

namespace Sys2Proof.Machine

/-- MLD's counter n. -/
def State.mldCnt (s : State) (n : Nat) : State := s.bump W.MLD (0x100 + 4 * n) E.MLD_CNTSAT

/-! Time on the WLAN, R218 -/

/-- The epoch the registers hold, in ns. -/
def State.epochReg (s : State) : Nat :=
  (s.get F.MLD_TSFEPOCHSECHI_SEC * 2 ^ 32 + s.get F.MLD_TSFEPOCHHI_SEC) * 1000000000 + s.get F.MLD_TSFEPOCHLO_NS

/-- The epoch in force: a write holds from the next microsecond boundary, counted in elapsed time, so that no step brings the old one
back. -/
def State.epochNow (s : State) : Nat := if s.tm.mono < s.wl.epochFrom then s.wl.epochOld else s.epochReg

/-- The TSF in µs. -/
def State.tsf (s : State) : Nat := ((((s.ns : Int) - s.epochNow) / 1000) % (2 ^ 64 : Int)).toNat

/-- TSF_EPOCH_WRITE: register 0 is MLD_TSFEPOCHLO, 1 MLD_TSFEPOCHHI, 2 MLD_TSFEPOCHSECHI. -/
def State.tsfWrite (s : State) (reg v : Nat) : State :=
  let t := s.setWl { s.wl with epochOld := s.epochNow, epochFrom := s.tm.mono + (1000 - s.ns % 1000) }
  t.set (match reg with | 0 => F.MLD_TSFEPOCHLO_NS | 1 => F.MLD_TSFEPOCHHI_SEC | _ => F.MLD_TSFEPOCHSECHI_SEC) v

/-! Queues, R219 -/

/-- The access category of a TID. -/
def tidAc (tid : Nat) : Nat := [1, 0, 0, 1, 2, 2, 3, 3].getD (tid % 8) 1

/-- The queue of an entry and TID. -/
def State.wq (s : State) (e tid : Nat) : List WEnt := (kget s.wl.q (16 * e + tid)).getD []

/-- The group queue of a BSS on a radio. -/
def State.gq (s : State) (r b : Nat) : List WEnt := (kget s.wl.grp (16 * r + b)).getD []

/-- Frames queued for an entry, and in all; a group frame counts once. -/
def State.staQueued (s : State) (e : Nat) : Nat := ((List.range 16).map fun t => (s.wq e t).length).foldl (fun a b => a + b) 0
def State.wQueued (s : State) : Nat :=
  s.wl.q.foldl (fun a e => a + e.2.length) 0
    + ((s.wl.grp.flatMap fun e => e.2.map fun x => x.out.handle).eraseDups).length

/-- The queued frame of a handle. -/
def State.wFind (s : State) (h : Nat) : Option WEnt :=
  (s.wl.q.flatMap fun e => e.2) ++ (s.wl.grp.flatMap fun e => e.2) |>.find? fun e => e.out.handle == h

/-- Takes a frame out of every queue. -/
def State.wDrop (s : State) (h : Nat) : State :=
  let f := fun (l : KMap (List WEnt)) => (l.map fun e => (e.1, e.2.filter fun x => x.out.handle != h)).filter fun e => !e.2.isEmpty
  s.setWl { s.wl with q := f s.wl.q, grp := f s.wl.grp }

/-- Changes a queued frame. -/
def State.wChange (s : State) (h : Nat) (g : WEnt → WEnt) : State :=
  let f := fun (l : KMap (List WEnt)) => l.map fun e => (e.1, e.2.map fun x => if x.out.handle = h then g x else x)
  s.setWl { s.wl with q := f s.wl.q, grp := f s.wl.grp }

/-- A queued frame ends with a status of R219 and its departure stamp. -/
def State.wEnd (s : State) (h status : Nat) (stamp : Option Nat) : State :=
  match s.wFind h with
  | none => s
  | some e => (s.wDrop h).outDone e.out e.miss status stamp

/-- A link is available, R217: its radio changes no channel and its path is in Rx or Tx. -/
def State.linkUp (s : State) (r : Nat) : Bool := !s.on (F.WPHY_CHANCTL_PENDING r) && (s.pst r 0 == 3 || s.pst r 0 == 4)

/-- A TID of an entry may use a link. -/
def mapAllows (x : StaS) (tid r : Nat) : Bool :=
  (kget x.links r).isSome && (match x.map with | none => true | some m => bitOf m (3 * (tid % 8) + r))

/-- The lowest available link on which an entry may be served, for a timed frame, R217. -/
def State.staLink (s : State) (e tid : Nat) : Option Nat :=
  match kget s.wl.sta e with
  | none => none
  | some x => (List.range 3).find? fun r => mapAllows x tid r && s.linkUp r

/-- The radios on which a BSS number is enabled: a group frame goes out on each, R215. -/
def State.grpLinks (s : State) (b : Nat) : List Nat := (List.range 3).filter fun r => s.on (F.WMAC_BSSCTL_EN r b)

/-- A time in ns modulo 2^16 s taken as the nearest to now, R250. -/
def State.nearTime (s : State) (t : Nat) : Nat :=
  let d := (t + wMod - s.wNow) % wMod
  if d ≤ wMod / 2 then s.ns + d else s.ns - (wMod - d)

/-- A timed frame reaches the dock of the radios that are to send it, R89: LATE less than 20 µs before its time, FAR more than 4 s. -/
def State.mldTimed (s : State) (x : WEnt) (rs : List Nat) : State :=
  let t := s.nearTime x.out.launch
  let r := rs.headD 0
  if t < s.ns + 20000 then ((s.wmacCnt r 1).raise (W.WMAC r) E.WMAC_LATE).outDone x.out x.miss 1 none
  else if s.ns + 4000000000 < t then (s.wmacCnt r 2).outDone x.out x.miss 2 none
  else s.setWl { s.wl with timed := s.wl.timed ++ rs.map fun r => (r, x) }

/-- MLD_ENQUEUE, R89, R215, R217, R219: a released output for MLD; dl is its wagon's deadline. -/
def State.mldEnqueue (s : State) (o : Out) (miss : Bool) (dl : Nat) : State :=
  let q := o.queue
  let grp := bitOf q 31
  let e := if grp then 1024 + q % 16 else q % 1024
  let tid := if grp then 0 else bitsOf q 10 4
  let rs := s.grpLinks (q % 16)
  let x : WEnt := { out := o, miss := miss, dl := dl, since := s.ns, retries := 0, sta := e, tid := tid }
  let full := max 1 (s.get F.MLD_QTOTAL_TOTAL) ≤ s.wQueued
  if !s.enabled W.MLD || (!grp && (kget s.wl.sta e).isNone) || (grp && rs.isEmpty) then (s.mldCnt 3).outDone o miss 8 none
  else if o.timed then
    if grp then s.mldTimed x rs
    else match s.staLink e tid with
      | none => ((s.mldCnt 2).raise W.MLD E.MLD_NOLINK).outDone o miss 1 none
      | some r => s.mldTimed x [r]
  else if full || (!grp && max 1 (s.get F.MLD_QCFG_STAQ) ≤ s.staQueued e) then
    ((s.mldCnt 0).raise W.MLD E.MLD_QFULL).outDone o miss 7 none
  else if grp then
    rs.foldl (fun t r => t.setWl { t.wl with grp := kset t.wl.grp (16 * r + q % 16) (t.gq r (q % 16) ++ [x]) }) s
  else s.setWl { s.wl with q := kset s.wl.q (16 * e + tid) (s.wq e tid ++ [x]) }

/-- A frame is claimed by a plan that a lower MAC has taken. -/
def State.claimed (s : State) (h : Nat) : Bool := s.wl.tx.any fun t => t.users.any fun u => u.frames.contains h

/-- A frame has waited longer than TTL, R219. -/
def State.overdue (s : State) (e : WEnt) : Bool :=
  let ttl := s.get F.MLD_QCFG_TTL
  ttl != 0 && decide (e.since + ttl * 1000000 ≤ s.ns)

/-- MLD_FRAME_EXPIRE, R219: a frame on the air does not wait; it is dropped when its attempt has failed. -/
def State.wExpire (s : State) (h : Nat) : State :=
  match s.wFind h with
  | none => s
  | some e => if s.overdue e && !s.claimed h then (s.mldCnt 1).wEnd h 9 none else s

def execMldFrameExpire (handle : Nat) (s : State) : Host.Outcome State Fault Refusal := .next (s.wExpire handle)

/-! Station commands, R216 -/

/-- A station command ends. -/
def State.staDone (s : State) (result : Nat) : State :=
  (((s.setWl { s.wl with cmd := none }).set F.MLD_STACMD_CBUSY 0).set F.MLD_STACMD_RESULT result).raise W.MLD E.MLD_CMDDONE

/-- GO, R176, R216. -/
def State.staGo (s : State) (rq : Rq) : State :=
  if s.on F.MLD_STACMD_CBUSY then s.errRec rq W.MLD 0x40 4
  else
    let op := s.get F.MLD_STACMD_OP
    if op = 0 || 5 < op then s.staDone 5
    else (s.setWl { s.wl with cmd := some (op, (List.range 4).map fun n => s.get (F.MLD_STAARG_ARG n)) }).set F.MLD_STACMD_CBUSY 1

/-- Runs station command op when it is the one in progress. -/
def State.staRun (s : State) (op : Nat) (f : State → List Nat → State) : State :=
  match s.wl.cmd with
  | some (o, args) => if o = op && s.winOn W.MLD then f s args else s
  | none => s

/-- Links a radio serves. -/
def State.linksOf (s : State) (r : Nat) : Nat := (s.wl.sta.filter fun e => (kget e.2.links r).isSome).length

/-- ADD. The padding and transition delays that an EMLSR peer declares reach MLD by no argument the spec gives: free values of at most
256 µs (log entry 62). -/
def State.staAdd (s : State) (args : List Nat) : State :=
  let a := args.getD 0 0 + args.getD 1 0 % 65536 * 2 ^ 32
  let aid := bitsOf (args.getD 1 0) 16 11
  let g := args.getD 2 0
  let l := bitsOf g 0 2
  if aid = 0 || 2006 < aid || l = 3 then s.staDone 5
  else if s.wl.sta.any fun e => e.2.addr == a || e.2.aid == aid then s.staDone 1
  else if 1024 ≤ s.wl.sta.length then s.staDone 3
  else if 512 ≤ s.linksOf l then s.staDone 4
  else
    let p := s.pick (fun i => (kget s.wl.sta i).isNone) 1024 0
    match p.1 with
    | none => p.2.staDone 3
    | some i =>
      let x : StaS := { addr := a, aid := aid, links := [(l, (a, bitsOf g 2 4))], train := bitsOf g 6 12, mld := bitOf g 18,
                        twtmem := bitOf g 19, emlsr := bitOf g 20, caps := args.getD 3 0 % 2 ^ 12, map := none, snr := [],
                        fed := [], adj := [], good := [], bsr := [], ps := false }
      let t := p.2
      let u := if x.emlsr then (t.fresh.2).fresh.2 else t
      let y := if x.emlsr then { x with pad := t.fresh.1 % 256001, tran := t.fresh.2.fresh.1 % 256001 } else x
      ((u.setWl { u.wl with sta := kset u.wl.sta i y }).set F.MLD_STACMD_INDEX i).staDone 0

def execStaAdd (s : State) : Host.Outcome State Fault Refusal := .next (s.staRun 1 State.staAdd)

/-- Every frame of an entry is dropped GONE. -/
def State.staFlushQ (s : State) (e : Nat) : State :=
  (((List.range 16).flatMap fun t => s.wq e t).foldl (fun t x => (t.mldCnt 3).wEnd x.out.handle 8 none) s)

/-- Clears VALID of an agreement and ends its service period. -/
def State.twtClear (s : State) (a : Nat) : State :=
  match kget s.wl.twt a with
  | none => s
  | some ws => s.setWl { s.wl with twt := kset s.wl.twt a (lset ws 0 (ws.getD 0 0 % 2 ^ 31)), spNext := kdel s.wl.spNext a,
                                   spOpen := kdel s.wl.spOpen a }

/-- DEL: the entry's frames end GONE, and it leaves the plans and the PPDUs on the air, whose result for it is discarded. -/
def State.staDel (s : State) (args : List Nat) : State :=
  let i := args.getD 0 0 % 1024
  if (kget s.wl.sta i).isNone then s.staDone 7
  else
    let t := s.staFlushQ i
    let mine := t.wl.timed.filter fun e => e.2.sta == i
    let t := mine.foldl (fun t e => (t.mldCnt 3).outDone e.2.out e.2.miss 8 none) t
    let step := fun (x : WStep) => { x with users := x.users.filter fun u => u.sta != i }
    let t := t.setWl { t.wl with
      sta := kdel t.wl.sta i, timed := t.wl.timed.filter (fun e => e.2.sta != i),
      tx := t.wl.tx.map (fun x => { x with users := x.users.filter fun u => u.sta != i }),
      plans := t.wl.plans.map fun p => (p.1, { p.2 with steps := p.2.steps.map step }) }
    let own := t.wl.twt.filter fun e => bitsOf (e.2.getD 0 0) 0 10 == i && !bitOf (e.2.getD 0 0) 13
    (own.foldl (fun t e => t.twtClear e.1) t).staDone 0

def execStaDel (s : State) : Host.Outcome State Fault Refusal := .next (s.staRun 2 State.staDel)

/-- SETLINK. -/
def State.staSetlink (s : State) (args : List Nat) : State :=
  let i := args.getD 0 0 % 1024
  let l := bitsOf (args.getD 2 0) 16 2
  match kget s.wl.sta i with
  | none => s.staDone 5
  | some x =>
    if !x.mld || l = 3 || (kget x.links l).isSome then s.staDone 5
    else if 512 ≤ s.linksOf l then s.staDone 4
    else
      let a := args.getD 1 0 + args.getD 2 0 % 65536 * 2 ^ 32
      (s.setWl { s.wl with sta := kset s.wl.sta i { x with links := kset x.links l (a, bitsOf (args.getD 2 0) 18 4) } }).staDone 0

def execStaSetlink (s : State) : Host.Outcome State Fault Refusal := .next (s.staRun 3 State.staSetlink)

/-- SETMAP. -/
def State.staSetmap (s : State) (args : List Nat) : State :=
  let i := args.getD 0 0 % 1024
  let m := args.getD 1 0 % 2 ^ 24
  match kget s.wl.sta i with
  | none => s.staDone 5
  | some x =>
    if (List.range 8).all fun t => (List.range 3).any fun r => bitOf m (3 * t + r) && (kget x.links r).isSome then
      (s.setWl { s.wl with sta := kset s.wl.sta i { x with map := some m } }).staDone 0
    else s.staDone 5

def execStaSetmap (s : State) : Host.Outcome State Fault Refusal := .next (s.staRun 4 State.staSetmap)

/-- FLUSH: the entry's queues are emptied, its frames ending GONE. -/
def execStaFlush (s : State) : Host.Outcome State Fault Refusal :=
  .next (s.staRun 5 fun t args => (t.staFlushQ (args.getD 0 0 % 1024)).staDone 0)

/-! Target wake time, R227 to R229 -/

/-- Word w of agreement a. -/
def State.twtW (s : State) (a w : Nat) : Nat := ((kget s.wl.twt a).getD []).getD w 0

/-- Stores word w of agreement a. -/
def State.setTwtW (s : State) (a w v : Nat) : State :=
  let l := (List.range 5).map fun k => if k = w then v % 2 ^ 32 else s.twtW a k
  s.setWl { s.wl with twt := if l = [0, 0, 0, 0, 0] then kdel s.wl.twt a else kset s.wl.twt a l }

/-- TWT_VALID_WRITE, R227, R228: v is word 0 with VALID = 1. -/
def State.twtValid (s : State) (rq : Rq) (v : Nat) : State :=
  let a := s.get F.MLD_TWTIDX_INDEX
  let dur := s.twtW a 3 / 65536
  let ivl := s.twtW a 4
  let link := bitsOf v 16 2
  let hasLink := if bitOf v 13 then decide (link < 3) else match kget s.wl.sta (v % 1024) with
    | some x => (kget x.links link).isSome
    | none => false
  if ivl < dur || ivl = 0 || !hasLink then s.errRec rq W.MLD 0x84 5
  else
    let t0 := (s.twtW a 3 % 65536 * 2 ^ 32 + s.twtW a 2) * 1000000000 + s.twtW a 1
    let lo := s.ns + 1000000
    let k := if t0 < lo then (lo - t0 + ivl * 1000 - 1) / (ivl * 1000) else 0
    let t := s.setTwtW a 0 v
    t.setWl { t.wl with spNext := kset t.wl.spNext a (t0 + k * ivl * 1000), spOpen := kdel t.wl.spOpen a }

/-- TWT_SP_START, R229. -/
def State.spStart (s : State) (a : Nat) : State :=
  match kget s.wl.spNext a with
  | none => s
  | some n =>
    if s.ns < n then s
    else s.setWl { s.wl with spNext := kset s.wl.spNext a (n + max 1 (s.twtW a 4) * 1000),
                             spOpen := kset s.wl.spOpen a (n, n + s.twtW a 3 / 65536 * 1000, !bitOf (s.twtW a 0) 15, []) }

def execTwtSpStart (a : Nat) (s : State) : Host.Outcome State Fault Refusal := .next (s.spStart a)

/-- TWT_SP_END, R229. -/
def execTwtSpEnd (a : Nat) (s : State) : Host.Outcome State Fault Refusal :=
  .next (match kget s.wl.spOpen a with
    | some p => if p.2.1 ≤ s.ns then s.setWl { s.wl with spOpen := kdel s.wl.spOpen a } else s
    | none => s)

/-- The end of the service period of an entry on a link that is open and has woken it; overlapping ones act as one. -/
def State.spEnd (s : State) (e r : Nat) (x : StaS) : Option Nat :=
  (s.wl.spOpen.filter fun p => twtMine (s.twtW p.1 0) e x r && (p.2.2.2.1 || p.2.2.2.2.contains e)).foldl
    (fun b p => some (max (b.getD 0) p.2.2.1)) none

/-- An entry is awake on a link, R229. -/
def State.awake (s : State) (e r : Nat) (x : StaS) : Bool := !x.ps || (s.spEnd e r x).isSome

/-! Plans, R217, R220 to R222 -/

/-- An entry's frames of an access category on a link that no taken plan claims. -/
def State.acFrames (s : State) (e r ac : Nat) (x : StaS) : List WEnt :=
  ((List.range 16).filter fun t => tidAc t == ac && mapAllows x t r).flatMap fun t =>
    (s.wq e t).filter fun f => !s.claimed f.out.handle

/-- An EMLSR peer stays on another link, R217. -/
def State.emlsrBusy (s : State) (r : Nat) (x : StaS) : Bool :=
  x.emlsr && (match x.em with | some (l, u) => l != r && decide (s.ns < u) | none => false)

/-- An EMLSR peer has answered an initial control frame on a link and stays there beyond time a, R217; any other entry needs none. -/
def emOk (r a : Nat) (x : StaS) : Bool := !x.emlsr || (match x.em with | some (l, u) => l == r && decide (a < u) | none => false)

/-- The head deadline of frames in ns from now, late ones first; within a service period its end. -/
def State.headDl (s : State) (e r : Nat) (x : StaS) (l : List WEnt) : Int :=
  match s.spEnd e r x with
  | some t => (t : Int) - s.ns
  | none => l.foldl (fun a f =>
      let d := (f.dl + wMod - s.wNow) % wMod
      min a (if d ≤ wMod / 2 then (d : Int) else (d : Int) - wMod)) (wMod : Int)

/-- Sorted insertion by deadline, then entry. -/
def putDl (l : List (Int × Nat)) (e : Int × Nat) : List (Int × Nat) :=
  match l with
  | [] => [e]
  | f :: t => if e.1 < f.1 || (e.1 = f.1 && e.2 < f.2) then e :: f :: t else f :: putDl t e

/-- C of R221: the entries a plan may serve, in order. -/
def State.planC (s : State) (r ac : Nat) : List Nat :=
  let c := s.wl.sta.filter fun e =>
    !(s.acFrames e.1 r ac e.2).isEmpty && s.awake e.1 r e.2 && !s.emlsrBusy r e.2
  ((c.map fun e => (s.headDl e.1 r e.2 (s.acFrames e.1 r ac e.2), e.1)).foldl putDl []).map fun e => e.2

/-- The number of aligned groups of n clear subchannels. -/
def clearGroups (clear : List Bool) (n : Nat) : Nat :=
  ((List.range (clear.length / n)).filter fun k => (List.range n).all fun j => clear.getD (k * n + j) false).length

/-- RUs(s) of R221 by size code: 0 for 26 tones up to 7 for 3,984, of a channel of 20 MHz subchannels that are clear. -/
def rus (clear : List Bool) (size : Nat) : Nat :=
  let c := clearGroups clear 1
  match size with
  | 0 => 9 * c + clearGroups clear 4
  | 1 => 4 * c
  | 2 => 2 * c
  | n => clearGroups clear (2 ^ (n - 3))

/-- The subchannels of a radio's channel that are neither punctured nor busy. -/
def State.clearSubs (s : State) (r : Nat) (busy : List Nat) : List Bool :=
  let d := s.get (F.WPHY_CHANCUR_CHAN r) / 65536
  (List.range (2 ^ s.chanW r)).map fun k => !bitOf d k && !busy.contains k

/-- Streams a radio can send: its chains less those retired, R378. -/
def State.wStreams (s : State) (r : Nat) : Nat :=
  let base := [0, 4, 12].getD r 0
  let n := [4, 8, 8].getD r 0
  ((List.range n).filter fun k => !s.retired (0x1000 + base + k)).length

/-- The streams of an entry on a radio. -/
def State.staNss (s : State) (r : Nat) (x : StaS) : Nat := max 1 (min (x.caps % 16) (s.wStreams r))

/-- The highest MCS that R196 lets a radio send to an entry: of EHT 0 to 13, and 14 on Radio C, to an MLD or one whose highest MCS is
above 11; of HE 0 to 11 to any other. -/
def mcsTop (r : Nat) (x : StaS) : Nat :=
  let c := bitsOf x.caps 8 4
  if x.mld || 11 < c then min c (if r = 2 then 14 else 13) else c

/-- The MCS that the SNR of an entry on a link allows, R221. -/
def State.mcsBase (s : State) (r : Nat) (x : StaS) : Nat :=
  let have' := (kget x.snr r).getD (-32768) - s.get F.MLD_PLANCFG_LAMARGIN
  (List.range (mcsTop r x + 1)).foldl (fun b m => if s.getI (F.MLD_LATABLE_SNR m) ≤ have' then m else b) 0

/-- The MCS of an entry on a link, R221. -/
def State.staMcs (s : State) (r : Nat) (x : StaS) : Nat := (clampI 0 (mcsTop r x) ((s.mcsBase r x : Int) + (kget x.adj r).getD 0)).toNat

/-- The limit of the transmit power for an MCS of a format in 0.25 dBm, R198. -/
def mcsLimit (r fmt mcs : Nat) : Int :=
  let row : Int := if fmt ≤ 3 || mcs ≤ 7 then 0 else if mcs ≤ 9 then 1 else if mcs ≤ 11 then 2 else 3
  ([96, 92, 88].getD r 0 : Int) - 8 * row

/-- The formats a radio sends, R195, in the code of R206. -/
def wTxFmt (r fmt : Nat) : Bool :=
  match fmt with
  | 2 => r ≤ 1
  | 3 => r == 1
  | 7 => false
  | 9 => false
  | f => f ≤ 8

/-- The formats in which a single user may be sent an MCS: EHT to an MLD or one whose highest MCS is above 11; else HT, VHT or HE, as
the radio sends it and it has the MCS (log entry 63). -/
def suFmts (r mcs : Nat) (x : StaS) : List Nat :=
  if x.mld || 11 < bitsOf x.caps 8 4 then [8]
  else ([2, 3, 4].filter fun f => wTxFmt r f && mcs ≤ (match f with | 2 => 7 | 3 => 9 | _ => 11))

/-- The format of a single-user PPDU: where more than one will do, a pick among them. -/
def State.suFmt (s : State) (r mcs : Nat) (x : StaS) : Nat × State :=
  match suFmts r mcs x with
  | [] => (4, s)
  | [f] => (f, s)
  | l => (l.getD (s.fresh.1 % l.length) 4, s.fresh.2)

/-- The format of a multi-user PPDU: HE MU when every user has an MCS of HE and none is an MLD, else EHT MU (log entry 63). -/
def State.muFmt (s : State) (l : List Nat) : Nat :=
  if l.all fun e => match kget s.wl.sta e with | some x => !x.mld && bitsOf x.caps 8 4 ≤ 11 | none => true then 6 else 8

/-- The octets of frames in a PSDU of a format, R209: in an A-MPDU each has a delimiter, and padding but for the last. -/
def psduLen (fmt : Nat) (l : List Nat) : Nat :=
  if fmt ≤ 1 then l.foldl (fun a n => a + n) 0
  else match l.reverse with
    | [] => 0
    | n :: r => 4 + n + r.foldl (fun a k => a + 4 + (k + 3) / 4 * 4) 0

/-- The time in ns of a non-HT PPDU at 6 Mb/s, R223: 20 µs, then 4 µs for each 24 bits of SERVICE, octets and tail. -/
def nonHtAir (n : Nat) : Nat := 20000 + 4000 * ((8 * n + 22 + 23) / 24)

/-- The time in ns of a PPDU on the air. -/
def airOf (fmt mcs nss ru n : Nat) : Nat := if fmt ≤ 1 && mcs = 0 then nonHtAir n else Config.ppduAir fmt mcs nss ru n

/-- The octets of frames, and their time in one PSDU. -/
def State.octets (s : State) (l : List WEnt) : Nat := l.foldl (fun a f => a + s.frmLen f.out.handle) 0
def State.psduOf (s : State) (fmt : Nat) (hs : List Nat) : Nat := psduLen fmt (hs.map fun h => s.frmLen h)
def State.airHs (s : State) (fmt mcs nss ru : Nat) (hs : List Nat) : Nat := airOf fmt mcs nss ru (s.psduOf fmt hs)

/-- The frames of a list that fit within a time, a block-acknowledgement window of the format (R219) and its largest PSDU, oldest
first. -/
def State.fillTo (s : State) (fmt mcs nss ru d : Nat) (hs : List Nat) : List Nat :=
  (List.range (min (fmtMax fmt).2.1 hs.length + 1)).foldl (fun b n =>
    let l := hs.take n
    if s.airHs fmt mcs nss ru l ≤ d && s.psduOf fmt l ≤ (fmtMax fmt).2.2 then l else b) []

/-- The next start of a quiet turn from now on, as a distance in ns, R230. -/
def State.quietIn (s : State) (r : Nat) : Nat :=
  if r = 0 then ((s.mlc.quiet.filter fun q => s.ns ≤ q.1).map fun q => q.1 - s.ns).foldl min (2 ^ 60) else 2 ^ 60

/-- The TXOP limit of an access category in ns; none where one step is allowed. -/
def State.txopLim (s : State) (r ac : Nat) : Option Nat :=
  let t := s.get (F.WMAC_EDCA_TXOPLIM r ac) * 32000
  if t = 0 then none else some t

/-- The longest PPDU a plan of an access category may use after steps of time used, R220, R221: MAXPPDU, the TXOP time left, and the time
before the next quiet turn. -/
def State.maxPpdu (s : State) (r ac used : Nat) : Nat :=
  let m := min (min 5484 (s.get F.MLD_MAXPPDU_MAX) * 1000) (s.quietIn r - used)
  match s.txopLim r ac with
  | none => m
  | some t => min m (t - used)

/-- The handles of an entry's frames. -/
def handles (l : List WEnt) : List Nat := l.map fun f => f.out.handle

/-- A user of a step with its frames up to D, R221; its power is what the lower MAC requests, a free value, at most the limit of
R198. -/
def State.planUser (s : State) (r ac fmt ru idx d nss e : Nat) : WUser × State :=
  match kget s.wl.sta e with
  | none => ({ sta := e, ru := idx, mcs := 0, nss := nss, pow := 0, frames := [] }, s)
  | some x =>
    let m := s.staMcs r x
    ({ sta := e, ru := idx, mcs := m, nss := nss, pow := min ((s.fresh.1 % 256 : Nat) - 128 : Int) (mcsLimit r fmt m),
       frames := s.fillTo fmt m nss ru d (handles (s.acFrames e r ac x)) }, s.fresh.2)

/-- The users of a step in order. -/
def State.planUsers (s : State) (r ac fmt ru d : Nat) : List (Nat × Nat × Nat) → List WUser × State
  | [] => ([], s)
  | (idx, nss, e) :: l =>
    let p := s.planUser r ac fmt ru idx d nss e
    let q := p.2.planUsers r ac fmt ru d l
    (p.1 :: q.1, q.2)

/-- The longest time any user needs for its queued frames, capped. -/
def State.planD (s : State) (r ac fmt ru cap : Nat) (l : List Nat) : Nat :=
  min cap (l.foldl (fun a e => match kget s.wl.sta e with
    | none => a
    | some x => max a (s.airHs fmt (s.staMcs r x) (s.staNss r x) ru (handles (s.acFrames e r ac x)))) 0)

/-- The streams of an entry in a plan. -/
def State.nssOf (s : State) (r e : Nat) : Nat := match kget s.wl.sta e with | some x => s.staNss r x | none => 1

/-- A step with what answers it. -/
def planStep (r kind fmt ru air : Nat) (us : List WUser) : WStep :=
  { kind := kind, fmt := fmt, users := us, ru := ru, air := air, dur := air + sifs r + Config.respAir kind us.length }

/-- The DLMU or SU step of entries after steps of time used, R221. -/
def State.planDl (s : State) (r ac used : Nat) (clear : List Bool) (c : List Nat) : List WStep × State :=
  let u := c.take (min (min (clampN 1 64 (s.get F.MLD_PLANCFG_MAXUSERS)) (rus clear 0)) 64)
  match u with
  | [] => ([], s)
  | [e] =>
    let sz := (List.range 8).foldl (fun b k => if 1 ≤ rus clear k then k else b) 0
    let f := match kget s.wl.sta e with | some x => s.suFmt r (s.staMcs r x) x | none => (8, s)
    let d := f.2.planD r ac f.1 sz (s.maxPpdu r ac used) [e]
    let p := f.2.planUsers r ac f.1 sz d [(0, f.2.nssOf r e, e)]
    ([planStep r 5 f.1 sz d p.1], p.2)
  | _ =>
    let sz := (List.range 8).foldl (fun b k => if u.length ≤ rus clear k then k else b) 0
    let f := s.muFmt u
    let d := s.planD r ac f sz (s.maxPpdu r ac used) u
    let p := s.planUsers r ac f sz d (((List.range u.length).zip u).map fun e => (e.1, s.nssOf r e.2, e.2))
    ([planStep r 0 f sz d p.1], p.2)

/-- Whether an entry may join a MU-MIMO group but for the age of its feedback, and with it, R222. -/
def State.muCan (s : State) (r ac e : Nat) : Bool :=
  match kget s.wl.sta e with
  | none => false
  | some x => bitOf x.caps 7 && s.get F.MLD_MUCFG_MUMIN ≤ s.octets (s.acFrames e r ac x)
def State.muFresh (s : State) (r e : Nat) : Bool :=
  match kget s.wl.sta e with
  | none => false
  | some x => match kget x.fed r with
    | some t => decide (s.ns ≤ t + s.get F.MLD_MUCFG_SNDAGE * 1000000)
    | none => false

/-- The correlation of two entries, the highest when it has not been measured. -/
def corrOf (l : List (Nat × Nat × Nat)) (a b : Nat) : Nat :=
  match l.find? fun c => (c.1 == a && c.2.1 == b) || (c.1 == b && c.2.1 == a) with
  | some c => c.2.2
  | none => 256

/-- The MU-MIMO group of R222, in the order of the candidates. -/
def State.muGroup (s : State) (r : Nat) (corr : List (Nat × Nat × Nat)) (l : List Nat) : List Nat :=
  (l.foldl (fun g e =>
    match kget s.wl.sta e with
    | none => g
    | some x =>
      let n := min 4 (s.staNss r x)
      if g.1.length < 8 && g.2 + n ≤ min 8 (s.wStreams r) && g.1.all fun m => corrOf corr m e ≤ s.get F.MLD_MUCFG_MUCORR then
        (g.1 ++ [e], g.2 + n)
      else g) (([] : List Nat), 0)).1

/-- A step of trigger, poll or sounding frames to entries, none with data: what it sends, then what answers it. -/
def State.planAsk (s : State) (r kind ru dur : Nat) (es : List (Nat × StaS)) : List WStep :=
  if es.isEmpty then []
  else
    let us := ((List.range es.length).zip es).map fun e =>
      ({ sta := e.2.1, ru := e.1, mcs := s.staMcs r e.2.2, nss := 1, pow := mcsLimit r 1 0, frames := [] } : WUser)
    [{ kind := kind, fmt := 1, users := us, ru := ru, air := Config.trigAir kind es.length, dur := dur }]

/-- Triggers for the open trigger-enabled service periods of a link, R229: TRIG for the entries whose buffer reports show octets,
else BSRP. -/
def State.planTrig (s : State) (r ac : Nat) : List WStep :=
  let lead := s.get F.MLD_TWTCFG_TLEAD * 1000
  let es := (s.wl.sta.filter fun e => s.wl.spOpen.any fun p =>
    bitOf (s.twtW p.1 0) 14 && twtMine (s.twtW p.1 0) e.1 e.2 r && s.ns ≤ p.2.1 + lead)
  let full := es.filter fun e => 0 < (kget e.2.bsr ac).getD 0
  s.planAsk r (if full.isEmpty then 3 else 2) 0 (s.maxPpdu r ac 0) (if full.isEmpty then es else full)

/-- The initial control frame exchange with the EMLSR peers a plan is to serve, R215, R217: a poll that their padding lengthens. -/
def State.planIcf (s : State) (r : Nat) (c : List Nat) : List WStep :=
  let es := c.filterMap fun e => match kget s.wl.sta e with
    | some x => if emOk r s.ns x then none else some (e, x)
    | none => none
  let pad := es.foldl (fun a e => max a e.2.pad) 0
  s.planAsk r 3 0 (Config.trigAir 3 es.length + pad + sifs r + Config.respAir 3 es.length) es

/-- The widest resource unit, or multiple RU, of the channel that avoids punctured and busy subchannels, R222: the whole channel, all the
clear subchannels where the standard allows that pattern, or the widest aligned group of clear ones. -/
def muRu (w : Nat) (clear : List Bool) : Nat :=
  let holes := (List.range clear.length).foldl (fun a k => if clear.getD k false then a else a + 2 ^ k) 0
  if holes = 0 then w + 3
  else if Config.puncOk w holes then 8 + (clear.filter fun b => b).length
  else (List.range (w + 1)).foldl (fun b k => if 0 < clearGroups clear (2 ^ k) then k + 3 else b) 2

/-- The time of plan steps with SIFS between them. -/
def stepsTime (r : Nat) : List WStep → Nat
  | [] => 0
  | [x] => x.dur
  | x :: l => x.dur + sifs r + stepsTime r l

/-- The time before the next step begins. -/
def stepsUsed (r : Nat) (l : List WStep) : Nat := if l.isEmpty then 0 else stepsTime r l + sifs r

/-- The steps for the oldest group frame of each BSS of a radio, R215: a non-HT PPDU on AC_BE (log entry 63). -/
def State.planGrp (s : State) (r : Nat) : List WStep :=
  (List.range 16).filterMap fun b => match (s.gq r b).filter fun f => !s.claimed f.out.handle with
    | [] => none
    | f :: _ =>
      let h := f.out.handle
      some { kind := 5, fmt := 0, ru := 3, air := nonHtAir (s.frmLen h), dur := nonHtAir (s.frmLen h),
             users := [{ sta := 1024 + b, ru := 0, mcs := 0, nss := 1, pow := mcsLimit r 0 0, frames := [h] }] }

/-- TIDs that have frames and no available link, R217. -/
def State.noLink (s : State) (ac : Nat) : Nat :=
  (s.wl.sta.flatMap fun e => (List.range 16).filter fun t => tidAc t == ac && !(s.wq e.1 t).isEmpty
    && !((List.range 3).any fun r => mapAllows e.2 t r && s.linkUp r)).length

/-- The steps of a new plan, R220 to R222: sounding first, then group frames, exchanges with EMLSR peers and triggers, the MU-MIMO group,
the rest. -/
def State.planMake (s : State) (r ac : Nat) (inp : PlanIn) : List WStep × State :=
  let clear := s.clearSubs r (s.ccaBusy r inp.energy)
  let c := if s.linkUp r then s.planC r ac else []
  let can := c.filter fun e => 1 ≤ r && s.muCan r ac e
  let g := s.muGroup r inp.corr (can.filter fun e => s.muFresh r e)
  let g := if g.length < 2 then [] else g
  let stale := (can.filter fun e => !s.muFresh r e).filterMap fun e => (kget s.wl.sta e).map fun x => (e, x)
  let ru := muRu (s.chanW r) clear
  let snd := if stale.length < 2 then [] else s.planAsk r 4 ru (s.maxPpdu r ac 0) (stale.take 8)
  let pre := snd ++ (if ac = 1 then s.planGrp r else []) ++ s.planIcf r c ++ s.planTrig r ac
  let mu : List WStep × State := if g.isEmpty then ([], s)
    else
      let f := s.muFmt g
      let d := s.planD r ac f ru (s.maxPpdu r ac (stepsUsed r pre)) g
      let p := s.planUsers r ac f ru d (g.map fun e => (0, min 4 (s.nssOf r e), e))
      ([planStep r 1 f ru d p.1], p.2)
  let pre := pre ++ mu.1
  let dl := mu.2.planDl r ac (stepsUsed r pre) clear (c.filter fun e => !g.contains e)
  ((pre ++ dl.1).take 16, dl.2)

/-- PLAN_REVISE, R220 to R222. The dock holds the newest plan alone, of whatever age (log entry 64). -/
def State.planRev (s : State) (r ac : Nat) (inp : PlanIn) : State :=
  let k := 4 * r + ac
  let ivl := max 10 (s.get F.MLD_PLANCFG_MINIVL) * 1000
  let early := match kget s.wl.revAt k with | some t => decide (s.ns < t + ivl) | none => false
  if !s.enabled W.MLD || 2 < r || 3 < ac || early then s
  else
    let s := (List.range (s.noLink ac)).foldl (fun t _ => (t.mldCnt 2).raise W.MLD E.MLD_NOLINK) s
    let p := s.planMake r ac inp
    let t := p.2
    t.setWl { t.wl with plans := if p.1.isEmpty then kdel t.wl.plans k else kset t.wl.plans k { at' := s.ns, steps := p.1 },
                        revAt := kset t.wl.revAt k s.ns, inp := kset t.wl.inp r inp }

def execPlanRevise (r ac : Nat) (inp : PlanIn) (s : State) : Host.Outcome State Fault Refusal := .next (s.planRev r ac inp)

end Sys2Proof.Machine
end

