-- ==== Sys2Proof/Machine/Shp.lean ====
section
/-!
DEFINITION. The shapers and what EMAC starts: class queues, the timed list, credits, turn lists, frame boundaries, PAUSE frames
sent and low-power idle: spec/13, R274 to R286, and of spec/14 R291, R295, R296, R298, R299.
-/

namespace Sys2Proof.Machine

/-! Ports -/

def shp0 : ShpS :=
  { q := [], timed := [], credit := [], mark := 0, cfg := List.replicate 8 (0, 20, 256, 0), dirty := false, wrote := none,
    start := none, swit := none, tx := none }

def emac0 : EmacS := { rx := none, pause := [], want := none, sent := none, speed := 2, busyAt := 0, wake := 0 }

def State.shpOf (s : State) (n : Nat) : ShpS := (kget s.shp n).getD shp0
def State.setShp (s : State) (n : Nat) (x : ShpS) : State := { s with shp := kset s.shp n x }
def State.emacOf (s : State) (n : Nat) : EmacS := (kget s.emac n).getD emac0
def State.setEmac (s : State) (n : Nat) (x : EmacS) : State := { s with emac := kset s.emac n x }

/-- Counter n of SHP and of EMAC. -/
def State.shpCnt (s : State) (n k : Nat) : State := s.bump (W.SHP n) (0x140 + 4 * k) E.SHP_CNTSAT
def State.emacCnt (s : State) (n k : Nat) : State := s.bump (W.EMAC n) (0x1C0 + 4 * k) E.EMAC_CNTSAT

/-- Counter k of EMAC_STAT counts v: a saturating counter of 63 bits, R73. -/
def State.emacStat (s : State) (n k v : Nat) : State :=
  let m := 2 ^ 63 - 1
  let c := s.get (F.EMAC_STAT_W0_COUNT n k) + s.get (F.EMAC_STAT_W1_COUNT n k) * 2 ^ 32
  let d := min m (c + v)
  let t := s.sets [(F.EMAC_STAT_W0_COUNT n k, d % 2 ^ 32), (F.EMAC_STAT_W1_COUNT n k, d / 2 ^ 32)]
  if d = m && c ≠ m then (t.set (F.EMAC_STAT_W1_OVF n k) 1).raise (W.EMAC n) E.EMAC_CNTSAT else t

/-- A bit of EMAC_STICKY is set; STICKY is raised when it was 0. -/
def State.sticky (s : State) (n : Nat) (f : Fld) : State :=
  (s.set f 1).raiseIf (!s.on f) (W.EMAC n) E.EMAC_STICKY

/-- Elapsed time in 2^-16 ns, in which credits, pause timers and air times run. -/
def State.el (s : State) : Nat := s.tm.mono * 65536

/-- The port rate in kb/s; 0 while the link is down, R292. -/
def State.rate (s : State) (n : Nat) : Nat := s.get (F.SHP_PORTRATE_RATE n)

/-- The time of a number of octets at the port rate in 2^-16 ns, R276. -/
def State.air16 (s : State) (n octets : Nat) : Nat := octets * 8 * 1000000 * 65536 / max 1 (s.rate n)

/-- Pause quanta in 2^-16 ns: 512 bit times each. -/
def State.quanta16 (s : State) (n q : Nat) : Nat := s.air16 n (64 * q)

def State.shpQ (s : State) (n c : Nat) : List SEnt := (kget (s.shpOf n).q c).getD []
def State.setShpQ (s : State) (n c : Nat) (l : List SEnt) : State :=
  let x := s.shpOf n
  s.setShp n { x with q := if l.isEmpty then kdel x.q c else kset x.q c l }

/-- MODE, OVERHEAD, QLIM and IDLESLOPE in force for a class, R278. -/
def State.shpCfg (s : State) (n c : Nat) : Nat × Nat × Nat × Nat := (s.shpOf n).cfg.getD c (0, 20, 256, 0)

/-- The credit of a class in 2^-16 bits. -/
def State.credit (s : State) (n c : Nat) : Int := (kget (s.shpOf n).credit c).getD 0

/-- Whether a class is paused, R297. -/
def State.paused (s : State) (n c : Nat) : Bool := (kget (s.emacOf n).pause c).isSome

/-- Whether a gate is open in the entry in force, R280. -/
def State.gateOpen (s : State) (n c : Nat) : Bool := bitOf (s.get (F.SHP_TLSTAT_GATES n)) c

/-- The octets on the medium for a frame of a given LENGTH, R276, R295. -/
def wireLen (len : Nat) : Nat := if len < 64 then 64 else len

/-- The counted length L of a frame of a class, R276. -/
def State.cntLen (s : State) (n c h : Nat) : Nat := wireLen (s.frmLen h) + (s.shpCfg n c).2.1

/-! Credits, R277 to R279 -/

/-- The credit after dt of 2^-16 ns in which no frame of the class is sent: held, drained to 0 or rising. -/
def creditRest (held empty : Bool) (slope dt : Nat) (cr : Int) : Int :=
  let up := cr + (slope * dt / 1000000 : Nat)
  if held then cr else if empty then (if 0 < cr then 0 else min 0 up) else min ((2 ^ 31 - 1) * 65536) up

/-- The credit after dt of 2^-16 ns in which a frame of the class is sent. -/
def creditSend (slope rate dt : Nat) (cr : Int) : Int :=
  max (-(2 ^ 31 * 65536)) (min ((2 ^ 31 - 1) * 65536) (cr + ((slope : Int) - rate) * dt / 1000000))

/-- Credits are computed up to now, under what has held since they last were, R278. -/
def State.shpSync (s : State) (n : Nat) : State :=
  let x := s.shpOf n
  let fin := match x.tx with | some t => min s.el (t.beg + s.air16 n t.len) | none => x.mark
  let one := fun c =>
    let g := s.shpCfg n c
    let held := !s.gateOpen n c || s.paused n c
    let e := (s.shpQ n c).isEmpty
    let cr := s.credit n c
    match x.tx with
    | some t =>
      if t.ent.isSome && t.cls == c then
        creditRest held e g.2.2.2 (s.el - max x.mark fin) (creditSend g.2.2.2 (s.rate n) (fin - x.mark) cr)
      else creditRest held e g.2.2.2 (s.el - x.mark) cr
    | none => creditRest held e g.2.2.2 (s.el - x.mark) cr
  let cr := (List.range 8).foldl (fun l c => if (s.shpCfg n c).1 = 1 then kset l c (one c) else l) x.credit
  s.setShp n { x with credit := cr, mark := s.el }

/-- The idle slopes of the CBS classes of a parameter list sum to no more than the port rate; with the link down there is no port
rate to hold them against (log entry 16). -/
def State.slopesFit (s : State) (n : Nat) (l : List (Nat × Nat × Nat × Nat)) : Bool :=
  s.rate n == 0 || (l.foldl (fun a g => if g.1 = 1 then a + g.2.2.2 else a) 0) ≤ s.rate n

/-- The parameters in the registers. -/
def State.shpRegs (s : State) (n : Nat) : List (Nat × Nat × Nat × Nat) :=
  (List.range 8).map fun c => (s.get (F.SHP_CLASS_MODE n c), s.get (F.SHP_CLASS_OVERHEAD n c),
    max 1 (s.get (F.SHP_CLASS_QLIM n c)), min 25000000 (s.get (F.SHP_IDLE_IDLESLOPE n c)))

/-- SLOPEREF is raised and SLOPEBAD set. -/
def State.slopeBad (s : State) (n : Nat) : State := (s.set (F.SHP_TLCTL_SLOPEBAD n) 1).raise (W.SHP n) E.SHP_SLOPEREF

/-- A refill takes a write that waits, and looks again while SLOPEBAD is 1, R278, R279; a write at the same instant waits for the next. -/
def State.refill (s : State) (n : Nat) : State :=
  let x := s.shpOf n
  let l := s.shpRegs n
  if (!x.dirty && !s.on (F.SHP_TLCTL_SLOPEBAD n)) || x.wrote == some s.tm.mono then s
  else if s.slopesFit n l then
    let cr := (List.range 8).foldl (fun k c => if (l.getD c (0, 0, 0, 0)).1 = (s.shpCfg n c).1 then k else kdel k c) x.credit
    (s.setShp n { x with cfg := l, dirty := false, credit := cr }).set (F.SHP_TLCTL_SLOPEBAD n) 0
  else if x.dirty then (s.setShp n { x with dirty := false }).slopeBad n
  else s

/-! Turn lists, R280 to R283 -/

/-- Base, cycle and count of a bank. -/
def State.tlBase (s : State) (n b : Nat) : Nat :=
  nsOf (s.get (F.SHP_BASESECLO_SEC n b)) (s.get (F.SHP_BASESECHI_SEC n b)) (s.get (F.SHP_BASENS_NS n b))
def State.tlCycle (s : State) (n b : Nat) : Nat := s.get (F.SHP_CYCLE_CYCLE n b)
def State.tlCount (s : State) (n b : Nat) : Nat := s.get (F.SHP_COUNT_COUNT n b)

/-- The entries of a bank that apply in a cycle as (entry, gates, start, end), R280; acc is the sum of the intervals before. -/
def State.tlPieces (s : State) (n b : Nat) : Nat → Nat → List (Nat × Nat × Nat × Nat)
  | 0, _ => []
  | k + 1, acc =>
    let j := s.tlCount n b - (k + 1)
    let e := if k = 0 then s.tlCycle n b else min (s.tlCycle n b) (acc + s.get (F.SHP_TURN_INTERVAL n b j))
    if s.tlCycle n b ≤ acc then [] else (j, s.get (F.SHP_TURN_GATES n b j), acc, e) :: s.tlPieces n b k e

def State.pieces (s : State) (n b : Nat) : List (Nat × Nat × Nat × Nat) := s.tlPieces n b (min 256 (s.tlCount n b)) 0

/-- The offset of time t in the cycle of a bank. -/
def State.tlOfs (s : State) (n b t : Nat) : Nat := (((t : Int) - s.tlBase n b) % (max 1 (s.tlCycle n b) : Nat)).toNat

/-- The entry of a bank and its gates at time t, R280, R282. -/
def State.tlAt (s : State) (n b t : Nat) : Nat × Nat :=
  match (s.pieces n b).find? fun p => s.tlOfs n b t < p.2.2.2 with
  | some p => (p.1, p.2.1)
  | none => (0, 255)

/-- The first time from t on at which a class's gate is closed in a bank; none when it never is. -/
def State.closeIn (s : State) (n b c t : Nat) : Option Nat :=
  let o := s.tlOfs n b t
  let l := (s.pieces n b).filter fun p => !bitOf p.2.1 c
  match l.find? fun p => o < p.2.2.2 with
  | some p => some (t + (p.2.2.1 - o))
  | none => l.head?.map fun p => t + (s.tlCycle n b - o) + p.2.2.1

/-- The close of a class's gate from time t on: of the list in force, and from the start of a pending switch on of the new list, R276, R281. -/
def State.closeAt (s : State) (n c t : Nat) : Option Nat :=
  let old := if s.on (F.SHP_TLCTL_RUNNING n) then s.closeIn n (s.get (F.SHP_TLCTL_ACTIVE n)) c t else none
  match (s.shpOf n).swit with
  | none => old
  | some (at', b) =>
    match old with
    | some x => if x < at' then some x else s.closeIn n b c (max t at')
    | none => s.closeIn n b c (max t at')

/-- The longest unbroken open interval of a class in pieces taken twice, for the wrap. -/
def longest (c : Nat) (l : List (Nat × Nat × Nat × Nat)) : Nat :=
  ((l ++ l).foldl (fun (a : Nat × Nat) p =>
    let r := if bitOf p.2.1 c then a.2 + (p.2.2.2 - p.2.2.1) else 0
    (max a.1 r, r)) (0, 0)).1

/-- A frame of counted length L can never pass its gate, R283. -/
def State.neverFits (s : State) (n c len : Nat) : Bool :=
  let l := s.pieces n (s.get (F.SHP_TLCTL_ACTIVE n))
  s.on (F.SHP_TLCTL_RUNNING n) && l.any (fun p => !bitOf p.2.1 c) && longest c l * 65536 < s.air16 n len

/-- The gates follow the active list at the present time. -/
def State.tlShow (s : State) (n : Nat) : State :=
  if s.on (F.SHP_TLCTL_RUNNING n) then
    let e := s.tlAt n (s.get (F.SHP_TLCTL_ACTIVE n)) s.ns
    (s.set (F.SHP_TLSTAT_ENTRY n) e.1).set (F.SHP_TLSTAT_GATES n) e.2
  else (s.set (F.SHP_TLSTAT_ENTRY n) 0).set (F.SHP_TLSTAT_GATES n) 255

/-- The cause with which the check of a bank fails, or 0, R281. -/
def State.tlCause (s : State) (n b : Nat) : Nat :=
  let k := s.tlCount n b
  if k = 0 || 256 < k then 1
  else if s.tlCycle n b < 1000 || 1000000000 < s.tlCycle n b then 2
  else if (List.range k).any fun j => s.get (F.SHP_TURN_INTERVAL n b j) == 0 then 3
  else 0

/-- The first base + k × CYCLE of a bank at least 10 µs from now. -/
def State.tlFirst (s : State) (n b : Nat) : Nat :=
  let m := s.ns + 10000
  let base := s.tlBase n b
  let c := max 1 (s.tlCycle n b)
  if m ≤ base then base else base + (m - base + c - 1) / c * c

/-- SHP_TLSTART shows a time. -/
def State.tlTell (s : State) (n t : Nat) : State :=
  s.sets [(F.SHP_TLSTARTNS_NS n, t % 1000000000), (F.SHP_TLSTARTSECLO_SEC n, t / 1000000000 % 2 ^ 32),
    (F.SHP_TLSTARTSECHI_SEC n, t / 1000000000 / 2 ^ 32)]

/-- The active bank is bound to start. -/
def State.tlArm (s : State) (n b : Nat) : State :=
  (s.setShp n { s.shpOf n with start := some (s.tlFirst n b, b) }).tlTell n (s.tlFirst n b)

/-- A bank is bound to replace the active one. -/
def State.tlArmSwap (s : State) (n b : Nat) : State :=
  (s.setShp n { s.shpOf n with swit := some (s.tlFirst n b, b) }).tlTell n (s.tlFirst n b)

/-- A check fails: CAUSE and TLREF. -/
def State.tlRefuse (s : State) (n cause : Nat) : State := (s.set (F.SHP_TLCTL_CAUSE n) cause).raise (W.SHP n) E.SHP_TLREF

/-- EN is written 1 over 0: the active bank is checked, R281. -/
def State.tlOn (s : State) (n : Nat) : State :=
  let b := s.get (F.SHP_TLCTL_ACTIVE n)
  match s.tlCause n b with
  | 0 => (s.set (F.SHP_TLCTL_CAUSE n) 0).tlArm n b
  | c => (s.set (F.SHP_TLCTL_EN n) 0).tlRefuse n c

/-- EN is written 0: every gate opens and a pending start is cancelled, R281. -/
def State.tlOff (s : State) (n : Nat) : State :=
  (((s.setShp n { s.shpOf n with start := none, swit := none }).set (F.SHP_TLCTL_RUNNING n) 0).set (F.SHP_TLCTL_SWPEND n) 0).tlShow n

/-- SWITCH is written 1, R281. -/
def State.tlSwap (s : State) (n : Nat) : State :=
  let b := 1 - s.get (F.SHP_TLCTL_ACTIVE n)
  if s.on (F.SHP_TLCTL_SWPEND n) then s.raise (W.SHP n) E.SHP_TLBUSY
  else match s.tlCause n b with
    | 0 =>
      let t := s.set (F.SHP_TLCTL_CAUSE n) 0
      if t.on (F.SHP_TLCTL_EN n) then (t.set (F.SHP_TLCTL_SWPEND n) 1).tlArmSwap n b else t.set (F.SHP_TLCTL_ACTIVE n) b
    | c => s.tlRefuse n c

/-! Frames that end in the shaper, R274, R283 to R285 -/

/-- A frame ends with a status and no stamp. -/
def State.shpEnd (s : State) (e : SEnt) (status : Nat) : State := s.outDone e.out e.miss status none

/-- A timed frame is refused LATE or FAR, counted in EMAC, R285. -/
def State.shpLate (s : State) (n : Nat) (e : SEnt) (far : Bool) : State :=
  (s.emacCnt n (if far then 10 else 9)).shpEnd e (if far then 2 else 1)

/-- Every frame held ends FLUSHED and every credit is 0, R284. -/
def State.shpFlush (s : State) (n : Nat) : State :=
  let x := s.shpOf n
  let l := x.q.flatMap (fun e => e.2) ++ x.timed
  let t := s.setShp n { x with q := [], timed := [], credit := [] }
  (l.foldl (fun t e => (t.shpCnt n 3).shpEnd e 6) t).raiseIf (!l.isEmpty) (W.SHP n) E.SHP_FLUSH

/-- Heads of a class that can never pass its gate end GATEDROP. -/
def State.gateDrops (s : State) (n c : Nat) : List SEnt → State
  | [] => s
  | e :: l =>
    if s.neverFits n c (s.cntLen n c e.out.handle) then
      ((((s.setShpQ n c l).shpCnt n 1).raise (W.SHP n) E.SHP_GATEDROP).shpEnd e 4).gateDrops n c l
    else s

/-! Sending, R275, R295 to R299 -/

/-- Whether EMAC may start a frame: both blocks enabled, TXEN, the link up, no electrical idle, not in LPI, the port idle. -/
def State.canStart (s : State) (n : Nat) : Bool :=
  s.enabled (W.SHP n) && s.enabled (W.EMAC n) && s.on (F.EMAC_CFG_TXEN n) && s.on (F.EMAC_LINK_UP n)
    && !s.on (F.LANE_CTRL2_EIDLE n) && !s.on (F.EMAC_LINK_TXLPI n) && (s.emacOf n).wake ≤ s.tm.mono && (s.shpOf n).tx.isNone

/-- The status with which a frame is not sent, or 0, R295. -/
def State.txBad (s : State) (n h : Nat) : Nat :=
  let len := s.frmLen h
  if len < 18 then 9
  else if s.get (F.EMAC_MAXLEN_MAXLEN n) < len then 8
  else if s.ueIn (handleAddr h + 64) len then 10
  else 0

/-- What EMAC records for a status of R296. -/
def State.txNote (s : State) (n h status : Nat) : State :=
  match status with
  | 8 => (s.sticky n (F.EMAC_STICKY_TXLONG n)).emacCnt n 8
  | 10 => ((s.ueHit (handleAddr h + 64) (s.frmLen h)).sticky n (F.EMAC_STICKY_MEMERR n)).emacCnt n 11
  | 11 => s.emacCnt n 13
  | _ => s

/-- Whether the port stamps: its TIME_TSMODE bit, and not SGMII at 10 or 100 Mb/s, R85. -/
def State.ethMedium (s : State) (n : Nat) : Bool := bitOf (s.get F.TIME_TSMODE_EMAC) n && 1000000 ≤ s.rate n

/-- The mode of a lane, R287. -/
def State.laneMode (s : State) (n : Nat) : Nat := s.get (F.LANE_MODE_MODE n)

/-- The transmit and the receive correction of a lane in 0.1 ns by mode and FEC in force, R87. -/
def State.ethCorr (s : State) (n : Nat) : Nat × Nat :=
  match s.laneMode n, s.get (F.LANE_STAT_FECUSED n) with
  | 1, _ => (1520, 2800)
  | 2, _ => (1520, 2800)
  | 3, _ => (640, 1160)
  | 4, _ => (880, 1500)
  | 5, _ => (528, 864)
  | 6, 1 => (1552, 2912)
  | 6, _ => (528, 864)
  | _, 1 => (794, 1430)
  | _, 2 => (1216, 2496)
  | _, _ => (384, 612)

/-- The receive correction in 2^-16 ns. -/
def State.ethRxCorr (s : State) (n : Nat) : Nat := (s.ethCorr n).2 * 65536 / 10

/-- The transmit correction in 2^-16 ns. -/
def State.ethTxCorr (s : State) (n : Nat) : Nat := (s.ethCorr n).1 * 65536 / 10

/-- The departure stamp of a frame whose first bit after the start-of-frame delimiter leaves at a in 2^-16 ns, R86, R87 (log entry
15). -/
def State.ethDepart (s : State) (n a : Nat) : Nat :=
  if s.ethMedium n then moveStamp a (s.getI (F.TIME_ETRIM_TX n) * 16384) else 0

/-- Octets with their FCS in transmission order, R295. -/
def withFcs (l : List Byte) : List Byte := l ++ toLE 4 (crc32 l)

/-! One-step PTP, R91 (the layouts of IEEE 1588, IEEE 802.1Q, IPv4, IPv6 and UDP, log entry 58) -/

/-- Where a frame has its EtherType, after up to two IEEE 802.1Q tags. -/
def etherAt (l : List Byte) : Nat :=
  let tag := fun (k : Nat) => ofBE ((l.drop k).take 2) == 0x8100 || ofBE ((l.drop k).take 2) == 0x88A8
  if !tag 12 then 12 else if !tag 16 then 16 else 20

/-- The octet at which a frame's PTP message begins with the octet at which its UDP checksum stands and whether that is over IPv6: for
Ethernet no checksum. -/
def ptpAt (l : List Byte) : Option (Nat × Option (Nat × Bool)) :=
  let e := etherAt l
  let o := fun (k : Nat) => (l.getD k 0).toNat
  let ptp := fun (u : Nat) => ofBE ((l.drop (u + 2)).take 2) == 319
  match ofBE ((l.drop e).take 2) with
  | 0x88F7 => some (e + 2, none)
  | 0x0800 => if o (e + 2) = 0x45 && o (e + 11) = 17 && ptp (e + 22) then some (e + 30, some (e + 28, false)) else none
  | 0x86DD => if o (e + 2) / 16 = 6 && o (e + 8) = 17 && ptp (e + 42) then some (e + 50, some (e + 48, true)) else none
  | _ => none

/-- The sum of 16-bit words of which the UDP checksum is the complement. -/
def ocSum : List Byte → Nat
  | [] => 0
  | [a] => a.toNat * 256 % 65535
  | a :: b :: l => (a.toNat * 256 + b.toNat + ocSum l) % 65535

/-- Octets put in place of those of a list from octet k. -/
def octPut (l : List Byte) (k : Nat) (d : List Byte) : List Byte := l.take k ++ d ++ l.drop (k + d.length)

/-- The message of a one-step Sync or Pdelay_Resp with its time written, R91: originTimestamp and the fraction in correctionField, or the
residence time in correctionField; any other message is none. -/
def ptpTime (m : List Byte) (stamp ingress : Nat) : Option (List Byte) :=
  let typ := (m.getD 0 0).toNat % 16
  let corr := fun (d : Int) => octPut m 8 (toBE 8 (((ofBE ((m.drop 8).take 8) : Int) + d) % 2 ^ 64).toNat)
  if bitOf (m.getD 6 0).toNat 1 then none
  else if typ = 0 then
    some (octPut (corr (stamp % 65536 : Nat)) 34 (toBE 6 (stamp / 65536 / 1000000000) ++ toBE 4 (stamp / 65536 % 1000000000)))
  else if typ = 3 then some (corr ((stamp : Int) - ingress))
  else none

/-- A frame without its FCS as EMAC sends it in medium mode, R91: with UDP over IPv4 the checksum is 0; over IPv6 the two octets after
the message take the value that keeps it. -/
def oneStep (l : List Byte) (stamp ingress : Nat) : List Byte :=
  match ptpAt l with
  | none => l
  | some (k, udp) => match ptpTime (l.drop k) stamp ingress with
    | none => l
    | some m =>
      let r := l.take k ++ m
      match udp with
      | none => r
      | some (c, false) => octPut r c [0, 0]
      | some (_, true) =>
        let n := ofBE (((l.drop k).drop 2).take 2)
        if l.length < k + n + 2 then r
        else
          let z := octPut r (k + n) [0, 0]
          octPut r (k + n) (toBE 2 ((ocSum ((l.drop k).take (n + 2)) + 65535 - ocSum ((z.drop k).take (n + 2))) % 65535))

/-- The octets EMAC sends of a frame: padded to 60, with one-step insertion but where IEEE 802.1AE is enabled, and the FCS: R91,
R92, R295. -/
def State.wire (s : State) (n h stamp ingress : Nat) : List Byte :=
  let l := s.peeks (handleAddr h + 64) (s.frmLen h - 4)
  let l := l ++ List.replicate (60 - l.length) 0
  withFcs (if stamp = 0 || bitOf (s.get F.SEC_MACSEC_EN) n then l else oneStep l stamp ingress)

/-- A frame of class c starts; at' is its launch time in ns, when it is timed. An untimed one is captured as its first bit after the
start-of-frame delimiter is sent, and crosses the reference plane by the transmit correction later, R86, R87. -/
def State.ethSend (s : State) (n c : Nat) (e : SEnt) (at' : Option Nat) : State :=
  let ev := match at' with | some t => t * 65536 | none => s.now16 + s.air16 n 8 + s.ethTxCorr n
  let st := s.ethDepart n ev
  s.setShp n { s.shpOf n with tx := some { ent := some e, cls := c, beg := s.el, len := s.cntLen n c e.out.handle,
                                           data := s.wire n e.out.handle st e.out.ingress, stamp := st } }

/-- Octets of a MAC address register pair. -/
def State.stAddr (s : State) (n : Nat) : List Byte := toLE 4 (s.get (F.EMAC_ADDRLO_ADDR n)) ++ toLE 2 (s.get (F.EMAC_ADDRHI_ADDR n))

/-- A PAUSE or PFC frame with its FCS, R298. -/
def State.pauseFrame (s : State) (n q cls : Nat) : List Byte :=
  let hd : List Byte := [1, 0x80, 0xC2, 0, 0, 1] ++ s.stAddr n ++ [0x88, 0x08]
  let b := if s.get (F.EMAC_CFG_FCMODE n) = 2 then
      hd ++ toBE 2 0x0101 ++ toBE 2 cls ++ (List.range 8).flatMap fun c => toBE 2 (if bitOf cls c then q else 0)
    else hd ++ toBE 2 1 ++ toBE 2 q
  withFcs (b ++ List.replicate (60 - b.length) 0)

/-- The requested PAUSE frame starts. -/
def State.pauseStart (s : State) (n q cls : Nat) : State :=
  let x := s.emacOf n
  let t := (s.setEmac n { x with want := none, sent := some (q, cls, s.tm.mono) }).set (F.EMAC_TXPAUSE_PENDING n) 0
  (t.setShp n { t.shpOf n with tx := some { ent := none, cls := 0, beg := s.el, len := 84, data := s.pauseFrame n q cls, stamp := 0 } }).emacCnt n 7

/-- The first launch time of the timed list. -/
def State.firstT (s : State) (n : Nat) : Option Nat :=
  (s.shpOf n).timed.foldl (fun (a : Option Nat) e => match a with | some t => some (min t e.at') | none => some e.at') none

/-- A frame of air time d in 2^-16 ns ends before every pending launch, R90. -/
def State.beforeT (s : State) (n d : Nat) : Bool :=
  match s.firstT n with
  | some t => s.now16 + d ≤ t * 65536
  | none => true

/-- A class is eligible, R275. -/
def State.eligible (s : State) (n c : Nat) : Bool :=
  match s.shpQ n c with
  | [] => false
  | e :: _ =>
    let d := s.air16 n (s.cntLen n c e.out.handle)
    s.gateOpen n c && !s.paused n c
      && ((s.shpCfg n c).1 == 0 || s.on (F.SHP_TLCTL_SLOPEBAD n) || 0 ≤ s.credit n c)
      && (!s.on (F.SHP_TLCTL_RUNNING n) || (match s.closeAt n c s.ns with | some x => decide (s.now16 + d ≤ x * 65536) | none => true))
      && s.beforeT n d

/-- Takes a timed frame off the list. -/
def State.timedDel (s : State) (n : Nat) (e : SEnt) : State :=
  let x := s.shpOf n
  s.setShp n { x with timed := x.timed.erase e }

/-- The class of an output for EMAC. -/
def outCls (o : Out) : Nat := bitsOf o.queue 3 3

/-- A timed frame whose launch time has come goes, or ends LATE, R15, R89: within the 8 ns of R28, on an idle port that may start,
its class neither paused nor closed. -/
def State.timedGo (s : State) (n : Nat) (e : SEnt) : State :=
  let c := outCls e.out
  let t := s.timedDel n e
  if e.at' + 8 < s.ns || !t.canStart n || t.paused n c || !t.gateOpen n c then t.shpLate n e false
  else match t.txBad n e.out.handle with
    | 0 => t.ethSend n c e (some e.at')
    | st => (t.txNote n e.out.handle st).shpEnd e st

/-- Timed frames whose launch time has come, at a frame boundary. -/
def State.timedDue (s : State) (n : Nat) : State :=
  if !s.canStart n then s
  else match (s.shpOf n).timed.find? fun e => e.at' ≤ s.ns && s.ns ≤ e.at' + 8 with
    | some e => s.timedGo n e
    | none => s

/-- The head of class c starts, or is refused; whether to look again. -/
def State.pickTake (s : State) (n c : Nat) : Bool × State :=
  match s.shpQ n c with
  | [] => (false, s)
  | e :: l =>
    let t := s.setShpQ n c l
    match t.txBad n e.out.handle with
    | 0 => (false, t.ethSend n c e none)
    | st => (true, (t.txNote n e.out.handle st).shpEnd e st)

/-- The highest class whose head may start, once frames that no window fits are dropped. -/
def State.pickClass (s : State) (n : Nat) : Bool × State :=
  let s := (List.range 8).foldl (fun t c => t.gateDrops n c (t.shpQ n c)) s
  match [7, 6, 5, 4, 3, 2, 1, 0].find? fun c => s.eligible n c with
  | none => (false, s)
  | some c => s.pickTake n c

/-- A pause frame that waits goes before any other. -/
def State.pickNext (s : State) (n : Nat) (want : Option (Nat × Nat)) : Bool × State :=
  match want with
  | some (q, cls) => (false, if s.beforeT n (s.air16 n 84) then s.pauseStart n q cls else s)
  | none => s.pickClass n

/-- What an idle port starts, R275, R298; at most k frames end unsent on the way. -/
def State.shpPick (s : State) (n : Nat) : Nat → State
  | 0 => s
  | k + 1 =>
    if !s.canStart n then s
    else
      let p := s.pickNext n (s.emacOf n).want
      if p.1 then p.2.shpPick n k else p.2

/-- Whether nothing keeps EMAC from LPI, R299. -/
def State.lpiQuiet (s : State) (n : Nat) : Bool :=
  let x := s.shpOf n
  x.q.isEmpty && x.tx.isNone && (s.emacOf n).want.isNone
    && (match s.firstT n with | some t => decide (s.ns + 1000 * (s.get (F.EMAC_EEE_TWSYS n) + 2) < t) | none => true)

/-- The state of a port is brought up to now before anything about it changes. -/
def State.portSync (s : State) (n : Nat) : State :=
  let t := s.shpSync n
  if s.lpiQuiet n then t else t.setEmac n { t.emacOf n with busyAt := s.tm.mono }

/-- An idle port starts what it may: a timed frame first, R275. -/
def State.shpGo (s : State) (n : Nat) : State :=
  let t := (s.timedDue n)
  t.shpPick n (1 + (t.shpOf n).q.foldl (fun a e => a + e.2.length) 0)

/-- FRAME_BOUNDARY, R275, R295, R296: what EMAC sends has left, and the next starts. -/
def State.boundaryOp (s : State) (n : Nat) : State :=
  let s := s.portSync n
  match (s.shpOf n).tx with
  | none => s.shpGo n
  | some x =>
    if s.el < x.beg + s.air16 n x.len then s
    else
      let t := s.setShp n { s.shpOf n with tx := none }
      let t := if t.on (F.LANE_CTRL2_EIDLE n) then t.set (F.LANE_STAT_IDLE n) 1 else t
      match x.ent with
      | none => t.shpGo n
      | some e =>
        let st := if t.ueIn (handleAddr e.out.handle + 64) (t.frmLen e.out.handle) then 10 else 0
        let t := ((t.emacStat n 2 1).emacStat n 3 x.data.length).txNote n e.out.handle st
        (t.outDone e.out e.miss st (if x.stamp = 0 then none else some x.stamp)).shpGo n

def execFrameBoundary (n : Nat) (s : State) : Host.Outcome State Fault Refusal := .next (if n < 8 then s.boundaryOp n else s)

/-- LAUNCH_TIME_REACHED of an Ethernet frame, R89. -/
def State.shpLaunch (s : State) (n h : Nat) : State :=
  let s := s.portSync n
  match (s.shpOf n).timed.find? fun e => e.out.handle == h && e.at' ≤ s.ns with
  | some e => (s.timedGo n e).shpGo n
  | none => s

/-- SHP_ENQUEUE, R89, R274, R284: a released output for EMAC. -/
def State.shpEnqueue (s : State) (o : Out) (miss : Bool) : State :=
  let n := o.queue % 8
  let c := outCls o
  let s := s.portSync n
  let t := s.nearTime o.launch
  let e : SEnt := { out := o, miss := miss, at' := t }
  let tw := if s.on (F.EMAC_LINK_TXLPI n) then 1000 * (s.get (F.EMAC_EEE_TWSYS n) + 2) else 0
  if !s.on (F.EMAC_LINK_UP n) then ((s.shpCnt n 3).raise (W.SHP n) E.SHP_FLUSH).shpEnd e 6
  else if o.timed then
    if t < s.ns + 2000 || t < s.ns + tw then s.shpLate n e false
    else if s.ns + 4000000000 < t then s.shpLate n e true
    else if 64 ≤ (s.shpOf n).timed.length then ((s.shpCnt n 2).raise (W.SHP n) E.SHP_QFULL).shpEnd e 5
    else (s.setShp n { s.shpOf n with timed := (s.shpOf n).timed ++ [e] }).shpGo n
  else if (s.shpCfg n c).2.2.1 ≤ (s.shpQ n c).length then ((s.shpCnt n 0).raise (W.SHP n) E.SHP_QFULL).shpEnd e 3
  else (s.setShpQ n c (s.shpQ n c ++ [e])).shpGo n

/-- CREDIT_REFILL, R278. -/
def execCreditRefill (n : Nat) (s : State) : Host.Outcome State Fault Refusal :=
  .next (if n < 8 && s.winOn (W.SHP n) then ((s.portSync n).refill n).shpGo n else s)

/-- A list starts: the switch armed when its time has come, else the list enabled; what stood pending before a switch goes with it. -/
def State.tlBegin (s : State) (n : Nat) : State :=
  let x := s.shpOf n
  let due := fun (p : Option (Nat × Nat)) => match p with | some (t, _) => decide (t ≤ s.ns) | none => false
  let go := fun (y : ShpS) (l : List (Fld × Nat)) =>
    let s := s.portSync n
    let u := (s.setShp n { s.shpOf n with start := y.start, swit := y.swit }).sets ((F.SHP_TLCTL_RUNNING n, 1) :: l)
    ((u.tlShow n).raise (W.SHP n) E.SHP_TLSTART).shpGo n
  if due x.swit then
    go { x with start := none, swit := none } [(F.SHP_TLCTL_ACTIVE n, (x.swit.getD (0, 0)).2), (F.SHP_TLCTL_SWPEND n, 0)]
  else if due x.start then go { x with start := none } []
  else s

def execTlStart (n : Nat) (s : State) : Host.Outcome State Fault Refusal := .next (if n < 8 then s.tlBegin n else s)

/-- TL_ENTRY_BOUNDARY, R280. -/
def State.tlNext (s : State) (n : Nat) : State :=
  if s.on (F.SHP_TLCTL_RUNNING n) then ((s.portSync n).tlShow n).shpGo n else s

def execTlEntryBoundary (n : Nat) (s : State) : Host.Outcome State Fault Refusal := .next (if n < 8 then s.tlNext n else s)

/-- CREDIT_REACHES_ZERO, R275, R277. -/
def execCreditReachesZero (n c : Nat) (s : State) : Host.Outcome State Fault Refusal :=
  .next (if n < 8 && 0 ≤ (s.portSync n).credit n c then (s.portSync n).shpGo n else s)

/-- What TIME_TICK does but for the WLAN, R77, R282: when the tick applies a step or a counter value, turn lists follow the new time. In Hush
MLC starts a receive path as a window comes near, R100. -/
def State.tickTime (s : State) : State :=
  let t := if s.tm.pend.isEmpty then tickOp s else (List.range 8).foldl (fun t n => (t.tlBegin n).tlNext n) (tickOp s)
  if s.tm.tick == .hush then t.mlcPath else t

/-! PAUSE frames asked for, R298 -/

/-- EMAC_TXPAUSE is written with SEND = 1. -/
def State.pauseAsk (s : State) (rq : Rq) (n : Nat) : State :=
  if s.get (F.EMAC_CFG_FCMODE n) = 0 then s.errRec rq (W.EMAC n) 0x70 4
  else
    let s := s.portSync n
    ((s.setEmac n { s.emacOf n with want := some (s.get (F.EMAC_TXPAUSE_QUANTA n), s.get (F.EMAC_TXPAUSE_CLASSES n)) }).set
      (F.EMAC_TXPAUSE_PENDING n) 1).shpGo n

/-- PAUSE_REPEAT: QUANTA / 2 quanta have passed since the last frame was sent. -/
def State.pauseAgain (s : State) (n : Nat) : State :=
  match (s.emacOf n).sent with
  | some (q, cls, t) =>
    if s.on (F.EMAC_TXPAUSE_HOLD n) && 0 < q && (s.emacOf n).want.isNone && t * 65536 + s.quanta16 n q / 2 ≤ s.el then
      let s := s.portSync n
      ((s.setEmac n { s.emacOf n with want := some (q, cls) }).set (F.EMAC_TXPAUSE_PENDING n) 1).shpGo n
    else s
  | none => s

def execPauseRepeat (n : Nat) (s : State) : Host.Outcome State Fault Refusal := .next (if n < 8 then s.pauseAgain n else s)

/-! Low-power idle, R299 -/

/-- The modes that support LPI. -/
def State.lpiMode (s : State) (n : Nat) : Bool :=
  match s.get (F.LANE_MODE_MODE n) with
  | 1 => s.rate n == 1000000
  | 6 => true
  | 8 => true
  | _ => false

/-- LPI_ENTER. -/
def State.lpiIn (s : State) (n : Nat) : State :=
  let s := s.portSync n
  if s.enabled (W.EMAC n) && s.on (F.EMAC_CFG_EEE n) && s.lpiMode n && s.on (F.EMAC_LINK_UP n) && !s.on (F.EMAC_LINK_TXLPI n)
      && s.lpiQuiet n && (s.emacOf n).busyAt + max 1 (s.get (F.EMAC_EEE_IDLE n)) * 1000 ≤ s.tm.mono then
    (s.set (F.EMAC_LINK_TXLPI n) 1).emacCnt n 12
  else s

def execLpiEnter (n : Nat) (s : State) : Host.Outcome State Fault Refusal := .next (if n < 8 then s.lpiIn n else s)

/-- LPI_EXIT: the first frame starts TWSYS µs after the exit begins. -/
def State.lpiOut (s : State) (n : Nat) : State :=
  if s.on (F.EMAC_LINK_TXLPI n) && !s.lpiQuiet n then
    let s := s.portSync n
    let w := max (s.get (F.EMAC_EEE_TWSYS n)) (Config.wakeMin (s.get (F.LANE_MODE_MODE n)))
    (s.setEmac n { s.emacOf n with wake := s.tm.mono + 1000 * w }).set (F.EMAC_LINK_TXLPI n) 0
  else s

def execLpiExit (n : Nat) (s : State) : Host.Outcome State Fault Refusal := .next (if n < 8 then s.lpiOut n else s)

/-- RX_LPI_CHANGE. -/
def execRxLpiChange (n : Nat) (on : Bool) (s : State) : Host.Outcome State Fault Refusal :=
  .next (if n < 8 && s.on (F.EMAC_LINK_UP n) then s.set (F.EMAC_LINK_RXLPI n) (b2n on) else s)

end Sys2Proof.Machine
end

