-- ==== Sys2Proof/Machine/Lane.lean ====
section
/-!
DEFINITION. The lanes and the Ethernet MACs' link state, reception and flow control: spec/14, R287 to R301.
-/

namespace Sys2Proof.Machine

/-! Lanes, R290, R291 -/

def State.laneSt (s : State) (n : Nat) : Nat := s.get (F.LANE_STAT_STATE n)

/-- A lane moves to a state; entering Active raises ACTIVE. -/
def State.laneTo (s : State) (n st : Nat) : State := (s.set (F.LANE_STAT_STATE n) st).raiseIf (st == 6) (W.LANE n) E.LANE_ACTIVE

/-- Modes 6 and 8. -/
def isKr (m : Nat) : Bool := m == 6 || m == 8

/-- The code of FECUSED for LANE_MODE.FEC where no negotiation resolves it, R289. -/
def State.fecSet (s : State) (n : Nat) : Nat :=
  if s.laneMode n < 6 || 8 < s.laneMode n then 0
  else match s.get (F.LANE_MODE_FEC n) with
    | 2 => 1
    | 4 => 2
    | _ => 0

/-- A lane that Vigil keeps down: its mode is above 10.3125 Gbaud, R361. -/
def State.tooFast (s : State) (n : Nat) : Bool :=
  s.pwr.capState != 0 && (s.laneMode n == 7 || s.laneMode n == 8 || s.laneMode n == 10)

/-- ENABLE is 1 with MODE not 0: the lane leaves Off, R290. -/
def State.laneOn (s : State) (n : Nat) : State :=
  if s.laneSt n = 0 && s.enabled (W.LANE n) && s.laneMode n ≠ 0 && !s.tooFast n then
    (s.set (F.LANE_STAT_IDLE n) (s.get (F.LANE_CTRL2_EIDLE n))).laneTo n 1
  else s

/-- The lane goes Off, its transmitter in electrical idle. -/
def State.laneOff (s : State) (n : Nat) : State :=
  if s.laneSt n = 0 then s
  else s.sets [(F.LANE_STAT_STATE n, 0), (F.LANE_STAT_SIGNAL n, 0), (F.LANE_STAT_BITLOCK n, 0), (F.LANE_STAT_WORDLOCK n, 0),
    (F.LANE_STAT_IDLE n, 1), (F.LANE_STAT_FECUSED n, 0)]

/-- SIGNAL_DETECT. -/
def State.laneSignal (s : State) (n : Nat) : State :=
  if s.laneSt n = 1 then
    let t := s.set (F.LANE_STAT_SIGNAL n) 1
    if isKr (s.laneMode n) && s.on (F.LANE_MODE_AN n) then t.laneTo n 2
    else (t.set (F.LANE_STAT_FECUSED n) (s.fecSet n)).laneTo n (if isKr (s.laneMode n) then 3 else 4)
  else s

def execSignalDetect (n : Nat) (s : State) : Host.Outcome State Fault Refusal := .next (if n < 8 then s.laneSignal n else s)

/-- AN_COMPLETE: fec is the FEC that Clause 73 resolves, pause and eee the partner's abilities, R289, R290. -/
def State.laneAn (s : State) (n : Nat) (common : Bool) (fec pause : Nat) (eee : Bool) : State :=
  if s.laneSt n ≠ 2 then s
  else if common then
    (s.sets [(F.LANE_STAT_FECUSED n, min fec 2), (F.EMAC_LINK_PARTNERPAUSE n, pause), (F.EMAC_LINK_PARTNEREEE n, b2n eee)]).laneTo n 3
  else (s.satAdd (F.LANE_CNT1_ANFAIL n) (F.LANE_CNT1_AOVF n) (W.LANE n) E.LANE_CNTSAT 1).raise (W.LANE n) E.LANE_ANFAIL

def execAnComplete (n : Nat) (common : Bool) (fec pause : Nat) (eee : Bool) (s : State) : Host.Outcome State Fault Refusal :=
  .next (if n < 8 then s.laneAn n common fec pause eee else s)

/-- TRAIN_COMPLETE: the coefficients training has found are kept. -/
def execTrainComplete (n pre main post : Nat) (s : State) : Host.Outcome State Fault Refusal :=
  .next (if n < 8 && s.laneSt n == 3 then
    (s.sets [(F.LANE_TXEQ_PRE n, pre), (F.LANE_TXEQ_MAIN n, main), (F.LANE_TXEQ_POST n, post)]).laneTo n 4 else s)

/-- TRAIN_TIMEOUT. -/
def execTrainTimeout (n : Nat) (s : State) : Host.Outcome State Fault Refusal :=
  .next (if n < 8 && s.laneSt n == 3 then
    ((s.satAdd (F.LANE_CNT1_TRAINFAIL n) (F.LANE_CNT1_TOVF n) (W.LANE n) E.LANE_CNTSAT 1).raise (W.LANE n) E.LANE_TRAINFAIL).laneTo n 1
  else s)

/-- WORD_LOCK: Exchange follows on mode 1, and on mode 2 with AN = 1, R290. -/
def execWordLock (n : Nat) (s : State) : Host.Outcome State Fault Refusal :=
  .next (if n < 8 && s.laneSt n == 4 then
    ((s.set (F.LANE_STAT_BITLOCK n) 1).set (F.LANE_STAT_WORDLOCK n) 1).laneTo n
      (if s.laneMode n == 1 || (s.laneMode n == 2 && s.on (F.LANE_MODE_AN n)) then 5 else 6)
  else s)

/-- LOCK_TIMEOUT. -/
def execLockTimeout (n : Nat) (s : State) : Host.Outcome State Fault Refusal :=
  .next (if n < 8 && s.laneSt n == 4 then s.laneTo n 1 else s)

/-- EXCHANGE_COMPLETE: the speed code of the SGMII control word, and the partner's pause abilities. -/
def execExchangeComplete (n speed pause : Nat) (s : State) : Host.Outcome State Fault Refusal :=
  .next (if n < 8 && s.laneSt n == 5 then
    ((s.setEmac n { s.emacOf n with speed := speed }).set (F.EMAC_LINK_PARTNERPAUSE n) pause).laneTo n 6 else s)

/-- LOCK_LOSS: word lock is lost, or the high bit-error rate of Clause 49. -/
def execLockLoss (n : Nat) (s : State) : Host.Outcome State Fault Refusal :=
  .next (if n < 8 && (s.laneSt n == 5 || s.laneSt n == 6) then
    (((s.satAdd (F.LANE_CNT0_LOCKLOSS n) (F.LANE_CNT0_LOVF n) (W.LANE n) E.LANE_CNTSAT 1).raise (W.LANE n) E.LANE_LOCKLOSS).set
      (F.LANE_STAT_WORDLOCK n) 0).laneTo n 4
  else s)

/-- RETRAIN is written 1, R290. -/
def State.laneRetrain (s : State) (n : Nat) : State :=
  if s.laneSt n = 6 then
    (s.set (F.LANE_STAT_WORDLOCK n) 0).laneTo n (if isKr (s.laneMode n) then (if s.on (F.LANE_MODE_AN n) then 2 else 3) else 4)
  else s

/-- EIDLE is written, R291: on modes 1 to 8 the transmitter stops at the end of the frame in progress. -/
def State.laneIdle (s : State) (n : Nat) (on : Bool) : State :=
  if on then
    if 1 ≤ s.laneMode n && s.laneMode n ≤ 8 && (s.shpOf n).tx.isSome then s else s.set (F.LANE_STAT_IDLE n) 1
  else if s.laneSt n = 0 then s
  else ((s.portSync n).set (F.LANE_STAT_IDLE n) 0).shpGo n

/-! Link state, R292 -/

/-- The data rate of a mode in kb/s, R287, R292. -/
def State.linkRate (s : State) (n : Nat) : Nat :=
  match s.laneMode n with
  | 1 => [10000, 100000, 1000000].getD (if s.on (F.LANE_MODE_AN n) then (s.emacOf n).speed else s.get (F.LANE_MODE_SGSPEED n)) 1000000
  | 2 => 1000000
  | 3 => 2500000
  | 4 => 5000000
  | 5 => 10000000
  | 6 => 10000000
  | _ => 25000000

/-- Gives the reservation of a frame that EMAC receives back, R293. -/
def State.ethGive (s : State) (n : Nat) : State :=
  match (s.emacOf n).rx with
  | none => s
  | some (h, _, trn) => ((s.setEmac n { s.emacOf n with rx := none }).bufRelease h).unresv trn

/-- The frame EMAC sends ends with a status. -/
def State.txCut (s : State) (n status : Nat) : State :=
  match (s.shpOf n).tx with
  | none => s
  | some x =>
    let t := s.setShp n { s.shpOf n with tx := none }
    match x.ent with
    | none => t
    | some e => (t.txNote n e.out.handle status).shpEnd e status

/-- EMAC's link is no longer up: R284, R292, R297, R298. -/
def State.linkLost (s : State) (n : Nat) : State :=
  let s := (s.portSync n).txCut n 11
  let s := if (s.emacOf n).rx.isSome then (s.ethGive n).emacCnt n 3 else s
  let s := s.shpFlush n
  let s := s.setEmac n { s.emacOf n with pause := [], want := none, sent := none }
  s.sets [(F.EMAC_LINK_UP n, 0), (F.EMAC_LINK_TXLPI n, 0), (F.EMAC_LINK_RXLPI n, 0), (F.EMAC_PAUSESTAT_PAUSED n, 0),
    (F.EMAC_TXPAUSE_PENDING n, 0), (F.SHP_PORTRATE_RATE n, 0)]

/-- LINK_DOWN: a condition of R292 stops holding; loc and rem are the fault sequences received. -/
def State.linkDownOp (s : State) (n : Nat) (loc rem : Bool) : State :=
  if !s.on (F.EMAC_LINK_UP n) then s
  else
    let t := (s.linkLost n).sets [(F.EMAC_LINK_LOCFAULT n, b2n loc), (F.EMAC_LINK_REMFAULT n, b2n rem)]
    let t := (t.sticky n (F.EMAC_STICKY_LINKDOWN n)).raise (W.EMAC n) E.EMAC_LINKDOWN
    let t := if loc then t.sticky n (F.EMAC_STICKY_LOCFAULT n) else t
    if rem then t.sticky n (F.EMAC_STICKY_REMFAULT n) else t

def execLinkDown (n : Nat) (loc rem : Bool) (s : State) : Host.Outcome State Fault Refusal :=
  .next (if n < 8 then s.linkDownOp n loc rem else s)

/-- LINK_UP: every condition of R292 holds, and the lane is Active in a mode of Ethernet. -/
def State.linkUpOp (s : State) (n : Nat) : State :=
  if s.on (F.EMAC_LINK_UP n) || s.laneSt n ≠ 6 || 8 < s.laneMode n || !s.winOn (W.EMAC n) then s
  else
    let t := (s.portSync n).sets [(F.EMAC_LINK_UP n, 1), (F.EMAC_LINK_LOCFAULT n, 0), (F.EMAC_LINK_REMFAULT n, 0),
      (F.SHP_PORTRATE_RATE n, s.linkRate n)]
    let t := (t.setEmac n { t.emacOf n with busyAt := s.tm.mono, wake := 0 }).raise (W.EMAC n) E.EMAC_LINKUP
    (if t.slopesFit n (t.shpOf n).cfg then t else t.slopeBad n).shpGo n

def execLinkUp (n : Nat) (s : State) : Host.Outcome State Fault Refusal := .next (if n < 8 then s.linkUpOp n else s)

/-! Receiving, R293, R294, R297 -/

/-- The receive stamp of a frame whose first bit is captured now, or 0 in software mode, R85, R86. -/
def State.ethStamp (s : State) (n : Nat) : Nat :=
  if s.ethMedium n then moveStamp s.now16 (-((s.ethRxCorr n : Int) + s.getI (F.TIME_ETRIM_RX n) * 16384)) else 0

/-- ETH_RX_START: the reservation of R17 for MAXLEN octets, or NOBUF. -/
def State.ethStart (s : State) (n : Nat) : State :=
  if !s.enabled (W.EMAC n) || !s.on (F.EMAC_CFG_RXEN n) || !s.on (F.EMAC_LINK_UP n) || (s.emacOf n).rx.isSome then s
  else
    let none' := fun (t : State) => (t.sticky n (F.EMAC_STICKY_NOBUF n)).emacCnt n 5
    let p := s.bufAlloc (s.get (F.EMAC_MAXLEN_MAXLEN n))
    match p.1 with
    | none => none' p.2
    | some h =>
      match p.2.resvSlot (11 + n) with
      | none => none' (p.2.bufRelease h)
      | some t => t.setEmac n { t.emacOf n with rx := some (h, s.ethStamp n, p.2.origTrain (11 + n)) }

def execEthRxStart (n : Nat) (s : State) : Host.Outcome State Fault Refusal := .next (if n < 8 then s.ethStart n else s)

/-- The group hash of an address: the 8 most significant bits of the FCS CRC-32 over its octets, R294. -/
def groupHash (dst : List Byte) : Nat := crc32 dst / 2 ^ 24

/-- The address filter, R294; PROMISC passes any destination, as that rule words it (log entry 70). -/
def State.ethFilter (s : State) (n : Nat) (dst : List Byte) : Bool :=
  let group := bitOf (ofLE (dst.take 1)) 0
  let bcast := dst == List.replicate 6 0xFF
  let h := groupHash dst
  dst == s.stAddr n
    || ((List.range 16).any fun k => s.on (F.EMAC_FILT_W1_VALID n k)
      && toLE 4 (s.get (F.EMAC_FILT_W0_ADDR n k)) ++ toLE 2 (s.get (F.EMAC_FILT_W1_ADDR n k)) == dst)
    || s.on (F.EMAC_CFG_PROMISC n)
    || (bcast && !s.on (F.EMAC_CFG_NOBCAST n))
    || (group && !bcast && (s.on (F.EMAC_CFG_ALLGROUPS n) || bitOf (s.get (F.EMAC_HASH_BITS n (h / 32))) (h % 32)))

/-- A pause timer of a class is loaded with quanta at the present time; 0 ends it. -/
def State.pauseLoad (s : State) (n c q : Nat) : State :=
  let x := s.emacOf n
  let m := if q = 0 then kdel x.pause c else kset x.pause c (s.el + s.quanta16 n q)
  (s.setEmac n { x with pause := m }).set (F.EMAC_PAUSESTAT_PAUSED n)
    ((List.range 8).foldl (fun a k => if (kget m k).isSome then a + 2 ^ k else a) 0)

/-- A frame of EtherType 0x8808 that EMAC acts on, R297. -/
def State.pauseRx (s : State) (n : Nat) (l : List Byte) : State :=
  let w := fun k => ofBE ((l.drop k).take 2)
  let to' := l.take 6 == [1, 0x80, 0xC2, 0, 0, 1] || l.take 6 == s.stAddr n
  let fc := s.get (F.EMAC_CFG_FCMODE n)
  if to' && fc = 1 && w 14 = 1 then
    (((List.range 8).foldl (fun t c => t.pauseLoad n c (w 16)) s).raise (W.EMAC n) E.EMAC_PAUSERX).shpGo n
  else if to' && fc = 2 && w 14 = 0x0101 then
    (((List.range 8).foldl (fun t c => if bitOf (w 16) c then t.pauseLoad n c (w (18 + 2 * c)) else t) s).raise (W.EMAC n)
      E.EMAC_PAUSERX).shpGo n
  else s

/-- Header words of an Ethernet frame, R239. -/
def ethHeader (n stamp : Nat) (l : List Byte) : List Nat :=
  let ns := stamp / 65536
  let sec := ns / 1000000000
  let ty := ofBE ((l.drop 12).take 2)
  let tag := ty == 0x8100 || ty == 0x88A8
  [ 2 + n * 4 + (if stamp = 0 then 0 else 32) + l.length % 16384 * 1024, 0, stamp % 65536 + sec / 2 ^ 32 % 65536 * 65536,
    ns % 1000000000, sec % 2 ^ 32, (if tag then ofBE ((l.drop 14).take 2) + 65536 else 0), 0, 0, 0, 0, 0, 0, 0, 0, 0, 0 ]

/-- The key of a received frame of a port with IEEE 802.1AE: that of the association number in its SecTAG, R326. -/
def macsecKey (n : Nat) (l : List Byte) : Nat :=
  1072 + 4 * n + (if ofBE ((l.drop 12).take 2) = 0x88E5 then ofLE ((l.drop 14).take 1) % 4 else 0)

/-- The wagon of a frame is created, with a request to SEC when its port is secured; without one its buffer is free again. -/
def ethTell (n h : Nat) (sec : Bool) (l : List Byte) (p : Option Nat × State) : State :=
  match p with
  | (none, s) => s.bufRelease h
  | (some w, s) => if sec then s.secAsk 5 (macsecKey n l) h w else s

/-- A frame is handed on as a wagon, R237, R239, R293. -/
def State.ethHand (s : State) (n h stamp trn : Nat) (l : List Byte) : State :=
  let sec := bitOf (s.get F.SEC_MACSEC_EN) n
  let k := (kget s.ram.pool h).getD 0
  let s := s.setEmac n { s.emacOf n with rx := none }
  let s := ((s.pokeData h 0 l).pokeHdr h 0 (ethHeader n stamp l)).pokeN (handleAddr h + 4) 4 k
  let s := (s.emacStat n 0 1).emacStat n 1 l.length
  let c : List (Nat × Nat × Option Nat) := [(0, 1, some h)] ++ (if sec then [(1, 2, none)] else [])
  ethTell n h sec l (s.islandCommit (11 + n) trn (if stamp = 0 then s.ns else stampNs stamp) c)

/-- A code violation or invalid block that lane n sees, in a frame or out of one, R300. -/
def State.codeErr (s : State) (n : Nat) : State :=
  if s.enabled (W.LANE n) then s.satAdd (F.LANE_CNT0_CODEERR n) (F.LANE_CNT0_COVF n) (W.LANE n) E.LANE_CNTSAT 1 else s

/-- ETH_RX_END: the first row of R293 that applies; code is a code violation or an invalid block within the frame, which the lane
counts whether or not EMAC receives the frame. -/
def State.ethEnd (s : State) (n : Nat) (l : List Byte) (code : Bool) : State :=
  let s := if code then s.codeErr n else s
  match (s.emacOf n).rx with
  | none => s
  | some (h, st, trn) =>
    let s := s.portSync n
    let bad := fun (f : Fld) (k : Nat) => ((s.ethGive n).sticky n f).emacCnt n k
    let body := l.take (l.length - 4)
    if code then bad (F.EMAC_STICKY_CODEERR n) 3
    else if l.length ≤ 63 then bad (F.EMAC_STICKY_RUNT n) 0
    else if s.get (F.EMAC_MAXLEN_MAXLEN n) < l.length then bad (F.EMAC_STICKY_GIANT n) 1
    else if ofLE (l.drop (l.length - 4)) ≠ crc32 body then bad (F.EMAC_STICKY_FCSERR n) 2
    else if ofBE ((l.drop 12).take 2) = 0x8808 then ((s.ethGive n).emacCnt n 6).pauseRx n l
    else if !s.ethFilter n (l.take 6) then (s.ethGive n).emacCnt n 4
    else s.ethHand n h st trn l

def execEthRxEnd (n : Nat) (data : List Byte) (code : Bool) (s : State) : Host.Outcome State Fault Refusal :=
  .next (if n < 8 then s.ethEnd n data code else s)

/-- PAUSE_TIMER_EXPIRE: the timer of class c has run out; under PAUSE the one timer governs every class. -/
def execPauseTimerExpire (n c : Nat) (s : State) : Host.Outcome State Fault Refusal :=
  .next (if n < 8 then
    match kget (s.emacOf n).pause c with
    | some t =>
      if t ≤ s.el then
        let u := s.portSync n
        (if s.get (F.EMAC_CFG_FCMODE n) = 1 then (List.range 8).foldl (fun v k => v.pauseLoad n k 0) u else u.pauseLoad n c 0).shpGo n
      else s
    | none => s
  else s)

end Sys2Proof.Machine
end

