-- ==== Sys2Proof/Machine/Nvs.lean ====
section
/-!
DEFINITION. The settings store: images and their seals, programming and activation, and the choice of images at start-up:
spec/16, R319 to R325.
-/

namespace Sys2Proof.Machine

/-- The address of store offset o. -/
def nvsAddr (o : Nat) : Nat := 0x20000000 + o

/-- The current half of the root record, and the pending one, as store offsets, R319. -/
def State.rootCur (s : State) : Nat := 0x10000 + 0x8000 * s.nvs.half
def State.rootPend (s : State) : Nat := 0x10000 + 0x8000 * (1 - s.nvs.half)

/-- The store offset of slot k of NVS_OPSEL and the kind of image it holds. -/
def slotBase (k : Nat) : Nat :=
  match k with | 0 => 0x80000 | 1 => 0xC0000 | 2 => 0x100000 | 3 => 0x180000 | 4 => 0x200000 | _ => 0xE00000
def slotKind (k : Nat) : Nat := if k < 6 then k / 2 + 1 else 4

/-- The octets of a slot. -/
def slotLen (k : Nat) : Nat := match k / 2 with | 0 => 0x40000 | 1 => 0x80000 | 2 => 0xC00000 | _ => 0x8000

/-- Where the image that slot k names lies. -/
def State.slotAt (s : State) (k : Nat) : Nat :=
  if k < 6 then slotBase k else if s.nvs.rootSet then s.rootPend else s.rootCur

/-- A word of an image header, and its body, R322. -/
def State.hdr (s : State) (o i n : Nat) : Nat := s.peekN (nvsAddr o + i) n
def State.body (s : State) (o : Nat) : List Byte := s.peeks (nvsAddr o + 256) (s.hdr o 12 4)

/-- The digest held for a kind, R323. -/
def State.keyDigest (s : State) (kind : Nat) : List Byte :=
  let r := s.body s.rootCur
  match kind with | 1 => Config.regKey | 2 => Config.rootKey r 0 | 3 => Config.rootKey r 0 | 5 => Config.rootKey r 1 | _ => Config.rootKey r 2

/-- Whether the seal of an image at memory address a holds for a kind, R322, R323. -/
def State.sealAt (s : State) (a kind : Nat) : Bool :=
  let n := s.peekN (a + 12) 4
  s.peekN a 1 == kind && Config.sha384 (s.peeks (a + 32) 96) == s.keyDigest kind
    && Config.ecdsa (s.peeks (a + 32) 96) (s.peeks (a + 128) 96) (Config.sha384 (s.peeks a 128 ++ s.peeks (a + 256) n))

/-- Whether the image at store offset o, in len octets, bears a valid seal of its kind. -/
def State.sealOk (s : State) (o len kind : Nat) : Bool := 256 + s.hdr o 12 4 ≤ len && s.sealAt (nvsAddr o) kind

/-- DIEID names this die or any. -/
def State.dieOk (s : State) (o : Nat) : Bool := s.hdr o 16 8 == 0 || s.hdr o 16 8 == Config.dieId

/-- The rollback counter of a kind; a root record has none. -/
def State.rollOf (s : State) (kind : Nat) : Nat := if kind = 4 then 0 else s.nvs.roll.getD (kind - 1) 0

/-- The cause with which the activation of slot k fails, or 0: R321, R324. -/
def State.actCause (s : State) (k : Nat) : Nat :=
  let o := s.slotAt k
  let kind := slotKind k
  if kind = 4 && !s.nvs.rootSet then (if s.hdr o 0 1 = 4 then 0 else 9)
  else if !s.sealOk o (slotLen k) kind then 9
  else if s.hdr o 4 4 < s.rollOf kind then 10
  else if !s.dieOk o then 11
  else 0

/-- A slot is marked preferred and its rollback counter raised, R324; a root record becomes current. -/
def State.prefer (s : State) (k : Nat) : State :=
  let o := s.slotAt k
  let n := s.nvs
  let t : State :=
    if k < 6 then { s with nvs := { n with pref := lset n.pref (k / 2) (k % 2),
                                           roll := lset n.roll (k / 2) (max (n.roll.getD (k / 2) 0) (s.hdr o 8 4)) } }
    else if n.rootSet then
      { s with nvs := { n with half := 1 - n.half }, mem := memPuts s.mem (nvsAddr 0x70000) (toLE 1 (1 - n.half)) }
    else { s with nvs := { n with rootSet := true } }
  (t.raise 0x04 E.NVS_ACTIVATED).raiseIf (k == 6 && !n.rootSet && s.get F.DBG_AUTH_LEVEL != 2) W.DBG E.DBG_LEVELCHG

/-! The operation, R321 -/

/-- The source address. -/
def State.nvsSrc (s : State) : Nat := s.get F.NVS_SRCHI_ADDR * 2 ^ 32 + s.get F.NVS_SRCLO_ADDR

/-- Whether n octets at a lie wholly in SRAM or DRAM. -/
def inMem (a n : Nat) : Bool := (inSram a && inSram (a + n - 1)) || (inDram a && inDram (a + n - 1))

/-- Whether the range of store offsets a to a + n meets b to b + m. -/
def rangesMeet (a n b m : Nat) : Bool := a < b + m && b < a + n

/-- A target the program operation may not write, cause 8: the device record, the regions that only SEC, LIM and RFE_M write,
the selector row, a slot booted at the last start-up, the current root record once one is set. -/
def State.nvsBarred (s : State) (d n : Nat) : Bool :=
  rangesMeet d n 0 0x10000 || rangesMeet d n 0x20000 0x50000 || rangesMeet d n 0x70000 64
    || (List.range 3).any (fun k => rangesMeet d n (slotBase (2 * k + s.nvs.boot.getD k 0)) (slotLen (2 * k)))
    || (s.nvs.rootSet && rangesMeet d n s.rootCur 0x8000)

/-- The parameters of NVS's operation are in range. -/
def State.nvsValid (s : State) : Bool :=
  let n := s.get F.NVS_ROWS_ROWS
  let d := s.get F.NVS_DST_OFS
  match s.get F.NVS_OPSEL_OP with
  | 0 => s.nvsSrc % 64 == 0 && inMem s.nvsSrc (64 * n) && 0 < n && d % 64 == 0 && d + 64 * n ≤ 0x2000000
  | 1 => s.get F.NVS_OPSEL_SLOT < 7
  | _ => false

/-- START of NVS's operation, R67, R321. -/
def State.nvsStart (s : State) (rq : Rq) : State :=
  let t := s.opStart rq 0x04 s.nvsValid true
  if t.opSt 0x04 == 2 && s.opSt 0x04 != 2 && s.get F.NVS_OPSEL_OP = 0
      && s.nvsBarred (s.get F.NVS_DST_OFS) (64 * s.get F.NVS_ROWS_ROWS) then t.opFail 0x04 8
  else t

/-- The units of the operation: rows, or 64 KiB of the image. -/
def State.nvsUnits (s : State) : Nat :=
  if s.get F.NVS_OPSEL_OP = 0 then s.get F.NVS_ROWS_ROWS
  else max 1 ((256 + min (slotLen (s.get F.NVS_OPSEL_SLOT)) (s.hdr (s.slotAt (s.get F.NVS_OPSEL_SLOT)) 12 4) + 65535) / 65536)

/-- One unit: a row is written whole (R320); the last unit of an activation gives its verdict. -/
def State.nvsUnit (s : State) : State :=
  let k := s.get (F.OPSTAT_PROGRESS 0x04)
  let last := s.nvsUnits ≤ k + 1
  if s.get F.NVS_OPSEL_OP = 0 then
    let d := s.get F.NVS_DST_OFS + 64 * k
    let a := s.nvsSrc + 64 * k
    if s.memDark a then s.opFail 0x04 4
    else
      let s := s.ueHit a 64
      if s.ueIn a 64 then s.opFail 0x04 5
      else
        let t := { s with mem := memPuts s.mem (nvsAddr d) (s.peeks a 64) }
        let t := t.opUnits 0x04 (k + 1) d
        if last then t.opDone 0x04 else t
  else
    let t := s.opUnits 0x04 (k + 1) 0
    if !last then t
    else match s.actCause (s.get F.NVS_OPSEL_SLOT) with
      | 0 => (t.prefer (s.get F.NVS_OPSEL_SLOT)).opDone 0x04
      | c => t.opFail 0x04 c

/-- NVS_PROGRAM: START with OP = 0. -/
def execNvsProgram (rq : Rq) (s : State) : Host.Outcome State Fault Refusal :=
  .next (if s.get F.NVS_OPSEL_OP = 0 then s.nvsStart rq else s)

/-- NVS_ACTIVATE: START with OP = 1. -/
def execNvsActivate (rq : Rq) (s : State) : Host.Outcome State Fault Refusal :=
  .next (if s.get F.NVS_OPSEL_OP = 1 then s.nvsStart rq else s)

/-! Start-up, R325 -/

/-- Whether slot k holds an image that the boot ROM uses. -/
def State.bootOk (s : State) (k : Nat) : Bool :=
  let o := slotBase k
  s.sealOk o (slotLen k) (slotKind k) && s.rollOf (slotKind k) ≤ s.hdr o 4 4 && s.dieOk o

/-- The slot the boot ROM uses for kind n + 1: the preferred, else the other. -/
def State.bootSlot (s : State) (n : Nat) : Option Nat :=
  let p := s.nvs.pref.getD n 0
  if s.bootOk (2 * n + p) then some p else if s.bootOk (2 * n + (1 - p)) then some (1 - p) else none

end Sys2Proof.Machine
end

