-- ==== Sys2Proof/Machine/Sec.lean ====
section
/-!
DEFINITION. SEC: the key store, requests and enrolment: spec/16, R326 to R330, R338, and the counter blocks of R313; WREQ.
-/

namespace Sys2Proof.Machine

/-- Counter n of SEC: 0 MICFAIL, 1 NOKEY, 2 EXHAUSTED, 3 ENRENTRY. -/
def State.secCnt (s : State) (n : Nat) : State := s.bump W.SEC (0x80 + 4 * n) E.SEC_CNTSAT

/-- Fields of a request to SEC, R329. -/
def Req.key (r : Req) : Nat := bitsOf (r.w 0) 4 12
def Req.hdrofs (r : Req) : Nat := bitsOf (r.w 0) 16 8
def Req.secOut (r : Req) : Nat := r.w 2 % 2 ^ 20

/-- Answers a request with a CRYPT coupling, R235, R329. -/
def State.secAns (s : State) (r : Req) (handle result : Nat) : State :=
  (s.reqTake r).couple r.wid r.slot 2 (handle + result * 2 ^ 20) []

/-- The keys of an OP: USE 1, 2, or 3 and 4. -/
def useFits (op use : Nat) : Bool := if op ≤ 2 then use == 1 else if op ≤ 4 then use == 2 else use == 3 || use == 4

/-- The buffer of a result: OUT, or for an island's request one that SEC takes (log entry 14). -/
def State.secBuf (s : State) (r : Req) (n : Nat) : Option Nat × State :=
  if r.secOut = 0 then s.bufAlloc n
  else if n ≤ s.outCap r.secOut then (some r.secOut, s) else (none, s)

/-- A result is written after the octets of IN before the MAC header, LENGTH is set, and the request answered OK. A result that
fits no buffer is answered with handle 0 and RESULT 2 (log entry 18). -/
def State.secPut (s : State) (r : Req) (l : List Byte) : State :=
  let pre := s.peeks (handleAddr r.inH + 64) r.hdrofs
  let n := r.hdrofs + l.length
  let p := s.secBuf r n
  match p.1 with
  | none => p.2.secAns r 0 2
  | some h =>
    let t := p.2.pokeData h 0 (pre ++ l)
    let hd := (List.range 13).map fun k => s.hdrW r.inH k
    let chain := t.hdrW h 1
    let t := if r.secOut = 0 then (t.pokeHdr h 0 hd).pokeHdr h 1 [chain] else t
    let w := t.hdrW h 0
    (t.pokeHdr h 0 [w - bitsOf w 10 14 * 1024 + n % 2 ^ 14 * 1024]).secAns r h 0

/-- The octets of IN from its MAC header on. -/
def State.secIn (s : State) (r : Req) : List Byte := (s.frame r.inH).drop r.hdrofs

/-- The ASN in a frame's report, R239. -/
def State.frmAsn (s : State) (h : Nat) : Nat := s.hdrW h 10 + s.hdrW h 11 % 256 * 2 ^ 32

/-- Runs the oldest request to SEC with an OP: RESULT 2 for a key that is empty or of another use, R329, R338. -/
def State.secRun (s : State) (op : Nat) (f : State → Req → KeyS → State) : State :=
  match s.yard.reqs.find? fun r => r.sec && r.op == op with
  | none => s
  | some r =>
    if !s.enabled W.SEC || !s.inPool r.inH || (r.secOut != 0 && !s.inPool r.secOut) then s.secAns r 0 2
    else match kget s.keys r.key with
      | none => (s.secCnt 1).secAns r 0 2
      | some k => if useFits op k.use then f s r k else (s.secCnt 1).secAns r 0 2

/-- A decryption: RESULT 1 when the integrity code fails. -/
def State.secOpen (s : State) (r : Req) (l : Option (List Byte)) : State :=
  match l with
  | none => (s.secCnt 0).secAns r 0 1
  | some l => s.secPut r l

/-- A key's next outgoing counter after the one used, R330. -/
def State.keyStep (s : State) (i : Nat) (k : KeyS) : State :=
  if k.cnt = 0xFFFFFFFF then ({ s with keys := kset s.keys i { k with exh := true } }).raise W.SEC E.SEC_KEYEXH
  else { s with keys := kset s.keys i { k with cnt := k.cnt + 1 } }

/-- A paired key's blocks, R313: while Mirrored the next block is asked for when half of the current one is used, or when none is
left; while Detached each block begun is counted, and GAPRISK is raised when the count exceeds GAP. -/
def State.keyBlock (s : State) (i : Nat) (k : KeyS) : State :=
  let st := s.get F.CPL_STAT_STATE
  if !k.paired then s
  else if st = 3 then
    if k.limit ≤ k.cnt + 2048 && !s.pair.resv.contains i then { s with pair := { s.pair with resv := s.pair.resv ++ [i] } } else s
  else if st = 2 && k.cnt % 4096 = 0 then
    let n := min 0xFFFFFFFF (s.get F.CPL_DETBLK_BLOCKS + 1)
    (s.set F.CPL_DETBLK_BLOCKS n).raiseIf (s.get F.CPL_RESV_GAP < n) W.CPL E.CPL_GAPRISK
  else s

/-- An encryption, R330: RESULT 3 for an exhausted key; a paired key whose block the Trail has not acknowledged waits, R313. -/
def State.secSeal (s : State) (r : Req) (k : KeyS) (f : List Byte → List Byte) : State :=
  let t := s.keyBlock r.key k
  if k.exh then (s.secCnt 2).secAns r 0 3
  else if k.paired && s.get F.CPL_STAT_STATE = 3 && k.limit ≤ k.cnt then t
  else (t.secPut r (f (s.secIn r))).keyStep r.key k

def State.ccmDec (s : State) (r : Req) (k : KeyS) : State := s.secOpen r (Config.ccmOpen k.val (s.frmAsn r.inH) (s.secIn r))
def State.ccmEnc (s : State) (r : Req) (k : KeyS) : State := s.secSeal r k (Config.ccmSeal k.val (s.frmAsn r.inH) k.cnt)
def State.gcmpDec (s : State) (r : Req) (k : KeyS) : State := s.secOpen r (Config.gcmpOpen k.val (s.secIn r))
def State.gcmpEnc (s : State) (r : Req) (k : KeyS) : State := s.secSeal r k (Config.gcmpSeal k.val k.cnt)
def State.macsecDec (s : State) (r : Req) (k : KeyS) : State := s.secOpen r (Config.macsecOpen k.val (s.secIn r))
def State.macsecEnc (s : State) (r : Req) (k : KeyS) : State := s.secSeal r k (Config.macsecSeal k.val k.cnt)

def execCcmDecrypt (s : State) : Host.Outcome State Fault Refusal := .next (s.secRun 1 State.ccmDec)
def execCcmEncrypt (s : State) : Host.Outcome State Fault Refusal := .next (s.secRun 2 State.ccmEnc)
def execGcmpDecrypt (s : State) : Host.Outcome State Fault Refusal := .next (s.secRun 3 State.gcmpDec)
def execGcmpEncrypt (s : State) : Host.Outcome State Fault Refusal := .next (s.secRun 4 State.gcmpEnc)
def execMacsecDecrypt (s : State) : Host.Outcome State Fault Refusal := .next (s.secRun 5 State.macsecDec)
def execMacsecEncrypt (s : State) : Host.Outcome State Fault Refusal := .next (s.secRun 6 State.macsecEnc)

/-- WREQ, R245, R261, R329: a reserved OP is answered at once. -/
def State.wreqNow (s : State) (e : Nat) (sec : Bool) (req : List Nat) (wid slot : Nat) : State :=
  let t := s.wreqOp e sec req wid slot
  match t.yard.reqs.getLast? with
  | none => t
  | some r =>
    if t.yard.reqs.length = s.yard.reqs.length then t
    else if sec then (if r.op = 0 || 6 < r.op then t.secAns r 0 2 else t)
    else if r.op = 0 || 5 < r.op then t.rteFail r 15 else t

def execWreq (e : Nat) (sec : Bool) (req : List Nat) (wid slot : Nat) (s : State) : Host.Outcome State Fault Refusal :=
  .next (s.wreqNow e sec req wid slot)

/-! Enrolment, R328 -/

/-- The address of the enrolment request. -/
def State.enrSrc (s : State) : Nat := s.get F.SEC_ENRSRCHI_ADDR * 2 ^ 32 + s.get F.SEC_ENRSRCLO_ADDR

/-- The entries of the request. -/
def State.enrUnits (s : State) : Nat := (s.peekN (s.enrSrc + 12) 4 - 96) / 64

/-- START of the enrolment. -/
def State.enrStart (s : State) (rq : Rq) : State :=
  s.opStart rq W.SEC (s.enrSrc % 64 == 0 && inMem s.enrSrc 256) true

def execSecEnrol (rq : Rq) (s : State) : Host.Outcome State Fault Refusal := .next (s.enrStart rq)

/-- The request is read, R347. -/
def State.enrRead (s : State) : State :=
  let t := s.ueHit s.enrSrc 256
  if inMem s.enrSrc (256 + t.peekN (s.enrSrc + 12) 4) then t.ueHit (s.enrSrc + 256) (t.peekN (s.enrSrc + 12) 4) else t

/-- The cause with which a request is refused before its first entry, or 0. -/
def State.enrCause (s : State) : Nat :=
  let a := s.enrSrc
  let n := 256 + s.peekN (a + 12) 4
  if !inMem a n then 3
  else if s.memDark a then 4
  else if s.ueIn a n then 5
  else if !s.sealAt a 5 then 9
  else if s.peekN (a + 4) 4 ≤ s.nvs.roll.getD 3 0 then 10
  else if s.peekN (a + 16) 8 ≠ Config.dieId then 11
  else 0

/-- One entry: a key is written, or erased. -/
def State.enrEntry (s : State) (k : Nat) : State :=
  let a := s.enrSrc + 256
  let e := a + 96 + 64 * k
  let w := s.peekN e 4
  let i := bitsOf w 0 12
  let done' := fun (t : State) => ((t.secCnt 3).opUnits W.SEC (k + 1) i)
  if bitOf w 16 then done' { s with keys := kdel s.keys i }
  else match Config.unwrap (s.peeks a 96) (s.peeks (e + 4) 40) with
    | none => s.opFail W.SEC 8
    | some v =>
      done' { s with keys := kset s.keys i { use := bitsOf w 12 3, paired := bitOf w 15, exh := false, cnt := 0, val := v, limit := 0 } }

/-- One unit of the enrolment; before the first entry the checks, and NVS_ROLL3 takes the request's VERSION. -/
def State.enrUnit (s : State) : State :=
  let k := s.get (F.OPSTAT_PROGRESS W.SEC)
  let s := if k = 0 && !s.memDark s.enrSrc then s.enrRead else s
  let c := if k = 0 then s.enrCause else 0
  if c ≠ 0 then s.opFail W.SEC c
  else
    let t := if k = 0 then { s with nvs := { s.nvs with roll := lset s.nvs.roll 3 (s.peekN (s.enrSrc + 4) 4) } } else s
    let u := if k < s.enrUnits then t.enrEntry k else t
    if u.opSt W.SEC = 2 && s.enrUnits ≤ k + 1 then u.opDone W.SEC else u

end Sys2Proof.Machine
end

