-- ==== Sys2Proof/Machine/Cpl.lean ====
section
/-!
DEFINITION. CPL: the Coupler link, roles and states, what the Trail mirrors, takeover, and lent ports: spec/15, R302 to R318. What
this module sends to its partner is an output and not held; what it hears is the operand of a command.
-/

namespace Sys2Proof.Machine

/-- Counter n of CPL: 0 LANEDROP, 1 LANEJOIN, 2 RESENT, 3 DATADROP, 4 HBMISS, 5 LIFELOSS, 6 LIFEFAULT, 7 TAKEOVER, 8 YIELD, 9
LENDLATE. -/
def State.cplCnt (s : State) (n : Nat) : State := s.bump W.CPL (0x80 + 4 * n) E.CPL_CNTSAT

/-- The counter counts k at once. -/
def State.cplAdd (s : State) (n k : Nat) : State := s.satAdd (F.CPL_CNT_COUNT n) (F.CPL_CNT_OVF n) W.CPL E.CPL_CNTSAT k

/-- CPL's state in the code of CPL_STAT: 0 Solo, 1 Linking, 2 Detached, 3 Mirrored, 4 Syncing, 5 Shadow, 6 Stale, 7 Watch. -/
def State.cpl (s : State) : Nat := s.get F.CPL_STAT_STATE

/-- The heartbeat is lost after more than 4 misses, R307. -/
def State.hbLost (s : State) : Bool := 4 < s.get F.CPL_STAT_HBMISS

/-- The Coupler is up: a lane is in the bond. -/
def State.cplUp (s : State) : Bool := s.on F.CPL_STAT_ACTIVE

/-- LIFE_IN as last read, R308: 0 ALIVE, 1 LOW, 2 HIGH. -/
def State.life (s : State) : Nat := s.get F.CPL_STAT_LIFE

def State.setPair (s : State) (x : CplS) : State := { s with pair := x }

/-- When the Lead leaves Mirrored every lent bit clears and carriers not launched are refused LATE, R317. -/
def State.unlend (s : State) : State :=
  let l := s.mlc.lent
  let t := (s.sets [(F.CPL_LEND_MT0, 0), (F.CPL_LEND_MT1, 0), (F.CPL_LEND_BYFLT, 0)]).setMlc { s.mlc with lent := [] }
  l.foldl (fun t c => t.carrRefused c.id 1) t

/-- The WLAN radios of a Trail in Shadow are off, R311: they go Off, and those enabled come back as it leaves Shadow. -/
def State.radios (s : State) (on : Bool) : State :=
  (List.range 3).foldl (fun t r =>
    if !s.enabled (W.RFE r) then t
    else if on then t.rfeEnable r true
    else (List.range (pathsOf r)).foldl (fun t p => (t.pathCut r p 6).pathGo r p 0) t) s

/-- A change of state, R308, R310, R317, R318, R379. -/
def State.cplTo (s : State) (st : Nat) : State :=
  let old := s.cpl
  if old = st then s
  else
    let t := (s.set F.CPL_STAT_STATE st).raise W.CPL E.CPL_STATECHG
    let t := { t with env := { t.env with lifeOut := if st = 0 then 0 else 1 } }
    let t := if old = 3 then t.unlend else t
    let t := if st = 3 then t.set F.CPL_DETBLK_BLOCKS 0 else t
    let t := if st = 4 then (t.set F.CPL_SYNCPROG_DONE 0).setPair { t.pair with mq := [] } else t
    let t := if st = 5 then (t.pathGo 3 1 2).radios false else if old = 5 then t.radios true else t
    let t := if st = 7 then (t.set F.CPL_WATCH_MISSES 0).setPair { t.pair with heard := false } else t
    if st = 6 || st = 7 then t.syncTo 3 else t

/-- Solo: the Tiles of a Trail are muted, R310; frames in the data queue end ABORTED, R304. -/
def State.cplSolo (s : State) : State :=
  let t := if 4 ≤ s.cpl then s.setMlc { s.mlc with mute := true } else s
  let t := (t.cplTo 0).setPair { t.pair with q := [], mq := [], resv := [], map := 0, gone := 0 }
  (s.pair.q.foldl (fun t e => t.outDone e.1 e.2 11 none) t).sets [(F.CPL_STAT_ACTIVE, 0), (F.CPL_STAT_HB, 0), (F.CPL_STAT_HBMISS, 0)]

/-- Paired counters at takeover, R313: the first value after the last block reserved, and GAP blocks further from Stale or Watch. -/
def State.pairKeys (s : State) (gap : Bool) : State :=
  let g := if gap then s.get F.CPL_RESV_GAP * 4096 else 0
  { s with keys := s.keys.map fun e =>
      if e.2.paired then (e.1, { e.2 with cnt := min 0xFFFFFFFF (max e.2.cnt e.2.limit + g) }) else e }

/-- TAKEOVER, R314. -/
def State.takeover (s : State) : State :=
  let t := (s.cplCnt 7).raise W.CPL E.CPL_TAKEOVER
  let t := t.pairKeys (6 ≤ s.cpl)
  (t.setMlc { t.mlc with mute := false, mutePend := false }).cplTo 2

/-- What follows from the heartbeat, LIFE_IN and the Coupler, R310; reading is true when the reading of LIFE_IN has changed. -/
def State.cplEval (s : State) (reading : Bool) : State :=
  match s.cpl with
  | 3 => if s.hbLost || !s.cplUp then (s.raise W.CPL E.CPL_TRAILLOST).cplTo 2 else s
  | 4 => if s.hbLost || s.life ≠ 0 then (s.raise W.CPL E.CPL_ORPHAN).cplSolo else s
  | 5 =>
    if s.hbLost then (match s.life with | 2 => s.takeover | 0 => s.cplTo 6 | _ => s.cplTo 7)
    else if reading && s.life = 2 then (s.cplCnt 6).raise W.CPL E.CPL_LIFEFAULT
    else if reading && s.life = 1 then (s.cplCnt 5).raise W.CPL E.CPL_LIFELOSS
    else s
  | 6 => if s.hbLost && s.life = 2 then s.takeover else if s.hbLost && s.life = 1 then s.cplTo 7 else s
  | 7 => if s.life = 0 && !s.cplUp then s.cplTo 6 else s
  | _ => s

/-! Enabling and HELLO, R309, R318 -/

/-- CPL_CFG.LANES as LANES. -/
def State.cplLanes (s : State) : Nat := s.get F.CPL_CFG_LANES

/-- The lanes of CPL_CFG.LANES are all in mode 9 or all in mode 10, R318. -/
def State.cplModes (s : State) : Bool :=
  let l := (List.range 4).filter fun k => bitOf s.cplLanes k
  l.all (fun k => s.laneMode (4 + k) == 9) || l.all (fun k => s.laneMode (4 + k) == 10)

/-- CTRL.ENABLE is written. -/
def State.cplEnable (s : State) (en : Bool) : State :=
  if !en then s.cplSolo
  else if s.cpl ≠ 0 || s.get F.CPL_ROLE_ROLE = 0 || s.get F.CPL_ROLE_ROLE = 3 then s
  else if !s.cplModes then s.raise W.CPL E.CPL_PAIRREF
  else s.cplTo 1

/-- HELLO with the partner's seniority, pair identifier, role request and lane set, R309, R310. -/
def State.helloOp (s : State) (sen pairid role lanes : Nat) : State :=
  if !s.cplUp then s
  else
    let t := s.set F.CPL_STAT_PSEN sen
    let own := s.get F.CPL_ROLE_SENIORITY
    let ask := s.get F.CPL_ROLE_ROLE
    match s.cpl with
    | 1 =>
      if pairid ≠ s.get F.CPL_ROLE_PAIRID || sen = own || lanes ≠ s.cplLanes || (ask = 2 && role = 2) then
        t.raise W.CPL E.CPL_PAIRREF
      else if ask = 1 && (role ≠ 1 || sen < own) then (t.setMlc { t.mlc with mute := false, mutePend := false }).cplTo 2
      else (t.setMlc { t.mlc with mute := true }).cplTo 4
    | 2 => t
    | 3 => t
    | 6 => t.cplTo 4
    | 7 => t.cplTo 4
    | _ => s

def execHello (sen pairid role lanes : Nat) (s : State) : Host.Outcome State Fault Refusal :=
  .next (s.helloOp sen pairid role lanes)

/-! The bond, R304 to R306 -/

/-- The Coupler goes down: queued frames end ABORTED. -/
def State.cplDown (s : State) : State :=
  (s.pair.q.foldl (fun t e => t.outDone e.1 e.2 11 none) (s.setPair { s.pair with q := [], gone := 0 })).cplEval false

/-- Lane k leaves the bond, R306: a soft event of the lane for FLT, R374. -/
def State.laneDrop (s : State) (k : Nat) : State :=
  let a := s.get F.CPL_STAT_ACTIVE
  if !bitOf a k then s
  else
    let t := (((s.set F.CPL_STAT_ACTIVE (a - 2 ^ k)).cplCnt 0).raise W.CPL E.CPL_LANEDROP).fltEvent (0x3004 + k) 0 false
    let t := t.setPair { t.pair with gone := if bitOf t.pair.gone k then t.pair.gone else t.pair.gone + 2 ^ k }
    if a = 2 ^ k then t.cplDown else t

/-- COUPLER_LANE_DROP: cells that were on the lane are resent, or dropped with their data frames, R304. -/
def execCouplerLaneDrop (k resent lost : Nat) (s : State) : Host.Outcome State Fault Refusal :=
  .next (if k < 4 && bitOf (s.get F.CPL_STAT_ACTIVE) k then ((s.cplAdd 2 resent).cplAdd 3 lost).laneDrop k else s)

/-- Whether this module has lock on a bonded lane that FLT has not retired, R378. -/
def State.laneHere (s : State) (k : Nat) : Bool :=
  bitOf s.cplLanes k && s.laneSt (4 + k) == 6 && s.on (F.LANE_STAT_WORDLOCK (4 + k)) && 9 ≤ s.laneMode (4 + k) && !s.retired (0x3004 + k)

/-- Lane k is in the bond. -/
def State.laneIn (s : State) (k : Nat) : State := s.set F.CPL_STAT_ACTIVE (s.get F.CPL_STAT_ACTIVE + 2 ^ k)

/-- ALIGNMENT_MARKER, R305, R306: the sender's locked lanes; a lane it has lost leaves the bond, one never dropped enters it. -/
def State.marker (s : State) (lanes : Nat) : State :=
  if s.cpl = 0 then s
  else
    let t := s.setPair { s.pair with map := lanes }
    (List.range 4).foldl (fun t k =>
      if bitOf (t.get F.CPL_STAT_ACTIVE) k then (if bitOf lanes k then t else t.laneDrop k)
      else if bitOf lanes k && t.laneHere k && !bitOf t.pair.gone k then t.laneIn k else t) t

def execAlignmentMarker (lanes : Nat) (s : State) : Host.Outcome State Fault Refusal := .next (s.marker lanes)

/-- COUPLER_LANE_JOIN, R306. -/
def execCouplerLaneJoin (k : Nat) (s : State) : Host.Outcome State Fault Refusal :=
  .next (if s.cpl ≠ 0 && k < 4 && !bitOf (s.get F.CPL_STAT_ACTIVE) k && bitOf s.pair.gone k && bitOf s.pair.map k && s.laneHere k then
    (((s.laneIn k).setPair { s.pair with gone := s.pair.gone - 2 ^ k }).cplCnt 1).raise W.CPL E.CPL_LANEJOIN else s)

/-- A released output for the Coupler link, R304. -/
def State.cplEnqueue (s : State) (o : Out) (miss : Bool) : State :=
  if !s.enabled W.CPL || !s.cplUp then s.outDone o miss 11 none
  else if 1024 ≤ s.pair.q.length then s.outDone o miss 3 none
  else s.setPair { s.pair with q := s.pair.q ++ [(o, miss)] }

/-- The payload octets the bond carries in 50 µs, R304. -/
def State.cplBudget (s : State) : Nat :=
  ((List.range 4).foldl (fun a k => if bitOf (s.get F.CPL_STAT_ACTIVE) k then a + (if s.laneMode (4 + k) = 10 then 55500 else 27750)
    else a) 0)

/-- Frames of the data queue leave within a budget, the first in any case. -/
def State.cplDrain (s : State) (left : Nat) : List (Out × Bool) → State
  | [] => s.setPair { s.pair with q := [] }
  | e :: l =>
    let n := s.frmLen e.1.handle
    if left < n then s.setPair { s.pair with q := e :: l } else (s.outDone e.1 e.2 0 none).cplDrain (left - n) l

/-- HEARTBEAT_SEND, R304, R307: every 50 µs. The data channel sends what the bond carries until the next (log entry 19). -/
def execHeartbeatSend (s : State) : Host.Outcome State Fault Refusal :=
  .next (if s.cpl ≠ 0 && s.cplUp then s.cplDrain s.cplBudget s.pair.q else s)

/-- CPL_DATA_RECEIVE, R237, R304, R350: a frame that has arrived whole makes a wagon of origin 19. -/
def State.cplData (s : State) (l : List Byte) : State :=
  if !s.enabled W.CPL || !s.cplUp then s
  else
    let p := s.bufAlloc l.length
    match p.1 with
    | none => p.2.cplCnt 3
    | some h =>
      match p.2.resvSlot 19 with
      | none => (p.2.bufRelease h).cplCnt 3
      | some t =>
        let k := (kget t.ram.pool h).getD 0
        let t := (t.pokeData h 0 l).pokeHdr h 0 [3 + l.length % 2 ^ 14 * 1024, k, 0, 0, 0, 0, 0, 0, 0, 0, 0, 0, 0, 0, 0, 0]
        (t.islandCommit 19 (p.2.origTrain 19) t.ns [(0, 1, some h)]).2

def execCplDataReceive (frame : List Byte) (s : State) : Host.Outcome State Fault Refusal := .next (s.cplData frame)

/-! Heartbeat and lifeline, R307, R308 -/

/-- HEARTBEAT_RECEIVE: acks are the keys whose next counter block the partner acknowledges, R313. -/
def State.hbRx (s : State) (sen : Nat) (acks : List Nat) : State :=
  if s.cpl = 0 || !s.cplUp then s
  else
    let t := s.sets [(F.CPL_STAT_HBMISS, 0), (F.CPL_STAT_HB, 1), (F.CPL_STAT_PSEN, sen)]
    let got := t.pair.resv.filter fun i => acks.contains i
    got.foldl (fun t i => { t with keys := kmod t.keys i fun k => { k with limit := max k.limit (k.cnt / 4096 * 4096) + 4096 } })
      (t.setPair { t.pair with resv := t.pair.resv.filter fun i => !acks.contains i })

def execHeartbeatReceive (sen : Nat) (acks : List Nat) (s : State) : Host.Outcome State Fault Refusal := .next (s.hbRx sen acks)

/-- HEARTBEAT_MISS. -/
def execHeartbeatMiss (s : State) : Host.Outcome State Fault Refusal :=
  .next (if s.cpl ≤ 1 then s
    else
      let t := (s.satAdd0 F.CPL_STAT_HBMISS W.CPL E.CPL_CNTSAT 1).cplCnt 4
      (if t.hbLost then t.set F.CPL_STAT_HB 0 else t).cplEval false)

/-- LIFE_IN_READING: 0 ALIVE, 1 LOW, 2 HIGH. -/
def execLifeInReading (reading : Nat) (s : State) : Host.Outcome State Fault Refusal :=
  .next (if s.life = reading || 2 < reading then s else (s.set F.CPL_STAT_LIFE reading).cplEval true)

/-! What the Trail mirrors, R311, R312 -/

/-- The index, the known bit and the count of a record follow from it. -/
def State.mirIndex (s : State) (i : Nat) : State :=
  let ext := s.recW i 0 + s.recW i 1 * 2 ^ 32
  let t := s.setMn { s.mn with idx := s.mn.idx.filter fun e => e.2 != i }
  let t := if t.recState i = 0 then t else t.setMn { t.mn with idx := kset t.mn.idx ext i }
  let t := t.setMn { t.mn with used := t.mn.idx.length }
  t.setMlc { t.mlc with known := if t.recF i 2 25 1 = 1 then kset t.mlc.known i 1 else kdel t.mlc.known i }

/-- One update is applied. -/
def State.mirror (s : State) (m : Mir) : State :=
  match m with
  | .node i ws => if i < 262144 then (s.recFresh i ws).mirIndex i else s
  | .map t a v => if t < 8 && a < 65536 then s.setMap t a v else s
  | .shadow i v => if i < 262144 then s.pokeN (shadowAt i) 4 v else s
  | .board ofs l => if inBoard (0x13800000 + ofs) && inBoard (0x13800000 + ofs + (l.length - 1)) then s.poke (0x13800000 + ofs) l else s
  | .switch t f n =>
    if t < 8 then (s.sets [(F.MLC_SWASNLO_SWASN t f, n % 2 ^ 32), (F.MLC_SWASNHI_SWASN t f, n / 2 ^ 32)]).sfArm t f else s
  | .tile t x be w ep =>
    let u := s.setTile t { s.tile t with x := x, be := be, w := w }
    if t < 8 then (match ep with | some e => u.setEpoch t e | none => u) else s
  | .resv i n => { s with keys := kmod s.keys i fun k => { k with limit := n } }

/-- MIRROR_UPDATE: applied in Shadow, queued in Syncing. -/
def execMirrorUpdate (m : Mir) (s : State) : Host.Outcome State Fault Refusal :=
  .next (match s.cpl with
    | 4 => s.setPair { s.pair with mq := s.pair.mq ++ [m] }
    | 5 => s.mirror m
    | _ => s)

/-- Whether an address lies in what a full copy replaces, R309. -/
def State.copied (s : State) (a : Nat) : Bool :=
  inMap a || inBoard a || (s.tbl 0 ≤ a && a < s.tbl 0 + 0x1000000) || (s.tbl 1 ≤ a && a < s.tbl 1 + 0x1000000)

/-- SYNC_COMPLETE, R309, R310: on the Trail the copy ends and the queued updates are applied; a Detached Lead learns that its
Trail is in Shadow. -/
def State.syncDone (s : State) (copy : List Mir) : State :=
  match s.cpl with
  | 4 =>
    let t := { s with mem := s.mem.filter fun c => !s.copied c.1 }
    let t := t.setMn { t.mn with idx := [], used := 0, lost := [], cache := [] }
    let t := t.setMlc { t.mlc with known := [] }
    let t := (copy ++ s.pair.mq).foldl (fun t m => t.mirror m) t
    ((t.setPair { t.pair with mq := [] }).cplTo 5).set F.CPL_SYNCPROG_DONE 432
  | 2 => s.cplTo 3
  | _ => s

def execSyncComplete (copy : List Mir) (s : State) : Host.Outcome State Fault Refusal := .next (s.syncDone copy)

/-- CPL_TIME_CORRECT, R312: the offset is shown and removed, and the Lead's increment, slew, step, sync state and uncertainty taken. -/
def State.timeFollow (s : State) (x : LeadTime) : State :=
  if s.cpl ≠ 4 && s.cpl ≠ 5 then s
  else
    let o : Int := (((x.t2 : Int) - x.t1) - ((x.t4 : Int) - x.t3)) / 2
    let t := s.setI F.CPL_TIMEOFS_OFS (o / 16384)
    let tb := (((t.tm.tb : Int) - o * 65536) % (tbMod : Int)).toNat
    let t := { t with tm := { t.tm with tb := tb, incr := x.incr, slew := x.slew, slewing := x.slew != 0,
                                        pend := t.tm.pend ++ (match x.step with | some n => [TimeChange.step n] | none => []) } }
    (t.syncTo (x.st % 8)).setUnc (x.unc + 5)

def execCplTimeCorrect (t : LeadTime) (s : State) : Host.Outcome State Fault Refusal := .next (s.timeFollow t)

/-! Handing over and taking over, R310, R314, R315 -/

/-- RELEASE_RECEIVE. -/
def execReleaseReceive (s : State) : Host.Outcome State Fault Refusal :=
  .next (if s.cpl = 5 || s.cpl = 6 then s.takeover else s)

/-- HANDOVER, or the change to Vigil of R45 with VIGILREL: RELEASE goes out, mesh transmission stops at the next slot edge. -/
def State.cplHand (s : State) : State :=
  if s.cpl = 3 then (s.setMlc { s.mlc with mutePend := true }).cplTo 5 else s

/-- RESYNC. -/
def State.cplResyncOp (s : State) : State := if s.cpl = 5 || s.cpl = 6 then s.cplTo 4 else s

/-- CPL_EB_HEARD: an EB that counts under R315, with the seniority, pair identifier and role of its pair IE. -/
def State.ebHeard (s : State) (sen pairid role : Nat) : State :=
  if pairid ≠ s.get F.CPL_ROLE_PAIRID || role ≠ 1 || s.get F.CPL_PAIRIE_OFS = 0 then s
  else match s.cpl with
    | 7 =>
      let t := s.set F.CPL_WATCH_MISSES 0
      (t.setPair { t.pair with heard := true }).raiseIf (!s.pair.heard) W.CPL E.CPL_LEADHEARD
    | 2 =>
      if s.get F.CPL_ROLE_SENIORITY < sen then
        let t := (s.cplCnt 8).raise W.CPL E.CPL_YIELD
        (t.setMlc { t.mlc with mutePend := true }).cplTo 7
      else s
    | _ => s

def execCplEbHeard (sen pairid role : Nat) (s : State) : Host.Outcome State Fault Refusal := .next (s.ebHeard sen pairid role)

/-- CPL_EB_MISS: beacon square b brought none; those of the partner's seniority are not expected, R315. -/
def execCplEbMiss (b : Nat) (s : State) : Host.Outcome State Fault Refusal :=
  .next (if s.cpl = 7 && b % 16 ≠ s.get F.CPL_STAT_PSEN && s.get F.CPL_PAIRIE_OFS ≠ 0 then
    let t := s.satAdd0 F.CPL_WATCH_MISSES W.CPL E.CPL_CNTSAT 1
    if 3 ≤ t.get F.CPL_WATCH_MISSES then t.takeover else t
  else s)

/-! Lent ports, R317 -/

/-- LENT_CARRIER_REQUEST: on the Lead the status of a carrier sent to the Trail returns (0 launched); on the Trail the carrier
reaches its MPHY. -/
def State.lentReq (s : State) (c : Carr) (answer : Option Nat) : State :=
  match s.cpl, answer with
  | 3, some st =>
    if s.mlc.lent.any fun d => d.id == c.id then
      let t := s.setMlc { s.mlc with lent := s.mlc.lent.filter fun d => d.id != c.id }
      if st = 0 then (t.carrCount c.id).carrSent c.id else t.carrRefused c.id st
    else s
  | 5, _ =>
    let p := s.carrReq c
    if p.1 = 1 then p.2.cplCnt 9 else p.2
  | _, _ => s

def execLentCarrierRequest (c : Carr) (answer : Option Nat) (s : State) : Host.Outcome State Fault Refusal :=
  .next (s.lentReq c answer)

end Sys2Proof.Machine
end

