-- ==== Sys2Proof/Machine/Domain.lean ====
section
/-!
DEFINITION. What state a power domain is to be in: the requests of R358 and the caps of R357; a coach leaving on once no engine of it
holds a wagon, R359, R396.
-/

namespace Sys2Proof.Machine

/-! Requests and caps; ranks are 2 on, 1 retained, 0 off -/

/-- The windows whose block is of domain d, R357. -/
def domWins (d : Nat) : List Nat := (List.range 83).filter fun w => winOk w && winDom w == d

/-- The request of a block, R62. -/
def State.winReq (s : State) (w : Nat) : Nat := 2 - s.get (F.CTRL_DOMREQ w)

/-- The windows whose requests move domain d: LANES is one domain to its requests (R357, R358). -/
def reqWins (d : Nat) : List Nat := if d = 14 || 20 ≤ d then (List.range 25).map (· + 0x30) else domWins d

/-- The highest request among a domain's blocks; AON, TIME and MEM stay on, R358. -/
def State.domReq (s : State) (d : Nat) : Nat :=
  if d = 0 || d = 1 || d = 16 then 2 else (reqWins d).foldl (fun a w => max a (s.winReq w)) 0

/-- The lanes of VLANES that act: its two lowest, R370. -/
def State.vlanes (s : State) : List Nat := ((List.range 8).filter fun n => bitOf (s.get F.PWR_STATECFG_VLANES) n).take 2

/-- The rank a device state allows a domain at most, R357: 0 Run, 1 Vigil, 2 Hush, 3 Dormant. The Coupler's part of LANES
follows the lanes (log entry 46). -/
def State.domCap (s : State) (st d : Nat) : Nat :=
  if d = 0 then 2
  else if st = 3 then 0
  else if st = 0 then 2
  else if d = 1 || d = 2 || d = 7 || d = 16 then 2
  else if d ≤ 6 then (if st = 1 then 1 else 0)
  else if d ≤ 13 then (if d - 8 < (if st = 1 then 2 else 1) then 2 else 1)
  else if d = 14 then (if st = 1 && !s.vlanes.isEmpty then 2 else 0)
  else if d = 15 then (if st = 1 then 2 else 1)
  else if st = 1 && s.vlanes.contains (d - 20) then 2 else 0

/-- The rank a domain is to have: its request under its cap; in Vigil APC is on. -/
def State.domGoal (s : State) (d : Nat) : Nat :=
  if d = 15 && s.pwr.capState = 1 then 2 else min (s.domReq d) (s.domCap s.pwr.capState d)

/-! Coaches leave, R359 -/

/-- A coach stops, R257, R396: its wagons fail as under R246, its halts are lost. -/
def State.coachStop (s : State) (c : Nat) : State :=
  let t := (List.range 8).foldl (fun t i => t.engFail (8 * c + i) true) s
  let mine := fun (h : Nat) => decide (8 + 8 * c ≤ h ∧ h < 16 + 8 * c)
  { t with yard := { t.yard with engs := t.yard.engs.filter fun e => e.1 / 8 != c },
           dbg := { t.dbg with harts := t.dbg.harts.filter (fun e => !mine e.1), regs := t.dbg.regs.filter (fun e => !mine (e.1 / 65536)),
                               lmem := t.dbg.lmem.filter fun e => !mine (e.1 / 65536) } }

/-- Whether an engine of a coach holds a wagon. -/
def State.coachHolds (s : State) (c : Nat) : Bool := (List.range 8).any fun i => (s.eng (8 * c + i)).wag.isSome

/-- A coach's domain starts to leave on. -/
def State.coachLeave (s : State) (c : Nat) : State :=
  let t := (s.opKill (W.ENG c)).coachStop c
  ({ t with drain := t.drain.filter (· != c) }).setDom (8 + c) (if s.domGoal (8 + c) = 1 then 4 else 5)

/-- A draining coach leaves as soon as none of its engines holds a wagon, R359. -/
def State.coachCheck (s : State) (c : Nat) : State :=
  if s.drain.contains c && !s.coachHolds c then s.coachLeave c else s

end Sys2Proof.Machine
end

