-- ==== Sys2Proof/Machine/Wmac.lean ====
section
/-!
DEFINITION. The lower MACs: TXOPs, backoff, beacons, timed frames, and how their PPDUs end: spec/10, R214 to R226, R230, with
R198 to R200, R211 and R89.
-/

namespace Sys2Proof.Machine

/-! Backoff, R225, R226 -/

/-- The window exponent in force of an access category. -/
def State.ecw (s : State) (r ac : Nat) : Nat := (kget (s.wmac r).cw ac).getD (s.get (F.WMAC_EDCA_ECWMIN r ac))

/-- A die roll of an access category. -/
def State.wRoll (s : State) (r ac : Nat) : State :=
  let x := rollX ((kget s.wl.rng (4 * r + ac)).getD (max 1 (s.get (F.WMAC_SEED_SEED r ac))))
  let t := s.setWl { s.wl with rng := kset s.wl.rng (4 * r + ac) x }
  t.setWmac r { t.wmac r with roll := kset (t.wmac r).roll ac (x % 2 ^ s.ecw r ac) }

/-- The window after a success, and after a failure or a collision. -/
def State.cwOk (s : State) (r ac : Nat) : State :=
  (s.setWmac r { s.wmac r with cw := kset (s.wmac r).cw ac (s.get (F.WMAC_EDCA_ECWMIN r ac)) }).wRoll r ac
def State.cwFail (s : State) (r ac : Nat) : State :=
  let m := max (s.get (F.WMAC_EDCA_ECWMIN r ac)) (s.get (F.WMAC_EDCA_ECWMAX r ac))
  (s.setWmac r { s.wmac r with cw := kset (s.wmac r).cw ac (min m (s.ecw r ac + 1)) }).wRoll r ac

/-! Sending a PPDU, R198 to R200, R211, R332 -/

/-- The 20 MHz channels of a radio's channel that are not punctured. -/
def State.airChans (s : State) (r : Nat) : List Nat :=
  let d := s.get (F.WPHY_CHANCUR_CHAN r) / 65536
  let l := chanSubs (s.chanN r) (s.chanW r)
  ((List.range l.length).filter fun k => !bitOf d k).map fun k => l.getD k 0

/-- The 6 GHz class a PPDU of Radio C uses, R200: 1 LPI, 2 SP, none refused; 0 on the other radios. -/
def State.pwrClass (s : State) (r : Nat) : Option Nat × State :=
  if r ≠ 2 then (some 0, s)
  else match s.get (F.WPHY_PWRCLASS_CLASS 2), (s.grantFor (s.airChans 2)).isSome with
    | 1, true => (some 2, s)
    | 1, false => (none, (s.wphyCnt 2 9).raise (W.WPHY 2) E.WPHY_GRANTREF)
    | 2, true => (some 2, s)
    | 2, false => (some 1, s.wphyCnt 2 10)
    | _, _ => (some 1, s)

/-- The departure stamp of a PPDU launched at time a in ns, R86, R87; 0 in software mode. The launch holds at the aerial port: the
capture, 400 ns before, and the transmit correction cancel (log entry 15). -/
def State.wDepart (s : State) (r a : Nat) : Nat :=
  if bitOf (s.get F.TIME_TSMODE_WLAN) r then
    moveStamp (moveStamp (a * 65536) (-(400 * 65536))) ((400 + s.getI (F.TIME_RTRIM_TX (r + 1))) * 65536)
  else 0

/-- Whether a PPDU passes R211: each user's MPDUs by size, count, PSDU and air time; a PSDU of a beacon by its octets. -/
def State.lenOk (s : State) (fmt ru : Nat) (users : List WUser) (data : Nat) (air : Nat) : Bool :=
  let m := fmtMax fmt
  air ≤ 5484000 && data ≤ m.2.2 && users.all fun u =>
    u.frames.length ≤ m.2.1 && (u.frames.all fun h => s.frmLen h ≤ m.1) && s.psduOf fmt u.frames ≤ m.2.2
      && (u.frames.isEmpty || s.airHs fmt u.mcs u.nss ru u.frames ≤ 5484000)

/-- The EIRP and density limits of the 6 GHz class a PPDU uses, R200: those of the image, and for the SP class the lowest of the grants
too. -/
def State.clsLimits (s : State) (cls : Nat) : List Int × List Int :=
  match s.lim.img, cls with
  | some g, 1 => match g.lpi with | some l => ([l.1], [l.2]) | none => ([], [])
  | some g, 2 =>
    let w := (s.grantFor (s.airChans 2)).getD ([], [])
    match g.sp with | some l => (l.1 :: w.1, l.2 :: w.2) | none => w
  | _, _ => ([], [])

/-- The aerial ports of a radio that transmit: all but those whose chain is retired, R378. -/
def State.wPorts (s : State) (r : Nat) : List Nat :=
  let base := [0, 4, 12].getD r 0
  ((List.range ([4, 8, 8].getD r 0)).map (base + ·)).filter fun p => !s.retired (0x1000 + p)

/-- The power of a PPDU by port, R198, R333: the lowest of what the lower MAC requests, the limit of the highest MCS in it, and LIM's cap.
A PPDU to an MU-MIMO group is steered. -/
def State.ppduPow (s : State) (r kind fmt cls : Nat) (users : List WUser) : List (Nat × Int) × State :=
  let ask : Int × State := match users with
    | [] => ((s.fresh.1 % 256 : Nat) - 128, s.fresh.2)
    | u :: l => (l.foldl (fun a v => max a v.pow) u.pow, s)
  let mcs := users.foldl (fun a u => max a u.mcs) 0
  let w := widthKHz (s.chanW r)
  let f := s.chanC r
  let e := s.clsLimits cls
  let l := s.wPorts r
  (l.map fun p => (p, min (min ask.1 (mcsLimit r fmt mcs)) (s.limCap p (f - w / 2) (f + w / 2) l.length (kind == 1) e.1 e.2)), ask.2)

/-- To where a duration field may reach, R230: the end of the TXOP, not past the start of a quiet turn. -/
def State.navEnd (s : State) (r til : Nat) : Nat := min (max (s.wmac r).hold til) (s.ns + s.quietIn r)

/-- A PPDU is checked and given to its path, where it ends a reception (R107, R202): status 0 sent, 3 LEN, 4 GRANT, 10 LIM; 32 and more:
refused by the path under R110. -/
def State.ppdu (s : State) (r kind fmt ru : Nat) (users : List WUser) (acked : List Nat) (data : List Byte) (timed : Bool) (a air : Nat) :
    Nat × State :=
  if !s.lenOk fmt ru users data.length air then (3, s.wphyCnt r 8)
  else
    let p := s.pwrClass r
    match p.1 with
    | none => (4, p.2)
    | some cls =>
      let i := p.2.carrId
      let w := widthKHz (s.chanW r)
      let f := s.chanC r
      let base := [0, 4, 12].getD r 0
      let c : TxCmd := { id := i.1, port := base, freq := f, bw := w, width := s.chanW r, timed := timed, at' := a, dur := air, act := 2 }
      let chk := i.2.txCheck r 0 c
      if chk.1 ≠ 0 then (32 + chk.1, (i.2.txRefuse r chk.1).txStatus r 0 chk.1)
      else
        let t0 := chk.2.at'
        let bad := match s.lim.img with
          | some g => (List.range ([4, 8, 8].getD r 0)).find? fun k => !inRanges (portImg g (base + k)).ranges (f - w / 2) (f + w / 2)
          | none => none
        let q := i.2.limAdmit { id := i.1, port := base + bad.getD 0, lo := f - w / 2, hi := f + w / 2, frm := t0, til := t0 + air,
                                ack := kind == 9, cls := cls }
        if !q.1 then (10, q.2)
        else
          let p := q.2.ppduPow r kind fmt cls users
          let t := (((p.2.txAccept r 0 chk.2).txBound r 0).wAbort r).medBusy r (t0 + air)
          (0, t.setWl { t.wl with tx := t.wl.tx ++ [{ id := i.1, radio := r, kind := kind, fmt := fmt, users := users, acked := acked,
                                                      stamp := s.wDepart r t0, data := data, pow := p.1, nav := s.navEnd r (t0 + air) }] })

/-- A PPDU that has not been launched is taken back from its path. -/
def State.ppduBack (s : State) (r id : Nat) : State :=
  let x := s.path r 0
  let t := (s.setPath r 0 { x with txs := x.txs.filter fun d => d.id != id }).pathHold r 0
  (t.setWl { t.wl with tx := t.wl.tx.filter fun d => d.id != id }).limCut id

/-- A timed frame ends on a radio, R219; a group frame, which goes out on every link (R215), completes with the last of them, and with the
first status that is not OK (log entry 65). -/
def State.timedEnd (s : State) (r h status stamp : Nat) : State :=
  match s.wl.timed.find? fun e => e.1 == r && e.2.out.handle == h with
  | none => s
  | some e =>
    let st := if e.2.retries = 0 then status else e.2.retries
    let l := s.wl.timed.filter fun e => !(e.1 == r && e.2.out.handle == h)
    let l := l.map fun e => if e.2.out.handle = h then (e.1, { e.2 with retries := st }) else e
    let t := s.setWl { s.wl with timed := l }
    if l.any fun e => e.2.out.handle == h then t
    else t.outDone e.2.out e.2.miss st (if stamp = 0 || st ≠ 0 then none else some stamp)

/-- A frame of a PPDU ends on radio r: wherever it is kept, R219. -/
def State.wFrameEnd (s : State) (r h status stamp : Nat) : State :=
  if s.wl.timed.any fun e => e.2.out.handle == h then s.timedEnd r h status stamp
  else s.wEnd h status (if stamp = 0 then none else some stamp)

/-- A group frame has gone out on a radio: it ends when it has gone out on every link, R215. -/
def State.grpSent (s : State) (r b h stamp : Nat) : State :=
  match (s.gq r b).find? fun e => e.out.handle == h with
  | none => s
  | some e =>
    let l := (s.gq r b).filter fun e => e.out.handle != h
    let t := s.setWl { s.wl with grp := if l.isEmpty then kdel s.wl.grp (16 * r + b) else kset s.wl.grp (16 * r + b) l }
    if t.wl.grp.any fun g => g.2.any fun x => x.out.handle == h then t
    else t.outDone e.out e.miss 0 (if stamp = 0 then none else some stamp)

/-- The MCS of an entry moves by d, within what it may have, R221. -/
def State.mcsMove (s : State) (r : Nat) (x : StaS) (d : Int) : StaS :=
  let m := clampI 0 (mcsTop r x) ((s.staMcs r x : Int) + d)
  { x with adj := kset x.adj r (m - s.mcsBase r x), good := kdel x.good r }

/-- Link adaptation after a PPDU: n frames of a user, f failed, R221. -/
def State.adapt (s : State) (r e n f : Nat) : State :=
  match kget s.wl.sta e with
  | none => s
  | some x =>
    let g := (kget x.good r).getD 0
    let y : StaS := if n < 10 * f then s.mcsMove r x (-1)
      else if f = 0 then (if g + 1 = 8 then s.mcsMove r x 1 else { x with good := kset x.good r (g + 1) })
      else { x with good := kdel x.good r }
    s.setWl { s.wl with sta := kset s.wl.sta e y }

/-- An MPDU has not been acknowledged, R219: it is tried again, up to the retry limit and while it is not overdue. -/
def State.wFailed (s : State) (r e h : Nat) : State :=
  match s.wFind h with
  | none => s
  | some x =>
    if s.get (F.WMAC_TXCFG_RETRY r) < x.retries + 1 then ((s.wmacCnt r 6).wFrameEnd r h 6 0).staReport e false
    else if s.overdue x then (s.mldCnt 1).wEnd h 9 none
    else s.wChange h fun x => { x with retries := x.retries + 1 }

/-- A PPDU has left the air in full, R198, R219, R221: WPHY reports the power used. -/
def State.ppduEnd (s : State) (id : Nat) : State :=
  match s.wl.tx.find? fun t => t.id == id with
  | none => s
  | some x =>
    let r := x.radio
    let s := s.setWl { s.wl with tx := s.wl.tx.filter (fun t => t.id != id), txPow := kset s.wl.txPow r x.pow }
    x.users.foldl (fun t u =>
      if 1024 ≤ u.sta then
        u.frames.foldl (fun t h => if x.kind = 8 then t.wFrameEnd r h 0 x.stamp else t.grpSent r (u.sta - 1024) h x.stamp) t
      else
        let bad := u.frames.filter fun h => !x.acked.contains h
        let t := u.frames.foldl (fun t h =>
          if x.acked.contains h then (t.wFrameEnd r h 0 x.stamp).staReport u.sta true else t.wFailed r u.sta h) t
        if u.frames.isEmpty then t else t.adapt r u.sta u.frames.length bad.length) s

/-- The PPDUs of a radio are cut: their frames end CUT, R107, R199. -/
def State.ppduCut (s : State) (r : Nat) : State :=
  let l := s.wl.tx.filter fun t => t.radio == r
  let s := s.setWl { s.wl with tx := s.wl.tx.filter fun t => t.radio != r }
  l.foldl (fun t x => x.users.foldl (fun t u => u.frames.foldl (fun t h => t.wFrameEnd r h 5 0) t) (t.limCut x.id)) s

/-- A PPDU is refused COEX at its launch, R110: its frames stay queued, a timed one is LATE. -/
def State.ppduCoex (s : State) (id : Nat) : State :=
  match s.wl.tx.find? fun t => t.id == id with
  | none => s
  | some x =>
    let t := (s.setWl { s.wl with tx := s.wl.tx.filter fun t => t.id != id }).limCut id
    if x.kind = 8 then x.users.foldl (fun t u => u.frames.foldl (fun t h => t.wFrameEnd x.radio h 1 0) t) t else t

/-! TXOPs, R220 to R226 -/

/-- The longest beginning of a plan whose time is at most a bound. -/
def fitSteps (r bound : Nat) (l : List WStep) : Nat :=
  (List.range (l.length + 1)).foldl (fun b n => if stepsTime r (l.take n) ≤ bound then n else b) 0

/-- The end of the service periods a plan serves, as a distance in ns, R223. -/
def State.spIn (s : State) (r : Nat) (l : List WStep) : Nat :=
  (l.flatMap fun x => x.users.filterMap fun u => match kget s.wl.sta u.sta with
    | some y => (s.spEnd u.sta r y).map fun t => t - s.ns
    | none => none).foldl min (2 ^ 60)

/-- What the stations' answers of a step teach MLD: feedback and buffer reports, R220, R222; an EMLSR peer that answers a poll stays on the
link to the end of the TXOP, and its transition beyond, R215, R217. -/
def State.stepLearn (s : State) (r : Nat) (x : WStep) (o : TxopObs) : State :=
  if x.kind = 4 then
    (x.users.filter fun u => o.fed.contains u.sta).foldl (fun t u => match kget t.wl.sta u.sta with
      | some y => t.setWl { t.wl with sta := kset t.wl.sta u.sta { y with fed := kset y.fed r t.ns } }
      | none => t) s
  else if x.kind = 2 || x.kind = 3 then
    (o.bsr.filter fun b => x.users.any fun u => u.sta == b.1).foldl (fun t b => match kget t.wl.sta b.1 with
      | some y => t.setWl { t.wl with sta := kset t.wl.sta b.1 { y with
          bsr := kset y.bsr b.2.1 b.2.2, bsrAt := kset y.bsrAt b.2.1 t.ns,
          em := if y.emlsr then some (r, (t.wmac r).hold + y.tran) else y.em } }
      | none => t) s
  else s

/-- A user of a step as it may be served at time a: its entry is there and its map and mode allow the link, R216, R217; its frames are
still queued. -/
def State.userNow (s : State) (r kind a : Nat) (u : WUser) : Option WUser :=
  if 1024 ≤ u.sta then some { u with frames := u.frames.filter fun h => (s.gq r (u.sta - 1024)).any fun f => f.out.handle == h }
  else match kget s.wl.sta u.sta with
    | none => none
    | some x =>
      if (kget x.links r).isNone || s.emlsrBusy r x || ((kind ≤ 1 || kind = 5) && !emOk r a x) then none
      else some { u with frames := u.frames.filter fun h => match s.wFind h with
        | some f => mapAllows x f.tid r && !s.claimed h
        | none => false }

/-- A step as it may be carried out at time a; none when its frames are gone. -/
def State.stepNow (s : State) (r a : Nat) (x : WStep) : Option WStep :=
  let us := x.users.filterMap (s.userNow r x.kind a)
  if (x.kind ≤ 1 || x.kind = 5) && !(x.users.isEmpty) && us.all (fun u => u.frames.isEmpty) then none else some { x with users := us }

/-- With BCSYNC a downlink PPDU of Radio B or C ends with the one that the other has on the air, R215: a longer one takes fewer frames, a
shorter one is padded; none when no frame fits. -/
def State.stepSync (s : State) (r a : Nat) (x : WStep) : Option WStep :=
  let e := (s.path (if r = 1 then 2 else 1) 0).airEnd
  if !s.on F.MLD_PLANCFG_BCSYNC || r = 0 || !(x.kind ≤ 1 || x.kind = 5) || e ≤ a then some x
  else
    let us := if a + x.air ≤ e + 8000 then x.users
      else x.users.map fun u => { u with frames := s.fillTo x.fmt u.mcs u.nss x.ru (e - a) u.frames }
    if us.all (fun u => u.frames.isEmpty) && !x.users.isEmpty then none
    else some { x with users := us, air := e - a, dur := e - a + (x.dur - x.air) }

/-- The steps of a TXOP in order, each SIFS after the one before; and the end of the last. -/
def State.runSteps (s : State) (r : Nat) (o : TxopObs) (a : Nat) (first : Bool) : List WStep → State × Nat
  | [] => (s, a)
  | x :: l =>
    match (s.stepNow r a x).bind (s.stepSync r a) with
    | none => s.runSteps r o a first l
    | some y =>
      let p := s.ppdu r y.kind y.fmt y.ru y.users o.acked [] (!first) a y.air
      let t := if p.1 = 0 then p.2.stepLearn r y o
        else if p.1 < 32 then y.users.foldl (fun t u => u.frames.foldl (fun t h => t.wFrameEnd r h p.1 0) t) p.2
        else p.2
      let q := t.runSteps r o (a + y.dur + sifs r) false l
      (q.1, if l.isEmpty then a + y.dur else q.2)

/-- A lower MAC may contend, R89, R204, R212, R217, R225, R230: its radio is on and changes no channel, its path is in Rx or Tx, it holds no
TXOP, and neither energy, a valid L-SIG nor a quiet turn makes the medium busy. -/
def State.mayContend (s : State) (r : Nat) (energy : List Int) : Bool :=
  r < 3 && s.enabled (W.WMAC r) && s.enabled (W.WPHY r) && s.pwr.capState == 0 && s.linkUp r && (s.wmac r).hold ≤ s.ns
    && (s.wrx r).cca ≤ s.ns && !s.primBusy r energy && !(r == 0 && s.mlc.quiet.any fun q => q.1 ≤ s.ns && s.ns < q.2)

/-- A plan has been taken, R220: every other standing plan that claims one of its frames is void, and revised. -/
def State.planVoid (s : State) (hs : List Nat) : State :=
  let dead := s.wl.plans.filter fun p => p.2.steps.any fun x => x.users.any fun u => u.frames.any fun h => hs.contains h
  dead.foldl (fun t p =>
    ((t.setWl { t.wl with plans := kdel t.wl.plans p.1 }).mldCnt 4).planRev (p.1 / 4) (p.1 % 4)
      ((kget t.wl.inp (p.1 / 4)).getD { energy := [], corr := [] })) s

/-- The plan a TXOP takes, R24, R220: the one of its access category that reached the dock at least 16 µs before, else a plan miss and
single-user frames. -/
def State.planTake (s : State) (r ac : Nat) (energy : List Int) : List WStep × State :=
  let k := 4 * r + ac
  let miss : List WStep × State :=
    let t := (s.wmacCnt r 0).raise (W.WMAC r) E.WMAC_PLANMISS
    let c := (t.planC r ac).filter fun e => match kget t.wl.sta e with | some x => emOk r t.ns x | none => false
    t.planDl r ac 0 (t.clearSubs r (t.ccaBusy r energy)) (c.take 1)
  match kget s.wl.plans k with
  | none => miss
  | some p => if p.at' + 16000 ≤ s.ns then (p.steps, s.setWl { s.wl with plans := kdel s.wl.plans k }) else miss

/-- A non-HT duplicate CF-End at 6 Mb/s, R223, when CFENDMIN is left of the TXOP; and the end of the TXOP. -/
def State.cfEnd (s : State) (r a til : Nat) : State × Nat :=
  let b := a + sifs r
  let e := b + nonHtAir 20
  if a + s.get (F.WMAC_TXCFG_CFENDMIN r) * 1000 ≤ til && !s.quietMeets r b e then
    let p := s.ppdu r 7 1 3 [] [] [] true b (nonHtAir 20)
    (p.2.wmacCnt r 7, if p.1 = 0 then e else a)
  else (s, max a til)

/-- The radio holds its TXOP until t. -/
def State.holdTo (s : State) (r t : Nat) : State := (s.setWmac r { s.wmac r with hold := t }).medBusy r t

/-- A timed frame's user, format, resource unit and air time on a radio. -/
def State.timedUser (s : State) (r : Nat) (e : WEnt) : (WUser × Nat × Nat × Nat) × State :=
  let h := e.out.handle
  match kget s.wl.sta e.sta with
  | none => (({ sta := e.sta, ru := 0, mcs := 0, nss := 1, pow := mcsLimit r 0 0, frames := [h] }, 0, 3, nonHtAir (s.frmLen h)), s)
  | some x =>
    let m := s.staMcs r x
    let f := s.suFmt r m x
    let ru := s.chanW r + 3
    let n := s.staNss r x
    (({ sta := e.sta, ru := 0, mcs := m, nss := n, pow := mcsLimit r f.1 m, frames := [h] }, f.1, ru, s.airHs f.1 m n ru [h]), f.2)

/-- The PPDU of a timed frame that has been given to its path. -/
def State.armed (s : State) (r h : Nat) : Option WTx :=
  s.wl.tx.find? fun t => t.radio == r && t.kind == 8 && t.users.any fun u => u.frames.contains h

/-- A timed frame's PPDU is given to its path to be launched at T, R28, R89, R110. -/
def State.timedSend (s : State) (r : Nat) (e : WEnt) (t : Nat) : Nat × State :=
  let p := s.timedUser r e
  let u := p.1
  p.2.ppdu r 8 u.2.1 u.2.2.1 [u.1] [e.out.handle] [] true t u.2.2.2

/-- The TXOP held admits a timed frame at T, R89, R230. -/
def State.admits (s : State) (r : Nat) (e : WEnt) (t : Nat) : Bool :=
  let air := (s.timedUser r e).1.2.2.2
  t + air ≤ (s.wmac r).hold && !s.quietMeets r t (t + air)

/-- The timed frames whose time lies in the TXOP a radio holds are given to its path, so that it is ready at T (log entry 66). -/
def State.wArm (s : State) (r : Nat) : State :=
  (s.wl.timed.filter fun e => e.1 == r).foldl (fun u e =>
    let t := u.nearTime e.2.out.launch
    if u.ns < t && (u.armed r e.2.out.handle).isNone && u.admits r e.2 t then
      let p := u.timedSend r e.2 t
      if p.1 = 0 then p.2 else u
    else u) s

/-- The steps of a plan that a TXOP carries out, R223, R230: those that fit within its limit, the service periods it serves and the time
before a quiet turn; the others are dropped from the end. -/
def State.planFit (s : State) (r ac : Nat) (plan : List WStep) : List WStep × State :=
  let l := match s.txopLim r ac with | none => plan.take 1 | some _ => plan
  let bound := min ((s.txopLim r ac).getD (2 ^ 60)) (s.spIn r l)
  let n := fitSteps r (min bound (s.quietIn r)) l
  let t := (List.range (plan.length - n)).foldl (fun t _ => t.mldCnt 5) s
  (l.take n, t.raiseIf (n < fitSteps r bound l) (W.WMAC r) E.WMAC_QUIET)

/-- The TXOP of an access category, R220, R223, R225, R230. -/
def State.txopRun (s : State) (r ac : Nat) (o : TxopObs) : State :=
  let now := s.ns
  let p := s.planTake r ac o.energy
  let s := p.2.planVoid (p.1.flatMap fun x => x.users.flatMap fun u => u.frames)
  let f := s.planFit r ac p.1
  let til := now + min ((f.2.txopLim r ac).getD (stepsTime r f.1)) (f.2.quietIn r)
  let q := (f.2.setWmac r { f.2.wmac r with hold := til }).runSteps r o now true f.1
  let c := match s.txopLim r ac with
    | none => (q.1, q.2)
    | some _ => if f.1.isEmpty then (q.1, q.2) else q.1.cfEnd r q.2 til
  let t := (c.1.holdTo r c.2).wArm r
  let sent := f.1.flatMap fun x => x.users.flatMap fun u => if u.sta < 1024 then u.frames else []
  if sent.isEmpty || sent.any fun h => o.acked.contains h then t.cwOk r ac else t.cwFail r ac

/-! Beacons, R218 -/

/-- The beacon of BSS n from its template with its timestamp. -/
def State.bcnOf (s : State) (r n : Nat) : List Byte :=
  let a := s.get (F.WMAC_BCNADDR_ADDR r n)
  putAt (s.peeks (a + 4) (s.peekN a 4 % 4096)) 24 (toLE 8 s.tsf)

/-- The beacons that wait go, one at a time, once the medium has been idle for AIFSN 1, with a contention window of 0; not into a quiet
turn, nor while a channel change is pending (R212). -/
def State.bcnGo (s : State) (r : Nat) : State :=
  match (s.wmac r).bcn with
  | [] => s
  | n :: l =>
    let d := s.bcnOf r n
    if !s.mayContend r [] || s.ns < (s.wmacAt r s.ns).busy + aifs r 1 || s.quietMeets r s.ns (s.ns + nonHtAir d.length) then s
    else
      let t := s.setWmac r { s.wmac r with bcn := l }
      (t.ppdu r 6 0 3 [] [] d false t.ns (nonHtAir d.length)).2

/-- TBTT, R218: the beacon of an enabled BSS contends ahead of all access categories. -/
def State.tbttOp (s : State) (r n : Nat) : State :=
  let bi := max 1 (s.get (F.WMAC_BSSCTL_BI r n)) * 1024
  if 2 < r || 15 < n || !s.enabled (W.WMAC r) || s.pwr.capState ≠ 0 || !s.on (F.WMAC_BSSCTL_EN r n) || s.tsf % bi ≠ 0 then s
  else
    let x := s.wmac r
    (s.setWmac r { x with bcn := if x.bcn.contains n then x.bcn else x.bcn ++ [n] }).bcnGo r

def execTbtt (r bss : Nat) (s : State) : Host.Outcome State Fault Refusal := .next (s.tbttOp r bss)

/-- What the lower MACs do as time passes: beacons that wait go. -/
def State.bcnTick (s : State) : State := ((s.bcnGo 0).bcnGo 1).bcnGo 2

/-- TXOP_WIN, R24, R220, R223, R225, R230: acs are the access categories that reach zero at this slot boundary. One whose backoff cannot have
run out yet is none of them; a beacon that waits goes first. -/
def State.txop (s : State) (r : Nat) (acs : List Nat) (o : TxopObs) : State :=
  if !s.mayContend r o.energy then s
  else if !(s.wmac r).bcn.isEmpty then s.bcnGo r
  else match acs.filter fun a => a ≤ 3 && s.boDone r a with
  | [] => s
  | a0 :: rest =>
    let ac := rest.foldl max a0
    (((a0 :: rest).filter fun a => a != ac).foldl (fun t a => (t.wmacCnt r 3).cwFail r a) s).txopRun r ac o

def execTxopWin (r : Nat) (acs : List Nat) (o : TxopObs) (s : State) : Host.Outcome State Fault Refusal := .next (s.txop r acs o)

/-! Timed frames, R89, R230 -/

/-- A launch time has come, and has not been stepped over: within the 1 µs of R28, R82 (log entry 26). -/
def State.atTime (s : State) (t : Nat) : Bool := t ≤ s.ns && s.ns ≤ t + 1000

/-- The launch time of a timed WLAN frame, R89: idle is the medium. It goes at T within a TXOP that admits it, or is refused LATE. -/
def State.wLaunch (s : State) (r h : Nat) (idle : Bool) : State :=
  match s.wl.timed.find? fun e => e.1 == r && e.2.out.handle == h with
  | none => s
  | some e =>
    let t := s.nearTime e.2.out.launch
    let late := fun (u : State) => ((u.wmacCnt r 1).raise (W.WMAC r) E.WMAC_LATE).wFrameEnd r h 1 0
    if s.ns < t then s
    else
      let ok := s.atTime t && idle && (s.wrx r).cca ≤ s.ns && s.admits r e.2 t
      match s.armed r h with
      | some x => if ok then s else late (s.ppduBack r x.id)
      | none =>
        if !ok then late s
        else
          let p := s.timedSend r e.2 s.ns
          if p.1 = 0 then p.2 else if p.1 < 32 then p.2.wFrameEnd r h p.1 0 else late p.2

/-! Responses, R202, R230 -/

/-- The response a reception solicits, from a to b in ns, R230, R332: a CTS that would meet a quiet turn is not sent, any other response
is; LIM checks it as every PPDU. -/
def State.wRespond (s : State) (r : Nat) (l : List (List Byte)) (resp : Option (Nat × Nat)) : State :=
  match resp with
  | none => s
  | some (a, b) =>
    let cts := l.any fun d => mpduOk d && (d.headD 0).toNat == 0xB4
    let meets := s.quietMeets r a b
    if meets && cts then (s.wmacCnt r 4).raise (W.WMAC r) E.WMAC_QUIET
    else
      let t := if meets then s.wmacCnt r 5 else s
      (t.ppdu r (if cts then 10 else 9) 0 3 [] [] [] true a (b - a)).2

/-- WLAN_PSDU_END, R202, R206, R210, R237: the MPDUs and reports go on, the receiver returns to Search, and what the PPDU solicits is
sent. -/
def State.wPsdu (s : State) (r : Nat) (l : List WPsdu) (eq : List EqUser) (resp : Option (Nat × Nat)) : State :=
  let x := s.wrx r
  if x.st ≠ 4 then s
  else
    let t := l.foldl (fun t p => t.wWalk r x.fmt p) s
    let t := ((t.wEqExport r eq x.fmt).wrxFree r).wrxSearch r
    t.wRespond r (l.flatMap fun p => (psduWalk x.fmt p).filterMap fun m => match m with | .inl d => some d | .inr _ => none) resp

def execWlanPsduEnd (r : Nat) (l : List WPsdu) (eq : List EqUser) (resp : Option (Nat × Nat)) (s : State) :
    Host.Outcome State Fault Refusal := .next (s.wPsdu r l eq resp)

end Sys2Proof.Machine
end

