-- ==== Sys2Proof/Machine/Release.lean ====
section
/-!
DEFINITION. The release stage and how wagons end: spec/11, R238, R241, R247, R249 to R252; the rings of the application
cluster: spec/17, R351.
-/

namespace Sys2Proof.Machine

/-! The rings, R351 -/

/-- The address of ring r. -/
def State.ringBase (s : State) (r : Nat) : Nat := s.get (F.APC_RINGBASEHI_ADDR r) * 2 ^ 32 + s.get (F.APC_RINGBASELO_ADDR r)

/-- Entries of ring r that the controller software has not read. -/
def State.ringUsed (s : State) (r : Nat) : Nat :=
  (s.get (F.APC_RINGIDX_PROD r) + 65536 - s.get (F.APC_RINGIDX_CONS r)) % 65536

/-- The capacity of ring r. -/
def State.ringCap (s : State) (r : Nat) : Nat := min 65535 (2 ^ s.get (F.APC_RINGCFG_SIZE r))

/-- RING_WRITE, R351: an output of wagon x to its ring; a full ring, or one not in use, drops it with QFULL. Words that would fall in the
board or the map are discarded, R147, R170. -/
def State.ringWrite (s : State) (x : Wagon) (o : Out) : State :=
  let r := o.queue % 8
  if !s.on (F.APC_RINGCFG_EN r) || s.ringCap r ≤ s.ringUsed r then
    (s.satAdd (F.APC_RINGDROP_COUNT r) (F.APC_RINGDROP_OVF r) W.APC E.APC_CNTSAT 1).outDone o x.miss 3 none
  else
    let p := s.get (F.APC_RINGIDX_PROD r)
    let len := bitsOf (s.hdrW o.handle 0) 10 14
    let ws := [o.handle % 2 ^ 20 + x.origin % 32 * 2 ^ 20, len + x.train % 4096 * 2 ^ 14, x.user, x.seq % 65536 + p * 65536]
    let a := s.ringBase r + 16 * (p % 2 ^ s.get (F.APC_RINGCFG_SIZE r))
    let t := ((List.range 4).foldl (fun t k => t.dmaWord (a + 4 * k) (ws.getD k 0)) s).set (F.APC_RINGIDX_PROD r) (p + 1)
    let t := t.raiseIf (max 1 (t.get (F.APC_RINGCFG_THRESH r)) ≤ t.ringUsed r) W.APC (E.APC_RING + r)
    if o.compl then t.txDone o.ctrain 0 none x.miss none else t

/-! Release, R249 -/

/-- An output of a released wagon reaches its destination, R250; one whose block is dark finishes as when its link is down,
R361. -/
def State.handOut (s : State) (x : Wagon) (o : Out) : State :=
  match o.dest with
  | 0 => if s.winOn (W.SHP (o.queue % 8)) then s.shpEnqueue o x.miss else s.outDone o x.miss 6 none
  | 1 => (List.range 3).foldl (fun t r => t.wArm r) (s.mldEnqueue o x.miss x.dl)
  | 2 => s.mnEnqueue o x.miss
  | 3 => s.mnEnqueue o x.miss
  | 4 => s.cplEnqueue o x.miss
  | 5 => s.ringWrite x o
  | _ => s.outDone { o with keep := false } x.miss 0 none

/-- A child takes its place, R249: the successor that of its parent, another the next of its train. -/
def State.childPlace (s : State) (x : Wagon) (c : Nat) : State :=
  match s.wag c with
  | none => s
  | some y =>
    if x.succ = some c then
      (s.setWag c { y with train := x.train, seq := x.seq, pend := false }).settle c
    else
      let tr := s.train y.train
      ((s.setTrain y.train ((tr.1 + 1) % 65536, tr.2)).setWag c { y with seq := tr.1, pend := false }).settle c

/-- The Done wagon that holds place NEXT of a train. -/
def State.relHead (s : State) (t : Nat) : Option (Nat × Wagon) :=
  let tr := s.train t
  if tr.1 = tr.2 then none
  else s.yard.wagons.find? fun e => e.2.train == t && !e.2.pend && e.2.st == 5 && e.2.seq == tr.2

/-- One wagon is released: its outputs go to their destinations in order, its children take their places, it is Free, and
NEXT moves on unless a successor took the place. -/
def State.relOne (s : State) (w : Nat) (x : Wagon) : State :=
  let t := if x.void then s else x.kids.foldl (fun t c => t.childPlace x c) (x.outs.foldl (fun t o => t.handOut x o) s)
  let t := (t.wagFree w).yardCnt 6
  if x.succ.isSome && !x.void then t
  else
    let tr := t.train x.train
    t.setTrain x.train (tr.1, (tr.2 + 1) % 65536)

/-- RELEASE_STAGE, R249: trains in a work list, each released while its head is Done; at most n moves. -/
def State.relRun (s : State) : Nat → List Nat → State
  | 0, _ => s
  | _, [] => s
  | n + 1, t :: ts =>
    match s.relHead t with
    | none => s.relRun n ts
    | some (w, x) =>
      let kids := x.kids.filterMap fun c => (s.wag c).map fun y => y.train
      (s.relOne w x).relRun n (kids ++ t :: ts)

/-- The release stage after wagons of a train became Done: every release frees one Done wagon and leads to at most 17 trains. -/
def State.release (s : State) (t : Nat) : State :=
  s.relRun (18 * ((s.yard.wagons.filter fun e => e.2.st == 5).length + 1)) [t]

/-- A wagon that has become Done is released with what follows it, once it has a place. -/
def State.wagDone (s : State) (w : Nat) : State :=
  match s.wag w with
  | none => s
  | some x => if x.pend then s else s.release x.train

/-- WEND, R241, R245: done commits what the program staged, void discards it. -/
def execWend (e : Nat) (void : Bool) (s : State) : Host.Outcome State Fault Refusal :=
  .next (match s.running e with
    | none => s
    | some (w, _) => (((if void then s.voidWag w else s.commit w).engFree e).wagDone w).coachCheck (e / 8))

/-- The wagon of an engine ends as by WEND void. -/
def State.trapWag (s : State) (e : Nat) : State :=
  match s.running e with
  | none => s
  | some (w, _) => (((s.voidWag w).engFree e).wagDone w).coachCheck (e / 8)

/-- A trap, R247: the wagon ends void, and the coach counts and raises EXCEPT. -/
def State.engTrap (s : State) (e : Nat) : State :=
  if (s.running e).isNone then s
  else
    let c := e / 8
    ((s.satAdd (F.ENG_EXCEPT_COUNT c) (F.ENG_EXCEPT_OVF c) (W.ENG c) E.ENG_CNTSAT 1).raise (W.ENG c) E.ENG_EXCEPT).trapWag e

/-- ENGINE_TRAP, R247. -/
def execEngineTrap (e : Nat) (s : State) : Host.Outcome State Fault Refusal := .next (if e < 48 then s.engTrap e else s)

/-- WAGON_ABANDON, R241, R252: a Filling wagon at its deadline plus YARD_ABANDON is void, as every wagon that VOID counts, and Done, counted and raised. -/
def execWagonAbandon (wid : Nat) (s : State) : Host.Outcome State Fault Refusal :=
  .next (match s.wag wid with
    | none => s
    | some x =>
      if x.st = 2 && s.reached ((x.dl + max 1 (s.get F.YARD_ABANDON_MS) * 1000000) % wMod) then
        let t := s.unstage wid
        match t.wag wid with
        | none => t
        | some y => ((((t.setWag wid { y with st := 5, void := true }).yardCnt 4).yardCnt 1).raise W.YARD E.YARD_ABANDON).wagDone wid
      else s)

/-! Engine failures, R246, R375 -/

/-- An engine fails, R246, with FAIL raised by its coach. -/
def State.engFails (s : State) (e : Nat) (charge : Bool) : State :=
  ((s.engFail e charge).raise (W.ENG (e / 8)) E.ENG_FAIL).coachCheck (e / 8)

/-- ENGINE_STALL, R375: an engine that holds a wagon and is not halted has retired nothing for NOPROG µs. -/
def execEngineStall (e : Nat) (s : State) : Host.Outcome State Fault Refusal :=
  .next (if e < 48 && (s.running e).isSome && !(s.eng e).halted then
    ((((s.engFails e true).fltCnt 2).raise W.FLT E.FLT_STALL)).fltAir (0x2100 + e) 0 false else s)

/-- ENGINE_RUNMAX, R375: the wagon ends as a trap, RUNLONG counted; halted engines are not timed (R396). -/
def execEngineRunmax (e : Nat) (s : State) : Host.Outcome State Fault Refusal :=
  .next (if e < 48 && (s.running e).isSome && !(s.eng e).halted then
    ((s.engTrap e).fltCnt 3).raise W.FLT E.FLT_RUNLONG else s)

/-! Program loads, R248 -/

/-- PROGRAM_LOAD: START of a coach's load. -/
def execProgramLoad (rq : Rq) (coach : Nat) (s : State) : Host.Outcome State Fault Refusal :=
  .next (if coach < 6 then s.startLoad rq coach else s)

/-! Launch times, R89 -/

/-- TIME_TICK, R77, R218: beacons that wait for the medium go once it has been idle. -/
def execTimeTick (s : State) : Host.Outcome State Fault Refusal := .next s.tickTime.bcnTick

/-- LAUNCH_TIME_REACHED: a timed frame of a port or of a radio reaches its time. -/
def execLaunchTimeReached (eth : Bool) (unit handle : Nat) (open' : Bool) (s : State) : Host.Outcome State Fault Refusal :=
  .next (if eth then (if unit < 8 then s.shpLaunch unit handle else s) else if unit < 3 then s.wLaunch unit handle open' else s)

end Sys2Proof.Machine
end

