-- ==== Sys2Proof/Machine/Tx.lean ====
section
/-!
DEFINITION. The commands of the front-end paths with what follows in the basebands: spec/05, R107 to R121, R202.
-/

namespace Sys2Proof.Machine

/-- A path with nothing left to send in Tx goes where AFTERTX leads, R107. -/
def State.pathSettle (s : State) (r p : Nat) : State :=
  if (s.path r p).txs.isEmpty && s.pst r p = 4 then s.pathGo r p (s.after r p (s.get (F.RFE_PATHCFG_AFTERTX r p))) else s

/-- PATH_TRANSITION_DONE, R106, R107, R134, R202: leaving Rx ends a reception; Tx on path 2 of RFE_M blanks it. -/
def execPathTransitionDone (r p : Nat) (s : State) : Host.Outcome State Fault Refusal :=
  .next (
    let t := s.pathArrive r p
    let t := if s.pst r p = 3 && t.pst r p ≠ 3 && r < 3 then t.wAbort r else t
    let t := if t.pst r p = 4 && s.pst r p ≠ 4 && r = 3 && p = 2 then t.blank 2 else t
    if r = 3 then t.mlcPath else t)

/-- PATH_RX_COMMAND, R107, R109. -/
def execPathRxCommand (r p : Nat) (rx : Bool) (freq width : Nat) (s : State) : Host.Outcome State Fault Refusal :=
  .next (match s.pathRx r p rx with
    | none => s
    | some t => if rx then t.rxEntry r p freq width else t)

/-- PATH_TX_COMMAND, R107, R109, R110, R116, R202: rl is the return loss of each transmitting port, by its index in RFE_REFLn. A path
without Tx, or a port of another path, has no such command (R106, R13). An accepted one ends a WLAN radio's reception. -/
def State.pathTx (s : State) (r p : Nat) (c : TxCmd) (rl : List (Nat × Nat)) : State :=
  if portPath c.port ≠ (r, p) then s
  else
    let chk := s.txCheck r p c
    if chk.1 = 0 then
      let t := ((s.txAccept r p chk.2).txBound r p).reflMeas r rl
      if r < 3 then t.wAbort r else t
    else (s.txRefuse r chk.1).txStatus r p chk.1

def execPathTxCommand (r p : Nat) (c : TxCmd) (rl : List (Nat × Nat)) (s : State) : Host.Outcome State Fault Refusal :=
  .next (s.pathTx r p c rl)

/-- What a refusal COEX means for the transmission's owner, when t is the state in which its path no longer has it. -/
def State.coexOwner (t s : State) (r p id : Nat) : State :=
  if ((s.path r p).txs.any fun d => d.id == id) && !((t.path r p).txs.any fun d => d.id == id) then
    (if r = 3 then t.carrRefused id 5 else t.ppduCoex id)
  else t

/-- Scoped transmissions that are within LEAD of their launch and not on the air are refused COEX: an external request has ended the hold
they were to launch in, R120. -/
def State.coexPurge (s : State) : State :=
  s.rfe.paths.foldl (fun t e =>
    if !s.coexScope (e.1 / 3) (e.1 % 3) then t
    else (e.2.txs.filter fun d => decide (s.ns < d.at' ∧ d.at' ≤ s.ns + s.coexLeadNs)).foldl (fun u d =>
      (u.coexRefuse (e.1 / 3) (e.1 % 3) d.id).coexOwner u (e.1 / 3) (e.1 % 3) d.id) t) s

/-- After the last symbol of the frame that an external request has let finish no other starts, R120; s is the state before it. -/
def State.coexPurged (t s : State) : State :=
  if s.rfe.coex.ending && t.rfe.coex.hold.isNone then t.coexPurge else t

/-- COEX_REQ_IN_RISE, R119, R120: prio is COEX_PRIO. An external priority above the hold's ends it with the current frame; with none
on the air at once. -/
def State.coexRise (s : State) (prio : Bool) : State :=
  let e := s.coexExt prio
  let higher := match s.rfe.coex.hold with | some h => decide (h < e) | none => false
  let t := s.setCoex { s.rfe.coex with reqIn := true, prio := prio, ext := e, ending := s.rfe.coex.ending || higher }
  if higher && !s.coexOnAir then (t.coexPurge).coexRelease else t

def execCoexReqInRise (prio : Bool) (s : State) : Host.Outcome State Fault Refusal :=
  .next (if s.coexOn then s.coexRise prio else s)

/-- A PPDU has left the air: each transmitting port's return loss is measured, R116. -/
def State.ppduOver (t : State) (r id : Nat) : State :=
  (if t.wl.tx.any fun x => x.id == id then t.reflAir r (t.wPorts r) else t).ppduEnd id

/-- PATH_TX_END, R107, R117, R251. -/
def execPathTxEnd (r p id : Nat) (canc : List CancMeas) (s : State) : Host.Outcome State Fault Refusal :=
  .next (
    let t := (s.txEnd r p id canc).coexPurged s
    if r = 3 then t.carrSent id else t.ppduOver r id)

/-- PATH_RX_END, R107, R108: AFTERRX applies; path 0 of RFE_M ignores it. -/
def execPathRxEnd (r p : Nat) (s : State) : Host.Outcome State Fault Refusal :=
  .next (if s.pst r p = 3 && !(r = 3 && p = 0) then s.pathGo r p (s.after r p (s.get (F.RFE_PATHCFG_AFTERRX r p))) else s)

/-- PATH_RELEASE, R107. -/
def execPathRelease (r p : Nat) (s : State) : Host.Outcome State Fault Refusal := .next (s.pathFree r p)

/-- COEX_LEAD, R120, R121. -/
def execCoexLead (r p id : Nat) (reqIn : Bool) (s : State) : Host.Outcome State Fault Refusal :=
  .next ((s.coexStart r p id reqIn).coexOwner s r p id)

/-- COEX_GRANT_SAMPLE, R110 row 7, R121. -/
def execCoexGrantSample (r p id : Nat) (grant : Bool) (s : State) : Host.Outcome State Fault Refusal :=
  .next ((s.coexSample r p id grant).coexOwner s r p id)

/-- Everything a front end sends is cut, R107. -/
def State.airStop (s : State) (r : Nat) : State :=
  if r = 3 then (s.meshStop 1).meshStop 2 else s.ppduCut r

/-- The radio of a WLAN aerial chain, R374. -/
def chainRadio (code : Nat) : Nat := if code % 256 < 4 then 0 else if code % 256 < 12 then 1 else 2

/-- FAULT_EVENT, R373: hard events are those of aerial chains (R374); a WLAN chain that is retired ends the reception in progress, which is
counted ABORTED (R380). -/
def execFaultEvent (code page : Nat) (hard : Bool) (s : State) : Host.Outcome State Fault Refusal :=
  .next (
    let t := s.fltAir code page (hard && code / 256 == 0x10)
    if code / 256 = 0x10 && code % 256 < 20 && !s.retired code && t.retired code then t.wAbort (chainRadio code) else t)

/-- MASK_MEASURE, R115, R199: excess over the mask in 0.25 dB. -/
def execMaskMeasure (r port : Nat) (excess : Int) (s : State) : Host.Outcome State Fault Refusal :=
  .next (
    let t := s.maskOp r port excess
    let cut := t.on (F.RFE_MASKLAST_CUT r) && 0 < excess && (portPath port).1 = r
    if !cut then t
    else if r = 3 then (t.pathSettle 3 (carrPath port)).pathHold 3 (carrPath port)
    else (((t.ppduCut r).pathCut r 0 6).pathSettle r 0).pathHold r 0)

/-! START of a front end, R107, R112, R113: the row acts when OPSEL names its operation -/

/-- RFE_CAL_SWEEP. -/
def execRfeCalSweep (rq : Rq) (r : Nat) (s : State) : Host.Outcome State Fault Refusal :=
  .next (if s.get (F.RFE_OPSEL_OP r) = 0 then s.startSweep rq r else s)

/-- RFE_SURVEY. -/
def execRfeSurvey (rq : Rq) (r : Nat) (s : State) : Host.Outcome State Fault Refusal :=
  .next (if s.get (F.RFE_OPSEL_OP r) = 1 then s.startSurvey rq r else s)

/-- START with OP = 2: what the path sends is cut as it goes to Cal. -/
def State.fgStart (s : State) (rq : Rq) (r : Nat) : State :=
  let p := s.get (F.RFE_OPSEL_PATH r)
  let t := s.startFg rq r
  if t.pst r p = 5 && s.pst r p ≠ 5 then (if r = 3 then t.meshStop p else (t.ppduCut r).wAbort r) else t

/-- RFE_FG_CAL. -/
def execRfeFgCal (rq : Rq) (r : Nat) (s : State) : Host.Outcome State Fault Refusal :=
  .next (if s.get (F.RFE_OPSEL_OP r) = 2 then s.fgStart rq r else s)

/-- START with the operation OPSEL names; a reserved code fails it with cause 3. -/
def State.rfeOp (s : State) (rq : Rq) (r : Nat) : State :=
  match s.get (F.RFE_OPSEL_OP r) with
  | 0 => s.startSweep rq r
  | 1 => s.startSurvey rq r
  | 2 => s.fgStart rq r
  | _ => s.opStart rq (W.RFE r) false true

/-- CTRL.ENABLE of a front end written, R107. -/
def State.rfeCtrl (s : State) (r : Nat) (en : Bool) : State :=
  if en then s.rfeEnable r true else ((s.airStop r).rfeEnable r false)

end Sys2Proof.Machine
end

