-- ==== Sys2Proof/Machine/Regs.lean ====
section
/-!
DEFINITION. Reading registers: the tables of every window, the page header, fields that show the state of a block, the latches of
R67 and R75, and the side effects of a read: spec/03, R54 to R63, R67, R73 to R75.
-/

namespace Sys2Proof.Machine

/-! The tables -/

/-- The registers of a window beyond the common page header. -/
def winRows (w : Nat) : List RegRow :=
  if w = 0x00 then rowsSYS else if w = 0x01 then rowsPWR else if w = 0x02 then rowsTIME else if w = 0x03 then rowsFLT
  else if w = 0x04 then rowsNVS else if w = 0x05 then rowsLIM else if w = 0x0F then rowsDBG
  else if 0x08 ≤ w ∧ w ≤ 0x0B then rowsCHK
  else if 0x10 ≤ w ∧ w ≤ 0x13 then rowsRFE else if w = 0x14 then rowsMPHY else if w = 0x15 then rowsMLC
  else if w = 0x16 then rowsMNODE else if 0x18 ≤ w ∧ w ≤ 0x1A then rowsWPHY else if 0x1C ≤ w ∧ w ≤ 0x1E then rowsWMAC
  else if w = 0x1F then rowsMLD else if w = 0x20 then rowsYARD else if 0x21 ≤ w ∧ w ≤ 0x26 then rowsENG
  else if w = 0x28 then rowsRTE else if w = 0x29 then rowsSEC else if 0x30 ≤ w ∧ w ≤ 0x37 then rowsLANE
  else if 0x38 ≤ w ∧ w ≤ 0x3F then rowsEMAC else if 0x40 ≤ w ∧ w ≤ 0x47 then rowsSHP else if w = 0x48 then rowsCPL
  else if w = 0x50 then rowsAPC else if w = 0x51 then rowsMEM else if w = 0x52 then rowsPINS else []

/-- The window of instance 0 of a window's block, R55. -/
def winBase (w : Nat) : Nat :=
  if 0x08 ≤ w ∧ w ≤ 0x0B then 0x08 else if 0x10 ≤ w ∧ w ≤ 0x13 then 0x10 else if 0x18 ≤ w ∧ w ≤ 0x1A then 0x18
  else if 0x1C ≤ w ∧ w ≤ 0x1E then 0x1C else if 0x21 ≤ w ∧ w ≤ 0x26 then 0x21 else if 0x30 ≤ w ∧ w ≤ 0x37 then 0x30
  else if 0x38 ≤ w ∧ w ≤ 0x3F then 0x38 else if 0x40 ≤ w ∧ w ≤ 0x47 then 0x40 else w

/-- The class of a window's block, R55. -/
def winClass (w : Nat) : Nat :=
  if w < 6 then w + 1 else winBase w

/-- The indices of an offset in a register and its array dimensions. -/
def rowIdx (r : RegRow) (off : Nat) : Option (Nat × Nat) :=
  if off < r.off then none
  else
    let d := off - r.off
    let one : Option (Nat × Nat) :=
      if r.n2 ≤ 1 then (if d % r.st1 = 0 ∧ d / r.st1 < r.n1 then some (d / r.st1, 0) else none)
      else if d % r.st1 % r.st2 = 0 ∧ d / r.st1 < r.n1 ∧ d % r.st1 / r.st2 < r.n2 then some (d / r.st1, d % r.st1 / r.st2)
      else none
    one

/-- Whether an instance has the register at an offset: paths 1 and 2, cancellation and coexistence are in RFE_M alone (R122), power
classes and grants in WPHY_C alone (R213). -/
def regHere (w off : Nat) : Bool :=
  !((0x10 ≤ w && w ≤ 0x12 && ((0x44 ≤ off && off ≤ 0x48) || (0x54 ≤ off && off ≤ 0x58) || (0xC0 ≤ off && off ≤ 0xE4)))
    || ((w == 0x18 || w == 0x19) && (off == 0x50 || (0x60 ≤ off && off ≤ 0x70))))

/-- The register at an offset of a window with its first index. -/
def regAt (w off : Nat) : Option (RegRow × Nat) :=
  if regHere w off then (winRows w).findSome? fun r => (rowIdx r off).map fun k => (r, k.1) else none

/-- Whether an instance has the field from bit lo: the diversity fields are those of paths 0 and 2 of RFE_M, and the events and counters
of spans, cancellation and coexistence those of RFE_M (R122); the events of grants are those of WPHY_C (R213). -/
def fldHere (w off lo : Nat) : Bool :=
  !((0x10 ≤ w && w ≤ 0x13 && 6 ≤ lo && ((off == 0x40 && w != 0x13) || off == 0x44))
    || (0x10 ≤ w && w ≤ 0x12 && ((off == 0x10 && 4 ≤ lo && lo ≤ 6) || (off == 0x8C && 16 ≤ lo) || (off == 0x90 && lo ≤ 15)))
    || ((w == 0x18 || w == 0x19) && off == 0x10 && (lo == 2 || lo == 3)))

/-- A field of a register as a key, a width and a reset value. -/
def fldOf (w off j : Nat) (f : FldRow) : Fld := mkF w off f.lo f.len (f.rst.val (w - winBase w) j)

/-! Fields that show a block's state -/

/-- Whole microseconds of a time in ns. -/
def usOf (ns : Nat) : Nat := ns / 1000

/-- STATUS2 to STATUS0, R50, R388: of several conditions the higher row of R50 takes precedence. -/
def State.statusCode (s : State) : Nat :=
  let hold := s.on F.PINS_BASETEMP_HOLD
  match s.env.phase with
  | .safeHold => 7
  | .boot => if hold then 6 else 0
  | .software =>
    if s.get F.PWR_STATUS_STATE = 0 && !s.on F.PINS_STATUSOUT_READY then 0
    else if hold then 6
    else match s.get F.PWR_STATUS_STATE with
      | 3 => 5
      | 2 => 4
      | 1 => 3
      | _ => if s.on F.PINS_STATUSOUT_DEGRADED then 2 else 1
  | _ => 0

/-- The GPIO levels: a driven contact its output, any other contact a level from outside, R53. -/
def State.gpioIn (s : State) : Nat :=
  let d := s.get F.PINS_GPIO_DIR_DIR
  let o := s.get F.PINS_GPIO_OUT_OUT
  (List.range 24).foldl (fun a b => if (if bitOf d b then bitOf o b else bitOf s.fresh.1 b) then a + 2 ^ b else a) 0

/-- A core voltage in 5 mV of a level, R367. -/
def voltOf (l : Nat) : Nat := match l with | 0 => 160 | 1 => 140 | 2 => 124 | _ => 110

/-- Windows PINS, SYS, PWR, TIME, FLT. -/
def State.viewTop (s : State) (w off lo v : Nat) : Nat :=
  if w = W.PINS then
    (if off = 0x48 ∧ lo = 2 then s.statusCode else if off = 0x54 then s.gpioIn else v)
  else if w = W.PWR then
    if off = 0x44 ∧ lo = 4 then b2n s.pwr.pend.isSome
    else if off = 0x50 ∧ lo = 4 then b2n (s.pwr.fabTo.isSome || s.pwr.cluTo.isSome)
    else if off = 0x50 ∧ lo = 8 then voltOf (s.get F.PWR_PERFSTAT_FABRIC)
    else if off = 0x50 ∧ lo = 16 then (if 2 ≤ s.get F.PWR_STATUS_STATE then 0 else voltOf (s.get F.PWR_PERFSTAT_CLUSTER))
    else if 0x80 ≤ off ∧ off < 0xE0 then
      let n := usOf (s.pwr.res.getD ((off - 0x80) / 8) 0)
      if off % 8 = 0 then n % 2 ^ 32 else n / 2 ^ 32 % 2 ^ 32
    else v
  else if w = W.TIME then
    if off = 0x40 then tbFracOf s.tm.tb
    else if off = 0x44 then tbNsOf s.tm.tb
    else if off = 0x48 then tbSecOf s.tm.tb % 2 ^ 32
    else if off = 0x4C then tbSecOf s.tm.tb / 2 ^ 32
    else if off = 0x50 then s.tm.incr % 2 ^ 32
    else if off = 0x54 then s.tm.incr / 2 ^ 32
    else if off = 0x5C then unsgn 32 (Int.tdiv s.tm.slew (2 ^ 32))
    else v
  else if w = W.FLT then
    if off = 0x54 then
      let code := s.get F.FLT_RESSEL_CODE
      if !s.fltCode code then 0
      else if lo = 0 then min 15 (inWin (s.ledger code).times s.ns s.fltWindow).length
      else if lo = 4 then b2n (s.retired code)
      else 1
    else v
  else v

/-- The ASN of a Tile's last slot edge. -/
def State.asnHeld (s : State) (t : Nat) : Nat := s.get (F.MLC_TILE_ASNHI_ASN t) * 2 ^ 32 + s.get (F.MLC_TILE_ASNLO_ASN t)

/-- The ASN of a Tile, R145: a function of time while it runs, else that of its last slot edge. -/
def State.asnNow (s : State) (t : Nat) : Nat :=
  match s.slotK t with
  | some k => if s.on (F.MLC_TILE_CTL_RUN t) then s.asnOf t k else s.asnHeld t
  | none => s.asnHeld t

/-- Windows RFE, MPHY, MLC, MNODE. -/
def State.viewMesh (s : State) (w off lo v : Nat) : Nat :=
  if 0x10 ≤ w ∧ w ≤ 0x13 then
    let r := w - 0x10
    if 0x74 ≤ off ∧ off ≤ 0x80 then s.calW r (s.get (F.RFE_CALIDX_INDEX r)) ((off - 0x74) / 4)
    else if 0x50 ≤ off ∧ off ≤ 0x58 ∧ lo = 4 then b2n (s.calStep r ((off - 0x50) / 4))
    else if off = 0xE4 ∧ r = 3 then
      if lo = 0 then (if s.coexOn && !s.rfe.coex.reqIn then 0 else s.fresh.1 % 2)
      else if lo = 1 then b2n s.rfe.coex.prio
      else if lo = 2 then b2n s.rfe.coex.hold.isSome
      else if lo = 3 then b2n s.rfe.coex.reqOut
      else s.fresh.1 % 2
    else v
  else if w = W.MPHY then
    let l := s.get F.MPHY_LSEL_LISTENER
    let x := s.lis l
    if off = 0x74 then s.lcfg l / 2 ^ lo
    else if off = 0x78 then
      if lo = 0 then x.st else if lo = 3 then x.aerial
      else if lo = 4 then (match x.cur with | some a => a.tile | none => 0)
      else if lo = 7 then b2n (s.powered l)
      else (match x.cur with | some a => a.mode | none => 0)
    else if off = 0x7C then (match x.cur with | some a => a.freq | none => 0)
    else if off = 0x84 then
      let e := s.get F.MPHY_NFIDX_ENTRY
      if lo = 0 then unsgn 16 (s.floor e) else b2n (kget s.mphy.nf e).isSome
    else v
  else if w = W.MLC then
    if 0x100 ≤ off ∧ off < 0x500 ∧ off % 128 = 0x28 then s.asnNow ((off - 0x100) / 128) % 2 ^ 32
    else if 0x100 ≤ off ∧ off < 0x500 ∧ off % 128 = 0x2C then s.asnNow ((off - 0x100) / 128) / 2 ^ 32
    else v
  else if w = W.MNODE then
    if off = 0xF0 then s.mn.used else if off = 0xF4 then s.queued else v
  else v

/-- Windows WPHY, MLD, YARD, ENG. -/
def State.viewWlan (s : State) (w off lo v : Nat) : Nat :=
  if w = 0x1A ∧ 0x64 ≤ off ∧ off ≤ 0x70 then
    s.grantW (s.get (F.WPHY_GRANTIDX_INDEX 2)) ((off - 0x64) / 4) / 2 ^ lo
  else if w = W.MLD ∧ 0x84 ≤ off ∧ off ≤ 0x94 then s.twtW (s.get F.MLD_TWTIDX_INDEX) ((off - 0x84) / 4)
  else if w = W.YARD then
    if off = 0x7C then s.yard.wagons.length
    else if 0x80 ≤ off ∧ off ≤ 0x8C then
      (s.yard.wagons.filter fun e => e.2.st == 3 && e.2.ecls == (off - 0x80) / 4).length
    else if off = 0x98 then
      let t := s.get F.YARD_TRSEL_TRAIN
      if lo = 0 then (s.train t).2 else s.inflight t
    else v
  else if 0x21 ≤ w ∧ w ≤ 0x26 ∧ 0x80 ≤ off ∧ off < 0xC0 ∧ off % 8 = 0 then
    let e := 8 * (w - 0x21) + (off - 0x80) / 8
    let x := s.eng e
    if lo = 0 then (if x.halted then 2 else if s.retired (0x2100 + e) then 3 else if x.wag.isSome then 1 else 0)
    else if lo = 2 then b2n (s.inDisp e)
    else x.wag.getD 0
  else v

/-- The credit of a class in bits, R277; 0 while its mode is strict. -/
def State.creditView (s : State) (n c : Nat) : Nat :=
  if (s.shpCfg n c).1 = 0 then 0 else unsgn 32 (asr ((s.portSync n).credit n c) 16)

/-- Windows SHP, EMAC, CPL, SEC, LIM, NVS. -/
def State.viewNet (s : State) (w off lo v : Nat) : Nat :=
  if 0x40 ≤ w ∧ w ≤ 0x47 then
    let n := w - 0x40
    if 0x80 ≤ off ∧ off < 0xA0 then s.creditView n ((off - 0x80) / 4)
    else if 0xA0 ≤ off ∧ off < 0xC0 then (s.shpQ n ((off - 0xA0) / 4)).length
    else v
  else if 0x38 ≤ w ∧ w ≤ 0x3F then
    if off = 0x74 then (List.range 8).foldl (fun a c => if s.paused (w - 0x38) c then a + 2 ^ c else a) 0 else v
  else if w = W.CPL then
    (if off = 0x50 ∧ lo = 0 ∧ s.cpl = 4 then s.fresh.1 % 433 else v)
  else if w = W.SEC then
    match kget s.keys (s.get F.SEC_KEYIDX_INDEX) with
    | none => if off = 0x4C ∨ off = 0x50 then 0 else v
    | some k =>
      if off = 0x4C then (if lo = 0 then k.use else if lo = 3 then b2n k.paired else b2n k.exh)
      else if off = 0x50 then k.cnt else v
  else if w = W.LIM then
    let m := s.get F.LIM_METSEL_METER
    let g := match s.lim.img with | some g => g.meters[m]? | none => none
    if off = 0x40 then
      (if lo = 0 then b2n s.lim.img.isSome else if lo = 1 then s.lim.slot else if lo = 2 then s.lim.restore
       else match s.lim.img with | some g => g.region | none => 0)
    else if off = 0x44 then s.lim.ver
    else if off = 0x4C then (if lo = 24 then b2n g.isSome else match g with | some x => x.lo | none => 0)
    else if off = 0x50 then (match g with | some x => x.hi | none => 0)
    else if off = 0x54 then (match g with | some x => x.window | none => 0)
    else if off = 0x58 then (match g with | some x => x.limit | none => 0)
    else if off = 0x5C then min (2 ^ 32 - 1) (usOf (s.meterUse m))
    else if off = 0x68 then
      let p := s.get F.LIM_PORTSEL_PORT
      match s.lim.img with
      | some g => if lo = 0 then unsgn 16 (min (ceiling p) (portImg g p).cond) else unsgn 16 (portImg g p).gain
      | none => if lo = 0 then unsgn 16 (ceiling p) else 0
    else if off = 0x6C then s.lim.seq
    else v
  else if w = W.NVS then
    if off = 0x54 then
      (if lo = 6 then b2n s.nvs.rootSet else if lo % 2 = 0 then s.nvs.boot.getD (lo / 2) 0 else s.nvs.pref.getD (lo / 2) 0)
    else if 0x58 ≤ off ∧ off ≤ 0x64 then s.nvs.roll.getD ((off - 0x58) / 4) 0
    else v
  else v

/-- The level of the debug port, R337: 2 while the store holds no root record, else that of the last token. -/
def State.dbgLevel (s : State) : Nat := if s.nvs.rootSet then s.get F.DBG_AUTH_LEVEL else 2

/-- What the debug module keeps of a hart. -/
def hart0 : HartDbg :=
  { halted := false, ebreakm := false, ebreaks := false, ebreaku := false, step := false, cause := 0, ack := false,
    havereset := false, rhr := false }
def State.hart (s : State) (h : Nat) : HartDbg := (kget s.dbg.harts h).getD hart0

/-- Whether hart h executes instructions, R342, R361, R398: released, not stopped by the device state, not halted. -/
def State.hartRuns (s : State) (h : Nat) : Bool :=
  bitOf (s.get F.APC_HARTSTAT_RUN) h && !s.apc.parked.getD h false && !(s.hart h).halted

/-- A mask of the harts that pass p. -/
def hartMask (p : Nat → Bool) : Nat := (List.range 8).foldl (fun a h => if p h then a + 2 ^ h else a) 0

/-- Windows APC and MEM. -/
def State.viewCore (s : State) (rq : Rq) (w off lo v : Nat) : Nat :=
  if w = W.APC then
    (if off = 0x4C then
      (if lo = 0 then hartMask s.hartRuns else if lo = 8 then hartMask fun h => s.hartRuns h && bitOf s.fresh.1 h
       else hartMask fun h => (s.hart h).halted)
     else v)
  else if w = W.MEM then
    if 0x50 ≤ off ∧ off ≤ 0x5C then s.bufFree ((off - 0x50) / 4)
    else if off = 0x64 then (kget s.ram.res (rqKey rq)).getD 0
    else v
  else v

/-- The value a read of a field gives, v being what the field stores. -/
def State.view (s : State) (rq : Rq) (w off lo v : Nat) : Nat :=
  if w ≤ 0x03 ∨ w = W.PINS then s.viewTop w off lo v
  else if 0x10 ≤ w ∧ w ≤ 0x16 then s.viewMesh w off lo v
  else if 0x18 ≤ w ∧ w ≤ 0x27 then s.viewWlan w off lo v
  else if w = W.APC ∨ w = W.MEM then s.viewCore rq w off lo v
  else if w = W.DBG then (if off = 0x40 ∧ lo = 0 then s.dbgLevel else v)
  else s.viewNet w off lo v

/-- Registers whose value a read finds outside, as a free value: each read takes a new one. -/
def freeRead (w off : Nat) : Bool :=
  (w == W.PINS && off == 0x54) || (w == 0x13 && off == 0xE4) || (w == W.CPL && off == 0x50) || (w == W.APC && off == 0x4C)

/-! The page header, R62 -/

/-- The word at an offset of the page header but for what the block's table gives. -/
def State.hdrRead (s : State) (rq : Rq) (w off : Nat) : Nat :=
  match off with
  | 0x00 => Config.minor w % 256 + 0x0200 + (w - winBase w) * 2 ^ 16 + winClass w * 2 ^ 24
  | 0x08 => s.get (F.CTRL_ENABLE w) + s.get (F.CTRL_DOMREQ w) * 4
  | 0x0C => b2n (s.winOn w) + s.domSt (winDom w) * 2 + b2n (s.busy w) * 16
  | 0x10 => (List.range 32).foldl (fun a b => if s.ev w b then a + 2 ^ b else a) 0
  | 0x14 => s.get (F.EV_MASK w)
  | 0x1C => s.evOut w
  | 0x24 => s.opSt w + s.get (F.OPSTAT_CAUSE w) * 16 + s.get (F.OPSTAT_PROGRESS w) * 256
  | 0x28 => (kget s.oppart (rqKey rq * 256 + w)).getD 0
  | 0x2C => s.get (F.ERRINFO_CAUSE w) + s.get (F.ERRINFO_RQCLASS w) * 16 + s.get (F.ERRINFO_RQNUM w) * 256
      + s.get (F.ERRINFO_OFFSET w) * 2 ^ 16 + s.get (F.ERRINFO_VALID w) * 2 ^ 31
  | 0x30 => s.get (F.LOCK_OPEN w) * 256 + s.get (F.LOCK_HALF w) * 512
  | _ => 0

/-- The word of a register, R56: 0 where no table defines the offset. -/
def State.regWord (s : State) (rq : Rq) (w off : Nat) : Nat :=
  let tab := match regAt w off with
    | none => 0
    | some (r, j) =>
      if off = 0x10 then 0
      else (r.flds.filter fun f => fldHere w off f.lo).foldl (fun a f => match f.acc with
        | .w1s | .wo => a
        | _ => a + s.view rq w off f.lo (s.get (fldOf w off j f)) % 2 ^ f.len * 2 ^ f.lo) 0
  if off < 0x40 then s.hdrRead rq w off + tab else tab

/-! Multi-word registers, R75 -/

/-- The words of the multi-word register or register pair at an offset, lowest first, whether it latches on a read of its
lowest word, and whether a write of its highest word stores it: R75, R103, R143, R168, R231, R301, R356, R369. -/
def multiOf (w off : Nat) : Option (List Nat × Bool × Bool) :=
  let pair := fun (b : Nat) => some ([b, b + 4], true, true)
  if w = W.TIME then
    if 0x40 ≤ off ∧ off ≤ 0x4C then some ([0x40, 0x44, 0x48, 0x4C], true, true)
    else if off = 0x50 ∨ off = 0x54 then some ([0x50, 0x54], false, true)
    else if 0xA0 ≤ off ∧ off ≤ 0xAC then some ([0xA0, 0xA4, 0xA8, 0xAC], true, false)
    else none
  else if w = W.PWR then (if 0x80 ≤ off ∧ off < 0xE0 then pair (off / 8 * 8) else none)
  else if w = W.MPHY then (if off = 0xA0 ∨ off = 0xA4 then pair 0xA0 else none)
  else if w = W.MLC then
    (if 0x100 ≤ off ∧ off < 0x500 ∧ (off % 128 = 0x28 ∨ off % 128 = 0x2C) then some ([off / 8 * 8, off / 8 * 8 + 4], true, false)
     else none)
  else if 0x1C ≤ w ∧ w ≤ 0x1E then
    (if 0x100 ≤ off ∧ off < 0x188 then some ([off / 8 * 8, off / 8 * 8 + 4], false, true) else none)
  else if 0x38 ≤ w ∧ w ≤ 0x3F then
    if off = 0x48 ∨ off = 0x4C then some ([0x48, 0x4C], false, true)
    else if 0x180 ≤ off ∧ off < 0x1A0 then pair (off / 8 * 8)
    else none
  else if 0x08 ≤ w ∧ w ≤ 0x0B then
    if (0x48 ≤ off ∧ off < 0x68) ∨ off = 0x70 ∨ off = 0x74 then pair (off / 8 * 8)
    else if off = 0x78 ∨ off = 0x7C then some ([0x78, 0x7C], true, false)
    else none
  else none

/-- The key of a requester's latch or held word of a register. -/
def wordKey (rq : Rq) (w off : Nat) : Nat := rqKey rq * 2 ^ 40 + 0x40000000 + w * 65536 + off

/-- A read of the low word latches the other words for the requester. -/
def State.latchWords (s : State) (rq : Rq) (w : Nat) (l : List Nat) : State :=
  { s with latch := l.foldl (fun m o => kset m (wordKey rq w o) (s.regWord rq w o)) s.latch }

/-! Reads -/

/-- A read of OPSTAT latches OPPART, and for CHK the running value with it, R67, R353. -/
def State.opLatch (s : State) (rq : Rq) (w : Nat) : State :=
  let t := { s with oppart := kset s.oppart (rqKey rq * 256 + w) (s.get (F.OPPART w)) }
  if 0x08 ≤ w ∧ w ≤ 0x0B then t.latchWords rq w [0x70, 0x74] else t

/-- The low word of CHK_VAL that a requester's last read of OPSTAT has latched and that it has not read since, R353. -/
def State.valLatch (s : State) (rq : Rq) (w b : Nat) : Option Nat :=
  if 0x08 ≤ w ∧ w ≤ 0x0B ∧ b = 0x70 then kget s.latch (wordKey rq w b) else none

/-- RC fields of a register that overlap bits lo to lo + n - 1 are cleared by a read, R57, R59. -/
def State.rcClear (s : State) (w off lo n : Nat) : State :=
  match regAt w off with
  | none => s
  | some (r, j) => r.flds.foldl (fun t f =>
      if f.acc = .rc && f.lo < lo + n && lo < f.lo + f.len then t.set (fldOf w off j f) 0 else t) s

/-- A read of n bits from bit lo of a live register: its value and its side effects, R57, R59, R67, R75. -/
def State.regRead (s : State) (rq : Rq) (w off lo n : Nat) : State :=
  let v := match multiOf w off with
    | some (b :: l, true, _) =>
      if l.contains off then (kget s.latch (wordKey rq w off)).getD 0
      else (s.valLatch rq w b).getD (s.regWord rq w off)
    | _ => s.regWord rq w off
  let t := match multiOf w off with
    | some (b :: l, true, _) =>
      if off ≠ b then s
      else if (s.valLatch rq w b).isSome then { s with latch := kdel s.latch (wordKey rq w b) }
      else s.latchWords rq w l
    | _ => s
  let t := if off = 0x24 then t.opLatch rq w else t
  let t := if freeRead w off then { t with free := t.free + 1 } else t
  (t.rcClear w off lo n).answer (v / 2 ^ lo % 2 ^ n)

end Sys2Proof.Machine
end

