-- ==== Sys2Proof/Machine/Mem.lean ====
section
/-!
DEFINITION. Memory as its requesters see it, the frame pool's registers, mirror windows, the check units, and the application
cluster with its timers and interrupt controller: spec/17, R341 to R356, R402.
-/

namespace Sys2Proof.Machine

/-! ECC, R347 -/

/-- MEM's count of correctable errors for address a. -/
def ceCnt (a : Nat) : Nat := if inSram a then 0 else if a < 0x8200000000 then 1 else 2

/-- What has happened to the word at a shows at its next read or scrub: a single-bit error is corrected, counted and reported;
a double-bit error makes the word uncorrectable. -/
def State.upset (s : State) (a : Nat) (u : Upset) : State :=
  if s.ueIn a 1 then s
  else match u with
    | .none => s
    | .single => (s.bump W.MEM (0xC0 + 4 * ceCnt a) E.MEM_CNTSAT).fltEvent 0x5100 (a / 4096) false
    | .double => { s with ram := { s.ram with ue := a / 8 * 8 :: s.ram.ue } }

/-- An access that ends in an uncorrectable error, R347, R71: the requester's class decides whether it sees the bus error; a
requester other than the debug port that does not takes data the spec does not state. -/
def State.answerUe (s : State) (rq : Rq) (n : Nat) : State :=
  let e := s.busErrs rq
  if e || rq.cls = 2 then { s with bus := { data := 0, err := e, dark := false, ue := true } }
  else { s.fresh.2 with bus := { data := s.fresh.1 % 2 ^ (8 * n), err := false, dark := false, ue := true } }

/-- A read of n octets of SRAM or DRAM, R347, R348, R402. -/
def State.memRd (s : State) (rq : Rq) (a n : Nat) : State :=
  let t := s.ueHit a n
  if t.ueIn a n then t.answerUe rq n else t.answer (t.peekN a n)

/-- A write of n octets to SRAM or DRAM, R347, R348, R402: less than a word merges into the word that stands there. -/
def State.memWr (s : State) (rq : Rq) (a n v : Nat) : State :=
  let t := s.pokeN a n v
  if n < 8 && t.ueIn a n then t.answerUe rq n else t.answer 0

/-- SCRUB, R347: MEM reads the next word of SRAM or DRAM; a period of 0 stops it. -/
def State.scrubStep (s : State) (dram : Bool) (u : Upset) : State :=
  if s.get (if dram then F.MEM_SCRUB_DRAMH else F.MEM_SCRUB_SRAMS) = 0 || !s.live || s.domSt 16 ≠ 2 then s
  else
    let a := if dram then 0x8000000000 + 8 * s.ram.scrubD else 0x10000000 + 8 * s.ram.scrubS
    let t := (s.upset a u).ueHit a 8
    { t with ram := { t.ram with scrubS := if dram then s.ram.scrubS else (s.ram.scrubS + 1) % 0x800000,
                                 scrubD := if dram then (s.ram.scrubD + 1) % 0x80000000 else s.ram.scrubD } }

def execScrub (dram : Bool) (upset : Upset) (s : State) : Host.Outcome State Fault Refusal := .next (s.scrubStep dram upset)

/-! Mirror windows, R348 -/

/-- Whether window w may be applied: both copies lie in their channels and meet no other window, no table copy of MNODE and not the
region of RTE. -/
def State.mirrorFits (s : State) (w : Nat) : Bool :=
  let n := s.get (F.MEM_MIRROR_SIZE w) * 0x100000
  let b := 0x8000000000 + s.get (F.MEM_MIRROR_BASE w) * 0x100000
  let meets := fun x m => rangesMeet b n x m || rangesMeet (b + 0x200000000) n x m
  0 < n && b + n ≤ 0x8200000000
    && ((List.range 4).all fun k => k == w || !s.on (F.MEM_MIRROR_VALID k)
      || !meets (0x8000000000 + s.get (F.MEM_MIRROR_BASE k) * 0x100000) (s.get (F.MEM_MIRROR_SIZE k) * 0x100000))
    && !meets (s.tbl 0) 0x2000000 && !meets (s.tbl 1) 0x2000000
    && !meets (s.get F.RTE_TBLBASELO_ADDR + s.get F.RTE_TBLBASEHI_ADDR * 2 ^ 32) 0x4000000

/-- A write of MEM_MIRRORw has stored its fields: the window is applied, or not with MIRRORREF. -/
def State.mirrorSet (s : State) (w : Nat) : State :=
  let t := s.set (F.MEM_MIRROR_VALID w) 0
  if !t.on (F.MEM_MIRROR_EN w) then t
  else if t.mirrorFits w then t.set (F.MEM_MIRROR_VALID w) 1
  else t.raise W.MEM E.MEM_MIRRORREF

/-! The frame pool, R349, R350, R355 -/

/-- A write of MEM_ALLOC: a buffer for n data octets, its handle in this requester's MEM_ALLOCRES; 0 octets has no effect. -/
def State.memAllocOp (s : State) (rq : Rq) (n : Nat) : State :=
  if n = 0 then s
  else
    let p := s.bufAlloc n
    { p.2 with ram := { p.2.ram with res := kset p.2.ram.res (rqKey rq) (p.1.getD 0) } }

/-- A write of MEM_FREE: the buffer returns to the pool, or BADFREE is counted. -/
def State.memFreeOp (s : State) (h : Nat) : State :=
  if (kget s.ram.pool h).isSome then s.bufRelease h else s.bump W.MEM (0xC0 + 4 * 9) E.MEM_CNTSAT

/-- The pool takes the counts of MEM_POOLCNTk; a total above 50,331,584 octets leaves the defaults with POOLBAD. Every buffer is
free. -/
def State.poolSet (s : State) : State :=
  let c := (List.range 4).map fun k => s.get (F.MEM_POOLCNT_COUNT k)
  let total := (List.range 4).foldl (fun a k => a + c.getD k 0 * bufSize k) 0
  if 50331584 < total then
    ({ s with ram := { s.ram with counts := [32768, 8192, 1024, 640], pool := [], late := [] } }).raise W.MEM E.MEM_POOLBAD
  else { s with ram := { s.ram with counts := c, pool := [], late := [] } }

/-! Check units, R352, R353 -/

/-- One bit of a check: top is taken from the running value and the bit of the octet. -/
def chkBit (w poly v bit : Nat) : Nat :=
  let n := v * 2 % 2 ^ w
  if (v / 2 ^ (w - 1) + bit) % 2 = 1 then xorN n poly else n

/-- One octet, its bit 7 first. -/
def chkByte (w poly : Nat) (refin : Bool) (v b : Nat) : Nat :=
  let x := if refin then revBits 8 b else b
  [7, 6, 5, 4, 3, 2, 1, 0].foldl (fun v i => chkBit w poly v (x / 2 ^ i)) v

/-- A 64-bit register pair of a check unit. -/
def State.chkPair (s : State) (lo hi : Fld) : Nat := s.get lo + s.get hi * 2 ^ 32

/-- The width of unit u's check. -/
def State.chkW (s : State) (u : Nat) : Nat := s.get (F.CHK_CFG_WIDTH u)

/-- The running value of unit u. -/
def State.chkVal (s : State) (u : Nat) : Nat := s.chkPair (F.CHK_VALLO_V u) (F.CHK_VALHI_V u)
def State.setChkVal (s : State) (u v : Nat) : State := s.sets [(F.CHK_VALLO_V u, v % 2 ^ 32), (F.CHK_VALHI_V u, v / 2 ^ 32)]

/-- Where unit u reads. -/
def State.chkAddr (s : State) (u : Nat) : Nat := s.get (F.CHK_ADDRLO_ADDR u) + s.get (F.CHK_ADDRHI_ADDR u) * 2 ^ 32

/-- A range lies wholly in SRAM, DRAM, the settings store window or the boot ROM. -/
def chkRange (a n : Nat) : Bool :=
  let all := fun (p : Nat → Bool) => p a && p (a + n - 1)
  all inSram || all inDram || all inNvs || all inRom

/-- START of unit u: v becomes INIT unless CONT is 1. -/
def State.chkStart (s : State) (rq : Rq) (u : Nat) : State :=
  let w := s.chkW u
  let n := s.get (F.CHK_LEN_LEN u)
  let t := s.opStart rq (W.CHK u) (0 < n && 1 ≤ w && w ≤ 64 && chkRange (s.chkAddr u) n) true
  if t.opSt (W.CHK u) = 2 && s.opSt (W.CHK u) ≠ 2 && !s.on (F.CHK_CFG_CONT u) then
    t.setChkVal u (t.chkPair (F.CHK_INITLO_INIT u) (F.CHK_INITHI_INIT u) % 2 ^ w)
  else t

def execChkScan (rq : Rq) (unit : Nat) (s : State) : Host.Outcome State Fault Refusal :=
  .next (if unit < 4 then s.chkStart rq unit else s)

/-- The octet a check unit reads: the key store reads 0, and the boot ROM's content is the module's (R54, R326). -/
def State.peekRd (s : State) (a : Nat) : Byte :=
  if inRom a then Config.rom a else if 0x20020000 ≤ a && a < 0x20060000 then 0 else s.peek a

/-- The units of 256 octets of unit u's scan, a part of a unit at the end among them. -/
def State.chkUnits (s : State) (u : Nat) : Nat := (s.get (F.CHK_LEN_LEN u) + 255) / 256

/-- One unit of 256 octets, R353: uncorrectable data and dark pages end the scan with v and OPPART as they stand at the octets
completed; the last unit gives the result. -/
def State.chkUnit (s : State) (u : Nat) : State :=
  let w := W.CHK u
  let k := s.get (F.OPSTAT_PROGRESS w)
  let a := s.chkAddr u + 256 * k
  let left := s.get (F.CHK_LEN_LEN u) - 256 * k
  let n := min 256 left
  let dark := s.memDark a
  if dark then s.opFail w 4
  else
    let t := s.ueHit a n
    let good := (firstFrom (fun i => t.ueIn (a + i) 1) n 0).getD n
    let wd := t.chkW u
    let poly := t.chkPair (F.CHK_POLYLO_POLY u) (F.CHK_POLYHI_POLY u) % 2 ^ wd
    let v := ((List.range good).map fun i => (t.peekRd (a + i)).toNat).foldl (chkByte wd poly (t.on (F.CHK_CFG_REFIN u))) (t.chkVal u % 2 ^ wd)
    let t := (t.setChkVal u v).opUnits w (k + (if good = 256 then 1 else 0)) (256 * k + good)
    if good < n then t.opFail w 5
    else if left ≤ 256 then
      let r := xorN (if t.on (F.CHK_CFG_REFOUT u) then revBits wd v else v)
        (t.chkPair (F.CHK_XORLO_XOROUT u) (F.CHK_XORHI_XOROUT u) % 2 ^ wd)
      (t.sets [(F.CHK_RESULTLO_RESULT u, r % 2 ^ 32), (F.CHK_RESULTHI_RESULT u, r / 2 ^ 32)]).opDone w
    else t

/-! Harts, R342 -/

/-- A write of APC_RELEASE starts the harts of mask v that have not been released, at APC_ENTRY; outside Run the harts 1 to 7 are
stopped (R361); one with resethaltreq halts before its first instruction (R394), so that its dpc is the entry. -/
def State.hartStart (s : State) (v : Nat) : State :=
  let run := s.get F.APC_HARTSTAT_RUN
  let new := (List.range 8).filter fun h => bitOf v h && !bitOf run h
  let e := s.get F.APC_ENTRYLO_ADDR + s.get F.APC_ENTRYHI_ADDR * 2 ^ 32
  let apc := new.foldl (fun a h => { a with entry := lset a.entry h e, parked := lset a.parked h (h != 0 && s.pwr.capState != 0) }) s.apc
  let halt := new.filter fun h => (s.hart h).rhr
  let dbg := halt.foldl (fun d h => { d with harts := kset d.harts h { s.hart h with halted := true, cause := 5 },
                                             regs := kset d.regs (h * 65536 + 0x7B1) e }) s.dbg
  let t := ({ s with apc := apc, dbg := dbg }).set F.APC_HARTSTAT_RUN (new.foldl (fun r h => r + 2 ^ h) run)
  t.raiseIf (!halt.isEmpty) W.DBG E.DBG_HALTED

/-! The PLIC, R345 -/

/-- The interrupt sources: one for each assigned window, R69. -/
def srcOk (i : Nat) : Bool := 0 < i && winOk (i - 1)

/-- The enables of a context, word k. -/
def State.plicEn (s : State) (ctx k : Nat) : Nat := (kget s.apc.enab (ctx * 4 + k)).getD 0

/-- Priority of source i, threshold of a context. -/
def State.plicPrio (s : State) (i : Nat) : Nat := (kget s.apc.prio i).getD 0
def State.plicThr (s : State) (ctx : Nat) : Nat := (kget s.apc.thr ctx).getD 0

/-- Of two pending sources the one a claim takes: the higher priority, then the lower number. -/
def State.plicBest (s : State) (b : Option Nat) (i : Nat) : Option Nat :=
  match b with
  | none => some i
  | some j => if s.plicPrio j < s.plicPrio i || (s.plicPrio j == s.plicPrio i && i < j) then some i else some j

/-- The source a context would claim: pending, enabled, of a priority above 0. -/
def State.plicTop (s : State) (ctx : Nat) : Option Nat :=
  (s.apc.plicPend.filter fun i => bitOf (s.plicEn ctx (i / 32)) (i % 32) && 0 < s.plicPrio i).foldl s.plicBest none

/-- A claim of a context, answered with the source or 0. -/
def State.plicClaimOp (s : State) (ctx : Nat) : State :=
  match s.plicTop ctx with
  | none => s.answer 0
  | some i =>
    ({ s with apc := { s.apc with plicPend := s.apc.plicPend.filter (· != i), plicSvc := kset s.apc.plicSvc i ctx } }).answer i

/-- A completion: without effect for a source that the context did not claim; else the level is sampled again. -/
def State.plicDone (s : State) (ctx i : Nat) : State :=
  if kget s.apc.plicSvc i = some ctx then
    ({ s with apc := { s.apc with plicSvc := kdel s.apc.plicSvc i } }).plicSample (i - 1) (s.evOut (i - 1) != 0)
  else s

/-- Whether a context is interrupted: a source it would claim is above its threshold. -/
def State.plicIrq (s : State) (ctx : Nat) : Bool :=
  match s.plicTop ctx with
  | some i => s.plicThr ctx < s.plicPrio i
  | none => false

/-- Whether the private range answers: the die runs, and a hart's own domain is on. -/
def State.apcOn (s : State) : Bool := s.live && s.domSt 15 == 2

def execPlicClaim (ctx : Nat) (s : State) : Host.Outcome State Fault Refusal :=
  .next (if ctx < 16 && s.apcOn then s.plicClaimOp ctx else s)

def execPlicComplete (ctx src : Nat) (s : State) : Host.Outcome State Fault Refusal :=
  .next (if ctx < 16 && s.apcOn then s.plicDone ctx src else s)

/-! The core timer, R343, R344 -/

/-- mtime: the timebase in nanoseconds. -/
def State.mtime (s : State) : Nat := s.ns % 2 ^ 64

/-- Whether hart h has a timer interrupt pending. -/
def State.timerIrq (s : State) (h : Nat) : Bool := s.apc.mtimecmp.getD h 0 ≤ s.mtime

/-- MSIP of hart h. -/
def State.setMsip (s : State) (h v : Nat) : State := { s with apc := { s.apc with msip := lset s.apc.msip h (v % 2) } }

/-- MSIP_WRITE, R343: hart by' writes MSIP of hart h. -/
def execMsipWrite (hart by' : Nat) (v : Word) (s : State) : Host.Outcome State Fault Refusal :=
  .next (if hart < 8 && by' < 8 && s.apcOn then s.setMsip hart v.toNat else s)

/-- The private range of the cores, R343. -/
def inPriv (a : Nat) : Bool := 0x03000000 ≤ a && a < 0x08000000

/-- The key of a requester's latch or held word of the private range. -/
def privKey (rq : Rq) (a : Nat) : Nat := rqKey rq * 2 ^ 40 + a

/-- The hart of an address of MTIMECMP or MSIP and the offset in its 32 octets. -/
def privHart (a : Nat) : Option (Nat × Nat) :=
  if 0x03000100 ≤ a && a < 0x03000200 then some ((a - 0x03000100) / 32, (a - 0x03000100) % 32) else none

/-- A word of the PLIC, without the effect of a claim. -/
def State.plicRd (s : State) (o : Nat) : Nat :=
  if o < 0x1000 then s.plicPrio (o / 4)
  else if o < 0x1080 then (s.apc.plicPend.filter fun i => i / 32 == (o - 0x1000) / 4).foldl (fun a i => a + 2 ^ (i % 32)) 0
  else if 0x2000 ≤ o ∧ o < 0x2800 ∧ (o - 0x2000) % 0x80 < 16 then s.plicEn ((o - 0x2000) / 0x80) ((o - 0x2000) % 0x80 / 4)
  else if 0x200000 ≤ o ∧ o < 0x210000 ∧ o % 0x1000 = 0 then s.plicThr ((o - 0x200000) / 0x1000)
  else 0

/-- Whether an offset of the PLIC is the claim register of a context. -/
def plicCtx (o : Nat) : Option Nat := if 0x200000 ≤ o ∧ o < 0x210000 ∧ o % 0x1000 = 4 then some ((o - 0x200000) / 0x1000) else none

/-- The enables of word k that stand for a source. -/
def enMask (k v : Nat) : Nat := (List.range 32).foldl (fun a b => if srcOk (32 * k + b) && bitOf v b then a + 2 ^ b else a) 0

/-- A write of a word of the PLIC. -/
def State.plicWr (s : State) (o v : Nat) : State :=
  if o < 0x1000 then
    (if srcOk (o / 4) then { s with apc := { s.apc with prio := kset s.apc.prio (o / 4) (v % 8) } } else s)
  else if 0x2000 ≤ o ∧ o < 0x2800 ∧ (o - 0x2000) % 0x80 < 16 then
    let k := (o - 0x2000) % 0x80 / 4
    { s with apc := { s.apc with enab := kset s.apc.enab ((o - 0x2000) / 0x80 * 4 + k) (enMask k v) } }
  else if 0x200000 ≤ o ∧ o < 0x210000 ∧ o % 0x1000 = 0 then
    { s with apc := { s.apc with thr := kset s.apc.thr ((o - 0x200000) / 0x1000) (v % 8) } }
  else match plicCtx o with
    | some c => s.plicDone c v
    | none => s

/-- A 32-bit read of the private range. -/
def State.privRd (s : State) (rq : Rq) (a : Nat) : State :=
  if 0x04000000 ≤ a then
    match plicCtx (a - 0x04000000) with
    | some c => s.plicClaimOp c
    | none => s.answer (s.plicRd (a - 0x04000000))
  else if a = 0x03000000 then
    ({ s with latch := kset s.latch (privKey rq 0x03000004) (s.mtime / 2 ^ 32) }).answer (s.mtime % 2 ^ 32)
  else if a = 0x03000004 then s.answer ((kget s.latch (privKey rq a)).getD 0)
  else match privHart a with
    | some (h, 0) => s.answer (s.apc.mtimecmp.getD h 0 % 2 ^ 32)
    | some (h, 4) => s.answer (s.apc.mtimecmp.getD h 0 / 2 ^ 32)
    | some (h, 8) => s.answer (s.apc.msip.getD h 0)
    | _ => s.answer 0

/-- A 32-bit write of the private range: the low word of MTIMECMP is held until the same hart writes its high word. -/
def State.privWr (s : State) (rq : Rq) (a v : Nat) : State :=
  if 0x04000000 ≤ a then s.plicWr (a - 0x04000000) v
  else match privHart a with
    | some (_, 0) => { s with held := kset s.held (privKey rq a) v }
    | some (h, 4) =>
      let lo := (kget s.held (privKey rq (a - 4))).getD (s.apc.mtimecmp.getD h 0 % 2 ^ 32)
      { s with held := kdel s.held (privKey rq (a - 4)),
               apc := { s.apc with mtimecmp := lset s.apc.mtimecmp h (lo + v * 2 ^ 32) } }
    | some (h, 8) => s.setMsip h v
    | _ => s

/-- An access of a hart to its private range, R343: whole aligned words and double words act; a narrower read gives its part of the
word, and any other access has no effect. -/
def State.privAcc (s : State) (rq : Rq) (a n : Nat) (wr : Bool) (v : Nat) : State :=
  if a % n ≠ 0 then s.answer 0
  else if n = 8 then
    if wr then ((s.privWr rq a (v % 2 ^ 32)).privWr rq (a + 4) (v / 2 ^ 32 % 2 ^ 32)).answer 0
    else
      let t := s.privRd rq a
      let u := t.privRd rq (a + 4)
      u.answer (t.bus.data + u.bus.data * 2 ^ 32)
  else if n = 4 then (if wr then (s.privWr rq a (v % 2 ^ 32)).answer 0 else s.privRd rq a)
  else if wr then s.answer 0
  else
    let t := s.privRd rq (a / 4 * 4)
    t.answer (t.bus.data / 2 ^ (8 * (a % 4)) % 2 ^ (8 * n))

end Sys2Proof.Machine
end

