-- ==== Sys2Proof/Machine/Reset.lean ====
section
/-!
DEFINITION. What stops inside a block when it is reset or its domain leaves on, the reset of its registers, and SRESET: R60, R64, R67,
R359, R360 and the register rule of each block.
-/

namespace Sys2Proof.Machine

/-! The blocks stop -/

/-- A front end stops: transmitters, receptions on its paths, its paths Off, R107. -/
def State.rfeStop (s : State) (r : Nat) : State :=
  let t := s.airStop r
  let t := if r < 3 then t.wAbort r else ((t.blank 0).blank 1).blank 2
  let t := (List.range (pathsOf r)).foldl (fun t p =>
    (t.setPath r p { pathIdle with presel := (t.path r p).presel, fg := (t.path r p).fg }).set (F.RFE_PATHSTAT_STATE r p) 0) t
  let t := { t with rfe := { t.rfe with surv := kdel t.rfe.surv r } }
  if r = 3 then t.setCoex { t.rfe.coex with hold := none, ending := false, reqOut := false } else t

/-- Off with the domain on and ENABLE 1 leads to Sleep, R107. -/
def State.rfeWake (s : State) (r : Nat) : State := if s.enabled (W.RFE r) then s.rfeEnable r true else s

/-- MPHY stops, R143: listeners are released, active carriers CUT, those not yet launched BUSY. -/
def State.mphyStop (s : State) : State :=
  let t := s.mphy.lis.foldl (fun t e => t.lisDrop e.1) s
  let t := t.mphy.active.foldl (fun t c => (t.carrCut c.id).pathForget (carrPath c.port) c.id) t
  let t := t.mphy.waiting.foldl (fun t c => (t.carrRefused c.id 2).pathForget (carrPath c.port) c.id) t
  { t with mphy := { t.mphy with lcfg := [], nf := [], nfs := [] } }

/-- MLC stops, R168: every Tile is disabled; attempts in progress count as not made and their frames stay queued. -/
def State.mlcStop (s : State) : State :=
  let t := s.mphy.lis.foldl (fun t e => if e.2.cur.isSome then t.lisDrop e.1 else t) s
  let t := t.mphy.handed.foldl (fun t x => (t.bufRelease x.buf).unresv x.trn) t
  { t with mphy := { t.mphy with handed := [] } }.setMlc
    { t.mlc with tiles := [], tries := [], wins := [], later := [], plan := [], held := [] }

/-- MNODE stops, R192: every queue is emptied, with GONE. -/
def State.mnStop (s : State) : State :=
  let hs := ((s.mn.q.flatMap fun e => e.2) ++ (s.mn.sq.flatMap fun e => e.2)).map fun e => e.out.handle
  let t := hs.foldl (fun t h => t.qEnd h 8 none) s
  t.setMn { t.mn with cmd := none, cache := [], todo := [], q := [], sq := [] }

/-- A WLAN baseband stops: the reception ends, what is on the air is cut. -/
def State.wphyStop (s : State) (r : Nat) : State :=
  let t := (s.wAbort r).ppduCut r
  let t := t.setPath r 0 { t.path r 0 with txs := [] }
  t.setWl { t.wl with rx := kdel t.wl.rx r, stage := kdel t.wl.stage r, cen := kdel t.wl.cen r }

/-- A lower MAC stops; its timed frames end GONE. -/
def State.wmacStop (s : State) (r : Nat) : State :=
  let l := s.wl.timed.filter fun e => e.1 == r
  let t := s.setWl { s.wl with mac := kdel s.wl.mac r,
                               rng := s.wl.rng.filter (fun e => e.1 / 4 != r), plans := s.wl.plans.filter fun e => e.1 / 4 != r }
  l.foldl (fun t e => t.timedEnd r e.2.out.handle 8 0) t

/-- MLD stops, R232, R359: every queued frame ends GONE. -/
def State.mldStop (s : State) : State :=
  let hs := (s.wl.q.flatMap fun e => e.2.map fun x => x.out.handle) ++ (s.wl.grp.flatMap fun e => e.2.map fun x => x.out.handle)
  let t := hs.eraseDups.foldl (fun t h => (t.mldCnt 3).wEnd h 8 none) s
  t.setWl { t.wl with cmd := none, plans := [], revAt := [], inp := [], epochOld := 0, epochFrom := 0 }

/-- The yard stops, R256: every wagon is Free, the engines hold none. -/
def State.yardStop (s : State) : State :=
  let t := s.yard.wagons.foldl (fun t e => t.wagFree e.1) s
  { t with yard := { t.yard with resv := [], trains := [], order := 0, bins := [], histAt := t.ns,
                                 engs := t.yard.engs.map fun e => (e.1, { e.2 with wag := none }) } }

/-- RTE discards its reassembly contexts, the old set and a staged commit, R273. -/
def State.rteStop (s : State) : State :=
  s.oldGone.setRte { s.oldGone.rte with reasm := [], stage := [] }

/-- SEC answers its requests with RESULT 2, R338. -/
def State.secStop (s : State) : State := (s.yard.reqs.filter fun r => r.sec).foldl (fun t r => t.secAns r 0 2) s

/-- EMAC reports its link down, R301. -/
def State.emacStop (s : State) (n : Nat) : State := (s.linkLost n).setEmac n emac0

/-- A shaper ends every frame it holds FLUSHED, R286; the frame EMAC sends goes on. -/
def State.shpStop (s : State) (n : Nat) : State :=
  let t := s.shpFlush n
  t.setShp n { shp0 with tx := (t.shpOf n).tx, mark := t.el }

/-- DBG drops the token, its checks and the MAP state, R401. -/
def State.dbgStop (s : State) : State := { s with dbg := { s.dbg with token := [], checks := [] } }

/-- The block of window w stops. -/
def State.blockStop (s : State) (w : Nat) : State :=
  if w = W.DBG then s.dbgStop
  else if w < 0x10 then s
  else if w < 0x14 then s.rfeStop (w - 0x10)
  else if w = W.MPHY then s.mphyStop
  else if w = W.MLC then s.mlcStop
  else if w = W.MNODE then s.mnStop
  else if w < 0x1C then s.wphyStop (w - 0x18)
  else if w < 0x1F then s.wmacStop (w - 0x1C)
  else if w = W.MLD then s.mldStop
  else if w = W.YARD then s.yardStop
  else if w < 0x28 then s.coachStop (w - 0x21)
  else if w = W.RTE then s.rteStop
  else if w = W.SEC then s.secStop
  else if w < 0x38 then s.laneOff (w - 0x30)
  else if w < 0x40 then s.emacStop (w - 0x38)
  else if w < 0x48 then s.shpStop (w - 0x40)
  else if w = W.CPL then s.cplSolo
  else s

/-! Registers -/

/-- Registers of a block that keep their value through its reset: what R64 names of the header, the RO levels of R53, TIME's of R103,
SYS_START (R392), LEVEL and the challenge (R400, R401), the watches (R273), the harts (R354); with dom, LANE_TXEQ, which the
domain rule drops by itself (R360). -/
def keepReg (w off lo : Nat) (dom : Bool) : Bool :=
  off == 0x14 || off == 0x08 || off == 0x2C || off == 0x24 || off == 0x28
    || (w == W.SYS && off == 0x44)
    || (w == W.TIME && off != 0x10 && off != 0x88 && off != 0x8C && off != 0x90 && !(0xA0 ≤ off && off ≤ 0xAC) && off != 0x30)
    || (w == W.PINS && (off == 0x40 || off == 0x44))
    || (w == W.DBG && ((off == 0x40 && lo == 0) || off == 0x44 || off == 0x48))
    || (w == W.RTE && 0x100 ≤ off && off < 0x140)
    || (w == W.APC && off == 0x4C)
    || (dom && 0x30 ≤ w && w < 0x38 && off == 0x4C)

/-- The registers of window w take their reset values, LOCK closes, and the requesters' latches and held words of the window
return to 0: R64. -/
def State.regsReset (s : State) (w : Nat) (dom : Bool) : State :=
  let mine := fun (k : Nat) => k % 2 ^ 40 / 65536 == 0x4000 + w
  { s with
    regs := s.regs.filter (fun e => e.1 / 2097152 != w || keepReg w (e.1 / 32 % 65536) (e.1 % 32) dom)
    oppart := s.oppart.filter (fun e => e.1 % 256 != w)
    latch := s.latch.filter (fun e => !mine e.1)
    held := s.held.filter fun e => !mine e.1 }

/-- What follows the reset of a block's registers: paths leave Off (R107), the tables' use (R273), the port's rate (R286), the
pool's classes (R355) and the resident requester results. -/
def State.blockStart (s : State) (w : Nat) : State :=
  if 0x10 ≤ w && w < 0x14 then s.rfeWake (w - 0x10)
  else if w = W.RTE then s.useShow
  else if 0x40 ≤ w && w < 0x48 then
    let n := w - 0x40
    if s.on (F.EMAC_LINK_UP n) then s.set (F.SHP_PORTRATE_RATE n) (s.linkRate n) else s
  else s

/-- A block as SRESET leaves it, R64: an operation then ends Aborted with cause 2. -/
def State.blockReset (s : State) (w : Nat) (dom : Bool) : State :=
  (((s.blockStop w).regsReset w dom).opKill w).blockStart w

/-! SRESET, R64 -/

/-- A write of CTRL.SRESET by a requester. -/
def State.sresetOp (s : State) (rq : Rq) (w : Nat) : State :=
  if !s.live || !winOk w then s
  else if !s.winOn w || w = W.PWR || w = W.FLT || (w = W.MEM && !s.ram.pool.isEmpty) then s.errRec rq w 8 3
  else if w = W.MEM then
    let t := s.poolSet
    let bad := t.ev W.MEM E.MEM_POOLBAD && !s.ev W.MEM E.MEM_POOLBAD
    (({ t with ram := { t.ram with res := [] } }).blockReset w false).raiseIf bad W.MEM E.MEM_POOLBAD
  else s.blockReset w false

/-- SRESET. -/
def execSreset (rq : Rq) (win : Nat) (s : State) : Host.Outcome State Fault Refusal := .next (s.sresetOp rq win)

end Sys2Proof.Machine
end

