-- ==== Sys2Proof/Machine/Power.lean ====
section
/-!
DEFINITION. Power domains, device states and performance levels: spec/18, R357 to R370. A wake from Dormant is a start of the die:
Start.lean holds it.
-/

namespace Sys2Proof.Machine

/-! Domains, R358 to R360 -/

/-- The domains that follow requests and caps. -/
def domAllList : List Nat := [2, 3, 4, 5, 6, 7, 8, 9, 10, 11, 12, 13, 14, 15, 20, 21, 22, 23, 24, 25, 26, 27]

/-- Domains that Run to Vigil takes down within the change and not at its start, R365: the WLAN, MLD and the lanes. -/
def State.domLater (s : State) (d : Nat) : Bool :=
  s.pwr.change == some 1 && s.get F.PWR_STATUS_STATE == 0 && ((3 ≤ d && d ≤ 6) || d == 14 || 20 ≤ d)

/-- A domain leaves on: operations end with cause 2, the blocks stop, a lane's link is reported down. -/
def State.domLeave (s : State) (d : Nat) : State :=
  if 8 ≤ d && d ≤ 13 then s.coachLeave (d - 8)
  else
    let t := (domWins d).foldl (fun t w => t.opKill w) s
    let t := if 20 ≤ d then (t.laneOff (d - 20)).linkDownOp (d - 20) false false else t
    let t := if d = 15 then t else (domWins d).foldl (fun t w => t.blockStop w) t
    let t := if d = 2 then { t with mphy := { t.mphy with win := [], nf := [], nfs := [] } } else t
    let t := if 2 ≤ d && d ≤ 5 then
        (List.range (if d = 2 then 3 else 1)).foldl (fun t p =>
          let r := if d = 2 then 3 else d - 3
          t.setPath r p { t.path r p with fg := false }) t
      else t
    t.setDom d (if s.domGoal d = 1 then 4 else 5)

/-- What a domain loses as it becomes retained (R360, PWR_RETSEL) or, with off, goes off (R357, R359). -/
def State.domLose (s : State) (d : Nat) (off : Bool) : State :=
  if 2 ≤ d && d ≤ 5 then
    (if !off then s
     else
      let r := if d = 2 then 3 else d - 3
      let t := { s with rfe := { s.rfe with cal := s.rfe.cal.filter (fun e => e.1 / 1024 != r), calAt := s.rfe.calAt.filter fun e => e.1 / 256 != r } }
      if d = 2 then { t with rfe := { t.rfe with taps := [] } }
      else if d = 5 then t.setWl { t.wl with grants := [] } else t)
  else if d = 6 then
    (if off || !s.on F.PWR_RETSEL_MLDTAB then s.setWl { s.wl with sta := [], twt := [], spNext := [], spOpen := [] } else s)
  else if 8 ≤ d && d ≤ 13 then
    (if off then { s with yard := { s.yard with prog := s.yard.prog.filter fun e => e.1 / 65536 != d - 8 } } else s)
  else if d = 15 then
    (if !off then s
     else
      let t := (domWins 15).foldl (fun t w => t.regsReset w true) s
      { t with apc := { t.apc with parked := t.apc.parked.map fun _ => false, entry := t.apc.entry.map fun _ => 0 },
               dbg := { t.dbg with harts := t.dbg.harts.filter (fun e => 8 ≤ e.1), regs := t.dbg.regs.filter fun e => 8 ≤ e.1 / 65536 } }.set
        F.APC_HARTSTAT_RUN 1)
  else if 20 ≤ d then
    (if off || !s.on F.PWR_RETSEL_TXEQ then
      { s with regs := s.regs.filter fun e => e.1 / 32 != (0x30 + (d - 20)) * 65536 + 0x4C } else s)
  else s

/-- A domain comes on: its blocks are as after SRESET with the memories they kept, R359; APC keeps everything it held. -/
def State.domOn (s : State) (d : Nat) : State :=
  let t := s.setDom d 2
  if d = 15 then t
  else
    let t := (domWins d).foldl (fun t w => (t.regsReset w true).blockStart w) t
    if 8 ≤ d && d ≤ 13 then { t with yard := { t.yard with coachOn := kset t.yard.coachOn (d - 8) t.ns } } else t

/-- A domain starts towards its goal; a coach first drains. -/
def State.domEval (s : State) (d : Nat) : State :=
  let g := s.domGoal d
  match s.domSt d with
  | 2 =>
    if g = 2 then (if 8 ≤ d && d ≤ 13 then { s with drain := s.drain.filter (· != d - 8) } else s)
    else if s.domLater d then s
    else if 8 ≤ d && d ≤ 13 then
      ({ s with drain := if s.drain.contains (d - 8) then s.drain else s.drain ++ [d - 8] }).coachCheck (d - 8)
    else s.domLeave d
  | 3 => if g = 2 then s.setDom d 1 else if g = 0 then s.setDom d 5 else s
  | 0 => if g = 0 then s else s.setDom d 1
  | _ => s

/-- Every domain is held to its goal. -/
def State.domAll (s : State) : State := domAllList.foldl (fun t d => t.domEval d) s

/-- A transition completes. -/
def State.domArrive (s : State) (d : Nat) : State :=
  match s.domSt d with
  | 1 => if s.domGoal d = 1 then s.setDom d 3 else s.domOn d
  | 4 => (s.setDom d 3).domLose d false
  | 5 => (s.setDom d 0).domLose d true
  | _ => s

/-- DOMAIN_TRANSITION_DONE, R359; of a domain that Run to Vigil takes down within the change, its whole transition. -/
def State.domDone (s : State) (d : Nat) : State :=
  if !domAllList.contains d || !s.live then s
  else if s.domSt d = 2 && s.domLater d && s.domGoal d ≠ 2 then (s.domLeave d).domArrive d
  else (s.domArrive d).domEval d

def execDomainTransitionDone (dom : Nat) (s : State) : Host.Outcome State Fault Refusal := .next (s.domDone dom)

/-- COACH_DRAIN_TIMEOUT, R359: what still runs fails as R246 states, and the coach leaves on. -/
def State.drainEnd (s : State) (c : Nat) : State :=
  if !s.drain.contains c then s
  else ((List.range 8).foldl (fun t i => if (t.eng (8 * c + i)).wag.isSome then t.engFails (8 * c + i) true else t) s).coachCheck c

def execCoachDrainTimeout (coach : Nat) (s : State) : Host.Outcome State Fault Refusal := .next (s.drainEnd coach)

/-- Every transition under way completes, as it has when a change of the device state does, R365. -/
def State.domSettle (s : State) : State :=
  domAllList.foldl (fun t d =>
    let t := t.domEval d
    let t := if 8 ≤ d && d ≤ 13 then t.drainEnd (d - 8) else t
    (t.domArrive d).domEval d) s

/-! Performance levels, R367, R368 -/

/-- The level each rail is to have: the lower of its request and the cap of R361. -/
def State.perfWant (s : State) : Nat × Nat :=
  let st := s.pwr.capState
  (max (s.get F.PWR_PERFREQ_FABRIC) (if st = 1 then 2 else if st = 2 then 3 else 0),
   if 2 ≤ st then s.get F.PWR_PERFSTAT_CLUSTER else max (s.get F.PWR_PERFREQ_CLUSTER) (if st = 1 then 2 else 0))

/-- Rails that do not switch start towards their level. -/
def State.perfEval (s : State) : State :=
  let w := s.perfWant
  { s with pwr := { s.pwr with
      fabTo := if s.pwr.fabTo.isNone && s.get F.PWR_PERFSTAT_FABRIC ≠ w.1 then some w.1 else s.pwr.fabTo
      cluTo := if s.pwr.cluTo.isNone && s.get F.PWR_PERFSTAT_CLUSTER ≠ w.2 then some w.2 else s.pwr.cluTo } }

/-- PERF_SWITCH_DONE: the new level holds; the latest request that waited is acted on. -/
def State.perfDone (s : State) (cluster : Bool) : State :=
  match (if cluster then s.pwr.cluTo else s.pwr.fabTo) with
  | none => s
  | some l =>
    let t := { s with pwr := if cluster then { s.pwr with cluTo := none } else { s.pwr with fabTo := none } }
    ((t.set (if cluster then F.PWR_PERFSTAT_CLUSTER else F.PWR_PERFSTAT_FABRIC) l).raise W.PWR E.PWR_PERFDONE).perfEval

def execPerfSwitchDone (cluster : Bool) (s : State) : Host.Outcome State Fault Refusal :=
  .next (if s.live then s.perfDone cluster else s)

/-- Both rails have reached their levels. -/
def State.perfSettle (s : State) : State := ((s.perfDone false).perfDone false).perfDone true |>.perfDone true

/-! Device states, R361 to R365 -/

/-- PWR_STATUS.STATE: 0 Run, 1 Vigil, 2 Hush, 3 Dormant. -/
def State.dev (s : State) : Nat := s.get F.PWR_STATUS_STATE

/-- PWR's counter n: 0 STATECHG, 1 REFUSED, 2 WAKES. -/
def State.pwrCnt (s : State) (n : Nat) : State := s.bump W.PWR (0xE0 + 4 * n) E.PWR_CNTSAT

/-- A request is refused with a cause, R363. -/
def State.refuse (s : State) (cause : Nat) : State :=
  ((s.set F.PWR_STATECMD_CAUSE cause).pwrCnt 1).raise W.PWR E.PWR_REFUSED

/-- The device state becomes st. -/
def State.devTo (s : State) (st : Nat) : State :=
  ((s.set F.PWR_STATUS_STATE st).pwrCnt 0).raise W.PWR E.PWR_STATECHG

/-- The SRAM banks kept in Dormant, R362. -/
def State.sramKept (s : State) : Nat := s.get (F.PWR_SRAMRET0_BANKS) + s.get (F.PWR_SRAMRET1_BANKS) * 2 ^ 32
def bitCount (v : Nat) : Nat := ((List.range 64).filter fun b => bitOf v b).length

/-- The sources of a mask, in the layout of PWR_WAKEMASK, that are enabled and wake from Dormant, R366. -/
def State.wakeDorm (s : State) (wake : Nat) : Bool :=
  [(0, F.PWR_WAKEMASK_ALARM), (1, F.PWR_WAKEMASK_MAINSRET), (2, F.PWR_WAKEMASK_BACKUPRET), (3, F.PWR_WAKEMASK_BACKUPLOSS),
    (4, F.PWR_WAKEMASK_GPIO), (5, F.PWR_WAKEMASK_UART)].any fun e => bitOf wake e.1 && s.on e.2

/-- The cause for which PWR refuses a target, 0 when it does not, R363. -/
def State.stateCause (s : State) (tgt wake : Nat) : Nat :=
  if tgt = 0 && s.get F.PINS_SUPPLY_SOURCE = 2 then 1
  else if tgt = 0 && s.on F.PINS_BASETEMP_HOLD then 2
  else if 2 ≤ tgt && s.cpl ≠ 0 then 3
  else if tgt = 3 && s.wakeDorm wake then 4
  else if tgt = 3 && 8 < bitCount s.sramKept then 5
  else 0

/-- The next state on the way from one state to another, R363. -/
def stateHop (a b : Nat) : Nat := match a with | 0 => 1 | 1 => b | _ => if b = 3 then 3 else 1

/-- Stops or resumes harts. -/
def State.park (s : State) (p : Nat → Bool) (on : Bool) : State :=
  { s with apc := { s.apc with parked := (List.range 8).map fun h => if p h then on else s.apc.parked.getD h false } }

/-- Lanes that Vigil does not keep go to electrical idle with their state kept, R365. -/
def State.lanesIdle (s : State) : State :=
  (List.range 8).foldl (fun t n => if t.vlanes.contains n then t else t.set (F.LANE_STAT_IDLE n) 1) s

/-- The first moment of a change to the next state, R365. -/
def State.stepStart (s : State) (next final : Nat) : State :=
  let t := ({ s with pwr := { s.pwr with change := some next, final := final } }).set F.PWR_STATUS_CHANGING 1
  if s.dev = 0 then ((({ t with pwr := { t.pwr with capState := 1 } }).park (· != 0) true).lanesIdle).domAll.perfEval
  else if next = 0 then ({ t with pwr := { t.pwr with capState := 0 } }).domAll.perfEval
  else t

/-- A request that no change stands before: without effect for the state in force, else refused or started. -/
def State.ask (s : State) (tgt wake : Nat) : State :=
  if tgt = s.dev then s
  else
    let c := s.stateCause tgt wake
    if c ≠ 0 then s.refuse c else s.stepStart (stateHop s.dev tgt) tgt

/-- GO, R363, R364: during a change the latest request waits and takes the place of an earlier one. Before the hand-over the state is
the one of R384. -/
def State.goReq (s : State) (tgt wake : Nat) : State :=
  if s.env.phase ≠ .software then s
  else if s.pwr.change.isSome then
    let t := if s.pwr.pend.isSome then s.refuse 6 else s
    { t with pwr := { t.pwr with pend := some tgt } }
  else s.ask tgt wake

/-- A change ends or is abandoned: none runs. -/
def State.noChange (s : State) : State :=
  ({ s with pwr := { s.pwr with change := none } }).set F.PWR_STATUS_CHANGING 0

/-- What the last moment of a change does beyond the domains, R361, R365. -/
def State.stepLast (s : State) (old new : Nat) : State :=
  match new with
  | 0 => (List.range 8).foldl (fun t n => t.laneOn n) (s.park (fun _ => true) false)
  | 1 =>
    if old = 2 then s.hushExit.park (· == 0) false
    else (List.range 8).foldl (fun t n => if t.tooFast n then (t.laneOff n).linkDownOp n false false else t) s
  | 2 => s.hushEntry.park (· == 0) true
  | _ => { s with tm := { s.tm with t0 := s.tm.tb, tick := .stopped } }

/-- The module enters Dormant: every domain but AON goes off, R361, R365. -/
def State.allOff (s : State) : State :=
  let t := domAllList.foldl (fun t d =>
    let t := if 8 ≤ d && d ≤ 13 && t.domSt d = 2 then t.coachLeave (d - 8) else if t.domSt d = 2 then t.domLeave d else t
    (t.setDom d 0).domLose d true) s
  (((([8, 9, 10, 11] : List Nat).foldl (fun t w => t.opKill w) t).setDom 1 0).setDom 16 0)

/-- A change completes: STATE shows the new state and STATECHG is raised. -/
def State.stepEnd (s : State) (new : Nat) : State :=
  let old := s.dev
  let t := { s with pwr := { s.pwr with capState := new } }
  let t := if new = 3 then ((t.limSnap 2 true).stepLast old 3).allOff else ((t.noChange.perfEval.domSettle).perfSettle).stepLast old new
  (t.noChange.devTo new).lisPower

/-- The pending request is acted on, R364. -/
def State.takePend (s : State) (wake : Nat) : State :=
  match s.pwr.pend with
  | none => s
  | some p => ({ s with pwr := { s.pwr with pend := none } }).ask p wake

/-- What follows a completed change, R364: the forced change, the states still between, the pending request. -/
def State.stepNext (s : State) (wake : Nat) : State :=
  let st := s.dev
  if st = 3 then { s with pwr := { s.pwr with pend := none, forced := false } }
  else if s.pwr.forced then
    let t := { s with pwr := { s.pwr with forced := false } }
    if st = 1 then t.takePend wake else t.stepStart 1 1
  else if st ≠ s.pwr.final then
    let c := s.stateCause s.pwr.final wake
    if c ≠ 0 then (s.refuse c).takePend wake else s.stepStart (stateHop st s.pwr.final) s.pwr.final
  else s.takePend wake

/-- STATE_CHANGE_DONE, R365; wake holds the wake sources that are active, which a next step to Dormant looks at (R363). -/
def State.changeDone (s : State) (wake : Nat) : State :=
  match s.pwr.change with
  | none => s
  | some new => (s.stepEnd new).stepNext wake

def execStateChangeDone (wake : Nat) (s : State) : Host.Outcome State Fault Refusal := .next (s.changeDone wake).mlcPath

/-- A pending request is discarded, with cause 6 when its target is not Vigil, R364. -/
def State.pendDrop (s : State) : State :=
  match s.pwr.pend with
  | none => s
  | some p =>
    let t := { s with pwr := { s.pwr with pend := none } }
    if p = 1 then t else t.refuse 6

/-- FORCED_VIGIL, R364: the supply path (r45) or the thermal hold takes the device state to Vigil. -/
def State.forceVigil (s : State) (r45 : Bool) : State :=
  let s := s.pendDrop
  match s.pwr.change with
  | none =>
    if s.dev = 1 || s.dev = 3 then s
    else
      let t := s.stepStart 1 1
      if r45 && s.dev = 0 && s.on F.CPL_CFG_VIGILREL then t.cplHand else t
  | some 0 => ({ s with pwr := { s.pwr with capState := 1, final := 1 } }).noChange.domAll.perfEval
  | some 1 => { s with pwr := { s.pwr with final := 1 } }
  | some 2 => { s with pwr := { s.pwr with forced := true, final := 2 } }
  | some _ =>
    let t := s.noChange
    if t.dev = 1 then t else t.stepStart 1 1

/-- A change to Dormant that a wake source abandons before the tick stops, R365. -/
def State.dormAbandon (s : State) : State := s.noChange.refuse 4

end Sys2Proof.Machine
end

