-- ==== Sys2Proof/Machine/Start.lean ====
section
/-!
DEFINITION. Supply, baseplate temperature, nRESET_IN, starts of the die, die stops and wakes: R32, R45 to R49, R308, R364, R366, R376,
R377, R384 to R387, R391. Boot.lean holds the hand-over.
-/

namespace Sys2Proof.Machine

/-! The pins of the supply, R45, R47 -/

/-- SOURCE: 0 mains, 1 backup, 2 store. -/
def SupPath.source (p : SupPath) : Nat := match p with | .onMains => 0 | .onBackup => 1 | .bridging => 2 | .off => 3

/-- The supply path moves; the bridge timer starts on entry to Bridging and is cleared on leaving it. -/
def State.supTo (s : State) (p : SupPath) : State :=
  ({ s with env := { s.env with path := p, timer := p == SupPath.bridging } }).set F.PINS_SUPPLY_SOURCE p.source

/-- MAINS_OK and BACKUP_OK. -/
def State.mainsOk (s : State) : Bool := s.on F.PINS_SUPPLY_MAINS_OK
def State.backupOk (s : State) : Bool := s.on F.PINS_SUPPLY_BACKUP_OK

/-- The baseplate temperature in 0.125 °C. -/
def State.temp (s : State) : Int := s.getI F.PINS_BASETEMP_TEMP

/-! Starts, R384, R385, R391 -/

/-- The device state is Vigil before the hand-over, R384, R387. -/
def State.bootVigil (s : State) : State :=
  if s.env.phase ≠ .boot || s.dev = 1 then s
  else
    let t := { s with env := { s.env with bootVigil := true }, pwr := { s.pwr with capState := 1 } }
    ((t.devTo 1).park (· != 0) true).domAll.domSettle.lisPower

/-- The windows whose whole pages are in AON, R357. -/
def aonWin (w : Nat) : Bool := w == 0 || w == 1 || w == 3 || w == 4 || w == 0x0F || w == 0x52

/-- Registers that a start keeps: the levels of the supply and of the temperature, and after a die stop or in Dormant what AON
holds, page headers, WARN and HOLD among it; CTRL and PINS_STATUSOUT are as after reset (R388). -/
def startKeep (kind k : Nat) : Bool :=
  let w := k / 2097152
  let off := k / 32 % 65536
  (w == 0x52 && (off == 0x40 || (off == 0x44 && k % 32 == 0)))
    || (2 ≤ kind && off != 8 && !(w == 0x52 && off == 0x48) && (off < 0x40 || aonWin w))

/-- Whether a start keeps the octet at an address: the settings store, and after Dormant the SRAM banks of PWR_SRAMRET. -/
def State.startMem (s : State) (kind a : Nat) : Bool :=
  inNvs a || (kind == 3 && inSram a && bitOf s.sramKept ((a - 0x10000000) / 0x100000))

/-- The debug module after a start; halts on reset where resethaltreq asks for it, R394. -/
def State.startDbg (s : State) (kind : Nat) : DbgS :=
  if kind < 2 then State.reset.dbg
  else { s.dbg with checks := [], regs := [], lmem := [],
                    harts := (s.dbg.harts.filter fun e => e.2.rhr).map fun e =>
                      (e.1, { hart0 with rhr := true, havereset := true, halted := e.1 == 0, cause := 5 }) }

/-- The timebase after a start: 0:0 and Free, or n sleep edges after T0 (R76, R102). -/
def State.startTime (s : State) (kind n : Nat) : TimeS :=
  if kind < 3 then State.reset.tm
  else
    let x := (s.timeRestore n).tm
    { State.reset.tm with tb := x.tb, calAcc := x.calAcc, lastD := 0 }

/-- The highest kind of start since the last hand-over, which SYS_START records. -/
def State.startRec (s : State) (kind : Nat) : Nat :=
  match s.env.phase with | .software => kind | .off => kind | _ => min s.env.startKind kind

/-- The residency counters after a start; after Dormant the time in it has passed, R369. -/
def State.startRes (s : State) (kind n : Nat) : List Nat :=
  if kind < 2 then State.reset.pwr.res
  else if kind = 3 then lmod s.pwr.res 3 fun v => v + s.slpElapsed n / 65536 else s.pwr.res

/-- What a start keeps, R384; the rest is as State.reset has it. -/
def State.startKept (s : State) (kind n : Nat) : State :=
  { State.reset with
    regs := s.regs.filter fun e => startKeep kind e.1
    nv := s.nv
    mem := s.mem.filter fun e => s.startMem kind e.1
    oppart := if kind < 2 then [] else s.oppart
    pending := s.pending
    free := s.free
    env := { s.env with phase := .boot, cut := false, lifeOut := 0, startKind := s.startRec kind, bootVigil := false }
    tm := s.startTime kind n
    pwr := { State.reset.pwr with res := s.startRes kind n }
    flt := if kind < 2 then State.reset.flt else s.flt
    ram := { State.reset.ram with ue := s.ram.ue.filter fun a => s.startMem kind a }
    rfe := { State.reset.rfe with taps := s.rfe.saved, saved := s.rfe.saved }
    nvs := s.nvs
    keys := s.keys
    lim := { State.reset.lim with seq := s.lim.seq, row := s.lim.row }
    dbg := s.startDbg kind }

/-- The registers that a start writes; s1 holds the time of a wake. -/
def State.startRegs (t s1 : State) (kind rec' : Nat) : State :=
  let t := t.sets [(F.PWR_STATUS_CHANGING, 0), (F.PWR_PERFSTAT_FABRIC, 0), (F.PWR_PERFSTAT_CLUSTER, 0), (F.DBG_AUTH_BUSY, 0),
    (F.SYS_START_CAUSE, rec'), (F.SYS_START_FALLBACK, 0), (F.SYS_START_VIGIL, 0), (F.SYS_START_BOOTMS, 0)]
  let t := if kind = 3 then (t.sets [(F.TIME_UNC_UNC, s1.get F.TIME_UNC_UNC), (F.TIME_STATE_STATE, s1.get F.TIME_STATE_STATE)]).raiseIf
    (s1.ev W.TIME E.TIME_STATECHG) W.TIME E.TIME_STATECHG else t
  let c := t.fresh
  let d := c.2.fresh
  d.2.sets [(F.DBG_CHALLENGELO_CHAL, c.1), (F.DBG_CHALLENGEHI_CHAL, d.1)]

/-- The device state from the start on, R384, and the temperature's thresholds from its first moment, R32: a WARN or HOLD that AON kept
ends only under its own clear condition. A hold or a supply path that bridges turns the state to Vigil, R387. -/
def State.startState (t : State) (rec' : Nat) (bridging : Bool) : State :=
  let t := if rec' ≤ 2 && t.dev ≠ 0 then t.devTo 0 else t
  let t := if rec' = 3 then t.bootVigil else t
  let hot := 704 ≤ t.temp && !t.on F.PINS_BASETEMP_WARN
  let hold := 760 ≤ t.temp && !t.on F.PINS_BASETEMP_HOLD
  let t := if hot then (t.set F.PINS_BASETEMP_WARN 1).raise W.PINS E.PINS_THERM_WARN else t
  let t := if hold then (t.set F.PINS_BASETEMP_HOLD 1).raise W.PINS E.PINS_THERM_HOLD else t
  if t.on F.PINS_BASETEMP_HOLD || bridging then t.bootVigil else t

/-- The gateways sample the sources again after a start: a source whose EV_OUT is not 0 asks, R69. -/
def State.plicStart (t : State) : State :=
  ((List.range 83).filter winOk).foldl (fun t w => t.plicSample w (t.evOut w != 0)) t

/-- A start of a kind of R384 puts the die into the boot phase; n counts sleep edges of a wake. -/
def State.start (s : State) (kind n : Nat) : State :=
  let rec' := s.startRec kind
  (((s.startKept kind n).startRegs (s.timeRestore n) kind rec').startState rec' (s.env.path == .bridging)).plicStart

/-- The die no longer runs, R32, R45, R48, R49: every transmitter stops, mid-frame as well, and with it the islands whose state the
next start gives afresh; lanes are in electrical idle; PPS_OUT and COEX_REQ_OUT are low (Pins.lean has the outputs). -/
def State.dieOff (s : State) (p : Phase) (life : Nat) : State :=
  let t := { s with
    env := { s.env with phase := p, lifeOut := life }
    tm := { s.tm with ppsOut := false }
    rfe := { State.reset.rfe with saved := s.rfe.saved, taps := s.rfe.taps }
    mphy := State.reset.mphy
    mlc := State.reset.mlc
    wl := State.reset.wl
    shp := []
    emac := [] }
  (List.range 8).foldl (fun t n => t.set (F.LANE_STAT_IDLE n) 1) t

/-- Off ends when an input is good, R45; not while the baseplate stands at or above +75 °C after the thermal cut, R32. -/
def State.leaveOff (s : State) : State :=
  if s.env.phase ≠ .off || !(s.mainsOk || s.backupOk) || (s.env.cut && 600 ≤ s.temp) then s
  else (s.supTo (if s.mainsOk then .onMains else .onBackup)).start 0 0

/-! Supply rows, R45, R47 -/

/-- A level of the supply monitors, R47: its change raises its event, also while a stop holds the die and AON keeps its contents (R377). -/
def State.supPin (s : State) (f : Fld) (v : Bool) (ev : Nat) : State :=
  (s.set f (b2n v)).raiseIf ((s.live || s.env.phase == .stopped) && s.on f != v) W.PINS ev

/-- MAINS_GOOD. -/
def State.mainsGood (s : State) : State :=
  let t := s.supPin F.PINS_SUPPLY_MAINS_OK true E.PINS_MAINS_RETURN
  match t.env.path with
  | .off => t.leaveOff
  | .onMains => t
  | _ => t.supTo .onMains

def execMainsGood (s : State) : Host.Outcome State Fault Refusal := .next s.mainsGood

/-- Bridging begins, R45; before the hand-over the state becomes Vigil (R387). -/
def State.bridge (s : State) : State := (s.supTo .bridging).bootVigil

/-- MAINS_LOSS. -/
def State.mainsLoss (s : State) : State :=
  let t := s.supPin F.PINS_SUPPLY_MAINS_OK false E.PINS_MAINS_LOSS
  match t.env.path with
  | .onMains => if t.backupOk then t.supTo .onBackup else t.bridge
  | _ => t

def execMainsLoss (s : State) : Host.Outcome State Fault Refusal := .next s.mainsLoss

/-- MAINS_RETURN, R45: in Bridging the first peak is taken. -/
def execMainsReturn (s : State) : Host.Outcome State Fault Refusal :=
  .next (if s.env.path = .bridging then s.supTo .onMains else s)

/-- BACKUP_GOOD with the backup voltage in 10 mV. -/
def State.backupGood (s : State) (volts : Nat) : State :=
  let t := (s.set F.PINS_SUPPLY_BATV volts).supPin F.PINS_SUPPLY_BACKUP_OK true E.PINS_BACKUP_RETURN
  match t.env.path with
  | .off => t.leaveOff
  | .bridging => t.supTo .onBackup
  | _ => t

def execBackupGood (volts : Nat) (s : State) : Host.Outcome State Fault Refusal := .next (s.backupGood volts)

/-- BACKUP_LOSS. -/
def State.backupLoss (s : State) (volts : Nat) : State :=
  let t := (s.set F.PINS_SUPPLY_BATV volts).supPin F.PINS_SUPPLY_BACKUP_OK false E.PINS_BACKUP_LOSS
  if t.env.path = .onBackup then (if t.mainsOk then t.supTo .onMains else t.bridge) else t

def execBackupLoss (volts : Nat) (s : State) : Host.Outcome State Fault Refusal := .next (s.backupLoss volts)

/-- BRIDGE_TIMER_EXPIRE, R45, R364: with the device state Run, or on its way to Run, PWR forces Vigil, in safe hold too. -/
def State.bridgeExpire (s : State) : State :=
  if !s.env.timer then s
  else
    let t := { s with env := { s.env with timer := false } }
    if (t.env.phase = .software || t.env.phase = .safeHold) && (t.dev = 0 || (t.pwr.change.isSome && t.pwr.final = 0)) then t.forceVigil true else t

def execBridgeTimerExpire (s : State) : Host.Outcome State Fault Refusal := .next s.bridgeExpire

/-- STORE_EXHAUSTED, R45: in Bridging the module goes Off. -/
def State.storeEnd (s : State) : State := if s.env.path = .bridging then (s.supTo .off).dieOff .off 0 else s

def execStoreExhausted (s : State) : Host.Outcome State Fault Refusal := .next s.storeEnd

/-! Temperature rows, R32 -/

/-- THERM_WARN at or above +88 °C. -/
def State.thermWarn (s : State) : State :=
  if s.live && 704 ≤ s.temp && !s.on F.PINS_BASETEMP_WARN then (s.set F.PINS_BASETEMP_WARN 1).raise W.PINS E.PINS_THERM_WARN else s

/-- The sensor reads a temperature in 0.125 °C. -/
def State.feel (s : State) (x : Int) : State := s.setI F.PINS_BASETEMP_TEMP (clampI (-2048) 2047 x)

def execThermWarn (temp : Int) (s : State) : Host.Outcome State Fault Refusal := .next (s.feel temp).thermWarn

/-- WARN_CLEAR below +83 °C. -/
def State.warnClear (s : State) : State := if s.live && s.temp < 664 then s.set F.PINS_BASETEMP_WARN 0 else s

def execWarnClear (temp : Int) (s : State) : Host.Outcome State Fault Refusal := .next (s.feel temp).warnClear

/-- THERM_HOLD at or above +95 °C: PWR forces Vigil, before the hand-over as R387 states. -/
def State.thermHold (s : State) : State :=
  let t := s.thermWarn
  if t.live && 760 ≤ t.temp && !t.on F.PINS_BASETEMP_HOLD then
    let u := (t.set F.PINS_BASETEMP_HOLD 1).raise W.PINS E.PINS_THERM_HOLD
    if u.env.phase = .boot then u.bootVigil else u.forceVigil false
  else t

def execThermHold (temp : Int) (s : State) : Host.Outcome State Fault Refusal := .next (s.feel temp).thermHold

/-- THERM_CLEAR: 60 s below +85 °C have passed. -/
def State.thermClear (s : State) : State :=
  if s.live && s.temp < 680 && s.on F.PINS_BASETEMP_HOLD then
    (s.set F.PINS_BASETEMP_HOLD 0).raise W.PINS E.PINS_THERM_CLEAR
  else s

def execThermClear (temp : Int) (s : State) : Host.Outcome State Fault Refusal := .next (s.feel temp).thermClear

/-- THERMAL_CUT at or above +105 °C: the module is Off. -/
def State.thermCut (s : State) : State :=
  if s.env.phase ≠ .off && 840 ≤ s.temp then
    let t := (s.supTo .off).dieOff .off 0
    { t with env := { t.env with cut := true } }
  else s

def execThermalCut (temp : Int) (s : State) : Host.Outcome State Fault Refusal := .next (s.feel temp).thermCut

/-- THERMAL_CUT_RECOVER below +75 °C with an input good. -/
def execThermalCutRecover (temp : Int) (s : State) : Host.Outcome State Fault Refusal :=
  .next (if s.env.cut then (s.feel temp).leaveOff else s.feel temp)

/-! nRESET_IN, R49, R384 -/

/-- NRESET_LOW: the die is held in reset. Before a hand-over the kinds of R384 that applied stay in force. -/
def State.nresetLow (s : State) : State :=
  if s.env.phase = .off then s
  else
    let k := match s.env.phase with | .software => 1 | _ => min s.env.startKind 1
    let t := s.dieOff .inReset 0
    { t with env := { t.env with startKind := k } }

def execNresetLow (s : State) : Host.Outcome State Fault Refusal := .next s.nresetLow

/-- NRESET_RELEASE. -/
def execNresetRelease (s : State) : Host.Outcome State Fault Refusal :=
  .next (if s.env.phase = .inReset then s.start 1 0 else s)

/-! Die stops, R376, R377 -/

/-- DIE_STOP, R377: operations end as their domains go, STOPINFO records the cause, LIFE_OUT is held high. -/
def State.dieStop (s : State) (cause cls : Nat) : State :=
  if !s.live then s
  else
    let k := match s.env.phase with | .software => 2 | _ => min s.env.startKind 2
    let t := ((List.range 83).filter winOk).foldl (fun t w => t.opKill w) s
    let t := t.sets [(F.FLT_STOPINFO_CAUSE, cause), (F.FLT_STOPINFO_CLASS, cls), (F.FLT_STOPINFO_VALID, 1)]
    let t := t.dieOff .stopped 2
    { t with env := { t.env with startKind := k } }

/-- HANDSHAKE_STALL, R376, with the class of the block. -/
def execHandshakeStall (cls : Nat) (s : State) : Host.Outcome State Fault Refusal := .next (s.dieStop 1 cls)
/-- RAIL_FAULT. -/
def execRailFault (s : State) : Host.Outcome State Fault Refusal := .next (s.dieStop 2 0)
/-- TICK_LOCK_LOST. -/
def execTickLockLost (s : State) : Host.Outcome State Fault Refusal := .next (s.dieStop 3 0)

/-- STOPHOLD_EXPIRE: the die restarts, CPL is Solo, STOPPED is counted and raised. -/
def execStopholdExpire (s : State) : Host.Outcome State Fault Refusal :=
  .next (if s.env.phase = .stopped then ((s.start 2 0).fltCnt 4).raise W.FLT E.FLT_STOPPED else s)

/-! Wakes, R366 -/

/-- An interrupt that hart 0's contexts of the PLIC would take, or its timer, R366. -/
def State.intrWake (s : State) : Bool := s.plicIrq 0 || s.plicIrq 1 || s.timerIrq 0

/-- Whether a wake source, by its bit of PWR_WAKEMASK, is enabled; INTR is active while an interrupt is there. -/
def State.wakeOn (s : State) (src : Nat) : Bool :=
  match src with
  | 6 => s.on F.PWR_WAKEMASK_INTR && s.intrWake
  | n => s.wakeDorm (2 ^ n)

/-- PWR_WAKE and its event. -/
def State.wakeNote (s : State) (src : Nat) (dorm : Bool) : State :=
  ((s.sets [(F.PWR_WAKE_CAUSE, 2 ^ src), (F.PWR_WAKE_DORMANT, b2n dorm)]).pwrCnt 2).raise W.PWR E.PWR_WAKE

/-- A wake from Dormant n sleep edges after the tick stopped. -/
def State.wakeDie (s : State) (src n : Nat) : State := (s.start 3 n).wakeNote src true

/-- WAKE_SOURCE: a source becomes active. In Hush it starts the change to the state WAKETO names, during a change to Dormant it
abandons the change, in Dormant it starts the die. -/
def State.wake (s : State) (src n : Nat) : State :=
  if !s.live || !s.wakeOn src || src = 0 then s
  else if s.env.phase ≠ .software then s
  else if s.pwr.change = some 3 then (if src = 6 then s else s.dormAbandon.takePend (2 ^ src))
  else if s.dev = 3 then (if src = 6 then s else s.wakeDie src n)
  else if s.dev = 2 && s.pwr.change.isNone then
    let to' := if s.on F.PWR_STATECFG_WAKETO then 0 else 1
    (s.wakeNote src false).stepStart 1 to'
  else s

def execWakeSource (src edges : Nat) (s : State) : Host.Outcome State Fault Refusal := .next (s.wake src edges)

/-- DORMANT_ALARM: the first edge at or after PWR_ALARM.MS. -/
def execDormantAlarm (edges : Nat) (s : State) : Host.Outcome State Fault Refusal :=
  .next (if s.live && s.dev = 3 && s.on F.PWR_WAKEMASK_ALARM && s.get F.PWR_ALARM_MS ≠ 0
      && s.get F.PWR_ALARM_MS * 1000000 * 65536 ≤ s.slpElapsed edges then s.wakeDie 0 edges else s)

end Sys2Proof.Machine
end

