-- ==== Sys2Proof/Machine/Writes.lean ====
section
/-!
DEFINITION. Writing registers: the access codes, reserved codes and locks (R59, R61, R65), fields that take writes only at times,
multi-word registers (R75), the page header (R62), START and ABORT (R67), and what a write starts in each block.
-/

namespace Sys2Proof.Machine

/-! Fields, R59, R61, R65 -/

/-- The n bits of old with those of x cleared. -/
def clearBits (n old x : Nat) : Nat :=
  (List.range n).foldl (fun a b => if bitOf old b && !bitOf x b then a + 2 ^ b else a) 0

/-- What a field stores of a value that is not reserved. -/
def storeAs (st : Store) (x : Nat) : Nat :=
  match st with
  | .clamp lo hi => clampN lo hi x
  | .clampS lo hi => unsgn 8 (clampI (sgn 8 lo) (sgn 8 hi) (sgn 8 x))
  | _ => x

/-- The FEC options that the table of R287 lists for a mode, as bits of LANE_MODE.FEC. -/
def fecList (m : Nat) : Nat :=
  match m with
  | 4 => 1
  | 5 => 1
  | 6 => 3
  | 7 => 7
  | 8 => 7
  | _ => 0

/-- Whether window w's lane has no mode x, R287. -/
def laneModeBad (w x : Nat) : Bool := 11 ≤ x || (9 ≤ x && w < 0x34)

/-- Whether FEC x is no choice for mode m, R289: an option that is not listed, or not exactly one where just one is to be set. -/
def fecBad (m x : Nat) (an : Bool) : Bool :=
  x &&& fecList m != x || ((m == 7 || ((m == 6 || m == 8) && !an)) && !(x == 1 || x == 2 || x == 4))

/-- Whether x is a code that the field's table marks reserved, v being the word written. -/
def State.fldReserved (s : State) (w off j : Nat) (f : FldRow) (x v : Nat) : Bool :=
  (match f.store with | .within lo hi => !(lo ≤ x && x ≤ hi) | _ => false)
    || (w == 0x13 && off == 0x44 && ((f.lo == 0 && x == 2) || (f.lo == 2 && x == 0)))
    || (0x10 ≤ w && w ≤ 0x12 && off == 0x70 && 64 ≤ x)
    || (0x18 ≤ w && w ≤ 0x1A && off == 0x40 && f.lo == 8 && 5 ≤ x)
    || (w == W.MPHY && 0x60 ≤ off && off ≤ 0x68 && f.lo == 5 && (if 4 ≤ v % 32 then v % 32 else s.get (F.MPHY_QUAL_M j)) < x)
    || (0x30 ≤ w && w ≤ 0x37 && off == 0x40 && f.lo == 0 && laneModeBad w x)
    || (0x30 ≤ w && w ≤ 0x37 && off == 0x40 && f.lo == 4
      && fecBad (if laneModeBad w (v % 16) then s.get (F.LANE_MODE_MODE (w - 0x30)) else v % 16) x (bitOf v 7))

/-- The bank of a register of a turn list. -/
def bankOf (off : Nat) : Option Nat :=
  if 0x100 ≤ off && off < 0x140 then some ((off - 0x100) / 32)
  else if 0x400 ≤ off && off < 0xC00 then some ((off - 0x400) / 1024)
  else none

/-- Whether a bank of a turn list takes writes, R281. -/
def State.bankTakes (s : State) (n b : Nat) : Bool :=
  if b = s.get (F.SHP_TLCTL_ACTIVE n) then !s.on (F.SHP_TLCTL_EN n) else !s.on (F.SHP_TLCTL_SWPEND n)

/-- Whether the fields of a register take writes now: R192, R273, R287, R318, R352, R281. -/
def State.regTakes (s : State) (w off : Nat) : Bool :=
  if w = W.MNODE then !(0x40 ≤ off && off ≤ 0x4C && s.on (F.CTRL_ENABLE w))
  else if w = W.RTE then !((off == 0x40 || off == 0x44) && s.on (F.CTRL_ENABLE w))
  else if 0x30 ≤ w && w ≤ 0x37 then !(off == 0x40 && s.on (F.CTRL_ENABLE w))
  else if w = W.CPL then !((off == 0x40 || off == 0x44) && s.on (F.CTRL_ENABLE w))
  else if 0x08 ≤ w && w ≤ 0x0B then !(0x40 ≤ off && off < 0x78 && s.busy w)
  else if 0x40 ≤ w && w ≤ 0x47 then (match bankOf off with | some b => s.bankTakes (w - 0x40) b | none => true)
  else true

/-- Whether a field of a ring takes x: SIZE while EN is 0, CONS moved on by no more than the entries in the ring, R351, R354. -/
def State.ringTakes (s : State) (w off j lo x : Nat) : Bool :=
  !(w == W.APC && 0x80 ≤ off && off < 0x100
    && ((off % 16 == 8 && lo == 4 && s.on (F.APC_RINGCFG_EN j))
      || (off % 16 == 12 && lo == 16 && s.ringUsed j < (x + 65536 - s.get (F.APC_RINGIDX_CONS j)) % 65536)))

/-- Whether Tile t is neither disabled nor stopped: its while-disabled fields keep their values, R146. -/
def State.tileBusy (s : State) (t : Nat) : Bool := s.on (F.MLC_TILE_CTL_EN t) || s.on (F.MLC_TILE_CTL_RUN t)

/-- The bank, 0 A and 1 B, of a field of a slotframe's registers. -/
def sfBank (w off lo : Nat) : Option Nat :=
  if w = W.MLC && 0x1000 ≤ off && off < 0x2000 then
    match off % 32 with
    | 0x0C => some 0
    | 0x10 => some 0
    | 0x14 => some (if lo = 0 then 0 else 1)
    | 0x18 => some 1
    | 0x1C => some 1
    | _ => none
  else none

/-- Whether a field of a slotframe's bank refuses x with TILEBUSY: a change of the active bank's while the Tile is not disabled, any
write of the inactive bank's while a switch is armed, R149, R168. -/
def State.sfBars (s : State) (w off j lo x old : Nat) : Bool :=
  match sfBank w off lo with
  | none => false
  | some b =>
    let k := (off - 0x1000) % 512 / 32
    if s.get (F.MLC_SFCTL_ACTIVE j k) = b then s.tileBusy j && x != old else s.on (F.MLC_SFCTL_SWPEND j k)

/-- A word v written to one field of a register; s0 is the state before the write. -/
def State.fldWrite (s0 : State) (rq : Rq) (w off j v : Nat) (s : State) (f : FldRow) : State :=
  let x := v / 2 ^ f.lo % 2 ^ f.len
  let g := fldOf w off j f
  match f.acc with
  | .rw =>
    if f.lock && !s0.on (F.LOCK_OPEN w) then s.errRec rq w off 1
    else if s0.fldReserved w off j f x v then s.errRec rq w off 5
    else if !s0.regTakes w off || !s0.ringTakes w off j f.lo x then s
    else if f.wd && s0.tileBusy j then s.raiseIf (x != s0.get g) W.MLC E.MLC_TILEBUSY
    else if s0.sfBars w off j f.lo x (s0.get g) then s.raise W.MLC E.MLC_TILEBUSY
    else s.set g (storeAs f.store x)
  | .w1c => s.set g (clearBits f.len (s.get g) x)
  | .w1s => if f.lock && !s0.on (F.LOCK_OPEN w) && x != 0 then s.errRec rq w off 1 else s
  | _ => s

/-- A word written to the fields of the register at an offset. -/
def State.tabWrite (s : State) (rq : Rq) (w off v : Nat) : State :=
  match regAt w off with
  | none => s
  | some (r, j) => (r.flds.filter fun f => fldHere w off f.lo).foldl (s.fldWrite rq w off j v) s

/-! Multi-word registers, R75 -/

/-- The words of a multi-word register are stored. -/
def State.multiStore (s : State) (rq : Rq) (w : Nat) (l ws : List Nat) : State :=
  let v := fun k => ws.getD k 0
  if w = W.TIME then
    (if l.headD 0 = 0x40 then s.askLoad (v 2 + v 3 % 65536 * 2 ^ 32) (v 1) (v 0 % 65536)
     else s.setIncr ((v 0 + v 1 % 256 * 2 ^ 32 : Nat) : Int))
  else if w = W.PWR then
    { s with pwr := { s.pwr with res := lset s.pwr.res ((l.headD 0 - 0x80) / 8) ((v 0 + v 1 * 2 ^ 32) * 1000) } }
  else (l.zip ws).foldl (fun t e => t.tabWrite rq w e.1 e.2) s

/-- A write of a word of a multi-word register: held, or with the highest word stored. -/
def State.multiWrite (s : State) (rq : Rq) (w off v : Nat) (l : List Nat) : State :=
  if !s.regTakes w off then s
  else if off ≠ l.getLastD 0 then { s with held := kset s.held (wordKey rq w off) v }
  else
    let ws := l.map fun o => if o = off then v else (kget s.held (wordKey rq w o)).getD (s.regWord rq w o)
    ({ s with held := l.foldl (fun m o => kdel m (wordKey rq w o)) s.held }).multiStore rq w l ws

/-! Tables behind an index register -/

/-- MPHY drops the noise floor of an RFE_M entry that is written, R135. -/
def State.nfDrop (s : State) (r i : Nat) : State := if r = 3 then { s with mphy := { s.mphy with nf := kdel s.mphy.nf i, nfs := kdel s.mphy.nfs i } } else s

/-- RFE_CALDATAw written, R111, R112: no effect on an entry that a running operation covers; STALE and RESULT keep, VALID can only be
cleared, and a reserved WIDTH leaves the field. -/
def State.calWrite (s : State) (rq : Rq) (r k v : Nat) : State :=
  let i := s.get (F.RFE_CALIDX_INDEX r)
  let f := s.get (F.RFE_OPSEL_FIRST r)
  let old := s.calW r i k
  if s.opSt (W.RFE r) = 2 && s.get (F.RFE_OPSEL_OP r) ≠ 2 && f ≤ i && i < f + s.opCount r then s
  else if k = 0 then
    let bad := 4 < calWidth v
    let wd := if bad then calWidth old else calWidth v
    let t := if bad then s.errRec rq (W.RFE r) 0x74 5 else s
    (t.setCalW r i 0 (calFreq v + (if r = 3 then calPath v * 2 ^ 24 else 0) + b2n (calValid v && calValid old) * 2 ^ 26
      + b2n (calStale old) * 2 ^ 27 + wd * 2 ^ 28)).nfDrop r i
  else if k = 3 then (s.setCalW r i 3 (bitsOf v 0 12 + bitsOf old 16 4 * 2 ^ 16)).nfDrop r i
  else (s.setCalW r i k v).nfDrop r i

/-- MPHY_LCFG written, R125: the word of the listener of MPHY_LSEL. -/
def State.lcfgWrite (s : State) (rq : Rq) (v : Nat) : State :=
  let l := s.get F.MPHY_LSEL_LISTENER
  let bad := 40 < bitsOf v 2 6
  let t := if bad then s.errRec rq W.MPHY 0x74 5 else s
  let m := if bad then bitsOf (s.lcfg l) 2 6 else bitsOf v 2 6
  { t with mphy := { t.mphy with lcfg := kset t.mphy.lcfg l (v % 4 + m * 4 + v / 65536 % 65536 * 65536) } }

/-- WPHY_GRANTDATAw written, R213: words 1 to 3 while VALID is 0; VALID written 1 clears EXPIRED. -/
def State.grantWrite (s : State) (k v : Nat) : State :=
  let i := s.get (F.WPHY_GRANTIDX_INDEX 2)
  let old := s.grantW i 0
  if k = 0 then s.setGrantW i 0 (v % 2 ^ 17 + if bitOf v 16 then 0 else bitsOf old 17 1 * 2 ^ 17)
  else if bitOf old 16 then s
  else s.setGrantW i k (if k = 3 then v % 65536 else v)

/-- MLD_TWTDATAw written, R227, R228: words 1 to 4 while VALID is 0. -/
def State.twtWrite (s : State) (rq : Rq) (k v : Nat) : State :=
  let a := s.get F.MLD_TWTIDX_INDEX
  if k = 0 then
    let x := v % 2 ^ 18
    if bitOf v 31 then s.twtValid rq (x + 2 ^ 31) else (s.twtClear a).setTwtW a 0 x
  else if bitOf (s.twtW a 0) 31 then s
  else s.setTwtW a k v

/-! What a write starts -/

/-- Window TIME: R79, R80, R83, R95 to R97; o is the state before the write. In Free TIME_UNC reads all-ones (R96). -/
def State.hookTime (s o : State) (off v : Nat) : State :=
  match off with
  | 0x58 => s.askStep (sgn 32 v)
  | 0x5C => s.setSlew (sgn 32 v)
  | 0x64 => s.refChoose
  | 0x68 => s.srcWritten (o.get F.TIME_SYNCCFG_SRC)
  | 0x6C => { s with tm := { s.tm with elapsed := 0 } }
  | 0x70 => if s.get F.TIME_SYNCCFG_SRC = 1 then s.measure (sgn 32 v) else s
  | 0x7C => if s.get F.TIME_STATE_STATE = 0 then s.setUnc 0xFFFFFFFF else ({ s with tm := { s.tm with uncAcc := 0 } }).driftCheck
  | 0x84 => s.driftCheck
  | _ => s

/-- Windows PWR and FLT: R358, R363, R368, R373, R377. wake holds the wake sources that are active (R363). -/
def State.hookPwr (s o : State) (w off v wake : Nat) : State :=
  if w = W.PWR then
    match off with
    | 0x44 => if bitOf v 3 then s.goReq (s.get F.PWR_STATECMD_TARGET) wake else s
    | 0x48 => s.domAll
    | 0x4C => s.perfEval
    | _ => s
  else if w = W.FLT && off = 0x4C then
    let t := if bitOf v 1 then s.fltRestoreOp else s
    if bitOf v 0 && o.on (F.LOCK_OPEN w) then t.dieStop 4 0 else t
  else if w = W.FLT && off = 0x64 && bitOf v 31 then s.sets [(F.FLT_STOPINFO_CAUSE, 0), (F.FLT_STOPINFO_CLASS, 0)]
  else s

/-- REST of a path in Sleep is written, R107. -/
def State.restGo (s : State) (r p : Nat) : State :=
  if p < pathsOf r && s.pst r p = 1 && (s.path r p).nxt.isNone && s.rest r p ≠ 1 then s.pathGo r p (s.rest r p) else s

/-- Windows RFE: R107, R117 to R119. -/
def State.hookRfe (s : State) (r off v : Nat) : State :=
  if 0x40 ≤ off && off ≤ 0x48 then s.restGo r ((off - 0x40) / 4)
  else if r = 3 && off = 0xC0 then
    let t := if bitOf v 2 then s.cancClr else s
    if bitOf v 3 then t.cancSav else t
  else if r = 3 && off = 0xE0 && !s.coexOn then
    s.setCoex { hold := none, ending := false, reqIn := false, prio := false, ext := 0, reqOut := false }
  else s

/-- Windows MPHY, MLC, MNODE: R124, R137, R146, R149, R159, R176. -/
def State.hookMesh (s o : State) (rq : Rq) (w off v : Nat) : State :=
  if w = W.MPHY then
    (if off = 0x50 && bitOf v 0 then s.winCommit else if off = 0x90 && bitOf v 9 then s.eqArm rq else s)
  else if w = W.MLC then
    if 0x100 ≤ off && off < 0x500 then
      let t := (off - 0x100) / 128
      if off % 128 = 0 then s.tileEn t (o.on (F.MLC_TILE_CTL_EN t)) (s.on (F.MLC_TILE_CTL_EN t))
      else if off % 128 = 0x44 then s.setTile t { s.tile t with seedWr := true }
      else s
    else if 0x1000 ≤ off && off < 0x2000 && off % 32 = 0 && bitOf v 2 then s.sfArm ((off - 0x1000) / 512) ((off - 0x1000) % 512 / 32)
    else s
  else if w = W.MNODE && off = 0x70 && bitOf v 4 then s.mnGo rq
  else s

/-- Windows WPHY, WMAC, MLD: R205, R212, R216, R226. -/
def State.hookWlan (s : State) (rq : Rq) (w off v : Nat) : State :=
  if 0x18 ≤ w && w ≤ 0x1A then
    let r := w - 0x18
    if off = 0x44 && bitOf v 0 then s.chanCommit r
    else if off = 0x54 && bitOf v 14 then s.wEqArm rq r (s.get (F.WPHY_EQCFG_NG r) * 2 ^ 12)
    else s
  else if 0x1C ≤ w && w ≤ 0x1E then
    (if 0x50 ≤ off && off < 0x60 then s.setWl { s.wl with rng := kdel s.wl.rng (4 * (w - 0x1C) + (off - 0x50) / 4) } else s)
  else if w = W.MLD && off = 0x40 && bitOf v 4 then s.staGo rq
  else s

/-- Windows YARD and RTE: R236, R240, R248, R270. -/
def State.hookYard (s : State) (rq : Rq) (w off v : Nat) : State :=
  if w = W.YARD then
    match off with
    | 0x64 => if bitOf v 1 then s.pbArmOp else s
    | 0x68 => s.swCreate rq v
    | 0x74 => s.swCouple v
    | _ => s
  else if w = W.RTE && 0x100 ≤ off && off < 0x140 then
    let k := (off - 0x100) / 4
    let t := s.watchChg k
    if bitOf v 4 then t.watchBack k else t
  else s

/-- Windows LANE, EMAC, SHP, CPL: R278, R281, R290, R291, R298, R310. -/
def State.hookNet (s o : State) (rq : Rq) (w off v : Nat) : State :=
  if 0x30 ≤ w && w ≤ 0x37 then
    let n := w - 0x30
    if off ≠ 0x44 then s
    else
      let e := s.on (F.LANE_CTRL2_EIDLE n)
      let t := if o.on (F.LANE_CTRL2_EIDLE n) == e then s else s.laneIdle n e
      if bitOf v 1 then t.laneRetrain n else t
  else if 0x38 ≤ w && w ≤ 0x3F then
    let n := w - 0x38
    if off = 0x40 then (o.portSync n |>.tabWrite rq w off v).shpGo n
    else if off = 0x70 && bitOf v 24 then s.pauseAsk rq n
    else s
  else if 0x40 ≤ w && w ≤ 0x47 then
    let n := w - 0x40
    if 0x40 ≤ off && off < 0x80 then s.setShp n { s.shpOf n with dirty := true, wrote := some s.tm.mono }
    else if off = 0xC0 then
      let a := o.on (F.SHP_TLCTL_EN n)
      let b := s.on (F.SHP_TLCTL_EN n)
      let t := s.portSync n
      let t := if !a && b then t.tlOn n else if a && !b then (t.tlOff n).shpGo n else t
      if bitOf v 2 then t.tlSwap n else t
    else if !o.regTakes w off && (regAt w off).isSome then s.raise w E.SHP_TLBUSY
    else s
  else if w = W.CPL && off = 0x4C then
    let t := if bitOf v 0 then s.cplHand else s
    if bitOf v 1 then t.cplResyncOp else t
  else s

/-- Windows APC and MEM: R342, R348, R350. -/
def State.hookCore (s : State) (rq : Rq) (w off v : Nat) : State :=
  if w = W.APC then (if off = 0x48 then s.hartStart (v % 256) else s)
  else if off = 0x60 then s.memAllocOp rq (v % 2 ^ 14)
  else if off = 0x68 then s.memFreeOp (v % 2 ^ 20)
  else if 0x80 ≤ off && off < 0x90 then s.mirrorSet ((off - 0x80) / 4)
  else s

/-- What a write of v to the register at an offset starts, beyond what its fields store; o is the state before the write. -/
def State.hook (s o : State) (rq : Rq) (w off v wake : Nat) : State :=
  if w = W.TIME then s.hookTime o off v
  else if w = W.PWR || w = W.FLT then s.hookPwr o w off v wake
  else if 0x10 ≤ w && w ≤ 0x13 then s.hookRfe (w - 0x10) off v
  else if 0x14 ≤ w && w ≤ 0x16 then s.hookMesh o rq w off v
  else if 0x18 ≤ w && w ≤ 0x1F then s.hookWlan rq w off v
  else if w = W.YARD || w = W.RTE then s.hookYard rq w off v
  else if 0x30 ≤ w && w ≤ 0x48 then s.hookNet o rq w off v
  else if w = W.APC || w = W.MEM then s.hookCore rq w off v
  else s

/-- A write of v to a block register, from offset 0x40 up: DBG's own effects stand in Access.lean. -/
def State.blockWrite (s : State) (rq : Rq) (w off v wake : Nat) : State :=
  match multiOf w off with
  | some (l, _, true) => s.multiWrite rq w off v l
  | _ =>
    if 0x10 ≤ w && w ≤ 0x13 && 0x74 ≤ off && off ≤ 0x80 then s.calWrite rq (w - 0x10) ((off - 0x74) / 4) v
    else if w = W.MPHY && off = 0x74 then s.lcfgWrite rq v
    else if w = 0x1A && 0x64 ≤ off && off ≤ 0x70 then s.grantWrite ((off - 0x64) / 4) v
    else if w = W.MLD && 0x84 ≤ off && off ≤ 0x94 then s.twtWrite rq ((off - 0x84) / 4) v
    else if w = W.MLD && (off = 0x60 || off = 0x64) then s.tsfWrite ((off - 0x60) / 4) v
    else if w = W.MLD && off = 0x5C then s.tsfWrite 2 v
    else if w = W.TIME && off = 0x5C then s.hookTime s off v
    else (s.tabWrite rq w off v).hook s rq w off v wake

/-! The page header, R62 to R68 -/

/-- A write to LOCK, R65. -/
def State.lockWr (s : State) (w v : Nat) : State :=
  if v % 256 = 0xA5 then s.sets [(F.LOCK_OPEN w, 0), (F.LOCK_HALF w, 1)]
  else if v % 256 = 0x5A && s.on (F.LOCK_HALF w) then s.sets [(F.LOCK_OPEN w, 1), (F.LOCK_HALF w, 0)]
  else s.sets [(F.LOCK_OPEN w, 0), (F.LOCK_HALF w, 0)]

/-- The blocks with operations, R67. -/
def hasOps (w : Nat) : Bool :=
  w == W.NVS || (0x08 ≤ w && w ≤ 0x0B) || (0x10 ≤ w && w ≤ 0x13) || w == W.MLC || w == W.MNODE || (0x21 ≤ w && w ≤ 0x26)
    || w == W.RTE || w == W.SEC

/-- Whether EV_RAW bit b of window w is an event of the block. -/
def evHere (w b : Nat) : Bool :=
  (b == 31 && hasOps w) || ((winRows w).any fun r => r.off == 0x10 && r.flds.any fun f => f.lo == b && fldHere w 0x10 b)

/-- EV_RAW written: a 1 clears its bit. -/
def State.evClear (s : State) (w v : Nat) : State :=
  (List.range 32).foldl (fun t b => if bitOf v b then t.set (F.EV_RAW w b) 0 else t) s

/-- EV_FORCE written: a 1 sets its bit as if the event had occurred. -/
def State.evSet (s : State) (w v : Nat) : State :=
  (List.range 32).foldl (fun t b => t.raiseIf (bitOf v b && evHere w b) w b) s

/-- CTRL.ENABLE has changed. -/
def State.enableHook (s : State) (w : Nat) (en : Bool) : State :=
  if 0x10 ≤ w && w ≤ 0x13 then (if en then s.rfeWake (w - 0x10) else s.rfeCtrl (w - 0x10) false)
  else if 0x1C ≤ w && w ≤ 0x1E then
    (if en then s.setWl { s.wl with rng := s.wl.rng.filter fun e => e.1 / 4 != w - 0x1C } else s)
  else if w = W.YARD then (if en then { s with yard := { s.yard with histAt := s.ns, bins := [] } } else s)
  else if 0x30 ≤ w && w ≤ 0x37 then (if en then s.laneOn (w - 0x30) else s.laneOff (w - 0x30))
  else if w = W.CPL then s.cplEnable en
  else if 0x38 ≤ w && w ≤ 0x47 then (if en then (s.portSync (w % 8)).shpGo (w % 8) else s)
  else s

/-- CTRL written: ENABLE, DOMREQ, and SRESET after them. AON, TIME and MEM ignore DOMREQ, R358. -/
def State.ctrlWr (s : State) (rq : Rq) (w v : Nat) : State :=
  let req := bitsOf v 2 2
  let d := winDom w
  let en := bitOf v 0
  let t := s.set (F.CTRL_ENABLE w) (b2n en)
  let t := if s.on (F.CTRL_ENABLE w) == en then t else t.enableHook w en
  let t := if req = 3 then t.errRec rq w 8 5
    else if d = 0 || d = 1 || d = 16 then t
    else
      let u := t.set (F.CTRL_DOMREQ w) req
      if d = 14 || 20 ≤ d then u.domAll else u.domEval d
  if bitOf v 1 then t.sresetOp rq w else t

/-- START of window w's operation. -/
def State.opGo (s : State) (rq : Rq) (w : Nat) : State :=
  if w = W.NVS then s.nvsStart rq
  else if 0x08 ≤ w && w ≤ 0x0B then s.chkStart rq (w - 0x08)
  else if 0x10 ≤ w && w ≤ 0x13 then s.rfeOp rq (w - 0x10)
  else if w = W.MLC then s.boardStart rq
  else if w = W.MNODE then s.rebStart rq (s.get F.MNODE_REBCFG_MODE)
  else if 0x21 ≤ w && w ≤ 0x26 then s.startLoad rq (w - 0x21)
  else if w = W.RTE then s.commitStart rq
  else if w = W.SEC then s.enrStart rq
  else s

/-- One unit of a coach's load; the last one ends it. -/
def State.loadStep (s : State) (c : Nat) : State :=
  let t := s.loadUnit c
  if t.opSt (W.ENG c) = 2 && t.get (F.ENG_LOADLEN_KIB c) ≤ t.get (F.OPSTAT_PROGRESS (W.ENG c)) then t.opDone (W.ENG c) else t

/-- The next unit of window w's operation. -/
def State.opUnit (s : State) (w : Nat) : State :=
  if w = W.NVS then s.nvsUnit
  else if 0x08 ≤ w && w ≤ 0x0B then s.chkUnit (w - 0x08)
  else if w = W.MLC then s.boardUnit
  else if w = W.MNODE then s.rebUnit
  else if 0x21 ≤ w && w ≤ 0x26 then s.loadStep (w - 0x21)
  else if w = W.RTE then s.stageUnit
  else if w = W.SEC then s.enrUnit
  else s

/-- No operation has more units than this. -/
def State.opTotal (s : State) (w : Nat) : Nat :=
  if w = W.NVS then s.nvsUnits
  else if 0x08 ≤ w && w ≤ 0x0B then s.chkUnits (w - 0x08)
  else if w = W.MLC then s.get F.MLC_LOADCOUNT_COUNT
  else if w = W.MNODE then 262144
  else if 0x21 ≤ w && w ≤ 0x26 then s.get (F.ENG_LOADLEN_KIB (w - 0x21))
  else if w = W.RTE then s.get F.RTE_CHGCOUNT_COUNT
  else if w = W.SEC then max 1 s.enrUnits
  else 0

/-- The operation of window w runs until its PROGRESS is n or it ends; at most k units. -/
def State.opRun (s : State) (w n : Nat) : Nat → State
  | 0 => s
  | k + 1 => if s.opSt w = 2 && s.get (F.OPSTAT_PROGRESS w) < n then (s.opUnit w).opRun w n k else s

/-- The operation of window w has reached n units. -/
def State.opAdvance (s : State) (w n : Nat) : State := s.opRun w n (min n (s.opTotal w))

/-- A calibration whose outcome the spec leaves to the hardware, as free values (log entry 5). -/
def State.freeCal (s : State) : CalMeas × State :=
  let a := s.fresh
  let b := a.2.fresh
  let c := b.2.fresh
  let d := c.2.fresh
  let e := d.2.fresh
  ({ result := a.1 % 2, gain := b.1, presel := c.1, txpwr := d.1, dpdset := e.1 }, e.2)

/-- The front end's part in an ABORT, R112: the entry being calibrated completes, a foreground calibration leaves Cal. -/
def State.rfeAbort (s : State) (r : Nat) : State :=
  let w := W.RFE r
  let k := s.get (F.OPSTAT_PROGRESS w)
  match s.get (F.RFE_OPSEL_OP r) with
  | 0 =>
    if k < s.opCount r then
      let m := s.freeCal
      let i := s.get (F.RFE_OPSEL_FIRST r) + k
      (m.2.calStore r i m.1).opUnits w (k + 1) i
    else s
  | 2 => s.fgLeave r (s.get (F.RFE_OPSEL_PATH r)) false
  | _ => s

/-- ABORT of window w's operation, R67. -/
def State.opAbort (s : State) (w : Nat) : State :=
  if !hasOps w || !s.busy w then s
  else
    let t := if 0x10 ≤ w && w ≤ 0x13 && s.opSt w = 2 then s.rfeAbort (w - 0x10) else s
    let t := if w = W.RTE then t.setRte { t.rte with stage := [] } else t
    t.opFinish w 5 1

/-- A write of v to a register of the page header. -/
def State.hdrWrite (s : State) (rq : Rq) (w off v : Nat) : State :=
  match off with
  | 0x08 => s.ctrlWr rq w v
  | 0x10 => s.evClear w v
  | 0x14 => let t := s.set (F.EV_MASK w) v; t.plicSample w (t.evOut w != 0)
  | 0x18 => s.evSet w v
  | 0x20 => if bitOf v 1 then s.opAbort w else if bitOf v 0 then s.opGo rq w else s
  | 0x2C =>
    if bitOf v 31 then s.sets [(F.ERRINFO_CAUSE w, 0), (F.ERRINFO_RQCLASS w, 0), (F.ERRINFO_RQNUM w, 0), (F.ERRINFO_OFFSET w, 0),
      (F.ERRINFO_VALID w, 0)]
    else s
  | 0x30 => s.lockWr w v
  | _ => s.tabWrite rq w off v

/-- A write of v to a live register but for DBG's own effects. -/
def State.wordWrite (s : State) (rq : Rq) (w off v wake : Nat) : State :=
  if off < 0x40 then s.hdrWrite rq w off v else s.blockWrite rq w off v wake

end Sys2Proof.Machine
end

