-- ==== Sys2Proof/Machine/Access.lean ====
section
/-!
DEFINITION. Accesses of every requester: live registers (R57, R58), dark pages and unassigned addresses (R70, R71), memory (R402), the
cores' private range (R343); the debug window's own effects and the memory access port (R396, R399 to R401); and the rows that are
such accesses.
-/

namespace Sys2Proof.Machine

/-! Tokens, R337, R400 -/

/-- A token fails: FAIL, and AUTHFAIL counted and raised; DBG has no counter event. -/
def State.tokenFail (s : State) : State :=
  let n := s.get F.DBG_CNT0_AUTHFAIL
  let t := (s.set F.DBG_AUTH_FAIL 1).raise W.DBG E.DBG_AUTHFAIL
  if n + 1 < 2 ^ 31 - 1 then t.set F.DBG_CNT0_AUTHFAIL (n + 1)
  else if n = 2 ^ 31 - 1 then t
  else t.sets [(F.DBG_CNT0_AUTHFAIL, n + 1), (F.DBG_CNT0_OVF, 1)]

/-- A word of a token is written; one beyond the 56th fails it. -/
def State.tokenWord (s : State) (v : Nat) : State :=
  if s.dbg.token.length < 56 then { s with dbg := { s.dbg with token := s.dbg.token ++ [v] } }
  else { s with dbg := { s.dbg with token := [] } }.tokenFail

/-- VERIFY: the token is taken for its check, and a new challenge is drawn. -/
def State.tokenCheck (s : State) : State :=
  let c : TokenChk := { words := s.dbg.token, bad := s.dbg.token.length != 56,
                        chal := s.get F.DBG_CHALLENGELO_CHAL + s.get F.DBG_CHALLENGEHI_CHAL * 2 ^ 32 }
  let a := s.fresh
  let b := a.2.fresh
  ({ b.2 with dbg := { s.dbg with token := [], checks := s.dbg.checks ++ [c] } }).sets
    [(F.DBG_CHALLENGELO_CHAL, a.1), (F.DBG_CHALLENGEHI_CHAL, b.1), (F.DBG_AUTH_BUSY, 1)]

/-- Whether a token passes, R400: its fields, its key's digest and its seal. -/
def State.tokenOk (s : State) (c : TokenChk) : Bool :=
  let l := c.words.flatMap fun w => toLE 4 w
  let at' := fun (k n : Nat) => (l.drop k).take n
  let lev := ofLE (at' 16 1)
  !c.bad && s.nvs.rootSet && ofLE (at' 0 8) == Config.dieId && ofLE (at' 8 8) == c.chal && (lev == 1 || lev == 2)
    && ofLE (at' 17 15) == 0 && Config.sha384 (at' 32 96) == Config.rootKey (s.body s.rootCur) 3
    && Config.ecdsa (at' 32 96) (at' 128 96) (Config.sha384 (at' 0 128))

/-- TOKEN_CHECK_DONE, R400: the oldest check ends. -/
def State.tokenDone (s : State) : State :=
  match s.dbg.checks with
  | [] => s
  | c :: l =>
    let t : State := ({ s with dbg := { s.dbg with checks := l } }).set F.DBG_AUTH_BUSY (b2n !l.isEmpty)
    if s.tokenOk c then
      let lev := (c.words.getD 4 0) % 256
      ((t.set F.DBG_AUTH_FAIL 0).set F.DBG_AUTH_LEVEL lev).raiseIf (s.get F.DBG_AUTH_LEVEL != lev) W.DBG E.DBG_LEVELCHG
    else t.tokenFail

def execTokenCheckDone (s : State) : Host.Outcome State Fault Refusal := .next (if s.live then s.tokenDone else s)

/-! The debug window, R396, R401 -/

/-- YIELD of the engine that DBG_ENGCTL names, R396: its wagon fails without REDO. -/
def State.yieldOp (s : State) : State :=
  let e := s.get F.DBG_ENGCTL_ENGINE
  if (s.eng e).halted && (s.eng e).wag.isSome then (s.engFail e false).coachCheck (e / 8) else s

/-- A write to a DBG register but for the start of a memory access. -/
def State.dbgWrite (s : State) (rq : Rq) (off v : Nat) : State :=
  let t := s.tabWrite rq W.DBG off v
  match off with
  | 0x40 => if bitOf v 2 then t.tokenCheck else t
  | 0x4C => t.tokenWord v
  | 0x64 => if bitOf v 6 then t.yieldOp else t
  | _ => t

/-- A write to a live register that starts no memory access of the debug port. -/
def State.coreWrite (s : State) (rq : Rq) (w off v wake : Nat) : State :=
  if w = W.DBG && 0x40 ≤ off then s.dbgWrite rq off v else s.wordWrite rq w off v wake

/-! Accesses, R57, R70, R71, R402 -/

/-- The debug port as a requester, R72. -/
def dbgRq : Rq := { cls := 2, num := 0 }

/-- Whether the debug port may make an access at its level, R337; the sealed key store stays out of reach at every level. -/
def State.dbgMay (s : State) (a : Nat) (wr : Bool) : Bool :=
  let key := decide (0x20020000 ≤ a ∧ a < 0x20060000)
  decide (a / 65536 = 0x400F) || (!key && (s.dbgLevel == 2 || (s.dbgLevel == 1 && !wr)))

/-- The windows of the register range. -/
def regWin (a : Nat) : Nat := (a - 0x40000000) / 65536

/-- Whether a requester finds nothing live at an address: 0 a dark page, 1 an unassigned address, R54, R70, R343. -/
def State.darkAt (s : State) (rq : Rq) (a : Nat) (wr : Bool) : Option Nat :=
  if inRegs a then
    if !winOk (regWin a) then some 1
    else if 0x40 ≤ a % 65536 && !s.winOn (regWin a) then some 0
    else none
  else if inSram a || inDram a then (if s.domSt 16 ≠ 2 then some 0 else none)
  else if inNvs a || inRom a then (if wr then some 1 else none)
  else if inPriv a && rq.cls = 0 then (if s.apcOn then none else some 0)
  else some 1

/-- What an engine makes of the answer of its access: a bus error ends its wagon, R71, R247. -/
def State.engAns (s : State) (rq : Rq) : State :=
  if rq.cls = 1 && s.bus.err then { s.engTrap rq.num with bus := s.bus } else s

/-- A misaligned access to memory is never performed; an engine ends its wagon, R402. -/
def State.misMem (s : State) (rq : Rq) : State := if rq.cls = 1 then (s.answer 0).engTrap rq.num else s.answer 0

/-- Writes that SRAM discards: the board but from MLC, the map but from MNODE, the shadow but from both, R147, R169. -/
def State.sramBars (s : State) (rq : Rq) (a n : Nat) : Option State :=
  let mlc := rq.cls == 3 && rq.num == W.MLC
  let mn := rq.cls == 3 && rq.num == W.MNODE
  if !inSram a then none
  else if (inBoard a || inBoard (a + n - 1)) && !mlc then some (s.raise W.MLC E.MLC_BOARDWR)
  else if inMap a && !mn && !(mlc && 0x13700000 ≤ a) then some (s.raise W.MNODE E.MNODE_MAPWR)
  else none

/-- An access to memory of n octets, R402, with what has happened to the word it meets. -/
def State.memAcc (s : State) (rq : Rq) (a n : Nat) (wr : Bool) (v : Nat) (u : Upset) : State :=
  if a % n ≠ 0 then s.misMem rq
  else if inNvs a || inRom a then s.answer (ofLE ((List.range n).map fun i => s.peekRd (a + i)))
  else if wr then
    match s.sramBars rq a n with
    | some t => t.answer 0
    | none => (s.upset a u).memWr rq a n v
  else (s.upset a u).memRd rq a n

/-- An access to live registers, R57; f performs one write of a word. -/
def State.regAcc (s : State) (f : State → Rq → Nat → Nat → Nat → State) (rq : Rq) (a n : Nat) (wr : Bool) (v : Nat) : State :=
  let w := regWin a
  let off := a % 65536
  if a % n ≠ 0 then
    let t := (s.errRec rq w off 2).answer 0
    if rq.cls = 1 then t.engTrap rq.num else t
  else if n = 8 then
    if wr then ((f (f s rq w off (v % 2 ^ 32)) rq w (off + 4) (v / 2 ^ 32 % 2 ^ 32))).answer 0
    else
      let t := s.regRead rq w off 0 32
      let u := t.regRead rq w (off + 4) 0 32
      u.answer (t.bus.data + u.bus.data * 2 ^ 32)
  else if n = 4 then (if wr then (f s rq w off (v % 2 ^ 32)).answer 0 else s.regRead rq w off 0 32)
  else if wr then (s.errRec rq w off 2).answer 0
  else s.regRead rq w (off / 4 * 4) (8 * (off % 4)) (8 * n)

/-- An access of n octets by a requester, before what an engine makes of its answer. -/
def State.accRaw (s : State) (f : State → Rq → Nat → Nat → Nat → State) (rq : Rq) (a n : Nat) (wr : Bool) (v : Nat) (u : Upset) :
    State :=
  match s.darkAt rq a wr with
  | some k => (s.darkRec rq a k).answerErr rq true
  | none =>
    if inRegs a then s.regAcc f rq a n wr v
    else if inPriv a then s.privAcc rq a n wr v
    else s.memAcc rq a n wr v u

/-- An access of n octets by a requester: none while the die does not run, none of the debug port above its level. -/
def State.accessBy (s : State) (f : State → Rq → Nat → Nat → Nat → State) (rq : Rq) (a n : Nat) (wr : Bool) (v : Nat) (u : Upset) :
    State :=
  if !s.live || n = 0 then s
  else if rq.cls = 2 && !s.dbgMay a wr then s.answer 0
  else (s.accRaw f rq a n wr v u).engAns rq

/-! The memory access port, R399 -/

/-- DBG_MAPCTL is written: with READ or WRITE, the port makes its access, reports it, and with INC moves on. -/
def State.mapGo (s : State) (rq : Rq) (v : Nat) : State :=
  let t := s.tabWrite rq W.DBG 0x5C v
  if !bitOf v 0 && !bitOf v 1 then t
  else
    let wr := !bitOf v 0
    let at' := t.get F.DBG_MAPADDRLO_ADDR + t.get F.DBG_MAPADDRHI_ADDR * 2 ^ 32
    let a := at' / 4 * 4
    let ok := t.dbgMay a wr
    let u := if ok then t.accessBy (fun s rq w off v => s.coreWrite rq w off v 0) dbgRq a 4 wr (t.get F.DBG_MAPDATA_DATA) .none
      else t.answer 0
    let b := u.bus
    let bad := b.dark || b.ue || b.err
    let u := if wr then u else u.set F.DBG_MAPDATA_DATA (if bad then 0 else b.data)
    let u := u.sets [(F.DBG_MAPSTAT_DONE, 1), (F.DBG_MAPSTAT_DARK, b2n (b.dark || (b.err && !b.ue))), (F.DBG_MAPSTAT_UE, b2n b.ue),
      (F.DBG_MAPSTAT_BUSERR, b2n b.err), (F.DBG_MAPSTAT_DENIED, b2n !ok)]
    if u.on F.DBG_MAPCTL_INC then
      u.sets [(F.DBG_MAPADDRLO_ADDR, (at' + 4) % 2 ^ 32), (F.DBG_MAPADDRHI_ADDR, (at' + 4) / 2 ^ 32)]
    else u

/-- A write to any live register. -/
def State.regWrite (s : State) (rq : Rq) (w off v : Nat) : State :=
  if w = W.DBG && off = 0x5C then s.mapGo rq v else s.coreWrite rq w off v 0

/-- An access of any requester. -/
def State.access (s : State) (rq : Rq) (a n : Nat) (wr : Bool) (v : Nat) (u : Upset) : State := s.accessBy State.regWrite rq a n wr v u

/-- The address of an offset of a window. -/
def regAddr (w off : Nat) : Nat := 0x40000000 + w % 4096 * 65536 + off

/-- A write of a word to a register by its window and offset. -/
def State.put (s : State) (rq : Rq) (w off : Nat) (v : Word) : State := s.access rq (regAddr w off) 4 true v.toNat .none

/-! Rows of the register model, R57 to R75 -/

/-- REG_WRITE. -/
def execRegWrite (rq : Rq) (addr : Nat) (v : Word) (s : State) : Host.Outcome State Fault Refusal :=
  .next (s.access rq addr 4 true v.toNat .none)

/-- RC_READ, R59: a read of a register; its RC fields become 0. -/
def execRcRead (rq : Rq) (addr : Nat) (s : State) : Host.Outcome State Fault Refusal := .next (s.access rq addr 4 false 0 .none)

/-- OPSTAT_READ, R67: units have completed when OPSTAT is read. -/
def execOpstatRead (rq : Rq) (win units : Nat) (s : State) : Host.Outcome State Fault Refusal :=
  .next ((s.opAdvance win units).access rq (regAddr win 0x24) 4 false 0 .none)

/-- MULTIWORD_LOW_READ, R75. -/
def execMultiwordLowRead (rq : Rq) (addr : Nat) (s : State) : Host.Outcome State Fault Refusal :=
  .next (s.access rq (addr / 4 * 4) 4 false 0 .none)

/-- MULTIWORD_HIGH_WRITE, R75. -/
def execMultiwordHighWrite (rq : Rq) (addr : Nat) (v : Word) (s : State) : Host.Outcome State Fault Refusal :=
  .next (s.access rq (addr / 4 * 4) 4 true v.toNat .none)

/-- SUBWORD_ACCESS, R57: an 8-bit or 16-bit access, or a misaligned one, to a register window. -/
def execSubwordAccess (rq : Rq) (addr bytes : Nat) (write : Bool) (s : State) : Host.Outcome State Fault Refusal :=
  .next (if inRegs addr && (bytes == 1 || bytes == 2 || addr % max 1 bytes != 0) then s.access rq addr bytes write 0 .none else s)

/-- DARK_ACCESS, R70, R71: an access that finds nothing live. -/
def execDarkAccess (rq : Rq) (addr : Nat) (write : Bool) (s : State) : Host.Outcome State Fault Refusal :=
  .next (if (s.darkAt rq addr write).isSome then s.access rq addr 4 write 0 .none else s)

/-- LOCK_WRITE, R65. -/
def execLockWrite (rq : Rq) (win : Nat) (v : Word) (s : State) : Host.Outcome State Fault Refusal := .next (s.put rq win 0x30 v)

/-- EV_FORCE, R62. -/
def execEvForce (rq : Rq) (win : Nat) (v : Word) (s : State) : Host.Outcome State Fault Refusal := .next (s.put rq win 0x18 v)

/-- CTRL_ENABLE_WRITE, R62. -/
def execCtrlEnableWrite (rq : Rq) (win : Nat) (v : Word) (s : State) : Host.Outcome State Fault Refusal := .next (s.put rq win 8 v)

/-- DOMREQ_WRITE, R358. -/
def execDomreqWrite (rq : Rq) (win : Nat) (v : Word) (s : State) : Host.Outcome State Fault Refusal := .next (s.put rq win 8 v)

/-- OP_ABORT, R67: work stops at the next unit; units have completed by then. -/
def execOpAbort (rq : Rq) (win units : Nat) (s : State) : Host.Outcome State Fault Refusal :=
  .next ((s.opAdvance win units).put rq win 0x20 2#32)

/-- OP_RESOURCE_FREE, R67: a Queued operation runs once its resource is free; RTE's is the old set (R260). -/
def execOpResourceFree (win : Nat) (s : State) : Host.Outcome State Fault Refusal :=
  .next (if s.opSt win = 1 && s.winOn win && !(win == W.RTE && s.rte.old.isSome) then s.set (F.OPSTAT_STATE win) 2 else s)

/-- The operation of window w runs to its end. RTE's ends at COMMITAT and a survey's with its last dwell, as their own rows say; a
sweep's outcomes are free values. -/
def State.sweepRest (s : State) (r : Nat) : Nat → State
  | 0 => s
  | n + 1 => if s.opSt (W.RFE r) = 2 then let m := s.freeCal; (m.2.sweepStep r m.1).sweepRest r n else s
def State.opLast (s : State) (w : Nat) : State :=
  if 0x10 ≤ w && w ≤ 0x13 then
    match s.get (F.RFE_OPSEL_OP (w - 0x10)) with
    | 0 => s.sweepRest (w - 0x10) 256
    | 2 => s.fgEnd (w - 0x10)
    | _ => s
  else if w = W.RTE then (s.opAdvance w (s.opTotal w)).commitApply 4096
  else s.opAdvance w (s.opTotal w)

/-- OP_END, R66, R67: a Running operation completes its last unit (err 0) or meets an error of cause 4 to 15. -/
def execOpEnd (win : Nat) (err : Nat) (s : State) : Host.Outcome State Fault Refusal :=
  .next (if s.opSt win ≠ 2 || !s.winOn win then s
    else if err = 0 then s.opLast win
    else if 4 ≤ err && err ≤ 15 then s.opFail win err
    else s)

/-! Memory rows -/

/-- MEM_ACCESS, R347, R402; the debug port performs only aligned 32-bit accesses (R399). -/
def execMemAccess (rq : Rq) (addr bytes : Nat) (write : Bool) (v : Nat) (upset : Upset) (s : State) : Host.Outcome State Fault Refusal :=
  .next (if (bytes == 1 || bytes == 2 || bytes == 4 || bytes == 8) && !(rq.cls == 2 && (bytes != 4 || addr % 4 != 0)) then
    s.access rq addr bytes write v upset else s)

/-- MEM_ALLOC, R350. -/
def execMemAlloc (rq : Rq) (v : Word) (s : State) : Host.Outcome State Fault Refusal := .next (s.put rq W.MEM 0x60 v)
/-- MEM_FREE, R350. -/
def execMemFree (rq : Rq) (v : Word) (s : State) : Host.Outcome State Fault Refusal := .next (s.put rq W.MEM 0x68 v)
/-- HART_RELEASE, R342. -/
def execHartRelease (rq : Rq) (v : Word) (s : State) : Host.Outcome State Fault Refusal := .next (s.put rq W.APC 0x48 v)

/-! Rows that are the write of one register -/

/-- TIME_SLEW_WRITE, R79. -/
def execTimeSlewWrite (rq : Rq) (v : Word) (s : State) : Host.Outcome State Fault Refusal := .next (s.put rq W.TIME 0x5C v)
/-- TIME_STEP_WRITE, R80. -/
def execTimeStepWrite (rq : Rq) (v : Word) (s : State) : Host.Outcome State Fault Refusal := .next (s.put rq W.TIME 0x58 v)
/-- TIME_MEAS_WRITE, R93 to R97. -/
def execTimeMeasWrite (rq : Rq) (v : Word) (s : State) : Host.Outcome State Fault Refusal := .next (s.put rq W.TIME 0x70 v)
/-- SYNC_SRC_WRITE, R97. -/
def execSyncSrcWrite (rq : Rq) (v : Word) (s : State) : Host.Outcome State Fault Refusal := .next (s.put rq W.TIME 0x68 v)
/-- CANC_CLEAR, R117. -/
def execCancClear (rq : Rq) (v : Word) (s : State) : Host.Outcome State Fault Refusal := .next (s.put rq (W.RFE 3) 0xC0 v)
/-- CANC_SAVE, R118. -/
def execCancSave (rq : Rq) (v : Word) (s : State) : Host.Outcome State Fault Refusal := .next (s.put rq (W.RFE 3) 0xC0 v)
/-- WINDOW_COMMIT, R124. -/
def execWindowCommit (rq : Rq) (v : Word) (s : State) : Host.Outcome State Fault Refusal := .next (s.put rq W.MPHY 0x50 v)
/-- EQ_ARM, R137. -/
def execEqArm (rq : Rq) (v : Word) (s : State) : Host.Outcome State Fault Refusal := .next (s.put rq W.MPHY 0x90 v)
/-- TILE_ENABLE, R146. -/
def execTileEnable (rq : Rq) (t : Nat) (v : Word) (s : State) : Host.Outcome State Fault Refusal :=
  .next (s.put rq W.MLC (0x100 + 128 * (t % 8)) v)
/-- TILE_DISABLE, R146. -/
def execTileDisable (rq : Rq) (t : Nat) (v : Word) (s : State) : Host.Outcome State Fault Refusal :=
  .next (s.put rq W.MLC (0x100 + 128 * (t % 8)) v)
/-- SF_SWITCH, R149. -/
def execSfSwitch (rq : Rq) (t sf : Nat) (v : Word) (s : State) : Host.Outcome State Fault Refusal :=
  .next (s.put rq W.MLC (0x1000 + 512 * (t % 8) + 32 * (sf % 16)) v)
/-- WLAN_EQ_ARM, R205. -/
def execWlanEqArm (rq : Rq) (r : Nat) (v : Word) (s : State) : Host.Outcome State Fault Refusal := .next (s.put rq (W.WPHY (r % 3)) 0x54 v)
/-- CHANNEL_COMMIT, R212. -/
def execChannelCommit (rq : Rq) (r : Nat) (v : Word) (s : State) : Host.Outcome State Fault Refusal :=
  .next (s.put rq (W.WPHY (r % 3)) 0x44 v)
/-- TSF_EPOCH_WRITE, R218: 0 MLD_TSFEPOCHLO, 1 MLD_TSFEPOCHHI, 2 MLD_TSFEPOCHSECHI. -/
def execTsfEpochWrite (rq : Rq) (reg : Nat) (v : Word) (s : State) : Host.Outcome State Fault Refusal :=
  .next (s.put rq W.MLD (match reg with | 0 => 0x60 | 1 => 0x64 | _ => 0x5C) v)
/-- TWT_VALID_WRITE, R227. -/
def execTwtValidWrite (rq : Rq) (v : Word) (s : State) : Host.Outcome State Fault Refusal := .next (s.put rq W.MLD 0x84 v)
/-- SW_CREATE, R240. -/
def execSwCreate (rq : Rq) (v : Word) (s : State) : Host.Outcome State Fault Refusal := .next (s.put rq W.YARD 0x68 v)
/-- SW_COUPLING, R236. -/
def execSwCoupling (rq : Rq) (v : Word) (s : State) : Host.Outcome State Fault Refusal := .next (s.put rq W.YARD 0x74 v)
/-- PB_ARM, R248. -/
def execPbArm (rq : Rq) (v : Word) (s : State) : Host.Outcome State Fault Refusal := .next (s.put rq W.YARD 0x64 v)
/-- WATCH_RESTORE, R270. -/
def execWatchRestore (rq : Rq) (w : Nat) (v : Word) (s : State) : Host.Outcome State Fault Refusal :=
  .next (s.put rq W.RTE (0x100 + 4 * (w % 16)) v)
/-- TL_ENABLE, R281. -/
def execTlEnable (rq : Rq) (n : Nat) (v : Word) (s : State) : Host.Outcome State Fault Refusal := .next (s.put rq (W.SHP (n % 8)) 0xC0 v)
/-- TL_DISABLE, R281. -/
def execTlDisable (rq : Rq) (n : Nat) (v : Word) (s : State) : Host.Outcome State Fault Refusal := .next (s.put rq (W.SHP (n % 8)) 0xC0 v)
/-- TL_SWITCH, R281. -/
def execTlSwitch (rq : Rq) (n : Nat) (v : Word) (s : State) : Host.Outcome State Fault Refusal := .next (s.put rq (W.SHP (n % 8)) 0xC0 v)
/-- LANE_RETRAIN, R290. -/
def execLaneRetrain (rq : Rq) (n : Nat) (v : Word) (s : State) : Host.Outcome State Fault Refusal :=
  .next (s.put rq (W.LANE (n % 8)) 0x44 v)
/-- EIDLE_WRITE, R291. -/
def execEidleWrite (rq : Rq) (n : Nat) (v : Word) (s : State) : Host.Outcome State Fault Refusal := .next (s.put rq (W.LANE (n % 8)) 0x44 v)
/-- TXPAUSE_SEND, R298. -/
def execTxpauseSend (rq : Rq) (n : Nat) (v : Word) (s : State) : Host.Outcome State Fault Refusal :=
  .next (s.put rq (W.EMAC (n % 8)) 0x70 v)
/-- CPL_HANDOVER, R310. -/
def execCplHandover (rq : Rq) (v : Word) (s : State) : Host.Outcome State Fault Refusal := .next (s.put rq W.CPL 0x4C v)
/-- CPL_RESYNC, R310. -/
def execCplResync (rq : Rq) (v : Word) (s : State) : Host.Outcome State Fault Refusal := .next (s.put rq W.CPL 0x4C v)
/-- PERF_REQUEST, R368. -/
def execPerfRequest (rq : Rq) (v : Word) (s : State) : Host.Outcome State Fault Refusal := .next (s.put rq W.PWR 0x4C v)
/-- FLT_RESTORE, R373. -/
def execFltRestore (rq : Rq) (v : Word) (s : State) : Host.Outcome State Fault Refusal := .next (s.put rq W.FLT 0x4C v)
/-- FLT_STOP, R376, R377. -/
def execFltStop (rq : Rq) (v : Word) (s : State) : Host.Outcome State Fault Refusal := .next (s.put rq W.FLT 0x4C v)
/-- TOKEN_WORD_WRITE, R400. -/
def execTokenWordWrite (rq : Rq) (v : Word) (s : State) : Host.Outcome State Fault Refusal := .next (s.put rq W.DBG 0x4C v)
/-- TOKEN_VERIFY, R400. -/
def execTokenVerify (rq : Rq) (v : Word) (s : State) : Host.Outcome State Fault Refusal := .next (s.put rq W.DBG 0x40 v)
/-- ENGINE_YIELD, R396. -/
def execEngineYield (rq : Rq) (v : Word) (s : State) : Host.Outcome State Fault Refusal := .next (s.put rq W.DBG 0x64 v)
/-- MAP_READ, R399. -/
def execMapRead (rq : Rq) (v : Word) (s : State) : Host.Outcome State Fault Refusal := .next (s.put rq W.DBG 0x5C v)
/-- MAP_WRITE, R399. -/
def execMapWrite (rq : Rq) (v : Word) (s : State) : Host.Outcome State Fault Refusal := .next (s.put rq W.DBG 0x5C v)

/-- STATE_REQUEST, R363: the write of PWR_STATECMD with the wake sources that are active, in the layout of PWR_WAKEMASK. -/
def execStateRequest (rq : Rq) (v : Word) (wake : Nat) (s : State) : Host.Outcome State Fault Refusal :=
  .next (s.accessBy (fun s rq w off v => s.coreWrite rq w off v wake) rq (regAddr W.PWR 0x44) 4 true v.toNat .none)

end Sys2Proof.Machine
end

