-- ==== Sys2Proof/Machine/Boot.lean ====
section
/-!
DEFINITION. The work of the boot ROM and its hand-over: R325, R342, R385, R387, R392.
-/

namespace Sys2Proof.Machine

/-- Application core 0 as a requester. -/
def hart0Rq : Rq := { cls := 0, num := 0 }

/-- A field takes its settings store value. -/
def State.nvField (s : State) (f : Fld) (v : Nat) : State :=
  { s with nv := kset s.nv f.key (v % 2 ^ min f.len 32), regs := kdel s.regs f.key }

/-- A word of the register set gives the NV fields of the register at an offset their settings store values, R60. -/
def State.nvWord (s : State) (w off v : Nat) : State :=
  match regAt w off with
  | none => s
  | some (r, j) => (r.flds.filter fun f => f.rst == Rst.nv && fldHere w off f.lo).foldl (fun t f =>
      t.nvField (fldOf w off j f) (v / 2 ^ f.lo)) s

/-- One pair of the register set, R325: an NV value, and a write of hart 0. -/
def State.regPair (s : State) (e : Nat × Nat) : State :=
  let t := if inRegs e.1 && e.1 % 4 == 0 then s.nvWord (regWin e.1) (e.1 % 65536) (e.2 % 2 ^ 32) else s
  t.access hart0Rq e.1 4 true (e.2 % 2 ^ 32) .none

/-- A program bank is loaded. -/
def State.bankLoad (s : State) (k : Nat) (l : List Byte) : State :=
  { s with yard := { s.yard with prog := memPuts s.yard.prog (k * 32768) (l.take 32768) } }

/-- The default register set of a slot is applied: its pairs, then the engine program banks. -/
def State.setApply (s : State) (slot : Nat) : State :=
  let b := s.body (slotBase (2 + slot))
  let t := (Config.regSet b).foldl State.regPair s
  (List.range 12).foldl (fun t k => t.bankLoad k (Config.regProg b k)) t

/-- A regulatory image is in force, or none. -/
def State.imgApply (s : State) (slot : Option Nat) : State :=
  match slot with
  | none => { s with lim := { s.lim with img := none, slot := 0, ver := 0 } }
  | some k =>
    let o := slotBase k
    { s with lim := { s.lim with img := some (Config.image (s.body o)), slot := k, ver := s.hdr o 4 4 } }

/-- The slots that the boot ROM uses show in NVS_BOOT. -/
def State.bootNote (s : State) (n : Nat) (slot : Option Nat) : State :=
  match slot with
  | none => s
  | some k => { s with nvs := { s.nvs with boot := lset s.nvs.boot n k } }

/-- Hart 0 leaves the boot ROM at the controller software, R342, and the device state becomes that of the hand-over. -/
def State.softwareOn (s : State) (slot : Nat) : State :=
  let t := s.poke 0x8010000000 (s.body (slotBase (4 + slot)))
  { t with env := { t.env with phase := .software }, apc := { t.apc with entry := lset t.apc.entry 0 0x8010000000 } }

/-- The boot ROM's work, R325, R385: images chosen, the regulatory image in force, the register set applied, meters restored; then
the hand-over or safe hold. -/
def State.handOver (s : State) (ms : Nat) : State :=
  let g := s.bootSlot 0
  let r := s.bootSlot 1
  let c := s.bootSlot 2
  let back := (List.range 3).any fun n => match s.bootSlot n with | some k => k != s.nvs.pref.getD n 0 | none => false
  let t := ((s.bootNote 0 g).bootNote 1 r).bootNote 2 c
  let t := t.imgApply g
  let t := match r with | some k => (t.setApply k).poolSet | none => t
  let t := t.limRestore
  let t := t.sets [(F.SYS_START_FALLBACK, b2n back), (F.SYS_START_VIGIL, b2n (s.dev == 1)), (F.SYS_START_BOOTMS, min ms 65535)]
  match c with
  | some k => if r.isSome then ((t.softwareOn k).perfEval).domAll else { t with env := { t.env with phase := .safeHold } }
  | none => { t with env := { t.env with phase := .safeHold } }

/-- BOOT_HANDOVER, with the ms since t = 0. -/
def execBootHandover (ms : Nat) (s : State) : Host.Outcome State Fault Refusal :=
  .next (if s.env.phase = .boot && !(s.hart 0).halted then s.handOver ms else s)

end Sys2Proof.Machine
end

