-- ==== Sys2Proof/Machine/Debug.lean ====
section
/-!
DEFINITION. The debug port: the TAP, the debug module after the RISC-V External Debug Support specification 1.0, halted harts and
engines, steps and abstract commands: spec/21, R393 to R398. The module's register layout is that specification's (log entry 41).
-/

namespace Sys2Proof.Machine

/-- Puts the debug module's state in place. -/
def State.setDbg (s : State) (d : DbgS) : State := { s with dbg := d }

/-- Changes what the module keeps of a hart. -/
def State.setHart (s : State) (h : Nat) (x : HartDbg) : State := s.setDbg { s.dbg with harts := kset s.dbg.harts h x }

/-- The engine of a hartsel, R394. -/
def engOf (h : Nat) : Nat := h - 8

/-- Whether a hartsel names a hart or an engine. -/
def hartIs (h : Nat) : Bool := h < 56

/-- Whether a hart is available: its domain is on, and it has been released, R394. -/
def State.hartAvail (s : State) (h : Nat) : Bool :=
  s.live && hartIs h && (if h < 8 then s.domSt 15 == 2 && bitOf (s.get F.APC_HARTSTAT_RUN) h else s.domSt (8 + (h - 8) / 8) == 2)

/-- Whether a hart or an engine is halted. -/
def State.halted (s : State) (h : Nat) : Bool := if h < 8 then (s.hart h).halted else (s.eng (engOf h)).halted

/-- Halts or lets run. -/
def State.setHalted (s : State) (h : Nat) (on : Bool) : State :=
  if h < 8 then s.setHart h { s.hart h with halted := on } else s.setEng (engOf h) { s.eng (engOf h) with halted := on }

/-- What is known of the registers and the local memory of a hart is not known any more. -/
def State.forget (s : State) (h : Nat) : State :=
  s.setDbg { s.dbg with regs := s.dbg.regs.filter (fun e => e.1 / 65536 != h), lmem := s.dbg.lmem.filter fun e => e.1 / 65536 != h }

/-! Halt, resume, step, ebreak: R394 to R396, R398 -/

/-- A hart enters debug mode for a cause of dcsr. -/
def State.haltIn (s : State) (h cause : Nat) : State :=
  (((s.setHalted h true).setHart h { (s.setHalted h true).hart h with cause := cause }).forget h).raise W.DBG E.DBG_HALTED

/-- A halt request acts at the next instruction boundary. -/
def State.haltOp (s : State) (h : Nat) : State := if s.hartAvail h && !s.halted h then s.haltIn h 3 else s

/-- One instruction of an engine that is let run for it. -/
def State.engStep (s : State) (e : Nat) (ins : EngIns) : State :=
  match ins with
  | .plain => s
  | .trap => s.engTrap e
  | .ebreak => if (s.hart (8 + e)).ebreakm then s else s.engTrap e
  | .wend void =>
    match s.running e with
    | none => s
    | some (w, _) => ((if void then s.voidWag w else s.commit w).engFree e).wagDone w
  | .wemit o => s.wemitOp e o
  | .wnew t => s.wnewOp e t
  | .wcpl wid slot typ val => s.wcplOp e wid slot typ val
  | .wreq sec req wid slot => s.wreqNow e sec req wid slot
  | .whand wid => s.whandOp e wid
  | .wbuf len => s.wbufOp e len

/-- A halted hart or engine executes one instruction and halts again; the program's other effects are not seen (log entry 40). -/
def State.stepOp (s : State) (h : Nat) (ins : EngIns) : State :=
  if !s.hartAvail h || !s.halted h then s
  else
    let t := s.setHart h { s.hart h with ack := true }
    let stop := ins == .ebreak && (s.hart h).ebreakm
    let u := if h < 8 then t else (((t.setHalted h false).engStep (engOf h) ins).setHalted h true).coachCheck (engOf h / 8)
    if u.hartAvail h then u.haltIn h (if stop then 1 else 4) else u

/-- A resume request: the hart runs on, or with dcsr.step one instruction. -/
def State.resumeOp (s : State) (h : Nat) : State :=
  if !s.hartAvail h || !s.halted h then s
  else if (s.hart h).step then s.stepOp h .plain
  else ((s.setHalted h false).setHart h { (s.setHalted h false).hart h with ack := true }).forget h

/-- ebreak, R394, R395: a halt under dcsr.ebreakm; else an engine's trap, and an application hart's own exception. -/
def State.ebreakOp (s : State) (h : Nat) : State :=
  if !s.hartAvail h || s.halted h then s
  else if h < 8 then (if s.hartRuns h && (s.hart h).ebreakm then s.haltIn h 1 else s)
  else if (s.running (engOf h)).isNone then s
  else if (s.hart h).ebreakm then s.haltIn h 1
  else s.engTrap (engOf h)

/-! Abstract commands, R394 -/

/-- The width of a hart's registers. -/
def xlen (h : Nat) : Nat := if h < 8 then 64 else 32

/-- dcsr: debugver 4, ebreak bits, stoptime 0, the cause, step, machine mode. -/
def dcsrOf (x : HartDbg) : Nat :=
  4 * 2 ^ 28 + b2n x.ebreakm * 2 ^ 15 + b2n x.ebreaks * 2 ^ 13 + b2n x.ebreaku * 2 ^ 12 + x.cause % 8 * 2 ^ 6 + b2n x.step * 4 + 3

/-- The data registers as a number of n words from data k. -/
def State.dataRd (s : State) (k n : Nat) : Nat := (List.range n).foldl (fun a i => a + s.dbg.data.getD (k + i) 0 * 2 ^ (32 * i)) 0

/-- n words of v put in the data registers from data k. -/
def State.dataWr (s : State) (k n v : Nat) : State :=
  s.setDbg { s.dbg with data := (List.range n).foldl (fun l i => lset l (k + i) (v / 2 ^ (32 * i) % 2 ^ 32)) s.dbg.data }

def State.cmderr (s : State) (c : Nat) : State := s.setDbg { s.dbg with cmderr := c }

/-- Whether a register number is one of the hart's: CSRs, integer registers, and the floating-point registers of harts 0 to 7. -/
def regnoOk (h r : Nat) : Bool := r < 0x1020 || (r < 0x1040 && h < 8)

/-- The value of a register of a halted hart: known since it was read or written, or else a free value. -/
def State.hartReg (s : State) (h r : Nat) : Nat × State :=
  if r = 0x7B0 then (dcsrOf (s.hart h), s)
  else if r = 0x1000 then (0, s)
  else match kget s.dbg.regs (h * 65536 + r) with
    | some v => (v, s)
    | none =>
      let f := s.fresh
      let v := f.1 % 2 ^ xlen h
      (v, f.2.setDbg { f.2.dbg with regs := kset f.2.dbg.regs (h * 65536 + r) v })

/-- A register of a halted hart is written. -/
def State.setHartReg (s : State) (h r v : Nat) : State :=
  if r = 0x7B0 then
    s.setHart h { s.hart h with ebreakm := bitOf v 15, ebreaks := bitOf v 13 && h < 8, ebreaku := bitOf v 12 && h < 8, step := bitOf v 2 }
  else if r = 0x1000 then s
  else s.setDbg { s.dbg with regs := kset s.dbg.regs (h * 65536 + r) v }

/-- Access Register. -/
def State.regCmd (s : State) (h v : Nat) : State :=
  let size := bitsOf v 20 3
  let r := v % 65536
  let words := if size = 3 then 2 else 1
  if bitOf v 17 && (size < 2 || 3 < size || xlen h < 8 * 2 ^ size || !regnoOk h r) then s.cmderr 2
  else
    let t := if !bitOf v 17 then s
      else if bitOf v 16 then
        let old := if words = 1 && xlen h = 64 then (s.hartReg h r).1 / 2 ^ 32 * 2 ^ 32 else 0
        s.setHartReg h r (old + s.dataRd 0 words)
      else
        let x := s.hartReg h r
        x.2.dataWr 0 words (x.1 % 2 ^ (32 * words))
    let t := if bitOf v 18 then t.forget h else t
    if bitOf v 19 && bitOf v 17 then t.setDbg { t.dbg with command := v - r + (r + 1) % 65536 } else t

/-- An engine's address in the map of R243: local memory, the physical address of a global one, or none. -/
def State.engAddr (s : State) (e a : Nat) : Nat ⊕ Option Nat :=
  if a < 0xE080 || (0xE100 ≤ a && a < 0xE300) || (0xF000 ≤ a && a < 0xF100) then .inl a
  else if inSram a || inNvs a || inRegs a then .inr (some a)
  else if 0x80000000 ≤ a && a < 0x90000000 then .inr (some (s.get (F.ENG_DRAMWIN_BASE (e / 8)) * 2 ^ 28 + (a - 0x80000000)))
  else .inr none

/-- What dispatch has put at an address of an engine's local memory, R243, R244: the inbox, the frame header, the NODE snapshots of the
wagon it holds. -/
def State.locShown (s : State) (e a : Nat) : Option Nat :=
  let oct := fun (l : List Nat) (i : Nat) => (l[i / 4]?).map fun w => w / 2 ^ (8 * (i % 4)) % 256
  if 0xE000 ≤ a && a < 0xE040 then oct (s.eng e).inbox (a - 0xE000)
  else if 0xE040 ≤ a && a < 0xE080 then oct (s.eng e).hdr (a - 0xE040)
  else if 0xE100 ≤ a && a < 0xE300 then
    match (s.eng e).wag with
    | some w => match s.wag w with
      | some x => match kget x.snap ((a - 0xE100) / 64) with
        | some l => (l[(a - 0xE100) % 64]?).map fun b => b.toNat
        | none => none
      | none => none
    | none => none
  else none

/-- An octet of an engine's local memory: the program banks, what is known of the rest, what dispatch has put there. -/
def State.locRd (s : State) (e a : Nat) : Nat × State :=
  let at' := if a < 0x6000 then some (2 * (e / 8) * 32768 + a) else if a < 0xC000 then some ((2 * (e / 8) + 1) * 32768 + (a - 0x6000)) else none
  match at' with
  | some p => (((kget s.yard.prog p).getD 0).toNat, s)
  | none =>
    match kget s.dbg.lmem ((8 + e) * 65536 + a) with
    | some v => (v, s)
    | none => match s.locShown e a with
    | some v => (v, s)
    | none =>
      let f := s.fresh
      let v := f.1 % 256
      (v, f.2.setDbg { f.2.dbg with lmem := kset f.2.dbg.lmem ((8 + e) * 65536 + a) v })

/-- An octet of the program banks is written. -/
def State.progPut (s : State) (p v : Nat) : State :=
  { s with yard := { s.yard with prog := memPut s.yard.prog p (BitVec.ofNat 8 v) } }

/-- An octet of an engine's local memory is written. -/
def State.locWr (s : State) (e a v : Nat) : State :=
  if a < 0x6000 then s.progPut (2 * (e / 8) * 32768 + a) v
  else if a < 0xC000 then s.progPut ((2 * (e / 8) + 1) * 32768 + (a - 0x6000)) v
  else s.setDbg { s.dbg with lmem := kset s.dbg.lmem ((8 + e) * 65536 + a) (v % 256) }

/-- n octets of local memory read. -/
def State.locRds (s : State) (e : Nat) : Nat → Nat → Nat × State
  | _, 0 => (0, s)
  | a, n + 1 =>
    let x := s.locRd e a
    let y := x.2.locRds e (a + 1) n
    (x.1 + 256 * y.1, y.2)

/-- What a command makes of a bus answer. -/
def State.cmdAns (s : State) : Bool × Nat × State := (s.bus.err, s.bus.data, s)

/-- A hart's own access to memory for a command, and whether it failed. -/
def State.cmdAcc (s : State) (h a n : Nat) (wr : Bool) (v : Nat) : Bool × Nat × State :=
  if h < 8 then (s.accRaw State.regWrite { cls := 0, num := h } a n wr v .none).cmdAns
  else
    let rq : Rq := { cls := 1, num := engOf h }
    match s.engAddr (engOf h) a with
    | .inl p =>
      if wr then (false, 0, (List.range n).foldl (fun t i => t.locWr (engOf h) (p + i) (v / 2 ^ (8 * i) % 256)) s)
      else let x := s.locRds (engOf h) p n; (false, x.1, x.2)
    | .inr (some p) => (s.accRaw State.regWrite rq p n wr v .none).cmdAns
    | .inr none => ((s.darkRec rq a 1).answerErr rq true).cmdAns

/-- Access Memory: an address that is not aligned or a bus error ends it with cmderr 5. -/
def State.memCmd (s : State) (h v : Nat) : State :=
  let size := bitsOf v 20 3
  let n := 2 ^ size
  let k := xlen h / 32
  let a := s.dataRd k k
  let wr := bitOf v 16
  if bitOf v 23 || 3 < size || xlen h < 8 * n then s.cmderr 2
  else if a % n ≠ 0 then s.cmderr 5
  else
    let x := s.cmdAcc h a n wr (s.dataRd 0 (if n = 8 then 2 else 1))
    if x.1 then x.2.2.cmderr 5
    else
      let t := if wr then x.2.2 else x.2.2.dataWr 0 (if n = 8 then 2 else 1) x.2.1
      if bitOf v 19 then t.dataWr k k (a + n) else t

/-- A command is written: with cmderr 0, on a halted hart. -/
def State.command (s : State) (v : Nat) : State :=
  let h := s.dbg.sel
  let t := s.setDbg { s.dbg with command := v }
  if s.dbg.cmderr ≠ 0 then s
  else if !s.hartAvail h || !s.halted h then t.cmderr 4
  else match v / 2 ^ 24 with
    | 0 => t.regCmd h v
    | 2 => t.memCmd h v
    | _ => t.cmderr 2

/-! The debug module's registers, R394 -/

/-- dmstatus of the selected hart: version 3, hasresethaltreq, authenticated. -/
def State.dmstatus (s : State) : Nat :=
  let h := s.dbg.sel
  let x := s.hart h
  let two := fun (b : Bool) (k : Nat) => b2n b * (3 * 2 ^ k)
  let up := s.hartAvail h
  3 + 2 ^ 5 + 2 ^ 7 + two (up && s.halted h) 8 + two (up && !s.halted h) 10 + two (hartIs h && !up) 12 + two (!hartIs h) 14
    + two x.ack 16 + two x.havereset 18

/-- The words of the program buffer of the selected hart. -/
def pbufLen (h : Nat) : Nat := if h < 8 then 8 else 4

/-- A read of a register of the module. -/
def State.dmRead (s : State) (a : Nat) : Nat :=
  if !s.dbg.active then 0
  else if 4 ≤ a ∧ a ≤ 7 then s.dbg.data.getD (a - 4) 0
  else if 0x20 ≤ a ∧ a < 0x20 + pbufLen s.dbg.sel then s.dbg.pbuf.getD (a - 0x20) 0
  else match a with
    | 0x10 => 1 + s.dbg.sel % 1024 * 2 ^ 16
    | 0x11 => s.dmstatus
    | 0x13 => b2n ((List.range 32).any fun h => s.halted h) + b2n ((List.range 24).any fun h => s.halted (32 + h)) * 2
    | 0x16 => 4 + s.dbg.cmderr * 2 ^ 8 + pbufLen s.dbg.sel * 2 ^ 24
    | 0x18 => s.dbg.auto
    | 0x40 => (List.range 32).foldl (fun v i => if hartIs (s.dbg.sel / 32 * 32 + i) && s.halted (s.dbg.sel / 32 * 32 + i) then v + 2 ^ i else v) 0
    | _ => 0

/-- dmcontrol is written: dmactive 0 resets the module; while it is 0 only dmactive can be set. Hart and module resets are not part of
this module (log entry 41). -/
def State.dmControl (s : State) (v : Nat) : State :=
  if v % 2 = 0 then
    s.setDbg { s.dbg with active := false, sel := 0, data := [0, 0, 0, 0], pbuf := [0, 0, 0, 0, 0, 0, 0, 0], cmderr := 0, auto := 0,
                          command := 0, harts := s.dbg.harts.map fun e => (e.1, { e.2 with rhr := false, ack := false }) }
  else if !s.dbg.active then s.setDbg { s.dbg with active := true }
  else
    let h := bitsOf v 16 10 % 64
    let t := s.setDbg { s.dbg with sel := h }
    let t := if bitOf v 28 then t.setHart h { t.hart h with havereset := false } else t
    let t := if bitOf v 3 && h < 8 then t.setHart h { t.hart h with rhr := true } else t
    let t := if bitOf v 2 && !bitOf v 3 && h < 8 then t.setHart h { t.hart h with rhr := false } else t
    if bitOf v 31 then t.haltOp h
    else if bitOf v 30 then (t.setHart h { t.hart h with ack := false }).resumeOp h
    else t

/-- An access of data or program buffer word k repeats the command where abstractauto asks for it. -/
def State.autoRun (s : State) (k : Nat) : State := if bitOf s.dbg.auto k then s.command s.dbg.command else s

/-- A write of a register of the module. -/
def State.dmWrite (s : State) (a v : Nat) : State :=
  if a = 0x10 then s.dmControl v
  else if !s.dbg.active then s
  else if 4 ≤ a ∧ a ≤ 7 then (s.setDbg { s.dbg with data := lset s.dbg.data (a - 4) v }).autoRun (a - 4)
  else if 0x20 ≤ a ∧ a < 0x20 + pbufLen s.dbg.sel then (s.setDbg { s.dbg with pbuf := lset s.dbg.pbuf (a - 0x20) v }).autoRun (a - 0x20 + 16)
  else match a with
    | 0x16 => s.cmderr (clearBits 3 s.dbg.cmderr (bitsOf v 8 3))
    | 0x17 => s.command v
    | 0x18 => s.setDbg { s.dbg with auto := v % 16 + bitsOf v 16 8 * 2 ^ 16 }
    | _ => s

/-! Rows, R393 to R396 -/

/-- TAP_RESET: nJTAG_TRST resets the TAP and nothing else. -/
def execTapReset (s : State) : Host.Outcome State Fault Refusal := .next (s.setDbg { s.dbg with ir := 1, dbgi := 0, dmi := 0 })

/-- DBGI_ACCESS: op 1 reads and 2 writes the register at an offset of the DBG window; a capture then returns the data, status 0. -/
def execDbgiAccess (op off : Nat) (v : Word) (s : State) : Host.Outcome State Fault Refusal :=
  .next (
    let o := off / 4 * 4 % 4096
    let t := s.setDbg { s.dbg with ir := 0x18 }
    let show' := fun (t : State) (d : Nat) => t.setDbg { t.dbg with dbgi := o + d * 4096 }
    if !s.live then t
    else match op with
      | 1 => let u := t.regRead dbgRq W.DBG o 0 32; show' u u.bus.data
      | 2 => show' (t.regWrite dbgRq W.DBG o v.toNat) v.toNat
      | _ => t)

/-- DMI_ACCESS: op 1 reads and 2 writes a register of the debug module; nothing at level 0, reads alone at level 1 (R337). -/
def execDmiAccess (op addr : Nat) (v : Word) (s : State) : Host.Outcome State Fault Refusal :=
  .next (
    let a := addr % 128
    let t := s.setDbg { s.dbg with ir := 0x11 }
    if !s.live then t
    else match op with
      | 1 =>
        let d := if t.dbgLevel = 0 then 0 else t.dmRead a
        let u := t.setDbg { t.dbg with dmi := d }
        if 4 ≤ a && a ≤ 7 && t.dbgLevel = 2 then u.autoRun (a - 4)
        else if 0x20 ≤ a && a < 0x28 && t.dbgLevel = 2 then u.autoRun (a - 0x20 + 16)
        else u
      | 2 => if t.dbgLevel = 2 then t.dmWrite a v.toNat else t
      | _ => t)

/-- What a request of the host to a hart needs: the module active and level 2, R337. -/
def State.dmOn (s : State) : Bool := s.live && s.dbg.active && s.dbgLevel == 2

/-- HALT_REQUEST: dmcontrol.haltreq for hartsel h. -/
def execHaltRequest (h : Nat) (s : State) : Host.Outcome State Fault Refusal :=
  .next (if s.dmOn then s.dmControl (1 + h % 64 * 2 ^ 16 + 2 ^ 31) else s)

/-- RESUME_REQUEST: dmcontrol.resumereq. -/
def execResumeRequest (h : Nat) (s : State) : Host.Outcome State Fault Refusal :=
  .next (if s.dmOn then s.dmControl (1 + h % 64 * 2 ^ 16 + 2 ^ 30) else s)

/-- SINGLE_STEP: a resume with dcsr.step = 1 through an instruction ins. -/
def execSingleStep (h : Nat) (ins : EngIns) (s : State) : Host.Outcome State Fault Refusal :=
  .next (if s.dmOn && (s.hart h).step then s.stepOp h ins else s)

/-- EBREAK, R395. -/
def execEbreak (h : Nat) (s : State) : Host.Outcome State Fault Refusal := .next (s.ebreakOp h)

/-- ABSTRACT_COMMAND: command is written. -/
def execAbstractCommand (v : Word) (s : State) : Host.Outcome State Fault Refusal :=
  .next (if s.dmOn then s.command v.toNat else s)

end Sys2Proof.Machine
end

