-- ==== Sys2Proof/Machine/Dispatch.lean ====
section
/-!
DEFINITION. The meaning of each command: one arm for each constructor, in the order of the table.
-/

namespace Sys2Proof.Machine

/-- The effect of command i on the state. -/
def exec (i : Instr) (s : State) : Host.Outcome State Fault Refusal :=
  match i with
  | .regWrite rq addr v => Sys2Proof.Machine.execRegWrite rq addr v s
  | .rcRead rq addr => Sys2Proof.Machine.execRcRead rq addr s
  | .opstatRead rq win units => Sys2Proof.Machine.execOpstatRead rq win units s
  | .multiwordLowRead rq addr => Sys2Proof.Machine.execMultiwordLowRead rq addr s
  | .multiwordHighWrite rq addr v => Sys2Proof.Machine.execMultiwordHighWrite rq addr v s
  | .subwordAccess rq addr bytes write => Sys2Proof.Machine.execSubwordAccess rq addr bytes write s
  | .darkAccess rq addr write => Sys2Proof.Machine.execDarkAccess rq addr write s
  | .sreset rq win => Sys2Proof.Machine.execSreset rq win s
  | .lockWrite rq win v => Sys2Proof.Machine.execLockWrite rq win v s
  | .evForce rq win v => Sys2Proof.Machine.execEvForce rq win v s
  | .ctrlEnableWrite rq win v => Sys2Proof.Machine.execCtrlEnableWrite rq win v s
  | .domreqWrite rq win v => Sys2Proof.Machine.execDomreqWrite rq win v s
  | .domainTransitionDone dom => Sys2Proof.Machine.execDomainTransitionDone dom s
  | .coachDrainTimeout coach => Sys2Proof.Machine.execCoachDrainTimeout coach s
  | .opAbort rq win units => Sys2Proof.Machine.execOpAbort rq win units s
  | .opResourceFree win => Sys2Proof.Machine.execOpResourceFree win s
  | .opEnd win err => Sys2Proof.Machine.execOpEnd win err s
  | .thermWarn temp => Sys2Proof.Machine.execThermWarn temp s
  | .warnClear temp => Sys2Proof.Machine.execWarnClear temp s
  | .thermHold temp => Sys2Proof.Machine.execThermHold temp s
  | .thermClear temp => Sys2Proof.Machine.execThermClear temp s
  | .thermalCut temp => Sys2Proof.Machine.execThermalCut temp s
  | .thermalCutRecover temp => Sys2Proof.Machine.execThermalCutRecover temp s
  | .mainsGood => Sys2Proof.Machine.execMainsGood s
  | .mainsLoss => Sys2Proof.Machine.execMainsLoss s
  | .mainsReturn => Sys2Proof.Machine.execMainsReturn s
  | .backupGood volts => Sys2Proof.Machine.execBackupGood volts s
  | .backupLoss volts => Sys2Proof.Machine.execBackupLoss volts s
  | .bridgeTimerExpire => Sys2Proof.Machine.execBridgeTimerExpire s
  | .storeExhausted => Sys2Proof.Machine.execStoreExhausted s
  | .nresetLow => Sys2Proof.Machine.execNresetLow s
  | .nresetRelease => Sys2Proof.Machine.execNresetRelease s
  | .bootHandover ms => Sys2Proof.Machine.execBootHandover ms s
  | .timeTick => Sys2Proof.Machine.execTimeTick s
  | .ppsOutEnd => Sys2Proof.Machine.execPpsOutEnd s
  | .timeSlewWrite rq v => Sys2Proof.Machine.execTimeSlewWrite rq v s
  | .slewEnd => Sys2Proof.Machine.execSlewEnd s
  | .timeStepWrite rq v => Sys2Proof.Machine.execTimeStepWrite rq v s
  | .ref10Valid num den => Sys2Proof.Machine.execRef10Valid num den s
  | .ref10Loss => Sys2Proof.Machine.execRef10Loss s
  | .ppsInEdge => Sys2Proof.Machine.execPpsInEdge s
  | .timeMeasWrite rq v => Sys2Proof.Machine.execTimeMeasWrite rq v s
  | .syncSrcWrite rq v => Sys2Proof.Machine.execSyncSrcWrite rq v s
  | .syncIvlBoundary => Sys2Proof.Machine.execSyncIvlBoundary s
  | .sleepCalWindow => Sys2Proof.Machine.execSleepCalWindow s
  | .launchTimeReached eth unit handle open' => Sys2Proof.Machine.execLaunchTimeReached eth unit handle open' s
  | .pathTransitionDone r p => Sys2Proof.Machine.execPathTransitionDone r p s
  | .pathRxCommand r p rx freq width => Sys2Proof.Machine.execPathRxCommand r p rx freq width s
  | .pathTxCommand r p c rl => Sys2Proof.Machine.execPathTxCommand r p c rl s
  | .pathTxEnd r p id canc => Sys2Proof.Machine.execPathTxEnd r p id canc s
  | .pathRxEnd r p => Sys2Proof.Machine.execPathRxEnd r p s
  | .pathRelease r p => Sys2Proof.Machine.execPathRelease r p s
  | .preselRetuneDone r p => Sys2Proof.Machine.execPreselRetuneDone r p s
  | .rfeCalSweep rq r => Sys2Proof.Machine.execRfeCalSweep rq r s
  | .sweepEntryDone r m => Sys2Proof.Machine.execSweepEntryDone r m s
  | .rfeSurvey rq r => Sys2Proof.Machine.execRfeSurvey rq r s
  | .surveyDwellEnd r energy skipped => Sys2Proof.Machine.execSurveyDwellEnd r energy skipped s
  | .rfeFgCal rq r => Sys2Proof.Machine.execRfeFgCal rq r s
  | .fgCalEnd r => Sys2Proof.Machine.execFgCalEnd r s
  | .bgCalStep r idx last m => Sys2Proof.Machine.execBgCalStep r idx last m s
  | .entryStale r idx => Sys2Proof.Machine.execEntryStale r idx s
  | .maskMeasure r port excess => Sys2Proof.Machine.execMaskMeasure r port excess s
  | .cancClear rq v => Sys2Proof.Machine.execCancClear rq v s
  | .cancSave rq v => Sys2Proof.Machine.execCancSave rq v s
  | .coexReqInRise prio => Sys2Proof.Machine.execCoexReqInRise prio s
  | .coexLead r p id reqIn => Sys2Proof.Machine.execCoexLead r p id reqIn s
  | .coexGrantSample r p id grant => Sys2Proof.Machine.execCoexGrantSample r p id grant s
  | .windowCommit rq v => Sys2Proof.Machine.execWindowCommit rq v s
  | .windowApply => Sys2Proof.Machine.execWindowApply s
  | .listenerAssign l a => Sys2Proof.Machine.execListenerAssign l a s
  | .listenerWindowOpen l => Sys2Proof.Machine.execListenerWindowOpen l s
  | .energyDetect l e => Sys2Proof.Machine.execEnergyDetect l e s
  | .qualifierPass l corr e => Sys2Proof.Machine.execQualifierPass l corr e s
  | .qualifierFail q => Sys2Proof.Machine.execQualifierFail q s
  | .sfdMatch l units rssi => Sys2Proof.Machine.execSfdMatch l units rssi s
  | .sfdwaitExpire w => Sys2Proof.Machine.execSfdwaitExpire w s
  | .strongerPreamble l corr e es => Sys2Proof.Machine.execStrongerPreamble l corr e es s
  | .phrEnd l h len fcslen dw => Sys2Proof.Machine.execPhrEnd l h len fcslen dw s
  | .psduEnd l psdu rep taps => Sys2Proof.Machine.execPsduEnd l psdu rep taps s
  | .listenerWindowClose l => Sys2Proof.Machine.execListenerWindowClose l s
  | .eqArm rq v => Sys2Proof.Machine.execEqArm rq v s
  | .carrierRequest c => Sys2Proof.Machine.execCarrierRequest c s
  | .carrierLaunch id => Sys2Proof.Machine.execCarrierLaunch id s
  | .tileEnable rq t v => Sys2Proof.Machine.execTileEnable rq t v s
  | .tileChecksDone t => Sys2Proof.Machine.execTileChecksDone t s
  | .tileDisable rq t v => Sys2Proof.Machine.execTileDisable rq t v s
  | .slotEdge t => Sys2Proof.Machine.execSlotEdge t s
  | .slotPrepare t => Sys2Proof.Machine.execSlotPrepare t s
  | .sfSwitch rq t sf v => Sys2Proof.Machine.execSfSwitch rq t sf v s
  | .boardWriteDiscard rq addr bytes => Sys2Proof.Machine.execBoardWriteDiscard rq addr bytes s
  | .mlcBoardLoad rq => Sys2Proof.Machine.execMlcBoardLoad rq s
  | .mlcFrameCheck l lbt => Sys2Proof.Machine.execMlcFrameCheck l lbt s
  | .txSquare t square lbt => Sys2Proof.Machine.execTxSquare t square lbt s
  | .sharedSquare t square cca lbt => Sys2Proof.Machine.execSharedSquare t square cca lbt s
  | .beaconSquare t square lbt => Sys2Proof.Machine.execBeaconSquare t square lbt s
  | .keepaliveSquare t square fin lbt => Sys2Proof.Machine.execKeepaliveSquare t square fin lbt s
  | .alloc => Sys2Proof.Machine.execAlloc s
  | .release => Sys2Proof.Machine.execRelease s
  | .read => Sys2Proof.Machine.execRead s
  | .setkey => Sys2Proof.Machine.execSetkey s
  | .findext => Sys2Proof.Machine.execFindext s
  | .findshort => Sys2Proof.Machine.execFindshort s
  | .flushq => Sys2Proof.Machine.execFlushq s
  | .setsw => Sys2Proof.Machine.execSetsw s
  | .holdoffExpire rec' => Sys2Proof.Machine.execHoldoffExpire rec' s
  | .frameAttribute => Sys2Proof.Machine.execFrameAttribute s
  | .mapWriteDiscard rq addr bytes => Sys2Proof.Machine.execMapWriteDiscard rq addr bytes s
  | .downlinkExpire handle => Sys2Proof.Machine.execDownlinkExpire handle s
  | .rebuildCopy0 rq => Sys2Proof.Machine.execRebuildCopy0 rq s
  | .rebuildCopy1 rq => Sys2Proof.Machine.execRebuildCopy1 rq s
  | .rebuildRestore rq => Sys2Proof.Machine.execRebuildRestore rq s
  | .wlanLstfDetect r power => Sys2Proof.Machine.execWlanLstfDetect r power s
  | .wlanLltfConfirm r => Sys2Proof.Machine.execWlanLltfConfirm r s
  | .wlanLltfTimeout r => Sys2Proof.Machine.execWlanLltfTimeout r s
  | .wlanLsigEnd r ok nonHt dur n => Sys2Proof.Machine.execWlanLsigEnd r ok nonHt dur n s
  | .wlanSigEnd r fmt g mine tb dur n => Sys2Proof.Machine.execWlanSigEnd r fmt g mine tb dur n s
  | .wlanPsduEnd r l eq resp => Sys2Proof.Machine.execWlanPsduEnd r l eq resp s
  | .wlanRestart r power => Sys2Proof.Machine.execWlanRestart r power s
  | .grantExpire idx => Sys2Proof.Machine.execGrantExpire idx s
  | .wlanEqArm rq r v => Sys2Proof.Machine.execWlanEqArm rq r v s
  | .channelCommit rq r v => Sys2Proof.Machine.execChannelCommit rq r v s
  | .channelApply r => Sys2Proof.Machine.execChannelApply r s
  | .staAdd => Sys2Proof.Machine.execStaAdd s
  | .staDel => Sys2Proof.Machine.execStaDel s
  | .staSetlink => Sys2Proof.Machine.execStaSetlink s
  | .staSetmap => Sys2Proof.Machine.execStaSetmap s
  | .staFlush => Sys2Proof.Machine.execStaFlush s
  | .tsfEpochWrite rq reg v => Sys2Proof.Machine.execTsfEpochWrite rq reg v s
  | .tbtt r bss => Sys2Proof.Machine.execTbtt r bss s
  | .mldFrameExpire handle => Sys2Proof.Machine.execMldFrameExpire handle s
  | .planRevise r ac inp => Sys2Proof.Machine.execPlanRevise r ac inp s
  | .txopWin r acs o => Sys2Proof.Machine.execTxopWin r acs o s
  | .twtValidWrite rq v => Sys2Proof.Machine.execTwtValidWrite rq v s
  | .twtSpStart a => Sys2Proof.Machine.execTwtSpStart a s
  | .swCreate rq v => Sys2Proof.Machine.execSwCreate rq v s
  | .swCoupling rq v => Sys2Proof.Machine.execSwCoupling rq v s
  | .couplingArrive wid slot typ val snap => Sys2Proof.Machine.execCouplingArrive wid slot typ val snap s
  | .dispatch e => Sys2Proof.Machine.execDispatch e s
  | .wend e void => Sys2Proof.Machine.execWend e void s
  | .wemit e o => Sys2Proof.Machine.execWemit e o s
  | .wnew e t => Sys2Proof.Machine.execWnew e t s
  | .wcpl e wid slot typ val => Sys2Proof.Machine.execWcpl e wid slot typ val s
  | .wreq e sec req wid slot => Sys2Proof.Machine.execWreq e sec req wid slot s
  | .whand e wid => Sys2Proof.Machine.execWhand e wid s
  | .wbuf e len => Sys2Proof.Machine.execWbuf e len s
  | .engineTrap e => Sys2Proof.Machine.execEngineTrap e s
  | .wagonDeadline wid => Sys2Proof.Machine.execWagonDeadline wid s
  | .wagonAbandon wid => Sys2Proof.Machine.execWagonAbandon wid s
  | .programLoad rq coach => Sys2Proof.Machine.execProgramLoad rq coach s
  | .pbArm rq v => Sys2Proof.Machine.execPbArm rq v s
  | .pbSwitch => Sys2Proof.Machine.execPbSwitch s
  | .histWindow => Sys2Proof.Machine.execHistWindow s
  | .eloadWindow retired => Sys2Proof.Machine.execEloadWindow retired s
  | .rteCommit rq => Sys2Proof.Machine.execRteCommit rq s
  | .rteCommitApply units => Sys2Proof.Machine.execRteCommitApply units s
  | .oldSetRelease => Sys2Proof.Machine.execOldSetRelease s
  | .lookup => Sys2Proof.Machine.execLookup s
  | .decomp => Sys2Proof.Machine.execDecomp s
  | .comp => Sys2Proof.Machine.execComp s
  | .frag => Sys2Proof.Machine.execFrag s
  | .srhins => Sys2Proof.Machine.execSrhins s
  | .reasmExpire idx => Sys2Proof.Machine.execReasmExpire idx s
  | .watchChange w => Sys2Proof.Machine.execWatchChange w s
  | .watchHoldExpire w => Sys2Proof.Machine.execWatchHoldExpire w s
  | .watchRestore rq w v => Sys2Proof.Machine.execWatchRestore rq w v s
  | .frameBoundary n => Sys2Proof.Machine.execFrameBoundary n s
  | .creditRefill n => Sys2Proof.Machine.execCreditRefill n s
  | .tlEnable rq n v => Sys2Proof.Machine.execTlEnable rq n v s
  | .tlDisable rq n v => Sys2Proof.Machine.execTlDisable rq n v s
  | .tlSwitch rq n v => Sys2Proof.Machine.execTlSwitch rq n v s
  | .tlStart n => Sys2Proof.Machine.execTlStart n s
  | .tlEntryBoundary n => Sys2Proof.Machine.execTlEntryBoundary n s
  | .signalDetect n => Sys2Proof.Machine.execSignalDetect n s
  | .anComplete n common fec pause eee => Sys2Proof.Machine.execAnComplete n common fec pause eee s
  | .trainComplete n pre main post => Sys2Proof.Machine.execTrainComplete n pre main post s
  | .trainTimeout n => Sys2Proof.Machine.execTrainTimeout n s
  | .wordLock n => Sys2Proof.Machine.execWordLock n s
  | .lockTimeout n => Sys2Proof.Machine.execLockTimeout n s
  | .exchangeComplete n speed pause => Sys2Proof.Machine.execExchangeComplete n speed pause s
  | .lockLoss n => Sys2Proof.Machine.execLockLoss n s
  | .laneRetrain rq n v => Sys2Proof.Machine.execLaneRetrain rq n v s
  | .eidleWrite rq n v => Sys2Proof.Machine.execEidleWrite rq n v s
  | .linkDown n loc rem => Sys2Proof.Machine.execLinkDown n loc rem s
  | .linkUp n => Sys2Proof.Machine.execLinkUp n s
  | .ethRxStart n => Sys2Proof.Machine.execEthRxStart n s
  | .ethRxEnd n data code => Sys2Proof.Machine.execEthRxEnd n data code s
  | .pauseTimerExpire n c => Sys2Proof.Machine.execPauseTimerExpire n c s
  | .txpauseSend rq n v => Sys2Proof.Machine.execTxpauseSend rq n v s
  | .pauseRepeat n => Sys2Proof.Machine.execPauseRepeat n s
  | .lpiEnter n => Sys2Proof.Machine.execLpiEnter n s
  | .lpiExit n => Sys2Proof.Machine.execLpiExit n s
  | .hello sen pairid role lanes => Sys2Proof.Machine.execHello sen pairid role lanes s
  | .heartbeatSend => Sys2Proof.Machine.execHeartbeatSend s
  | .heartbeatReceive sen acks => Sys2Proof.Machine.execHeartbeatReceive sen acks s
  | .heartbeatMiss => Sys2Proof.Machine.execHeartbeatMiss s
  | .lifeInReading reading => Sys2Proof.Machine.execLifeInReading reading s
  | .alignmentMarker lanes => Sys2Proof.Machine.execAlignmentMarker lanes s
  | .couplerLaneDrop k resent lost => Sys2Proof.Machine.execCouplerLaneDrop k resent lost s
  | .couplerLaneJoin k => Sys2Proof.Machine.execCouplerLaneJoin k s
  | .cplDataReceive frame => Sys2Proof.Machine.execCplDataReceive frame s
  | .syncComplete copy => Sys2Proof.Machine.execSyncComplete copy s
  | .mirrorUpdate m => Sys2Proof.Machine.execMirrorUpdate m s
  | .cplTimeCorrect t => Sys2Proof.Machine.execCplTimeCorrect t s
  | .releaseReceive => Sys2Proof.Machine.execReleaseReceive s
  | .cplHandover rq v => Sys2Proof.Machine.execCplHandover rq v s
  | .cplResync rq v => Sys2Proof.Machine.execCplResync rq v s
  | .cplEbHeard sen pairid role => Sys2Proof.Machine.execCplEbHeard sen pairid role s
  | .cplEbMiss b => Sys2Proof.Machine.execCplEbMiss b s
  | .lentCarrierRequest c answer => Sys2Proof.Machine.execLentCarrierRequest c answer s
  | .nvsProgram rq => Sys2Proof.Machine.execNvsProgram rq s
  | .nvsActivate rq => Sys2Proof.Machine.execNvsActivate rq s
  | .secEnrol rq => Sys2Proof.Machine.execSecEnrol rq s
  | .ccmDecrypt => Sys2Proof.Machine.execCcmDecrypt s
  | .ccmEncrypt => Sys2Proof.Machine.execCcmEncrypt s
  | .gcmpDecrypt => Sys2Proof.Machine.execGcmpDecrypt s
  | .gcmpEncrypt => Sys2Proof.Machine.execGcmpEncrypt s
  | .macsecDecrypt => Sys2Proof.Machine.execMacsecDecrypt s
  | .macsecEncrypt => Sys2Proof.Machine.execMacsecEncrypt s
  | .meterBucketAge meter => Sys2Proof.Machine.execMeterBucketAge meter s
  | .limSnapshot ok => Sys2Proof.Machine.execLimSnapshot ok s
  | .hartRelease rq v => Sys2Proof.Machine.execHartRelease rq v s
  | .msipWrite hart by' v => Sys2Proof.Machine.execMsipWrite hart by' v s
  | .plicClaim ctx => Sys2Proof.Machine.execPlicClaim ctx s
  | .plicComplete ctx src => Sys2Proof.Machine.execPlicComplete ctx src s
  | .memAccess rq addr bytes write v upset => Sys2Proof.Machine.execMemAccess rq addr bytes write v upset s
  | .scrub dram upset => Sys2Proof.Machine.execScrub dram upset s
  | .memAlloc rq v => Sys2Proof.Machine.execMemAlloc rq v s
  | .memFree rq v => Sys2Proof.Machine.execMemFree rq v s
  | .chkScan rq unit => Sys2Proof.Machine.execChkScan rq unit s
  | .stateRequest rq v wake => Sys2Proof.Machine.execStateRequest rq v wake s
  | .stateChangeDone wake => Sys2Proof.Machine.execStateChangeDone wake s
  | .dormantAlarm edges => Sys2Proof.Machine.execDormantAlarm edges s
  | .wakeSource src edges => Sys2Proof.Machine.execWakeSource src edges s
  | .perfRequest rq v => Sys2Proof.Machine.execPerfRequest rq v s
  | .perfSwitchDone cluster => Sys2Proof.Machine.execPerfSwitchDone cluster s
  | .faultEvent code page hard => Sys2Proof.Machine.execFaultEvent code page hard s
  | .fltRestore rq v => Sys2Proof.Machine.execFltRestore rq v s
  | .fltStop rq v => Sys2Proof.Machine.execFltStop rq v s
  | .handshakeStall cls => Sys2Proof.Machine.execHandshakeStall cls s
  | .railFault => Sys2Proof.Machine.execRailFault s
  | .tickLockLost => Sys2Proof.Machine.execTickLockLost s
  | .stopholdExpire => Sys2Proof.Machine.execStopholdExpire s
  | .engineStall e => Sys2Proof.Machine.execEngineStall e s
  | .engineRunmax e => Sys2Proof.Machine.execEngineRunmax e s
  | .tapReset => Sys2Proof.Machine.execTapReset s
  | .dbgiAccess op off v => Sys2Proof.Machine.execDbgiAccess op off v s
  | .dmiAccess op addr v => Sys2Proof.Machine.execDmiAccess op addr v s
  | .haltRequest h => Sys2Proof.Machine.execHaltRequest h s
  | .resumeRequest h => Sys2Proof.Machine.execResumeRequest h s
  | .singleStep h ins => Sys2Proof.Machine.execSingleStep h ins s
  | .ebreak h => Sys2Proof.Machine.execEbreak h s
  | .abstractCommand v => Sys2Proof.Machine.execAbstractCommand v s
  | .mapRead rq v => Sys2Proof.Machine.execMapRead rq v s
  | .mapWrite rq v => Sys2Proof.Machine.execMapWrite rq v s
  | .tokenWordWrite rq v => Sys2Proof.Machine.execTokenWordWrite rq v s
  | .tokenVerify rq v => Sys2Proof.Machine.execTokenVerify rq v s
  | .tokenCheckDone => Sys2Proof.Machine.execTokenCheckDone s
  | .engineYield rq v => Sys2Proof.Machine.execEngineYield rq v s
  | .twtSpEnd a => Sys2Proof.Machine.execTwtSpEnd a s
  | .creditReachesZero n c => Sys2Proof.Machine.execCreditReachesZero n c s
  | .coexPrioRise => Sys2Proof.Machine.execCoexPrioRise s
  | .rxLpiChange n on => Sys2Proof.Machine.execRxLpiChange n on s

end Sys2Proof.Machine
end

