-- ==== Sys2Proof/Machine/Pins.lean ====
section
/-!
DEFINITION. What the module's output contacts drive in a state: spec/02, R40, R47 to R50, with R88, R119 to R121 and R308.
-/

namespace Sys2Proof.Machine

/-- What a contact shows: a level, high impedance (released), electrical idle, a toggling signal. -/
inductive Lvl where
  | low | high | hiZ | idle | toggling
  deriving DecidableEq, Repr

/-- The output contacts of R48: lane pairs, STATUS2 to STATUS0 as a code, PPS_OUT, REF10_OUT, LIFE_OUT, COEX_GRANT_OUT, COEX_REQ_OUT,
UART_TXD, JTAG_TDO, GPIO0 to GPIO23, MAINS_OK, BACKUP_OK. -/
structure PinsOut where
  lanes : List Lvl
  status : Nat
  pps : Lvl
  ref10 : Lvl
  life : Lvl
  grant : Lvl
  req : Lvl
  uart : Lvl
  tdo : Lvl
  gpio : List Lvl
  mains : Lvl
  backup : Lvl
  deriving DecidableEq, Repr

/-- A driven level. -/
def lvl (b : Bool) : Lvl := if b then .high else .low

/-- A level that the spec leaves to what uses the contact: the UART's and the JTAG port's data (log entry 67). -/
def State.dataLvl (s : State) (n : Nat) : Lvl := lvl (bitOf (Config.free (s.free + n)) 0)

/-- The lines while the die does not run, R48: in Off nothing is driven, else the right column. -/
def State.pinsHeld (s : State) (off : Bool) : PinsOut :=
  { lanes := List.replicate 8 .idle, status := 0, pps := .low, ref10 := .low,
    life := if s.env.lifeOut = 2 then .high else .low,
    grant := .hiZ, req := if off then .hiZ else .low, uart := if off then .hiZ else .high, tdo := .hiZ, gpio := List.replicate 24 .hiZ,
    mains := lvl s.mainsOk, backup := lvl s.backupOk }

/-- LIFE_OUT, R308: 0 low, 1 pulses, 2 high. -/
def State.lifeLvl (s : State) : Lvl := match s.env.lifeOut with | 0 => .low | 1 => .toggling | _ => .high

/-- The selected reference is valid, R40, R83: the TCXO wherever TIME ticks, REF10_IN while it is active (log entry 67). -/
def State.refValid (s : State) : Bool := s.tm.tick != .stopped && (!s.on F.TIME_REFCTL_ACTIVE || s.on F.TIME_REFCTL_EXTVALID)

/-- What the output contacts show, R40, R47 to R50, R53, R88, R120, R121, R308. -/
def State.pinOut (s : State) : PinsOut :=
  match s.env.phase with
  | .off => s.pinsHeld true
  | .inReset => s.pinsHeld false
  | .stopped => s.pinsHeld false
  | _ =>
    let d := s.get F.PINS_GPIO_DIR_DIR
    let o := s.get F.PINS_GPIO_OUT_OUT
    { lanes := (List.range 8).map fun n => if s.on (F.LANE_STAT_IDLE n) then .idle else .toggling,
      status := s.statusCode, pps := lvl s.tm.ppsOut, ref10 := if s.refValid then .toggling else .low, life := s.lifeLvl,
      grant := if s.rfe.coex.hold.isSome then .low else .hiZ, req := lvl s.rfe.coex.reqOut,
      uart := s.dataLvl 0, tdo := s.dataLvl 1,
      gpio := (List.range 24).map fun b => if bitOf d b then lvl (bitOf o b) else .hiZ,
      mains := lvl s.mainsOk, backup := lvl s.backupOk }

end Sys2Proof.Machine
end

