-- ==== Sys2Proof/Safety.lean ====
section
/-!
DEFINITION. What every state of a safe run keeps: register fields listed once each in order, each a word; memory and the engine
program banks in their canonical form.
-/

namespace Sys2Proof.Machine

/-- The register fields are listed once each in order, and each holds at most a word. -/
def regsWf (m : KMap Nat) : Bool := kok (fun _ v => decide (v < 2 ^ 32)) m

/-- A well-formed state: registers, memory and program banks in canonical form. -/
def State.wf (s : State) : Bool := regsWf s.regs && Memory.wf s.mem && Memory.wf s.yard.prog

/-- A step that is safe keeps the state well formed. -/
def stepSafe (s : State) : Prop := ∀ t, step s = .next t → t.wf = true

/-- Every register field but those of a list reads in t as in s. -/
def State.keeps (s t : State) (l : List Fld) : Prop := ∀ f : Fld, (∀ g ∈ l, f.key ≠ g.key) → t.get f = s.get f

/-- Every octet of memory reads in t as in s. -/
def State.sameMem (s t : State) : Prop := ∀ a, t.peek a = s.peek a

/-- Every octet of memory outside the ranges (address, octets) of a list reads in t as in s. -/
def State.memBut (s t : State) (l : List (Nat × Nat)) : Prop := ∀ a, (∀ r ∈ l, a < r.1 ∨ r.1 + r.2 ≤ a) → t.peek a = s.peek a

/-- A command answers a next state of which p holds. -/
def completes (i : Instr) (s : State) (p : State → Prop) : Prop := ∃ t, exec i s = .next t ∧ p t

end Sys2Proof.Machine
end

