-- ==== Sys2Proof/Certificates/Slice0/Obligations.lean ====
section
/-!
DEFINITION. The statements: what the commands of the block do, by the rules of spec/. Each clause says that a command completes and
names what the next state holds; s.keeps t l says that every register field but those of l reads as before, and t.mem = s.mem that
memory is the same.
-/

section
open Sys2Proof Sys2Proof.Machine

/-- The row's cut: step takes the front command and answers what it does with the queue's rest. That an empty queue idles is the
model's choice (log entry 1). -/
def Obligations.StepRunsFrontCommand : Prop :=
  (∀ (s : State) (c : Instr) (rest : List Instr), s.pending = c :: rest → step s = exec c { s with pending := rest }) ∧
  (∀ s : State, s.pending = [] → step s = .next s)

/-- R62, R64, R65, R385: after reset EV_RAW, EV_MASK and OPSTAT are 0 and LOCK is closed in every window, and the queue is empty. That memory and
the store list nothing is the model's choice (log entries 3 and 7). -/
def Obligations.ResetStateAtRest : Prop :=
  (State.reset.wf = true ∧ State.reset.pending = [] ∧ State.reset.mem = [] ∧ (∀ w ∈ List.range 83, State.reset.opSt w = 0
      ∧ State.reset.on (F.LOCK_OPEN w) = false ∧ State.reset.get (F.EV_MASK w) = 0 ∧ (∀ b ∈ List.range 32, State.reset.ev w b = false)))

/-- R57, R346, R248: registers are words of 32 bits, memory and the program banks are octets in one canonical form; no step of any command leaves them. -/
def Obligations.StepKeepsWellFormed : Prop :=
  (∀ s t : State, s.wf = true → step s = .next t → t.wf = true)

/-- The row's cut: a command acts on everything but the queue. It is stated from states in canonical form, which every step keeps. -/
def Obligations.CommandsLeaveTheQueue : Prop :=
  (∀ (c : Instr) (s t : State), s.wf = true → exec c s = .next t → t.pending = s.pending)

/-- No rule of the spec names a command that it gives no effect: a command whose conditions fail has the effect the spec gives it then. -/
def Obligations.NoCommandStops : Prop :=
  (∀ (c : Instr) (s : State), ∃ t, exec c s = .next t)

/-- R56, for the page header and for the registers of a block that is on; an access to one that is not is R70's. regAt finds the register of
the tables at an offset. -/
def Obligations.ReservedOffsets : Prop :=
  (∀ (s : State) (rq : Rq) (w : Nat) (off : Nat), winOk w = true → ((0x34 ≤ off ∧ off < 0x40 ∧ s.live = true) ∨ (0x40 ≤ off
      ∧ s.winOn w = true)) → off % 4 = 0 → off < 65536 → regAt w off = none →
    completes (.rcRead rq (regAddr w off)) s fun t => t.bus.data = 0
      ∧ t.bus.err = false
      ∧ t = { s with bus := t.bus }
      ∧ s.keeps t []
      ∧ t.mem = s.mem) ∧
  (∀ (s : State) (rq : Rq) (w : Nat) (off : Nat) (v : Word), winOk w = true → ((0x34 ≤ off ∧ off < 0x40 ∧ s.live = true) ∨ (0x40 ≤ off
      ∧ s.winOn w = true)) → off % 4 = 0 → off < 65536 → regAt w off = none →
    completes (.regWrite rq (regAddr w off) v) s fun t => t.bus.err = false
      ∧ t = { s with bus := t.bus }
      ∧ s.keeps t []
      ∧ t.mem = s.mem)

/-- R376: FLT stops the die under R377, the transmitters with it, LIFE_OUT held high; cause 1 and the class stand in FLT_STOPINFO. The command is the
moment at which HSSTALL has passed. -/
def Obligations.HandshakeStallStops : Prop :=
  (∀ (s : State) (n : Nat), s.live = true → n < 256 →
    completes (.handshakeStall n) s fun t => t.env.phase = .stopped
      ∧ t.env.lifeOut = 2
      ∧ t.get F.FLT_STOPINFO_CAUSE = 1
      ∧ t.get F.FLT_STOPINFO_CLASS = n
      ∧ t.on F.FLT_STOPINFO_VALID = true
      ∧ t.nvs = s.nvs
      ∧ t.flt = s.flt
      ∧ t.pwr = s.pwr
      ∧ t.mem = s.mem)

/-- R395: dcsr of an engine reads machine mode; with ebreakm ebreak halts the engine, which keeps its wagon; without, it does what a trap does. -/
def Obligations.EngineEbreak : Prop :=
  (∀ (s : State) (e : Nat), dcsrOf (s.hart (8 + e)) % 4 = 3) ∧
  (∀ (s : State) (e : Nat) (w : Nat) (x : Wagon), e < 48 → s.live = true → s.running e = some (w, x) → (s.hart (8 + e)).ebreakm = true →
    completes (.ebreak (8 + e)) s fun t => t.halted (8 + e) = true
      ∧ (t.hart (8 + e)).cause = 1
      ∧ (t.eng e).wag = some w
      ∧ t.wag w = some x
      ∧ t.ev W.DBG E.DBG_HALTED = true
      ∧ s.keeps t [F.EV_RAW W.DBG E.DBG_HALTED]
      ∧ t.mem = s.mem) ∧
  (∀ (s : State) (e w : Nat) (x : Wagon), e < 48 → s.live = true → s.running e = some (w, x) → (s.hart (8 + e)).ebreakm = false →
      exec (.ebreak (8 + e)) s = exec (.engineTrap e) s ∧ completes (.engineTrap e) s fun t => (t.eng e).wag = none
      ∧ t.ev (W.ENG (e / 8)) E.ENG_EXCEPT = true)

/-- R45, R47: the supply path's table. A loss of the mains puts the module on the backup when that is good, else on the store with
the bridge timer started; a peak, or the backup, ends Bridging; an empty store ends in Off. MAINS_OK, BACKUP_OK and SOURCE follow. -/
def Obligations.SupplyPathTable : Prop :=
  (∀ s : State, s.env.path = .onMains → s.backupOk = true →
    completes .mainsLoss s fun t => t.env.path = .onBackup
      ∧ t.env.timer = false
      ∧ t.mainsOk = false
      ∧ t.get F.PINS_SUPPLY_SOURCE = 1
      ∧ s.keeps t [F.PINS_SUPPLY_MAINS_OK, F.PINS_SUPPLY_SOURCE, F.EV_RAW W.PINS E.PINS_MAINS_LOSS]
      ∧ t.mem = s.mem) ∧
  (∀ s : State, s.env.path = .onMains → s.backupOk = false → s.env.phase ≠ .boot →
    completes .mainsLoss s fun t => t.env.path = .bridging
      ∧ t.env.timer = true
      ∧ t.mainsOk = false
      ∧ t.get F.PINS_SUPPLY_SOURCE = 2
      ∧ s.keeps t [F.PINS_SUPPLY_MAINS_OK, F.PINS_SUPPLY_SOURCE, F.EV_RAW W.PINS E.PINS_MAINS_LOSS]
      ∧ t.mem = s.mem) ∧
  (∀ s : State, (s.env.path = .bridging ∨ s.env.path = .onBackup) →
    completes .mainsGood s fun t => t.env.path = .onMains
      ∧ t.env.timer = false
      ∧ t.mainsOk = true
      ∧ t.get F.PINS_SUPPLY_SOURCE = 0
      ∧ s.keeps t [F.PINS_SUPPLY_MAINS_OK, F.PINS_SUPPLY_SOURCE, F.EV_RAW W.PINS E.PINS_MAINS_RETURN]
      ∧ t.mem = s.mem) ∧
  (∀ s : State, s.env.path = .bridging →
    completes .mainsReturn s fun t => t.env.path = .onMains
      ∧ t.env.timer = false
      ∧ t.get F.PINS_SUPPLY_SOURCE = 0
      ∧ s.keeps t [F.PINS_SUPPLY_SOURCE]
      ∧ t.mem = s.mem) ∧
  (∀ (s : State) (v : Nat), s.env.path = .bridging → v < 4096 →
    completes (.backupGood v) s fun t => t.env.path = .onBackup
      ∧ t.env.timer = false
      ∧ t.backupOk = true
      ∧ t.get F.PINS_SUPPLY_SOURCE = 1
      ∧ t.get F.PINS_SUPPLY_BATV = v
      ∧ s.keeps t [F.PINS_SUPPLY_BACKUP_OK, F.PINS_SUPPLY_SOURCE, F.PINS_SUPPLY_BATV, F.EV_RAW W.PINS E.PINS_BACKUP_RETURN]
      ∧ t.mem = s.mem) ∧
  (∀ (s : State) (v : Nat), s.env.path = .onBackup → s.mainsOk = false → s.env.phase ≠ .boot → v < 4096 →
    completes (.backupLoss v) s fun t => t.env.path = .bridging
      ∧ t.env.timer = true
      ∧ t.backupOk = false
      ∧ t.get F.PINS_SUPPLY_SOURCE = 2
      ∧ t.get F.PINS_SUPPLY_BATV = v
      ∧ s.keeps t [F.PINS_SUPPLY_BACKUP_OK, F.PINS_SUPPLY_SOURCE, F.PINS_SUPPLY_BATV, F.EV_RAW W.PINS E.PINS_BACKUP_LOSS]
      ∧ t.mem = s.mem) ∧
  (∀ s : State, s.env.path = .bridging →
    completes .storeExhausted s fun t => t.env.path = .off
      ∧ t.env.phase = .off
      ∧ t.live = false
      ∧ t.tm.ppsOut = false
      ∧ t.mphy.active = []
      ∧ t.mphy.waiting = []
      ∧ t.wl.tx = []
      ∧ s.keeps t (F.PINS_SUPPLY_SOURCE :: (List.range 8).map F.LANE_STAT_IDLE)
      ∧ t.mem = s.mem)

/-- R32: at +88 °C WARN is set and THERM_WARN raised, at +95 °C HOLD and THERM_HOLD and, from Run, the change to Vigil starts; WARN is
cleared below +83 °C and HOLD below +85 °C; at +105 °C the module is Off, and below +75 °C, with an input good, it starts. -/
def Obligations.ThermalThresholds : Prop :=
  (∀ (s : State) (x : Int), s.live = true → 704 ≤ x → x ≤ 2047 → s.on F.PINS_BASETEMP_WARN = false →
    completes (.thermWarn x) s fun t => t.get F.PINS_BASETEMP_WARN = 1
      ∧ t.ev W.PINS E.PINS_THERM_WARN = true
      ∧ t.temp = x
      ∧ s.keeps t [F.PINS_BASETEMP_TEMP, F.PINS_BASETEMP_WARN, F.EV_RAW W.PINS E.PINS_THERM_WARN]
      ∧ t.mem = s.mem) ∧
  (∀ (s : State) (x : Int), s.live = true → -2048 ≤ x → x < 664 →
    completes (.warnClear x) s fun t => t.get F.PINS_BASETEMP_WARN = 0
      ∧ t.temp = x
      ∧ s.keeps t [F.PINS_BASETEMP_TEMP, F.PINS_BASETEMP_WARN]
      ∧ t.mem = s.mem) ∧
  (∀ (s : State) (x : Int), s.env.phase = .software → 760 ≤ x → x ≤ 2047 → s.on F.PINS_BASETEMP_HOLD = false → s.dev = 0 →
      s.pwr.change = none →
    completes (.thermHold x) s fun t => t.get F.PINS_BASETEMP_HOLD = 1
      ∧ t.ev W.PINS E.PINS_THERM_HOLD = true
      ∧ (t.get F.PINS_BASETEMP_WARN = 1 ∨ s.get F.PINS_BASETEMP_WARN ≠ 0)
      ∧ t.pwr.change = some 1) ∧
  (∀ (s : State) (x : Int), s.live = true → -2048 ≤ x → x < 680 → s.on F.PINS_BASETEMP_HOLD = true →
    completes (.thermClear x) s fun t => t.get F.PINS_BASETEMP_HOLD = 0
      ∧ t.ev W.PINS E.PINS_THERM_CLEAR = true
      ∧ t.dev = s.dev
      ∧ s.keeps t [F.PINS_BASETEMP_TEMP, F.PINS_BASETEMP_HOLD, F.EV_RAW W.PINS E.PINS_THERM_CLEAR]
      ∧ t.mem = s.mem) ∧
  (∀ (s : State) (x : Int), s.env.phase ≠ .off → 840 ≤ x → x ≤ 2047 →
    completes (.thermalCut x) s fun t => t.env.phase = .off
      ∧ t.env.path = .off
      ∧ t.env.cut = true
      ∧ t.live = false
      ∧ s.keeps t (F.PINS_BASETEMP_TEMP :: F.PINS_SUPPLY_SOURCE :: (List.range 8).map F.LANE_STAT_IDLE)
      ∧ t.mem = s.mem) ∧
  (∀ (s : State) (x : Int), s.env.cut = true → s.env.phase = .off → -2048 ≤ x → x < 600 → s.mainsOk = true →
    completes (.thermalCutRecover x) s fun t => t.env.phase = .boot
      ∧ t.env.path = .onMains
      ∧ t.env.cut = false
      ∧ t.get F.SYS_START_CAUSE = 0)

/-- R49, R384: while nRESET_IN is low the die does not run, and its release starts the boot sequence with the residency counters and the
ledger cleared. R45: the bridge timer's expiry in Run starts the change to Vigil. R325, R387: at the hand-over the controller
software runs when it and a register set are valid, else the module is in safe hold. -/
def Obligations.ResetAndStart : Prop :=
  (∀ s : State, s.env.phase ≠ .off →
    completes .nresetLow s fun t => t.env.phase = .inReset
      ∧ t.live = false
      ∧ t.tm.ppsOut = false
      ∧ t.env.lifeOut = 0
      ∧ t.mphy.active = []
      ∧ t.mphy.waiting = []
      ∧ t.wl.tx = []
      ∧ s.keeps t ((List.range 8).map F.LANE_STAT_IDLE)
      ∧ t.mem = s.mem) ∧
  (∀ s : State, s.env.phase = .inReset →
    completes .nresetRelease s fun t => t.env.phase = .boot
      ∧ t.pwr.res = State.reset.pwr.res
      ∧ t.flt.led = []
      ∧ t.nvs = s.nvs
      ∧ t.keys = s.keys
      ∧ (t.get F.SYS_START_CAUSE = s.startRec 1 ∨ 7 < s.startRec 1)) ∧
  (∀ s : State, s.env.timer = true → s.env.phase = .software → s.dev = 0 → s.pwr.change = none →
    completes .bridgeTimerExpire s fun t => t.env.timer = false
      ∧ t.pwr.change = some 1
      ∧ t.get F.PWR_STATUS_CHANGING = 1) ∧
  (∀ (s : State) (ms : Nat), s.env.phase = .boot → (s.hart 0).halted = false →
    completes (.bootHandover ms) s fun t => ((s.bootSlot 1).isSome = true → (s.bootSlot 2).isSome = true → t.env.phase = .software
      ∧ t.apc.entry = lset t.apc.entry 0 0x8010000000)
      ∧ (s.bootSlot 1 = none ∨ s.bootSlot 2 = none → t.env.phase = .safeHold)
      ∧ (s.bootSlot 0 = none → t.lim.img = none))

/-- R59, R56: a write sets an RW field and nothing else, here EV_MASK of any window; a reserved header offset takes no write. A read of a
register that holds an RC field answers its value, and the field is then 0: a counter of MPHY. -/
def Obligations.RegisterAccess : Prop :=
  (∀ (s : State) (rq : Rq) (w : Nat) (v : Word), s.live = true → winOk w = true → (rq.cls = 2 → s.dbgLevel = 2) →
    completes (.regWrite rq (regAddr w 0x14) v) s fun t => t.get (F.EV_MASK w) = v.toNat
      ∧ t.bus.err = false
      ∧ s.keeps t [F.EV_MASK w]
      ∧ t.mem = s.mem) ∧
  (∀ (s : State) (rq : Rq) (w : Nat) (off : Nat) (v : Word), s.live = true → winOk w = true → (rq.cls = 2 → s.dbgLevel = 2) →
      (off = 0x34 ∨ off = 0x38 ∨ off = 0x3C) →
    completes (.regWrite rq (regAddr w off) v) s fun t => t.bus.err = false
      ∧ t.pwr = s.pwr
      ∧ t.env = s.env
      ∧ s.keeps t []
      ∧ t.mem = s.mem) ∧
  (∀ (s : State) (rq : Rq) (n : Nat), s.winOn W.MPHY = true → n < 13 → (rq.cls = 2 → s.dbgLevel = 2) →
    completes (.rcRead rq (regAddr W.MPHY (0xC0 + 4 * n))) s fun t => t.bus.data = s.get (mkF W.MPHY (0xC0 + 4 * n) 0 31 0) + s.get (mkF W.MPHY (0xC0 + 4 * n) 31 1 0) * 2 ^ 31
      ∧ t.bus.err = false
      ∧ t.get (mkF W.MPHY (0xC0 + 4 * n) 0 31 0) = 0
      ∧ s.keeps t [mkF W.MPHY (0xC0 + 4 * n) 0 31 0]
      ∧ t.mem = s.mem)

/-- R57: an 8-bit or 16-bit write of a live register has no effect and is recorded with cause 2; such a read answers the addressed bytes.
R70, R71: an access that finds no live register answers 0, writes nothing, is recorded by PWR, and is a bus error for the classes
of SYS_ERRPOL. -/
def Obligations.SubwordAndDark : Prop :=
  (∀ (s : State) (rq : Rq) (w : Nat) (o : Nat) (n : Nat), s.live = true → winOk w = true → (rq.cls = 2 → s.dbgLevel = 2) →
      (n = 1 ∨ n = 2) → o + n ≤ 4 → o % n = 0 → s.on (F.ERRINFO_VALID w) = false →
    completes (.subwordAccess rq (regAddr w (0x14 + o)) n true) s fun t => t.get (F.ERRINFO_CAUSE w) = 2
      ∧ t.get (F.ERRINFO_VALID w) = 1
      ∧ t.get (F.ERRINFO_OFFSET w) = 5
      ∧ t.get (F.EV_MASK w) = s.get (F.EV_MASK w)
      ∧ s.keeps t [F.ERRINFO_CAUSE w, F.ERRINFO_RQCLASS w, F.ERRINFO_RQNUM w, F.ERRINFO_OFFSET w, F.ERRINFO_VALID w]
      ∧ t.mem = s.mem) ∧
  (∀ (s : State) (rq : Rq) (w : Nat) (o : Nat) (n : Nat), s.live = true → winOk w = true → (rq.cls = 2 → s.dbgLevel = 2) →
      (n = 1 ∨ n = 2) → o + n ≤ 4 → o % n = 0 →
    completes (.subwordAccess rq (regAddr w (0x14 + o)) n false) s fun t => t.bus.data = s.get (F.EV_MASK w) / 2 ^ (8 * o) % 2 ^ (8 * n)
      ∧ t.bus.err = false
      ∧ s.keeps t []
      ∧ t.mem = s.mem) ∧
  (∀ (s : State) (rq : Rq) (a : Nat) (wr : Bool), s.live = true → rq.cls ≠ 1 → rq.cls ≠ 2 → s.darkAt rq a wr = some 1 → a < 2 ^ 40 →
      s.on F.PWR_STATUS_DARKACC = false →
    completes (.darkAccess rq a wr) s fun t => t.bus.data = 0
      ∧ t.bus.err = s.busErrs rq
      ∧ t.get F.PWR_STATUS_DARKACC = 1
      ∧ t.get F.PWR_DARKADDR_KIND = 1
      ∧ t.get F.PWR_DARKADDR_PAGE = a / 4096
      ∧ s.keeps t [F.PWR_DARKADDR_PAGE, F.PWR_DARKADDR_RQCLASS, F.PWR_DARKADDR_KIND, F.PWR_STATUS_DARKACC]
      ∧ t.mem = s.mem) ∧
  (∀ (s : State) (rq : Rq) (a : Nat) (wr : Bool), s.live = true → rq.cls ≠ 1 → rq.cls ≠ 2 → s.darkAt rq a wr = some 0 →
      s.on F.PWR_STATUS_DARKACC = true →
    completes (.darkAccess rq a wr) s fun t => t.bus.data = 0
      ∧ t.bus.err = s.busErrs rq
      ∧ t.get F.PWR_STATUS_DARKOVF = 1
      ∧ s.keeps t [F.PWR_STATUS_DARKOVF]
      ∧ t.mem = s.mem)

/-- R65: 0xA5 closes LOCK and sets HALF; 0x5A while HALF is 1 opens it; any other write closes it. R62: a 1 written to EV_FORCE sets its
event of the block. CTRL.ENABLE takes bit 0 of a write, here in the windows of the always-on domain; R358: a request of MLD moves its retained
domain; R61: DOMREQ 0b11 is reserved and is recorded with cause 5. -/
def Obligations.LockEventsEnable : Prop :=
  (∀ (s : State) (rq : Rq) (w : Nat) (v : Word), s.live = true → winOk w = true → (rq.cls = 2 → s.dbgLevel = 2) →
    completes (.lockWrite rq w v) s fun t => t.on (F.LOCK_OPEN w) = (v.toNat % 256 == 0x5A && s.on (F.LOCK_HALF w))
      ∧ t.on (F.LOCK_HALF w) = (v.toNat % 256 == 0xA5)
      ∧ s.keeps t [F.LOCK_OPEN w, F.LOCK_HALF w]
      ∧ t.mem = s.mem) ∧
  (∀ (s : State) (rq : Rq) (w : Nat) (v : Word), s.live = true → winOk w = true → (rq.cls = 2 → s.dbgLevel = 2) →
    completes (.evForce rq w v) s fun t => (∀ b ∈ List.range 32, t.ev w b = (s.ev w b || (bitOf v.toNat b && evHere w b)))
      ∧ s.keeps t ((List.range 32).map (F.EV_RAW w))
      ∧ t.mem = s.mem) ∧
  (∀ (s : State) (rq : Rq) (w : Nat) (v : Word), s.live = true → (rq.cls = 2 → s.dbgLevel = 2) →
      (w = W.SYS ∨ w = W.LIM ∨ w = W.PINS ∨ w = W.NVS ∨ w = W.TIME) → v.toNat / 2 % 2 = 0 → v.toNat / 4 % 4 ≠ 3 →
    completes (.ctrlEnableWrite rq w v) s fun t => t.get (F.CTRL_ENABLE w) = v.toNat % 2
      ∧ s.keeps t [F.CTRL_ENABLE w]
      ∧ t.mem = s.mem) ∧
  (∀ (s : State) (rq : Rq) (v : Word), s.live = true → (rq.cls = 2 → s.dbgLevel = 2) → s.domSt 6 = 3 →
      v.toNat % 4 = s.get (F.CTRL_ENABLE W.MLD) → s.get (F.CTRL_ENABLE W.MLD) < 2 → v.toNat / 4 % 4 ≠ 3 →
    completes (.domreqWrite rq W.MLD v) s fun t => t.get (F.CTRL_DOMREQ W.MLD) = v.toNat / 4 % 4
      ∧ t.domGoal 6 = min (2 - v.toNat / 4 % 4) (s.domCap s.pwr.capState 6)
      ∧ t.domSt 6 = (if t.domGoal 6 = 2 then 1 else if t.domGoal 6 = 0 then 5 else 3)
      ∧ s.keeps t [F.CTRL_DOMREQ W.MLD]
      ∧ t.mem = s.mem) ∧
  (∀ (s : State) (rq : Rq) (w : Nat) (v : Word), s.live = true → winOk w = true → (rq.cls = 2 → s.dbgLevel = 2) →
      v.toNat = 12 + s.get (F.CTRL_ENABLE w) → s.get (F.CTRL_ENABLE w) < 2 → s.on (F.ERRINFO_VALID w) = false →
    completes (.domreqWrite rq w v) s fun t => t.get (F.CTRL_DOMREQ w) = s.get (F.CTRL_DOMREQ w)
      ∧ t.get (F.ERRINFO_CAUSE w) = 5
      ∧ t.get (F.ERRINFO_VALID w) = 1
      ∧ s.keeps t [F.ERRINFO_CAUSE w, F.ERRINFO_RQCLASS w, F.ERRINFO_RQNUM w, F.ERRINFO_OFFSET w, F.ERRINFO_VALID w]
      ∧ t.mem = s.mem)

/-- R75: a read of the low word of a residency counter of PWR latches its high word for the requester; the write of its high word
stores both words, an unwritten one at its current value. -/
def Obligations.MultiwordRegisters : Prop :=
  (∀ (s : State) (rq : Rq) (k : Nat), s.winOn W.PWR = true → k < 12 → (rq.cls = 2 → s.dbgLevel = 2) →
    completes (.multiwordLowRead rq (regAddr W.PWR (0x80 + 8 * k))) s fun t => t.bus.data = s.regWord rq W.PWR (0x80 + 8 * k) % 2 ^ 32
      ∧ kget t.latch (wordKey rq W.PWR (0x84 + 8 * k)) = some (s.regWord rq W.PWR (0x84 + 8 * k))
      ∧ s.keeps t []
      ∧ t.mem = s.mem) ∧
  (∀ (s : State) (rq : Rq) (k : Nat) (v : Word), s.winOn W.PWR = true → k < 12 → s.pwr.res.length = 12 → (rq.cls = 2 → s.dbgLevel = 2) →
    completes (.multiwordHighWrite rq (regAddr W.PWR (0x84 + 8 * k)) v) s fun t => t.pwr.res = lset s.pwr.res k (((kget s.held (wordKey rq W.PWR (0x80 + 8 * k))).getD (s.regWord rq W.PWR (0x80 + 8 * k)) + v.toNat * 2 ^ 32) * 1000)
      ∧ kget t.held (wordKey rq W.PWR (0x80 + 8 * k)) = none
      ∧ s.keeps t []
      ∧ t.mem = s.mem)

/-- R64: SRESET of a block whose domain is not on is ignored and recorded with cause 3. Where it acts, here in the windows without
engines of their own, the events and LOCK return to 0, EV_MASK, CTRL and ERRINFO keep their values, and an operation in progress ends
Aborted with cause 2 and OPEND. -/
def Obligations.SresetOfABlock : Prop :=
  (∀ (s : State) (rq : Rq) (w : Nat), s.live = true → winOk w = true → s.domSt (winDom w) ≠ 2 → s.on (F.ERRINFO_VALID w) = false →
    completes (.sreset rq w) s fun t => t.get (F.ERRINFO_CAUSE w) = 3
      ∧ t.get (F.ERRINFO_VALID w) = 1
      ∧ s.keeps t [F.ERRINFO_CAUSE w, F.ERRINFO_RQCLASS w, F.ERRINFO_RQNUM w, F.ERRINFO_OFFSET w, F.ERRINFO_VALID w]
      ∧ t.mem = s.mem) ∧
  (∀ (s : State) (rq : Rq) (w : Nat), w ∈ [W.SYS, W.NVS, W.LIM, 0x08, 0x09, 0x0A, 0x0B, W.APC, W.PINS] → s.winOn w = true →
    completes (.sreset rq w) s fun t => (∀ b ∈ List.range 31, t.ev w b = false)
      ∧ t.on (F.LOCK_OPEN w) = false
      ∧ t.on (F.LOCK_HALF w) = false
      ∧ t.get (F.EV_MASK w) = s.get (F.EV_MASK w)
      ∧ t.get (F.CTRL_ENABLE w) = s.get (F.CTRL_ENABLE w)
      ∧ t.get (F.CTRL_DOMREQ w) = s.get (F.CTRL_DOMREQ w)
      ∧ t.get (F.ERRINFO_VALID w) = s.get (F.ERRINFO_VALID w)
      ∧ t.opSt w = (if s.busy w then 5 else s.opSt w)
      ∧ t.ev w 31 = s.busy w
      ∧ (s.busy w = true → t.get (F.OPSTAT_CAUSE w) = 2)
      ∧ t.mem = s.mem)

/-- R67: a read of OPSTAT answers STATE, CAUSE and PROGRESS and latches OPPART for its requester; ABORT ends a Queued or Running operation
Aborted with cause 1 and OPEND; a Queued operation runs once its resource is free; an error of cause 4 to 15 ends a Running one Failed
with PROGRESS kept; one that completes, here a foreground calibration, ends Done. -/
def Obligations.Operations : Prop :=
  (∀ (s : State) (rq : Rq) (w : Nat) (n : Nat), s.live = true → winOk w = true → (rq.cls = 2 → s.dbgLevel = 2) →
      n ≤ s.get (F.OPSTAT_PROGRESS w) →
    completes (.opstatRead rq w n) s fun t => t.bus.data = (s.opSt w + s.get (F.OPSTAT_CAUSE w) * 16 + s.get (F.OPSTAT_PROGRESS w) * 256) % 2 ^ 32
      ∧ kget t.oppart (rqKey rq * 256 + w) = some (s.get (F.OPPART w))
      ∧ s.keeps t []
      ∧ t.mem = s.mem) ∧
  (∀ (s : State) (rq : Rq) (w : Nat) (n : Nat), w ∈ [W.NVS, 0x08, 0x09, 0x0A, 0x0B, W.MLC, W.MNODE, W.SEC] → s.live = true →
      (rq.cls = 2 → s.dbgLevel = 2) → s.busy w = true → n ≤ s.get (F.OPSTAT_PROGRESS w) →
    completes (.opAbort rq w n) s fun t => t.opSt w = 5
      ∧ t.get (F.OPSTAT_CAUSE w) = 1
      ∧ t.ev w 31 = true
      ∧ s.keeps t [F.OPSTAT_STATE w, F.OPSTAT_CAUSE w, F.EV_RAW w 31]
      ∧ t.mem = s.mem) ∧
  (∀ (s : State) (w : Nat), s.winOn w = true → w ≠ W.RTE → s.opSt w = 1 →
    completes (.opResourceFree w) s fun t => t.opSt w = 2
      ∧ s.keeps t [F.OPSTAT_STATE w]
      ∧ t.mem = s.mem) ∧
  (∀ (s : State) (w : Nat) (e : Nat), s.winOn w = true → s.opSt w = 2 → 4 ≤ e → e ≤ 15 →
    completes (.opEnd w e) s fun t => t.opSt w = 4
      ∧ t.get (F.OPSTAT_CAUSE w) = e
      ∧ t.ev w 31 = true
      ∧ s.keeps t [F.OPSTAT_STATE w, F.OPSTAT_CAUSE w, F.EV_RAW w 31]
      ∧ t.mem = s.mem) ∧
  (∀ (s : State) (r : Nat), r < 4 → s.winOn (W.RFE r) = true → s.opSt (W.RFE r) = 2 → s.get (F.RFE_OPSEL_OP r) = 2 →
    completes (.opEnd (W.RFE r) 0) s fun t => t.opSt (W.RFE r) = 3
      ∧ t.ev (W.RFE r) 31 = true)

/-- R357, R359: a domain whose transition completes is in its new state: entering retention it is retained, powering down it is off,
powering up it is on. A coach that still drains when the time runs out leaves on, with no engine of it holding a wagon. -/
def Obligations.DomainTransitions : Prop :=
  (∀ (s : State) (d : Nat), s.live = true → (d = 2 ∨ d = 6) → s.domSt d = 5 → s.domGoal d = 0 →
    completes (.domainTransitionDone d) s fun t => t.domSt d = 0) ∧
  (∀ (s : State) (d : Nat), s.live = true → (d = 2 ∨ d = 6) → s.domSt d = 4 → s.domGoal d = 1 →
    completes (.domainTransitionDone d) s fun t => t.domSt d = 3) ∧
  (∀ (s : State) (d : Nat), s.live = true → d = 6 → s.domSt d = 1 → s.domGoal d = 2 →
    completes (.domainTransitionDone d) s fun t => t.domSt d = 2
      ∧ t.winOn W.MLD = true) ∧
  (∀ (s : State) (c : Nat), c < 6 → s.drain.contains c = true → s.domSt (8 + c) = 2 →
    completes (.coachDrainTimeout c) s fun t => t.domSt (8 + c) = (if s.domGoal (8 + c) = 1 then 4 else 5)
      ∧ t.drain.contains c = false)

/-- R77, R79, R80, R88: a tick with no slew, step or counter write pending adds the increment in force to the timebase; a slew replaces
the amount still to remove; a step within the limits waits for the next tick, and one refused raises STEPREF; a slew with nothing left
ends with SLEWDONE; PPS_OUT falls after WIDTH. -/
def Obligations.TickAndSlew : Prop :=
  (∀ s : State, s.live = true → s.tm.tick = .run → s.tm.pend = [] → s.tm.slew = 0 →
    completes .timeTick s fun t => t.tm.tb = (s.tm.tb + s.tm.incr) % tbMod
      ∧ t.tm.elapsed = s.tm.elapsed + 4
      ∧ t.tm.incr = s.tm.incr
      ∧ t.tm.slew = 0
      ∧ t.mem = s.mem) ∧
  (∀ (s : State) (rq : Rq) (v : Word), s.winOn W.TIME = true → (rq.cls = 2 → s.dbgLevel = 2) →
    completes (.timeSlewWrite rq v) s fun t => t.tm.slew = sgn 32 v.toNat * 2 ^ 32
      ∧ t.tm.slewing = (sgn 32 v.toNat != 0)
      ∧ t.tm.tb = s.tm.tb
      ∧ s.keeps t []
      ∧ t.mem = s.mem) ∧
  (∀ s : State, s.tm.slewing = true → s.tm.slew = 0 →
    completes .slewEnd s fun t => t.tm.slewing = false
      ∧ t.ev W.TIME E.TIME_SLEWDONE = true
      ∧ t.tm.tb = s.tm.tb
      ∧ s.keeps t [F.EV_RAW W.TIME E.TIME_SLEWDONE]
      ∧ t.mem = s.mem) ∧
  (∀ (s : State) (rq : Rq) (v : Word), s.winOn W.TIME = true → (rq.cls = 2 → s.dbgLevel = 2) → s.anyTile = false → 0 ≤ sgn 32 v.toNat →
    completes (.timeStepWrite rq v) s fun t => t.tm.pend = s.tm.pend ++ [.step (sgn 32 v.toNat)]
      ∧ t.tm.tb = s.tm.tb
      ∧ s.keeps t []
      ∧ t.mem = s.mem) ∧
  (∀ (s : State) (rq : Rq) (v : Word), s.winOn W.TIME = true → (rq.cls = 2 → s.dbgLevel = 2) → s.anyTile = true →
      s.stepMax < (sgn 32 v.toNat).natAbs →
    completes (.timeStepWrite rq v) s fun t => t.ev W.TIME E.TIME_STEPREF = true
      ∧ t.tm = s.tm
      ∧ s.keeps t [F.EV_RAW W.TIME E.TIME_STEPREF]
      ∧ t.mem = s.mem) ∧
  (∀ s : State, s.tm.ppsOut = true → s.tm.ppsEnd ≤ s.tm.mono →
    completes .ppsOutEnd s fun t => t.tm.ppsOut = false
      ∧ t.tm.tb = s.tm.tb
      ∧ s.keeps t []
      ∧ t.mem = s.mem)

/-- R83, R84: REF10_IN judged valid is used when SEL is 1, with REFSWITCH, and its loss returns to the TCXO with REFLOSS. R88: a PPS_IN
edge captures the counter and raises PPSCAP. R101: a window of the sleep counter sets CALVALID. -/
def Obligations.ReferenceAndCapture : Prop :=
  (∀ (s : State) (a : Nat) (b : Nat), s.winOn W.TIME = true → a ≠ 0 → b ≠ 0 → s.on F.TIME_REFCTL_SEL = false →
      s.on F.TIME_REFCTL_ACTIVE = false →
    completes (.ref10Valid a b) s fun t => t.get F.TIME_REFCTL_EXTVALID = 1
      ∧ t.tm.refNum = a
      ∧ t.tm.refDen = b
      ∧ t.tm.incr = s.tm.incr
      ∧ s.keeps t [F.TIME_REFCTL_EXTVALID]
      ∧ t.mem = s.mem) ∧
  (∀ (s : State) (a : Nat) (b : Nat), s.winOn W.TIME = true → a ≠ 0 → b ≠ 0 → s.on F.TIME_REFCTL_SEL = true →
      s.on F.TIME_REFCTL_ACTIVE = false → s.tm.tick = .run →
    completes (.ref10Valid a b) s fun t => t.get F.TIME_REFCTL_ACTIVE = 1
      ∧ t.ev W.TIME E.TIME_REFSWITCH = true
      ∧ s.keeps t [F.TIME_REFCTL_EXTVALID, F.TIME_REFCTL_ACTIVE, F.EV_RAW W.TIME E.TIME_REFSWITCH, F.EV_RAW W.TIME E.TIME_INCRCLAMP]
      ∧ t.mem = s.mem) ∧
  (∀ s : State, s.on F.TIME_REFCTL_EXTVALID = true →
    completes .ref10Loss s fun t => t.get F.TIME_REFCTL_EXTVALID = 0
      ∧ t.get F.TIME_REFCTL_ACTIVE = 0
      ∧ t.ev W.TIME E.TIME_REFLOSS = true
      ∧ (s.on F.TIME_REFCTL_ACTIVE = true → t.ev W.TIME E.TIME_REFSWITCH = true)
      ∧ s.keeps t [F.TIME_REFCTL_EXTVALID, F.TIME_REFCTL_ACTIVE, F.EV_RAW W.TIME E.TIME_REFLOSS, F.EV_RAW W.TIME E.TIME_REFSWITCH, F.EV_RAW W.TIME E.TIME_INCRCLAMP]
      ∧ t.mem = s.mem) ∧
  (∀ s : State, s.winOn W.TIME = true → s.tm.tick ≠ .stopped → s.get F.TIME_SYNCCFG_SRC ≠ 3 →
    completes .ppsInEdge s fun t => t.get F.TIME_PPSNS_NS = tbNsOf s.tm.tb
      ∧ t.get F.TIME_PPSFRAC_FRAC = tbFracOf s.tm.tb
      ∧ t.get F.TIME_PPSSECLO_SEC = tbSecOf s.tm.tb % 2 ^ 32
      ∧ t.ev W.TIME E.TIME_PPSCAP = true
      ∧ s.keeps t [F.TIME_PPSFRAC_FRAC, F.TIME_PPSNS_NS, F.TIME_PPSSECLO_SEC, F.TIME_PPSSECHI_SEC, F.EV_RAW W.TIME E.TIME_PPSCAP]
      ∧ t.mem = s.mem) ∧
  (∀ s : State, s.live = true → s.tm.tick ≠ .stopped →
    completes .sleepCalWindow s fun t => t.on F.TIME_SLPCFG_CALVALID = true
      ∧ t.tm.calAcc = 0
      ∧ t.get F.TIME_SLPPER_FRAC = s.tm.calAcc / 2 ^ 31 % 65536
      ∧ t.tm.tb = s.tm.tb
      ∧ s.keeps t [F.TIME_SLPPER_FRAC, F.TIME_SLPPER_INT, F.TIME_SLPCFG_CALVALID]
      ∧ t.mem = s.mem)

/-- R93, R96, R97: a measurement written while SRC is 1 updates TIME_LASTMEAS, clears the misses and sets TIME_UNC to its magnitude plus
FLOOR, and from Free the state becomes Acquiring; SRC written 0 leads to Free with TIME_UNC all-ones; the third miss in Locked leads to
Coasting. -/
def Obligations.SyncStates : Prop :=
  (∀ (s : State) (rq : Rq) (v : Word), s.winOn W.TIME = true → (rq.cls = 2 → s.dbgLevel = 2) → s.get F.TIME_SYNCCFG_SRC = 1 →
      s.on F.TIME_SYNCCFG_SERVO = false → s.trails = false → s.get F.TIME_STATE_STATE = 0 →
    completes (.timeMeasWrite rq v) s fun t => t.get F.TIME_STATE_STATE = 1
      ∧ t.ev W.TIME E.TIME_STATECHG = true
      ∧ t.getI F.TIME_LASTMEAS_Y = sgn 32 v.toNat
      ∧ t.get F.TIME_STATE_MISSES = 0
      ∧ t.get F.TIME_UNC_UNC = min ((sgn 32 v.toNat).natAbs + s.get F.TIME_UNCCFG_FLOOR) 0xFFFFFFFF
      ∧ t.tm.incr = s.tm.incr
      ∧ s.keeps t [F.TIME_LASTMEAS_Y, F.TIME_MEASCNT_COUNT, F.TIME_MEASCNT_OVF, F.TIME_STATE_MISSES, F.TIME_UNC_UNC, F.TIME_STATE_STATE, F.EV_RAW W.TIME E.TIME_STATECHG, F.EV_RAW W.TIME E.TIME_CNTSAT]
      ∧ t.mem = s.mem) ∧
  (∀ (s : State) (rq : Rq) (v : Word), s.winOn W.TIME = true → (rq.cls = 2 → s.dbgLevel = 2) → s.get F.TIME_SYNCCFG_SRC ≠ 1 →
    completes (.timeMeasWrite rq v) s fun t => t.tm = s.tm
      ∧ s.keeps t []
      ∧ t.mem = s.mem) ∧
  (∀ (s : State) (rq : Rq) (v : Word), s.winOn W.TIME = true → (rq.cls = 2 → s.dbgLevel = 2) → v.toNat % 4 = 0 →
      s.get F.TIME_STATE_STATE ≠ 0 →
    completes (.syncSrcWrite rq v) s fun t => t.get F.TIME_STATE_STATE = 0
      ∧ t.get F.TIME_UNC_UNC = 0xFFFFFFFF
      ∧ t.get F.TIME_SYNCCFG_SRC = 0
      ∧ t.ev W.TIME E.TIME_STATECHG = true
      ∧ t.tm.elapsed = 0
      ∧ s.keeps t [F.TIME_SYNCCFG_SRC, F.TIME_SYNCCFG_SERVO, F.TIME_SYNCCFG_STEPOK, F.TIME_SYNCCFG_KP, F.TIME_SYNCCFG_KI, F.TIME_UNC_UNC, F.TIME_STATE_STATE, F.EV_RAW W.TIME E.TIME_STATECHG]
      ∧ t.mem = s.mem) ∧
  (∀ s : State, s.syncIvl ≤ s.tm.elapsed → s.tm.meas = false → s.trails = false → s.get F.TIME_STATE_STATE = 2 →
      s.get F.TIME_STATE_MISSES = 2 →
    completes .syncIvlBoundary s fun t => t.get F.TIME_STATE_STATE = 3
      ∧ t.get F.TIME_STATE_MISSES = 3
      ∧ t.ev W.TIME E.TIME_COASTING = true
      ∧ t.ev W.TIME E.TIME_STATECHG = true
      ∧ t.tm.elapsed = s.tm.elapsed - s.syncIvl
      ∧ s.keeps t [F.TIME_MISSCNT_COUNT, F.TIME_MISSCNT_OVF, F.TIME_STATE_MISSES, F.TIME_STATE_STATE, F.EV_RAW W.TIME E.TIME_CNTSAT, F.EV_RAW W.TIME E.TIME_COASTING, F.EV_RAW W.TIME E.TIME_STATECHG]
      ∧ t.mem = s.mem) ∧
  (∀ s : State, s.syncIvl ≤ s.tm.elapsed → s.tm.meas = true →
    completes .syncIvlBoundary s fun t => t.tm.meas = false
      ∧ t.tm.elapsed = s.tm.elapsed - s.syncIvl
      ∧ s.keeps t []
      ∧ t.mem = s.mem)

/-- R107: a receive command binds a path in Ready for Rx, here with an entry that serves the frequency; a received packet leads where
AFTERRX says; a release leads to REST; a transition that is done puts the path in its new state. -/
def Obligations.PathStates : Prop :=
  (∀ (s : State) (r : Nat) (p : Nat) (f : Nat) (wd : Nat), s.enabled (W.RFE r) = true → s.pst r p = 2 → (s.path r p).nxt = none →
      (¬(r = 3 ∧ p = 1)) → s.calFind r p f wd ≠ none →
    completes (.pathRxCommand r p true f wd) s fun t => (t.path r p).goal = 3
      ∧ (t.path r p).nxt = some 3
      ∧ (s.calFind r p f wd = some (t.get (F.RFE_PATHSTAT_ENTRY r p)) ∨ (∃ i, s.calFind r p f wd = some i ∧ 256 ≤ i))
      ∧ s.keeps t [F.RFE_PATHSTAT_ENTRY r p, F.RFE_PATHSTAT_TUNING r p]
      ∧ t.mem = s.mem) ∧
  (∀ (s : State) (r : Nat) (p : Nat), s.pst r p = 3 → (¬(r = 3 ∧ p = 0)) → s.get (F.RFE_PATHCFG_AFTERRX r p) = 1 →
    completes (.pathRxEnd r p) s fun t => (t.path r p).goal = 2
      ∧ (t.path r p).nxt = some 2
      ∧ s.keeps t []
      ∧ t.mem = s.mem) ∧
  (∀ (s : State) (r : Nat) (p : Nat), s.pst r p = 3 → r = 3 → p = 0 →
    completes (.pathRxEnd r p) s fun t => t.rfe = s.rfe
      ∧ s.keeps t []
      ∧ t.mem = s.mem) ∧
  (∀ (s : State) (r : Nat) (p : Nat), (s.pst r p = 2 ∨ s.pst r p = 3 ∨ s.pst r p = 4) →
    completes (.pathRelease r p) s fun t => (t.path r p).goal = s.rest r p
      ∧ s.keeps t []
      ∧ t.mem = s.mem) ∧
  (∀ (s : State) (r : Nat) (p : Nat) (st : Nat), (s.path r p).nxt = some st → r = 3 → p < 2 → st ≤ 4 →
    completes (.pathTransitionDone r p) s fun t => t.pst r p = st
      ∧ s.keeps t [F.RFE_PATHSTAT_STATE r p]
      ∧ t.mem = s.mem) ∧
  (∀ (s : State) (r : Nat) (p : Nat), s.on (F.RFE_PATHSTAT_TUNING r p) = true → (¬(r = 3 ∧ p = 0)) →
    completes (.preselRetuneDone r p) s fun t => t.on (F.RFE_PATHSTAT_TUNING r p) = false
      ∧ s.keeps t [F.RFE_PATHSTAT_TUNING r p]
      ∧ t.mem = s.mem)

/-- R110: in Cal or Off a command is refused BUSY and counted; with no valid entry it is refused NOCAL; accepted, it is recorded and the path
is bound for Tx. A refused transmission leaves the path in its state. R107: at the last symbol, with nothing else accepted, AFTERTX
applies. R115: an excess below the cut margin is recorded with MASKVIOL, one of at least the margin stops what the port sends with MASKCUT. -/
def Obligations.TransmitCommands : Prop :=
  (∀ (s : State) (r : Nat) (p : Nat) (c : TxCmd), (s.pst r p = 0 ∨ s.pst r p = 5) → s.get (F.RFE_CNT0_BUSY r) < 32766 →
    completes (.pathTxCommand r p c []) s fun t => (t.path r p).status = 1
      ∧ (t.path r p).txs = (s.path r p).txs
      ∧ t.pst r p = s.pst r p
      ∧ t.get (F.RFE_CNT0_BUSY r) = s.get (F.RFE_CNT0_BUSY r) + 1
      ∧ s.keeps t [F.RFE_CNT0_BUSY r]
      ∧ t.mem = s.mem) ∧
  (∀ (s : State) (r : Nat) (p : Nat) (c : TxCmd), s.enabled (W.RFE r) = true → 1 ≤ s.pst r p → s.pst r p ≤ 4 →
      (s.path r p).nxt ≠ some 0 → s.calFind r p c.freq c.width = none →
    completes (.pathTxCommand r p c []) s fun t => (t.path r p).status = 2
      ∧ (t.path r p).txs = (s.path r p).txs
      ∧ t.pst r p = s.pst r p
      ∧ t.ev (W.RFE r) E.RFE_NOCAL = true
      ∧ s.keeps t [F.RFE_CNT1_NOCAL r, F.RFE_CNT1_NOVF r, F.EV_RAW (W.RFE r) E.RFE_CNTSAT, F.EV_RAW (W.RFE r) E.RFE_NOCAL]
      ∧ t.mem = s.mem) ∧
  (∀ (s : State) (r : Nat) (p : Nat) (c : TxCmd), (s.txCheck r p c).1 = 0 →
    completes (.pathTxCommand r p c []) s fun t => (t.path r p).txs = (s.path r p).txs ++ [(s.txCheck r p c).2]
      ∧ (t.path r p).goal = 4
      ∧ (t.path r p).status = 0
      ∧ s.keeps t [F.RFE_PATHSTAT_TUNING r p, F.RFE_PATHSTAT_ENTRY r p]
      ∧ t.mem = s.mem) ∧
  (∀ (s : State) (r : Nat) (p : Nat) (i : Nat) (c : TxCmd), r = 3 → (s.path r p).txs = [c] → c.id = i → s.pst r p = 4 →
      s.get (F.RFE_PATHCFG_AFTERTX r p) = 1 → s.on (F.RFE_CANCCFG_EN 3) = false → s.mphy.active = [] →
    completes (.pathTxEnd r p i []) s fun t => (t.path r p).txs = []
      ∧ (t.path r p).goal = 2
      ∧ s.keeps t [F.MPHY_CARRSTAT_MT0, F.MPHY_CARRSTAT_MT1, F.MPHY_CARRSTAT_MG]
      ∧ t.mem = s.mem) ∧
  (∀ (s : State) (r : Nat) (q : Nat) (e : Int), (portPath q).1 = r → e ≤ 0 →
    completes (.maskMeasure r q e) s fun t => t.rfe = s.rfe
      ∧ t.mphy = s.mphy
      ∧ t.wl = s.wl
      ∧ s.keeps t []
      ∧ t.mem = s.mem) ∧
  (∀ (s : State) (r : Nat) (q : Nat) (e : Int), (portPath q).1 = r → r < 4 → q < 24 → 0 < e →
      e < (match s.lim.img with | some g => g.cut.getD 12 | none => 12) → e < 2 ^ 15 →
    completes (.maskMeasure r q e) s fun t => t.ev (W.RFE r) E.RFE_MASKVIOL = true
      ∧ t.getI (F.RFE_MASKLAST_EXCESS r) = e
      ∧ t.get (F.RFE_MASKLAST_PORT r) = reflIdx q
      ∧ t.on (F.RFE_MASKLAST_CUT r) = false
      ∧ t.rfe = s.rfe
      ∧ t.mphy = s.mphy
      ∧ t.wl = s.wl
      ∧ s.keeps t [F.RFE_CNT2_MASK r, F.RFE_CNT2_MOVF r, F.EV_RAW (W.RFE r) E.RFE_CNTSAT, F.EV_RAW (W.RFE r) E.RFE_MASKVIOL, F.RFE_MASKLAST_EXCESS r, F.RFE_MASKLAST_PORT r, F.RFE_MASKLAST_CUT r]
      ∧ t.mem = s.mem) ∧
  (∀ (s : State) (r : Nat) (q : Nat) (e : Int), (portPath q).1 = r → r < 4 → q < 24 → 0 < e →
      (match s.lim.img with | some g => g.cut.getD 12 | none => 12) ≤ e → e < 2 ^ 15 →
    completes (.maskMeasure r q e) s fun t => t.ev (W.RFE r) E.RFE_MASKVIOL = true
      ∧ t.ev (W.RFE r) E.RFE_MASKCUT = true
      ∧ t.on (F.RFE_MASKLAST_CUT r) = true
      ∧ (r = 3 → ∀ c ∈ t.mphy.active, c.port ≠ q)
      ∧ (r < 3 → ∀ x ∈ t.wl.tx, x.radio ≠ r))

/-- R107, R111, R112, R113: START of an operation on a path in Off fails with cause 6; a foreground calibration puts its path in Cal and at
its end the path leaves it; a sweep entry done is counted with its index and the last one ends the sweep; a dwell of a survey is counted; a
background step on an entry that is not valid changes nothing; an entry off by more than TEMPSTEP is STALE. -/
def Obligations.CalibrationOperations : Prop :=
  (∀ (s : State) (rq : Rq) (r : Nat), s.winOn (W.RFE r) = true → s.busy (W.RFE r) = false → s.get (F.RFE_OPSEL_OP r) = 0 →
      s.opRange r = true → s.pst r (s.get (F.RFE_OPSEL_PATH r)) = 0 →
    completes (.rfeCalSweep rq r) s fun t => t.opSt (W.RFE r) = 4
      ∧ t.get (F.OPSTAT_CAUSE (W.RFE r)) = 6
      ∧ t.ev (W.RFE r) 31 = true
      ∧ s.keeps t [F.OPSTAT_STATE (W.RFE r), F.OPSTAT_CAUSE (W.RFE r), F.OPSTAT_PROGRESS (W.RFE r), F.OPPART (W.RFE r), F.EV_RAW (W.RFE r) 31]
      ∧ t.mem = s.mem) ∧
  (∀ (s : State) (rq : Rq) (r : Nat), r < 3 → s.winOn (W.RFE r) = true → s.busy (W.RFE r) = false → s.get (F.RFE_OPSEL_OP r) = 0 →
      s.opRange r = true → 1 ≤ s.pst r (s.get (F.RFE_OPSEL_PATH r)) → (s.path r (s.get (F.RFE_OPSEL_PATH r))).fg = true →
    completes (.rfeCalSweep rq r) s fun t => t.opSt (W.RFE r) = 2
      ∧ t.get (F.OPSTAT_PROGRESS (W.RFE r)) = 0
      ∧ t.get (F.OPPART (W.RFE r)) = 0
      ∧ s.keeps t [F.OPSTAT_STATE (W.RFE r), F.OPSTAT_CAUSE (W.RFE r), F.OPSTAT_PROGRESS (W.RFE r), F.OPPART (W.RFE r)]
      ∧ t.mem = s.mem) ∧
  (∀ (s : State) (r : Nat) (m : CalMeas), r < 3 → s.opSt (W.RFE r) = 2 → s.get (F.RFE_OPSEL_OP r) = 0 →
      s.get (F.OPSTAT_PROGRESS (W.RFE r)) + 1 = s.opCount r → s.calFree r (s.get (F.RFE_OPSEL_PATH r)) = true → m.result = 0 →
    completes (.sweepEntryDone r m) s fun t => t.opSt (W.RFE r) = 3
      ∧ t.get (F.OPSTAT_PROGRESS (W.RFE r)) = s.opCount r
      ∧ calValid (t.calW r (s.get (F.RFE_OPSEL_FIRST r) + s.get (F.OPSTAT_PROGRESS (W.RFE r))) 0) = true
      ∧ s.keeps t [F.OPSTAT_STATE (W.RFE r), F.OPSTAT_CAUSE (W.RFE r), F.OPSTAT_PROGRESS (W.RFE r), F.OPPART (W.RFE r), F.EV_RAW (W.RFE r) 31]
      ∧ t.mem = s.mem) ∧
  (∀ (s : State) (rq : Rq) (r : Nat), s.winOn (W.RFE r) = true → s.busy (W.RFE r) = false → s.get (F.RFE_OPSEL_OP r) = 1 →
      s.opRange r = true → s.survOk r = true → s.get (F.RFE_SURVEY_DWELL r) < 10 →
    completes (.rfeSurvey rq r) s fun t => t.opSt (W.RFE r) = 4
      ∧ t.get (F.OPSTAT_CAUSE (W.RFE r)) = 3
      ∧ s.keeps t [F.OPSTAT_STATE (W.RFE r), F.OPSTAT_CAUSE (W.RFE r), F.OPSTAT_PROGRESS (W.RFE r), F.OPPART (W.RFE r), F.EV_RAW (W.RFE r) 31]
      ∧ t.mem = s.mem) ∧
  (∀ (s : State) (rq : Rq) (r : Nat), s.winOn (W.RFE r) = true → s.busy (W.RFE r) = false → s.get (F.RFE_OPSEL_OP r) = 1 →
      s.opRange r = true → s.survOk r = true → 10 ≤ s.get (F.RFE_SURVEY_DWELL r) → r < 3 → 1 ≤ s.pst r 0 → s.ram.ue = [] →
      s.get (F.RFE_SURVADDR_ADDR r) + 4 * s.opCount r ≤ 0x13500000 →
    completes (.rfeSurvey rq r) s fun t => t.opSt (W.RFE r) = 2
      ∧ kget t.rfe.surv r = some (0, 0)) ∧
  (∀ (s : State) (r : Nat) (e : Nat), s.opSt (W.RFE r) = 2 → s.get (F.RFE_OPSEL_OP r) = 1 → kget s.rfe.surv r = some (0, 0) →
      2 ≤ s.opCount r → s.get (F.RFE_SURVADDR_ADDR r) = 0x13000000 →
    completes (.surveyDwellEnd r e true) s fun t => kget t.rfe.surv r = some (1, 0)
      ∧ t.opSt (W.RFE r) = 2
      ∧ t.get (F.OPSTAT_PROGRESS (W.RFE r)) = s.get (F.OPSTAT_PROGRESS (W.RFE r))) ∧
  (∀ (s : State) (r : Nat) (e : Nat), r < 4 → s.opSt (W.RFE r) = 2 → s.get (F.RFE_OPSEL_OP r) = 1 → kget s.rfe.surv r = some (0, 0) →
      2 ≤ s.opCount r → s.get (F.RFE_SURVADDR_ADDR r) = 0x13000000 → s.get (F.OPSTAT_PROGRESS (W.RFE r)) < 2 ^ 23 →
    completes (.surveyDwellEnd r e false) s fun t => kget t.rfe.surv r = some (1, 0)
      ∧ t.opSt (W.RFE r) = 2
      ∧ t.get (F.OPSTAT_PROGRESS (W.RFE r)) = s.get (F.OPSTAT_PROGRESS (W.RFE r)) + 1
      ∧ t.peekN 0x13000000 4 = e % 65536 + min 255 (bitsOf (s.peekN 0x13000000 4) 16 8 + 1) * 65536
      ∧ s.keeps t [F.OPSTAT_PROGRESS (W.RFE r), F.OPPART (W.RFE r)]
      ∧ s.memBut t [(0x13000000, 4)]) ∧
  (∀ (s : State) (rq : Rq) (r : Nat), r < 3 → s.winOn (W.RFE r) = true → s.busy (W.RFE r) = false → s.get (F.RFE_OPSEL_OP r) = 2 →
      s.get (F.RFE_OPSEL_PATH r) = 0 → s.pst r 0 = 1 → s.wl.tx = [] →
    completes (.rfeFgCal rq r) s fun t => t.pst r 0 = 5
      ∧ t.opSt (W.RFE r) = 2
      ∧ (t.path r 0).goal = 5) ∧
  (∀ (s : State) (r : Nat), r < 4 → s.opSt (W.RFE r) = 2 → s.get (F.RFE_OPSEL_OP r) = 2 → s.get (F.RFE_OPSEL_PATH r) < 3 →
    completes (.fgCalEnd r) s fun t => t.opSt (W.RFE r) = 3
      ∧ t.pst r (s.get (F.RFE_OPSEL_PATH r)) = 2
      ∧ (t.path r (s.get (F.RFE_OPSEL_PATH r))).fg = true
      ∧ (t.path r (s.get (F.RFE_OPSEL_PATH r))).goal = s.rest r (s.get (F.RFE_OPSEL_PATH r))
      ∧ s.keeps t [F.OPSTAT_STATE (W.RFE r), F.OPSTAT_CAUSE (W.RFE r), F.OPSTAT_PROGRESS (W.RFE r), F.OPPART (W.RFE r), F.EV_RAW (W.RFE r) 31, F.RFE_PATHSTAT_STATE r (s.get (F.RFE_OPSEL_PATH r))]
      ∧ t.mem = s.mem)

/-- R111, R112, R117, R118: the last background step on a valid stale entry renews it; an entry off by more than TEMPSTEP becomes STALE;
CLEAR sets every tap to 0 and SAVE keeps the taps. -/
def Obligations.CalibrationUpkeep : Prop :=
  (∀ (s : State) (r : Nat) (i : Nat) (m : CalMeas), s.on (F.RFE_BGCAL_EN r) = true → calValid (s.calW r i 0) = true →
      calStale (s.calW r i 0) = true → s.pst r (calPath (s.calW r i 0)) = 2 → s.calFree r (calPath (s.calW r i 0)) = true →
      m.result = 0 → r < 4 → i < 256 →
    completes (.bgCalStep r i true m) s fun t => calValid (t.calW r i 0) = true
      ∧ calStale (t.calW r i 0) = false
      ∧ calFreq (t.calW r i 0) = calFreq (s.calW r i 0)
      ∧ t.calW r i 3 % 4096 = s.get F.PINS_BASETEMP_TEMP
      ∧ s.keeps t []
      ∧ t.mem = s.mem) ∧
  (∀ (s : State) (r : Nat) (i : Nat), calValid (s.calW r i 0) = true → calStale (s.calW r i 0) = false →
      8 * clampN 1 20 (s.get (F.RFE_BGCAL_TEMPSTEP r)) < (s.getI F.PINS_BASETEMP_TEMP - sgn 12 (s.calW r i 3)).natAbs →
    completes (.entryStale r i) s fun t => calStale (t.calW r i 0) = true
      ∧ calValid (t.calW r i 0) = true
      ∧ t.ev (W.RFE r) E.RFE_STALE = true
      ∧ s.keeps t [F.EV_RAW (W.RFE r) E.RFE_STALE]
      ∧ t.mem = s.mem) ∧
  (∀ (s : State) (rq : Rq) (v : Word), s.winOn (W.RFE 3) = true → (rq.cls = 2 → s.dbgLevel = 2) → v.toNat / 4 % 2 = 1 →
      v.toNat / 8 % 2 = 0 →
    completes (.cancClear rq v) s fun t => t.rfe.taps = []
      ∧ (∀ k ∈ List.range 4, t.on (F.RFE_CANCSTAT_CONV 3 k) = false)
      ∧ t.rfe.saved = s.rfe.saved
      ∧ s.keeps t [F.RFE_CANCCFG_EN 3, F.RFE_CANCCFG_HOLD 3, F.RFE_CANCCFG_MIN 3, F.RFE_CANCSTAT_CONV 3 0, F.RFE_CANCSTAT_CONV 3 1, F.RFE_CANCSTAT_CONV 3 2, F.RFE_CANCSTAT_CONV 3 3]
      ∧ t.mem = s.mem) ∧
  (∀ (s : State) (rq : Rq) (v : Word), s.winOn (W.RFE 3) = true → (rq.cls = 2 → s.dbgLevel = 2) → v.toNat / 4 % 2 = 0 →
      v.toNat / 8 % 2 = 1 →
    completes (.cancSave rq v) s fun t => t.rfe.saved = s.rfe.taps
      ∧ t.rfe.taps = s.rfe.taps
      ∧ s.keeps t [F.RFE_CANCCFG_EN 3, F.RFE_CANCCFG_HOLD 3, F.RFE_CANCCFG_MIN 3]
      ∧ t.mem = s.mem)

/-- R119, R120, R121: with EN = 1 COEX_PRIO is sampled at the rise of COEX_REQ_IN and at its own rises while COEX_REQ_IN is high; an external priority above
the hold's ends it with the frame on the air; at LEAD the module holds the band and asks for it; a low COEX_GRANT_IN a microsecond before the launch refuses the transmission, counted with
COEXDENY. -/
def Obligations.CoexistenceWires : Prop :=
  (∀ (s : State) (pr : Bool), s.coexOn = true → s.rfe.coex.hold = none →
    completes (.coexReqInRise pr) s fun t => t.rfe.coex.reqIn = true
      ∧ t.rfe.coex.ext = (if pr then s.get (F.RFE_COEXCFG_PEXTHI 3) else s.get (F.RFE_COEXCFG_PEXTLO 3))
      ∧ t.rfe.coex.hold = s.rfe.coex.hold
      ∧ s.keeps t []
      ∧ t.mem = s.mem) ∧
  (∀ (s : State) (pr : Bool) (n : Nat), s.coexOn = true → s.rfe.coex.hold = some n → n < s.coexExt pr → s.coexOnAir = true →
    completes (.coexReqInRise pr) s fun t => t.rfe.coex.reqIn = true
      ∧ t.rfe.coex.ending = true
      ∧ t.rfe.coex.hold = some n
      ∧ t.rfe.paths = s.rfe.paths
      ∧ s.keeps t []
      ∧ t.mem = s.mem) ∧
  (∀ (s : State) (pr : Bool), s.coexOn = false →
    completes (.coexReqInRise pr) s fun t => t.rfe = s.rfe
      ∧ s.keeps t []
      ∧ t.mem = s.mem) ∧
  (∀ s : State, s.coexOn = true → s.rfe.coex.reqIn = true →
    completes .coexPrioRise s fun t => t.rfe.coex.ext = s.get (F.RFE_COEXCFG_PEXTHI 3)
      ∧ t.rfe.coex.hold = s.rfe.coex.hold
      ∧ s.keeps t []
      ∧ t.mem = s.mem) ∧
  (∀ (s : State) (r : Nat) (p : Nat) (i : Nat) (q : Bool) (c : TxCmd), (s.path r p).txs = [c] → c.id = i → s.coexScope r p = true →
      q = false → s.rfe.coex.ending = false → s.ns ≤ c.at' →
    completes (.coexLead r p i q) s fun t => t.rfe.coex.hold = some (max (s.coexPrio c.act) (s.rfe.coex.hold.getD 0))
      ∧ t.rfe.coex.reqOut = true
      ∧ (t.path r p).txs = (s.path r p).txs
      ∧ s.keeps t []
      ∧ t.mem = s.mem) ∧
  (∀ (s : State) (r : Nat) (p : Nat) (i : Nat) (c : TxCmd), r = 3 → (s.path r p).txs = [c] → c.id = i → s.coexScope r p = true →
      s.ns ≤ c.at' → s.mphy.waiting = [] → s.mphy.active = [] →
    completes (.coexGrantSample r p i false) s fun t => (t.path r p).txs = []
      ∧ (t.path r p).status = 5
      ∧ t.rfe.coex.reqOut = false
      ∧ t.ev (W.RFE 3) E.RFE_COEXDENY = true
      ∧ s.keeps t [F.RFE_CNT2_COEX 3, F.RFE_CNT2_COVF 3, F.EV_RAW (W.RFE 3) E.RFE_CNTSAT, F.EV_RAW (W.RFE 3) E.RFE_COEXDENY, F.EV_RAW W.MPHY E.MPHY_TXREF, F.MPHY_CARRSTAT_MT0, F.MPHY_CARRSTAT_MT1, F.MPHY_CARRSTAT_MG]
      ∧ t.mem = s.mem)

/-- R126, R127, R131, R132, R134: an assignment that passes the checks arms an Idle listener; its window opens and it searches; energy at the
threshold starts the qualifier; a pass leads to Sync with an aerial, a failure back to Search while the window is open; SFDWAIT with no
SFD is FALSEPRE; a window that closes in Search leads to Idle. -/
def Obligations.ListenerSearch : Prop :=
  (∀ (s : State) (l : Nat) (a : Asn), s.asnOk l a = true → (s.lis l).st < 5 → s.mlc.later = [] → s.mlc.tries = [] →
    completes (.listenerAssign l a) s fun t => (t.lis l).st = 1
      ∧ (t.lis l).cur = some a
      ∧ (t.lis l).next = none
      ∧ s.keeps t [F.RFE_CNT1_NOCAL 3, F.RFE_CNT1_NOVF 3, F.EV_RAW 0x13 E.RFE_CNTSAT, F.EV_RAW 0x13 E.RFE_NOCAL, F.RFE_PATHSTAT_ENTRY 3 (lisPath l)]
      ∧ t.mem = s.mem) ∧
  (∀ (s : State) (l : Nat) (a : Asn), s.asnOk l a = true → 5 ≤ (s.lis l).st → s.mlc.later = [] → s.mlc.tries = [] →
    completes (.listenerAssign l a) s fun t => t.lis l = { s.lis l with next := some a }
      ∧ s.keeps t []
      ∧ t.mem = s.mem) ∧
  (∀ (s : State) (l : Nat) (a : Asn), s.asnOk l a = false → s.mlc.later = [] → s.mlc.tries = [] →
    completes (.listenerAssign l a) s fun t => t.lis l = s.lis l
      ∧ t.ev W.MPHY E.MPHY_OUTWIN = true
      ∧ s.keeps t [mkF W.MPHY (0xC0 + 4 * 6) 0 31 0, mkF W.MPHY (0xC0 + 4 * 6) 31 1 0, F.EV_RAW W.MPHY E.MPHY_CNTSAT, F.EV_RAW W.MPHY E.MPHY_OUTWIN]
      ∧ t.mem = s.mem) ∧
  (∀ (s : State) (l : Nat) (a : Asn), (s.lis l).st = 1 → (s.lis l).cur = some a → a.opn ≤ s.ns →
    completes (.listenerWindowOpen l) s fun t => (t.lis l).st = 2
      ∧ (t.lis l).cur = some a
      ∧ (t.lis l).cfg = s.lcfg l
      ∧ s.keeps t []
      ∧ t.mem = s.mem) ∧
  (∀ (s : State) (l : Nat) (e : Int), (s.lis l).st = 2 → s.hears l = true → s.lisThr l ≤ e →
    completes (.energyDetect l e) s fun t => (t.lis l).st = 3
      ∧ (t.lis l).cur = (s.lis l).cur
      ∧ s.keeps t []
      ∧ t.mem = s.mem) ∧
  (∀ (s : State) (l : Nat) (corr : List Nat) (e0 : Int) (e1 : Int) (a : Asn), (s.lis l).st = 3 → (s.lis l).cur = some a →
      s.hears l = true → corr.length = s.get (F.MPHY_QUAL_M (modeFam a.mode)) →
      s.get (F.MPHY_QUAL_N (modeFam a.mode)) ≤ (corr.filter fun v => decide (s.get (F.MPHY_QUAL_QTHR (modeFam a.mode)) ≤ v)).length →
    completes (.qualifierPass l corr (e0, e1)) s fun t => (t.lis l).st = 4
      ∧ (t.lis l).aerial = s.aerial (lisPath l) e0 e1
      ∧ s.keeps t []
      ∧ t.mem = s.mem) ∧
  (∀ (s : State) (l : Nat) (corr : List Nat) (e : Int) (a : Asn), (s.lis l).st = 3 → (s.lis l).cur = some a → (s.lis l).next = none →
      (e < s.lisThr l ∨ (corr.length = s.get (F.MPHY_QUAL_M (modeFam a.mode))
      ∧ (corr.filter fun v => decide (s.get (F.MPHY_QUAL_QTHR (modeFam a.mode)) ≤ v)).length < s.get (F.MPHY_QUAL_N (modeFam a.mode)))) →
      s.ns < a.cls → s.mlc.later = [] → s.mlc.tries = [] →
    completes (.qualifierFail { l := l, corr := corr, e := e }) s fun t => (t.lis l).st = 2
      ∧ (t.lis l).cur = some a
      ∧ s.keeps t []
      ∧ t.mem = s.mem) ∧
  (∀ (s : State) (l : Nat) (corr : List Nat) (e : Int) (b : Asn), (s.lis l).st = 3 → (s.lis l).next = some b → b.opn ≤ s.ns →
      s.ns ≤ b.cls → e < s.lisThr l → s.mlc.later = [] → s.mlc.tries = [] →
    completes (.qualifierFail { l := l, corr := corr, e := e }) s fun t => (t.lis l).st = 2
      ∧ (t.lis l).cur = some b
      ∧ (t.lis l).next = none
      ∧ s.keeps t [F.RFE_CNT1_NOCAL 3, F.RFE_CNT1_NOVF 3, F.EV_RAW 0x13 E.RFE_CNTSAT, F.EV_RAW 0x13 E.RFE_NOCAL, F.RFE_PATHSTAT_ENTRY 3 (lisPath l)]
      ∧ t.mem = s.mem) ∧
  (∀ (s : State) (l : Nat) (u : Nat) (a : Asn), (s.lis l).st = 4 → (s.lis l).cur = some a → (s.lis l).next = none →
      s.get (F.MPHY_QUAL_SFDWAIT (modeFam a.mode)) ≤ u → 1 ≤ u → s.ns < a.cls → s.mlc.later = [] → s.mlc.tries = [] →
    completes (.sfdwaitExpire { l := l, units := u }) s fun t => (t.lis l).st = 2
      ∧ (t.lis l).cur = some a
      ∧ s.keeps t [mkF W.MPHY (0xC0 + 4 * 0) 0 31 0, mkF W.MPHY (0xC0 + 4 * 0) 31 1 0, F.EV_RAW W.MPHY E.MPHY_CNTSAT]
      ∧ t.mem = s.mem) ∧
  (∀ (s : State) (l : Nat) (a : Asn), 2 ≤ (s.lis l).st → (s.lis l).st ≤ 4 → (s.lis l).cur = some a → (s.lis l).next = none →
      a.cls ≤ s.ns → s.mlc.later = [] → s.mlc.tries = [] →
    completes (.listenerWindowClose l) s fun t => (t.lis l).st = 0
      ∧ (t.lis l).cur = none
      ∧ s.keeps t []
      ∧ t.mem = s.mem)

/-- R130, R133, R134: the SFD with no buffer to be had is NOBUF and the listener searches on; a PHR that is accepted leads to Payload; a PHR
that fails its check is PHRFAIL; a stronger preamble by MARGIN captures the listener from Header; the last PSDU octet hands the frame to
MLC and counts RXFRAMES. -/
def Obligations.ListenerFrames : Prop :=
  (∀ (s : State) (l : Nat) (u : Nat) (r : Int) (a : Asn), (s.lis l).st = 4 → (s.lis l).cur = some a → (s.lis l).next = none →
      s.hears l = true → u ≤ s.sfdWait (modeFam a.mode) → s.ns < a.cls → (∀ k ∈ List.range 4, s.bufFree k = 0) → s.mlc.later = [] →
      s.mlc.tries = [] →
    completes (.sfdMatch l u r) s fun t => (t.lis l).st = 2
      ∧ t.ev W.MPHY E.MPHY_NOBUF = true
      ∧ s.keeps t [mkF W.MPHY (0xC0 + 4 * 4) 0 31 0, mkF W.MPHY (0xC0 + 4 * 4) 31 1 0, F.EV_RAW W.MPHY E.MPHY_CNTSAT, F.EV_RAW W.MPHY E.MPHY_NOBUF, mkF W.MEM (0xC0 + 4 * (5 + classFor (psduMax a.mode))) 0 31 0, mkF W.MEM (0xC0 + 4 * (5 + classFor (psduMax a.mode))) 31 1 0, F.EV_RAW W.MEM E.MEM_CNTSAT]
      ∧ t.mem = s.mem) ∧
  (∀ (s : State) (l : Nat) (u : Nat) (r : Int) (a : Asn), (s.lis l).st = 4 → (s.lis l).cur = some a → s.hears l = true →
      u ≤ s.sfdWait (modeFam a.mode) → 0 < s.bufFree (classFor (psduMax a.mode)) →
      kget s.ram.pool (s.bufHandle (classFor (psduMax a.mode)) 0) = none → s.enabled W.YARD = true → s.resvAll < s.slotsFree →
      s.trainRoom (s.origTrain a.tile) = true → s.mlc.later = [] → s.mlc.tries = [] →
    completes (.sfdMatch l u r) s fun t => (t.lis l).st = 5
      ∧ (t.lis l).rssi = r
      ∧ (t.lis l).buf.isSome = true
      ∧ (t.lis l).stamp = s.meshStamp a.mode
      ∧ (t.lis l).trn = s.origTrain a.tile
      ∧ s.keeps t []) ∧
  (∀ (s : State) (l : Nat) (h : Phr) (n : Nat) (f : Bool) (d : Bool) (a : Asn), (s.lis l).st = 5 → (s.lis l).cur = some a →
      s.blanked (lisPath l) = false → phrOk (modeFam a.mode) h = true → psduOk a.mode n = true → s.mlc.later = [] → s.mlc.tries = [] →
    completes (.phrEnd l h n f d) s fun t => (t.lis l).st = 6
      ∧ (t.lis l).len = n
      ∧ (t.lis l).cur = some a
      ∧ (t.lis l).fcslen = (decide (modeFam a.mode = 0) && f)
      ∧ (t.lis l).dw = (decide (modeFam a.mode = 0) && d)
      ∧ s.keeps t []
      ∧ t.mem = s.mem) ∧
  (∀ (s : State) (l : Nat) (h : Phr) (n : Nat) (f : Bool) (d : Bool) (a : Asn), (s.lis l).st = 5 → (s.lis l).cur = some a →
      (s.lis l).next = none → (s.lis l).buf = none → s.blanked (lisPath l) = false → phrOk (modeFam a.mode) h = false → s.ns < a.cls →
      s.mlc.later = [] → s.mlc.tries = [] →
    completes (.phrEnd l h n f d) s fun t => (t.lis l).st = 2
      ∧ s.keeps t [mkF W.MPHY (0xC0 + 4 * 1) 0 31 0, mkF W.MPHY (0xC0 + 4 * 1) 31 1 0, F.EV_RAW W.MPHY E.MPHY_CNTSAT]
      ∧ t.mem = s.mem) ∧
  (∀ (s : State) (l : Nat) (corr : List Nat) (e : Int) (e0 : Int) (e1 : Int) (a : Asn), (s.lis l).st = 5 → (s.lis l).buf = none →
      (s.lis l).cur = some a → s.hears l = true → s.qualified (modeFam a.mode) corr = true → bitsOf (s.lis l).cfg 2 6 ≠ 0 →
      (s.lis l).rssi + 2 * bitsOf (s.lis l).cfg 2 6 ≤ e →
    completes (.strongerPreamble l corr e (e0, e1)) s fun t => (t.lis l).st = 4
      ∧ (t.lis l).rssi = e
      ∧ (t.lis l).cur = (s.lis l).cur
      ∧ s.keeps t [mkF W.MPHY (0xC0 + 4 * 3) 0 31 0, mkF W.MPHY (0xC0 + 4 * 3) 31 1 0, F.EV_RAW W.MPHY E.MPHY_CNTSAT]
      ∧ t.mem = s.mem) ∧
  (∀ (s : State) (l : Nat) (d : List Byte) (rep : RxRep) (a : Asn) (h : Nat), (s.lis l).st = 6 → s.blanked (lisPath l) = false →
      (s.lis l).cur = some a → (s.lis l).buf = some h → (s.lis l).next = none → s.on F.MPHY_EQCFG_ARMED = false → s.ns < a.cls →
      s.get F.MPHY_RXFRAMESLO_COUNT + 1 < 2 ^ 32 → s.get F.MPHY_RXFRAMESHI_COUNT = 0 → s.ram.ue = [] →
      s.on (F.MEM_MIRROR_VALID 0) = false → s.on (F.MEM_MIRROR_VALID 1) = false → s.on (F.MEM_MIRROR_VALID 2) = false →
      s.on (F.MEM_MIRROR_VALID 3) = false → s.mlc.later = [] → s.mlc.tries = [] →
    completes (.psduEnd l d rep []) s fun t => (t.lis l).st = 2
      ∧ t.mphy.handed.map (fun x => (x.lis, x.buf, x.psdu)) = s.mphy.handed.map (fun x => (x.lis,
      x.buf, x.psdu)) ++ [(l, h, d.take (s.lis l).len)]
      ∧ t.get F.MPHY_RXFRAMESLO_COUNT = s.get F.MPHY_RXFRAMESLO_COUNT + 1
      ∧ s.keeps t [F.MPHY_RXFRAMESLO_COUNT])

/-- R109, R124: with no sub-GHz Tile running a commit applies the staged windows at once: WINAPPLIED, or WINREF when they do not fall into two groups.
That a set equal to the one in force retunes nothing is the model's choice (log entry 50).
R137: ARM with a place for the taps arms the export. R140 to R142: a carrier whose PSDU is too short is refused LEN with TXREF; one that
passes the checks of R141 is accepted with its power reduced by the excess; it is active from its launch time, met within 50 ns (R28); one
that a forward step has taken past them does not launch (R15, R82). -/
def Obligations.WindowsAndCarriers : Prop :=
  (∀ (s : State) (rq : Rq) (v : Word), s.winOn W.MPHY = true → (rq.cls = 2 → s.dbgLevel = 2) → v.toNat % 2 = 1 → s.subGhzTile = false →
      groupsOk (s.stagedWin.map fun e => e.2) = true → s.mphy.lis = [] →
    completes (.windowCommit rq v) s fun t => t.mphy.win = s.stagedWin
      ∧ t.ev W.MPHY E.MPHY_WINAPPLIED = true
      ∧ t.on F.MPHY_WINCTL_PENDING = false
      ∧ t.on (F.RFE_PATHSTAT_TUNING 3 0) = (s.on (F.RFE_PATHSTAT_TUNING 3 0) || decide (s.stagedWin ≠ s.mphy.win))
      ∧ s.keeps t [F.MPHY_WINCTL_PENDING, F.EV_RAW W.MPHY E.MPHY_WINAPPLIED, F.RFE_PATHSTAT_TUNING 3 0]
      ∧ t.mem = s.mem) ∧
  (∀ s : State, s.on F.MPHY_WINCTL_PENDING = true → groupsOk (s.stagedWin.map fun e => e.2) = false →
    completes .windowApply s fun t => t.mphy.win = s.mphy.win
      ∧ t.ev W.MPHY E.MPHY_WINREF = true
      ∧ t.on F.MPHY_WINCTL_PENDING = false
      ∧ s.keeps t [F.MPHY_WINCTL_PENDING, F.EV_RAW W.MPHY E.MPHY_WINREF]
      ∧ t.mem = s.mem) ∧
  (∀ s : State, s.on F.MPHY_WINCTL_PENDING = true → groupsOk (s.stagedWin.map fun e => e.2) = true → s.mphy.lis = [] →
    completes .windowApply s fun t => t.mphy.win = s.stagedWin
      ∧ t.ev W.MPHY E.MPHY_WINAPPLIED = true
      ∧ t.on (F.RFE_PATHSTAT_TUNING 3 0) = (s.on (F.RFE_PATHSTAT_TUNING 3 0) || decide (s.stagedWin ≠ s.mphy.win))
      ∧ s.keeps t [F.MPHY_WINCTL_PENDING, F.EV_RAW W.MPHY E.MPHY_WINAPPLIED, F.RFE_PATHSTAT_TUNING 3 0]
      ∧ t.mem = s.mem) ∧
  (∀ (s : State) (rq : Rq) (v : Word), s.winOn W.MPHY = true → (rq.cls = 2 → s.dbgLevel = 2) → v.toNat / 512 % 2 = 1 →
      v.toNat % 512 < 288 → s.get F.MPHY_EQADDR_ADDR % 8 = 0 → 0x13000000 ≤ s.get F.MPHY_EQADDR_ADDR →
      s.get F.MPHY_EQADDR_ADDR + 832 ≤ 0x14000000 →
    completes (.eqArm rq v) s fun t => t.on F.MPHY_EQCFG_ARMED = true
      ∧ t.get F.MPHY_EQCFG_LISTENER = v.toNat % 512
      ∧ s.keeps t [F.MPHY_EQCFG_ARMED, F.MPHY_EQCFG_LISTENER]
      ∧ t.mem = s.mem) ∧
  (∀ (s : State) (c : Carr), s.lentPort c.port = false → s.enabled W.MPHY = true → s.enabled (W.RFE 3) = true →
      s.retired (0x1000 + c.port) = false → psduOk c.mode c.psdu.length = false →
    completes (.carrierRequest c) s fun t => t.mphy.status = 6
      ∧ t.mphy.waiting = s.mphy.waiting
      ∧ t.ev W.MPHY E.MPHY_TXREF = true
      ∧ s.keeps t [mkF W.MPHY (0xC0 + 4 * 8) 0 31 0, mkF W.MPHY (0xC0 + 4 * 8) 31 1 0, F.EV_RAW W.MPHY E.MPHY_CNTSAT, F.EV_RAW W.MPHY E.MPHY_TXREF]
      ∧ t.mem = s.mem) ∧
  (∀ (s : State) (c : Carr) (d : Carr), s.lentPort c.port = false → s.enabled W.MPHY = true → s.enabled (W.RFE 3) = true →
      s.retired (0x1000 + c.port) = false → psduOk c.mode c.psdu.length = true → modeOk c.mode = true →
      (modeFam c.mode = 2 ↔ 22 ≤ c.port) → d = { c with dur := preNs c.mode c.pre + airNs c.mode c.psdu.length } →
      carrFull d (s.portCarr c.port) = false → (s.txCheck 3 (carrPath c.port) (s.carrCmd d)).1 = 0 →
      s.carrExcess d ≤ 4 * s.get F.MPHY_TXCFG_MAXRED →
      s.limCheck { id := c.id, port := c.port, lo := c.freq - s.modeBw c.mode / 2, hi := c.freq + (s.modeBw c.mode + 1) / 2, frm := c.at', til := c.at' + d.dur, ack := decide (c.cls = 1), cls := 0 } = 0 →

    completes (.carrierRequest c) s fun t => t.mphy.status = 0
      ∧ t.mphy.waiting = s.mphy.waiting ++ [{ d with power := c.power - s.carrExcess d }]
      ∧ t.mphy.red = s.carrExcess d
      ∧ t.mphy.active = s.mphy.active
      ∧ t.mem = s.mem) ∧
  (∀ (s : State) (i : Nat) (c : Carr), s.mphy.waiting = [c] → c.id = i → c.at' ≤ s.ns → s.ns ≤ c.at' + 50 → c.port < 22 →
      s.rfe.coex.ending = false → s.mlc.tries = [] →
    completes (.carrierLaunch i) s fun t => t.mphy.waiting = []
      ∧ t.mphy.active = s.mphy.active ++ [c]
      ∧ t.pst 3 1 = 4
      ∧ s.keeps t [F.RFE_PATHSTAT_STATE 3 1, F.MPHY_CARRSTAT_MT0, F.MPHY_CARRSTAT_MT1, F.MPHY_CARRSTAT_MG, F.RFE_REFL_RL 3 (reflIdx c.port), F.RFE_REFL_LOW 3 (reflIdx c.port), F.EV_RAW 0x13 E.RFE_REFLLOW]
      ∧ t.mem = s.mem) ∧
  (∀ (s : State) (i : Nat) (c : Carr), s.mphy.waiting = [c] → c.id = i → c.at' ≤ s.ns → s.ns ≤ c.at' + 50 → 22 ≤ c.port →
      s.rfe.coex.ending = false → s.mlc.tries = [] → s.mphy.lis = [] →
    completes (.carrierLaunch i) s fun t => t.mphy.waiting = []
      ∧ t.mphy.active = s.mphy.active ++ [c]
      ∧ t.pst 3 2 = 4
      ∧ s.keeps t [F.RFE_PATHSTAT_STATE 3 2, F.MPHY_CARRSTAT_MT0, F.MPHY_CARRSTAT_MT1, F.MPHY_CARRSTAT_MG, F.RFE_REFL_RL 3 (reflIdx c.port), F.RFE_REFL_LOW 3 (reflIdx c.port), F.EV_RAW 0x13 E.RFE_REFLLOW]
      ∧ t.mem = s.mem) ∧
  (∀ (s : State) (i : Nat) (c : Carr), s.mphy.waiting = [c] → c.id = i → c.at' + 50 < s.ns → s.mlc.tries = [] →
    completes (.carrierLaunch i) s fun t => t.mphy.waiting = []
      ∧ t.mphy.active = s.mphy.active) ∧
  (∀ (s : State) (i : Nat) (c : Carr), s.mphy.waiting = [c] → c.id = i → s.ns < c.at' →
    completes (.carrierLaunch i) s fun t => t = s
      ∧ t.mem = s.mem)

/-- R145, R146, R150, R159: EN written 1 starts the checks; the first that fails returns EN to 0 with its code and TILEREF; when all pass RUN
rises at the Tile's next edge, with the registers in force from it; EN = 0 to a running Tile takes effect at the next edge, where RUN
falls, and before RUN at once; a slot with no square gives no window and is prepared once. -/
def Obligations.TilesAndSlots : Prop :=
  (∀ (s : State) (rq : Rq) (n : Nat) (v : Word), s.winOn W.MLC = true → (rq.cls = 2 → s.dbgLevel = 2) → n < 8 → v.toNat % 2 = 1 →
      s.on (F.MLC_TILE_CTL_EN n) = false → s.on (F.MLC_TILE_CTL_RUN n) = false →
    completes (.tileEnable rq n v) s fun t => t.on (F.MLC_TILE_CTL_EN n) = true
      ∧ (t.tile n).chk = 1
      ∧ t.on (F.MLC_TILE_CTL_RUN n) = false
      ∧ s.keeps t [F.MLC_TILE_CTL_EN n, F.MLC_TILE_CTL_ACKSEC n, F.MLC_TILE_CTL_ACKKEY n, F.MLC_TILE_CTL_FOLLOW n, F.MLC_TILE_CTL_BAND n]
      ∧ t.mem = s.mem) ∧
  (∀ (s : State) (rq : Rq) (n : Nat) (v : Word), s.winOn W.MLC = true → (rq.cls = 2 → s.dbgLevel = 2) → n < 8 → v.toNat % 2 = 1 →
      s.on (F.MLC_TILE_CTL_EN n) = false → s.on (F.MLC_TILE_CTL_RUN n) = true →
    completes (.tileEnable rq n v) s fun t => (t.tile n).stop = false
      ∧ (t.tile n).chk = (s.tile n).chk
      ∧ t.on (F.MLC_TILE_CTL_RUN n) = true
      ∧ s.keeps t ((F.EV_RAW W.MLC E.MLC_TILEBUSY) :: [F.MLC_TILE_CTL_EN n, F.MLC_TILE_CTL_ACKSEC n, F.MLC_TILE_CTL_ACKKEY n, F.MLC_TILE_CTL_FOLLOW n, F.MLC_TILE_CTL_BAND n])
      ∧ t.mem = s.mem) ∧
  (∀ (s : State) (n : Nat), s.enabled W.MLC = true → s.on (F.MLC_TILE_CTL_EN n) = true → (s.tile n).chk = 1 → s.tileCause n ≠ 0 →
      s.tileCause n ≠ 5 → s.mlc.tries = [] →
    completes (.tileChecksDone n) s fun t => t.on (F.MLC_TILE_CTL_EN n) = false
      ∧ t.get (F.MLC_TILE_CTL_REFCAUSE n) = s.tileCause n
      ∧ t.ev W.MLC E.MLC_TILEREF = true
      ∧ (t.tile n).chk = 0
      ∧ s.keeps t [F.MLC_TILE_CTL_EN n, F.MLC_TILE_CTL_REFCAUSE n, F.EV_RAW W.MLC E.MLC_TILEREF]
      ∧ t.mem = s.mem) ∧
  (∀ (s : State) (n : Nat), s.enabled W.MLC = true → s.on (F.MLC_TILE_CTL_EN n) = true → (s.tile n).chk = 1 → s.tileCause n = 5 →
      s.mlc.tries = [] →
    completes (.tileChecksDone n) s fun t => t.on (F.MLC_TILE_CTL_EN n) = false
      ∧ t.get (F.MLC_TILE_CTL_REFCAUSE n) = 5
      ∧ t.ev W.MLC E.MLC_TILEREF = true
      ∧ (t.tile n).chk = 0) ∧
  (∀ (s : State) (n : Nat), s.enabled W.MLC = true → s.on (F.MLC_TILE_CTL_EN n) = true → (s.tile n).chk = 1 → s.tileCause n = 0 →
      s.on (F.MLC_TILE_CTL_FOLLOW n) = false → s.mlc.tries = [] →
    completes (.tileChecksDone n) s fun t => t.on (F.MLC_TILE_CTL_EN n) = true
      ∧ t.get (F.MLC_TILE_CTL_REFCAUSE n) = 0
      ∧ (t.tile n).chk = 2
      ∧ (t.tile n).be = s.get (F.MLC_TILE_CSMA_MINBE n)
      ∧ (t.tile n).x = max 1 (s.get (F.MLC_TILE_SEED_SEED n))
      ∧ s.keeps t [F.MLC_TILE_CTL_REFCAUSE n]
      ∧ t.mem = s.mem) ∧
  (∀ (s : State) (n : Nat), s.enabled W.MLC = true → s.on (F.MLC_TILE_CTL_EN n) = true → (s.tile n).chk = 1 → s.tileCause n = 0 →
      s.on (F.MLC_TILE_CTL_FOLLOW n) = true →
    completes (.tileChecksDone n) s fun t => t.on (F.MLC_TILE_CTL_ACQ n) = true
      ∧ t.on (F.MLC_TILE_CTL_EN n) = true
      ∧ t.get (F.MLC_TILE_CTL_REFCAUSE n) = 0) ∧
  (∀ (s : State) (n : Nat) (m : Nat), s.enabled W.MLC = true → (s.tile n).chk = 2 → s.on (F.MLC_TILE_CTL_ACQ n) = false →
      (s.on (F.MLC_TILE_CTL_FOLLOW n) = false ∨ s.mlc.plan = []) → (s.tile n).stop = false → s.slotK n = some m →
      (s.tile n).edge ≠ some m → s.band n = 1 → (∀ f ∈ List.range 16, s.on (F.MLC_SFCTL_SWPEND n f) = false) →
    completes (.slotEdge n) s fun t => t.on (F.MLC_TILE_CTL_RUN n) = true
      ∧ (t.tile n).edge = some m
      ∧ (t.tile n).words = s.tileRegs n
      ∧ s.keeps t [F.MLC_TILE_CTL_RUN n, F.MLC_TILE_ASNLO_ASN n, F.MLC_TILE_ASNHI_ASN n]
      ∧ t.mem = s.mem) ∧
  (∀ (s : State) (n : Nat) (m : Nat), s.enabled W.MLC = true → (s.tile n).chk = 2 → s.on (F.MLC_TILE_CTL_ACQ n) = false →
      (s.tile n).stop = true → s.slotK n = some m → (s.tile n).edge ≠ some m → s.band n = 1 → s.mphy.lis = [] →
      (∀ f ∈ List.range 16, s.on (F.MLC_SFCTL_SWPEND n f) = false) →
    completes (.slotEdge n) s fun t => t.on (F.MLC_TILE_CTL_RUN n) = false
      ∧ t.tile n = { s.tile n with chk := 0, stop := false, prep := 0 }
      ∧ s.keeps t [F.MLC_TILE_CTL_RUN n]
      ∧ t.mem = s.mem) ∧
  (∀ (s : State) (n : Nat) (m : Nat), s.enabled W.MLC = true → (s.tile n).chk = 2 → (s.tile n).stop = false →
      s.on (F.MLC_TILE_CTL_ACQ n) = false → s.slotK n = some m → (s.tile n).prep ≤ m + 1 → n < 8 →
      (∀ u ∈ List.range 8, ∀ f ∈ List.range 16, s.on (F.MLC_SFCTL_EN u f) = false) → s.mlc.tries = [] →
    completes (.slotPrepare n) s fun t => (t.tile n).prep = m + 2
      ∧ t.mphy.lis = s.mphy.lis
      ∧ s.keeps t []
      ∧ t.mem = s.mem) ∧
  (∀ (s : State) (rq : Rq) (n : Nat) (v : Word), s.winOn W.MLC = true → (rq.cls = 2 → s.dbgLevel = 2) → n < 8 → v.toNat % 2 = 0 →
      s.on (F.MLC_TILE_CTL_EN n) = true → s.on (F.MLC_TILE_CTL_RUN n) = true →
    completes (.tileDisable rq n v) s fun t => t.on (F.MLC_TILE_CTL_EN n) = false
      ∧ t.on (F.MLC_TILE_CTL_RUN n) = true
      ∧ (t.tile n).stop = true
      ∧ s.keeps t ((F.EV_RAW W.MLC E.MLC_TILEBUSY) :: [F.MLC_TILE_CTL_EN n, F.MLC_TILE_CTL_ACKSEC n, F.MLC_TILE_CTL_ACKKEY n, F.MLC_TILE_CTL_FOLLOW n, F.MLC_TILE_CTL_BAND n])
      ∧ t.mem = s.mem) ∧
  (∀ (s : State) (rq : Rq) (n : Nat) (v : Word), s.winOn W.MLC = true → (rq.cls = 2 → s.dbgLevel = 2) → n < 8 → v.toNat % 2 = 0 →
      s.on (F.MLC_TILE_CTL_EN n) = true → s.on (F.MLC_TILE_CTL_RUN n) = false → s.on (F.MLC_TILE_CTL_ACQ n) = false → s.mlc.later = [] →
    completes (.tileDisable rq n v) s fun t => t.on (F.MLC_TILE_CTL_EN n) = false
      ∧ t.tile n = { s.tile n with chk := 0, stop := false, prep := 0 }
      ∧ s.keeps t ((F.EV_RAW W.MLC E.MLC_TILEBUSY) :: [F.MLC_TILE_CTL_EN n, F.MLC_TILE_CTL_ACKSEC n, F.MLC_TILE_CTL_ACKKEY n, F.MLC_TILE_CTL_FOLLOW n, F.MLC_TILE_CTL_BAND n])
      ∧ t.mem = s.mem)

/-- R147, R149, R151: SWITCH with the Tile stopped makes a bank that passes active at once; with it running, an SWASN less than 2 ahead is
refused with cause 3; an armed SWITCH is TILEBUSY. A write to the board by another requester is discarded with BOARDWR. START of a board
load with a good source and range begins the operation. -/
def Obligations.SlotframesAndBoard : Prop :=
  (∀ (s : State) (rq : Rq) (n : Nat) (f : Nat) (v : Word), s.winOn W.MLC = true → (rq.cls = 2 → s.dbgLevel = 2) → n < 8 → f < 16 →
      v.toNat / 4 % 2 = 1 → v.toNat % 2 = s.get (F.MLC_SFCTL_EN n f) → s.on (F.MLC_SFCTL_SWPEND n f) = false →
      s.on (F.MLC_TILE_CTL_RUN n) = false → s.bankCause n f (1 - s.actBank n f) = 0 →
    completes (.sfSwitch rq n f v) s fun t => t.get (F.MLC_SFCTL_ACTIVE n f) = (1 - s.get (F.MLC_SFCTL_ACTIVE n f)) % 2
      ∧ t.ev W.MLC E.MLC_SFSWITCH = true
      ∧ t.get (F.MLC_SFCTL_CAUSE n f) = 0
      ∧ s.keeps t [F.MLC_SFCTL_ACTIVE n f, F.MLC_SFCTL_SWPEND n f, F.MLC_SFCTL_CAUSE n f, F.EV_RAW W.MLC E.MLC_SFSWITCH]
      ∧ t.mem = s.mem) ∧
  (∀ (s : State) (rq : Rq) (n : Nat) (f : Nat) (v : Word) (m : Nat), s.winOn W.MLC = true → (rq.cls = 2 → s.dbgLevel = 2) → n < 8 →
      f < 16 → v.toNat / 4 % 2 = 1 → v.toNat % 2 = s.get (F.MLC_SFCTL_EN n f) → s.on (F.MLC_SFCTL_SWPEND n f) = false →
      s.on (F.MLC_TILE_CTL_RUN n) = true → s.slotK n = some m → s.asnOf n m + 2 ≤ s.swAsn n f → s.bankCause n f (1 - s.actBank n f) = 0 →
    completes (.sfSwitch rq n f v) s fun t => t.on (F.MLC_SFCTL_SWPEND n f) = true
      ∧ t.get (F.MLC_SFCTL_ACTIVE n f) = s.get (F.MLC_SFCTL_ACTIVE n f)
      ∧ s.keeps t [F.MLC_SFCTL_SWPEND n f]
      ∧ t.mem = s.mem) ∧
  (∀ (s : State) (rq : Rq) (n : Nat) (f : Nat) (v : Word) (m : Nat), s.winOn W.MLC = true → (rq.cls = 2 → s.dbgLevel = 2) → n < 8 →
      f < 16 → v.toNat / 4 % 2 = 1 → v.toNat % 2 = s.get (F.MLC_SFCTL_EN n f) → s.on (F.MLC_SFCTL_SWPEND n f) = false →
      s.on (F.MLC_TILE_CTL_RUN n) = true → s.slotK n = some m → s.swAsn n f < s.asnOf n m + 2 →
    completes (.sfSwitch rq n f v) s fun t => t.on (F.MLC_SFCTL_SWPEND n f) = false
      ∧ t.ev W.MLC E.MLC_SFREF = true
      ∧ t.get (F.MLC_SFCTL_CAUSE n f) = 3
      ∧ s.keeps t [F.MLC_SFCTL_SWPEND n f, F.MLC_SFCTL_CAUSE n f, F.EV_RAW W.MLC E.MLC_SFREF]
      ∧ t.mem = s.mem) ∧
  (∀ (s : State) (rq : Rq) (n : Nat) (f : Nat) (v : Word), s.winOn W.MLC = true → (rq.cls = 2 → s.dbgLevel = 2) → n < 8 → f < 16 →
      v.toNat / 4 % 2 = 1 → v.toNat % 2 = s.get (F.MLC_SFCTL_EN n f) → s.on (F.MLC_SFCTL_SWPEND n f) = true →
    completes (.sfSwitch rq n f v) s fun t => t.ev W.MLC E.MLC_TILEBUSY = true
      ∧ t.mlc = s.mlc
      ∧ s.keeps t [F.EV_RAW W.MLC E.MLC_TILEBUSY]
      ∧ t.mem = s.mem) ∧
  (∀ (s : State) (rq : Rq) (a : Nat) (n : Nat), rq.cls ≠ 3 → inBoard a = true → 0 < n →
    completes (.boardWriteDiscard rq a n) s fun t => t.ev W.MLC E.MLC_BOARDWR = true
      ∧ t.mlc = s.mlc
      ∧ s.keeps t [F.EV_RAW W.MLC E.MLC_BOARDWR]
      ∧ t.mem = s.mem) ∧
  (∀ (s : State) (rq : Rq), s.winOn W.MLC = true → s.busy W.MLC = false → s.loadSrc % 8 = 0 → inSram s.loadSrc = true →
      s.loadSrc + 8 * s.get F.MLC_LOADCOUNT_COUNT ≤ 0x13800000 → 0 < s.get F.MLC_LOADCOUNT_COUNT →
      s.get F.MLC_LOADFIRST_FIRST + s.get F.MLC_LOADCOUNT_COUNT ≤ 1048576 → s.loadHits = false →
    completes (.mlcBoardLoad rq) s fun t => t.opSt W.MLC = 2
      ∧ t.get (F.OPSTAT_PROGRESS W.MLC) = 0
      ∧ s.keeps t [F.OPSTAT_STATE W.MLC, F.OPSTAT_CAUSE W.MLC, F.OPSTAT_PROGRESS W.MLC, F.OPPART W.MLC]
      ∧ t.mem = s.mem)

/-- R155, R156, R159, R163, R166: a transmit square takes the head of its node's queue, a shared square the head of the Tile's shared queue
once its backoff has run down; with no listen before talk asked and the request accepted, the carrier stands for the square's launch time and the
attempt is recorded; an empty queue sends nothing; a beacon square sends the beacon of R163, is silent when MLC sends nothing, and is
refused with BCNREF when the template is empty; a keep-alive is sent with its acknowledgement window, and the end of its square records
d; a frame whose FCS fails is counted and dropped, one whose FCS holds becomes a wagon that waits for MNODE. -/
def Obligations.SquaresAndFrames : Prop :=
  (∀ (s : State) (n : Nat) (i : Nat) (m : Nat) (e : QEnt) (r : List QEnt), s.mlc.plan = [(n, m, i)] → s.mayTx = true →
      (s.square i).kind = 1 → (s.square i).any = false → s.nodeQ (s.square i).node = e :: r → s.trying e.out.handle = false →
      s.lbtOf (s.hopFreq n (s.asnOf n m) (s.square i).choff) = none → (mac154 (s.frame e.out.handle)).ackReq = false →
      ({ s with mlc := { s.mlc with plan := [] } }.meshSend (s.meshPort n (s.hopFreq n (s.asnOf n m) (s.square i).choff) none) (s.hopFreq n (s.asnOf n m) (s.square i).choff) (s.get (F.MLC_TPL3_MODE n (s.square i).tpl)) (s.edgeNs n m + s.get (F.MLC_TPL0_TXOFFSET n (s.square i).tpl) * 1000) 0 (modeFam (s.get (F.MLC_TPL3_MODE n (s.square i).tpl)) != 2) (s.frame e.out.handle) (fun id st => { tile := n, what := 0, q := some e, id := id, stamp := st, lis := none, seq := (mac154 (s.frame e.out.handle)).seq, own := none })).1 = 0 →

    completes (.txSquare n i none) s fun t => t.mlc.plan = []
      ∧ t.mlc.tries = s.mlc.tries ++ [{ tile := n, what := 0, q := some e, id := s.mlc.nextId, stamp := (s.meshDepart (s.get (F.MLC_TPL3_MODE n (s.square i).tpl)) (s.edgeNs n m + s.get (F.MLC_TPL0_TXOFFSET n (s.square i).tpl) * 1000)), lis := none, seq := (mac154 (s.frame e.out.handle)).seq, own := none }]
      ∧ ((t.mphy.waiting ++ t.mlc.lent).any fun c => c.id == s.mlc.nextId && c.port % 24 == s.meshPort n (s.hopFreq n (s.asnOf n m) (s.square i).choff) none && c.freq == s.hopFreq n (s.asnOf n m) (s.square i).choff && c.mode == s.get (F.MLC_TPL3_MODE n (s.square i).tpl) && c.at' == (s.edgeNs n m + s.get (F.MLC_TPL0_TXOFFSET n (s.square i).tpl) * 1000) && c.psdu == (s.frame e.out.handle)) = true
      ∧ t.mem = s.mem) ∧
  (∀ (s : State) (n : Nat) (i : Nat) (m : Nat), s.mlc.plan = [(n, m, i)] → s.mayTx = true → (s.square i).any = true → s.sharedQ n = [] →
    completes (.txSquare n i none) s fun t => t.mlc.plan = []
      ∧ t.mlc.tries = s.mlc.tries
      ∧ t.mphy = s.mphy
      ∧ s.keeps t []
      ∧ t.mem = s.mem) ∧
  (∀ (s : State) (n : Nat) (i : Nat) (m : Nat) (e : QEnt) (r : List QEnt), s.mlc.plan = [(n, m, i)] → s.mayTx = true →
      (s.square i).kind = 2 → s.sharedQ n = e :: r → s.trying e.out.handle = false → 0 < (s.tile n).w →
    completes (.sharedSquare n i none none) s fun t => t.mlc.plan = []
      ∧ (t.tile n).w = (s.tile n).w - 1
      ∧ t.mlc.tries = s.mlc.tries
      ∧ s.keeps t []
      ∧ t.mem = s.mem) ∧
  (∀ (s : State) (n : Nat) (i : Nat) (m : Nat) (e : QEnt) (r : List QEnt), s.mlc.plan = [(n, m, i)] → s.mayTx = true →
      (s.square i).kind = 2 → s.sharedQ n = e :: r → s.trying e.out.handle = false → (s.tile n).w = 0 →
      s.lbtOf (s.hopFreq n (s.asnOf n m) (s.square i).choff) = none → (mac154 (s.frame e.out.handle)).ackReq = false →
      ({ s with mlc := { s.mlc with plan := [] } }.meshSend (s.meshPort n (s.hopFreq n (s.asnOf n m) (s.square i).choff) none) (s.hopFreq n (s.asnOf n m) (s.square i).choff) (s.get (F.MLC_TPL3_MODE n (s.square i).tpl)) (s.edgeNs n m + s.get (F.MLC_TPL0_TXOFFSET n (s.square i).tpl) * 1000) 0 (modeFam (s.get (F.MLC_TPL3_MODE n (s.square i).tpl)) != 2) (s.frame e.out.handle) (fun id st => { tile := n, what := 1, q := some e, id := id, stamp := st, lis := none, seq := (mac154 (s.frame e.out.handle)).seq, own := some (s.square i).lis })).1 = 0 →

    completes (.sharedSquare n i none none) s fun t => t.mlc.plan = []
      ∧ t.mlc.tries = s.mlc.tries ++ [{ tile := n, what := 1, q := some e, id := s.mlc.nextId, stamp := (s.meshDepart (s.get (F.MLC_TPL3_MODE n (s.square i).tpl)) (s.edgeNs n m + s.get (F.MLC_TPL0_TXOFFSET n (s.square i).tpl) * 1000)), lis := none, seq := (mac154 (s.frame e.out.handle)).seq, own := some (s.square i).lis }]
      ∧ ((t.mphy.waiting ++ t.mlc.lent).any fun c => c.id == s.mlc.nextId && c.port % 24 == s.meshPort n (s.hopFreq n (s.asnOf n m) (s.square i).choff) none && c.freq == s.hopFreq n (s.asnOf n m) (s.square i).choff && c.mode == s.get (F.MLC_TPL3_MODE n (s.square i).tpl) && c.at' == (s.edgeNs n m + s.get (F.MLC_TPL0_TXOFFSET n (s.square i).tpl) * 1000) && c.psdu == (s.frame e.out.handle)) = true
      ∧ t.mem = s.mem) ∧
  (∀ (s : State) (n : Nat) (i : Nat) (m : Nat) (e : QEnt) (c : Int), s.mlc.plan = [(n, m, i)] → s.mayTx = true →
      (s.square i).kind = 2 → s.sharedQ n = [e] → s.mn.sq = [(n, [e])] → s.mn.q = [] → s.trying e.out.handle = false →
      (s.tile n).w = 0 → 0 < s.get (F.MLC_TPL4_CCADUR n (s.square i).tpl) → 4 * sgn 8 (s.tv n 14) ≤ c → e.retries + 1 ≤ s.tv n 13 →
    completes (.sharedSquare n i (some c) none) s fun t => t.mlc.tries = s.mlc.tries
      ∧ t.sharedQ n = [{ e with retries := e.retries + 1 }]
      ∧ (t.tile n).be = min ((s.tile n).be + 1) (s.tv n 12)
      ∧ (t.tile n).x = rollX (s.tile n).x
      ∧ (t.tile n).w = rollX (s.tile n).x % 2 ^ min ((s.tile n).be + 1) (s.tv n 12)
      ∧ s.keeps t [mkF W.MLC 0x9C 0 31 0, mkF W.MLC 0x9C 31 1 0, F.EV_RAW W.MLC E.MLC_CNTSAT]
      ∧ t.mem = s.mem) ∧
  (∀ (s : State) (n : Nat) (i : Nat) (m : Nat), s.mlc.plan = [(n, m, i)] → s.mayTx = false → (s.square i).kind = 3 →
    completes (.beaconSquare n i none) s fun t => t.mlc.plan = []
      ∧ t.mlc.tries = s.mlc.tries
      ∧ t.mphy = s.mphy
      ∧ s.keeps t []
      ∧ t.mem = s.mem) ∧
  (∀ (s : State) (n : Nat) (i : Nat) (m : Nat), s.mlc.plan = [(n, m, i)] → s.mayTx = true → (s.square i).kind = 3 →
      s.get F.CPL_STAT_STATE ≠ 2 → 0 < s.tv n 10 → inSram (s.tv n (6 + s.tv n 4)) = true →
      inSram ((s.tv n (6 + s.tv n 4)) + s.tv n 10 - 1) = true →
      (mac154 (s.beacon n (s.asnOf n m) (s.edgeNs n m + s.get (F.MLC_TPL0_TXOFFSET n (s.square i).tpl) * 1000))).secured = false →
      psduOk (s.get (F.MLC_TPL3_MODE n (s.square i).tpl)) (fcsAppend (modeFam (s.get (F.MLC_TPL3_MODE n (s.square i).tpl)) != 2) (s.beacon n (s.asnOf n m) (s.edgeNs n m + s.get (F.MLC_TPL0_TXOFFSET n (s.square i).tpl) * 1000))).length = true →
      s.lbtOf (s.bcnFreq n (s.asnOf n m) (s.square i).choff) = none →
      ({ s with mlc := { s.mlc with plan := [] } }.meshSend (s.meshPort n (s.bcnFreq n (s.asnOf n m) (s.square i).choff) none) (s.bcnFreq n (s.asnOf n m) (s.square i).choff) (s.get (F.MLC_TPL3_MODE n (s.square i).tpl)) (s.edgeNs n m + s.get (F.MLC_TPL0_TXOFFSET n (s.square i).tpl) * 1000) 2 (modeFam (s.get (F.MLC_TPL3_MODE n (s.square i).tpl)) != 2) (fcsAppend (modeFam (s.get (F.MLC_TPL3_MODE n (s.square i).tpl)) != 2) (s.beacon n (s.asnOf n m) (s.edgeNs n m + s.get (F.MLC_TPL0_TXOFFSET n (s.square i).tpl) * 1000))) (fun id st => { tile := n, what := 3, q := none, id := id, stamp := st, lis := none, seq := none, own := none })).1 = 0 →

    completes (.beaconSquare n i none) s fun t => t.mlc.plan = []
      ∧ t.mlc.tries = s.mlc.tries ++ [{ tile := n, what := 3, q := none, id := s.mlc.nextId, stamp := (s.meshDepart (s.get (F.MLC_TPL3_MODE n (s.square i).tpl)) (s.edgeNs n m + s.get (F.MLC_TPL0_TXOFFSET n (s.square i).tpl) * 1000)), lis := none, seq := none, own := none }]
      ∧ ((t.mphy.waiting ++ t.mlc.lent).any fun c => c.id == s.mlc.nextId && c.port % 24 == s.meshPort n (s.bcnFreq n (s.asnOf n m) (s.square i).choff) none && c.freq == s.bcnFreq n (s.asnOf n m) (s.square i).choff && c.mode == s.get (F.MLC_TPL3_MODE n (s.square i).tpl) && c.at' == (s.edgeNs n m + s.get (F.MLC_TPL0_TXOFFSET n (s.square i).tpl) * 1000) && c.psdu == (fcsAppend (modeFam (s.get (F.MLC_TPL3_MODE n (s.square i).tpl)) != 2) (s.beacon n (s.asnOf n m) (s.edgeNs n m + s.get (F.MLC_TPL0_TXOFFSET n (s.square i).tpl) * 1000)))) = true
      ∧ t.mem = s.mem) ∧
  (∀ (s : State) (n : Nat) (i : Nat) (m : Nat), s.mlc.plan = [(n, m, i)] → s.mayTx = true → (s.square i).kind = 3 →
      s.get F.CPL_STAT_STATE ≠ 2 → s.tv n 10 = 0 →
    completes (.beaconSquare n i none) s fun t => t.mlc.plan = []
      ∧ t.mlc.tries = s.mlc.tries
      ∧ t.ev W.MLC E.MLC_BCNREF = true
      ∧ s.keeps t [mkF W.MLC 0xB4 0 31 0, mkF W.MLC 0xB4 31 1 0, F.EV_RAW W.MLC E.MLC_CNTSAT, F.EV_RAW W.MLC E.MLC_BCNREF]
      ∧ t.mem = s.mem) ∧
  (∀ (s : State) (n : Nat) (i : Nat) (b : Int) (a : Int), s.on (F.MLC_TILE_CTL_FOLLOW n) = true → s.get F.TIME_SYNCCFG_SRC ≠ 2 →
      (s.tile n).eb = some b → (s.tile n).ea = some a →
    completes (.keepaliveSquare n i true none) s fun t => t.tm.lastD = roundDiv (b + a) 2
      ∧ (t.tile n).eb = none
      ∧ (t.tile n).ea = none
      ∧ s.keeps t []
      ∧ t.mem = s.mem) ∧
  (∀ (s : State) (n : Nat) (i : Nat) (m : Nat), s.mlc.plan = [(n, m, i)] → s.mayTx = true → (s.square i).kind = 4 →
      s.lbtOf (s.hopFreq n (s.asnOf n m) (s.square i).choff) = none →
      s.asnOk (s.square i).lis (s.ackAsn n m (s.square i) (kaLen (s.get (F.MLC_TPL3_MODE n (s.square i).tpl)))) = true →
      s.asnWaits (s.square i).lis (s.ackAsn n m (s.square i) (kaLen (s.get (F.MLC_TPL3_MODE n (s.square i).tpl)))) = false →
      s.lentPort (s.meshPort n (s.hopFreq n (s.asnOf n m) (s.square i).choff) none) = true →
    completes (.keepaliveSquare n i false none) s fun t => t.mlc.plan = []
      ∧ t.mlc.tries.map (fun r => (r.tile, r.what, r.id, r.lis)) = s.mlc.tries.map (fun r => (r.tile,
      r.what, r.id, r.lis)) ++ [(n, 2, s.mlc.nextId, some (s.square i).lis)]
      ∧ (t.mlc.lent.any fun c => c.id == s.mlc.nextId && c.at' == (s.edgeNs n m + s.get (F.MLC_TPL0_TXOFFSET n (s.square i).tpl) * 1000) && c.freq == s.hopFreq n (s.asnOf n m) (s.square i).choff) = true
      ∧ t.mem = s.mem) ∧
  (∀ (s : State) (l : Nat) (x : Handed), s.mphy.handed = [x] → x.lis = l → s.enabled W.MLC = true → s.mlc.mute = false →
      s.mlc.later = [] → s.mlc.tries = [] → x.mac.fcs = false →
    completes (.mlcFrameCheck l none) s fun t => t.mphy.handed = []
      ∧ t.mn.todo = s.mn.todo
      ∧ t.yard.wagons = s.yard.wagons
      ∧ t.get (mkF W.MLC 0x8C 0 31 0) = min (2 ^ 31 - 1) (s.get (mkF W.MLC 0x8C 0 31 0) + 1)
      ∧ s.keeps t [mkF W.MLC 0x8C 0 31 0, mkF W.MLC 0x8C 31 1 0, F.EV_RAW W.MLC E.MLC_CNTSAT]) ∧
  (∀ (s : State) (l : Nat) (x : Handed), s.mphy.handed = [x] → x.lis = l → x.jd = none → x.asn.square < scanMark →
      (s.square x.asn.square).kind = 0 → s.enabled W.MLC = true → s.mlc.mute = false → s.mlc.later = [] → s.mlc.tries = [] →
      x.mac.fcs = true → x.mac.ackReq = false → s.yard.wagons.length < 65536 → (∀ e ∈ s.yard.wagons, e.1 < 65536) →
    completes (.mlcFrameCheck l none) s fun t => t.mphy.handed = []
      ∧ t.mn.todo.map (fun a => (a.lis, a.tile, a.asn, a.psdu)) = s.mn.todo.map (fun a => (a.lis,
      a.tile, a.asn, a.psdu)) ++ [(l, x.asn.tile, x.asn.asn, x.psdu)]
      ∧ t.yard.wagons.length = s.yard.wagons.length + 1)

/-- R174, R175, R182: ALLOC of an unknown EXT makes a Free record its record or answers NOREC or NOADDR; of an EXT Associated on the Tile it
is EXISTS and changes no record, and on another Tile OTHERTILE; RELEASE and SETKEY write the map entry; READ copies the record; FINDEXT
and FINDSHORT return what they find or NONE; FLUSHQ takes every frame of the node
off its queue; SETSW answers OK. Each ends with CMDDONE. The record chosen is the model's pick among those that are Free
(log entry 5). -/
def Obligations.NodeCommands : Prop :=
  (∀ (s : State) (l : List Nat), s.winOn W.MNODE = true → s.mn.cmd = some (1, l) →
      kget s.mn.idx (l.getD 0 0 + l.getD 1 0 * 2 ^ 32) = none → bitOf (l.getD 2 0) 3 = false → s.ram.ue = [] →
    completes .alloc s fun t => t.mn.cmd = none
      ∧ t.on F.MNODE_CMD_CBUSY = false
      ∧ t.ev W.MNODE E.MNODE_CMDDONE = true
      ∧ (t.get F.MNODE_CMD_RESULT = 0 ∨ t.get F.MNODE_CMD_RESULT = 3 ∨ t.get F.MNODE_CMD_RESULT = 4)
      ∧ (t.get F.MNODE_CMD_RESULT = 0 → kget t.mn.idx (l.getD 0 0 + l.getD 1 0 * 2 ^ 32) = some (t.get F.MNODE_RES_INDEX)
      ∧ s.recState (t.get F.MNODE_RES_INDEX) = 0 ∧ t.mn.used = s.mn.used + 1)
      ∧ (t.get F.MNODE_CMD_RESULT ≠ 0 → t.mn.idx = s.mn.idx ∧ t.mem = s.mem)
      ∧ s.keeps t [F.MNODE_CMD_CBUSY, F.MNODE_CMD_RESULT, F.MNODE_RES_INDEX, F.MNODE_RES_STATE, F.MNODE_RESSHORT_SHORT, F.EV_RAW W.MNODE E.MNODE_CMDDONE]) ∧
  (∀ (s : State) (l : List Nat) (i : Nat) (x : Nat), s.winOn W.MNODE = true → s.mn.cmd = some (1, l) →
      kget s.mn.idx (l.getD 0 0 + l.getD 1 0 * 2 ^ 32) = none → bitOf (l.getD 2 0) 3 = false → s.ram.ue = [] → i < 262144 →
      s.recState i = 0 → s.mn.lost.contains i = false → x < 0xFFFE → s.addrFree (bitsOf (l.getD 2 0) 0 3) x = true →
    completes .alloc s fun t => t.mn.cmd = none
      ∧ t.on F.MNODE_CMD_CBUSY = false
      ∧ t.ev W.MNODE E.MNODE_CMDDONE = true
      ∧ t.get F.MNODE_CMD_RESULT = 0
      ∧ kget t.mn.idx (l.getD 0 0 + l.getD 1 0 * 2 ^ 32) = some (t.get F.MNODE_RES_INDEX)
      ∧ s.recState (t.get F.MNODE_RES_INDEX) = 0
      ∧ s.addrFree (bitsOf (l.getD 2 0) 0 3) (t.get F.MNODE_RESSHORT_SHORT) = true
      ∧ t.mn.used = s.mn.used + 1
      ∧ t.mn.last = kset s.mn.last (bitsOf (l.getD 2 0) 0 3) (t.get F.MNODE_RESSHORT_SHORT)
      ∧ s.keeps t [F.MNODE_CMD_CBUSY, F.MNODE_CMD_RESULT, F.MNODE_RES_INDEX, F.MNODE_RES_STATE, F.MNODE_RESSHORT_SHORT, F.EV_RAW W.MNODE E.MNODE_CMDDONE]) ∧
  (∀ (s : State) (l : List Nat) (i : Nat), s.winOn W.MNODE = true → s.mn.cmd = some (1, l) →
      kget s.mn.idx (l.getD 0 0 + l.getD 1 0 * 2 ^ 32) = some i → s.ram.ue = [] → s.recF i 2 16 3 = bitsOf (l.getD 2 0) 0 3 →
      s.recState i = 1 →
    completes .alloc s fun t => t.mn.cmd = none
      ∧ t.on F.MNODE_CMD_CBUSY = false
      ∧ t.ev W.MNODE E.MNODE_CMDDONE = true
      ∧ t.get F.MNODE_CMD_RESULT = 1
      ∧ t.get F.MNODE_RES_STATE = s.recState i
      ∧ t.get F.MNODE_RESSHORT_SHORT = s.recF i 2 0 16
      ∧ t.mn.idx = s.mn.idx
      ∧ s.keeps t [F.MNODE_CMD_CBUSY, F.MNODE_CMD_RESULT, F.MNODE_RES_INDEX, F.MNODE_RES_STATE, F.MNODE_RESSHORT_SHORT, F.EV_RAW W.MNODE E.MNODE_CMDDONE]
      ∧ t.mem = s.mem) ∧
  (∀ (s : State) (l : List Nat) (i : Nat), s.winOn W.MNODE = true → s.mn.cmd = some (1, l) →
      kget s.mn.idx (l.getD 0 0 + l.getD 1 0 * 2 ^ 32) = some i → s.ram.ue = [] → s.recF i 2 16 3 ≠ bitsOf (l.getD 2 0) 0 3 →
    completes .alloc s fun t => t.mn.cmd = none
      ∧ t.on F.MNODE_CMD_CBUSY = false
      ∧ t.ev W.MNODE E.MNODE_CMDDONE = true
      ∧ t.get F.MNODE_CMD_RESULT = 6
      ∧ t.mn.idx = s.mn.idx
      ∧ s.keeps t [F.MNODE_CMD_CBUSY, F.MNODE_CMD_RESULT, F.MNODE_RES_INDEX, F.MNODE_RES_STATE, F.MNODE_RESSHORT_SHORT, F.EV_RAW W.MNODE E.MNODE_CMDDONE]
      ∧ t.mem = s.mem) ∧
  (∀ (s : State) (l : List Nat) (i : Nat), s.winOn W.MNODE = true → s.mn.cmd = some (2, l) → l.getD 0 0 % 2 ^ 18 = i → s.ram.ue = [] →
      s.mn.lost.contains i = false → s.recState i = 1 → s.nodeQ i = [] →
    completes .release s fun t => t.mn.cmd = none
      ∧ t.on F.MNODE_CMD_CBUSY = false
      ∧ t.ev W.MNODE E.MNODE_CMDDONE = true
      ∧ t.get F.MNODE_CMD_RESULT = 0
      ∧ t.mapE (s.recF i 2 16 3) (s.recF i 2 0 16) = mapWord i (s.recF i 3 16 12) true false
      ∧ t.get F.MNODE_RES_INDEX = i
      ∧ s.keeps t [F.MNODE_CMD_CBUSY, F.MNODE_CMD_RESULT, F.MNODE_RES_INDEX, F.MNODE_RES_STATE, F.MNODE_RESSHORT_SHORT, F.EV_RAW W.MNODE E.MNODE_CMDDONE]
      ∧ s.memBut t [(s.recAddr 0 i, 64), (s.recAddr 1 i, 64), (s.recAddr 0 i + 0x200000000, 64), (s.recAddr 1 i + 0x200000000, 64), (mapAt (s.recF i 2 16 3) (s.recF i 2 0 16), 4), (shadowAt i, 4)]) ∧
  (∀ (s : State) (l : List Nat) (i : Nat), s.winOn W.MNODE = true → s.mn.cmd = some (2, l) → l.getD 0 0 % 2 ^ 18 = i → s.ram.ue = [] →
      s.mn.lost.contains i = false → s.recState i ≠ 1 →
    completes .release s fun t => t.mn.cmd = none
      ∧ t.on F.MNODE_CMD_CBUSY = false
      ∧ t.ev W.MNODE E.MNODE_CMDDONE = true
      ∧ t.get F.MNODE_CMD_RESULT = 5
      ∧ s.keeps t [F.MNODE_CMD_CBUSY, F.MNODE_CMD_RESULT, F.MNODE_RES_INDEX, F.MNODE_RES_STATE, F.MNODE_RESSHORT_SHORT, F.EV_RAW W.MNODE E.MNODE_CMDDONE]
      ∧ t.mem = s.mem) ∧
  (∀ (s : State) (l : List Nat) (i : Nat), s.winOn W.MNODE = true → s.mn.cmd = some (3, l) → l.getD 0 0 % 2 ^ 18 = i → s.ram.ue = [] →
    completes .read s fun t => t.mn.cmd = none
      ∧ t.on F.MNODE_CMD_CBUSY = false
      ∧ t.ev W.MNODE E.MNODE_CMDDONE = true
      ∧ t.get F.MNODE_CMD_RESULT = 0
      ∧ t.get F.MNODE_RES_INDEX = i
      ∧ t.get F.MNODE_RES_STATE = s.recState i
      ∧ t.get F.MNODE_RESSHORT_SHORT = s.recF i 2 0 16
      ∧ (∀ w ∈ List.range 16, t.get (F.MNODE_RDBUF_WORD w) = s.recW i w)
      ∧ s.keeps t ([F.MNODE_CMD_CBUSY, F.MNODE_CMD_RESULT, F.MNODE_RES_INDEX, F.MNODE_RES_STATE, F.MNODE_RESSHORT_SHORT, F.EV_RAW W.MNODE E.MNODE_CMDDONE] ++ (List.range 16).map fun w => F.MNODE_RDBUF_WORD w)
      ∧ t.mem = s.mem) ∧
  (∀ (s : State) (l : List Nat) (i : Nat), s.winOn W.MNODE = true → s.mn.cmd = some (4, l) → l.getD 0 0 % 2 ^ 18 = i → s.ram.ue = [] →
      s.recState i = 1 →
    completes .setkey s fun t => t.mn.cmd = none
      ∧ t.on F.MNODE_CMD_CBUSY = false
      ∧ t.ev W.MNODE E.MNODE_CMDDONE = true
      ∧ t.get F.MNODE_CMD_RESULT = 0
      ∧ t.mapE (s.recF i 2 16 3) (s.recF i 2 0 16) = mapWord i (l.getD 1 0 % 2 ^ 12) false true
      ∧ kget t.mlc.known i = none
      ∧ s.keeps t [F.MNODE_CMD_CBUSY, F.MNODE_CMD_RESULT, F.MNODE_RES_INDEX, F.MNODE_RES_STATE, F.MNODE_RESSHORT_SHORT, F.EV_RAW W.MNODE E.MNODE_CMDDONE]
      ∧ s.memBut t [(s.recAddr 0 i, 64), (s.recAddr 1 i, 64), (s.recAddr 0 i + 0x200000000, 64), (s.recAddr 1 i + 0x200000000, 64), (mapAt (s.recF i 2 16 3) (s.recF i 2 0 16), 4), (shadowAt i, 4)]) ∧
  (∀ (s : State) (l : List Nat) (i : Nat), s.winOn W.MNODE = true → s.mn.cmd = some (5, l) →
      kget s.mn.idx (l.getD 0 0 + l.getD 1 0 * 2 ^ 32) = some i → s.ram.ue = [] → i < 2 ^ 18 →
    completes .findext s fun t => t.mn.cmd = none
      ∧ t.on F.MNODE_CMD_CBUSY = false
      ∧ t.ev W.MNODE E.MNODE_CMDDONE = true
      ∧ t.get F.MNODE_CMD_RESULT = 0
      ∧ t.get F.MNODE_RES_INDEX = i
      ∧ t.get F.MNODE_RES_STATE = s.recState i
      ∧ t.get F.MNODE_RESSHORT_SHORT = s.recF i 2 0 16
      ∧ s.keeps t [F.MNODE_CMD_CBUSY, F.MNODE_CMD_RESULT, F.MNODE_RES_INDEX, F.MNODE_RES_STATE, F.MNODE_RESSHORT_SHORT, F.EV_RAW W.MNODE E.MNODE_CMDDONE]
      ∧ t.mem = s.mem) ∧
  (∀ (s : State) (l : List Nat), s.winOn W.MNODE = true → s.mn.cmd = some (5, l) →
      kget s.mn.idx (l.getD 0 0 + l.getD 1 0 * 2 ^ 32) = none →
    completes .findext s fun t => t.mn.cmd = none
      ∧ t.on F.MNODE_CMD_CBUSY = false
      ∧ t.ev W.MNODE E.MNODE_CMDDONE = true
      ∧ t.get F.MNODE_CMD_RESULT = 7
      ∧ s.keeps t [F.MNODE_CMD_CBUSY, F.MNODE_CMD_RESULT, F.MNODE_RES_INDEX, F.MNODE_RES_STATE, F.MNODE_RESSHORT_SHORT, F.EV_RAW W.MNODE E.MNODE_CMDDONE]
      ∧ t.mem = s.mem) ∧
  (∀ (s : State) (l : List Nat) (i : Nat) (x : Nat), s.winOn W.MNODE = true → s.mn.cmd = some (6, l) →
      s.mapE (bitsOf (l.getD 0 0) 16 3) (l.getD 0 0 % 65536) = x → bitsOf x 30 2 ≠ 0 → x % 2 ^ 18 = i → s.ram.ue = [] →
    completes .findshort s fun t => t.mn.cmd = none
      ∧ t.on F.MNODE_CMD_CBUSY = false
      ∧ t.ev W.MNODE E.MNODE_CMDDONE = true
      ∧ t.get F.MNODE_CMD_RESULT = 0
      ∧ t.get F.MNODE_RES_INDEX = i
      ∧ t.get F.MNODE_RES_STATE = s.recState i
      ∧ t.get F.MNODE_RESSHORT_SHORT = s.recF i 2 0 16
      ∧ s.keeps t [F.MNODE_CMD_CBUSY, F.MNODE_CMD_RESULT, F.MNODE_RES_INDEX, F.MNODE_RES_STATE, F.MNODE_RESSHORT_SHORT, F.EV_RAW W.MNODE E.MNODE_CMDDONE]
      ∧ t.mem = s.mem) ∧
  (∀ (s : State) (l : List Nat), s.winOn W.MNODE = true → s.mn.cmd = some (6, l) →
      bitsOf (s.mapE (bitsOf (l.getD 0 0) 16 3) (l.getD 0 0 % 65536)) 30 2 = 0 →
    completes .findshort s fun t => t.mn.cmd = none
      ∧ t.on F.MNODE_CMD_CBUSY = false
      ∧ t.ev W.MNODE E.MNODE_CMDDONE = true
      ∧ t.get F.MNODE_CMD_RESULT = 7
      ∧ s.keeps t [F.MNODE_CMD_CBUSY, F.MNODE_CMD_RESULT, F.MNODE_RES_INDEX, F.MNODE_RES_STATE, F.MNODE_RESSHORT_SHORT, F.EV_RAW W.MNODE E.MNODE_CMDDONE]
      ∧ t.mem = s.mem) ∧
  (∀ (s : State) (l : List Nat) (i : Nat), s.winOn W.MNODE = true → s.mn.cmd = some (7, l) → l.getD 0 0 % 2 ^ 18 = i → s.ram.ue = [] →
      s.nodeQ i = [] →
    completes .flushq s fun t => t.mn.cmd = none
      ∧ t.on F.MNODE_CMD_CBUSY = false
      ∧ t.ev W.MNODE E.MNODE_CMDDONE = true
      ∧ t.get F.MNODE_CMD_RESULT = 0
      ∧ t.get F.MNODE_RES_INDEX = i
      ∧ t.get F.MNODE_RES_STATE = s.recState i
      ∧ t.get F.MNODE_RESSHORT_SHORT = s.recF i 2 0 16
      ∧ s.keeps t [F.MNODE_CMD_CBUSY, F.MNODE_CMD_RESULT, F.MNODE_RES_INDEX, F.MNODE_RES_STATE, F.MNODE_RESSHORT_SHORT, F.EV_RAW W.MNODE E.MNODE_CMDDONE]
      ∧ t.mem = s.mem) ∧
  (∀ (s : State) (l : List Nat) (i : Nat) (e : QEnt), s.winOn W.MNODE = true → s.mn.cmd = some (7, l) → l.getD 0 0 % 2 ^ 18 = i →
      s.ram.ue = [] → s.mn.q = [(i, [e])] → s.mn.sq = [] → e.out.compl = false →
    completes .flushq s fun t => t.mn.cmd = none
      ∧ t.on F.MNODE_CMD_CBUSY = false
      ∧ t.ev W.MNODE E.MNODE_CMDDONE = true
      ∧ t.get F.MNODE_CMD_RESULT = 0
      ∧ t.mn.q = []
      ∧ kget t.mlc.pend i = none
      ∧ t.get F.MNODE_RES_INDEX = i
      ∧ s.keeps t [F.MNODE_CMD_CBUSY, F.MNODE_CMD_RESULT, F.MNODE_RES_INDEX, F.MNODE_RES_STATE, F.MNODE_RESSHORT_SHORT, F.EV_RAW W.MNODE E.MNODE_CMDDONE, mkF W.MNODE 0x128 0 31 0, mkF W.MNODE 0x128 31 1 0, F.EV_RAW W.MNODE E.MNODE_CNTSAT]
      ∧ s.memBut t [(s.recAddr 0 i, 64), (s.recAddr 1 i, 64), (s.recAddr 0 i + 0x200000000, 64), (s.recAddr 1 i + 0x200000000, 64)]) ∧
  (∀ (s : State) (l : List Nat) (i : Nat), s.winOn W.MNODE = true → s.mn.cmd = some (8, l) → l.getD 0 0 % 2 ^ 18 = i → s.ram.ue = [] →
      l.getD 1 0 < 2 ^ 32 → s.tbl 0 + 2 ^ 24 ≤ s.tbl 1 → s.tbl 1 + 2 ^ 24 ≤ 0x8400000000 → inDram (s.tbl 0) = true →
      s.mirrorOf (s.recAddr 0 i + 56) = none → s.mirrorOf (s.recAddr 1 i + 56) = none →
    completes .setsw s fun t => t.mn.cmd = none
      ∧ t.on F.MNODE_CMD_CBUSY = false
      ∧ t.ev W.MNODE E.MNODE_CMDDONE = true
      ∧ t.get F.MNODE_CMD_RESULT = 0
      ∧ t.peekN (s.recAddr 0 i + 60) 4 = l.getD 1 0
      ∧ t.peekN (s.recAddr 1 i + 60) 4 = l.getD 1 0
      ∧ s.keeps t [F.MNODE_CMD_CBUSY, F.MNODE_CMD_RESULT, F.MNODE_RES_INDEX, F.MNODE_RES_STATE, F.MNODE_RESSHORT_SHORT, F.EV_RAW W.MNODE E.MNODE_CMDDONE]
      ∧ s.memBut t [(s.recAddr 0 i, 64), (s.recAddr 1 i, 64)])

/-- R170, R175, R177, R190: when HOLDOFF has passed a Held record becomes Free, is forgotten under its EXT and leaves no map entry to its name; a frame older
than TTL is removed and counted QEXPIRE, and a younger one stays; a frame to judge is judged once, and its verdict counted: that of its source, or NEW
for a frame of a known record that is not of class P and carries no sequence number; a write to the map by another requester is discarded with MAPWR. -/
def Obligations.NodeUpkeep : Prop :=
  (∀ (s : State) (i : Nat), s.winOn W.MNODE = true → s.recState i = 2 →
      s.get F.MNODE_ADDRCFG_HOLDOFF ≤ (s.sec + 2 ^ 32 - s.recW i 12) % 2 ^ 32 → s.ram.ue = [] → s.mn.lost.contains i = false →
      s.tbl 0 + 2 ^ 24 ≤ s.tbl 1 → s.tbl 1 + 2 ^ 24 ≤ 0x8400000000 → inDram (s.tbl 0) = true → i < 262144 →
    completes (.holdoffExpire i) s fun t => kget t.mn.idx (s.recW i 0 + s.recW i 1 * 2 ^ 32) = none
      ∧ t.mn.used = s.mn.used - 1
      ∧ t.mapE (s.recF i 2 16 3) (s.recF i 2 0 16) = 0
      ∧ s.keeps t []) ∧
  (∀ (s : State) (i : Nat), s.ram.ue = [] → (s.sec + 2 ^ 32 - s.recW i 12) % 2 ^ 32 < s.get F.MNODE_ADDRCFG_HOLDOFF →
    completes (.holdoffExpire i) s fun t => t.mn.idx = s.mn.idx
      ∧ t.mn.used = s.mn.used
      ∧ s.keeps t []
      ∧ t.mem = s.mem) ∧
  (∀ (s : State) (i : Nat) (x : Nat) (e : QEnt), s.mn.q = [(x, [e])] → s.mn.sq = [] → e.out.handle = i → e.out.compl = false →
      s.get F.MNODE_DLCFG_TTL ≠ 0 → e.since + s.get F.MNODE_DLCFG_TTL * 1000000000 ≤ s.ns →
      s.get (mkF W.MNODE 0x124 0 31 0) < 2 ^ 31 - 1 → s.ram.ue = [] →
    completes (.downlinkExpire i) s fun t => t.mn.q = []
      ∧ t.get (mkF W.MNODE 0x124 0 31 0) = s.get (mkF W.MNODE 0x124 0 31 0) + 1
      ∧ kget t.mlc.pend x = none
      ∧ s.keeps t [mkF W.MNODE 0x124 0 31 0]) ∧
  (∀ (s : State) (i : Nat) (e : QEnt), s.qFind i = some e → (s.ns < e.since + s.get F.MNODE_DLCFG_TTL * 1000000000
      ∨ s.get F.MNODE_DLCFG_TTL = 0) →
    completes (.downlinkExpire i) s fun t => t = s
      ∧ t.mem = s.mem) ∧
  (∀ (s : State) (a : Attr) (x : Nat), s.mn.todo = [a] → s.mphy.handed = [] → s.enabled W.MNODE = true → s.ram.ue = [] →
      (s.findRec a.tile (mac154 a.psdu)).2 = x → x ≠ 0 →
    completes .frameAttribute s fun t => t.mn.todo = []
      ∧ t.get (mkF W.MNODE (0x100 + 4 * x) 0 31 0) = min (2 ^ 31 - 1) (s.get (mkF W.MNODE (0x100 + 4 * x) 0 31 0) + 1)
      ∧ t.mem = s.mem) ∧
  (∀ (s : State) (a : Attr) (i : Nat), s.mn.todo = [a] → s.mphy.handed = [] → s.enabled W.MNODE = true → s.ram.ue = [] →
      s.findRec a.tile (mac154 a.psdu) = (i, 0) → s.mn.lost.contains i = false → s.classP (mac154 a.psdu) = false →
      (mac154 a.psdu).seq = none →
    completes .frameAttribute s fun t => t.mn.todo = []
      ∧ t.get (mkF W.MNODE 0x100 0 31 0) = min (2 ^ 31 - 1) (s.get (mkF W.MNODE 0x100 0 31 0) + 1)) ∧
  (∀ (s : State) (rq : Rq) (i : Nat) (x : Nat), rq.cls ≠ 3 → inMap i = true → 0 < x →
    completes (.mapWriteDiscard rq i x) s fun t => t.ev W.MNODE E.MNODE_MAPWR = true
      ∧ t.mn = s.mn
      ∧ s.keeps t [F.EV_RAW W.MNODE E.MNODE_MAPWR]
      ∧ t.mem = s.mem)

/-- R191: modes 0 and 1 start while Tiles run; mode 2 needs an image aligned to 64 octets in DRAM, else it fails with cause 3, and every
Tile disabled, else with cause 9; when it starts the queues are emptied. -/
def Obligations.NodeRebuilds : Prop :=
  (∀ (s : State) (rq : Rq), s.winOn W.MNODE = true → s.busy W.MNODE = false → s.get F.MNODE_REBCFG_MODE = 0 →
    completes (.rebuildCopy0 rq) s fun t => t.opSt W.MNODE = 2
      ∧ t.get (F.OPSTAT_PROGRESS W.MNODE) = 0
      ∧ t.get (F.OPSTAT_CAUSE W.MNODE) = 0
      ∧ t.mn = s.mn
      ∧ s.keeps t [F.OPSTAT_STATE W.MNODE, F.OPSTAT_CAUSE W.MNODE, F.OPSTAT_PROGRESS W.MNODE, F.OPPART W.MNODE]
      ∧ t.mem = s.mem) ∧
  (∀ (s : State) (rq : Rq), s.winOn W.MNODE = true → s.busy W.MNODE = false → s.get F.MNODE_REBCFG_MODE = 1 →
    completes (.rebuildCopy1 rq) s fun t => t.opSt W.MNODE = 2
      ∧ t.get (F.OPSTAT_PROGRESS W.MNODE) = 0
      ∧ t.get (F.OPSTAT_CAUSE W.MNODE) = 0
      ∧ t.mn = s.mn
      ∧ s.keeps t [F.OPSTAT_STATE W.MNODE, F.OPSTAT_CAUSE W.MNODE, F.OPSTAT_PROGRESS W.MNODE, F.OPPART W.MNODE]
      ∧ t.mem = s.mem) ∧
  (∀ (s : State) (rq : Rq), s.winOn W.MNODE = true → s.busy W.MNODE = false → s.get F.MNODE_REBCFG_MODE = 2 → s.rebSrc % 64 = 0 →
      inDram s.rebSrc = true → s.rebSrc + 64 * 262144 ≤ 0x8400000000 → (∀ n ∈ List.range 8, s.on (F.MLC_TILE_CTL_EN n) = false) →
      s.mn.q = [] → s.mn.sq = [] →
    completes (.rebuildRestore rq) s fun t => t.opSt W.MNODE = 2
      ∧ t.get (F.OPSTAT_PROGRESS W.MNODE) = 0
      ∧ t.get (F.OPSTAT_CAUSE W.MNODE) = 0
      ∧ t.mn = s.mn
      ∧ s.keeps t [F.OPSTAT_STATE W.MNODE, F.OPSTAT_CAUSE W.MNODE, F.OPSTAT_PROGRESS W.MNODE, F.OPPART W.MNODE]
      ∧ t.mem = s.mem) ∧
  (∀ (s : State) (rq : Rq) (n : Nat), s.winOn W.MNODE = true → s.busy W.MNODE = false → s.get F.MNODE_REBCFG_MODE = 2 →
      s.rebSrc % 64 = 0 → inDram s.rebSrc = true → s.rebSrc + 64 * 262144 ≤ 0x8400000000 → n < 8 → s.on (F.MLC_TILE_CTL_EN n) = true →
    completes (.rebuildRestore rq) s fun t => t.opSt W.MNODE = 4
      ∧ t.get (F.OPSTAT_CAUSE W.MNODE) = 9
      ∧ t.mn = s.mn
      ∧ t.ev W.MNODE 31 = true
      ∧ s.keeps t [F.OPSTAT_STATE W.MNODE, F.OPSTAT_CAUSE W.MNODE, F.OPSTAT_PROGRESS W.MNODE, F.OPPART W.MNODE, F.EV_RAW W.MNODE 31]
      ∧ t.mem = s.mem) ∧
  (∀ (s : State) (rq : Rq), s.winOn W.MNODE = true → s.busy W.MNODE = false → s.get F.MNODE_REBCFG_MODE = 2 → s.rebSrc % 64 ≠ 0 →
    completes (.rebuildRestore rq) s fun t => t.opSt W.MNODE = 4
      ∧ t.get (F.OPSTAT_CAUSE W.MNODE) = 3
      ∧ s.keeps t [F.OPSTAT_STATE W.MNODE, F.OPSTAT_CAUSE W.MNODE, F.OPSTAT_PROGRESS W.MNODE, F.OPPART W.MNODE, F.EV_RAW W.MNODE 31]
      ∧ t.mem = s.mem)

/-- R202, R203: an L-STF at the threshold starts Train; an L-LTF confirmed leads to LSig and its timeout to Search; a valid L-SIG holds CCA for
its duration, and one invalid is LSIGFAIL; a SIG that fails or is outside the features of R196 is SIGFAIL and a valid one not for this radio
goes to Search, CCA held; a
PPDU for this radio with a buffer and a slot leads to Data, with no buffer to Search with NOBUF; the last PSDU symbol leads to Search, and an MPDU whose FCS holds has become a wagon (R210, R237); a
preamble stronger by MARGIN restarts Train. -/
def Obligations.WlanReceiver : Prop :=
  (∀ (s : State) (r : Nat) (p : Int), s.wrxRuns r = true → (s.wrx r).st = 0 → s.pdThr r ≤ p →
    completes (.wlanLstfDetect r p) s fun t => (t.wrx r).st = 1
      ∧ (t.wrx r).power = p
      ∧ (t.wrx r).cap = s.now16
      ∧ s.keeps t []
      ∧ t.mem = s.mem) ∧
  (∀ (s : State) (r : Nat) (p : Int), p < s.pdThr r →
    completes (.wlanLstfDetect r p) s fun t => t = s
      ∧ t.mem = s.mem) ∧
  (∀ (s : State) (r : Nat), s.wrxRuns r = true → (s.wrx r).st = 1 →
    completes (.wlanLltfConfirm r) s fun t => (t.wrx r).st = 2
      ∧ s.keeps t []
      ∧ t.mem = s.mem) ∧
  (∀ (s : State) (r : Nat), (s.wrx r).st = 1 →
    completes (.wlanLltfTimeout r) s fun t => (t.wrx r).st = 0
      ∧ (t.wrx r).cca = (s.wrx r).cca
      ∧ s.keeps t []
      ∧ t.mem = s.mem) ∧
  (∀ (s : State) (r : Nat) (d : Nat) (n : Nat), (s.wrx r).st = 2 →
    completes (.wlanLsigEnd r true false d n) s fun t => (t.wrx r).st = 3
      ∧ (t.wrx r).cca = s.ns + d
      ∧ s.keeps t []
      ∧ t.mem = s.mem) ∧
  (∀ (s : State) (r : Nat) (h : Bool) (d : Nat) (n : Nat), (s.wrx r).st = 2 →
    completes (.wlanLsigEnd r false h d n) s fun t => (t.wrx r).st = 0
      ∧ (t.wrx r).cca = (s.wrx r).cca
      ∧ s.keeps t [mkF (W.WPHY r) 128 0 31 0, mkF (W.WPHY r) 128 31 1 0, F.EV_RAW (W.WPHY r) E.WPHY_CNTSAT]
      ∧ t.mem = s.mem) ∧
  (∀ (s : State) (r : Nat) (f : Nat) (g : Sig) (m : Bool) (b : Bool) (d : Nat) (n : Nat), (s.wrx r).st = 3 →
      (g.ok = false ∨ featOk r f g = false) →
    completes (.wlanSigEnd r f g m b d n) s fun t => (t.wrx r).st = 0
      ∧ (t.wrx r).cca = (s.wrx r).cca
      ∧ s.keeps t [mkF (W.WPHY r) 132 0 31 0, mkF (W.WPHY r) 132 31 1 0, F.EV_RAW (W.WPHY r) E.WPHY_CNTSAT]
      ∧ t.mem = s.mem) ∧
  (∀ (s : State) (r : Nat) (f : Nat) (g : Sig) (b : Bool) (d : Nat) (n : Nat), (s.wrx r).st = 3 → g.ok = true → featOk r f g = true →
      wRxFmt r f = true → d ≤ 5484000 →
    completes (.wlanSigEnd r f g false b d n) s fun t => (t.wrx r).st = 0
      ∧ (t.wrx r).cca = (s.wrx r).cca
      ∧ s.keeps t []
      ∧ t.mem = s.mem) ∧
  (∀ (s : State) (r : Nat) (f : Nat) (g : Sig) (d : Nat) (n : Nat), (s.wrx r).st = 3 → g.ok = true → featOk r f g = true →
      wRxFmt r f = true → d ≤ 5484000 → 0 < s.bufFree (classFor n) → kget s.ram.pool (s.bufHandle (classFor n) 0) = none →
      s.enabled W.YARD = true → s.resvAll < s.slotsFree → s.trainRoom (s.origTrain (8 + r)) = true →
    completes (.wlanSigEnd r f g true true d n) s fun t => (t.wrx r).st = 4
      ∧ (t.wrx r).fmt = f
      ∧ (t.wrx r).buf.isSome = true
      ∧ (t.wrx r).trn = s.origTrain (8 + r)
      ∧ s.keeps t []) ∧
  (∀ (s : State) (r : Nat) (f : Nat) (g : Sig) (d : Nat) (n : Nat), (s.wrx r).st = 3 → g.ok = true → featOk r f g = true →
      wRxFmt r f = true → d ≤ 5484000 → (∀ k ∈ List.range 4, s.bufFree k = 0) →
    completes (.wlanSigEnd r f g true true d n) s fun t => (t.wrx r).st = 0
      ∧ t.ev (W.WPHY r) E.WPHY_NOBUF = true
      ∧ s.keeps t [mkF (W.WPHY r) 144 0 31 0, mkF (W.WPHY r) 144 31 1 0, F.EV_RAW (W.WPHY r) E.WPHY_CNTSAT, F.EV_RAW (W.WPHY r) E.WPHY_NOBUF, mkF W.MEM (0xC0 + 4 * (5 + classFor n)) 0 31 0, mkF W.MEM (0xC0 + 4 * (5 + classFor n)) 31 1 0, F.EV_RAW W.MEM E.MEM_CNTSAT]
      ∧ t.mem = s.mem) ∧
  (∀ (s : State) (r : Nat) (h : Nat), (s.wrx r).st = 4 → (s.wrx r).buf = some h → s.bufAimed h = false →
    completes (.wlanPsduEnd r [] [] none) s fun t => (t.wrx r).st = 0
      ∧ kget t.ram.pool h = none
      ∧ (t.wrx r).cca = (s.wrx r).cca
      ∧ s.keeps t []
      ∧ t.mem = s.mem) ∧
  (∀ (s : State) (r : Nat) (h : Nat) (d : List Byte) (q : WRep), (s.wrx r).st = 4 → (s.wrx r).buf = some h →
      s.resvFits h d.length = true → 14 ≤ d.length → d.length ≤ (fmtMax (s.wrx r).fmt).1 → mpduOk d = true →
      bitOf (d.getD 1 0).toNat 6 = false → s.yard.wagons.length < 65536 → (∀ e ∈ s.yard.wagons, e.1 < 65536) →
    completes (.wlanPsduEnd r [{ data := d, agg := false, rep := q, bsr := [] }] [] none) s fun t => (t.wrx r).st = 0
      ∧ (t.wrx r).cca = (s.wrx r).cca
      ∧ t.yard.wagons.length = s.yard.wagons.length + 1) ∧
  (∀ (s : State) (r : Nat) (p : Int) (h : Nat), (s.wrx r).st = 4 → (s.wrx r).tb = false → (s.wrx r).buf = some h →
      s.get (F.WPHY_RXCFG_MARGIN r) ≠ 0 → (s.wrx r).power + 2 * s.get (F.WPHY_RXCFG_MARGIN r) ≤ p →
      s.on (F.WPHY_RXCFG_RESTARTSPAN r) = true → s.bufAimed h = false →
    completes (.wlanRestart r p) s fun t => (t.wrx r).st = 1
      ∧ (t.wrx r).power = p
      ∧ (t.wrx r).buf = none
      ∧ kget t.ram.pool h = none
      ∧ s.keeps t [mkF (W.WPHY r) 136 0 31 0, mkF (W.WPHY r) 136 31 1 0, F.EV_RAW (W.WPHY r) E.WPHY_CNTSAT]
      ∧ t.mem = s.mem) ∧
  (∀ (s : State) (r : Nat) (p : Int), (s.wrx r).st = 2 → p < (s.wrx r).power + 2 * s.get (F.WPHY_RXCFG_MARGIN r) →
    completes (.wlanRestart r p) s fun t => t = s
      ∧ t.mem = s.mem)

/-- R201, R205, R212: a valid grant whose expiry has come loses VALID, sets EXPIRED and raises GRANTEXP; ARM with room for the worst case sets
ARMED, and with none is recorded with cause 5; COMMIT with a primary or width not of the radio is refused with cause 1; when the checks
pass PENDING is 1, and the channel takes effect when the radio is idle, with CHAPPLIED, its entry in force and a retune where the entry's
code differs (R109). Which of two channels that hold a primary is taken is the model's choice (log entry 61). -/
def Obligations.GrantsAndChannels : Prop :=
  (∀ (s : State) (i : Nat), bitOf (s.grantW i 0) 16 = true → s.grantEnd i ≤ s.sec →
    completes (.grantExpire i) s fun t => bitOf (t.grantW i 0) 16 = false
      ∧ bitOf (t.grantW i 0) 17 = true
      ∧ t.grantW i 0 % 65536 = s.grantW i 0 % 65536
      ∧ t.grantW i 2 = s.grantW i 2
      ∧ t.ev (W.WPHY 2) E.WPHY_GRANTEXP = true
      ∧ s.keeps t [F.EV_RAW (W.WPHY 2) E.WPHY_GRANTEXP]
      ∧ t.mem = s.mem) ∧
  (∀ (s : State) (i : Nat), s.sec < s.grantEnd i →
    completes (.grantExpire i) s fun t => t = s
      ∧ t.mem = s.mem) ∧
  (∀ (s : State) (rq : Rq) (r : Nat) (v : Word), r < 3 → s.winOn (W.WPHY r) = true → (rq.cls = 2 → s.dbgLevel = 2) →
      v.toNat / 2 ^ 14 % 2 = 1 → v.toNat / 2 ^ 12 % 4 = 2 → 0x13000000 ≤ s.get (F.WPHY_EQADDR_ADDR r) →
      s.get (F.WPHY_EQADDR_ADDR r) % 8 = 0 → s.get (F.WPHY_EQADDR_ADDR r) + 127488 ≤ 0x14000000 →
    completes (.wlanEqArm rq r v) s fun t => t.on (F.WPHY_EQCFG_ARMED r) = true
      ∧ t.get (F.WPHY_EQCFG_AID r) = v.toNat % 4096
      ∧ s.keeps t [F.WPHY_EQCFG_ARMED r, F.WPHY_EQCFG_AID r, F.WPHY_EQCFG_NG r]
      ∧ t.mem = s.mem) ∧
  (∀ (s : State) (rq : Rq) (r : Nat) (v : Word), r < 3 → s.winOn (W.WPHY r) = true → (rq.cls = 2 → s.dbgLevel = 2) →
      v.toNat / 2 ^ 14 % 2 = 1 → s.get (F.WPHY_EQADDR_ADDR r) < 0x13000000 → s.on (F.ERRINFO_VALID (W.WPHY r)) = false →
    completes (.wlanEqArm rq r v) s fun t => t.get (F.WPHY_EQCFG_ARMED r) = s.get (F.WPHY_EQCFG_ARMED r)
      ∧ t.get (F.ERRINFO_CAUSE (W.WPHY r)) = 5
      ∧ t.get (F.ERRINFO_VALID (W.WPHY r)) = 1
      ∧ t.mem = s.mem) ∧
  (∀ (s : State) (rq : Rq) (r : Nat) (v : Word), r < 3 → s.winOn (W.WPHY r) = true → (rq.cls = 2 → s.dbgLevel = 2) → v.toNat % 2 = 1 →
      chanOk r (s.get (F.WPHY_CHANSTAGE_PRIMARY r)) (s.get (F.WPHY_CHANSTAGE_WIDTH r)) = false →
    completes (.channelCommit rq r v) s fun t => t.get (F.WPHY_CHANCTL_CAUSE r) = 1
      ∧ t.on (F.WPHY_CHANCTL_PENDING r) = false
      ∧ t.ev (W.WPHY r) E.WPHY_CHREF = true
      ∧ t.wl = s.wl
      ∧ s.keeps t [F.WPHY_CHANCTL_PENDING r, F.WPHY_CHANCTL_CAUSE r, F.EV_RAW (W.WPHY r) E.WPHY_CHREF]
      ∧ t.mem = s.mem) ∧
  (∀ (s : State) (rq : Rq) (r : Nat) (v : Word), r < 3 → s.winOn (W.WPHY r) = true → (rq.cls = 2 → s.dbgLevel = 2) → v.toNat % 2 = 1 →
      chanOk r (s.get (F.WPHY_CHANSTAGE_PRIMARY r)) (s.get (F.WPHY_CHANSTAGE_WIDTH r)) = true →
      s.get (F.WPHY_CHANSTAGE_DISSUB r) = 0 → s.lim.img = none →
      (s.calFind r 0 (chanKHz r (s.stageN r)) (s.get (F.WPHY_CHANSTAGE_WIDTH r))).isSome = true →
    completes (.channelCommit rq r v) s fun t => t.get (F.WPHY_CHANCTL_CAUSE r) = 0
      ∧ t.on (F.WPHY_CHANCTL_PENDING r) = true
      ∧ kget t.wl.stage r = some (s.chanStage r + s.stageN r * 2 ^ 32)
      ∧ t.get (F.WPHY_CHANCUR_CHAN r) = s.get (F.WPHY_CHANCUR_CHAN r)
      ∧ s.keeps t [F.WPHY_CHANCTL_PENDING r, F.WPHY_CHANCTL_CAUSE r]
      ∧ t.mem = s.mem) ∧
  (∀ (s : State) (r : Nat) (x : Nat) (i : Nat), r < 3 → s.on (F.WPHY_CHANCTL_PENDING r) = true → s.winOn (W.WPHY r) = true →
      (s.wmac r).hold ≤ s.ns → (s.wrx r).st = 0 → (s.path r 0).txs = [] → kget s.wl.stage r = some x →
      s.calFind r 0 (chanKHz r (x / 2 ^ 32)) (bitsOf (x % 2 ^ 32) 8 3) = some i →
    completes (.channelApply r) s fun t => t.get (F.WPHY_CHANCUR_CHAN r) = x % 2 ^ 32
      ∧ t.chanN r = x / 2 ^ 32
      ∧ t.on (F.WPHY_CHANCTL_PENDING r) = false
      ∧ t.get (F.RFE_PATHSTAT_ENTRY r 0) = i
      ∧ t.on (F.RFE_PATHSTAT_TUNING r 0) = (s.on (F.RFE_PATHSTAT_TUNING r 0) || s.retunes r 0 0 i)
      ∧ t.ev (W.WPHY r) E.WPHY_CHAPPLIED = true
      ∧ s.keeps t [F.WPHY_CHANCTL_PENDING r, F.WPHY_CHANCUR_CHAN r, F.RFE_PATHSTAT_TUNING r 0, F.RFE_PATHSTAT_ENTRY r 0, F.EV_RAW (W.WPHY r) E.WPHY_CHAPPLIED]
      ∧ t.mem = s.mem)

/-- R216: ADD of a new address and AID makes an entry on its link and returns its index; an address or AID in use is EXISTS; an AID of 0 is
BADARG; DEL removes the entry or answers NONE; SETLINK adds a link of an MLD, and one already set is BADARG; SETMAP stores a map that gives
every TID a link; FLUSH takes the entry's frames off its queues. Each ends with CMDDONE. The index ADD takes is the model's pick among the free ones (log entry 5). -/
def Obligations.StationCommands : Prop :=
  (∀ (s : State) (l : List Nat), s.winOn W.MLD = true → s.wl.cmd = some (1, l) → 0 < bitsOf (l.getD 1 0) 16 11 →
      bitsOf (l.getD 1 0) 16 11 ≤ 2006 → bitsOf (l.getD 2 0) 0 2 ≠ 3 → s.wl.sta = [] →
    completes .staAdd s fun t => t.wl.cmd = none
      ∧ t.on F.MLD_STACMD_CBUSY = false
      ∧ t.ev W.MLD E.MLD_CMDDONE = true
      ∧ t.get F.MLD_STACMD_RESULT = 0
      ∧ (∃ y ∈ t.wl.sta, y.1 = t.get F.MLD_STACMD_INDEX ∧ y.2.addr = l.getD 0 0 + l.getD 1 0 % 65536 * 2 ^ 32
      ∧ y.2.aid = bitsOf (l.getD 1 0) 16 11 ∧ y.2.links = [(bitsOf (l.getD 2 0) 0 2, (y.2.addr, bitsOf (l.getD 2 0) 2 4))])
      ∧ t.wl.sta.length = 1
      ∧ s.keeps t [F.MLD_STACMD_CBUSY, F.MLD_STACMD_RESULT, F.MLD_STACMD_INDEX, F.EV_RAW W.MLD E.MLD_CMDDONE]
      ∧ t.mem = s.mem) ∧
  (∀ (s : State) (l : List Nat) (i : Nat) (x : StaS), s.winOn W.MLD = true → s.wl.cmd = some (1, l) → 0 < bitsOf (l.getD 1 0) 16 11 →
      bitsOf (l.getD 1 0) 16 11 ≤ 2006 → bitsOf (l.getD 2 0) 0 2 ≠ 3 → (i, x) ∈ s.wl.sta → x.aid = bitsOf (l.getD 1 0) 16 11 →
    completes .staAdd s fun t => t.wl.cmd = none
      ∧ t.on F.MLD_STACMD_CBUSY = false
      ∧ t.ev W.MLD E.MLD_CMDDONE = true
      ∧ t.get F.MLD_STACMD_RESULT = 1
      ∧ t.wl.sta = s.wl.sta
      ∧ s.keeps t [F.MLD_STACMD_CBUSY, F.MLD_STACMD_RESULT, F.MLD_STACMD_INDEX, F.EV_RAW W.MLD E.MLD_CMDDONE]
      ∧ t.mem = s.mem) ∧
  (∀ (s : State) (l : List Nat), s.winOn W.MLD = true → s.wl.cmd = some (1, l) → bitsOf (l.getD 1 0) 16 11 = 0 →
    completes .staAdd s fun t => t.wl.cmd = none
      ∧ t.on F.MLD_STACMD_CBUSY = false
      ∧ t.ev W.MLD E.MLD_CMDDONE = true
      ∧ t.get F.MLD_STACMD_RESULT = 5
      ∧ t.wl.sta = s.wl.sta
      ∧ s.keeps t [F.MLD_STACMD_CBUSY, F.MLD_STACMD_RESULT, F.MLD_STACMD_INDEX, F.EV_RAW W.MLD E.MLD_CMDDONE]
      ∧ t.mem = s.mem) ∧
  (∀ (s : State) (l : List Nat) (x : StaS), s.winOn W.MLD = true → s.wl.cmd = some (2, l) →
      kget s.wl.sta (l.getD 0 0 % 1024) = some x → s.wl.q = [] → s.wl.timed = [] → s.wl.twt = [] →
    completes .staDel s fun t => t.wl.cmd = none
      ∧ t.on F.MLD_STACMD_CBUSY = false
      ∧ t.ev W.MLD E.MLD_CMDDONE = true
      ∧ t.get F.MLD_STACMD_RESULT = 0
      ∧ kget t.wl.sta (l.getD 0 0 % 1024) = none
      ∧ s.keeps t [F.MLD_STACMD_CBUSY, F.MLD_STACMD_RESULT, F.MLD_STACMD_INDEX, F.EV_RAW W.MLD E.MLD_CMDDONE]
      ∧ t.mem = s.mem) ∧
  (∀ (s : State) (l : List Nat), s.winOn W.MLD = true → s.wl.cmd = some (2, l) → kget s.wl.sta (l.getD 0 0 % 1024) = none →
    completes .staDel s fun t => t.wl.cmd = none
      ∧ t.on F.MLD_STACMD_CBUSY = false
      ∧ t.ev W.MLD E.MLD_CMDDONE = true
      ∧ t.get F.MLD_STACMD_RESULT = 7
      ∧ t.wl.sta = s.wl.sta
      ∧ s.keeps t [F.MLD_STACMD_CBUSY, F.MLD_STACMD_RESULT, F.MLD_STACMD_INDEX, F.EV_RAW W.MLD E.MLD_CMDDONE]
      ∧ t.mem = s.mem) ∧
  (∀ (s : State) (l : List Nat) (x : StaS), s.winOn W.MLD = true → s.wl.cmd = some (3, l) →
      kget s.wl.sta (l.getD 0 0 % 1024) = some x → x.mld = true → bitsOf (l.getD 2 0) 16 2 ≠ 3 →
      kget x.links (bitsOf (l.getD 2 0) 16 2) = none → s.linksOf (bitsOf (l.getD 2 0) 16 2) < 512 →
    completes .staSetlink s fun t => t.wl.cmd = none
      ∧ t.on F.MLD_STACMD_CBUSY = false
      ∧ t.ev W.MLD E.MLD_CMDDONE = true
      ∧ t.get F.MLD_STACMD_RESULT = 0
      ∧ (kget t.wl.sta (l.getD 0 0 % 1024)).map (fun y => y.links) = some (kset x.links (bitsOf (l.getD 2 0) 16 2) (l.getD 1 0 + l.getD 2 0 % 65536 * 2 ^ 32, bitsOf (l.getD 2 0) 18 4))
      ∧ s.keeps t [F.MLD_STACMD_CBUSY, F.MLD_STACMD_RESULT, F.MLD_STACMD_INDEX, F.EV_RAW W.MLD E.MLD_CMDDONE]
      ∧ t.mem = s.mem) ∧
  (∀ (s : State) (l : List Nat) (x : StaS), s.winOn W.MLD = true → s.wl.cmd = some (3, l) →
      kget s.wl.sta (l.getD 0 0 % 1024) = some x → (kget x.links (bitsOf (l.getD 2 0) 16 2)).isSome = true →
    completes .staSetlink s fun t => t.wl.cmd = none
      ∧ t.on F.MLD_STACMD_CBUSY = false
      ∧ t.ev W.MLD E.MLD_CMDDONE = true
      ∧ t.get F.MLD_STACMD_RESULT = 5
      ∧ t.wl.sta = s.wl.sta
      ∧ s.keeps t [F.MLD_STACMD_CBUSY, F.MLD_STACMD_RESULT, F.MLD_STACMD_INDEX, F.EV_RAW W.MLD E.MLD_CMDDONE]
      ∧ t.mem = s.mem) ∧
  (∀ (s : State) (l : List Nat) (x : StaS), s.winOn W.MLD = true → s.wl.cmd = some (4, l) →
      kget s.wl.sta (l.getD 0 0 % 1024) = some x → (∀ n ∈ List.range 8,
      ∃ r ∈ List.range 3, bitOf (l.getD 1 0 % 2 ^ 24) (3 * n + r) = true ∧ (kget x.links r).isSome = true) →
    completes .staSetmap s fun t => t.wl.cmd = none
      ∧ t.on F.MLD_STACMD_CBUSY = false
      ∧ t.ev W.MLD E.MLD_CMDDONE = true
      ∧ t.get F.MLD_STACMD_RESULT = 0
      ∧ (kget t.wl.sta (l.getD 0 0 % 1024)).map (fun y => y.map) = some (some (l.getD 1 0 % 2 ^ 24))
      ∧ s.keeps t [F.MLD_STACMD_CBUSY, F.MLD_STACMD_RESULT, F.MLD_STACMD_INDEX, F.EV_RAW W.MLD E.MLD_CMDDONE]
      ∧ t.mem = s.mem) ∧
  (∀ (s : State) (l : List Nat) (n : Nat) (e : WEnt), s.winOn W.MLD = true → s.wl.cmd = some (5, l) →
      s.wl.q = [(16 * (l.getD 0 0 % 1024) + n, [e])] → n < 16 → s.wl.grp = [] → e.out.compl = false →
    completes .staFlush s fun t => t.wl.cmd = none
      ∧ t.on F.MLD_STACMD_CBUSY = false
      ∧ t.ev W.MLD E.MLD_CMDDONE = true
      ∧ t.get F.MLD_STACMD_RESULT = 0
      ∧ t.wl.q = []
      ∧ t.wl.sta = s.wl.sta
      ∧ s.keeps t [F.MLD_STACMD_CBUSY, F.MLD_STACMD_RESULT, F.MLD_STACMD_INDEX, F.EV_RAW W.MLD E.MLD_CMDDONE, mkF W.MLD 0x10C 0 31 0, mkF W.MLD 0x10C 31 1 0, F.EV_RAW W.MLD E.MLD_CNTSAT]
      ∧ t.mem = s.mem) ∧
  (∀ (s : State) (l : List Nat), s.winOn W.MLD = true → s.wl.cmd = some (5, l) → s.wl.q = [] →
    completes .staFlush s fun t => t.wl.cmd = none
      ∧ t.on F.MLD_STACMD_CBUSY = false
      ∧ t.ev W.MLD E.MLD_CMDDONE = true
      ∧ t.get F.MLD_STACMD_RESULT = 0
      ∧ t.wl.sta = s.wl.sta
      ∧ s.keeps t [F.MLD_STACMD_CBUSY, F.MLD_STACMD_RESULT, F.MLD_STACMD_INDEX, F.EV_RAW W.MLD E.MLD_CMDDONE]
      ∧ t.mem = s.mem)

/-- R218, R219, R227 to R229: a write of the epoch keeps the epoch in force until the next microsecond boundary; at a TBTT the beacon
waits for the medium, and is given to the path when it has been idle for AIFSN 1 and the PPDU is accepted; a frame older than TTL is dropped EXPIRED; VALID = 1 sets the first service period at
least 1 ms ahead, or is recorded when the agreement is bad; a service period starts and ends at its times. -/
def Obligations.WlanTimeAndTwt : Prop :=
  (∀ (s : State) (rq : Rq) (v : Word), s.winOn W.MLD = true → (rq.cls = 2 → s.dbgLevel = 2) →
    completes (.tsfEpochWrite rq 0 v) s fun t => t.get F.MLD_TSFEPOCHLO_NS = v.toNat
      ∧ t.epochNow = s.epochNow
      ∧ t.wl.epochFrom = s.tm.mono + (1000 - s.ns % 1000)
      ∧ s.keeps t [F.MLD_TSFEPOCHLO_NS]
      ∧ t.mem = s.mem) ∧
  (∀ (s : State) (rq : Rq) (v : Word), s.winOn W.MLD = true → (rq.cls = 2 → s.dbgLevel = 2) →
    completes (.tsfEpochWrite rq 1 v) s fun t => t.get F.MLD_TSFEPOCHHI_SEC = v.toNat
      ∧ t.epochNow = s.epochNow
      ∧ t.wl.epochFrom = s.tm.mono + (1000 - s.ns % 1000)
      ∧ s.keeps t [F.MLD_TSFEPOCHHI_SEC]
      ∧ t.mem = s.mem) ∧
  (∀ (s : State) (rq : Rq) (v : Word), s.winOn W.MLD = true → (rq.cls = 2 → s.dbgLevel = 2) →
    completes (.tsfEpochWrite rq 2 v) s fun t => t.get F.MLD_TSFEPOCHSECHI_SEC = v.toNat % 65536
      ∧ t.epochNow = s.epochNow
      ∧ t.wl.epochFrom = s.tm.mono + (1000 - s.ns % 1000)
      ∧ s.keeps t [F.MLD_TSFEPOCHSECHI_SEC]
      ∧ t.mem = s.mem) ∧
  (∀ (s : State) (r : Nat) (n : Nat), r < 3 → n < 16 → s.enabled (W.WMAC r) = true → s.pwr.capState = 0 →
      s.on (F.WMAC_BSSCTL_EN r n) = true → s.tsf % (max 1 (s.get (F.WMAC_BSSCTL_BI r n)) * 1024) = 0 →
      s.ns < (s.wmacAt r s.ns).busy + aifs r 1 → (s.wmac r).bcn.contains n = false →
    completes (.tbtt r n) s fun t => (t.wmac r).bcn = (s.wmac r).bcn ++ [n]
      ∧ t.wl.tx = s.wl.tx
      ∧ s.keeps t []
      ∧ t.mem = s.mem) ∧
  (∀ (s : State) (r : Nat) (n : Nat), r < 3 → n < 16 → s.enabled (W.WMAC r) = true → s.pwr.capState = 0 →
      s.on (F.WMAC_BSSCTL_EN r n) = true → s.tsf % (max 1 (s.get (F.WMAC_BSSCTL_BI r n)) * 1024) = 0 → (s.wmac r).bcn = [] →
      s.mayContend r [] = true → (s.wmacAt r s.ns).busy + aifs r 1 ≤ s.ns →
      s.quietMeets r s.ns (s.ns + nonHtAir (s.bcnOf r n).length) = false →
      (((s.setWmac r { s.wmac r with bcn := [n] }).setWmac r { (s.setWmac r { s.wmac r with bcn := [n] }).wmac r with bcn := [] }).ppdu r 6 0 3 [] [] (s.bcnOf r n) false s.ns (nonHtAir (s.bcnOf r n).length)).1 = 0 →

    completes (.tbtt r n) s fun t => (t.wmac r).bcn = []
      ∧ t.wl.tx.map (fun x => (x.radio, x.kind, x.data)) = s.wl.tx.map (fun x => (x.radio, x.kind, x.data)) ++ [(r, 6, s.bcnOf r n)]
      ∧ t.mem = s.mem) ∧
  (∀ (s : State) (i : Nat) (a : Nat) (e : WEnt), s.wl.q = [(a, [e])] → s.wl.grp = [] → e.out.handle = i → e.out.compl = false →
      s.get F.MLD_QCFG_TTL ≠ 0 → e.since + s.get F.MLD_QCFG_TTL * 1000000 ≤ s.ns →
    completes (.mldFrameExpire i) s fun t => t.wl.q = []
      ∧ s.keeps t [mkF W.MLD 0x104 0 31 0, mkF W.MLD 0x104 31 1 0, F.EV_RAW W.MLD E.MLD_CNTSAT]
      ∧ t.mem = s.mem) ∧
  (∀ (s : State) (rq : Rq) (v : Word) (a : Nat) (x : StaS), s.winOn W.MLD = true → (rq.cls = 2 → s.dbgLevel = 2) →
      v.toNat / 2 ^ 31 = 1 → v.toNat / 2 ^ 13 % 2 = 0 → s.get F.MLD_TWTIDX_INDEX = a → bitOf (s.twtW a 0) 31 = false →
      kget s.wl.sta (v.toNat % 1024) = some x → (kget x.links (v.toNat / 2 ^ 16 % 4)).isSome = true → 0 < s.twtW a 4 →
      s.twtW a 3 / 65536 ≤ s.twtW a 4 →
    completes (.twtValidWrite rq v) s fun t => bitOf (t.twtW a 0) 31 = true
      ∧ t.twtW a 4 = s.twtW a 4 % 2 ^ 32
      ∧ kget t.wl.spOpen a = none
      ∧ (match kget t.wl.spNext a with | some n => decide (s.ns + 1000000 ≤ n) | none => false) = true
      ∧ s.keeps t []
      ∧ t.mem = s.mem) ∧
  (∀ (s : State) (rq : Rq) (v : Word) (a : Nat), s.winOn W.MLD = true → (rq.cls = 2 → s.dbgLevel = 2) → v.toNat / 2 ^ 31 = 1 →
      s.get F.MLD_TWTIDX_INDEX = a → bitOf (s.twtW a 0) 31 = false → s.twtW a 4 < s.twtW a 3 / 65536 →
      s.on (F.ERRINFO_VALID W.MLD) = false →
    completes (.twtValidWrite rq v) s fun t => t.wl = s.wl
      ∧ t.get (F.ERRINFO_CAUSE W.MLD) = 5
      ∧ t.get (F.ERRINFO_VALID W.MLD) = 1
      ∧ t.mem = s.mem) ∧
  (∀ (s : State) (a : Nat) (n : Nat), kget s.wl.spNext a = some n → n ≤ s.ns → 0 < s.twtW a 4 →
    completes (.twtSpStart a) s fun t => kget t.wl.spNext a = some (n + s.twtW a 4 * 1000)
      ∧ kget t.wl.spOpen a = some (n, n + s.twtW a 3 / 65536 * 1000, !bitOf (s.twtW a 0) 15, [])
      ∧ s.keeps t []
      ∧ t.mem = s.mem) ∧
  (∀ (s : State) (a : Nat) (n : Nat) (i : Nat) (b : Bool × List Nat), kget s.wl.spOpen a = some (n, i, b) → i ≤ s.ns →
    completes (.twtSpEnd a) s fun t => kget t.wl.spOpen a = none
      ∧ t.wl.spNext = s.wl.spNext
      ∧ s.keeps t []
      ∧ t.mem = s.mem)

/-- R220, R223: a revision replaces the standing plan of its radio and access category, not sooner than MINIVL after the last; with nothing to
serve there is no plan. A TXOP takes the plan that reached the dock at least 16 us before, and its step goes to the path when the PPDU is accepted; with none it counts PLANMISS. MINIVL below 10 acts as 10
(10_wlan_access.md, register table). -/
def Obligations.PlansAndTxops : Prop :=
  (∀ (s : State) (r : Nat) (c : Nat) (i : PlanIn), s.enabled W.MLD = true → r < 3 → c < 4 → kget s.wl.revAt (4 * r + c) = none →
      s.wl.sta = [] → s.wl.grp = [] →
    completes (.planRevise r c i) s fun t => kget t.wl.revAt (4 * r + c) = some s.ns
      ∧ kget t.wl.plans (4 * r + c) = none
      ∧ s.keeps t []
      ∧ t.mem = s.mem) ∧
  (∀ (s : State) (r : Nat) (c : Nat) (i : PlanIn), s.enabled W.MLD = true → r < 3 → c < 4 → kget s.wl.revAt (4 * r + c) = none →
      s.noLink c = 0 → (s.planMake r c i).1 ≠ [] →
    completes (.planRevise r c i) s fun t => kget t.wl.revAt (4 * r + c) = some s.ns
      ∧ kget t.wl.plans (4 * r + c) = some { at' := s.ns, steps := (s.planMake r c i).1 }
      ∧ s.keeps t []
      ∧ t.mem = s.mem) ∧
  (∀ (s : State) (r : Nat) (c : Nat) (i : PlanIn) (a : Nat), kget s.wl.revAt (4 * r + c) = some a →
      s.ns < a + max 10 (s.get F.MLD_PLANCFG_MINIVL) * 1000 →
    completes (.planRevise r c i) s fun t => t = s
      ∧ t.mem = s.mem) ∧
  (∀ (s : State) (r : Nat) (c : Nat) (o : TxopObs) (a : Nat) (x : WStep), 1 ≤ r → c < 4 → s.mayContend r o.energy = true →
      (s.wmac r).bcn = [] → s.boDone r c = true → s.get (F.WMAC_EDCA_TXOPLIM r c) = 0 →
      s.wl.plans = [(4 * r + c, { at' := a, steps := [x] })] → a + 16000 ≤ s.ns → x.users = [] → x.dur ≤ 5484000 →
      s.on F.MLD_PLANCFG_BCSYNC = false →
    completes (.txopWin r [c] o) s fun t => t.wl.plans = []
      ∧ (t.wmac r).hold = s.ns + x.dur
      ∧ t.ev (W.WMAC r) E.WMAC_PLANMISS = s.ev (W.WMAC r) E.WMAC_PLANMISS
      ∧ t.mem = s.mem) ∧
  (∀ (s : State) (r : Nat) (c : Nat) (o : TxopObs) (a : Nat) (x : WStep), 1 ≤ r → c < 4 → s.mayContend r o.energy = true →
      (s.wmac r).bcn = [] → s.boDone r c = true → s.get (F.WMAC_EDCA_TXOPLIM r c) = 0 →
      s.wl.plans = [(4 * r + c, { at' := a, steps := [x] })] → a + 16000 ≤ s.ns → x.users = [] → x.dur ≤ 5484000 →
      s.on F.MLD_PLANCFG_BCSYNC = false →
      (((s.setWl { s.wl with plans := [] }).setWmac r { s.wmac r with hold := s.ns + x.dur }).ppdu r x.kind x.fmt x.ru [] o.acked [] false s.ns x.air).1 = 0 →

    completes (.txopWin r [c] o) s fun t => t.wl.plans = []
      ∧ (t.wmac r).hold = s.ns + x.dur
      ∧ t.wl.tx.map (fun y => (y.radio, y.kind, y.fmt)) = s.wl.tx.map (fun y => (y.radio, y.kind, y.fmt)) ++ [(r, x.kind, x.fmt)]
      ∧ t.mem = s.mem) ∧
  (∀ (s : State) (r : Nat) (c : Nat) (o : TxopObs), 1 ≤ r → c < 4 → s.mayContend r o.energy = true → (s.wmac r).bcn = [] →
      s.boDone r c = true → s.get (F.WMAC_EDCA_TXOPLIM r c) = 0 → s.wl.plans = [] → s.wl.sta = [] →
    completes (.txopWin r [c] o) s fun t => t.ev (W.WMAC r) E.WMAC_PLANMISS = true
      ∧ (t.wmac r).hold = s.ns
      ∧ t.wl.tx = s.wl.tx
      ∧ s.keeps t [mkF (W.WMAC r) 0x280 0 31 0, mkF (W.WMAC r) 0x280 31 1 0, F.EV_RAW (W.WMAC r) E.WMAC_CNTSAT, F.EV_RAW (W.WMAC r) E.WMAC_PLANMISS]
      ∧ t.mem = s.mem)

/-- R236, R240 to R242: a software creation from a good template in an enabled yard makes a wagon of origin 31 at the next place of its train, and a template that is bad is
BADARG; a coupling that a wagon waits for arrives, and the last one makes it Ready; one no wagon waits for is STRAY; an idle engine that may
take wagons, with no idle engine of lower number to take it, takes the Ready wagon of earliest deadline, with pc, a0, sp and inbox set (R244). The WID is the model's pick among the free ones (log entry 5). -/
def Obligations.WagonsMadeAndTaken : Prop :=
  (∀ (s : State) (rq : Rq) (v : Word), s.enabled W.YARD = true → (rq.cls = 2 → s.dbgLevel = 2) → s.on F.YARD_SWRES_DONE = true →
      inSram v.toNat = true → v.toNat % 64 = 0 → tmplOk (s.tmplAt v.toNat) = true → s.get F.YARD_ISLRESV_RESV < s.slotsFree →
      s.trainRoom (s.tmplAt v.toNat).train = true → s.yard.wagons = [] →
    completes (.swCreate rq v) s fun t => t.get F.YARD_SWRES_RESULT = 0
      ∧ t.train (s.tmplAt v.toNat).train = (((s.train (s.tmplAt v.toNat).train).1 + 1) % 65536, (s.train (s.tmplAt v.toNat).train).2)
      ∧ (∃ y ∈ t.yard.wagons, y.1 = t.get F.YARD_SWRES_WID ∧ y.2.origin = 31 ∧ y.2.train = (s.tmplAt v.toNat).train
      ∧ y.2.seq = (s.train (s.tmplAt v.toNat).train).1 ∧ y.2.user = (s.tmplAt v.toNat).user)
      ∧ s.keeps t [F.YARD_SWRES_RESULT, F.YARD_SWRES_WID]
      ∧ t.mem = s.mem) ∧
  (∀ (s : State) (rq : Rq) (v : Word), s.winOn W.YARD = true → (rq.cls = 2 → s.dbgLevel = 2) → s.on F.YARD_SWRES_DONE = true →
      v.toNat % 64 ≠ 0 →
    completes (.swCreate rq v) s fun t => t.get F.YARD_SWRES_RESULT = 2
      ∧ t.yard = s.yard
      ∧ s.keeps t [F.YARD_SWRES_RESULT]
      ∧ t.mem = s.mem) ∧
  (∀ (s : State) (rq : Rq) (v : Word) (w : Nat) (x : Wagon) (n : Nat), s.winOn W.YARD = true → (rq.cls = 2 → s.dbgLevel = 2) →
      s.get F.YARD_SWCPL0_WID = w → s.get F.YARD_SWCPL0_SLOT = n → s.get F.YARD_SWCPL0_TYPE = 5 → s.wag w = some x → x.st = 2 →
      bitOf x.decl n = true → bitOf x.arr n = false → bitsOf x.ctype (4 * n) 4 = 5 → x.cpl.length = 8 → n < 8 →
    completes (.swCoupling rq v) s fun t => (t.wag w).map (fun y => (y.arr, y.cpl.getD n 0)) = some (x.arr + 2 ^ n, v.toNat)
      ∧ s.keeps t []
      ∧ t.mem = s.mem) ∧
  (∀ (s : State) (w : Nat) (n : Nat) (v : Nat) (x : Wagon), s.winOn 0x20 = true → s.wag w = some x → x.st = 2 → x.pend = false →
      n < 8 → bitOf x.decl n = true → bitOf x.arr n = false → x.arr + 2 ^ n = x.decl → bitsOf x.ctype (4 * n) 4 = 5 →
    completes (.couplingArrive w n 5 v []) s fun t => (t.wag w).map (fun y => (y.st, y.arr, y.rdyNs)) = some (3, x.decl, s.ns)
      ∧ s.keeps t []
      ∧ t.mem = s.mem) ∧
  (∀ (s : State) (w : Nat) (n : Nat) (v : Nat), s.winOn 0x20 = true → s.wag w = none →
    completes (.couplingArrive w n 5 v []) s fun t => t.ev W.YARD E.YARD_STRAY = true
      ∧ t.yard = s.yard
      ∧ s.keeps t [mkF 0x20 (0xC0 + 4 * 2) 0 31 0, mkF 0x20 (0xC0 + 4 * 2) 31 1 0, F.EV_RAW W.YARD E.YARD_CNTSAT, F.EV_RAW W.YARD E.YARD_STRAY]
      ∧ t.mem = s.mem) ∧
  (∀ (s : State) (e : Nat) (w : Nat) (x : Wagon), e < 48 → s.enabled 0x20 = true → s.inDisp e = true → (s.eng e).wag = none →
      s.yard.wagons = [(w, x)] → x.st = 3 → s.serves (e / 8) x.ecls = true → (∀ k ∈ List.range e, s.engIdle k = false
      ∨ s.serves (k / 8) x.ecls = false) →
    completes (.dispatch e) s fun t => (t.eng e).wag = some w
      ∧ (t.wag w).map (fun y => y.st) = some 4
      ∧ (t.eng e).pc = s.entryPc (e / 8) x.pbank x.prog
      ∧ (t.eng e).a0 = 0xE000
      ∧ (t.eng e).sp = 0xE000
      ∧ (t.eng e).inbox = x.words w true
      ∧ s.keeps t []
      ∧ t.mem = s.mem)

/-- R241, R245, R247: WEMIT, WCPL and WHAND stage an output, a coupling and a successor and answer 0; WNEW makes a Staged child and answers its
WID; WREQ issues its request at once; WBUF answers a buffer the wagon owns; WEND done makes the wagon Done and frees the engine, and at the
head of its train it is released; WEND void and a trap discard what was staged. The child and the buffer taken are the model's picks
(log entry 5). -/
def Obligations.WagonExtensions : Prop :=
  (∀ (s : State) (e : Nat) (w : Nat) (x : Wagon), s.running e = some (w, x) → x.cpls = [] → x.kids = [] → x.pend = true →
      s.wag w = some x → s.drain = [] →
    completes (.wend e false) s fun t => (t.wag w).map (fun y => (y.st, y.void, y.outs)) = some (5, x.void, x.outs)
      ∧ (t.eng e).wag = none
      ∧ s.keeps t []
      ∧ t.mem = s.mem) ∧
  (∀ (s : State) (e : Nat) (w : Nat) (x : Wagon), s.running e = some (w, x) → x.cpls = [] → x.kids = [] → x.outs = [] → x.bufs = [] →
      x.succ = none → x.pend = false → x.void = false → s.yard.wagons = [(w, x)] → (s.train x.train).2 = x.seq →
      (s.train x.train).1 = (x.seq + 1) % 65536 → x.seq < 65536 → s.drain = [] →
    completes (.wend e false) s fun t => t.yard.wagons = []
      ∧ t.train x.train = ((x.seq + 1) % 65536, (x.seq + 1) % 65536)
      ∧ (t.eng e).wag = none
      ∧ s.keeps t [mkF 0x20 (0xC0 + 4 * 6) 0 31 0, mkF 0x20 (0xC0 + 4 * 6) 31 1 0, F.EV_RAW W.YARD E.YARD_CNTSAT]
      ∧ t.mem = s.mem) ∧
  (∀ (s : State) (e : Nat) (w : Nat) (x : Wagon), s.running e = some (w, x) → x.kids = [] → x.pend = true → s.wag w = some x →
      s.drain = [] →
    completes (.wend e true) s fun t => (t.wag w).map (fun y => (y.st, y.void, y.outs.length)) = some (5, true, 0)
      ∧ (t.eng e).wag = none
      ∧ s.keeps t [mkF 0x20 (0xC0 + 4 * 4) 0 31 0, mkF 0x20 (0xC0 + 4 * 4) 31 1 0, F.EV_RAW W.YARD E.YARD_CNTSAT]
      ∧ t.mem = s.mem) ∧
  (∀ (s : State) (e : Nat) (o : Out) (w : Nat) (x : Wagon), s.running e = some (w, x) → s.wag w = some x → o.dest < 7 →
      x.outs.length < 16 →
    completes (.wemit e o) s fun t => (t.wag w).map (fun y => y.outs) = some (x.outs ++ [o])
      ∧ (t.eng e).rd = 0
      ∧ s.keeps t []
      ∧ t.mem = s.mem) ∧
  (∀ (s : State) (e : Nat) (o : Out) (w : Nat) (x : Wagon), s.running e = some (w, x) → o.dest < 7 → 16 ≤ x.outs.length →
    completes (.wemit e o) s fun t => t.yard.wagons = s.yard.wagons
      ∧ (t.eng e).rd = -3
      ∧ s.keeps t []
      ∧ t.mem = s.mem) ∧
  (∀ (s : State) (e : Nat) (c : Tmpl) (w : Nat) (x : Wagon), s.running e = some (w, x) → s.wag w = some x → tmplOk c = true →
      x.kids.length < 16 → s.enabled W.YARD = true → s.get F.YARD_ISLRESV_RESV < s.slotsFree → s.trainRoom (c.train % 4096) = true →
      s.yard.wagons.length = 1 →
    completes (.wnew e c) s fun t => 0 ≤ (t.eng e).rd
      ∧ (t.wag w).map (fun y => y.kids) = some (x.kids ++ [(t.eng e).rd.toNat])
      ∧ (t.wag (t.eng e).rd.toNat).map (fun y => (y.st, y.pend, y.parent, y.train)) = some (1, true, some w, c.train % 4096)
      ∧ s.keeps t []
      ∧ t.mem = s.mem) ∧
  (∀ (s : State) (e : Nat) (c : Nat) (n : Nat) (v : Nat) (w : Nat) (x : Wagon), s.running e = some (w, x) → s.wag w = some x →
      x.cpls.length < 32 →
    completes (.wcpl e c n 5 v) s fun t => (t.wag w).map (fun y => y.cpls) = some (x.cpls ++ [⟨c, n, 5, v⟩])
      ∧ (t.eng e).rd = 0
      ∧ s.keeps t []
      ∧ t.mem = s.mem) ∧
  (∀ (s : State) (e : Nat) (l : List Nat) (c : Nat) (n : Nat) (w : Nat) (x : Wagon), s.running e = some (w, x) →
      1 ≤ bitsOf (l.getD 0 0) 0 4 → bitsOf (l.getD 0 0) 0 4 ≤ 5 → l.getD 0 0 < 2 ^ 32 → 0 < l.length →
    completes (.wreq e false l c n) s fun t => t.yard.reqs = s.yard.reqs ++ [{ words := l.map fun q => q % 2 ^ 32, sec := false, cs := x.cs, wid := c, slot := n }]
      ∧ (t.eng e).rd = 0
      ∧ s.keeps t []
      ∧ t.mem = s.mem) ∧
  (∀ (s : State) (e : Nat) (c : Nat) (w : Nat) (x : Wagon), s.running e = some (w, x) → s.wag w = some x → x.succ = none → c ∈ x.kids →
    completes (.whand e c) s fun t => (t.wag w).map (fun y => y.succ) = some (some c)
      ∧ (t.eng e).rd = 0
      ∧ s.keeps t []
      ∧ t.mem = s.mem) ∧
  (∀ (s : State) (e : Nat) (c : Nat) (n : Nat) (w : Nat) (x : Wagon), s.running e = some (w, x) → x.succ = some n →
    completes (.whand e c) s fun t => t.yard.wagons = s.yard.wagons
      ∧ (t.eng e).rd = -2
      ∧ s.keeps t []
      ∧ t.mem = s.mem) ∧
  (∀ (s : State) (e : Nat) (n : Nat) (w : Nat) (x : Wagon), s.running e = some (w, x) → s.wag w = some x → 0 < n → n ≤ 16383 →
      0 < s.bufFree (classFor n) → s.ram.pool = [] →
    completes (.wbuf e n) s fun t => 0 < (t.eng e).rd
      ∧ (t.wag w).map (fun y => y.bufs) = some ((t.eng e).rd.toNat :: x.bufs)
      ∧ (kget t.ram.pool (t.eng e).rd.toNat).isSome = true
      ∧ s.keeps t []) ∧
  (∀ (s : State) (e : Nat) (n : Nat) (w : Nat) (x : Wagon), s.running e = some (w, x) → (n = 0 ∨ 16383 < n) →
    completes (.wbuf e n) s fun t => t.yard.wagons = s.yard.wagons
      ∧ (t.eng e).rd = -2
      ∧ s.keeps t []
      ∧ t.mem = s.mem) ∧
  (∀ (s : State) (e : Nat) (w : Nat) (x : Wagon), e < 48 → s.running e = some (w, x) → x.kids = [] → x.pend = true →
      s.wag w = some x → s.drain = [] →
    completes (.engineTrap e) s fun t => (t.wag w).map (fun y => (y.st, y.void, y.outs.length)) = some (5, true, 0)
      ∧ (t.eng e).wag = none
      ∧ t.ev (W.ENG (e / 8)) E.ENG_EXCEPT = true
      ∧ s.keeps t [mkF 0x20 (0xC0 + 4 * 4) 0 31 0, mkF 0x20 (0xC0 + 4 * 4) 31 1 0, F.EV_RAW W.YARD E.YARD_CNTSAT, F.ENG_EXCEPT_COUNT (e / 8), F.ENG_EXCEPT_OVF (e / 8), F.EV_RAW (W.ENG (e / 8)) E.ENG_CNTSAT, F.EV_RAW (W.ENG (e / 8)) E.ENG_EXCEPT]
      ∧ t.mem = s.mem)

/-- R248, R252, R254: at its deadline a wagon is MISS, counted and raised once, and a Filling one is abandoned ABANDON ms later, void; START of a
load into a bank in use fails with cause 6 and else runs; ARM arms the switch and at its time CUR changes; the windows close at their
boundaries. -/
def Obligations.WagonUpkeep : Prop :=
  (∀ (s : State) (w : Nat) (x : Wagon), s.wag w = some x → x.miss = false → s.reached x.dl = true → x.pend = false → x.train < 4096 →
      x.seq < 65536 →
    completes (.wagonDeadline w) s fun t => (t.wag w).map (fun y => y.miss) = some true
      ∧ t.ev W.YARD E.YARD_MISS = true
      ∧ t.get F.YARD_MISSLAST_TRAIN = x.train
      ∧ t.get F.YARD_MISSLAST_SEQ = x.seq
      ∧ s.keeps t [mkF 0x20 (0xC0 + 4 * 0) 0 31 0, mkF 0x20 (0xC0 + 4 * 0) 31 1 0, F.EV_RAW W.YARD E.YARD_CNTSAT, F.YARD_MISSLAST_TRAIN, F.YARD_MISSLAST_SEQ, F.EV_RAW W.YARD E.YARD_MISS]
      ∧ t.mem = s.mem) ∧
  (∀ (s : State) (w : Nat) (x : Wagon), s.wag w = some x → (x.miss = true ∨ s.reached x.dl = false) →
    completes (.wagonDeadline w) s fun t => t = s
      ∧ t.mem = s.mem) ∧
  (∀ (s : State) (w : Nat) (x : Wagon), s.wag w = some x → x.st = 2 → x.kids = [] → x.pend = true →
      s.reached ((x.dl + max 1 (s.get F.YARD_ABANDON_MS) * 1000000) % wMod) = true →
    completes (.wagonAbandon w) s fun t => (t.wag w).map (fun y => (y.st, y.void)) = some (5, true)
      ∧ t.ev W.YARD E.YARD_ABANDON = true
      ∧ s.keeps t [mkF 0x20 (0xC0 + 4 * 1) 0 31 0, mkF 0x20 (0xC0 + 4 * 1) 31 1 0, F.EV_RAW W.YARD E.YARD_CNTSAT, mkF 0x20 (0xC0 + 4 * 4) 0 31 0, mkF 0x20 (0xC0 + 4 * 4) 31 1 0, F.EV_RAW W.YARD E.YARD_CNTSAT, F.EV_RAW W.YARD E.YARD_ABANDON]
      ∧ t.mem = s.mem) ∧
  (∀ (s : State) (rq : Rq) (n : Nat), n < 6 → s.winOn (W.ENG n) = true → s.busy (W.ENG n) = false → s.get (F.ENG_LOADLEN_KIB n) = 24 →
      s.get (F.ENG_LOADSRCHI_ADDR n) = 0 → s.get (F.ENG_LOADSRCLO_ADDR n) = 0x10000004 →
      s.get (F.ENG_LOADBANK_BANK n) ≠ s.get F.YARD_PBCTL_CUR → s.yard.wagons = [] →
    completes (.programLoad rq n) s fun t => t.opSt (W.ENG n) = 2
      ∧ t.get (F.OPSTAT_PROGRESS (W.ENG n)) = 0
      ∧ t.yard = s.yard
      ∧ s.keeps t [F.OPSTAT_STATE (W.ENG n), F.OPSTAT_CAUSE (W.ENG n), F.OPSTAT_PROGRESS (W.ENG n), F.OPPART (W.ENG n)]
      ∧ t.mem = s.mem) ∧
  (∀ (s : State) (rq : Rq) (n : Nat), n < 6 → s.winOn (W.ENG n) = true → s.busy (W.ENG n) = false →
      (s.get (F.ENG_LOADLEN_KIB n) = 0 ∨ 24 < s.get (F.ENG_LOADLEN_KIB n)) →
    completes (.programLoad rq n) s fun t => t.opSt (W.ENG n) = 4
      ∧ t.get (F.OPSTAT_CAUSE (W.ENG n)) = 3
      ∧ s.keeps t [F.OPSTAT_STATE (W.ENG n), F.OPSTAT_CAUSE (W.ENG n), F.OPSTAT_PROGRESS (W.ENG n), F.OPPART (W.ENG n), F.EV_RAW (W.ENG n) 31]
      ∧ t.mem = s.mem) ∧
  (∀ (s : State) (rq : Rq) (v : Word), s.winOn W.YARD = true → (rq.cls = 2 → s.dbgLevel = 2) → v.toNat / 2 % 2 = 1 →
    completes (.pbArm rq v) s fun t => t.on F.YARD_PBCTL_ARMED = true
      ∧ t.get F.YARD_PBCTL_TARGET = v.toNat % 2
      ∧ t.get F.YARD_PBCTL_CUR = s.get F.YARD_PBCTL_CUR
      ∧ s.keeps t [F.YARD_PBCTL_ARMED, F.YARD_PBCTL_TARGET]
      ∧ t.mem = s.mem) ∧
  (∀ s : State, s.on F.YARD_PBCTL_ARMED = true →
      nsOf (s.get F.YARD_PBSECLO_SEC) (s.get F.YARD_PBSECHI_SEC) (s.get F.YARD_PBNS_NS) ≤ s.ns →
    completes .pbSwitch s fun t => t.get F.YARD_PBCTL_CUR = s.get F.YARD_PBCTL_TARGET
      ∧ t.on F.YARD_PBCTL_ARMED = false
      ∧ t.ev W.YARD E.YARD_PBSWITCH = true
      ∧ s.keeps t [F.YARD_PBCTL_CUR, F.YARD_PBCTL_ARMED, F.EV_RAW W.YARD E.YARD_PBSWITCH]
      ∧ t.mem = s.mem) ∧
  (∀ s : State, s.enabled 0x20 = true → s.yard.histAt + max 1 (s.get F.YARD_HISTCFG_WINDOW) * 1000000 ≤ s.ns →
    completes .histWindow s fun t => t.on F.YARD_HISTCFG_VALID = true
      ∧ t.ev W.YARD E.YARD_HISTVALID = true
      ∧ t.yard.bins = []
      ∧ t.yard.histAt = s.ns
      ∧ (∀ k ∈ List.range 64, t.get (F.YARD_HIST_COUNT (k / 16) (k % 16)) = (kget s.yard.bins k).getD 0 % 2 ^ 31)
      ∧ t.mem = s.mem) ∧
  (∀ (s : State) (l : List Nat), s.yard.loadAt / 1000000 < s.ns / 1000000 → s.winOn (W.ENG 5) = true →
      (kget s.yard.coachOn 5).getD 0 ≤ s.yard.loadAt → s.eng 47 = eng0 →
    completes (.eloadWindow l) s fun t => t.yard.loadAt = s.ns
      ∧ t.on (F.ENG_ELOAD_VALID 5 7) = true
      ∧ t.get (F.ENG_ELOAD_LOAD 5 7) = 0
      ∧ t.get (F.ENG_RETIRED_COUNT 5 7) = l.getD 47 0 % 2 ^ 32
      ∧ t.mem = s.mem)

/-- R259, R260: START with a good list runs, or waits while the old set is kept; a COMMITAT less than 1 ms ahead is cause 3. At COMMITAT a list staged whole is
applied at once and the old set is kept; one not staged whole fails with cause 7, and the tables stay. The old set goes when no older
wagon is left. -/
def Obligations.RteCommits : Prop :=
  (∀ (s : State) (rq : Rq), s.winOn W.RTE = true → s.busy W.RTE = false → s.rte.old = none → s.chgSrc % 16 = 0 →
      inSram s.chgSrc = true → inSram (s.chgSrc + 80 * s.get F.RTE_CHGCOUNT_COUNT - 1) = true → 0 < s.get F.RTE_CHGCOUNT_COUNT →
      s.get F.RTE_CHGCOUNT_COUNT ≤ 4096 → s.ns + 1000000 ≤ s.commitAt →
    completes (.rteCommit rq) s fun t => t.opSt W.RTE = 2
      ∧ t.get (F.OPSTAT_PROGRESS W.RTE) = 0
      ∧ t.rte.stage = []
      ∧ t.rte.tabs = s.rte.tabs
      ∧ s.keeps t [F.OPSTAT_STATE W.RTE, F.OPSTAT_CAUSE W.RTE, F.OPSTAT_PROGRESS W.RTE, F.OPPART W.RTE]
      ∧ t.mem = s.mem) ∧
  (∀ (s : State) (rq : Rq), s.winOn W.RTE = true → s.busy W.RTE = false → s.rte.old.isSome = true → s.chgSrc % 16 = 0 →
      inSram s.chgSrc = true → inSram (s.chgSrc + 80 * s.get F.RTE_CHGCOUNT_COUNT - 1) = true → 0 < s.get F.RTE_CHGCOUNT_COUNT →
      s.get F.RTE_CHGCOUNT_COUNT ≤ 4096 → s.ns + 1000000 ≤ s.commitAt →
    completes (.rteCommit rq) s fun t => t.opSt W.RTE = 1
      ∧ s.keeps t [F.OPSTAT_STATE W.RTE, F.OPSTAT_CAUSE W.RTE, F.OPSTAT_PROGRESS W.RTE, F.OPPART W.RTE]
      ∧ t.mem = s.mem) ∧
  (∀ (s : State) (rq : Rq), s.winOn W.RTE = true → s.busy W.RTE = false → s.commitAt < s.ns + 1000000 →
    completes (.rteCommit rq) s fun t => t.opSt W.RTE = 4
      ∧ t.get (F.OPSTAT_CAUSE W.RTE) = 3
      ∧ t.rte = s.rte
      ∧ s.keeps t [F.OPSTAT_STATE W.RTE, F.OPSTAT_CAUSE W.RTE, F.OPSTAT_PROGRESS W.RTE, F.OPPART W.RTE, F.EV_RAW W.RTE 31]
      ∧ t.mem = s.mem) ∧
  (∀ (s : State) (n : Nat) (x : KMap (KMap (List Nat))), s.opSt W.RTE = 2 → s.commitAt ≤ s.ns →
      min n 4096 ≤ s.get (F.OPSTAT_PROGRESS W.RTE) → s.get F.RTE_CHGCOUNT_COUNT ≤ s.get (F.OPSTAT_PROGRESS W.RTE) →
      chgAll s.rte.tabs 0 s.rte.stage = .inr x →
    completes (.rteCommitApply n) s fun t => t.opSt W.RTE = 3
      ∧ t.rte.tabs = x
      ∧ t.rte.old = some (s.commitAt % wMod, s.rte.tabs)
      ∧ t.rte.stage = []
      ∧ s.keeps t [F.OPSTAT_STATE W.RTE, F.OPSTAT_CAUSE W.RTE, F.OPSTAT_PROGRESS W.RTE, F.OPPART W.RTE, F.EV_RAW W.RTE 31, F.RTE_USE_USED 0, F.RTE_USE_USED 1, F.RTE_USE_USED 2]
      ∧ t.mem = s.mem) ∧
  (∀ (s : State) (n : Nat), s.opSt W.RTE = 2 → s.commitAt ≤ s.ns → min n 4096 ≤ s.get (F.OPSTAT_PROGRESS W.RTE) →
      s.get (F.OPSTAT_PROGRESS W.RTE) < s.get F.RTE_CHGCOUNT_COUNT →
    completes (.rteCommitApply n) s fun t => t.opSt W.RTE = 4
      ∧ t.get (F.OPSTAT_CAUSE W.RTE) = 7
      ∧ t.rte = s.rte
      ∧ s.keeps t [F.OPSTAT_STATE W.RTE, F.OPSTAT_CAUSE W.RTE, F.OPSTAT_PROGRESS W.RTE, F.OPPART W.RTE, F.EV_RAW W.RTE 31]
      ∧ t.mem = s.mem) ∧
  (∀ s : State, s.rte.old.isSome = true → s.yard.wagons = [] →
    completes .oldSetRelease s fun t => t.rte.old = none
      ∧ t.rte.tabs = s.rte.tabs
      ∧ s.keeps t []
      ∧ t.mem = s.mem)

/-- R261 to R269: a LOOKUP of an address with a host entry of a node answers OK, one with no route NOROUTE, and a bad header BADHDR; DECOMP of a
frame with the uncompressed dispatch copies the packet and answers OK; COMP answers OK with the packet compressed, or FRAGS with the number of
fragments; FRAG of fragment 0 gives FRAG1 with its tag and its octets (the compression itself is RFC 6282's, log entry 68); SRHINS with no route NOROUTE of its own; a request that is malformed is BADREQ. Every answer takes the request off. A reassembly
older than TIMEOUT is dropped and counted. -/
def Obligations.RteAnswers : Prop :=
  (∀ (s : State) (r : Req) (x : Wagon) (p : Pkt) (l : List Nat), s.enabled W.RTE = true → s.yard.reqs = [r] → r.sec = false → r.op = 1 →
      s.inPool r.inH = true → s.inPool r.outH = true → r.inofs + r.inlen ≤ s.frmLen r.inH → s.ram.late = [] → s.ram.ue = [] →
      s.rte.old = none → s.rte.lastT = none → s.wag r.wid = some x → x.st = 2 → r.slot < 8 → bitOf x.decl r.slot = true →
      bitOf x.arr r.slot = false → bitsOf x.ctype (4 * r.slot) 4 = 4 → x.cpl.length = 8 → pktOf (s.reqData r) = some p →
      s.vidOf r = none → s.get F.RTE_CFG_ACLCOUNT = 0 → s.get F.RTE_CFG_ACLDEF = 0 → hostOf s.rte.tabs p.v4 (ofBE p.dst) = some l →
      bitOf (l.getD 4 0) 2 = true → 2 ≤ p.hop → r.outofs + 32 ≤ s.outCap r.outH →
    completes .lookup s fun t => t.yard.reqs = []
      ∧ (t.wag r.wid).map (fun y => y.cpl.getD r.slot 0) = some (r.outH + 0 * 2 ^ 20)
      ∧ t.peeks (handleAddr r.outH + 64 + r.outofs) 32 = ([2 ^ 15 + (if p.v4 then 32 else 128) * 2 ^ 16, bitsOf (l.getD 6 0) 17 12 * 2 ^ 16, 2, l.getD 5 0 % 2 ^ 18, bitsOf (l.getD 6 0) 17 12 * 2 ^ 16, 0, 0, l.getD 6 0 % 2 ^ 17 + 2 ^ 17].flatMap fun q => toLE 4 q)
      ∧ s.keeps t []
      ∧ s.memBut t [(handleAddr r.outH, 64 + s.outCap r.outH)]) ∧
  (∀ (s : State) (r : Req) (x : Wagon) (p : Pkt), s.enabled W.RTE = true → s.yard.reqs = [r] → r.sec = false → r.op = 1 →
      s.inPool r.inH = true → s.inPool r.outH = true → r.inofs + r.inlen ≤ s.frmLen r.inH → s.ram.late = [] → s.ram.ue = [] →
      s.rte.old = none → s.rte.lastT = none → s.wag r.wid = some x → x.st = 2 → r.slot < 8 → bitOf x.decl r.slot = true →
      bitOf x.arr r.slot = false → bitsOf x.ctype (4 * r.slot) 4 = 4 → x.cpl.length = 8 → pktOf (s.reqData r) = some p →
      s.vidOf r = none → s.get F.RTE_CFG_ACLCOUNT = 0 → s.get F.RTE_CFG_ACLDEF = 0 → hostOf s.rte.tabs p.v4 (ofBE p.dst) = none →
      lpm s.rte.tabs p.v4 (ofBE p.dst) = none →
    completes .lookup s fun t => t.yard.reqs = []
      ∧ (t.wag r.wid).map (fun y => y.cpl.getD r.slot 0) = some (r.outH + 1 * 2 ^ 20)
      ∧ s.keeps t [mkF W.RTE (0x180 + 4 * 0) 0 31 0, mkF W.RTE (0x180 + 4 * 0) 31 1 0, F.EV_RAW W.RTE E.RTE_CNTSAT]
      ∧ t.mem = s.mem) ∧
  (∀ (s : State) (r : Req) (x : Wagon), s.enabled W.RTE = true → s.yard.reqs = [r] → r.sec = false → r.op = 1 →
      s.inPool r.inH = true → s.inPool r.outH = true → r.inofs + r.inlen ≤ s.frmLen r.inH → s.ram.late = [] → s.ram.ue = [] →
      s.rte.old = none → s.rte.lastT = none → s.wag r.wid = some x → x.st = 2 → r.slot < 8 → bitOf x.decl r.slot = true →
      bitOf x.arr r.slot = false → bitsOf x.ctype (4 * r.slot) 4 = 4 → x.cpl.length = 8 → pktOf (s.reqData r) = none →
    completes .lookup s fun t => t.yard.reqs = []
      ∧ (t.wag r.wid).map (fun y => y.cpl.getD r.slot 0) = some (r.outH + 7 * 2 ^ 20)
      ∧ s.keeps t [mkF W.RTE (0x180 + 4 * 5) 0 31 0, mkF W.RTE (0x180 + 4 * 5) 31 1 0, F.EV_RAW W.RTE E.RTE_CNTSAT]
      ∧ t.mem = s.mem) ∧
  (∀ (s : State) (r : Req) (x : Wagon), s.enabled W.RTE = true → s.yard.reqs = [r] → r.sec = false → r.op = 2 →
      s.inPool r.inH = true → s.inPool r.outH = true → r.inofs + r.inlen ≤ s.frmLen r.inH → s.ram.late = [] → s.ram.ue = [] →
      s.rte.old = none → s.rte.lastT = none → s.wag r.wid = some x → x.st = 2 → r.slot < 8 → bitOf x.decl r.slot = true →
      bitOf x.arr r.slot = false → bitsOf x.ctype (4 * r.slot) 4 = 4 → x.cpl.length = 8 → (s.reqData r).headD 0 = 0x41 →
      r.outofs + r.inlen ≤ s.outCap r.outH + 1 →
    completes .decomp s fun t => t.yard.reqs = []
      ∧ (t.wag r.wid).map (fun y => y.cpl.getD r.slot 0) = some (r.outH + 0 * 2 ^ 20)
      ∧ t.peeks (handleAddr r.outH + 64 + r.outofs) (r.inlen - 1) = (s.reqData r).drop 1
      ∧ s.keeps t []
      ∧ s.memBut t [(handleAddr r.outH, 64 + s.outCap r.outH)]) ∧
  (∀ (s : State) (r : Req) (x : Wagon), s.enabled W.RTE = true → s.yard.reqs = [r] → r.sec = false → r.op = 3 →
      s.inPool r.inH = true → s.inPool r.outH = true → r.inofs + r.inlen ≤ s.frmLen r.inH → s.ram.late = [] → s.ram.ue = [] →
      s.rte.old = none → s.rte.lastT = none → s.wag r.wid = some x → x.st = 2 → r.slot < 8 → bitOf x.decl r.slot = true →
      bitOf x.arr r.slot = false → bitsOf x.ctype (4 * r.slot) 4 = 4 → x.cpl.length = 8 → (s.reqData r).length < 40 →
    completes .comp s fun t => t.yard.reqs = []
      ∧ (t.wag r.wid).map (fun y => y.cpl.getD r.slot 0) = some (r.outH + 7 * 2 ^ 20)
      ∧ s.keeps t [mkF W.RTE (0x180 + 4 * 5) 0 31 0, mkF W.RTE (0x180 + 4 * 5) 31 1 0, F.EV_RAW W.RTE E.RTE_CNTSAT]
      ∧ t.mem = s.mem) ∧
  (∀ (s : State) (r : Req) (x : Wagon) (p : Pkt) (l : List Byte) (c : List Byte × Nat), s.enabled W.RTE = true → s.yard.reqs = [r] →
      r.sec = false → r.op = 3 → s.inPool r.inH = true → s.inPool r.outH = true → r.inofs + r.inlen ≤ s.frmLen r.inH →
      s.ram.late = [] → s.ram.ue = [] → s.rte.old = none → s.rte.lastT = none → s.wag r.wid = some x → x.st = 2 → r.slot < 8 →
      bitOf x.decl r.slot = true → bitOf x.arr r.slot = false → bitsOf x.ctype (4 * r.slot) 4 = 4 → x.cpl.length = 8 →
      pktOf (s.reqData r) = some p → p.v4 = false → p.total ≤ 2047 → l = (s.reqData r).take p.total →
      c = iphcSeal (rteCtx s.rte.tabs r.tile true) (mac154 (s.peeks (handleAddr r.outH + 64) r.outofs)) l →
      c.1.length + (l.length - c.2) ≤ s.mtu r.tile → r.outofs + c.1.length + (l.length - c.2) ≤ s.outCap r.outH →
    completes .comp s fun t => t.yard.reqs = []
      ∧ (t.wag r.wid).map (fun y => y.cpl.getD r.slot 0) = some (r.outH + 0 * 2 ^ 20)
      ∧ t.peeks (handleAddr r.outH + 64 + r.outofs) (c.1.length + (l.length - c.2)) = c.1 ++ l.drop c.2
      ∧ s.keeps t []
      ∧ s.memBut t [(handleAddr r.outH, 64 + s.outCap r.outH)]) ∧
  (∀ (s : State) (r : Req) (x : Wagon) (p : Pkt) (l : List Byte) (c : List Byte × Nat), s.enabled W.RTE = true → s.yard.reqs = [r] →
      r.sec = false → r.op = 3 → s.inPool r.inH = true → s.inPool r.outH = true → r.inofs + r.inlen ≤ s.frmLen r.inH →
      s.ram.late = [] → s.ram.ue = [] → s.rte.old = none → s.rte.lastT = none → s.wag r.wid = some x → x.st = 2 → r.slot < 8 →
      bitOf x.decl r.slot = true → bitOf x.arr r.slot = false → bitsOf x.ctype (4 * r.slot) 4 = 4 → x.cpl.length = 8 →
      pktOf (s.reqData r) = some p → p.v4 = false → p.total ≤ 2047 → l = (s.reqData r).take p.total →
      c = iphcSeal (rteCtx s.rte.tabs r.tile true) (mac154 (s.peeks (handleAddr r.outH + 64) r.outofs)) l →
      s.mtu r.tile < c.1.length + (l.length - c.2) → cuts (s.mtu r.tile) c.1.length c.2 l.length = true →
    completes .comp s fun t => t.yard.reqs = []
      ∧ (t.wag r.wid).map (fun y => y.cpl.getD r.slot 0) = some (r.outH + 9 * 2 ^ 20 + fragCount (s.mtu r.tile) c.1.length c.2 l.length % 256 * 2 ^ 24)
      ∧ s.keeps t []
      ∧ t.mem = s.mem) ∧
  (∀ (s : State) (r : Req) (x : Wagon) (p : Pkt) (l : List Byte) (c : List Byte × Nat), s.enabled W.RTE = true → s.yard.reqs = [r] →
      r.sec = false → r.op = 4 → s.inPool r.inH = true → s.inPool r.outH = true → r.inofs + r.inlen ≤ s.frmLen r.inH →
      s.ram.late = [] → s.ram.ue = [] → s.rte.old = none → s.rte.lastT = none → s.wag r.wid = some x → x.st = 2 → r.slot < 8 →
      bitOf x.decl r.slot = true → bitOf x.arr r.slot = false → bitsOf x.ctype (4 * r.slot) 4 = 4 → x.cpl.length = 8 →
      pktOf (s.reqData r) = some p → p.v4 = false → p.total ≤ 2047 → l = (s.reqData r).take p.total →
      c = iphcSeal (rteCtx s.rte.tabs r.tile true) (mac154 (s.peeks (handleAddr r.outH + 64) r.outofs)) l →
      cuts (s.mtu r.tile) c.1.length c.2 l.length = true → r.fragk = 0 →
      r.outofs + 4 + c.1.length + (frag0 (s.mtu r.tile) c.1.length c.2 - c.2) ≤ s.outCap r.outH →
      frag0 (s.mtu r.tile) c.1.length c.2 ≤ l.length →
    completes .frag s fun t => t.yard.reqs = []
      ∧ (t.wag r.wid).map (fun y => y.cpl.getD r.slot 0) = some (r.outH + 0 * 2 ^ 20)
      ∧ t.peeks (handleAddr r.outH + 64 + r.outofs) (4 + c.1.length + (frag0 (s.mtu r.tile) c.1.length c.2 - c.2)) = toBE 2 (0xC000 + l.length) ++ toBE 2 r.tag ++ c.1 ++ (l.take (frag0 (s.mtu r.tile) c.1.length c.2)).drop c.2
      ∧ s.keeps t []
      ∧ s.memBut t [(handleAddr r.outH, 64 + s.outCap r.outH)]) ∧
  (∀ (s : State) (r : Req) (x : Wagon) (l : List Nat), s.enabled W.RTE = true → s.yard.reqs = [r] → r.sec = false → r.op = 5 →
      s.inPool r.inH = true → s.inPool r.outH = true → r.inofs + r.inlen ≤ s.frmLen r.inH → s.ram.late = [] → s.ram.ue = [] →
      s.rte.old = none → s.rte.lastT = none → s.wag r.wid = some x → x.st = 2 → r.slot < 8 → bitOf x.decl r.slot = true →
      bitOf x.arr r.slot = false → bitsOf x.ctype (4 * r.slot) 4 = 4 → x.cpl.length = 8 → 40 ≤ (s.reqData r).length →
      ((s.reqData r).headD 0).toNat / 16 = 6 → hostOf s.rte.tabs false (ofBE (((s.reqData r).drop 24).take 16)) = some l →
      bitOf (l.getD 6 0) 16 = true → ((rteEnt s.rte.tabs 6 (l.getD 6 0 % 2 ^ 16)).getD []).getD 0 0 % 8 = 1 →
      r.outofs + r.inlen ≤ s.outCap r.outH →
    completes .srhins s fun t => t.yard.reqs = []
      ∧ (t.wag r.wid).map (fun y => y.cpl.getD r.slot 0) = some (r.outH + 0 * 2 ^ 20)
      ∧ s.keeps t []
      ∧ s.memBut t [(handleAddr r.outH, 64 + s.outCap r.outH)]) ∧
  (∀ (s : State) (r : Req) (x : Wagon), s.enabled W.RTE = true → s.yard.reqs = [r] → r.sec = false → r.op = 5 →
      s.inPool r.inH = true → s.inPool r.outH = true → r.inofs + r.inlen ≤ s.frmLen r.inH → s.ram.late = [] → s.ram.ue = [] →
      s.rte.old = none → s.rte.lastT = none → s.wag r.wid = some x → x.st = 2 → r.slot < 8 → bitOf x.decl r.slot = true →
      bitOf x.arr r.slot = false → bitsOf x.ctype (4 * r.slot) 4 = 4 → x.cpl.length = 8 → 40 ≤ (s.reqData r).length →
      ((s.reqData r).headD 0).toNat / 16 = 6 → hostOf s.rte.tabs false (ofBE (((s.reqData r).drop 24).take 16)) = none →
    completes .srhins s fun t => t.yard.reqs = []
      ∧ (t.wag r.wid).map (fun y => y.cpl.getD r.slot 0) = some (r.outH + 13 * 2 ^ 20)
      ∧ s.keeps t []
      ∧ t.mem = s.mem) ∧
  (∀ (s : State) (n : Nat) (x : Reasm), s.rte.reasm[n]? = some x → x.since + max 1 (s.get F.RTE_REASM_TIMEOUT) * 1000000000 < s.ns →
    completes (.reasmExpire n) s fun t => t.rte.reasm = s.rte.reasm.erase x
      ∧ t.ev W.RTE E.RTE_REASMEXP = true
      ∧ s.keeps t [mkF W.RTE (0x180 + 4 * 8) 0 31 0, mkF W.RTE (0x180 + 4 * 8) 31 1 0, F.EV_RAW W.RTE E.RTE_CNTSAT, F.EV_RAW W.RTE E.RTE_REASMEXP]
      ∧ t.mem = s.mem)

/-- R270: a watch whose port or station fails is down at once, with WATCHDOWN; when it recovers its HOLD starts; after HOLD a watch with REVERT
returns, with WATCHUP; RESTORE returns one that is well at once. -/
def Obligations.Watches : Prop :=
  (∀ (s : State) (n : Nat), n < 16 → (s.watch n).raw = true → s.watchInd n = false → s.on (F.RTE_WATCH_UP n) = true →
    completes (.watchChange n) s fun t => t.on (F.RTE_WATCH_UP n) = false
      ∧ (t.watch n).raw = false
      ∧ t.ev W.RTE E.RTE_WATCHDOWN = true
      ∧ s.keeps t [F.RTE_WATCH_UP n, F.EV_RAW W.RTE E.RTE_WATCHDOWN]
      ∧ t.mem = s.mem) ∧
  (∀ (s : State) (n : Nat), n < 16 → (s.watch n).raw = false → s.watchInd n = true →
    completes (.watchChange n) s fun t => t.get (F.RTE_WATCH_UP n) = s.get (F.RTE_WATCH_UP n)
      ∧ (t.watch n).raw = true
      ∧ (t.watch n).since = s.ns
      ∧ s.keeps t []
      ∧ t.mem = s.mem) ∧
  (∀ (s : State) (n : Nat), n < 16 → (s.watch n).raw = true → s.on (F.RTE_WATCH_UP n) = false → s.on (F.RTE_WATCH_REVERT n) = true →
      (s.watch n).since + s.get (F.RTE_WATCH_HOLD n) * 10000000 ≤ s.ns →
    completes (.watchHoldExpire n) s fun t => t.on (F.RTE_WATCH_UP n) = true
      ∧ t.ev W.RTE E.RTE_WATCHUP = true
      ∧ s.keeps t [F.RTE_WATCH_UP n, F.EV_RAW W.RTE E.RTE_WATCHUP]
      ∧ t.mem = s.mem) ∧
  (∀ (s : State) (n : Nat), ((s.watch n).raw = false ∨ s.on (F.RTE_WATCH_REVERT n) = false) →
    completes (.watchHoldExpire n) s fun t => t = s
      ∧ t.mem = s.mem) ∧
  (∀ (s : State) (rq : Rq) (n : Nat) (v : Word), s.winOn W.RTE = true → (rq.cls = 2 → s.dbgLevel = 2) → n < 16 → v.toNat = 2 ^ 4 →
      s.get (F.RTE_WATCH_KIND n) = 0 → s.on (F.RTE_WATCH_FORCEDOWN n) = false → (s.watch n).raw = true →
      s.on (F.RTE_WATCH_UP n) = false →
    completes (.watchRestore rq n v) s fun t => t.on (F.RTE_WATCH_UP n) = true
      ∧ t.ev W.RTE E.RTE_WATCHUP = true
      ∧ t.mem = s.mem)

/-- R275, R277, R278: on an idle port the head of the one class with frames starts when its gate is open and it is not paused, in strict mode or
with its credit not below 0; the end of what EMAC sends frees the port; a refill takes the parameters in the registers when the idle
slopes fit. -/
def Obligations.FrameStarts : Prop :=
  (∀ (s : State) (n : Nat) (c : Nat) (e : SEnt), n < 8 → (s.shpOf n).tx = none → s.canStart n = true → (s.shpOf n).timed = [] →
      (s.emacOf n).want = none → (s.shpOf n).q = [(c, [e])] → c < 8 → s.gateOpen n c = true → s.paused n c = false →
      s.on (F.SHP_TLCTL_RUNNING n) = false → (s.shpOf n).start = none → s.txBad n e.out.handle = 0 → (s.shpCfg n c).1 = 0 →
    completes (.frameBoundary n) s fun t => (t.shpOf n).tx.map (fun x => (x.ent, x.cls, x.beg)) = some (some e, c, s.el)
      ∧ (t.shpOf n).q = []
      ∧ s.keeps t []
      ∧ t.mem = s.mem) ∧
  (∀ (s : State) (n : Nat) (x : STx), n < 8 → (s.shpOf n).tx = some x → x.ent = none → x.beg + s.air16 n x.len ≤ s.el →
      s.on (F.EMAC_CFG_TXEN n) = false → s.on (F.LANE_CTRL2_EIDLE n) = false →
    completes (.frameBoundary n) s fun t => (t.shpOf n).tx = none
      ∧ (t.shpOf n).q = (s.shpOf n).q
      ∧ s.keeps t []
      ∧ t.mem = s.mem) ∧
  (∀ (s : State) (n : Nat) (x : STx), (s.shpOf n).tx = some x → s.el < x.beg + s.air16 n x.len →
    completes (.frameBoundary n) s fun t => (t.shpOf n).tx = (s.shpOf n).tx
      ∧ (t.shpOf n).q = (s.shpOf n).q
      ∧ s.keeps t []
      ∧ t.mem = s.mem) ∧
  (∀ (s : State) (n : Nat) (c : Nat) (e : SEnt), n < 8 → (s.shpOf n).tx = none → 0 ≤ (s.portSync n).credit n c → s.canStart n = true →
      (s.shpOf n).timed = [] → (s.emacOf n).want = none → (s.shpOf n).q = [(c, [e])] → c < 8 → s.gateOpen n c = true →
      s.paused n c = false → s.on (F.SHP_TLCTL_RUNNING n) = false → (s.shpOf n).start = none → s.txBad n e.out.handle = 0 →
    completes (.creditReachesZero n c) s fun t => (t.shpOf n).tx.map (fun x => (x.ent, x.cls, x.beg)) = some (some e, c, s.el)
      ∧ (t.shpOf n).q = []
      ∧ s.keeps t []
      ∧ t.mem = s.mem) ∧
  (∀ (s : State) (n : Nat), n < 8 → s.winOn (W.SHP n) = true → (s.shpOf n).dirty = true → (s.shpOf n).wrote ≠ some s.tm.mono →
      s.slopesFit n (s.shpRegs n) = true → s.on (F.EMAC_CFG_TXEN n) = false →
    completes (.creditRefill n) s fun t => (t.shpOf n).cfg = s.shpRegs n
      ∧ (t.shpOf n).dirty = false
      ∧ t.on (F.SHP_TLCTL_SLOPEBAD n) = false
      ∧ s.keeps t [F.SHP_TLCTL_SLOPEBAD n]
      ∧ t.mem = s.mem) ∧
  (∀ (s : State) (n : Nat), n < 8 → s.winOn (W.SHP n) = true → (s.shpOf n).dirty = true → (s.shpOf n).wrote ≠ some s.tm.mono →
      s.slopesFit n (s.shpRegs n) = false → s.on (F.EMAC_CFG_TXEN n) = false →
    completes (.creditRefill n) s fun t => (t.shpOf n).cfg = (s.shpOf n).cfg
      ∧ t.on (F.SHP_TLCTL_SLOPEBAD n) = true
      ∧ t.ev (W.SHP n) E.SHP_SLOPEREF = true
      ∧ s.keeps t [F.SHP_TLCTL_SLOPEBAD n, F.EV_RAW (W.SHP n) E.SHP_SLOPEREF]
      ∧ t.mem = s.mem)

/-- R89, R280, R281: EN with an active bank that passes its check binds the start at a base plus whole cycles at least 10 us ahead, and one that
fails returns EN to 0 with its cause and TLREF; EN = 0 opens every gate; SWITCH while EN is 0 makes the other bank active, and while one is
armed is TLBUSY; at its start a list runs, and at an entry boundary the gates follow it; a timed frame goes at its launch time or is refused
LATE. -/
def Obligations.TurnLists : Prop :=
  (∀ (s : State) (rq : Rq) (n : Nat) (v : Word), n < 8 → s.winOn (W.SHP n) = true → (rq.cls = 2 → s.dbgLevel = 2) → v.toNat = 1 →
      s.on (F.SHP_TLCTL_EN n) = false → s.tlCause n (s.get (F.SHP_TLCTL_ACTIVE n)) = 0 →
    completes (.tlEnable rq n v) s fun t => t.on (F.SHP_TLCTL_EN n) = true
      ∧ (match (t.shpOf n).start with | some p => p.2 == s.get (F.SHP_TLCTL_ACTIVE n) && decide (s.ns + 10000 ≤ p.1) | none => false) = true
      ∧ t.get (F.SHP_TLCTL_CAUSE n) = 0
      ∧ s.keeps t [F.SHP_TLCTL_EN n, F.SHP_TLCTL_CAUSE n, F.SHP_TLSTARTNS_NS n, F.SHP_TLSTARTSECLO_SEC n, F.SHP_TLSTARTSECHI_SEC n]
      ∧ t.mem = s.mem) ∧
  (∀ (s : State) (rq : Rq) (n : Nat) (v : Word) (c : Nat), n < 8 → s.winOn (W.SHP n) = true → (rq.cls = 2 → s.dbgLevel = 2) →
      v.toNat = 1 → s.on (F.SHP_TLCTL_EN n) = false → s.tlCause n (s.get (F.SHP_TLCTL_ACTIVE n)) = c → c ≠ 0 →
    completes (.tlEnable rq n v) s fun t => t.on (F.SHP_TLCTL_EN n) = false
      ∧ t.get (F.SHP_TLCTL_CAUSE n) = c
      ∧ t.ev (W.SHP n) E.SHP_TLREF = true
      ∧ (t.shpOf n).start = (s.shpOf n).start
      ∧ s.keeps t [F.SHP_TLCTL_EN n, F.SHP_TLCTL_CAUSE n, F.EV_RAW (W.SHP n) E.SHP_TLREF]
      ∧ t.mem = s.mem) ∧
  (∀ (s : State) (rq : Rq) (n : Nat) (v : Word), n < 8 → s.winOn (W.SHP n) = true → (rq.cls = 2 → s.dbgLevel = 2) → v.toNat = 0 →
      s.on (F.SHP_TLCTL_EN n) = true → s.on (F.EMAC_CFG_TXEN n) = false →
    completes (.tlDisable rq n v) s fun t => t.on (F.SHP_TLCTL_EN n) = false
      ∧ t.on (F.SHP_TLCTL_RUNNING n) = false
      ∧ t.on (F.SHP_TLCTL_SWPEND n) = false
      ∧ t.get (F.SHP_TLSTAT_GATES n) = 255
      ∧ (t.shpOf n).start = none
      ∧ (t.shpOf n).swit = none
      ∧ s.keeps t [F.SHP_TLCTL_EN n, F.SHP_TLCTL_RUNNING n, F.SHP_TLCTL_SWPEND n, F.SHP_TLSTAT_GATES n, F.SHP_TLSTAT_ENTRY n]
      ∧ t.mem = s.mem) ∧
  (∀ (s : State) (rq : Rq) (n : Nat) (v : Word), n < 8 → s.winOn (W.SHP n) = true → (rq.cls = 2 → s.dbgLevel = 2) → v.toNat = 4 →
      s.on (F.SHP_TLCTL_EN n) = false → s.on (F.SHP_TLCTL_SWPEND n) = false → s.tlCause n (1 - s.get (F.SHP_TLCTL_ACTIVE n)) = 0 →
    completes (.tlSwitch rq n v) s fun t => t.get (F.SHP_TLCTL_ACTIVE n) = 1 - s.get (F.SHP_TLCTL_ACTIVE n)
      ∧ (t.shpOf n).start = (s.shpOf n).start
      ∧ s.keeps t [F.SHP_TLCTL_ACTIVE n, F.SHP_TLCTL_CAUSE n]
      ∧ t.mem = s.mem) ∧
  (∀ (s : State) (rq : Rq) (n : Nat) (v : Word), n < 8 → s.winOn (W.SHP n) = true → (rq.cls = 2 → s.dbgLevel = 2) → v.toNat = 5 →
      s.on (F.SHP_TLCTL_EN n) = true → s.on (F.SHP_TLCTL_SWPEND n) = false → s.tlCause n (1 - s.get (F.SHP_TLCTL_ACTIVE n)) = 0 →
    completes (.tlSwitch rq n v) s fun t => t.on (F.SHP_TLCTL_SWPEND n) = true
      ∧ (match (t.shpOf n).swit with | some p => p.2 == 1 - s.get (F.SHP_TLCTL_ACTIVE n) && decide (s.ns + 10000 ≤ p.1) | none => false) = true
      ∧ (t.shpOf n).start = (s.shpOf n).start
      ∧ t.get (F.SHP_TLCTL_ACTIVE n) = s.get (F.SHP_TLCTL_ACTIVE n)
      ∧ s.keeps t [F.SHP_TLCTL_SWPEND n, F.SHP_TLCTL_CAUSE n, F.SHP_TLSTARTNS_NS n, F.SHP_TLSTARTSECLO_SEC n, F.SHP_TLSTARTSECHI_SEC n]
      ∧ t.mem = s.mem) ∧
  (∀ (s : State) (rq : Rq) (n : Nat) (v : Word), n < 8 → s.winOn (W.SHP n) = true → (rq.cls = 2 → s.dbgLevel = 2) → v.toNat = 5 →
      s.on (F.SHP_TLCTL_EN n) = true → s.on (F.SHP_TLCTL_SWPEND n) = true →
    completes (.tlSwitch rq n v) s fun t => t.ev (W.SHP n) E.SHP_TLBUSY = true
      ∧ (t.shpOf n).start = (s.shpOf n).start
      ∧ s.keeps t [F.EV_RAW (W.SHP n) E.SHP_TLBUSY]
      ∧ t.mem = s.mem) ∧
  (∀ (s : State) (n : Nat) (a : Nat) (c : Nat), n < 8 → (s.shpOf n).swit = none → (s.shpOf n).start = some (a, c) → a ≤ s.ns →
      s.on (F.EMAC_CFG_TXEN n) = false →
    completes (.tlStart n) s fun t => t.on (F.SHP_TLCTL_RUNNING n) = true
      ∧ (t.shpOf n).start = none
      ∧ t.ev (W.SHP n) E.SHP_TLSTART = true
      ∧ t.get (F.SHP_TLSTAT_GATES n) = (s.tlAt n (s.get (F.SHP_TLCTL_ACTIVE n)) s.ns).2 % 256
      ∧ s.keeps t [F.SHP_TLCTL_RUNNING n, F.SHP_TLSTAT_ENTRY n, F.SHP_TLSTAT_GATES n, F.EV_RAW (W.SHP n) E.SHP_TLSTART]
      ∧ t.mem = s.mem) ∧
  (∀ (s : State) (n : Nat) (a : Nat) (c : Nat), n < 8 → (s.shpOf n).swit = some (a, c) → a ≤ s.ns → c < 2 →
      s.on (F.EMAC_CFG_TXEN n) = false →
    completes (.tlStart n) s fun t => t.on (F.SHP_TLCTL_RUNNING n) = true
      ∧ t.get (F.SHP_TLCTL_ACTIVE n) = c
      ∧ t.on (F.SHP_TLCTL_SWPEND n) = false
      ∧ (t.shpOf n).swit = none
      ∧ (t.shpOf n).start = none
      ∧ t.ev (W.SHP n) E.SHP_TLSTART = true
      ∧ t.get (F.SHP_TLSTAT_GATES n) = (s.tlAt n c s.ns).2 % 256
      ∧ s.keeps t [F.SHP_TLCTL_ACTIVE n, F.SHP_TLCTL_SWPEND n, F.SHP_TLCTL_RUNNING n, F.SHP_TLSTAT_ENTRY n, F.SHP_TLSTAT_GATES n, F.EV_RAW (W.SHP n) E.SHP_TLSTART]
      ∧ t.mem = s.mem) ∧
  (∀ (s : State) (n : Nat), n < 8 → s.on (F.SHP_TLCTL_RUNNING n) = true → s.on (F.EMAC_CFG_TXEN n) = false →
    completes (.tlEntryBoundary n) s fun t => t.get (F.SHP_TLSTAT_GATES n) = (s.tlAt n (s.get (F.SHP_TLCTL_ACTIVE n)) s.ns).2 % 256
      ∧ t.get (F.SHP_TLSTAT_ENTRY n) = (s.tlAt n (s.get (F.SHP_TLCTL_ACTIVE n)) s.ns).1 % 256
      ∧ s.keeps t [F.SHP_TLSTAT_ENTRY n, F.SHP_TLSTAT_GATES n]
      ∧ t.mem = s.mem) ∧
  (∀ (s : State) (n : Nat) (h : Nat) (b : Bool) (e : SEnt), n < 8 → (s.shpOf n).timed = [e] → e.out.handle = h → e.at' ≤ s.ns →
      s.ns ≤ e.at' + 8 → s.canStart n = true → (s.shpOf n).q = [] → (s.emacOf n).want = none → s.gateOpen n (outCls e.out) = true →
      s.paused n (outCls e.out) = false → s.txBad n h = 0 →
    completes (.launchTimeReached true n h b) s fun t => (t.shpOf n).timed = []
      ∧ (t.shpOf n).tx.map (fun x => (x.ent, x.beg)) = some (some e, s.el)
      ∧ s.keeps t []
      ∧ t.mem = s.mem) ∧
  (∀ (s : State) (n : Nat) (h : Nat) (b : Bool) (e : SEnt), n < 8 → (s.shpOf n).timed = [e] → e.out.handle = h → e.at' + 8 < s.ns →
      e.out.compl = false → (s.shpOf n).q = [] → (s.emacOf n).want = none →
    completes (.launchTimeReached true n h b) s fun t => (t.shpOf n).timed = []
      ∧ (t.shpOf n).tx = (s.shpOf n).tx
      ∧ s.keeps t [mkF (W.EMAC n) (0x1C0 + 4 * 9) 0 31 0, mkF (W.EMAC n) (0x1C0 + 4 * 9) 31 1 0, F.EV_RAW (W.EMAC n) E.EMAC_CNTSAT]
      ∧ t.mem = s.mem)

/-- R290, R291: a signal in Detect leads to Negotiate on a KR mode with AN, to Train without, else to Lock; a negotiation with a common ability
leads to Train, and one with none counts ANFAIL and goes on; training keeps its coefficients, and its timeout counts TRAINFAIL and
returns to Detect; word lock leads to Exchange on mode 1, else to Active; a lock timeout leads to Detect; loss of lock and RETRAIN leave
Active; EIDLE = 0 ends the electrical idle of a lane that is not Off. -/
def Obligations.LaneStates : Prop :=
  (∀ (s : State) (n : Nat), n < 8 → s.laneSt n = 1 → isKr (s.laneMode n) = true → s.on (F.LANE_MODE_AN n) = true →
    completes (.signalDetect n) s fun t => t.laneSt n = 2
      ∧ t.on (F.LANE_STAT_SIGNAL n) = true
      ∧ s.keeps t [F.LANE_STAT_STATE n, F.LANE_STAT_SIGNAL n]
      ∧ t.mem = s.mem) ∧
  (∀ (s : State) (n : Nat), n < 8 → s.laneSt n = 1 → isKr (s.laneMode n) = false →
    completes (.signalDetect n) s fun t => t.laneSt n = 4
      ∧ t.on (F.LANE_STAT_SIGNAL n) = true
      ∧ s.keeps t [F.LANE_STAT_STATE n, F.LANE_STAT_SIGNAL n, F.LANE_STAT_FECUSED n]
      ∧ t.mem = s.mem) ∧
  (∀ (s : State) (n : Nat) (c : Nat) (p : Nat) (b : Bool), n < 8 → s.laneSt n = 2 → c < 3 → p < 4 →
    completes (.anComplete n true c p b) s fun t => t.laneSt n = 3
      ∧ t.get (F.LANE_STAT_FECUSED n) = c
      ∧ t.get (F.EMAC_LINK_PARTNERPAUSE n) = p
      ∧ t.on (F.EMAC_LINK_PARTNEREEE n) = b
      ∧ s.keeps t [F.LANE_STAT_STATE n, F.LANE_STAT_FECUSED n, F.EMAC_LINK_PARTNERPAUSE n, F.EMAC_LINK_PARTNEREEE n]
      ∧ t.mem = s.mem) ∧
  (∀ (s : State) (n : Nat) (c : Nat) (p : Nat) (b : Bool), n < 8 → s.laneSt n = 2 →
    completes (.anComplete n false c p b) s fun t => t.laneSt n = 2
      ∧ t.ev (W.LANE n) E.LANE_ANFAIL = true
      ∧ s.keeps t [F.LANE_CNT1_ANFAIL n, F.LANE_CNT1_AOVF n, F.EV_RAW (W.LANE n) E.LANE_CNTSAT, F.EV_RAW (W.LANE n) E.LANE_ANFAIL]
      ∧ t.mem = s.mem) ∧
  (∀ (s : State) (n : Nat) (a : Nat) (b : Nat) (c : Nat), n < 8 → s.laneSt n = 3 → a < 16 → b < 64 → c < 32 →
    completes (.trainComplete n a b c) s fun t => t.laneSt n = 4
      ∧ t.get (F.LANE_TXEQ_PRE n) = a
      ∧ t.get (F.LANE_TXEQ_MAIN n) = b
      ∧ t.get (F.LANE_TXEQ_POST n) = c
      ∧ s.keeps t [F.LANE_STAT_STATE n, F.LANE_TXEQ_PRE n, F.LANE_TXEQ_MAIN n, F.LANE_TXEQ_POST n]
      ∧ t.mem = s.mem) ∧
  (∀ (s : State) (n : Nat), n < 8 → s.laneSt n = 3 →
    completes (.trainTimeout n) s fun t => t.laneSt n = 1
      ∧ t.ev (W.LANE n) E.LANE_TRAINFAIL = true
      ∧ s.keeps t [F.LANE_STAT_STATE n, F.LANE_CNT1_TRAINFAIL n, F.LANE_CNT1_TOVF n, F.EV_RAW (W.LANE n) E.LANE_CNTSAT, F.EV_RAW (W.LANE n) E.LANE_TRAINFAIL]
      ∧ t.mem = s.mem) ∧
  (∀ (s : State) (n : Nat), n < 8 → s.laneSt n = 4 → s.laneMode n = 1 →
    completes (.wordLock n) s fun t => t.laneSt n = 5
      ∧ t.on (F.LANE_STAT_WORDLOCK n) = true
      ∧ s.keeps t [F.LANE_STAT_STATE n, F.LANE_STAT_BITLOCK n, F.LANE_STAT_WORDLOCK n]
      ∧ t.mem = s.mem) ∧
  (∀ (s : State) (n : Nat), n < 8 → s.laneSt n = 4 → 3 ≤ s.laneMode n →
    completes (.wordLock n) s fun t => t.laneSt n = 6
      ∧ t.on (F.LANE_STAT_WORDLOCK n) = true
      ∧ t.ev (W.LANE n) E.LANE_ACTIVE = true
      ∧ s.keeps t [F.LANE_STAT_STATE n, F.LANE_STAT_BITLOCK n, F.LANE_STAT_WORDLOCK n, F.EV_RAW (W.LANE n) E.LANE_ACTIVE]
      ∧ t.mem = s.mem) ∧
  (∀ (s : State) (n : Nat), n < 8 → s.laneSt n = 4 →
    completes (.lockTimeout n) s fun t => t.laneSt n = 1
      ∧ s.keeps t [F.LANE_STAT_STATE n]
      ∧ t.mem = s.mem) ∧
  (∀ (s : State) (n : Nat) (a : Nat) (c : Nat), n < 8 → s.laneSt n = 5 → c < 4 →
    completes (.exchangeComplete n a c) s fun t => t.laneSt n = 6
      ∧ (t.emacOf n).speed = a
      ∧ t.get (F.EMAC_LINK_PARTNERPAUSE n) = c
      ∧ t.ev (W.LANE n) E.LANE_ACTIVE = true
      ∧ s.keeps t [F.LANE_STAT_STATE n, F.EMAC_LINK_PARTNERPAUSE n, F.EV_RAW (W.LANE n) E.LANE_ACTIVE]
      ∧ t.mem = s.mem) ∧
  (∀ (s : State) (n : Nat), n < 8 → s.laneSt n = 6 →
    completes (.lockLoss n) s fun t => t.laneSt n = 4
      ∧ t.on (F.LANE_STAT_WORDLOCK n) = false
      ∧ t.ev (W.LANE n) E.LANE_LOCKLOSS = true
      ∧ s.keeps t [F.LANE_STAT_STATE n, F.LANE_STAT_WORDLOCK n, F.LANE_CNT0_LOCKLOSS n, F.LANE_CNT0_LOVF n, F.EV_RAW (W.LANE n) E.LANE_CNTSAT, F.EV_RAW (W.LANE n) E.LANE_LOCKLOSS]
      ∧ t.mem = s.mem) ∧
  (∀ (s : State) (rq : Rq) (n : Nat) (v : Word), n < 8 → s.winOn (W.LANE n) = true → (rq.cls = 2 → s.dbgLevel = 2) →
      v.toNat = 2 + s.get (F.LANE_CTRL2_EIDLE n) → s.get (F.LANE_CTRL2_EIDLE n) < 2 → s.laneSt n = 6 → isKr (s.laneMode n) = true →
      s.on (F.LANE_MODE_AN n) = false →
    completes (.laneRetrain rq n v) s fun t => t.laneSt n = 3
      ∧ t.on (F.LANE_STAT_WORDLOCK n) = false
      ∧ s.keeps t [F.LANE_STAT_STATE n, F.LANE_STAT_WORDLOCK n]
      ∧ t.mem = s.mem) ∧
  (∀ (s : State) (rq : Rq) (n : Nat) (v : Word), n < 8 → s.winOn (W.LANE n) = true → (rq.cls = 2 → s.dbgLevel = 2) → v.toNat = 1 →
      s.on (F.LANE_CTRL2_EIDLE n) = false → (s.shpOf n).tx = none →
    completes (.eidleWrite rq n v) s fun t => t.on (F.LANE_CTRL2_EIDLE n) = true
      ∧ t.on (F.LANE_STAT_IDLE n) = true
      ∧ s.keeps t [F.LANE_CTRL2_EIDLE n, F.LANE_STAT_IDLE n]
      ∧ t.mem = s.mem) ∧
  (∀ (s : State) (rq : Rq) (n : Nat) (v : Word), n < 8 → s.winOn (W.LANE n) = true → (rq.cls = 2 → s.dbgLevel = 2) → v.toNat = 0 →
      s.on (F.LANE_CTRL2_EIDLE n) = true → s.laneSt n ≠ 0 → s.on (F.EMAC_CFG_TXEN n) = false →
    completes (.eidleWrite rq n v) s fun t => t.on (F.LANE_CTRL2_EIDLE n) = false
      ∧ t.on (F.LANE_STAT_IDLE n) = false
      ∧ s.keeps t [F.LANE_CTRL2_EIDLE n, F.LANE_STAT_IDLE n]
      ∧ t.mem = s.mem)

/-- R292 to R294: when a condition stops holding the link is down, with LINKDOWN and its sticky bits; when all hold it is up at the rate of the
mode; at the start of a frame a buffer and a slot are reserved, or it is NOBUF; a frame of 63 octets or fewer is a runt, one with a
code violation CODEERR, and both give the reservation back. -/
def Obligations.LinksAndReception : Prop :=
  (∀ (s : State) (n : Nat) (a : Bool) (b : Bool), n < 8 → s.on (F.EMAC_LINK_UP n) = true → (s.shpOf n).tx = none →
      (s.emacOf n).rx = none → (s.shpOf n).q = [] → (s.shpOf n).timed = [] →
    completes (.linkDown n a b) s fun t => t.on (F.EMAC_LINK_UP n) = false
      ∧ t.get (F.SHP_PORTRATE_RATE n) = 0
      ∧ t.on (F.EMAC_STICKY_LINKDOWN n) = true
      ∧ t.ev (W.EMAC n) E.EMAC_LINKDOWN = true
      ∧ t.on (F.EMAC_LINK_LOCFAULT n) = a
      ∧ t.on (F.EMAC_LINK_REMFAULT n) = b
      ∧ (t.emacOf n).pause = []
      ∧ s.keeps t [F.EMAC_LINK_UP n, F.EMAC_LINK_TXLPI n, F.EMAC_LINK_RXLPI n, F.EMAC_PAUSESTAT_PAUSED n, F.EMAC_TXPAUSE_PENDING n, F.SHP_PORTRATE_RATE n, F.EMAC_LINK_LOCFAULT n, F.EMAC_LINK_REMFAULT n, F.EMAC_STICKY_LINKDOWN n, F.EMAC_STICKY_LOCFAULT n, F.EMAC_STICKY_REMFAULT n, F.EV_RAW (W.EMAC n) E.EMAC_STICKY, F.EV_RAW (W.EMAC n) E.EMAC_LINKDOWN]
      ∧ t.mem = s.mem) ∧
  (∀ (s : State) (n : Nat), n < 8 → s.on (F.EMAC_LINK_UP n) = false → s.laneSt n = 6 → s.laneMode n = 5 → s.winOn (W.EMAC n) = true →
      s.on (F.EMAC_CFG_TXEN n) = false →
    completes (.linkUp n) s fun t => t.on (F.EMAC_LINK_UP n) = true
      ∧ t.get (F.SHP_PORTRATE_RATE n) = 10000000
      ∧ t.ev (W.EMAC n) E.EMAC_LINKUP = true
      ∧ s.keeps t [F.EMAC_LINK_UP n, F.EMAC_LINK_LOCFAULT n, F.EMAC_LINK_REMFAULT n, F.SHP_PORTRATE_RATE n, F.EV_RAW (W.EMAC n) E.EMAC_LINKUP, F.SHP_TLCTL_SLOPEBAD n, F.EV_RAW (W.SHP n) E.SHP_SLOPEREF]
      ∧ t.mem = s.mem) ∧
  (∀ (s : State) (n : Nat), n < 8 → s.enabled (W.EMAC n) = true → s.on (F.EMAC_CFG_RXEN n) = true → s.on (F.EMAC_LINK_UP n) = true →
      (s.emacOf n).rx = none → 0 < s.bufFree (classFor (s.get (F.EMAC_MAXLEN_MAXLEN n))) →
      kget s.ram.pool (s.bufHandle (classFor (s.get (F.EMAC_MAXLEN_MAXLEN n))) 0) = none → s.enabled W.YARD = true →
      s.resvAll < s.slotsFree → s.trainRoom (s.origTrain (11 + n)) = true →
    completes (.ethRxStart n) s fun t => (t.emacOf n).rx.isSome = true
      ∧ (kget t.yard.resv (s.origTrain (11 + n))).getD 0 = (kget s.yard.resv (s.origTrain (11 + n))).getD 0 + 1
      ∧ (t.emacOf n).rx.map (fun p => p.2) = some (s.ethStamp n, s.origTrain (11 + n))
      ∧ s.keeps t []) ∧
  (∀ (s : State) (n : Nat), n < 8 → s.enabled (W.EMAC n) = true → s.on (F.EMAC_CFG_RXEN n) = true → s.on (F.EMAC_LINK_UP n) = true →
      (s.emacOf n).rx = none → (∀ k ∈ List.range 4, s.bufFree k = 0) →
    completes (.ethRxStart n) s fun t => (t.emacOf n).rx = none
      ∧ t.on (F.EMAC_STICKY_NOBUF n) = true
      ∧ t.mem = s.mem) ∧
  (∀ (s : State) (n : Nat) (l : List Byte) (h : Nat) (x : Nat) (q : Nat), n < 8 → (s.emacOf n).rx = some (h, x, q) → l.length ≤ 63 →
      s.bufAimed h = false →
    completes (.ethRxEnd n l false) s fun t => (t.emacOf n).rx = none
      ∧ kget t.ram.pool h = none
      ∧ t.on (F.EMAC_STICKY_RUNT n) = true
      ∧ s.keeps t [mkF (W.EMAC n) (0x1C0 + 4 * 0) 0 31 0, mkF (W.EMAC n) (0x1C0 + 4 * 0) 31 1 0, F.EV_RAW (W.EMAC n) E.EMAC_CNTSAT, F.EMAC_STICKY_RUNT n, F.EV_RAW (W.EMAC n) E.EMAC_STICKY]
      ∧ t.mem = s.mem) ∧
  (∀ (s : State) (n : Nat) (l : List Byte) (h : Nat) (x : Nat) (q : Nat), n < 8 → (s.emacOf n).rx = some (h, x, q) →
      s.bufAimed h = false →
    completes (.ethRxEnd n l true) s fun t => (t.emacOf n).rx = none
      ∧ kget t.ram.pool h = none
      ∧ t.on (F.EMAC_STICKY_CODEERR n) = true
      ∧ s.keeps t [mkF (W.EMAC n) (0x1C0 + 4 * 3) 0 31 0, mkF (W.EMAC n) (0x1C0 + 4 * 3) 31 1 0, F.EV_RAW (W.EMAC n) E.EMAC_CNTSAT, F.EMAC_STICKY_CODEERR n, F.EV_RAW (W.EMAC n) E.EMAC_STICKY, F.LANE_CNT0_CODEERR n, F.LANE_CNT0_COVF n, F.EV_RAW (W.LANE n) E.LANE_CNTSAT]
      ∧ t.mem = s.mem) ∧
  (∀ (s : State) (n : Nat) (l : List Byte) (h : Nat) (x : Nat) (q : Nat), n < 8 → (s.emacOf n).rx = some (h, x, q) → 64 ≤ l.length →
      l.length ≤ s.get (F.EMAC_MAXLEN_MAXLEN n) → ofLE (l.drop (l.length - 4)) = crc32 (l.take (l.length - 4)) →
      ofBE ((l.drop 12).take 2) ≠ 0x8808 → s.ethFilter n (l.take 6) = true → bitOf (s.get F.SEC_MACSEC_EN) n = false →
      s.yard.wagons = [] → s.yard.reqs = [] →
    completes (.ethRxEnd n l false) s fun t => (t.emacOf n).rx = none
      ∧ t.yard.wagons.map (fun y => (y.2.origin, y.2.st, y.2.cpl.getD 0 0)) = [(11 + n, 3, h)])

/-- R297 to R299: a pause timer that has run out no longer pauses its class; SEND asks for a frame, which waits while the port may not send, and is recorded while FCMODE is 0; the
repeat asks for the last frame again while HOLD is 1; LPI is entered after IDLE with nothing to send, left when there is, and the
partner's LPI is shown. -/
def Obligations.FlowControlAndLpi : Prop :=
  (∀ (s : State) (n : Nat) (c : Nat) (x : Nat), n < 8 → c < 8 → kget (s.emacOf n).pause c = some x → x ≤ s.el →
      s.get (F.EMAC_CFG_FCMODE n) = 2 → s.on (F.EMAC_CFG_TXEN n) = false →
    completes (.pauseTimerExpire n c) s fun t => kget (t.emacOf n).pause c = none
      ∧ bitOf (t.get (F.EMAC_PAUSESTAT_PAUSED n)) c = false
      ∧ s.keeps t [F.EMAC_PAUSESTAT_PAUSED n]
      ∧ t.mem = s.mem) ∧
  (∀ (s : State) (rq : Rq) (n : Nat) (v : Word), n < 8 → s.winOn (W.EMAC n) = true → (rq.cls = 2 → s.dbgLevel = 2) →
      v.toNat / 2 ^ 24 = 1 → s.get (F.EMAC_CFG_FCMODE n) = 1 → s.on (F.EMAC_CFG_TXEN n) = false →
    completes (.txpauseSend rq n v) s fun t => (t.emacOf n).want = some (v.toNat % 65536, v.toNat / 65536 % 256)
      ∧ t.on (F.EMAC_TXPAUSE_PENDING n) = true
      ∧ s.keeps t [F.EMAC_TXPAUSE_QUANTA n, F.EMAC_TXPAUSE_CLASSES n, F.EMAC_TXPAUSE_HOLD n, F.EMAC_TXPAUSE_PENDING n]
      ∧ t.mem = s.mem) ∧
  (∀ (s : State) (rq : Rq) (n : Nat) (v : Word), n < 8 → s.winOn (W.EMAC n) = true → (rq.cls = 2 → s.dbgLevel = 2) →
      v.toNat / 2 ^ 24 = 1 → s.get (F.EMAC_CFG_FCMODE n) = 0 → s.on (F.ERRINFO_VALID (W.EMAC n)) = false →
    completes (.txpauseSend rq n v) s fun t => t.emacOf n = s.emacOf n
      ∧ t.get (F.ERRINFO_CAUSE (W.EMAC n)) = 4
      ∧ t.get (F.ERRINFO_VALID (W.EMAC n)) = 1
      ∧ t.mem = s.mem) ∧
  (∀ (s : State) (n : Nat) (a : Nat) (b : Nat) (x : Nat), n < 8 → (s.emacOf n).sent = some (a, b, x) →
      s.on (F.EMAC_TXPAUSE_HOLD n) = true → 0 < a → (s.emacOf n).want = none → x * 65536 + s.quanta16 n a / 2 ≤ s.el →
      s.on (F.EMAC_CFG_TXEN n) = false →
    completes (.pauseRepeat n) s fun t => (t.emacOf n).want = some (a, b)
      ∧ t.on (F.EMAC_TXPAUSE_PENDING n) = true
      ∧ s.keeps t [F.EMAC_TXPAUSE_PENDING n]
      ∧ t.mem = s.mem) ∧
  (∀ (s : State) (n : Nat), n < 8 → s.enabled (W.EMAC n) = true → s.on (F.EMAC_CFG_EEE n) = true → s.lpiMode n = true →
      s.on (F.EMAC_LINK_UP n) = true → s.on (F.EMAC_LINK_TXLPI n) = false → s.lpiQuiet n = true →
      (s.emacOf n).busyAt + max 1 (s.get (F.EMAC_EEE_IDLE n)) * 1000 ≤ s.tm.mono →
    completes (.lpiEnter n) s fun t => t.on (F.EMAC_LINK_TXLPI n) = true
      ∧ s.keeps t [F.EMAC_LINK_TXLPI n, mkF (W.EMAC n) (0x1C0 + 4 * 12) 0 31 0, mkF (W.EMAC n) (0x1C0 + 4 * 12) 31 1 0, F.EV_RAW (W.EMAC n) E.EMAC_CNTSAT]
      ∧ t.mem = s.mem) ∧
  (∀ (s : State) (n : Nat), n < 8 → s.tm.mono < (s.emacOf n).busyAt + max 1 (s.get (F.EMAC_EEE_IDLE n)) * 1000 → s.lpiQuiet n = true →
    completes (.lpiEnter n) s fun t => t.get (F.EMAC_LINK_TXLPI n) = s.get (F.EMAC_LINK_TXLPI n)
      ∧ s.keeps t []
      ∧ t.mem = s.mem) ∧
  (∀ (s : State) (n : Nat), n < 8 → s.on (F.EMAC_LINK_TXLPI n) = true → s.lpiQuiet n = false →
    completes (.lpiExit n) s fun t => t.on (F.EMAC_LINK_TXLPI n) = false
      ∧ s.tm.mono + 1000 * s.get (F.EMAC_EEE_TWSYS n) ≤ (t.emacOf n).wake
      ∧ s.keeps t [F.EMAC_LINK_TXLPI n]
      ∧ t.mem = s.mem) ∧
  (∀ (s : State) (n : Nat) (b : Bool), n < 8 → s.on (F.EMAC_LINK_UP n) = true →
    completes (.rxLpiChange n b) s fun t => t.on (F.EMAC_LINK_RXLPI n) = b
      ∧ s.keeps t [F.EMAC_LINK_RXLPI n]
      ∧ t.mem = s.mem)

/-- R307 to R310, R314, R315: in Linking a HELLO makes the junior of two Leads the Trail, which goes to Syncing muted, and the other Lead Detached;
a HELLO of another pair is PAIRREF; a heartbeat clears the misses; the fifth miss takes the Lead from Mirrored to Detached, and the Trail in
Shadow over when LIFE_IN is HIGH; LIFE_IN LOW with heartbeats is LIFELOSS; RELEASE gives the Trail the lead; HANDOVER leads to Shadow and RESYNC to Syncing; in Watch an EB of
the Lead clears the misses and the third miss takes over. -/
def Obligations.PairStates : Prop :=
  (∀ (s : State) (a : Nat) (b : Nat) (c : Nat) (d : Nat), s.cplUp = true → s.cpl = 1 → b = s.get F.CPL_ROLE_PAIRID → d = s.cplLanes →
      s.get F.CPL_ROLE_ROLE = 1 → a < s.get F.CPL_ROLE_SENIORITY → (c = 1 ∨ c = 2) →
    completes (.hello a b c d) s fun t => t.cpl = 2
      ∧ t.ev W.CPL E.CPL_STATECHG = true
      ∧ t.mlc.mute = false
      ∧ t.get F.CPL_STAT_PSEN = a
      ∧ s.keeps t [F.CPL_STAT_STATE, F.CPL_STAT_PSEN, F.EV_RAW W.CPL E.CPL_STATECHG]
      ∧ t.mem = s.mem) ∧
  (∀ (s : State) (a : Nat) (b : Nat) (c : Nat) (d : Nat), s.cplUp = true → s.cpl = 1 → b = s.get F.CPL_ROLE_PAIRID → d = s.cplLanes →
      s.get F.CPL_ROLE_ROLE = 1 → s.get F.CPL_ROLE_SENIORITY < a → a < 16 → c = 1 →
    completes (.hello a b c d) s fun t => t.cpl = 4
      ∧ t.ev W.CPL E.CPL_STATECHG = true
      ∧ t.mlc.mute = true
      ∧ s.keeps t [F.CPL_STAT_STATE, F.CPL_STAT_PSEN, F.CPL_SYNCPROG_DONE, F.EV_RAW W.CPL E.CPL_STATECHG]
      ∧ t.mem = s.mem) ∧
  (∀ (s : State) (a : Nat) (b : Nat) (c : Nat) (d : Nat), s.cplUp = true → s.cpl = 1 → b ≠ s.get F.CPL_ROLE_PAIRID →
    completes (.hello a b c d) s fun t => t.cpl = 1
      ∧ t.ev W.CPL E.CPL_PAIRREF = true
      ∧ s.keeps t [F.CPL_STAT_PSEN, F.EV_RAW W.CPL E.CPL_PAIRREF]
      ∧ t.mem = s.mem) ∧
  (∀ (s : State) (a : Nat), 2 ≤ s.cpl → s.cplUp = true → a < 16 →
    completes (.heartbeatReceive a []) s fun t => t.get F.CPL_STAT_HBMISS = 0
      ∧ t.on F.CPL_STAT_HB = true
      ∧ t.get F.CPL_STAT_PSEN = a
      ∧ t.cpl = s.cpl
      ∧ s.keeps t [F.CPL_STAT_HBMISS, F.CPL_STAT_HB, F.CPL_STAT_PSEN]
      ∧ t.mem = s.mem) ∧
  (∀ s : State, s.cpl = 3 → s.get F.CPL_STAT_HBMISS = 4 → s.mlc.lent = [] →
    completes .heartbeatMiss s fun t => t.cpl = 2
      ∧ t.ev W.CPL E.CPL_TRAILLOST = true
      ∧ t.ev W.CPL E.CPL_STATECHG = true
      ∧ t.on F.CPL_STAT_HB = false
      ∧ s.keeps t [F.CPL_STAT_STATE, F.CPL_STAT_HBMISS, F.CPL_STAT_HB, F.CPL_LEND_MT0, F.CPL_LEND_MT1, F.CPL_LEND_BYFLT, F.EV_RAW W.CPL E.CPL_STATECHG, F.EV_RAW W.CPL E.CPL_TRAILLOST, mkF W.CPL (0x80 + 4 * 4) 0 31 0, mkF W.CPL (0x80 + 4 * 4) 31 1 0, F.EV_RAW W.CPL E.CPL_CNTSAT]
      ∧ t.mem = s.mem) ∧
  (∀ s : State, s.cpl = 5 → 4 ≤ s.get F.CPL_STAT_HBMISS → s.life = 2 →
    completes .heartbeatMiss s fun t => t.cpl = 2
      ∧ t.ev W.CPL E.CPL_TAKEOVER = true
      ∧ t.mlc.mute = false
      ∧ t.keys.map (fun e => e.1) = s.keys.map (fun e => e.1)
      ∧ t.mem = s.mem) ∧
  (∀ s : State, s.cpl = 5 → s.hbLost = false → s.life ≠ 1 →
    completes (.lifeInReading 1) s fun t => t.life = 1
      ∧ t.ev W.CPL E.CPL_LIFELOSS = true
      ∧ t.cpl = 5
      ∧ s.keeps t [F.CPL_STAT_LIFE, F.EV_RAW W.CPL E.CPL_LIFELOSS, mkF W.CPL (0x80 + 4 * 5) 0 31 0, mkF W.CPL (0x80 + 4 * 5) 31 1 0, F.EV_RAW W.CPL E.CPL_CNTSAT]
      ∧ t.mem = s.mem) ∧
  (∀ s : State, s.cpl = 6 → s.hbLost = true → s.life ≠ 2 →
    completes (.lifeInReading 2) s fun t => t.life = 2
      ∧ t.cpl = 2
      ∧ t.ev W.CPL E.CPL_TAKEOVER = true
      ∧ t.mem = s.mem) ∧
  (∀ s : State, (s.cpl = 5 ∨ s.cpl = 6) →
    completes .releaseReceive s fun t => t.cpl = 2
      ∧ t.ev W.CPL E.CPL_TAKEOVER = true
      ∧ t.mlc.mute = false
      ∧ s.keeps t [F.CPL_STAT_STATE, F.EV_RAW W.CPL E.CPL_STATECHG, F.EV_RAW W.CPL E.CPL_TAKEOVER, mkF W.CPL (0x80 + 4 * 7) 0 31 0, mkF W.CPL (0x80 + 4 * 7) 31 1 0, F.EV_RAW W.CPL E.CPL_CNTSAT]
      ∧ t.mem = s.mem) ∧
  (∀ (s : State) (rq : Rq) (v : Word), s.winOn W.CPL = true → (rq.cls = 2 → s.dbgLevel = 2) → v.toNat = 1 → s.cpl = 3 → s.mlc.lent = [] →
    completes (.cplHandover rq v) s fun t => t.cpl = 5
      ∧ t.mlc.mutePend = true
      ∧ t.ev W.CPL E.CPL_STATECHG = true
      ∧ t.mem = s.mem) ∧
  (∀ (s : State) (rq : Rq) (v : Word), s.winOn W.CPL = true → (rq.cls = 2 → s.dbgLevel = 2) → v.toNat = 2 → (s.cpl = 5 ∨ s.cpl = 6) →
    completes (.cplResync rq v) s fun t => t.cpl = 4
      ∧ t.get F.CPL_SYNCPROG_DONE = 0
      ∧ t.ev W.CPL E.CPL_STATECHG = true
      ∧ t.pair.mq = []
      ∧ s.keeps t [F.CPL_STAT_STATE, F.CPL_SYNCPROG_DONE, F.EV_RAW W.CPL E.CPL_STATECHG]
      ∧ t.mem = s.mem) ∧
  (∀ (s : State) (a : Nat) (b : Nat), s.cpl = 7 → b = s.get F.CPL_ROLE_PAIRID → s.get F.CPL_PAIRIE_OFS ≠ 0 →
    completes (.cplEbHeard a b 1) s fun t => t.get F.CPL_WATCH_MISSES = 0
      ∧ t.pair.heard = true
      ∧ t.cpl = 7
      ∧ s.keeps t [F.CPL_WATCH_MISSES, F.EV_RAW W.CPL E.CPL_LEADHEARD]
      ∧ t.mem = s.mem) ∧
  (∀ (s : State) (n : Nat), s.cpl = 7 → n % 16 ≠ s.get F.CPL_STAT_PSEN → s.get F.CPL_PAIRIE_OFS ≠ 0 → 2 ≤ s.get F.CPL_WATCH_MISSES →
    completes (.cplEbMiss n) s fun t => t.cpl = 2
      ∧ t.ev W.CPL E.CPL_TAKEOVER = true
      ∧ t.mem = s.mem) ∧
  (∀ (s : State) (n : Nat), s.cpl = 7 → n % 16 = s.get F.CPL_STAT_PSEN →
    completes (.cplEbMiss n) s fun t => t = s
      ∧ t.mem = s.mem)

/-- R304 to R306, R309, R311, R312, R317: a lane that drops leaves the bond, counted and raised, and joins it again with lock at both ends; a marker adds a
locked lane; a heartbeat sends the data queue, and a frame received makes a wagon of origin 19; updates are queued in Syncing and applied in
Shadow; the end of the copy leads to Shadow; the Lead's time is taken; a carrier lent to the Trail is settled by its answer, and is accepted by the Trail's MPHY as its own is. -/
def Obligations.BondAndMirror : Prop :=
  (∀ s : State, s.cpl ≠ 0 → s.cplUp = true → s.pair.q = [] →
    completes .heartbeatSend s fun t => t.pair.q = []
      ∧ t.cpl = s.cpl
      ∧ s.keeps t []
      ∧ t.mem = s.mem) ∧
  (∀ (s : State) (q : Out × Bool), s.cpl ≠ 0 → s.cplUp = true → s.pair.q = [q] → q.1.compl = false → s.frmLen q.1.handle ≤ s.cplBudget →
    completes .heartbeatSend s fun t => t.pair.q = []
      ∧ s.keeps t []
      ∧ t.mem = s.mem) ∧
  (∀ (s : State) (n : Nat), s.cpl ≠ 0 → n = 5 → s.get F.CPL_STAT_ACTIVE = 1 → s.laneHere 2 = true → bitOf s.pair.gone 2 = false →
    completes (.alignmentMarker n) s fun t => t.get F.CPL_STAT_ACTIVE = 5
      ∧ t.pair.map = 5
      ∧ s.keeps t [F.CPL_STAT_ACTIVE]
      ∧ t.mem = s.mem) ∧
  (∀ (s : State) (k : Nat) (a : Nat) (b : Nat), k < 4 → bitOf (s.get F.CPL_STAT_ACTIVE) k = true → s.get F.CPL_STAT_ACTIVE ≠ 2 ^ k →
      bitOf s.pair.gone k = false →
    completes (.couplerLaneDrop k a b) s fun t => t.get F.CPL_STAT_ACTIVE = s.get F.CPL_STAT_ACTIVE - 2 ^ k
      ∧ t.ev W.CPL E.CPL_LANEDROP = true
      ∧ t.pair.gone = s.pair.gone + 2 ^ k) ∧
  (∀ (s : State) (k : Nat), s.cpl ≠ 0 → k < 4 → bitOf (s.get F.CPL_STAT_ACTIVE) k = false → bitOf s.pair.gone k = true →
      bitOf s.pair.map k = true → s.laneHere k = true →
    completes (.couplerLaneJoin k) s fun t => t.get F.CPL_STAT_ACTIVE = s.get F.CPL_STAT_ACTIVE + 2 ^ k
      ∧ t.ev W.CPL E.CPL_LANEJOIN = true
      ∧ t.pair.gone = s.pair.gone - 2 ^ k
      ∧ s.keeps t [F.CPL_STAT_ACTIVE, F.EV_RAW W.CPL E.CPL_LANEJOIN, mkF W.CPL (0x80 + 4 * 1) 0 31 0, mkF W.CPL (0x80 + 4 * 1) 31 1 0, F.EV_RAW W.CPL E.CPL_CNTSAT]
      ∧ t.mem = s.mem) ∧
  (∀ (s : State) (l : List Byte), s.enabled W.CPL = true → s.ram.ue = [] → s.cplUp = true → 0 < s.bufFree (classFor l.length) →
      kget s.ram.pool (s.bufHandle (classFor l.length) 0) = none → s.enabled W.YARD = true → s.yard.wagons = [] →
      s.resvAll < s.slotsFree → s.trainRoom (s.origTrain 19) = true →
    completes (.cplDataReceive l) s fun t => t.yard.wagons.map (fun y => (y.2.origin, y.2.st)) = [(19, 3)]
      ∧ s.keeps t []) ∧
  (∀ (s : State) (m : Mir), s.cpl = 4 →
    completes (.mirrorUpdate m) s fun t => t.pair.mq = s.pair.mq ++ [m]
      ∧ s.keeps t []
      ∧ t.mem = s.mem) ∧
  (∀ (s : State) (i : Nat) (n : Nat), s.cpl = 5 → i < 262144 → n < 2 ^ 32 → s.ram.ue = [] → s.mirrorOf (shadowAt i) = none →
    completes (.mirrorUpdate (.shadow i n)) s fun t => t.peekN (shadowAt i) 4 = n
      ∧ s.keeps t []
      ∧ s.memBut t [(shadowAt i, 4)]) ∧
  (∀ s : State, s.cpl = 4 → s.pair.mq = [] →
    completes (.syncComplete []) s fun t => t.cpl = 5
      ∧ t.get F.CPL_SYNCPROG_DONE = 432
      ∧ t.ev W.CPL E.CPL_STATECHG = true
      ∧ t.mn.idx = []) ∧
  (∀ (s : State) (l : List Mir), s.cpl = 2 →
    completes (.syncComplete l) s fun t => t.cpl = 3
      ∧ t.get F.CPL_DETBLK_BLOCKS = 0
      ∧ t.ev W.CPL E.CPL_STATECHG = true
      ∧ s.keeps t [F.CPL_STAT_STATE, F.CPL_DETBLK_BLOCKS, F.EV_RAW W.CPL E.CPL_STATECHG]
      ∧ t.mem = s.mem) ∧
  (∀ (s : State) (x : LeadTime) (o : Int), (s.cpl = 4 ∨ s.cpl = 5) → o = (((x.t2 : Int) - x.t1) - ((x.t4 : Int) - x.t3)) / 2 →
      -2 ^ 31 ≤ o / 16384 → o / 16384 < 2 ^ 31 →
    completes (.cplTimeCorrect x) s fun t => (t.tm.tb : Int) = ((s.tm.tb : Int) - o * 65536) % (tbMod : Int)
      ∧ t.tm.incr = x.incr
      ∧ t.tm.slew = x.slew
      ∧ t.getI F.CPL_TIMEOFS_OFS = o / 16384
      ∧ t.tm.pend = s.tm.pend ++ x.step.toList.map TimeChange.step
      ∧ t.mem = s.mem) ∧
  (∀ (s : State) (c : Carr), s.cpl = 3 → s.mlc.lent = [c] → s.mlc.tries = [] →
    completes (.lentCarrierRequest c (some 4)) s fun t => t.mlc.lent = []
      ∧ t.mem = s.mem) ∧
  (∀ (s : State) (c : Carr), s.cpl = 3 → s.mlc.lent = [c] → s.mlc.tries = [] →
    completes (.lentCarrierRequest c (some 0)) s fun t => t.mlc.lent = []
      ∧ t.mphy = s.mphy
      ∧ s.keeps t [F.MPHY_CARRSTAT_MT0, F.MPHY_CARRSTAT_MT1, F.MPHY_CARRSTAT_MG]
      ∧ t.mem = s.mem) ∧
  (∀ (s : State) (c : Carr) (d : Carr), s.cpl = 5 → s.enabled W.MPHY = true → s.enabled (W.RFE 3) = true →
      s.retired (0x1000 + c.port) = false → psduOk c.mode c.psdu.length = true → modeOk c.mode = true →
      (modeFam c.mode = 2 ↔ 22 ≤ c.port) → d = { c with dur := preNs c.mode c.pre + airNs c.mode c.psdu.length } →
      carrFull d (s.portCarr c.port) = false → (s.txCheck 3 (carrPath c.port) (s.carrCmd d)).1 = 0 →
      s.carrExcess d ≤ 4 * s.get F.MPHY_TXCFG_MAXRED →
      s.limCheck { id := c.id, port := c.port, lo := c.freq - s.modeBw c.mode / 2, hi := c.freq + (s.modeBw c.mode + 1) / 2, frm := c.at', til := c.at' + d.dur, ack := decide (c.cls = 1), cls := 0 } = 0 →

    completes (.lentCarrierRequest c none) s fun t => t.mphy.status = 0
      ∧ t.mphy.waiting = s.mphy.waiting ++ [{ d with power := c.power - s.carrExcess d }]
      ∧ t.mphy.red = s.carrExcess d
      ∧ t.mphy.active = s.mphy.active
      ∧ t.mem = s.mem) ∧
  (∀ (s : State) (c : Carr), s.cpl = 5 → s.enabled W.MPHY = false →
    completes (.lentCarrierRequest c none) s fun t => t.mphy.status = 2
      ∧ t.mphy.waiting = s.mphy.waiting
      ∧ s.keeps t [F.EV_RAW W.MPHY E.MPHY_TXREF]
      ∧ t.mem = s.mem)

/-- R321, R324, R328, R334, R335: START of a program with its parameters in range runs; ROWS of 0 is cause 3 and a target that only LIM writes
cause 8. START of an activation of a slot runs; slot 7 is cause 3. START of the enrolment runs on a request in DRAM. A bucket a window old leaves its
meter, and a younger one stays. A snapshot that fails to write is counted and raised; one that is written takes the next SEQ and row. -/
def Obligations.StoreAndLimiter : Prop :=
  (∀ (s : State) (rq : Rq), s.winOn W.NVS = true → s.busy W.NVS = false → s.get F.NVS_OPSEL_OP = 0 →
      s.nvsBarred (s.get F.NVS_DST_OFS) (64 * s.get F.NVS_ROWS_ROWS) = false → s.nvsSrc % 64 = 0 → inDram s.nvsSrc = true →
      inDram (s.nvsSrc + 64 * s.get F.NVS_ROWS_ROWS - 1) = true → 0 < s.get F.NVS_ROWS_ROWS → s.get F.NVS_DST_OFS % 64 = 0 →
      s.get F.NVS_DST_OFS + 64 * s.get F.NVS_ROWS_ROWS ≤ 0x2000000 →
    completes (.nvsProgram rq) s fun t => t.opSt W.NVS = 2
      ∧ t.get (F.OPSTAT_CAUSE W.NVS) = 0
      ∧ t.get (F.OPSTAT_PROGRESS W.NVS) = 0
      ∧ t.get (F.OPPART W.NVS) = 0
      ∧ s.keeps t [F.OPSTAT_STATE W.NVS, F.OPSTAT_CAUSE W.NVS, F.OPSTAT_PROGRESS W.NVS, F.OPPART W.NVS]
      ∧ t.mem = s.mem) ∧
  (∀ (s : State) (rq : Rq), s.winOn W.NVS = true → s.busy W.NVS = false → s.get F.NVS_OPSEL_OP = 0 → s.get F.NVS_ROWS_ROWS = 0 →
    completes (.nvsProgram rq) s fun t => t.opSt W.NVS = 4
      ∧ t.get (F.OPSTAT_CAUSE W.NVS) = 3
      ∧ t.ev W.NVS 31 = true
      ∧ s.keeps t [F.OPSTAT_STATE W.NVS, F.OPSTAT_CAUSE W.NVS, F.OPSTAT_PROGRESS W.NVS, F.OPPART W.NVS, F.EV_RAW W.NVS 31]
      ∧ t.mem = s.mem) ∧
  (∀ (s : State) (rq : Rq), s.winOn W.NVS = true → s.busy W.NVS = false → s.get F.NVS_OPSEL_OP = 0 → 0x60000 ≤ s.get F.NVS_DST_OFS →
      s.get F.NVS_DST_OFS < 0x70000 → s.nvsSrc % 64 = 0 → inDram s.nvsSrc = true →
      inDram (s.nvsSrc + 64 * s.get F.NVS_ROWS_ROWS - 1) = true → 0 < s.get F.NVS_ROWS_ROWS → s.get F.NVS_DST_OFS % 64 = 0 →
      s.get F.NVS_DST_OFS + 64 * s.get F.NVS_ROWS_ROWS ≤ 0x2000000 →
    completes (.nvsProgram rq) s fun t => t.opSt W.NVS = 4
      ∧ t.get (F.OPSTAT_CAUSE W.NVS) = 8
      ∧ t.ev W.NVS 31 = true
      ∧ s.keeps t [F.OPSTAT_STATE W.NVS, F.OPSTAT_CAUSE W.NVS, F.OPSTAT_PROGRESS W.NVS, F.OPPART W.NVS, F.EV_RAW W.NVS 31]
      ∧ t.mem = s.mem) ∧
  (∀ (s : State) (rq : Rq), s.winOn W.NVS = true → s.busy W.NVS = false → s.get F.NVS_OPSEL_OP = 1 → s.get F.NVS_OPSEL_SLOT < 7 →
    completes (.nvsActivate rq) s fun t => t.opSt W.NVS = 2
      ∧ t.get (F.OPSTAT_CAUSE W.NVS) = 0
      ∧ t.get (F.OPSTAT_PROGRESS W.NVS) = 0
      ∧ t.get (F.OPPART W.NVS) = 0
      ∧ s.keeps t [F.OPSTAT_STATE W.NVS, F.OPSTAT_CAUSE W.NVS, F.OPSTAT_PROGRESS W.NVS, F.OPPART W.NVS]
      ∧ t.mem = s.mem) ∧
  (∀ (s : State) (rq : Rq), s.winOn W.NVS = true → s.busy W.NVS = false → s.get F.NVS_OPSEL_OP = 1 → s.get F.NVS_OPSEL_SLOT = 7 →
    completes (.nvsActivate rq) s fun t => t.opSt W.NVS = 4
      ∧ t.get (F.OPSTAT_CAUSE W.NVS) = 3
      ∧ t.ev W.NVS 31 = true
      ∧ s.keeps t [F.OPSTAT_STATE W.NVS, F.OPSTAT_CAUSE W.NVS, F.OPSTAT_PROGRESS W.NVS, F.OPPART W.NVS, F.EV_RAW W.NVS 31]
      ∧ t.mem = s.mem) ∧
  (∀ (s : State) (rq : Rq), s.winOn W.SEC = true → s.busy W.SEC = false → s.enrSrc % 64 = 0 → inDram s.enrSrc = true →
      inDram (s.enrSrc + 255) = true →
    completes (.secEnrol rq) s fun t => t.opSt W.SEC = 2
      ∧ t.get (F.OPSTAT_CAUSE W.SEC) = 0
      ∧ t.get (F.OPSTAT_PROGRESS W.SEC) = 0
      ∧ t.get (F.OPPART W.SEC) = 0
      ∧ t.keys = s.keys
      ∧ s.keeps t [F.OPSTAT_STATE W.SEC, F.OPSTAT_CAUSE W.SEC, F.OPSTAT_PROGRESS W.SEC, F.OPPART W.SEC]
      ∧ t.mem = s.mem) ∧
  (∀ (s : State) (n : Nat) (g : RegImage) (x : MeterImg) (l : List (Nat × Nat)), s.lim.img = some g → g.meters[n]? = some x →
      kget s.lim.buckets n = some l →
    completes (.meterBucketAge n) s fun t => kget t.lim.buckets n = some (l.filter fun e => s.ns < e.1 + x.window * 1000000000)
      ∧ t.meterUse n = (l.filter fun e => s.ns < e.1 + x.window * 1000000000).foldl (fun a e => a + e.2) 0
      ∧ s.keeps t []
      ∧ t.mem = s.mem) ∧
  (∀ s : State, s.live = true →
    completes (.limSnapshot false) s fun t => t.lim = s.lim
      ∧ t.ev W.LIM E.LIM_SNAPERR = true
      ∧ s.keeps t [mkF W.LIM 0x90 0 31 0, mkF W.LIM 0x90 31 1 0, F.EV_RAW W.LIM E.LIM_SNAPERR, F.EV_RAW W.LIM E.LIM_CNTSAT]
      ∧ t.mem = s.mem) ∧
  (∀ s : State, s.live = true → s.ram.ue = [] → s.lim.row < 4 →
    completes (.limSnapshot true) s fun t => t.lim.seq = (s.lim.seq + 1) % 2 ^ 32
      ∧ t.lim.row = (s.lim.row + 1) % 4
      ∧ t.peekN (snapRow s.lim.row) 4 = t.lim.seq
      ∧ t.peekN (snapRow s.lim.row + 4) 4 = (if s.env.path = .bridging then 1 else 0) + s.lim.ver % 65536 * 65536
      ∧ t.peekN (snapRow s.lim.row + 60) 4 = crc32 (t.peeks (snapRow s.lim.row) 60)
      ∧ s.keeps t []
      ∧ s.memBut t [(snapRow s.lim.row, 64)])

/-- R329, R330, R338: a request with a key of the right use is answered in the CRYPT coupling with OUT and RESULT 0, or RESULT 1 when the integrity
code fails; an encryption takes the key's next counter, and an exhausted key is RESULT 3; a key that is not there is RESULT 2. The values of the
ciphers are the standards' functions, which the model holds as constants without a value (log entry 9). -/
def Obligations.SecRequests : Prop :=
  (∀ (s : State) (r : Req) (x : Wagon) (k : KeyS), s.enabled W.SEC = true → s.yard.reqs = [r] → r.sec = true → r.op = 1 →
      s.inPool r.inH = true → s.inPool r.secOut = true → s.ram.late = [] → s.ram.ue = [] → s.wag r.wid = some x → x.st = 2 →
      r.slot < 8 → bitOf x.decl r.slot = true → bitOf x.arr r.slot = false → bitsOf x.ctype (4 * r.slot) 4 = 2 → x.cpl.length = 8 →
      kget s.keys r.key = some k → k.use = 1 →
    completes .ccmDecrypt s fun t => t.yard.reqs = []
      ∧ t.keys = s.keys
      ∧ (Config.ccmOpen k.val (s.frmAsn r.inH) (s.secIn r) = none → (t.wag r.wid).map (fun y => y.cpl.getD r.slot 0) = some (2 ^ 20))
      ∧ (∀ l ∈ (Config.ccmOpen k.val (s.frmAsn r.inH) (s.secIn r)).toList, r.hdrofs + l.length ≤ s.outCap r.secOut →
      (t.wag r.wid).map (fun y => y.cpl.getD r.slot 0) = some (r.secOut))
      ∧ s.keeps t [mkF W.SEC (0x80 + 4 * 0) 0 31 0, mkF W.SEC (0x80 + 4 * 0) 31 1 0, F.EV_RAW W.SEC E.SEC_CNTSAT]
      ∧ s.memBut t [(handleAddr r.secOut, 64 + s.outCap r.secOut)]) ∧
  (∀ (s : State) (r : Req) (x : Wagon) (k : KeyS), s.enabled W.SEC = true → s.yard.reqs = [r] → r.sec = true → r.op = 3 →
      s.inPool r.inH = true → s.inPool r.secOut = true → s.ram.late = [] → s.ram.ue = [] → s.wag r.wid = some x → x.st = 2 →
      r.slot < 8 → bitOf x.decl r.slot = true → bitOf x.arr r.slot = false → bitsOf x.ctype (4 * r.slot) 4 = 2 → x.cpl.length = 8 →
      kget s.keys r.key = some k → k.use = 2 →
    completes .gcmpDecrypt s fun t => t.yard.reqs = []
      ∧ t.keys = s.keys
      ∧ (Config.gcmpOpen k.val (s.secIn r) = none → (t.wag r.wid).map (fun y => y.cpl.getD r.slot 0) = some (2 ^ 20))
      ∧ (∀ l ∈ (Config.gcmpOpen k.val (s.secIn r)).toList, r.hdrofs + l.length ≤ s.outCap r.secOut →
      (t.wag r.wid).map (fun y => y.cpl.getD r.slot 0) = some (r.secOut))
      ∧ s.keeps t [mkF W.SEC (0x80 + 4 * 0) 0 31 0, mkF W.SEC (0x80 + 4 * 0) 31 1 0, F.EV_RAW W.SEC E.SEC_CNTSAT]
      ∧ s.memBut t [(handleAddr r.secOut, 64 + s.outCap r.secOut)]) ∧
  (∀ (s : State) (r : Req) (x : Wagon) (k : KeyS), s.enabled W.SEC = true → s.yard.reqs = [r] → r.sec = true → r.op = 5 →
      s.inPool r.inH = true → s.inPool r.secOut = true → s.ram.late = [] → s.ram.ue = [] → s.wag r.wid = some x → x.st = 2 →
      r.slot < 8 → bitOf x.decl r.slot = true → bitOf x.arr r.slot = false → bitsOf x.ctype (4 * r.slot) 4 = 2 → x.cpl.length = 8 →
      kget s.keys r.key = some k → (k.use = 3 ∨ k.use = 4) →
    completes .macsecDecrypt s fun t => t.yard.reqs = []
      ∧ t.keys = s.keys
      ∧ (Config.macsecOpen k.val (s.secIn r) = none → (t.wag r.wid).map (fun y => y.cpl.getD r.slot 0) = some (2 ^ 20))
      ∧ (∀ l ∈ (Config.macsecOpen k.val (s.secIn r)).toList, r.hdrofs + l.length ≤ s.outCap r.secOut →
      (t.wag r.wid).map (fun y => y.cpl.getD r.slot 0) = some (r.secOut))
      ∧ s.keeps t [mkF W.SEC (0x80 + 4 * 0) 0 31 0, mkF W.SEC (0x80 + 4 * 0) 31 1 0, F.EV_RAW W.SEC E.SEC_CNTSAT]
      ∧ s.memBut t [(handleAddr r.secOut, 64 + s.outCap r.secOut)]) ∧
  (∀ (s : State) (r : Req) (x : Wagon) (k : KeyS), s.enabled W.SEC = true → s.yard.reqs = [r] → r.sec = true → r.op = 2 →
      s.inPool r.inH = true → s.inPool r.secOut = true → s.ram.late = [] → s.ram.ue = [] → s.wag r.wid = some x → x.st = 2 →
      r.slot < 8 → bitOf x.decl r.slot = true → bitOf x.arr r.slot = false → bitsOf x.ctype (4 * r.slot) 4 = 2 → x.cpl.length = 8 →
      kget s.keys r.key = some k → k.use = 1 → k.paired = false → k.exh = false → k.cnt < 0xFFFFFFFF →
    completes .ccmEncrypt s fun t => t.yard.reqs = []
      ∧ (kget t.keys r.key).map (fun y => (y.cnt, y.exh)) = some (k.cnt + 1, false)
      ∧ (r.hdrofs + (Config.ccmSeal k.val (s.frmAsn r.inH) k.cnt (s.secIn r)).length ≤ s.outCap r.secOut →
      (t.wag r.wid).map (fun y => y.cpl.getD r.slot 0) = some (r.secOut))
      ∧ s.keeps t []
      ∧ s.memBut t [(handleAddr r.secOut, 64 + s.outCap r.secOut)]) ∧
  (∀ (s : State) (r : Req) (x : Wagon) (k : KeyS), s.enabled W.SEC = true → s.yard.reqs = [r] → r.sec = true → r.op = 4 →
      s.inPool r.inH = true → s.inPool r.secOut = true → s.ram.late = [] → s.ram.ue = [] → s.wag r.wid = some x → x.st = 2 →
      r.slot < 8 → bitOf x.decl r.slot = true → bitOf x.arr r.slot = false → bitsOf x.ctype (4 * r.slot) 4 = 2 → x.cpl.length = 8 →
      kget s.keys r.key = some k → k.use = 2 → k.paired = false → k.exh = false → k.cnt < 0xFFFFFFFF →
    completes .gcmpEncrypt s fun t => t.yard.reqs = []
      ∧ (kget t.keys r.key).map (fun y => (y.cnt, y.exh)) = some (k.cnt + 1, false)
      ∧ (r.hdrofs + (Config.gcmpSeal k.val k.cnt (s.secIn r)).length ≤ s.outCap r.secOut →
      (t.wag r.wid).map (fun y => y.cpl.getD r.slot 0) = some (r.secOut))
      ∧ s.keeps t []
      ∧ s.memBut t [(handleAddr r.secOut, 64 + s.outCap r.secOut)]) ∧
  (∀ (s : State) (r : Req) (x : Wagon) (k : KeyS), s.enabled W.SEC = true → s.yard.reqs = [r] → r.sec = true → r.op = 6 →
      s.inPool r.inH = true → s.inPool r.secOut = true → s.ram.late = [] → s.ram.ue = [] → s.wag r.wid = some x → x.st = 2 →
      r.slot < 8 → bitOf x.decl r.slot = true → bitOf x.arr r.slot = false → bitsOf x.ctype (4 * r.slot) 4 = 2 → x.cpl.length = 8 →
      kget s.keys r.key = some k → (k.use = 3 ∨ k.use = 4) → k.paired = false → k.exh = false → k.cnt < 0xFFFFFFFF →
    completes .macsecEncrypt s fun t => t.yard.reqs = []
      ∧ (kget t.keys r.key).map (fun y => (y.cnt, y.exh)) = some (k.cnt + 1, false)
      ∧ (r.hdrofs + (Config.macsecSeal k.val k.cnt (s.secIn r)).length ≤ s.outCap r.secOut →
      (t.wag r.wid).map (fun y => y.cpl.getD r.slot 0) = some (r.secOut))
      ∧ s.keeps t []
      ∧ s.memBut t [(handleAddr r.secOut, 64 + s.outCap r.secOut)]) ∧
  (∀ (s : State) (r : Req) (x : Wagon) (k : KeyS), s.enabled W.SEC = true → s.yard.reqs = [r] → r.sec = true → r.op = 2 →
      s.inPool r.inH = true → s.inPool r.secOut = true → s.ram.late = [] → s.ram.ue = [] → s.wag r.wid = some x → x.st = 2 →
      r.slot < 8 → bitOf x.decl r.slot = true → bitOf x.arr r.slot = false → bitsOf x.ctype (4 * r.slot) 4 = 2 → x.cpl.length = 8 →
      kget s.keys r.key = some k → k.use = 1 → k.paired = false → k.exh = true →
    completes .ccmEncrypt s fun t => t.yard.reqs = []
      ∧ t.keys = s.keys
      ∧ (t.wag r.wid).map (fun y => y.cpl.getD r.slot 0) = some (3 * 2 ^ 20)
      ∧ s.keeps t [mkF W.SEC (0x80 + 4 * 2) 0 31 0, mkF W.SEC (0x80 + 4 * 2) 31 1 0, F.EV_RAW W.SEC E.SEC_CNTSAT]
      ∧ t.mem = s.mem) ∧
  (∀ (s : State) (r : Req) (x : Wagon) (k : KeyS), s.enabled W.SEC = true → s.yard.reqs = [r] → r.sec = true → r.op = 4 →
      s.inPool r.inH = true → s.inPool r.secOut = true → s.ram.late = [] → s.ram.ue = [] → s.wag r.wid = some x → x.st = 2 →
      r.slot < 8 → bitOf x.decl r.slot = true → bitOf x.arr r.slot = false → bitsOf x.ctype (4 * r.slot) 4 = 2 → x.cpl.length = 8 →
      kget s.keys r.key = some k → k.use = 2 → k.paired = false → k.exh = true →
    completes .gcmpEncrypt s fun t => t.yard.reqs = []
      ∧ t.keys = s.keys
      ∧ (t.wag r.wid).map (fun y => y.cpl.getD r.slot 0) = some (3 * 2 ^ 20)
      ∧ s.keeps t [mkF W.SEC (0x80 + 4 * 2) 0 31 0, mkF W.SEC (0x80 + 4 * 2) 31 1 0, F.EV_RAW W.SEC E.SEC_CNTSAT]
      ∧ t.mem = s.mem) ∧
  (∀ (s : State) (r : Req) (x : Wagon) (k : KeyS), s.enabled W.SEC = true → s.yard.reqs = [r] → r.sec = true → r.op = 6 →
      s.inPool r.inH = true → s.inPool r.secOut = true → s.ram.late = [] → s.ram.ue = [] → s.wag r.wid = some x → x.st = 2 →
      r.slot < 8 → bitOf x.decl r.slot = true → bitOf x.arr r.slot = false → bitsOf x.ctype (4 * r.slot) 4 = 2 → x.cpl.length = 8 →
      kget s.keys r.key = some k → (k.use = 3 ∨ k.use = 4) → k.paired = false → k.exh = true →
    completes .macsecEncrypt s fun t => t.yard.reqs = []
      ∧ t.keys = s.keys
      ∧ (t.wag r.wid).map (fun y => y.cpl.getD r.slot 0) = some (3 * 2 ^ 20)
      ∧ s.keeps t [mkF W.SEC (0x80 + 4 * 2) 0 31 0, mkF W.SEC (0x80 + 4 * 2) 31 1 0, F.EV_RAW W.SEC E.SEC_CNTSAT]
      ∧ t.mem = s.mem) ∧
  (∀ (s : State) (r : Req) (x : Wagon), s.enabled W.SEC = true → s.yard.reqs = [r] → r.sec = true → r.op = 3 → s.inPool r.inH = true →
      s.inPool r.secOut = true → s.ram.late = [] → s.ram.ue = [] → s.wag r.wid = some x → x.st = 2 → r.slot < 8 →
      bitOf x.decl r.slot = true → bitOf x.arr r.slot = false → bitsOf x.ctype (4 * r.slot) 4 = 2 → x.cpl.length = 8 →
      kget s.keys r.key = none →
    completes .gcmpDecrypt s fun t => t.yard.reqs = []
      ∧ (t.wag r.wid).map (fun y => y.cpl.getD r.slot 0) = some (2 * 2 ^ 20)
      ∧ s.keeps t [mkF W.SEC (0x80 + 4 * 1) 0 31 0, mkF W.SEC (0x80 + 4 * 1) 31 1 0, F.EV_RAW W.SEC E.SEC_CNTSAT]
      ∧ t.mem = s.mem)

/-- R342 to R345, R347, R350, R353: a write of APC_RELEASE starts the harts not yet released at APC_ENTRY; MSIP takes bit 0; a claim answers the pending enabled
source of highest priority and takes it off, a completion lets it ask again; a read of memory answers the octets there and a write stores
them; scrub moves on one word; an allocation gives a free buffer of the smallest class that fits (which one is the model's pick, log entry 5)
and a release gives it back; START of a check unit with its range in memory runs with v at INIT. -/
def Obligations.ClusterAndMemory : Prop :=
  (∀ (s : State) (rq : Rq) (v : Word), s.winOn W.APC = true → (rq.cls = 2 → s.dbgLevel = 2) →
      (∀ h ∈ List.range 8, (s.hart h).rhr = false) →
    completes (.hartRelease rq v) s fun t => (∀ h ∈ List.range 8,
      bitOf (t.get F.APC_HARTSTAT_RUN) h = (bitOf (s.get F.APC_HARTSTAT_RUN) h || bitOf v.toNat h))
      ∧ (∀ h ∈ List.range 8,
      t.apc.entry.getD h 0 = (if bitOf v.toNat h && !bitOf (s.get F.APC_HARTSTAT_RUN) h && decide (h < s.apc.entry.length) then s.get F.APC_ENTRYLO_ADDR + s.get F.APC_ENTRYHI_ADDR * 2 ^ 32 else s.apc.entry.getD h 0))
      ∧ s.keeps t [F.APC_HARTSTAT_RUN]
      ∧ t.mem = s.mem) ∧
  (∀ (s : State) (h : Nat) (n : Nat) (v : Word), s.live = true → s.domSt 15 = 2 → h < 8 → n < 8 → s.apc.msip.length = 8 →
    completes (.msipWrite h n v) s fun t => t.apc.msip.getD h 2 = v.toNat % 2
      ∧ (∀ i ∈ List.range 8, i ≠ h → t.apc.msip.getD i 2 = s.apc.msip.getD i 2)
      ∧ s.keeps t []
      ∧ t.mem = s.mem) ∧
  (∀ (s : State) (c : Nat) (n : Nat), s.live = true → s.domSt 15 = 2 → c < 16 → s.apc.plicPend = [n] →
      bitOf (s.plicEn c (n / 32)) (n % 32) = true → 0 < s.plicPrio n →
    completes (.plicClaim c) s fun t => t.bus.data = n
      ∧ t.apc.plicPend = []
      ∧ kget t.apc.plicSvc n = some c
      ∧ t.bus.err = false
      ∧ t.bus.dark = false
      ∧ t.bus.ue = false
      ∧ s.keeps t []
      ∧ t.mem = s.mem) ∧
  (∀ (s : State) (c : Nat), s.live = true → s.domSt 15 = 2 → c < 16 → s.apc.plicPend = [] →
    completes (.plicClaim c) s fun t => t.bus.data = 0
      ∧ t.apc = s.apc
      ∧ s.keeps t []
      ∧ t.mem = s.mem) ∧
  (∀ (s : State) (c : Nat) (n : Nat), s.live = true → s.domSt 15 = 2 → c < 16 → kget s.apc.plicSvc n = some c → 0 < n →
      s.evOut (n - 1) ≠ 0 → s.apc.plicPend = [] →
    completes (.plicComplete c n) s fun t => kget t.apc.plicSvc n = none
      ∧ t.apc.plicPend = [n]
      ∧ s.keeps t []
      ∧ t.mem = s.mem) ∧
  (∀ (s : State) (c : Nat) (n : Nat), kget s.apc.plicSvc n ≠ some c →
    completes (.plicComplete c n) s fun t => t = s
      ∧ t.mem = s.mem) ∧
  (∀ (s : State) (rq : Rq) (a : Nat) (n : Nat) (v : Nat), s.live = true → s.domSt 16 = 2 → (inSram a = true ∨ inDram a = true) →
      n ∈ [1, 2, 4, 8] → a % n = 0 → rq.cls ≠ 2 → s.ram.ue = [] →
    completes (.memAccess rq a n false v .none) s fun t => t.bus.data = s.peekN a n
      ∧ t.bus.err = false
      ∧ t.bus.dark = false
      ∧ t.bus.ue = false
      ∧ s.keeps t []
      ∧ t.mem = s.mem) ∧
  (∀ (s : State) (rq : Rq) (a : Nat) (n : Nat) (v : Nat), s.live = true → s.domSt 16 = 2 → (inSram a = true ∨ inDram a = true) →
      n ∈ [1, 2, 4, 8] → a % n = 0 → rq.cls ≠ 2 → s.ram.ue = [] → inBoard a = false → inMap a = false → v < 2 ^ (8 * n) →
    completes (.memAccess rq a n true v .none) s fun t => t.peekN a n = v
      ∧ t.bus.err = false
      ∧ t.bus.dark = false
      ∧ t.bus.ue = false
      ∧ s.keeps t []
      ∧ s.memBut t [(a, n), ((if (s.mirrorOf a).isSome then a + 0x200000000 else a), n)]) ∧
  (∀ (s : State) (rq : Rq) (a : Nat) (n : Nat) (v : Nat) (w : Bool) (u : Upset), s.live = true → inSram a = true → n ∈ [1, 2, 4, 8] →
      a % n ≠ 0 → rq.cls ≠ 2 → rq.cls ≠ 1 → s.domSt 16 = 2 →
    completes (.memAccess rq a n w v u) s fun t => t.bus.data = 0
      ∧ s.keeps t []
      ∧ t.mem = s.mem) ∧
  (∀ s : State, s.live = true → s.domSt 16 = 2 → s.get F.MEM_SCRUB_SRAMS ≠ 0 → s.ram.ue = [] →
    completes (.scrub false .none) s fun t => t.ram.scrubS = (s.ram.scrubS + 1) % 0x800000
      ∧ t.ram.scrubD = s.ram.scrubD
      ∧ s.keeps t []
      ∧ t.mem = s.mem) ∧
  (∀ s : State, s.live = true → s.domSt 16 = 2 → s.get F.MEM_SCRUB_DRAMH ≠ 0 → s.ram.ue = [] →
    completes (.scrub true .none) s fun t => t.ram.scrubD = (s.ram.scrubD + 1) % 0x80000000
      ∧ t.ram.scrubS = s.ram.scrubS
      ∧ s.keeps t []
      ∧ t.mem = s.mem) ∧
  (∀ (s : State) (rq : Rq) (v : Word), s.winOn W.MEM = true → (rq.cls = 2 → s.dbgLevel = 2) → 0 < v.toNat % 2 ^ 14 →
      0 < s.bufFree (classFor (v.toNat % 2 ^ 14)) → kget s.ram.pool (s.bufHandle (classFor (v.toNat % 2 ^ 14)) 0) = none →
    completes (.memAlloc rq v) s fun t => 0 < (kget t.ram.res (rqKey rq)).getD 0
      ∧ kget t.ram.pool ((kget t.ram.res (rqKey rq)).getD 0) = some (classFor (v.toNat % 2 ^ 14))
      ∧ kget s.ram.pool ((kget t.ram.res (rqKey rq)).getD 0) = none
      ∧ s.keeps t []) ∧
  (∀ (s : State) (rq : Rq) (v : Word) (n : Nat), s.winOn W.MEM = true → (rq.cls = 2 → s.dbgLevel = 2) →
      kget s.ram.pool (v.toNat % 2 ^ 20) = some n → s.bufAimed (v.toNat % 2 ^ 20) = false →
    completes (.memFree rq v) s fun t => t.ram.pool = kdel s.ram.pool (v.toNat % 2 ^ 20)
      ∧ s.keeps t []
      ∧ t.mem = s.mem) ∧
  (∀ (s : State) (rq : Rq) (v : Word), s.winOn W.MEM = true → (rq.cls = 2 → s.dbgLevel = 2) → kget s.ram.pool (v.toNat % 2 ^ 20) = none →
    completes (.memFree rq v) s fun t => t.ram = s.ram
      ∧ s.keeps t [mkF W.MEM 0xE4 0 31 0, mkF W.MEM 0xE4 31 1 0, F.EV_RAW W.MEM E.MEM_CNTSAT]
      ∧ t.mem = s.mem) ∧
  (∀ (s : State) (rq : Rq) (n : Nat), n < 4 → s.winOn (W.CHK n) = true → s.busy (W.CHK n) = false → s.on (F.CHK_CFG_CONT n) = false →
      1 ≤ s.chkW n → s.chkW n ≤ 64 → 0 < s.get (F.CHK_LEN_LEN n) → inDram (s.chkAddr n) = true →
      inDram (s.chkAddr n + s.get (F.CHK_LEN_LEN n) - 1) = true →
    completes (.chkScan rq n) s fun t => t.opSt (W.CHK n) = 2
      ∧ t.get (F.OPSTAT_PROGRESS (W.CHK n)) = 0
      ∧ t.chkVal n = (s.get (F.CHK_INITLO_INIT n) + s.get (F.CHK_INITHI_INIT n) * 2 ^ 32) % 2 ^ s.chkW n
      ∧ s.keeps t [F.OPSTAT_STATE (W.CHK n), F.OPSTAT_CAUSE (W.CHK n), F.OPSTAT_PROGRESS (W.CHK n), F.OPPART (W.CHK n), F.CHK_VALLO_V n, F.CHK_VALHI_V n]
      ∧ t.mem = s.mem)

/-- R363 to R368: a write of PWR_STATECMD with GO whose target the conditions allow starts the change; a refused one records its cause, counts and raises
REFUSED, and the target in force is without effect; during a change a request waits. A change completed shows its state and raises STATECHG. An
enabled wake source starts the change out of Hush; in Dormant a source or the alarm starts the die with WAKE. A performance request starts
the rail, and at the level PERFDONE is raised. -/
def Obligations.PowerStates : Prop :=
  (∀ (s : State) (rq : Rq) (v : Word) (n : Nat) (w : Nat), s.winOn W.PWR = true → (rq.cls = 2 → s.dbgLevel = 2) →
      s.env.phase = .software → v.toNat = 8 + n → n = s.dev → s.pwr.change = none →
    completes (.stateRequest rq v w) s fun t => t.pwr = s.pwr
      ∧ t.dev = s.dev
      ∧ s.keeps t [F.PWR_STATECMD_TARGET]
      ∧ t.mem = s.mem) ∧
  (∀ (s : State) (rq : Rq) (v : Word) (n : Nat) (w : Nat), s.winOn W.PWR = true → (rq.cls = 2 → s.dbgLevel = 2) →
      s.env.phase = .software → v.toNat = 8 + n → n = 1 → s.dev = 0 → s.pwr.change = none →
    completes (.stateRequest rq v w) s fun t => t.pwr.change = some 1
      ∧ t.pwr.final = 1
      ∧ t.on F.PWR_STATUS_CHANGING = true
      ∧ t.dev = 0) ∧
  (∀ (s : State) (rq : Rq) (v : Word) (n : Nat) (w : Nat), s.winOn W.PWR = true → (rq.cls = 2 → s.dbgLevel = 2) →
      s.env.phase = .software → v.toNat = 8 + n → n = 0 → s.dev = 1 → s.pwr.change = none → s.get F.PINS_SUPPLY_SOURCE = 2 →
    completes (.stateRequest rq v w) s fun t => t.get F.PWR_STATECMD_CAUSE = 1
      ∧ t.ev W.PWR E.PWR_REFUSED = true
      ∧ t.pwr = s.pwr
      ∧ s.keeps t [F.PWR_STATECMD_TARGET, F.PWR_STATECMD_CAUSE, F.EV_RAW W.PWR E.PWR_REFUSED, mkF W.PWR (0xE0 + 4 * 1) 0 31 0, mkF W.PWR (0xE0 + 4 * 1) 31 1 0, F.EV_RAW W.PWR E.PWR_CNTSAT]
      ∧ t.mem = s.mem) ∧
  (∀ (s : State) (rq : Rq) (v : Word) (n : Nat) (w : Nat), s.winOn W.PWR = true → (rq.cls = 2 → s.dbgLevel = 2) →
      s.env.phase = .software → v.toNat = 8 + n → (n = 2 ∨ n = 3) → s.dev = 1 → s.pwr.change = none → s.cpl ≠ 0 →
    completes (.stateRequest rq v w) s fun t => t.get F.PWR_STATECMD_CAUSE = 3
      ∧ t.ev W.PWR E.PWR_REFUSED = true
      ∧ t.pwr = s.pwr
      ∧ s.keeps t [F.PWR_STATECMD_TARGET, F.PWR_STATECMD_CAUSE, F.EV_RAW W.PWR E.PWR_REFUSED, mkF W.PWR (0xE0 + 4 * 1) 0 31 0, mkF W.PWR (0xE0 + 4 * 1) 31 1 0, F.EV_RAW W.PWR E.PWR_CNTSAT]
      ∧ t.mem = s.mem) ∧
  (∀ (s : State) (rq : Rq) (v : Word) (n : Nat) (w : Nat), s.winOn W.PWR = true → (rq.cls = 2 → s.dbgLevel = 2) →
      s.env.phase = .software → v.toNat = 8 + n → n < 4 → s.pwr.change.isSome = true → s.pwr.pend = none →
    completes (.stateRequest rq v w) s fun t => t.pwr.pend = some n
      ∧ t.pwr.change = s.pwr.change
      ∧ t.dev = s.dev
      ∧ s.keeps t [F.PWR_STATECMD_TARGET]
      ∧ t.mem = s.mem) ∧
  (∀ (s : State) (w : Nat), s.pwr.change = some 1 → s.pwr.final = 1 → s.pwr.forced = false → s.pwr.pend = none → s.dev = 0 →
    completes (.stateChangeDone w) s fun t => t.dev = 1
      ∧ t.pwr.change = none
      ∧ t.on F.PWR_STATUS_CHANGING = false
      ∧ t.ev W.PWR E.PWR_STATECHG = true
      ∧ t.pwr.capState = 1
      ∧ (∀ d ∈ ([3, 4, 5, 6] : List Nat), t.domSt d ≠ 2)) ∧
  (∀ (s : State) (w : Nat), s.pwr.change = none →
    completes (.stateChangeDone w) s fun t => t = s
      ∧ t.mem = s.mem) ∧
  (∀ (s : State) (n : Nat) (a : Nat), s.live = true → s.env.phase = .software → s.dev = 2 → s.pwr.change = none → n = 6 →
      s.on F.PWR_WAKEMASK_INTR = true → s.intrWake = true →
    completes (.wakeSource n a) s fun t => t.pwr.change = some 1
      ∧ t.pwr.final = (if s.on F.PWR_STATECFG_WAKETO then 0 else 1)
      ∧ t.get F.PWR_WAKE_CAUSE = 64
      ∧ t.on F.PWR_WAKE_DORMANT = false
      ∧ t.ev W.PWR E.PWR_WAKE = true
      ∧ s.keeps t [F.PWR_STATUS_CHANGING, F.PWR_WAKE_CAUSE, F.PWR_WAKE_DORMANT, F.EV_RAW W.PWR E.PWR_WAKE, mkF W.PWR (0xE0 + 4 * 2) 0 31 0, mkF W.PWR (0xE0 + 4 * 2) 31 1 0, F.EV_RAW W.PWR E.PWR_CNTSAT]
      ∧ t.mem = s.mem) ∧
  (∀ (s : State) (n : Nat) (a : Nat), s.live = true → s.env.phase = .software → s.dev = 3 → s.pwr.change = none → n = 1 →
      s.on F.PWR_WAKEMASK_MAINSRET = true → s.env.path = .onMains →
    completes (.wakeSource n a) s fun t => t.env.phase = .boot
      ∧ t.get F.PWR_WAKE_CAUSE = 2
      ∧ t.on F.PWR_WAKE_DORMANT = true
      ∧ t.ev W.PWR E.PWR_WAKE = true
      ∧ t.get F.SYS_START_CAUSE = 3) ∧
  (∀ (s : State) (n : Nat) (a : Nat), s.dev = 3 → n = 6 → s.pwr.change = none →
    completes (.wakeSource n a) s fun t => t = s
      ∧ t.mem = s.mem) ∧
  (∀ (s : State) (a : Nat), s.live = true → s.env.phase = .software → s.dev = 3 → s.on F.PWR_WAKEMASK_ALARM = true →
      s.get F.PWR_ALARM_MS ≠ 0 → s.get F.PWR_ALARM_MS * 1000000 * 65536 ≤ s.slpElapsed a →
    completes (.dormantAlarm a) s fun t => t.env.phase = .boot
      ∧ t.get F.PWR_WAKE_CAUSE = 1
      ∧ t.on F.PWR_WAKE_DORMANT = true
      ∧ t.ev W.PWR E.PWR_WAKE = true) ∧
  (∀ (s : State) (rq : Rq) (v : Word), s.winOn W.PWR = true → (rq.cls = 2 → s.dbgLevel = 2) → s.pwr.capState = 0 → v.toNat < 16 →
      s.pwr.fabTo = none → s.pwr.cluTo = none → s.get F.PWR_PERFSTAT_FABRIC ≠ v.toNat % 4 → v.toNat % 4 < 4 →
      s.get F.PWR_PERFSTAT_CLUSTER = v.toNat / 4 → v.toNat / 4 < 3 →
    completes (.perfRequest rq v) s fun t => t.pwr.fabTo = some (v.toNat % 4)
      ∧ t.pwr.cluTo = none
      ∧ t.get F.PWR_PERFREQ_FABRIC = v.toNat % 4
      ∧ s.keeps t [F.PWR_PERFREQ_FABRIC, F.PWR_PERFREQ_CLUSTER]
      ∧ t.mem = s.mem) ∧
  (∀ (s : State) (n : Nat), s.live = true → s.pwr.fabTo = some n → n = s.perfWant.1 → n < 4 →
    completes (.perfSwitchDone false) s fun t => t.get F.PWR_PERFSTAT_FABRIC = n
      ∧ t.pwr.fabTo = none
      ∧ t.ev W.PWR E.PWR_PERFDONE = true
      ∧ s.keeps t [F.PWR_PERFSTAT_FABRIC, F.EV_RAW W.PWR E.PWR_PERFDONE]
      ∧ t.mem = s.mem) ∧
  (∀ (s : State) (n : Nat), s.live = true → s.pwr.cluTo = some n → n = s.perfWant.2 → n < 4 → s.pwr.capState < 2 →
    completes (.perfSwitchDone true) s fun t => t.get F.PWR_PERFSTAT_CLUSTER = n
      ∧ t.pwr.cluTo = none
      ∧ t.ev W.PWR E.PWR_PERFDONE = true
      ∧ s.keeps t [F.PWR_PERFSTAT_CLUSTER, F.EV_RAW W.PWR E.PWR_PERFDONE]
      ∧ t.mem = s.mem)

/-- R373, R375 to R377: an event of a resource is counted in the window, and the one that reaches the threshold retires it, here an engine; a hard event of
an aerial chain (R374) retires it at once; RESTORE clears the count. A handshake stall, a rail fault, the loss of the tick clock and STOP stop the die, with
LIFE_OUT high and the cause recorded; after STOPHOLD it restarts with STOPPED. An engine that retires nothing fails and its wagon is Ready
again; one over RUNMAX ends its wagon void. -/
def Obligations.FaultEvents : Prop :=
  (∀ (s : State) (n : Nat) (a : Nat) (b : Bool), n / 256 = 0x21 → n % 256 ≤ 47 → s.retired n = false →
      (inWin (s.ledger n).times s.ns s.fltWindow).length + 1 < max 2 (s.get F.FLT_CFG_THRESH) →
    completes (.faultEvent n a b) s fun t => t.retired n = false
      ∧ (t.ledger n).times = inWin (s.ledger n).times s.ns s.fltWindow ++ [s.ns]
      ∧ t.get F.FLT_LAST_CODE = n
      ∧ t.on F.FLT_LAST_LASTING = false
      ∧ t.ev W.FLT E.FLT_UPSET = true
      ∧ s.keeps t [F.FLT_LAST_CODE, F.FLT_LAST_HARD, F.FLT_LAST_LASTING, F.FLT_LASTNS_NS, F.FLT_LASTSEC_SEC, mkF W.FLT (0xC0 + 4 * 0) 0 31 0, mkF W.FLT (0xC0 + 4 * 0) 31 1 0, F.EV_RAW W.FLT E.FLT_CNTSAT, F.EV_RAW W.FLT E.FLT_UPSET]
      ∧ t.mem = s.mem) ∧
  (∀ (s : State) (n : Nat) (a : Nat) (b : Bool), n / 256 = 0x21 → n % 256 ≤ 47 → s.retired n = false →
      max 2 (s.get F.FLT_CFG_THRESH) ≤ (inWin (s.ledger n).times s.ns s.fltWindow).length + 1 →
    completes (.faultEvent n a b) s fun t => t.retired n = true
      ∧ t.get F.FLT_LAST_CODE = n
      ∧ t.on F.FLT_LAST_LASTING = true
      ∧ t.ev W.FLT E.FLT_RETIRED = true
      ∧ s.keeps t [F.FLT_LAST_CODE, F.FLT_LAST_HARD, F.FLT_LAST_LASTING, F.FLT_LASTNS_NS, F.FLT_LASTSEC_SEC, mkF W.FLT (0xC0 + 4 * 1) 0 31 0, mkF W.FLT (0xC0 + 4 * 1) 31 1 0, F.EV_RAW W.FLT E.FLT_CNTSAT, F.EV_RAW W.FLT E.FLT_RETIRED]
      ∧ t.mem = s.mem) ∧
  (∀ (s : State) (n : Nat) (a : Nat), n / 256 = 0x10 → n % 256 ≤ 25 → s.retired n = false →
    completes (.faultEvent n a true) s fun t => t.retired n = true
      ∧ t.get F.FLT_LAST_CODE = n
      ∧ t.on F.FLT_LAST_HARD = true
      ∧ t.on F.FLT_LAST_LASTING = true
      ∧ t.ev W.FLT E.FLT_RETIRED = true) ∧
  (∀ (s : State) (n : Nat) (a : Nat) (b : Bool), n / 256 = 0x10 → 25 < n % 256 →
    completes (.faultEvent n a b) s fun t => t = s
      ∧ t.mem = s.mem) ∧
  (∀ (s : State) (rq : Rq) (v : Word), s.winOn W.FLT = true → (rq.cls = 2 → s.dbgLevel = 2) → v.toNat = 2 →
      s.get F.FLT_RESSEL_CODE / 256 = 0x10 → s.get F.FLT_RESSEL_CODE % 256 ≤ 25 →
    completes (.fltRestore rq v) s fun t => t.retired (s.get F.FLT_RESSEL_CODE) = false
      ∧ t.ledger (s.get F.FLT_RESSEL_CODE) = { times := [], retired := false }
      ∧ s.keeps t []
      ∧ t.mem = s.mem) ∧
  (∀ (s : State) (rq : Rq) (v : Word), s.winOn W.FLT = true → (rq.cls = 2 → s.dbgLevel = 2) → v.toNat = 1 →
      s.on (F.LOCK_OPEN W.FLT) = true →
    completes (.fltStop rq v) s fun t => t.env.phase = .stopped
      ∧ t.env.lifeOut = 2
      ∧ t.get F.FLT_STOPINFO_CAUSE = 4
      ∧ t.get F.FLT_STOPINFO_CLASS = 0
      ∧ t.on F.FLT_STOPINFO_VALID = true
      ∧ t.rfe.coex.reqOut = false
      ∧ t.mem = s.mem) ∧
  (∀ (s : State) (rq : Rq) (v : Word), s.winOn W.FLT = true → (rq.cls = 2 → s.dbgLevel = 2) → v.toNat = 1 →
      s.on (F.LOCK_OPEN W.FLT) = false →
    completes (.fltStop rq v) s fun t => t.env.phase = s.env.phase
      ∧ t.mem = s.mem) ∧
  (∀ (s : State) (n : Nat), s.live = true → n < 256 →
    completes (.handshakeStall n) s fun t => t.env.phase = .stopped
      ∧ t.env.lifeOut = 2
      ∧ t.get F.FLT_STOPINFO_CAUSE = 1
      ∧ t.get F.FLT_STOPINFO_CLASS = n
      ∧ t.on F.FLT_STOPINFO_VALID = true
      ∧ t.rfe.coex.reqOut = false
      ∧ t.mem = s.mem) ∧
  (∀ s : State, s.live = true →
    completes .railFault s fun t => t.env.phase = .stopped
      ∧ t.env.lifeOut = 2
      ∧ t.get F.FLT_STOPINFO_CAUSE = 2
      ∧ t.get F.FLT_STOPINFO_CLASS = 0
      ∧ t.on F.FLT_STOPINFO_VALID = true
      ∧ t.rfe.coex.reqOut = false
      ∧ t.mem = s.mem) ∧
  (∀ s : State, s.live = true →
    completes .tickLockLost s fun t => t.env.phase = .stopped
      ∧ t.env.lifeOut = 2
      ∧ t.get F.FLT_STOPINFO_CAUSE = 3
      ∧ t.get F.FLT_STOPINFO_CLASS = 0
      ∧ t.on F.FLT_STOPINFO_VALID = true
      ∧ t.rfe.coex.reqOut = false
      ∧ t.mem = s.mem) ∧
  (∀ s : State, s.env.phase = .stopped →
    completes .stopholdExpire s fun t => t.env.phase = .boot
      ∧ t.env.lifeOut = 0
      ∧ t.ev W.FLT E.FLT_STOPPED = true
      ∧ t.cpl = 0
      ∧ t.flt = s.flt
      ∧ t.get F.FLT_STOPINFO_CAUSE = s.get F.FLT_STOPINFO_CAUSE
      ∧ t.pwr.res = s.pwr.res
      ∧ t.nvs = s.nvs
      ∧ t.keys = s.keys) ∧
  (∀ (s : State) (e : Nat) (w : Nat) (x : Wagon), e < 48 → s.running e = some (w, x) → x.st = 4 →
    completes (.engineStall e) s fun t => (t.eng e).wag = none
      ∧ (t.wag w).map (fun y => y.st) = some 3
      ∧ t.ev (W.ENG (e / 8)) E.ENG_FAIL = true
      ∧ t.ev W.FLT E.FLT_STALL = true
      ∧ t.ev W.YARD E.YARD_REDO = true
      ∧ t.mem = s.mem) ∧
  (∀ (s : State) (e : Nat) (w : Nat) (x : Wagon), e < 48 → s.running e = some (w, x) → x.st = 4 →
    completes (.engineRunmax e) s fun t => (t.eng e).wag = none
      ∧ (t.wag w = none ∨ (t.wag w).map (fun y => (y.st, y.void)) = some (5, true))
      ∧ t.ev (W.ENG (e / 8)) E.ENG_EXCEPT = true
      ∧ t.ev W.FLT E.FLT_RUNLONG = true
      ∧ t.mem = s.mem)

/-- R393 to R396: a TAP reset selects IDCODE and changes nothing of the die; a DBGI access reads or writes a register of the DBG window; a DMI write puts data in the
module at level 2, and at level 0 a read answers 0; a halt request halts a released hart with HALTED, a resume lets it run, a step with
dcsr.step halts it again with cause 4; ebreak under ebreakm halts an engine and without it traps; a command on a hart that is not halted is
cmderr 4, and a read of dcsr fills data0. -/
def Obligations.DebugAccess : Prop :=
  (∀ s : State,
    completes .tapReset s fun t => t.dbg.ir = 1
      ∧ t.dbg.active = s.dbg.active
      ∧ t.dbg.harts = s.dbg.harts
      ∧ t.nvs = s.nvs
      ∧ t.env = s.env
      ∧ s.keeps t []
      ∧ t.mem = s.mem) ∧
  (∀ (s : State) (v : Word), s.live = true →
    completes (.dbgiAccess 2 0x58 v) s fun t => t.get F.DBG_MAPDATA_DATA = v.toNat
      ∧ t.dbg.ir = 0x18
      ∧ s.keeps t [F.DBG_MAPDATA_DATA]
      ∧ t.mem = s.mem) ∧
  (∀ (s : State) (v : Word), s.live = true →
    completes (.dbgiAccess 1 0x58 v) s fun t => t.dbg.dbgi = 0x58 + s.get F.DBG_MAPDATA_DATA % 2 ^ 32 * 4096
      ∧ s.keeps t []
      ∧ t.mem = s.mem) ∧
  (∀ (s : State) (n : Nat) (v : Word), s.live = true → s.dbg.active = true → s.dbgLevel = 2 → 4 ≤ n → n ≤ 7 → s.dbg.auto = 0 →
      s.dbg.data.length = 4 →
    completes (.dmiAccess 2 n v) s fun t => t.dbg.data = lset s.dbg.data (n - 4) v.toNat
      ∧ t.dbg.ir = 0x11
      ∧ s.keeps t []
      ∧ t.mem = s.mem) ∧
  (∀ (s : State) (n : Nat) (v : Word), s.live = true → s.dbgLevel = 0 →
    completes (.dmiAccess 1 n v) s fun t => t.dbg.dmi = 0
      ∧ t.dbg.data = s.dbg.data
      ∧ s.keeps t []
      ∧ t.mem = s.mem) ∧
  (∀ (s : State) (h : Nat), s.live = true → s.dbg.active = true → s.dbgLevel = 2 → h < 56 → s.hartAvail h = true → s.halted h = false →
    completes (.haltRequest h) s fun t => t.halted h = true
      ∧ t.ev W.DBG E.DBG_HALTED = true
      ∧ t.dbg.sel = h
      ∧ s.keeps t [F.EV_RAW W.DBG E.DBG_HALTED]
      ∧ t.mem = s.mem) ∧
  (∀ (s : State) (h : Nat), s.dbgLevel ≠ 2 →
    completes (.haltRequest h) s fun t => t = s
      ∧ t.mem = s.mem) ∧
  (∀ (s : State) (h : Nat), s.live = true → s.dbg.active = true → s.dbgLevel = 2 → h < 56 → s.hartAvail h = true → s.halted h = true →
      (s.hart h).step = false →
    completes (.resumeRequest h) s fun t => t.halted h = false
      ∧ (t.hart h).ack = true
      ∧ s.keeps t []
      ∧ t.mem = s.mem) ∧
  (∀ (s : State) (h : Nat), s.live = true → s.dbg.active = true → s.dbgLevel = 2 → h < 8 → s.hartAvail h = true → s.halted h = true →
      (s.hart h).step = true →
    completes (.singleStep h .plain) s fun t => t.halted h = true
      ∧ (t.hart h).cause = 4
      ∧ t.ev W.DBG E.DBG_HALTED = true
      ∧ s.keeps t [F.EV_RAW W.DBG E.DBG_HALTED]
      ∧ t.mem = s.mem) ∧
  (∀ (s : State) (h : Nat) (w : Nat) (x : Wagon), 8 ≤ h → h < 56 → s.hartAvail h = true → s.running (h - 8) = some (w, x) →
      (s.hart h).ebreakm = true →
    completes (.ebreak h) s fun t => t.halted h = true
      ∧ (t.hart h).cause = 1
      ∧ t.ev W.DBG E.DBG_HALTED = true
      ∧ (t.eng (h - 8)).wag = some w
      ∧ s.keeps t [F.EV_RAW W.DBG E.DBG_HALTED]
      ∧ t.mem = s.mem) ∧
  (∀ (s : State) (h : Nat) (w : Nat) (x : Wagon), 8 ≤ h → h < 56 → s.hartAvail h = true → s.running (h - 8) = some (w, x) →
      (s.hart h).ebreakm = false →
    completes (.ebreak h) s fun t => (t.eng (h - 8)).wag = none
      ∧ t.ev (W.ENG ((h - 8) / 8)) E.ENG_EXCEPT = true
      ∧ t.mem = s.mem) ∧
  (∀ (s : State) (v : Word) (h : Nat), s.live = true → s.dbg.active = true → s.dbgLevel = 2 → s.dbg.cmderr = 0 → s.dbg.sel = h →
      s.hartAvail h = true → s.halted h = true → v.toNat = 0x002207B0 → s.dbg.data.length = 4 →
    completes (.abstractCommand v) s fun t => t.dbg.data.getD 0 0 = dcsrOf (s.hart h) % 2 ^ 32
      ∧ t.dbg.cmderr = 0
      ∧ s.keeps t []
      ∧ t.mem = s.mem) ∧
  (∀ (s : State) (v : Word), s.live = true → s.dbg.active = true → s.dbgLevel = 2 → s.dbg.cmderr = 0 → s.halted s.dbg.sel = false →
    completes (.abstractCommand v) s fun t => t.dbg.cmderr = 4
      ∧ t.dbg.data = s.dbg.data
      ∧ s.keeps t []
      ∧ t.mem = s.mem)

/-- R399 to R401: at level 2 a MAP read puts the word at MAPADDR in MAPDATA and a MAP write stores it, and with INC the address moves on by 4; at level 0
a MAP access is DENIED. A token takes its words; VERIFY takes it for its check and draws a new challenge; a token that does not pass
raises AUTHFAIL and leaves the level; a halted engine's YIELD makes its wagon Ready again. -/
def Obligations.DebugMemoryAndTokens : Prop :=
  (∀ (s : State) (rq : Rq) (v : Word) (a : Nat), s.winOn W.DBG = true → rq.cls ≠ 2 → v.toNat = 5 → s.dbgLevel = 2 →
      s.get F.DBG_MAPADDRLO_ADDR + s.get F.DBG_MAPADDRHI_ADDR * 2 ^ 32 = a → a % 4 = 0 → a < 0xFFFFFFFFFC →
      (inSram a = true ∨ inDram a = true) → s.domSt 16 = 2 → s.ram.ue = [] →
    completes (.mapRead rq v) s fun t => t.get F.DBG_MAPDATA_DATA = s.peekN a 4
      ∧ t.on F.DBG_MAPSTAT_DONE = true
      ∧ t.on F.DBG_MAPSTAT_DARK = false
      ∧ t.on F.DBG_MAPSTAT_UE = false
      ∧ t.on F.DBG_MAPSTAT_BUSERR = false
      ∧ t.on F.DBG_MAPSTAT_DENIED = false
      ∧ t.get F.DBG_MAPADDRLO_ADDR = (a + 4) % 2 ^ 32
      ∧ s.keeps t [F.DBG_MAPCTL_READ, F.DBG_MAPCTL_WRITE, F.DBG_MAPCTL_INC, F.DBG_MAPSTAT_DONE, F.DBG_MAPSTAT_DARK, F.DBG_MAPSTAT_UE, F.DBG_MAPSTAT_BUSERR, F.DBG_MAPSTAT_DENIED, F.DBG_MAPADDRLO_ADDR, F.DBG_MAPADDRHI_ADDR, F.DBG_MAPDATA_DATA]
      ∧ t.mem = s.mem) ∧
  (∀ (s : State) (rq : Rq) (v : Word) (a : Nat), s.winOn W.DBG = true → rq.cls ≠ 2 → v.toNat = 6 → s.dbgLevel = 2 →
      inBoard a = false → inMap a = false → s.get F.DBG_MAPADDRLO_ADDR + s.get F.DBG_MAPADDRHI_ADDR * 2 ^ 32 = a → a % 4 = 0 →
      a < 0xFFFFFFFFFC → (inSram a = true ∨ inDram a = true) → s.domSt 16 = 2 → s.ram.ue = [] →
    completes (.mapWrite rq v) s fun t => t.peekN a 4 = s.get F.DBG_MAPDATA_DATA % 2 ^ 32
      ∧ t.on F.DBG_MAPSTAT_DONE = true
      ∧ t.on F.DBG_MAPSTAT_DARK = false
      ∧ t.on F.DBG_MAPSTAT_UE = false
      ∧ t.on F.DBG_MAPSTAT_BUSERR = false
      ∧ t.on F.DBG_MAPSTAT_DENIED = false
      ∧ t.get F.DBG_MAPADDRLO_ADDR = (a + 4) % 2 ^ 32
      ∧ s.keeps t [F.DBG_MAPCTL_READ, F.DBG_MAPCTL_WRITE, F.DBG_MAPCTL_INC, F.DBG_MAPSTAT_DONE, F.DBG_MAPSTAT_DARK, F.DBG_MAPSTAT_UE, F.DBG_MAPSTAT_BUSERR, F.DBG_MAPSTAT_DENIED, F.DBG_MAPADDRLO_ADDR, F.DBG_MAPADDRHI_ADDR]
      ∧ s.memBut t [(a, 4), ((if (s.mirrorOf a).isSome then a + 0x200000000 else a), 4)]) ∧
  (∀ (s : State) (rq : Rq) (v : Word), s.winOn W.DBG = true → rq.cls ≠ 2 → v.toNat = 1 → s.dbgLevel = 0 →
      inSram (s.get F.DBG_MAPADDRLO_ADDR) = true → s.get F.DBG_MAPADDRHI_ADDR = 0 →
    completes (.mapRead rq v) s fun t => t.on F.DBG_MAPSTAT_DENIED = true
      ∧ t.get F.DBG_MAPDATA_DATA = 0
      ∧ s.keeps t [F.DBG_MAPCTL_READ, F.DBG_MAPCTL_WRITE, F.DBG_MAPCTL_INC, F.DBG_MAPSTAT_DONE, F.DBG_MAPSTAT_DARK, F.DBG_MAPSTAT_UE, F.DBG_MAPSTAT_BUSERR, F.DBG_MAPSTAT_DENIED, F.DBG_MAPADDRLO_ADDR, F.DBG_MAPADDRHI_ADDR, F.DBG_MAPDATA_DATA]
      ∧ t.mem = s.mem) ∧
  (∀ (s : State) (rq : Rq) (v : Word), s.winOn W.DBG = true → s.dbg.token.length < 56 →
    completes (.tokenWordWrite rq v) s fun t => t.dbg.token = s.dbg.token ++ [v.toNat]
      ∧ t.get F.DBG_AUTH_LEVEL = s.get F.DBG_AUTH_LEVEL
      ∧ s.keeps t [F.DBG_TOKEN_WORD]
      ∧ t.mem = s.mem) ∧
  (∀ (s : State) (rq : Rq) (v : Word), s.winOn W.DBG = true → v.toNat = 4 →
    completes (.tokenVerify rq v) s fun t => t.dbg.token = []
      ∧ t.dbg.checks.map (fun c => (c.words, c.chal)) = s.dbg.checks.map (fun c => (c.words,
      c.chal)) ++ [(s.dbg.token, s.get F.DBG_CHALLENGELO_CHAL + s.get F.DBG_CHALLENGEHI_CHAL * 2 ^ 32)]
      ∧ t.on F.DBG_AUTH_BUSY = true
      ∧ s.keeps t [F.DBG_CHALLENGELO_CHAL, F.DBG_CHALLENGEHI_CHAL, F.DBG_AUTH_BUSY]
      ∧ t.mem = s.mem) ∧
  (∀ (s : State) (c : TokenChk), s.live = true → s.dbg.checks = [c] → (c.bad = true ∨ s.nvs.rootSet = false) →
    completes .tokenCheckDone s fun t => t.dbg.checks = []
      ∧ t.on F.DBG_AUTH_BUSY = false
      ∧ t.on F.DBG_AUTH_FAIL = true
      ∧ t.ev W.DBG E.DBG_AUTHFAIL = true
      ∧ t.get F.DBG_AUTH_LEVEL = s.get F.DBG_AUTH_LEVEL
      ∧ s.keeps t [F.DBG_AUTH_BUSY, F.DBG_AUTH_FAIL, F.DBG_CNT0_AUTHFAIL, F.DBG_CNT0_OVF, F.EV_RAW W.DBG E.DBG_AUTHFAIL]
      ∧ t.mem = s.mem) ∧
  (∀ (s : State) (c : TokenChk), s.live = true → s.dbg.checks = [c] →
    completes .tokenCheckDone s fun t => t.dbg.checks = []
      ∧ t.get F.DBG_AUTH_LEVEL = (if s.tokenOk c then c.words.getD 4 0 % 256 % 4 else s.get F.DBG_AUTH_LEVEL)
      ∧ t.on F.DBG_AUTH_FAIL = !s.tokenOk c
      ∧ t.mem = s.mem) ∧
  (∀ (s : State) (rq : Rq) (v : Word) (n : Nat) (w : Nat) (x : Wagon), s.winOn W.DBG = true → (rq.cls = 2 → s.dbgLevel = 2) →
      v.toNat = 64 + n → n < 48 → (s.eng n).halted = true → (s.eng n).wag = some w → s.wag w = some x → x.st = 4 →
    completes (.engineYield rq v) s fun t => (t.eng n).wag = none
      ∧ (t.wag w).map (fun y => y.st) = some 3
      ∧ t.mem = s.mem)

end
end

