-- ==== Sys2Proof/Laws/Maps.lean ====
section
/-!
SUPPORT. Laws of the sparse tables and of memory: what a write leaves, and that every operation keeps the canonical form.
-/

namespace Sys2Proof.Machine

variable {α : Type}

@[simp] theorem kget_kset_same (m : List (Nat × α)) (k : Nat) (a : α) : kget (kset m k a) k = some a := by
  induction m with
  | nil => simp [kset, kget]
  | cons e t ih =>
    obtain ⟨j, b⟩ := e
    simp only [kset]
    split
    · simp [kget]
    · split
      · simp [kget]
      · rename_i h; simp only [kget, ih]; rw [if_neg (fun e : j = k => h e.symm)]

theorem kget_kset_ne (m : List (Nat × α)) {k j : Nat} (a : α) (h : j ≠ k) : kget (kset m k a) j = kget m j := by
  induction m with
  | nil => simp [kset, kget, h.symm]
  | cons e t ih =>
    obtain ⟨i, b⟩ := e
    simp only [kset]
    split
    · simp [kget, h.symm]
    · split
      · rename_i h1; subst h1; simp [kget, h.symm]
      · simp [kget, ih]

@[simp] theorem kget_kdel_same (m : List (Nat × α)) (k : Nat) : kget (kdel m k) k = none := by
  induction m with
  | nil => rfl
  | cons e t ih =>
    obtain ⟨j, b⟩ := e
    simp only [kdel]
    split
    · exact ih
    · rename_i h; simp [kget, h, ih]

theorem kget_kdel_ne (m : List (Nat × α)) {k j : Nat} (h : j ≠ k) : kget (kdel m k) j = kget m j := by
  induction m with
  | nil => rfl
  | cons e t ih =>
    obtain ⟨i, b⟩ := e
    simp only [kdel]
    split
    · rename_i h1; subst h1; simp [kget, h.symm, ih]
    · simp [kget, ih]

/-- Every key of a table is beyond k. -/
def kabove (k : Nat) (m : List (Nat × α)) : Prop := ∀ e ∈ m, k < e.1

theorem kok_cons (p : Nat → α → Bool) (k : Nat) (a : α) (m : List (Nat × α)) :
    kok p ((k, a) :: m) = true ↔ p k a = true ∧ kabove k m ∧ kok p m = true := by
  induction m generalizing k a with
  | nil => simp [kok, kabove]
  | cons e t ih =>
    obtain ⟨j, b⟩ := e
    have ih := ih j b
    simp only [kok, Bool.and_eq_true, decide_eq_true_eq]
    constructor
    · rintro ⟨⟨hp, hk⟩, hr⟩
      refine ⟨hp, ?_, hr⟩
      intro x hx
      rcases List.mem_cons.1 hx with rfl | hx
      · exact hk
      · exact Nat.lt_trans hk ((ih.1 hr).2.1 x hx)
    · rintro ⟨hp, ha, hr⟩
      exact ⟨⟨hp, ha (j, b) (by simp)⟩, hr⟩

theorem kabove_kset {k j : Nat} {a : α} {m : List (Nat × α)} (h : kabove k m) (hj : k < j) : kabove k (kset m j a) := by
  induction m with
  | nil => intro e he; simp [kset] at he; subst he; exact hj
  | cons x t ih =>
    obtain ⟨i, b⟩ := x
    have hx : k < i := h (i, b) (by simp)
    have ht : kabove k t := fun e he => h e (by simp [he])
    simp only [kset]
    split
    · intro e he
      rcases List.mem_cons.1 he with rfl | he
      · exact hj
      · exact h e he
    · split
      · intro e he
        rcases List.mem_cons.1 he with rfl | he
        · exact hj
        · exact ht e he
      · intro e he
        rcases List.mem_cons.1 he with rfl | he
        · exact hx
        · exact ih ht e he

theorem kok_kset {p : Nat → α → Bool} {m : List (Nat × α)} {k : Nat} {a : α} (h : kok p m = true) (hp : p k a = true) :
    kok p (kset m k a) = true := by
  induction m with
  | nil => simpa [kset, kok] using hp
  | cons e t ih =>
    obtain ⟨j, b⟩ := e
    have hc := (kok_cons p j b t).1 h
    simp only [kset]
    split
    · rename_i hk
      refine (kok_cons p k a _).2 ⟨hp, ?_, h⟩
      intro e he
      rcases List.mem_cons.1 he with rfl | he
      · exact hk
      · exact Nat.lt_trans hk (hc.2.1 e he)
    · split
      · rename_i hk; subst hk
        exact (kok_cons p k a t).2 ⟨hp, hc.2⟩
      · rename_i h1 h2
        exact (kok_cons p j b _).2 ⟨hc.1, kabove_kset hc.2.1 (by omega), ih hc.2.2⟩

theorem kok_filter {p : Nat → α → Bool} {m : List (Nat × α)} (q : Nat × α → Bool) (h : kok p m = true) :
    kok p (m.filter q) = true := by
  induction m with
  | nil => rfl
  | cons e t ih =>
    obtain ⟨j, b⟩ := e
    have hc := (kok_cons p j b t).1 h
    simp only [List.filter]
    split
    · exact (kok_cons p j b _).2 ⟨hc.1, fun e he => hc.2.1 e ((List.mem_filter.1 he).1), ih hc.2.2⟩
    · exact ih hc.2.2

theorem kdel_eq_filter (m : List (Nat × α)) (k : Nat) : kdel m k = m.filter (fun e => e.1 != k) := by
  induction m with
  | nil => rfl
  | cons e t ih =>
    obtain ⟨j, b⟩ := e
    simp only [kdel, List.filter]
    by_cases h : j = k
    · simp [h, ih]
    · have hb : (j != k) = true := by simpa using h
      simp [h, ih, hb]

theorem kok_kdel {p : Nat → α → Bool} {m : List (Nat × α)} {k : Nat} (h : kok p m = true) : kok p (kdel m k) = true := by
  rw [kdel_eq_filter]; exact kok_filter _ h

/-- The octet that memory holds at an address. -/
def memGet (m : List Host.Cell) (a : Nat) : Byte := (kget m a).getD 0

/-- An octet written reads back. -/
@[simp] theorem memGet_memPut_same (m : List Host.Cell) (a : Nat) (b : Byte) : memGet (memPut m a b) a = b := by
  unfold memGet memPut
  split
  · rename_i h; subst h; simp
  · simp

/-- A write of an octet leaves every other address. -/
theorem memGet_memPut_ne (m : List Host.Cell) {a c : Nat} (b : Byte) (h : c ≠ a) : memGet (memPut m a b) c = memGet m c := by
  unfold memGet memPut
  split
  · rw [kget_kdel_ne _ h]
  · rw [kget_kset_ne _ _ h]

/-- A write of octets leaves every address outside them. -/
theorem memGet_memPuts_out (l : List Byte) (m : List Host.Cell) {a c : Nat} (h : c < a ∨ a + l.length ≤ c) :
    memGet (memPuts m a l) c = memGet m c := by
  induction l generalizing m a with
  | nil => rfl
  | cons b t ih =>
    simp only [memPuts]
    simp only [List.length_cons] at h
    rw [ih _ (by omega), memGet_memPut_ne _ _ (by omega)]

/-- Octets written read back. -/
theorem memGet_memPuts_in (l : List Byte) (m : List Host.Cell) {a i : Nat} (h : i < l.length) :
    memGet (memPuts m a l) (a + i) = l.getD i 0 := by
  induction l generalizing m a i with
  | nil => simp at h
  | cons b t ih =>
    simp only [memPuts]
    cases i with
    | zero => rw [memGet_memPuts_out _ _ (by omega)]; simp
    | succ i =>
      have := ih (memPut m a b) (a := a + 1) (i := i) (by simpa using h)
      rw [show a + (i + 1) = a + 1 + i by omega, this]; simp

theorem memory_wf_put {m : List Host.Cell} (a : Nat) (b : Byte) (h : Memory.wf m = true) : Memory.wf (memPut m a b) = true := by
  unfold memPut
  split
  · exact kok_kdel h
  · exact kok_kset h (by simpa using ‹_›)

/-- Writing octets keeps the canonical form. -/
theorem memory_wf_puts (l : List Byte) {m : List Host.Cell} (a : Nat) (h : Memory.wf m = true) : Memory.wf (memPuts m a l) = true := by
  induction l generalizing m a with
  | nil => exact h
  | cons b t ih => exact ih _ (memory_wf_put a b h)

theorem memory_wf_filter {m : List Host.Cell} (q : Host.Cell → Bool) (h : Memory.wf m = true) : Memory.wf (m.filter q) = true :=
  kok_filter q h

end Sys2Proof.Machine
end

