-- ==== Sys2Proof/Laws/State.lean ====
section
/-!
SUPPORT. One lemma for each field of State under each update of a register field, and what a register field reads after a write.
-/

namespace Sys2Proof.Machine

/-! A register field written leaves every field of State but the registers -/

@[simp] theorem State.set_nv (s : State) (f : Fld) (v : Nat) : (s.set f v).nv = s.nv := rfl
@[simp] theorem State.set_bus (s : State) (f : Fld) (v : Nat) : (s.set f v).bus = s.bus := rfl
@[simp] theorem State.set_oppart (s : State) (f : Fld) (v : Nat) : (s.set f v).oppart = s.oppart := rfl
@[simp] theorem State.set_latch (s : State) (f : Fld) (v : Nat) : (s.set f v).latch = s.latch := rfl
@[simp] theorem State.set_held (s : State) (f : Fld) (v : Nat) : (s.set f v).held = s.held := rfl
@[simp] theorem State.set_doms (s : State) (f : Fld) (v : Nat) : (s.set f v).doms = s.doms := rfl
@[simp] theorem State.set_drain (s : State) (f : Fld) (v : Nat) : (s.set f v).drain = s.drain := rfl
@[simp] theorem State.set_mem (s : State) (f : Fld) (v : Nat) : (s.set f v).mem = s.mem := rfl
@[simp] theorem State.set_pending (s : State) (f : Fld) (v : Nat) : (s.set f v).pending = s.pending := rfl
@[simp] theorem State.set_free (s : State) (f : Fld) (v : Nat) : (s.set f v).free = s.free := rfl
@[simp] theorem State.set_env (s : State) (f : Fld) (v : Nat) : (s.set f v).env = s.env := rfl
@[simp] theorem State.set_tm (s : State) (f : Fld) (v : Nat) : (s.set f v).tm = s.tm := rfl
@[simp] theorem State.set_pwr (s : State) (f : Fld) (v : Nat) : (s.set f v).pwr = s.pwr := rfl
@[simp] theorem State.set_flt (s : State) (f : Fld) (v : Nat) : (s.set f v).flt = s.flt := rfl
@[simp] theorem State.set_apc (s : State) (f : Fld) (v : Nat) : (s.set f v).apc = s.apc := rfl
@[simp] theorem State.set_ram (s : State) (f : Fld) (v : Nat) : (s.set f v).ram = s.ram := rfl
@[simp] theorem State.set_rfe (s : State) (f : Fld) (v : Nat) : (s.set f v).rfe = s.rfe := rfl
@[simp] theorem State.set_mphy (s : State) (f : Fld) (v : Nat) : (s.set f v).mphy = s.mphy := rfl
@[simp] theorem State.set_mn (s : State) (f : Fld) (v : Nat) : (s.set f v).mn = s.mn := rfl
@[simp] theorem State.set_mlc (s : State) (f : Fld) (v : Nat) : (s.set f v).mlc = s.mlc := rfl
@[simp] theorem State.set_wl (s : State) (f : Fld) (v : Nat) : (s.set f v).wl = s.wl := rfl
@[simp] theorem State.set_yard (s : State) (f : Fld) (v : Nat) : (s.set f v).yard = s.yard := rfl
@[simp] theorem State.set_rte (s : State) (f : Fld) (v : Nat) : (s.set f v).rte = s.rte := rfl
@[simp] theorem State.set_shp (s : State) (f : Fld) (v : Nat) : (s.set f v).shp = s.shp := rfl
@[simp] theorem State.set_emac (s : State) (f : Fld) (v : Nat) : (s.set f v).emac = s.emac := rfl
@[simp] theorem State.set_pair (s : State) (f : Fld) (v : Nat) : (s.set f v).pair = s.pair := rfl
@[simp] theorem State.set_nvs (s : State) (f : Fld) (v : Nat) : (s.set f v).nvs = s.nvs := rfl
@[simp] theorem State.set_keys (s : State) (f : Fld) (v : Nat) : (s.set f v).keys = s.keys := rfl
@[simp] theorem State.set_lim (s : State) (f : Fld) (v : Nat) : (s.set f v).lim = s.lim := rfl
@[simp] theorem State.set_dbg (s : State) (f : Fld) (v : Nat) : (s.set f v).dbg = s.dbg := rfl

/-! What a register field reads -/

/-- A field reads what was written, cut to its width. -/
@[simp] theorem State.get_set_same (s : State) (f : Fld) (v : Nat) : (s.set f v).get f = v % 2 ^ min f.len 32 := by
  unfold State.get State.set State.base
  dsimp only
  split
  · rename_i h; rw [kget_kdel_same]; exact h.symm
  · rw [kget_kset_same]; rfl

/-- Another field reads as before. -/
theorem State.get_set_ne (s : State) {f g : Fld} (v : Nat) (h : g.key ≠ f.key) : (s.set f v).get g = s.get g := by
  unfold State.get State.set State.base
  dsimp only
  split
  · rw [kget_kdel_ne _ h]
  · rw [kget_kset_ne _ _ h]

/-- A field that any later write leaves. -/
theorem State.get_sets_ne (s : State) {g : Fld} (l : List (Fld × Nat)) (h : ∀ e ∈ l, g.key ≠ e.1.key) :
    (s.sets l).get g = s.get g := by
  unfold State.sets
  induction l generalizing s with
  | nil => rfl
  | cons e t ih =>
    have h1 : g.key ≠ e.1.key := h e List.mem_cons_self
    rw [List.foldl_cons, ih _ (fun x hx => h x (List.mem_cons_of_mem _ hx)), State.get_set_ne _ _ h1]

/-- The gateway of an interrupt source changes no register. -/
@[simp] theorem State.get_plicSample (s : State) (w : Nat) (b : Bool) (f : Fld) : (s.plicSample w b).get f = s.get f := by
  unfold State.plicSample
  split <;> rfl

/-- An event sets its EV_RAW bit. -/
@[simp] theorem State.ev_raise (s : State) (w b : Nat) : (s.raise w b).ev w b = true := by
  unfold State.raise State.ev State.on
  rw [State.get_plicSample, State.get_set_same]
  rfl

/-- An event changes no other register field. -/
theorem State.get_raise_ne (s : State) (w b : Nat) {f : Fld} (h : f.key ≠ (F.EV_RAW w b).key) : (s.raise w b).get f = s.get f := by
  unfold State.raise
  rw [State.get_plicSample, State.get_set_ne _ _ h]

@[simp] theorem State.plicSample_nv (s : State) (w : Nat) (b : Bool) : (s.plicSample w b).nv = s.nv := by
  unfold State.plicSample; split <;> rfl
@[simp] theorem State.plicSample_bus (s : State) (w : Nat) (b : Bool) : (s.plicSample w b).bus = s.bus := by
  unfold State.plicSample; split <;> rfl
@[simp] theorem State.plicSample_oppart (s : State) (w : Nat) (b : Bool) : (s.plicSample w b).oppart = s.oppart := by
  unfold State.plicSample; split <;> rfl
@[simp] theorem State.plicSample_latch (s : State) (w : Nat) (b : Bool) : (s.plicSample w b).latch = s.latch := by
  unfold State.plicSample; split <;> rfl
@[simp] theorem State.plicSample_held (s : State) (w : Nat) (b : Bool) : (s.plicSample w b).held = s.held := by
  unfold State.plicSample; split <;> rfl
@[simp] theorem State.plicSample_doms (s : State) (w : Nat) (b : Bool) : (s.plicSample w b).doms = s.doms := by
  unfold State.plicSample; split <;> rfl
@[simp] theorem State.plicSample_drain (s : State) (w : Nat) (b : Bool) : (s.plicSample w b).drain = s.drain := by
  unfold State.plicSample; split <;> rfl
@[simp] theorem State.plicSample_mem (s : State) (w : Nat) (b : Bool) : (s.plicSample w b).mem = s.mem := by
  unfold State.plicSample; split <;> rfl
@[simp] theorem State.plicSample_pending (s : State) (w : Nat) (b : Bool) : (s.plicSample w b).pending = s.pending := by
  unfold State.plicSample; split <;> rfl
@[simp] theorem State.plicSample_free (s : State) (w : Nat) (b : Bool) : (s.plicSample w b).free = s.free := by
  unfold State.plicSample; split <;> rfl
@[simp] theorem State.plicSample_env (s : State) (w : Nat) (b : Bool) : (s.plicSample w b).env = s.env := by
  unfold State.plicSample; split <;> rfl
@[simp] theorem State.plicSample_tm (s : State) (w : Nat) (b : Bool) : (s.plicSample w b).tm = s.tm := by
  unfold State.plicSample; split <;> rfl
@[simp] theorem State.plicSample_pwr (s : State) (w : Nat) (b : Bool) : (s.plicSample w b).pwr = s.pwr := by
  unfold State.plicSample; split <;> rfl
@[simp] theorem State.plicSample_flt (s : State) (w : Nat) (b : Bool) : (s.plicSample w b).flt = s.flt := by
  unfold State.plicSample; split <;> rfl
@[simp] theorem State.plicSample_ram (s : State) (w : Nat) (b : Bool) : (s.plicSample w b).ram = s.ram := by
  unfold State.plicSample; split <;> rfl
@[simp] theorem State.plicSample_rfe (s : State) (w : Nat) (b : Bool) : (s.plicSample w b).rfe = s.rfe := by
  unfold State.plicSample; split <;> rfl
@[simp] theorem State.plicSample_mphy (s : State) (w : Nat) (b : Bool) : (s.plicSample w b).mphy = s.mphy := by
  unfold State.plicSample; split <;> rfl
@[simp] theorem State.plicSample_mn (s : State) (w : Nat) (b : Bool) : (s.plicSample w b).mn = s.mn := by
  unfold State.plicSample; split <;> rfl
@[simp] theorem State.plicSample_mlc (s : State) (w : Nat) (b : Bool) : (s.plicSample w b).mlc = s.mlc := by
  unfold State.plicSample; split <;> rfl
@[simp] theorem State.plicSample_wl (s : State) (w : Nat) (b : Bool) : (s.plicSample w b).wl = s.wl := by
  unfold State.plicSample; split <;> rfl
@[simp] theorem State.plicSample_yard (s : State) (w : Nat) (b : Bool) : (s.plicSample w b).yard = s.yard := by
  unfold State.plicSample; split <;> rfl
@[simp] theorem State.plicSample_rte (s : State) (w : Nat) (b : Bool) : (s.plicSample w b).rte = s.rte := by
  unfold State.plicSample; split <;> rfl
@[simp] theorem State.plicSample_shp (s : State) (w : Nat) (b : Bool) : (s.plicSample w b).shp = s.shp := by
  unfold State.plicSample; split <;> rfl
@[simp] theorem State.plicSample_emac (s : State) (w : Nat) (b : Bool) : (s.plicSample w b).emac = s.emac := by
  unfold State.plicSample; split <;> rfl
@[simp] theorem State.plicSample_pair (s : State) (w : Nat) (b : Bool) : (s.plicSample w b).pair = s.pair := by
  unfold State.plicSample; split <;> rfl
@[simp] theorem State.plicSample_nvs (s : State) (w : Nat) (b : Bool) : (s.plicSample w b).nvs = s.nvs := by
  unfold State.plicSample; split <;> rfl
@[simp] theorem State.plicSample_keys (s : State) (w : Nat) (b : Bool) : (s.plicSample w b).keys = s.keys := by
  unfold State.plicSample; split <;> rfl
@[simp] theorem State.plicSample_lim (s : State) (w : Nat) (b : Bool) : (s.plicSample w b).lim = s.lim := by
  unfold State.plicSample; split <;> rfl
@[simp] theorem State.plicSample_dbg (s : State) (w : Nat) (b : Bool) : (s.plicSample w b).dbg = s.dbg := by
  unfold State.plicSample; split <;> rfl
@[simp] theorem State.raise_nv (s : State) (w b : Nat) : (s.raise w b).nv = s.nv := by
  unfold State.raise; rw [State.plicSample_nv]; rfl
@[simp] theorem State.raise_bus (s : State) (w b : Nat) : (s.raise w b).bus = s.bus := by
  unfold State.raise; rw [State.plicSample_bus]; rfl
@[simp] theorem State.raise_oppart (s : State) (w b : Nat) : (s.raise w b).oppart = s.oppart := by
  unfold State.raise; rw [State.plicSample_oppart]; rfl
@[simp] theorem State.raise_latch (s : State) (w b : Nat) : (s.raise w b).latch = s.latch := by
  unfold State.raise; rw [State.plicSample_latch]; rfl
@[simp] theorem State.raise_held (s : State) (w b : Nat) : (s.raise w b).held = s.held := by
  unfold State.raise; rw [State.plicSample_held]; rfl
@[simp] theorem State.raise_doms (s : State) (w b : Nat) : (s.raise w b).doms = s.doms := by
  unfold State.raise; rw [State.plicSample_doms]; rfl
@[simp] theorem State.raise_drain (s : State) (w b : Nat) : (s.raise w b).drain = s.drain := by
  unfold State.raise; rw [State.plicSample_drain]; rfl
@[simp] theorem State.raise_mem (s : State) (w b : Nat) : (s.raise w b).mem = s.mem := by
  unfold State.raise; rw [State.plicSample_mem]; rfl
@[simp] theorem State.raise_pending (s : State) (w b : Nat) : (s.raise w b).pending = s.pending := by
  unfold State.raise; rw [State.plicSample_pending]; rfl
@[simp] theorem State.raise_free (s : State) (w b : Nat) : (s.raise w b).free = s.free := by
  unfold State.raise; rw [State.plicSample_free]; rfl
@[simp] theorem State.raise_env (s : State) (w b : Nat) : (s.raise w b).env = s.env := by
  unfold State.raise; rw [State.plicSample_env]; rfl
@[simp] theorem State.raise_tm (s : State) (w b : Nat) : (s.raise w b).tm = s.tm := by
  unfold State.raise; rw [State.plicSample_tm]; rfl
@[simp] theorem State.raise_pwr (s : State) (w b : Nat) : (s.raise w b).pwr = s.pwr := by
  unfold State.raise; rw [State.plicSample_pwr]; rfl
@[simp] theorem State.raise_flt (s : State) (w b : Nat) : (s.raise w b).flt = s.flt := by
  unfold State.raise; rw [State.plicSample_flt]; rfl
@[simp] theorem State.raise_ram (s : State) (w b : Nat) : (s.raise w b).ram = s.ram := by
  unfold State.raise; rw [State.plicSample_ram]; rfl
@[simp] theorem State.raise_rfe (s : State) (w b : Nat) : (s.raise w b).rfe = s.rfe := by
  unfold State.raise; rw [State.plicSample_rfe]; rfl
@[simp] theorem State.raise_mphy (s : State) (w b : Nat) : (s.raise w b).mphy = s.mphy := by
  unfold State.raise; rw [State.plicSample_mphy]; rfl
@[simp] theorem State.raise_mn (s : State) (w b : Nat) : (s.raise w b).mn = s.mn := by
  unfold State.raise; rw [State.plicSample_mn]; rfl
@[simp] theorem State.raise_mlc (s : State) (w b : Nat) : (s.raise w b).mlc = s.mlc := by
  unfold State.raise; rw [State.plicSample_mlc]; rfl
@[simp] theorem State.raise_wl (s : State) (w b : Nat) : (s.raise w b).wl = s.wl := by
  unfold State.raise; rw [State.plicSample_wl]; rfl
@[simp] theorem State.raise_yard (s : State) (w b : Nat) : (s.raise w b).yard = s.yard := by
  unfold State.raise; rw [State.plicSample_yard]; rfl
@[simp] theorem State.raise_rte (s : State) (w b : Nat) : (s.raise w b).rte = s.rte := by
  unfold State.raise; rw [State.plicSample_rte]; rfl
@[simp] theorem State.raise_shp (s : State) (w b : Nat) : (s.raise w b).shp = s.shp := by
  unfold State.raise; rw [State.plicSample_shp]; rfl
@[simp] theorem State.raise_emac (s : State) (w b : Nat) : (s.raise w b).emac = s.emac := by
  unfold State.raise; rw [State.plicSample_emac]; rfl
@[simp] theorem State.raise_pair (s : State) (w b : Nat) : (s.raise w b).pair = s.pair := by
  unfold State.raise; rw [State.plicSample_pair]; rfl
@[simp] theorem State.raise_nvs (s : State) (w b : Nat) : (s.raise w b).nvs = s.nvs := by
  unfold State.raise; rw [State.plicSample_nvs]; rfl
@[simp] theorem State.raise_keys (s : State) (w b : Nat) : (s.raise w b).keys = s.keys := by
  unfold State.raise; rw [State.plicSample_keys]; rfl
@[simp] theorem State.raise_lim (s : State) (w b : Nat) : (s.raise w b).lim = s.lim := by
  unfold State.raise; rw [State.plicSample_lim]; rfl
@[simp] theorem State.raise_dbg (s : State) (w b : Nat) : (s.raise w b).dbg = s.dbg := by
  unfold State.raise; rw [State.plicSample_dbg]; rfl

@[simp] theorem State.raiseIf_nv (s : State) (c : Bool) (w b : Nat) : (s.raiseIf c w b).nv = s.nv := by
  unfold State.raiseIf; split <;> simp
@[simp] theorem State.raiseIf_bus (s : State) (c : Bool) (w b : Nat) : (s.raiseIf c w b).bus = s.bus := by
  unfold State.raiseIf; split <;> simp
@[simp] theorem State.raiseIf_oppart (s : State) (c : Bool) (w b : Nat) : (s.raiseIf c w b).oppart = s.oppart := by
  unfold State.raiseIf; split <;> simp
@[simp] theorem State.raiseIf_latch (s : State) (c : Bool) (w b : Nat) : (s.raiseIf c w b).latch = s.latch := by
  unfold State.raiseIf; split <;> simp
@[simp] theorem State.raiseIf_held (s : State) (c : Bool) (w b : Nat) : (s.raiseIf c w b).held = s.held := by
  unfold State.raiseIf; split <;> simp
@[simp] theorem State.raiseIf_doms (s : State) (c : Bool) (w b : Nat) : (s.raiseIf c w b).doms = s.doms := by
  unfold State.raiseIf; split <;> simp
@[simp] theorem State.raiseIf_drain (s : State) (c : Bool) (w b : Nat) : (s.raiseIf c w b).drain = s.drain := by
  unfold State.raiseIf; split <;> simp
@[simp] theorem State.raiseIf_mem (s : State) (c : Bool) (w b : Nat) : (s.raiseIf c w b).mem = s.mem := by
  unfold State.raiseIf; split <;> simp
@[simp] theorem State.raiseIf_pending (s : State) (c : Bool) (w b : Nat) : (s.raiseIf c w b).pending = s.pending := by
  unfold State.raiseIf; split <;> simp
@[simp] theorem State.raiseIf_free (s : State) (c : Bool) (w b : Nat) : (s.raiseIf c w b).free = s.free := by
  unfold State.raiseIf; split <;> simp
@[simp] theorem State.raiseIf_env (s : State) (c : Bool) (w b : Nat) : (s.raiseIf c w b).env = s.env := by
  unfold State.raiseIf; split <;> simp
@[simp] theorem State.raiseIf_tm (s : State) (c : Bool) (w b : Nat) : (s.raiseIf c w b).tm = s.tm := by
  unfold State.raiseIf; split <;> simp
@[simp] theorem State.raiseIf_pwr (s : State) (c : Bool) (w b : Nat) : (s.raiseIf c w b).pwr = s.pwr := by
  unfold State.raiseIf; split <;> simp
@[simp] theorem State.raiseIf_flt (s : State) (c : Bool) (w b : Nat) : (s.raiseIf c w b).flt = s.flt := by
  unfold State.raiseIf; split <;> simp
@[simp] theorem State.raiseIf_ram (s : State) (c : Bool) (w b : Nat) : (s.raiseIf c w b).ram = s.ram := by
  unfold State.raiseIf; split <;> simp
@[simp] theorem State.raiseIf_rfe (s : State) (c : Bool) (w b : Nat) : (s.raiseIf c w b).rfe = s.rfe := by
  unfold State.raiseIf; split <;> simp
@[simp] theorem State.raiseIf_mphy (s : State) (c : Bool) (w b : Nat) : (s.raiseIf c w b).mphy = s.mphy := by
  unfold State.raiseIf; split <;> simp
@[simp] theorem State.raiseIf_mn (s : State) (c : Bool) (w b : Nat) : (s.raiseIf c w b).mn = s.mn := by
  unfold State.raiseIf; split <;> simp
@[simp] theorem State.raiseIf_mlc (s : State) (c : Bool) (w b : Nat) : (s.raiseIf c w b).mlc = s.mlc := by
  unfold State.raiseIf; split <;> simp
@[simp] theorem State.raiseIf_wl (s : State) (c : Bool) (w b : Nat) : (s.raiseIf c w b).wl = s.wl := by
  unfold State.raiseIf; split <;> simp
@[simp] theorem State.raiseIf_yard (s : State) (c : Bool) (w b : Nat) : (s.raiseIf c w b).yard = s.yard := by
  unfold State.raiseIf; split <;> simp
@[simp] theorem State.raiseIf_rte (s : State) (c : Bool) (w b : Nat) : (s.raiseIf c w b).rte = s.rte := by
  unfold State.raiseIf; split <;> simp
@[simp] theorem State.raiseIf_shp (s : State) (c : Bool) (w b : Nat) : (s.raiseIf c w b).shp = s.shp := by
  unfold State.raiseIf; split <;> simp
@[simp] theorem State.raiseIf_emac (s : State) (c : Bool) (w b : Nat) : (s.raiseIf c w b).emac = s.emac := by
  unfold State.raiseIf; split <;> simp
@[simp] theorem State.raiseIf_pair (s : State) (c : Bool) (w b : Nat) : (s.raiseIf c w b).pair = s.pair := by
  unfold State.raiseIf; split <;> simp
@[simp] theorem State.raiseIf_nvs (s : State) (c : Bool) (w b : Nat) : (s.raiseIf c w b).nvs = s.nvs := by
  unfold State.raiseIf; split <;> simp
@[simp] theorem State.raiseIf_keys (s : State) (c : Bool) (w b : Nat) : (s.raiseIf c w b).keys = s.keys := by
  unfold State.raiseIf; split <;> simp
@[simp] theorem State.raiseIf_lim (s : State) (c : Bool) (w b : Nat) : (s.raiseIf c w b).lim = s.lim := by
  unfold State.raiseIf; split <;> simp
@[simp] theorem State.raiseIf_dbg (s : State) (c : Bool) (w b : Nat) : (s.raiseIf c w b).dbg = s.dbg := by
  unfold State.raiseIf; split <;> simp

/-- An event that may occur changes no other register field. -/
theorem State.get_raiseIf_ne (s : State) (c : Bool) (w b : Nat) {f : Fld} (h : f.key ≠ (F.EV_RAW w b).key) :
    (s.raiseIf c w b).get f = s.get f := by
  unfold State.raiseIf
  split
  · exact State.get_raise_ne s w b h
  · rfl

end Sys2Proof.Machine
end

