-- ==== Sys2Proof/Laws/Frame.lean ====
section
/-!
SUPPORT. Frames: what a run of register writes and events leaves unchanged.
-/

namespace Sys2Proof.Machine

theorem State.keeps_refl (s : State) (l : List Fld) : s.keeps s l := fun _ _ => rfl

/-- Registers are read from regs and nv alone. -/
theorem State.get_congr {s t : State} (hr : t.regs = s.regs) (hn : t.nv = s.nv) (f : Fld) : t.get f = s.get f := by
  unfold State.get State.base
  rw [hr, hn]

/-- A change of no register keeps every field. -/
theorem State.keeps_congr {s t u : State} {l : List Fld} (hr : u.regs = t.regs) (hn : u.nv = t.nv) (h : s.keeps t l) : s.keeps u l :=
  fun f hf => (State.get_congr hr hn f).trans (h f hf)

/-- A write of a listed field keeps the others. -/
theorem State.keeps_set {s t : State} {l : List Fld} {f : Fld} {v : Nat} (hf : f ∈ l) (h : s.keeps t l) : s.keeps (t.set f v) l :=
  fun g hg => (State.get_set_ne t v (hg f hf)).trans (h g hg)

/-- An event whose bit is listed keeps the others. -/
theorem State.keeps_raise {s t : State} {l : List Fld} {w b : Nat} (hf : F.EV_RAW w b ∈ l) (h : s.keeps t l) : s.keeps (t.raise w b) l :=
  fun g hg => (State.get_raise_ne t w b (hg _ hf)).trans (h g hg)

theorem State.keeps_raiseIf {s t : State} {l : List Fld} {c : Bool} {w b : Nat} (hf : F.EV_RAW w b ∈ l) (h : s.keeps t l) :
    s.keeps (t.raiseIf c w b) l := by
  unfold State.raiseIf
  split
  · exact State.keeps_raise hf h
  · exact h

/-- Memory that is the same list reads the same. -/
theorem State.sameMem_of_eq {s t : State} (h : t.mem = s.mem) : s.sameMem t := fun a => by
  unfold State.peek
  rw [h]

end Sys2Proof.Machine
end

