-- ==== Sys2Proof/Laws/Keep.lean ====
section
/-!
SUPPORT. What every command keeps: the canonical form of the state and the queue. One lemma for each operation follows in the
files Keep*.lean.
-/

namespace Sys2Proof.Machine

/-- What every command keeps: the canonical form of the state, and the queue that waits. -/
structure State.Ok (qs : List Instr) (s : State) : Prop where
  regs : regsWf s.regs = true
  mem : Memory.wf s.mem = true
  prog : Memory.wf s.yard.prog = true
  queue : s.pending = qs

/-- A change of other fields keeps it. -/
theorem mk_ok {qs : List Instr} {s : State} {nv' : KMap Nat} {bus' : BusS} {oppart' : KMap Nat} {latch' : KMap Nat} {held' : KMap Nat} {doms' : KMap Nat} {drain' : List Nat} {free' : Nat} {env' : EnvS} {tm' : TimeS} {pwr' : PwrS} {flt' : FltS} {apc' : ApcS} {ram' : MemS} {rfe' : RfeS} {mphy' : MphyS} {mn' : MnodeS} {mlc' : MlcS} {wl' : WlanS} {yard' : YardS} {rte' : RteS} {shp' : KMap ShpS} {emac' : KMap EmacS} {pair' : CplS} {nvs' : NvsS} {keys' : KMap KeyS} {lim' : LimS} {dbg' : DbgS}
    (h : s.Ok qs) (hy : yard'.prog = s.yard.prog) : State.Ok qs ⟨s.regs, nv', bus', oppart', latch', held', doms', drain', s.mem, s.pending, free', env', tm', pwr', flt', apc', ram', rfe', mphy', mn', mlc', wl', yard', rte', shp', emac', pair', nvs', keys', lim', dbg'⟩ :=
  ⟨h.regs, h.mem, by rw [hy]; exact h.prog, h.queue⟩

/-- A write of octets keeps it. -/
theorem mkputs_ok {qs : List Instr} {s : State} {a : Nat} {l : List Byte} {nv' : KMap Nat} {bus' : BusS} {oppart' : KMap Nat} {latch' : KMap Nat} {held' : KMap Nat} {doms' : KMap Nat} {drain' : List Nat} {free' : Nat} {env' : EnvS} {tm' : TimeS} {pwr' : PwrS} {flt' : FltS} {apc' : ApcS} {ram' : MemS} {rfe' : RfeS} {mphy' : MphyS} {mn' : MnodeS} {mlc' : MlcS} {wl' : WlanS} {yard' : YardS} {rte' : RteS} {shp' : KMap ShpS} {emac' : KMap EmacS} {pair' : CplS} {nvs' : NvsS} {keys' : KMap KeyS} {lim' : LimS} {dbg' : DbgS}
    (h : s.Ok qs) (hy : yard'.prog = s.yard.prog) : State.Ok qs ⟨s.regs, nv', bus', oppart', latch', held', doms', drain', memPuts s.mem a l, s.pending, free', env', tm', pwr', flt', apc', ram', rfe', mphy', mn', mlc', wl', yard', rte', shp', emac', pair', nvs', keys', lim', dbg'⟩ :=
  ⟨h.regs, memory_wf_puts l a h.mem, by rw [hy]; exact h.prog, h.queue⟩

/-- Forgetting octets keeps it. -/
theorem mkdrop_ok {qs : List Instr} {s : State} {p : Host.Cell → Bool} {nv' : KMap Nat} {bus' : BusS} {oppart' : KMap Nat} {latch' : KMap Nat} {held' : KMap Nat} {doms' : KMap Nat} {drain' : List Nat} {free' : Nat} {env' : EnvS} {tm' : TimeS} {pwr' : PwrS} {flt' : FltS} {apc' : ApcS} {ram' : MemS} {rfe' : RfeS} {mphy' : MphyS} {mn' : MnodeS} {mlc' : MlcS} {wl' : WlanS} {yard' : YardS} {rte' : RteS} {shp' : KMap ShpS} {emac' : KMap EmacS} {pair' : CplS} {nvs' : NvsS} {keys' : KMap KeyS} {lim' : LimS} {dbg' : DbgS}
    (h : s.Ok qs) (hy : yard'.prog = s.yard.prog) : State.Ok qs ⟨s.regs, nv', bus', oppart', latch', held', doms', drain', s.mem.filter p, s.pending, free', env', tm', pwr', flt', apc', ram', rfe', mphy', mn', mlc', wl', yard', rte', shp', emac', pair', nvs', keys', lim', dbg'⟩ :=
  ⟨h.regs, memory_wf_filter p h.mem, by rw [hy]; exact h.prog, h.queue⟩

/-- Forgetting register fields keeps it. -/
theorem mkregs_ok {qs : List Instr} {s : State} {p : Nat × Nat → Bool} {nv' : KMap Nat} {bus' : BusS} {oppart' : KMap Nat} {latch' : KMap Nat} {held' : KMap Nat} {doms' : KMap Nat} {drain' : List Nat} {free' : Nat} {env' : EnvS} {tm' : TimeS} {pwr' : PwrS} {flt' : FltS} {apc' : ApcS} {ram' : MemS} {rfe' : RfeS} {mphy' : MphyS} {mn' : MnodeS} {mlc' : MlcS} {wl' : WlanS} {yard' : YardS} {rte' : RteS} {shp' : KMap ShpS} {emac' : KMap EmacS} {pair' : CplS} {nvs' : NvsS} {keys' : KMap KeyS} {lim' : LimS} {dbg' : DbgS}
    (h : s.Ok qs) (hy : yard'.prog = s.yard.prog) : State.Ok qs ⟨s.regs.filter p, nv', bus', oppart', latch', held', doms', drain', s.mem, s.pending, free', env', tm', pwr', flt', apc', ram', rfe', mphy', mn', mlc', wl', yard', rte', shp', emac', pair', nvs', keys', lim', dbg'⟩ :=
  ⟨kok_filter p h.regs, h.mem, by rw [hy]; exact h.prog, h.queue⟩

/-- A choice keeps it when both sides do. -/
theorem ite_ok {qs : List Instr} {c : Prop} [Decidable c] {s t : State} (hs : s.Ok qs) (ht : t.Ok qs) : (if c then s else t).Ok qs := by
  split
  · exact hs
  · exact ht

/-- A run of changes keeps it when each does. -/
theorem foldl_ok {α : Type} {qs : List Instr} {f : State → α → State} {l : List α} {s : State} (h : s.Ok qs)
    (hf : ∀ (t : State) (e : α), t.Ok qs → (f t e).Ok qs) : (l.foldl f s).Ok qs := by
  induction l generalizing s with
  | nil => exact h
  | cons a t ih => exact ih (hf s a h)

/-- An answer or the state as it was keeps it. -/
theorem getD_ok {qs : List Instr} {o : Option State} {s : State} (hs : s.Ok qs) (h : ∀ u, o = some u → u.Ok qs) : (o.getD s).Ok qs := by
  cases o with
  | none => exact hs
  | some u => exact h u rfl

theorem State.set_ok {qs : List Instr} {s : State} (f : Fld) (v : Nat) (hs : s.Ok qs) : (s.set f v).Ok qs := by
  refine ⟨?_, hs.mem, hs.prog, hs.queue⟩
  unfold State.set
  lift_lets
  intro x
  have hx : x < 2 ^ 32 := Nat.lt_of_lt_of_le (Nat.mod_lt _ (by positivity)) (Nat.pow_le_pow_right (by omega) (by omega))
  show regsWf (if x = s.base f then _ else _) = true
  split
  · exact kok_kdel hs.regs
  · exact kok_kset hs.regs (by simpa using hx)

end Sys2Proof.Machine
end

