-- ==== Sys2Proof/Laws/KeepOps.lean ====
section
/-!
SUPPORT. The operations of Machine/Ops.lean keep what Laws/Keep.lean says.
-/

set_option linter.all false

namespace Sys2Proof.Machine

theorem State.sets_ok {qs : List Instr} {s : State} (l : List (Fld × ℕ)) (hs : s.Ok qs) :
    (State.sets s l).Ok qs := by
  unfold State.sets
  repeat' first
    | with_reducible assumption
    | with_reducible apply State.set_ok
    | with_reducible refine foldl_ok ?_ (fun t e ht => ?_)

theorem State.setI_ok {qs : List Instr} {s : State} (f : Fld) (x : ℤ) (hs : s.Ok qs) :
    (State.setI s f x).Ok qs := by
  unfold State.setI
  repeat' first
    | with_reducible assumption
    | with_reducible apply State.set_ok

theorem State.plicSample_ok {qs : List Instr} {s : State} (w : ℕ) (level : Bool) (hs : s.Ok qs) :
    (State.plicSample s w level).Ok qs := by
  unfold State.plicSample
  repeat' first
    | with_reducible assumption
    | with_reducible exact mk_ok (by with_reducible assumption) (by with_reducible rfl)
    | split

theorem State.raise_ok {qs : List Instr} {s : State} (w : ℕ) (b : ℕ) (hs : s.Ok qs) :
    (State.raise s w b).Ok qs := by
  unfold State.raise
  repeat' first
    | with_reducible assumption
    | with_reducible apply State.plicSample_ok
    | with_reducible apply State.set_ok

theorem State.raiseIf_ok {qs : List Instr} {s : State} (c : Bool) (w : ℕ) (b : ℕ) (hs : s.Ok qs) :
    (State.raiseIf s c w b).Ok qs := by
  unfold State.raiseIf
  repeat' first
    | with_reducible assumption
    | with_reducible apply State.raise_ok
    | split

theorem State.satAdd_ok {qs : List Instr} {s : State} (cnt : Fld) (ovf : Fld) (w : ℕ) (ev : ℕ) (n : ℕ) (hs : s.Ok qs) :
    (State.satAdd s cnt ovf w ev n).Ok qs := by
  unfold State.satAdd
  repeat' first
    | with_reducible assumption
    | with_reducible apply State.raise_ok
    | with_reducible apply State.set_ok
    | with_reducible refine ite_ok ?_ ?_

theorem State.satAdd0_ok {qs : List Instr} {s : State} (cnt : Fld) (w : ℕ) (ev : ℕ) (n : ℕ) (hs : s.Ok qs) :
    (State.satAdd0 s cnt w ev n).Ok qs := by
  unfold State.satAdd0
  repeat' first
    | with_reducible assumption
    | with_reducible apply State.raise_ok
    | with_reducible apply State.set_ok
    | with_reducible refine ite_ok ?_ ?_

theorem State.bump_ok {qs : List Instr} {s : State} (w : ℕ) (off : ℕ) (ev : ℕ) (hs : s.Ok qs) :
    (State.bump s w off ev).Ok qs := by
  unfold State.bump
  repeat' first
    | with_reducible assumption
    | with_reducible apply State.satAdd_ok

theorem State.wrapInc_ok {qs : List Instr} {s : State} (f : Fld) (hs : s.Ok qs) :
    (State.wrapInc s f).Ok qs := by
  unfold State.wrapInc
  repeat' first
    | with_reducible assumption
    | with_reducible apply State.set_ok

theorem State.answer_ok {qs : List Instr} {s : State} (v : ℕ) (hs : s.Ok qs) :
    (State.answer s v).Ok qs := by
  unfold State.answer
  repeat' first
    | with_reducible assumption
    | with_reducible exact mk_ok (by with_reducible assumption) (by with_reducible rfl)

theorem State.answerErr_ok {qs : List Instr} {s : State} (r : Rq) (dark : Bool) (hs : s.Ok qs) :
    (State.answerErr s r dark).Ok qs := by
  unfold State.answerErr
  repeat' first
    | with_reducible assumption
    | with_reducible exact mk_ok (by with_reducible assumption) (by with_reducible rfl)

theorem State.errRec_ok {qs : List Instr} {s : State} (r : Rq) (w : ℕ) (off : ℕ) (cause : ℕ) (hs : s.Ok qs) :
    (State.errRec s r w off cause).Ok qs := by
  unfold State.errRec
  repeat' first
    | with_reducible assumption
    | with_reducible apply State.sets_ok
    | split

theorem State.darkRec_ok {qs : List Instr} {s : State} (r : Rq) (addr : ℕ) (kind : ℕ) (hs : s.Ok qs) :
    (State.darkRec s r addr kind).Ok qs := by
  unfold State.darkRec
  repeat' first
    | with_reducible assumption
    | with_reducible apply State.set_ok
    | with_reducible apply State.sets_ok
    | split

theorem State.setDom_ok {qs : List Instr} {s : State} (d : ℕ) (st : ℕ) (hs : s.Ok qs) :
    (State.setDom s d st).Ok qs := by
  unfold State.setDom
  repeat' first
    | with_reducible assumption
    | with_reducible exact mk_ok (by with_reducible assumption) (by with_reducible rfl)

theorem State.opFinish_ok {qs : List Instr} {s : State} (w : ℕ) (st : ℕ) (cause : ℕ) (hs : s.Ok qs) :
    (State.opFinish s w st cause).Ok qs := by
  unfold State.opFinish
  repeat' first
    | with_reducible assumption
    | with_reducible apply State.raise_ok
    | with_reducible apply State.set_ok

theorem State.opDone_ok {qs : List Instr} {s : State} (w : ℕ) (hs : s.Ok qs) :
    (State.opDone s w).Ok qs := by
  unfold State.opDone
  repeat' first
    | with_reducible assumption
    | with_reducible apply State.opFinish_ok

theorem State.opFail_ok {qs : List Instr} {s : State} (w : ℕ) (cause : ℕ) (hs : s.Ok qs) :
    (State.opFail s w cause).Ok qs := by
  unfold State.opFail
  repeat' first
    | with_reducible assumption
    | with_reducible apply State.opFinish_ok

theorem State.opKill_ok {qs : List Instr} {s : State} (w : ℕ) (hs : s.Ok qs) :
    (State.opKill s w).Ok qs := by
  unfold State.opKill
  repeat' first
    | with_reducible assumption
    | with_reducible apply State.opFinish_ok
    | split

theorem State.opUnits_ok {qs : List Instr} {s : State} (w : ℕ) (n : ℕ) (part : ℕ) (hs : s.Ok qs) :
    (State.opUnits s w n part).Ok qs := by
  unfold State.opUnits
  repeat' first
    | with_reducible assumption
    | with_reducible apply State.set_ok

theorem State.opStart_ok {qs : List Instr} {s : State} (r : Rq) (w : ℕ) (valid : Bool) (isFree : Bool) (hs : s.Ok qs) :
    (State.opStart s r w valid isFree).Ok qs := by
  unfold State.opStart
  repeat' first
    | with_reducible assumption
    | with_reducible apply State.errRec_ok
    | with_reducible apply State.opFail_ok
    | with_reducible apply State.opUnits_ok
    | with_reducible apply State.set_ok
    | split

theorem State.fresh_ok {qs : List Instr} {s : State} (hs : s.Ok qs) :
    (State.fresh s).2.Ok qs := by
  unfold State.fresh
  repeat' first
    | with_reducible assumption
    | with_reducible exact mk_ok (by with_reducible assumption) (by with_reducible rfl)

theorem State.pick_ok {qs : List Instr} {s : State} (p : ℕ → Bool) (n : ℕ) (lo : ℕ) (hs : s.Ok qs) :
    (State.pick s p n lo).2.Ok qs := by
  unfold State.pick
  repeat' first
    | with_reducible assumption
    | intro t
    | lift_lets
    | with_reducible apply State.fresh_ok
    | split

theorem State.fltCnt_ok {qs : List Instr} {s : State} (n : ℕ) (hs : s.Ok qs) :
    (State.fltCnt s n).Ok qs := by
  unfold State.fltCnt
  repeat' first
    | with_reducible assumption
    | with_reducible apply State.bump_ok

theorem State.setLedger_ok {qs : List Instr} {s : State} (code : ℕ) (l : Ledger) (hs : s.Ok qs) :
    (State.setLedger s code l).Ok qs := by
  unfold State.setLedger
  repeat' first
    | with_reducible assumption
    | with_reducible exact mk_ok (by with_reducible assumption) (by with_reducible rfl)

theorem State.fltLast_ok {qs : List Instr} {s : State} (code : ℕ) (hard : Bool) (lasting : Bool) (hs : s.Ok qs) :
    (State.fltLast s code hard lasting).Ok qs := by
  unfold State.fltLast
  repeat' first
    | with_reducible assumption
    | with_reducible apply State.sets_ok

theorem State.fltTake_ok {qs : List Instr} {s : State} (code : ℕ) (hard : Bool) (hs : s.Ok qs) :
    (State.fltTake s code hard).Ok qs := by
  unfold State.fltTake
  repeat' first
    | with_reducible assumption
    | with_reducible apply State.fltCnt_ok
    | with_reducible apply State.fltLast_ok
    | with_reducible apply State.raise_ok
    | with_reducible apply State.set_ok
    | with_reducible apply State.setLedger_ok
    | with_reducible refine ite_ok ?_ ?_

theorem State.fltEvent_ok {qs : List Instr} {s : State} (code : ℕ) (page : ℕ) (hard : Bool) (hs : s.Ok qs) :
    (State.fltEvent s code page hard).Ok qs := by
  unfold State.fltEvent
  repeat' first
    | with_reducible assumption
    | with_reducible apply State.fltCnt_ok
    | with_reducible apply State.fltTake_ok
    | with_reducible apply State.raise_ok
    | with_reducible apply State.sets_ok
    | with_reducible exact mk_ok (by with_reducible assumption) (by with_reducible rfl)
    | split

theorem State.ueReport_ok {qs : List Instr} {s : State} (a : ℕ) (hs : s.Ok qs) :
    (State.ueReport s a).Ok qs := by
  unfold State.ueReport
  repeat' first
    | with_reducible assumption
    | with_reducible apply State.bump_ok
    | with_reducible apply State.fltEvent_ok
    | with_reducible apply State.raise_ok
    | with_reducible apply State.sets_ok
    | split

theorem State.ueHit_ok {qs : List Instr} {s : State} (a : Nat) (n : Nat) (hs : s.Ok qs) : (State.ueHit s a n).Ok qs := by
  unfold State.ueHit
  refine foldl_ok hs (fun t e ht => ?_)
  dsimp only
  split
  · exact State.bump_ok _ _ _ ⟨ht.regs, memory_wf_puts _ _ ht.mem, ht.prog, ht.queue⟩
  · exact State.ueReport_ok _ ht

theorem memory_wf_fold {s : State} (a : Nat) (l : List (Nat × Byte)) {m : List Host.Cell} (h : Memory.wf m = true) :
    Memory.wf (l.foldl (fun m e => if s.ueIn (a + e.1) 1 then m else memPut m (a + e.1) e.2) m) = true := by
  induction l generalizing m with
  | nil => exact h
  | cons e t ih =>
    refine ih ?_
    by_cases hc : s.ueIn (a + e.1) 1 = true
    · simpa [hc] using h
    · simpa [hc] using memory_wf_put _ _ h

theorem State.pokeOne_ok {qs : List Instr} {s : State} (a : Nat) (l : List Byte) (hs : s.Ok qs) : (State.pokeOne s a l).Ok qs := by
  unfold State.pokeOne
  split
  · exact ⟨hs.regs, memory_wf_puts _ _ hs.mem, hs.prog, hs.queue⟩
  · exact State.ueHit_ok _ _ ⟨hs.regs, memory_wf_fold _ _ hs.mem, hs.prog, hs.queue⟩

theorem State.poke_ok {qs : List Instr} {s : State} (a : ℕ) (l : List Byte) (hs : s.Ok qs) :
    (State.poke s a l).Ok qs := by
  unfold State.poke
  repeat' first
    | with_reducible assumption
    | split
    | with_reducible apply State.pokeOne_ok
    | with_reducible apply State.ueHit_ok

theorem State.pokeN_ok {qs : List Instr} {s : State} (a : ℕ) (n : ℕ) (v : ℕ) (hs : s.Ok qs) :
    (State.pokeN s a n v).Ok qs := by
  unfold State.pokeN
  repeat' first
    | with_reducible assumption
    | with_reducible apply State.poke_ok

theorem State.bufAlloc_ok {qs : List Instr} {s : State} (n : ℕ) (hs : s.Ok qs) :
    (State.bufAlloc s n).2.Ok qs := by
  unfold State.bufAlloc
  repeat' first
    | with_reducible assumption
    | (intro t; refine (have ht : State.Ok qs t := ?_; ?_); (on_goal 2 => clear_value t); (on_goal 1 => subst t))
    | (intro t; refine (have ht : State.Ok qs t.2 := ?_; ?_); (on_goal 2 => clear_value t); (on_goal 1 => subst t))
    | split
    | lift_lets
    | with_reducible apply State.bump_ok
    | with_reducible apply State.pick_ok
    | with_reducible apply State.pokeN_ok
    | with_reducible exact mk_ok (by with_reducible assumption) (by with_reducible rfl)

theorem State.bufRelease_ok {qs : List Instr} {s : State} (h : ℕ) (hs : s.Ok qs) :
    (State.bufRelease s h).Ok qs := by
  unfold State.bufRelease
  repeat' first
    | with_reducible assumption
    | with_reducible exact mk_ok (by with_reducible assumption) (by with_reducible rfl)
    | split

theorem State.reqTake_ok {qs : List Instr} {s : State} (r : Req) (hs : s.Ok qs) :
    (State.reqTake s r).Ok qs := by
  unfold State.reqTake
  repeat' first
    | with_reducible assumption
    | (intro t; refine (have ht : State.Ok qs t := ?_; ?_); (on_goal 2 => clear_value t); (on_goal 1 => subst t))
    | intro (t : YardS)
    | lift_lets
    | with_reducible exact mk_ok (by with_reducible assumption) (by with_reducible rfl)

end Sys2Proof.Machine
end

