-- ==== Sys2Proof/Laws/KeepTimebase.lean ====
section
/-!
SUPPORT. The operations of Machine/Timebase.lean keep what Laws/Keep.lean says.
-/

set_option linter.all false

namespace Sys2Proof.Machine

theorem State.setIncr_ok {qs : List Instr} {s : State} (v : ℤ) (hs : s.Ok qs) :
    (State.setIncr s v).Ok qs := by
  unfold State.setIncr
  repeat' first
    | with_reducible assumption
    | with_reducible apply State.raiseIf_ok
    | with_reducible exact mk_ok (by with_reducible assumption) (by with_reducible rfl)

theorem State.askStep_ok {qs : List Instr} {s : State} (n : ℤ) (hs : s.Ok qs) :
    (State.askStep s n).Ok qs := by
  unfold State.askStep
  repeat' first
    | with_reducible assumption
    | with_reducible apply State.raise_ok
    | with_reducible exact mk_ok (by with_reducible assumption) (by with_reducible rfl)
    | split

theorem State.askLoad_ok {qs : List Instr} {s : State} (sec : ℕ) (ns : ℕ) (frac : ℕ) (hs : s.Ok qs) :
    (State.askLoad s sec ns frac).Ok qs := by
  unfold State.askLoad
  repeat' first
    | with_reducible assumption
    | with_reducible apply State.raise_ok
    | with_reducible refine ite_ok ?_ ?_
    | with_reducible exact mk_ok (by with_reducible assumption) (by with_reducible rfl)

theorem State.setSlew_ok {qs : List Instr} {s : State} (n : ℤ) (hs : s.Ok qs) :
    (State.setSlew s n).Ok qs := by
  unfold State.setSlew
  repeat' first
    | with_reducible assumption
    | with_reducible exact mk_ok (by with_reducible assumption) (by with_reducible rfl)

theorem State.syncTo_ok {qs : List Instr} {s : State} (st : ℕ) (hs : s.Ok qs) :
    (State.syncTo s st).Ok qs := by
  unfold State.syncTo
  repeat' first
    | with_reducible assumption
    | with_reducible apply State.raise_ok
    | with_reducible apply State.set_ok
    | with_reducible exact mk_ok (by with_reducible assumption) (by with_reducible rfl)
    | split

theorem State.setUnc_ok {qs : List Instr} {s : State} (v : ℕ) (hs : s.Ok qs) :
    (State.setUnc s v).Ok qs := by
  unfold State.setUnc
  repeat' first
    | with_reducible assumption
    | with_reducible apply State.set_ok

theorem State.driftCheck_ok {qs : List Instr} {s : State} (hs : s.Ok qs) :
    (State.driftCheck s).Ok qs := by
  unfold State.driftCheck
  repeat' first
    | with_reducible assumption
    | with_reducible apply State.raise_ok
    | with_reducible apply State.syncTo_ok
    | with_reducible refine ite_ok ?_ ?_

theorem State.growUnc_ok {qs : List Instr} {s : State} (dt : ℕ) (hs : s.Ok qs) :
    (State.growUnc s dt).Ok qs := by
  unfold State.growUnc
  repeat' first
    | with_reducible assumption
    | with_reducible apply State.driftCheck_ok
    | with_reducible apply State.setUnc_ok
    | with_reducible exact mk_ok (by with_reducible assumption) (by with_reducible rfl)
    | split

theorem State.setEpoch_ok {qs : List Instr} {s : State} (t : ℕ) (ns : ℕ) (hs : s.Ok qs) :
    (State.setEpoch s t ns).Ok qs := by
  unfold State.setEpoch
  repeat' first
    | with_reducible assumption
    | with_reducible apply State.sets_ok

theorem State.followStep_ok {qs : List Instr} {s : State} (n : ℤ) (hs : s.Ok qs) :
    (State.followStep s n).Ok qs := by
  unfold State.followStep
  repeat' first
    | with_reducible assumption
    | with_reducible apply State.setEpoch_ok
    | with_reducible refine foldl_ok ?_ (fun t e ht => ?_)
    | split

theorem State.ppsPulse_ok {qs : List Instr} {s : State} (before : ℕ) (after : ℕ) (hs : s.Ok qs) :
    (State.ppsPulse s before after).Ok qs := by
  unfold State.ppsPulse
  repeat' first
    | with_reducible assumption
    | with_reducible exact mk_ok (by with_reducible assumption) (by with_reducible rfl)
    | split

theorem State.residency_ok {qs : List Instr} {s : State} (dt : ℕ) (hs : s.Ok qs) :
    (State.residency s dt).Ok qs := by
  unfold State.residency
  repeat' first
    | with_reducible assumption
    | with_reducible exact mk_ok (by with_reducible assumption) (by with_reducible rfl)

theorem tickOp_ok {qs : List Instr} {s : State} (hs : s.Ok qs) :
    (tickOp s).Ok qs := by
  unfold tickOp
  repeat' first
    | with_reducible assumption
    | (intro t; refine (have ht : State.Ok qs t := ?_; ?_); (on_goal 2 => clear_value t); (on_goal 1 => subst t))
    | intro t
    | lift_lets
    | with_reducible apply State.followStep_ok
    | with_reducible apply State.growUnc_ok
    | with_reducible apply State.ppsPulse_ok
    | with_reducible apply State.raiseIf_ok
    | with_reducible apply State.residency_ok
    | with_reducible exact mk_ok (by with_reducible assumption) (by with_reducible rfl)
    | split

theorem execPpsOutEnd_ok {qs : List Instr} {s : State} {u : State} (hs : s.Ok qs) (e : execPpsOutEnd s = .next u) :
    u.Ok qs := by
  unfold execPpsOutEnd at e; cases e
  repeat' first
    | with_reducible assumption
    | with_reducible refine ite_ok ?_ ?_
    | with_reducible exact mk_ok (by with_reducible assumption) (by with_reducible rfl)

theorem execSlewEnd_ok {qs : List Instr} {s : State} {u : State} (hs : s.Ok qs) (e : execSlewEnd s = .next u) :
    u.Ok qs := by
  unfold execSlewEnd at e; cases e
  repeat' first
    | with_reducible assumption
    | with_reducible apply State.raise_ok
    | with_reducible refine ite_ok ?_ ?_
    | with_reducible exact mk_ok (by with_reducible assumption) (by with_reducible rfl)

theorem State.refSwitch_ok {qs : List Instr} {s : State} (toExt : Bool) (hs : s.Ok qs) :
    (State.refSwitch s toExt).Ok qs := by
  unfold State.refSwitch
  repeat' first
    | with_reducible assumption
    | with_reducible apply State.raise_ok
    | with_reducible apply State.set_ok
    | with_reducible apply State.setIncr_ok
    | with_reducible refine ite_ok ?_ ?_

theorem State.refChoose_ok {qs : List Instr} {s : State} (hs : s.Ok qs) :
    (State.refChoose s).Ok qs := by
  unfold State.refChoose
  repeat' first
    | with_reducible assumption
    | with_reducible apply State.refSwitch_ok

theorem execRef10Valid_ok {qs : List Instr} (num : ℕ) (den : ℕ) {s : State} {u : State} (hs : s.Ok qs) (e : execRef10Valid num den s = .next u) :
    u.Ok qs := by
  unfold execRef10Valid at e; cases e
  repeat' first
    | with_reducible assumption
    | with_reducible apply State.refChoose_ok
    | with_reducible apply State.set_ok
    | with_reducible exact mk_ok (by with_reducible assumption) (by with_reducible rfl)
    | split

theorem execRef10Loss_ok {qs : List Instr} {s : State} {u : State} (hs : s.Ok qs) (e : execRef10Loss s = .next u) :
    u.Ok qs := by
  unfold execRef10Loss at e; cases e
  repeat' first
    | with_reducible assumption
    | with_reducible apply State.raise_ok
    | with_reducible apply State.refChoose_ok
    | with_reducible apply State.set_ok
    | with_reducible refine ite_ok ?_ ?_

theorem State.servo_ok {qs : List Instr} {s : State} (y : ℤ) (hs : s.Ok qs) :
    (State.servo s y).Ok qs := by
  unfold State.servo
  repeat' first
    | with_reducible assumption
    | (intro t; refine (have ht : State.Ok qs t := ?_; ?_); (on_goal 2 => clear_value t); (on_goal 1 => subst t))
    | lift_lets
    | with_reducible apply State.askStep_ok
    | with_reducible apply State.setIncr_ok
    | with_reducible exact mk_ok (by with_reducible assumption) (by with_reducible rfl)
    | split

theorem State.measState_ok {qs : List Instr} {s : State} (y : ℤ) (hs : s.Ok qs) :
    (State.measState s y).Ok qs := by
  unfold State.measState
  repeat' first
    | with_reducible assumption
    | with_reducible apply State.syncTo_ok
    | with_reducible refine ite_ok ?_ ?_
    | with_reducible exact mk_ok (by with_reducible assumption) (by with_reducible rfl)
    | split

theorem State.measure_ok {qs : List Instr} {s : State} (y : ℤ) (hs : s.Ok qs) :
    (State.measure s y).Ok qs := by
  unfold State.measure
  repeat' first
    | with_reducible assumption
    | (intro t; refine (have ht : State.Ok qs t := ?_; ?_); (on_goal 2 => clear_value t); (on_goal 1 => subst t))
    | lift_lets
    | with_reducible apply State.measState_ok
    | with_reducible apply State.satAdd_ok
    | with_reducible apply State.servo_ok
    | with_reducible apply State.set_ok
    | with_reducible apply State.setI_ok
    | with_reducible apply State.setUnc_ok
    | with_reducible exact mk_ok (by with_reducible assumption) (by with_reducible rfl)
    | split

theorem State.srcWritten_ok {qs : List Instr} {s : State} (old : ℕ) (hs : s.Ok qs) :
    (State.srcWritten s old).Ok qs := by
  unfold State.srcWritten
  repeat' first
    | with_reducible assumption
    | with_reducible apply State.set_ok
    | with_reducible apply State.setUnc_ok
    | with_reducible apply State.syncTo_ok
    | with_reducible refine ite_ok ?_ ?_
    | with_reducible exact mk_ok (by with_reducible assumption) (by with_reducible rfl)

theorem State.boundary_ok {qs : List Instr} {s : State} (hs : s.Ok qs) :
    (State.boundary s).Ok qs := by
  unfold State.boundary
  repeat' first
    | with_reducible assumption
    | lift_lets
    | with_reducible apply State.driftCheck_ok
    | with_reducible apply State.raise_ok
    | with_reducible apply State.satAdd_ok
    | with_reducible apply State.syncTo_ok
    | with_reducible refine ite_ok ?_ ?_
    | with_reducible exact mk_ok (by with_reducible assumption) (by with_reducible rfl)
    | split

theorem execSyncIvlBoundary_ok {qs : List Instr} {s : State} {u : State} (hs : s.Ok qs) (e : execSyncIvlBoundary s = .next u) :
    u.Ok qs := by
  unfold execSyncIvlBoundary at e; cases e
  repeat' first
    | with_reducible assumption
    | with_reducible apply State.boundary_ok
    | with_reducible refine ite_ok ?_ ?_

theorem execPpsInEdge_ok {qs : List Instr} {s : State} {u : State} (hs : s.Ok qs) (e : execPpsInEdge s = .next u) :
    u.Ok qs := by
  unfold execPpsInEdge at e; cases e
  repeat' first
    | with_reducible assumption
    | with_reducible apply State.measure_ok
    | with_reducible apply State.raise_ok
    | with_reducible apply State.sets_ok
    | with_reducible refine ite_ok ?_ ?_

theorem State.hushEntry_ok {qs : List Instr} {s : State} (hs : s.Ok qs) :
    (State.hushEntry s).Ok qs := by
  unfold State.hushEntry
  repeat' first
    | with_reducible assumption
    | with_reducible apply State.refChoose_ok
    | with_reducible exact mk_ok (by with_reducible assumption) (by with_reducible rfl)

theorem State.hushExit_ok {qs : List Instr} {s : State} (hs : s.Ok qs) :
    (State.hushExit s).Ok qs := by
  unfold State.hushExit
  repeat' first
    | with_reducible assumption
    | with_reducible apply State.refChoose_ok
    | with_reducible exact mk_ok (by with_reducible assumption) (by with_reducible rfl)

theorem execSleepCalWindow_ok {qs : List Instr} {s : State} {u : State} (hs : s.Ok qs) (e : execSleepCalWindow s = .next u) :
    u.Ok qs := by
  unfold execSleepCalWindow at e; cases e
  repeat' first
    | with_reducible assumption
    | with_reducible apply State.sets_ok
    | with_reducible refine ite_ok ?_ ?_
    | with_reducible exact mk_ok (by with_reducible assumption) (by with_reducible rfl)

theorem State.timeRestore_ok {qs : List Instr} {s : State} (n : ℕ) (hs : s.Ok qs) :
    (State.timeRestore s n).Ok qs := by
  unfold State.timeRestore
  repeat' first
    | with_reducible assumption
    | with_reducible apply State.set_ok
    | with_reducible apply State.setUnc_ok
    | with_reducible apply State.syncTo_ok
    | with_reducible refine ite_ok ?_ ?_
    | with_reducible exact mk_ok (by with_reducible assumption) (by with_reducible rfl)

end Sys2Proof.Machine
end

