-- ==== Sys2Proof/Laws/KeepRfe.lean ====
section
/-!
SUPPORT. The operations of Machine/Rfe.lean keep what Laws/Keep.lean says.
-/

set_option linter.all false

namespace Sys2Proof.Machine

theorem State.setPath_ok {qs : List Instr} {s : State} (r : ℕ) (p : ℕ) (x : PathS) (hs : s.Ok qs) :
    (State.setPath s r p x).Ok qs := by
  unfold State.setPath
  repeat' first
    | with_reducible assumption
    | with_reducible exact mk_ok (by with_reducible assumption) (by with_reducible rfl)

theorem State.pathGo_ok {qs : List Instr} {s : State} (r : ℕ) (p : ℕ) (goal : ℕ) (hs : s.Ok qs) :
    (State.pathGo s r p goal).Ok qs := by
  unfold State.pathGo
  repeat' first
    | with_reducible assumption
    | with_reducible apply State.setPath_ok

theorem State.pathArrive_ok {qs : List Instr} {s : State} (r : ℕ) (p : ℕ) (hs : s.Ok qs) :
    (State.pathArrive s r p).Ok qs := by
  unfold State.pathArrive
  repeat' first
    | with_reducible assumption
    | intro t
    | lift_lets
    | with_reducible apply State.pathGo_ok
    | with_reducible apply State.set_ok
    | split

theorem State.txBound_ok {qs : List Instr} {s : State} (r : ℕ) (p : ℕ) (hs : s.Ok qs) :
    (State.txBound s r p).Ok qs := by
  unfold State.txBound
  repeat' first
    | with_reducible assumption
    | with_reducible apply State.pathGo_ok
    | split

theorem State.pathHold_ok {qs : List Instr} {s : State} (r : ℕ) (p : ℕ) (hs : s.Ok qs) :
    (State.pathHold s r p).Ok qs := by
  unfold State.pathHold
  repeat' first
    | with_reducible assumption
    | with_reducible apply State.setPath_ok
    | with_reducible refine ite_ok ?_ ?_

theorem State.setCalW_ok {qs : List Instr} {s : State} (r : ℕ) (i : ℕ) (w : ℕ) (v : ℕ) (hs : s.Ok qs) :
    (State.setCalW s r i w v).Ok qs := by
  unfold State.setCalW
  repeat' first
    | with_reducible assumption
    | with_reducible exact mk_ok (by with_reducible assumption) (by with_reducible rfl)

theorem State.nocal_ok {qs : List Instr} {s : State} (r : ℕ) (hs : s.Ok qs) :
    (State.nocal s r).Ok qs := by
  unfold State.nocal
  repeat' first
    | with_reducible assumption
    | with_reducible apply State.raise_ok
    | with_reducible apply State.satAdd_ok

theorem State.retune_ok {qs : List Instr} {s : State} (r : ℕ) (p : ℕ) (port : ℕ) (i : ℕ) (tEnd : ℕ) (hs : s.Ok qs) :
    (State.retune s r p port i tEnd).Ok qs := by
  unfold State.retune
  repeat' first
    | with_reducible assumption
    | with_reducible apply State.set_ok
    | with_reducible apply State.setPath_ok
    | split

theorem State.rxEntry_ok {qs : List Instr} {s : State} (r : ℕ) (p : ℕ) (freq : ℕ) (width : ℕ) (hs : s.Ok qs) :
    (State.rxEntry s r p freq width).Ok qs := by
  unfold State.rxEntry
  repeat' first
    | with_reducible assumption
    | split
    | with_reducible apply State.nocal_ok
    | with_reducible apply State.retune_ok
    | with_reducible apply State.set_ok

theorem State.pathRx_ok {qs : List Instr} {s : State} (r : ℕ) (p : ℕ) (rx : Bool) {u : State} (hs : s.Ok qs)
    (e : State.pathRx s r p rx = some u) : u.Ok qs := by
  unfold State.pathRx at e
  dsimp only at e
  repeat' split at e
  all_goals cases e
  all_goals exact State.pathGo_ok _ _ _ hs

theorem State.txRefuse_ok {qs : List Instr} {s : State} (r : ℕ) (status : ℕ) (hs : s.Ok qs) :
    (State.txRefuse s r status).Ok qs := by
  unfold State.txRefuse
  repeat' first
    | with_reducible assumption
    | split
    | with_reducible apply State.nocal_ok
    | with_reducible apply State.raise_ok
    | with_reducible apply State.satAdd_ok

theorem State.txAccept_ok {qs : List Instr} {s : State} (r : ℕ) (p : ℕ) (c : TxCmd) (hs : s.Ok qs) :
    (State.txAccept s r p c).Ok qs := by
  unfold State.txAccept
  repeat' first
    | with_reducible assumption
    | split
    | with_reducible apply State.retune_ok
    | with_reducible apply State.set_ok
    | with_reducible apply State.setPath_ok

theorem State.txStatus_ok {qs : List Instr} {s : State} (r : ℕ) (p : ℕ) (st : ℕ) (hs : s.Ok qs) :
    (State.txStatus s r p st).Ok qs := by
  unfold State.txStatus
  repeat' first
    | with_reducible assumption
    | with_reducible apply State.setPath_ok

theorem State.reflMeas_ok {qs : List Instr} {s : State} (r : ℕ) (rl : List (ℕ × ℕ)) (hs : s.Ok qs) :
    (State.reflMeas s r rl).Ok qs := by
  unfold State.reflMeas
  repeat' first
    | with_reducible assumption
    | with_reducible apply State.raiseIf_ok
    | with_reducible apply State.set_ok
    | with_reducible refine foldl_ok ?_ (fun t e ht => ?_)

theorem State.tapsAdapt_ok {qs : List Instr} {s : State} (port : ℕ) (dur : ℕ) (hs : s.Ok qs) :
    (State.tapsAdapt s port dur).Ok qs := by
  unfold State.tapsAdapt
  repeat' first
    | with_reducible assumption
    | (intro t; refine (have ht : State.Ok qs t := ?_; ?_); (on_goal 2 => clear_value t); (on_goal 1 => subst t))
    | intro t
    | lift_lets
    | with_reducible apply State.set_ok
    | with_reducible exact mk_ok (by with_reducible assumption) (by with_reducible rfl)
    | split

theorem State.reflAir_ok {qs : List Instr} {s : State} (r : ℕ) (ports : List ℕ) (hs : s.Ok qs) :
    (State.reflAir s r ports).Ok qs := by
  unfold State.reflAir
  repeat' first
    | with_reducible assumption
    | with_reducible apply State.fresh_ok
    | with_reducible apply State.reflMeas_ok
    | with_reducible refine foldl_ok ?_ (fun t e ht => ?_)

theorem State.cancMeas_ok {qs : List Instr} {s : State} (port : ℕ) (l : List CancMeas) (hs : s.Ok qs) :
    (State.cancMeas s port l).Ok qs := by
  unfold State.cancMeas
  repeat' first
    | with_reducible assumption
    | with_reducible apply State.raiseIf_ok
    | with_reducible apply State.set_ok
    | with_reducible apply State.setI_ok
    | with_reducible refine foldl_ok ?_ (fun t e ht => ?_)
    | split

theorem State.coexRelease_ok {qs : List Instr} {s : State} (hs : s.Ok qs) :
    (State.coexRelease s).Ok qs := by
  unfold State.coexRelease
  repeat' first
    | with_reducible assumption
    | with_reducible refine ite_ok ?_ ?_
    | with_reducible exact mk_ok (by with_reducible assumption) (by with_reducible rfl)

theorem State.txEnd_ok {qs : List Instr} {s : State} (r : ℕ) (p : ℕ) (id : ℕ) (canc : List CancMeas) (hs : s.Ok qs) :
    (State.txEnd s r p id canc).Ok qs := by
  unfold State.txEnd
  repeat' first
    | with_reducible assumption
    | (intro t; refine (have ht : State.Ok qs t := ?_; ?_); (on_goal 2 => clear_value t); (on_goal 1 => subst t))
    | intro t
    | lift_lets
    | with_reducible apply State.cancMeas_ok
    | with_reducible apply State.coexRelease_ok
    | with_reducible apply State.pathGo_ok
    | with_reducible apply State.setPath_ok
    | with_reducible apply State.tapsAdapt_ok
    | split

theorem State.pathFree_ok {qs : List Instr} {s : State} (r : ℕ) (p : ℕ) (hs : s.Ok qs) :
    (State.pathFree s r p).Ok qs := by
  unfold State.pathFree
  repeat' first
    | with_reducible assumption
    | with_reducible apply State.pathGo_ok
    | with_reducible refine ite_ok ?_ ?_

theorem State.pathCut_ok {qs : List Instr} {s : State} (r : ℕ) (p : ℕ) (st : ℕ) (hs : s.Ok qs) :
    (State.pathCut s r p st).Ok qs := by
  unfold State.pathCut
  repeat' first
    | with_reducible assumption
    | with_reducible apply State.setPath_ok

theorem State.rfeEnable_ok {qs : List Instr} {s : State} (r : ℕ) (en : Bool) (hs : s.Ok qs) :
    (State.rfeEnable s r en).Ok qs := by
  unfold State.rfeEnable
  repeat' first
    | with_reducible assumption
    | with_reducible apply State.opFail_ok
    | with_reducible apply State.pathCut_ok
    | with_reducible apply State.pathGo_ok
    | with_reducible refine ite_ok ?_ ?_
    | with_reducible refine foldl_ok ?_ (fun t e ht => ?_)

theorem State.rfeStart_ok {qs : List Instr} {s : State} (rq : Rq) (r : ℕ) (valid : Bool) (c : Bool) (hs : s.Ok qs) :
    (State.rfeStart s rq r valid c).Ok qs := by
  unfold State.rfeStart
  repeat' first
    | with_reducible assumption
    | with_reducible apply State.opFail_ok
    | with_reducible apply State.opStart_ok
    | with_reducible refine ite_ok ?_ ?_

theorem State.sweepSkip_ok {qs : List Instr} {s : State} (r : ℕ) (x2 : ℕ) (hs : s.Ok qs) :
    (State.sweepSkip s r x2).Ok qs := by
  induction x2 generalizing s r with
  | zero =>
    unfold State.sweepSkip
    repeat' first
      | with_reducible assumption
      | with_reducible apply ih
      | with_reducible apply State.opUnits_ok
      | with_reducible refine ite_ok ?_ ?_
  | succ k ih =>
    unfold State.sweepSkip
    repeat' first
      | with_reducible assumption
      | with_reducible apply ih
      | with_reducible apply State.opUnits_ok
      | with_reducible refine ite_ok ?_ ?_

theorem State.sweepEnd_ok {qs : List Instr} {s : State} (r : ℕ) (hs : s.Ok qs) :
    (State.sweepEnd s r).Ok qs := by
  unfold State.sweepEnd
  repeat' first
    | with_reducible assumption
    | with_reducible apply State.opDone_ok
    | split

theorem State.startSweep_ok {qs : List Instr} {s : State} (rq : Rq) (r : ℕ) (hs : s.Ok qs) :
    (State.startSweep s rq r).Ok qs := by
  unfold State.startSweep
  repeat' first
    | with_reducible assumption
    | with_reducible apply State.rfeStart_ok
    | with_reducible apply State.sweepEnd_ok
    | with_reducible apply State.sweepSkip_ok
    | with_reducible refine ite_ok ?_ ?_

theorem State.calStore_ok {qs : List Instr} {s : State} (r : ℕ) (i : ℕ) (m : CalMeas) (hs : s.Ok qs) :
    (State.calStore s r i m).Ok qs := by
  unfold State.calStore
  repeat' first
    | with_reducible assumption
    | (intro t; refine (have ht : State.Ok qs t := ?_; ?_); (on_goal 2 => clear_value t); (on_goal 1 => subst t))
    | intro t
    | lift_lets
    | with_reducible apply State.setCalW_ok
    | with_reducible exact mk_ok (by with_reducible assumption) (by with_reducible rfl)

theorem State.sweepStep_ok {qs : List Instr} {s : State} (r : ℕ) (m : CalMeas) (hs : s.Ok qs) :
    (State.sweepStep s r m).Ok qs := by
  unfold State.sweepStep
  repeat' first
    | with_reducible assumption
    | with_reducible apply State.calStore_ok
    | with_reducible apply State.opUnits_ok
    | with_reducible apply State.sweepEnd_ok
    | with_reducible apply State.sweepSkip_ok
    | with_reducible refine ite_ok ?_ ?_

theorem execSweepEntryDone_ok {qs : List Instr} (r : ℕ) (m : CalMeas) {s : State} {u : State} (hs : s.Ok qs) (e : execSweepEntryDone r m s = .next u) :
    u.Ok qs := by
  unfold execSweepEntryDone at e; cases e
  repeat' first
    | with_reducible assumption
    | with_reducible apply State.sweepStep_ok

theorem State.dmaWord_ok {qs : List Instr} {s : State} (a : ℕ) (v : ℕ) (hs : s.Ok qs) :
    (State.dmaWord s a v).Ok qs := by
  unfold State.dmaWord
  repeat' first
    | with_reducible assumption
    | with_reducible apply State.pokeN_ok
    | with_reducible apply State.raise_ok
    | split

theorem State.startSurvey_ok {qs : List Instr} {s : State} (rq : Rq) (r : ℕ) (hs : s.Ok qs) :
    (State.startSurvey s rq r).Ok qs := by
  unfold State.startSurvey
  repeat' first
    | with_reducible assumption
    | (intro t; refine (have ht : State.Ok qs t := ?_; ?_); (on_goal 2 => clear_value t); (on_goal 1 => subst t))
    | intro t
    | lift_lets
    | with_reducible apply State.dmaWord_ok
    | with_reducible apply State.rfeStart_ok
    | with_reducible refine foldl_ok ?_ (fun t e ht => ?_)
    | with_reducible exact mk_ok (by with_reducible assumption) (by with_reducible rfl)
    | split

theorem State.surveyStep_ok {qs : List Instr} {s : State} (r : ℕ) (energy : ℕ) (skipped : Bool) (hs : s.Ok qs) :
    (State.surveyStep s r energy skipped).Ok qs := by
  unfold State.surveyStep
  repeat' first
    | with_reducible assumption
    | (intro t; refine (have ht : State.Ok qs t := ?_; ?_); (on_goal 2 => clear_value t); (on_goal 1 => subst t))
    | intro t
    | lift_lets
    | with_reducible apply State.dmaWord_ok
    | with_reducible apply State.opDone_ok
    | with_reducible apply State.opUnits_ok
    | with_reducible exact mk_ok (by with_reducible assumption) (by with_reducible rfl)
    | split

theorem execSurveyDwellEnd_ok {qs : List Instr} (r : ℕ) (energy : ℕ) (skipped : Bool) {s : State} {u : State} (hs : s.Ok qs) (e : execSurveyDwellEnd r energy skipped s = .next u) :
    u.Ok qs := by
  unfold execSurveyDwellEnd at e; cases e
  repeat' first
    | with_reducible assumption
    | with_reducible apply State.surveyStep_ok

theorem State.startFg_ok {qs : List Instr} {s : State} (rq : Rq) (r : ℕ) (hs : s.Ok qs) :
    (State.startFg s rq r).Ok qs := by
  unfold State.startFg
  repeat' first
    | with_reducible assumption
    | with_reducible apply State.pathCut_ok
    | with_reducible apply State.rfeStart_ok
    | with_reducible apply State.set_ok
    | with_reducible apply State.setPath_ok
    | with_reducible refine ite_ok ?_ ?_

theorem State.fgLeave_ok {qs : List Instr} {s : State} (r : ℕ) (p : ℕ) (done : Bool) (hs : s.Ok qs) :
    (State.fgLeave s r p done).Ok qs := by
  unfold State.fgLeave
  repeat' first
    | with_reducible assumption
    | with_reducible apply State.pathGo_ok
    | with_reducible apply State.set_ok
    | with_reducible apply State.setPath_ok

theorem State.fgEnd_ok {qs : List Instr} {s : State} (r : ℕ) (hs : s.Ok qs) :
    (State.fgEnd s r).Ok qs := by
  unfold State.fgEnd
  repeat' first
    | with_reducible assumption
    | with_reducible apply State.fgLeave_ok
    | with_reducible apply State.opDone_ok
    | with_reducible apply State.opUnits_ok
    | split

theorem execFgCalEnd_ok {qs : List Instr} (r : ℕ) {s : State} {u : State} (hs : s.Ok qs) (e : execFgCalEnd r s = .next u) :
    u.Ok qs := by
  unfold execFgCalEnd at e; cases e
  repeat' first
    | with_reducible assumption
    | with_reducible apply State.fgEnd_ok

theorem State.bgStep_ok {qs : List Instr} {s : State} (r : ℕ) (i : ℕ) (last : Bool) (m : CalMeas) (hs : s.Ok qs) :
    (State.bgStep s r i last m).Ok qs := by
  unfold State.bgStep
  repeat' first
    | with_reducible assumption
    | with_reducible apply State.calStore_ok
    | with_reducible apply State.setPath_ok
    | with_reducible refine ite_ok ?_ ?_

theorem execBgCalStep_ok {qs : List Instr} (r : ℕ) (idx : ℕ) (last : Bool) (m : CalMeas) {s : State} {u : State} (hs : s.Ok qs) (e : execBgCalStep r idx last m s = .next u) :
    u.Ok qs := by
  unfold execBgCalStep at e; cases e
  repeat' first
    | with_reducible assumption
    | with_reducible apply State.bgStep_ok

theorem State.staleStep_ok {qs : List Instr} {s : State} (r : ℕ) (i : ℕ) (hs : s.Ok qs) :
    (State.staleStep s r i).Ok qs := by
  unfold State.staleStep
  repeat' first
    | with_reducible assumption
    | with_reducible apply State.raise_ok
    | with_reducible apply State.setCalW_ok
    | with_reducible refine ite_ok ?_ ?_

theorem execEntryStale_ok {qs : List Instr} (r : ℕ) (idx : ℕ) {s : State} {u : State} (hs : s.Ok qs) (e : execEntryStale r idx s = .next u) :
    u.Ok qs := by
  unfold execEntryStale at e; cases e
  repeat' first
    | with_reducible assumption
    | with_reducible apply State.staleStep_ok

theorem State.setCoex_ok {qs : List Instr} {s : State} (c : CoexS) (hs : s.Ok qs) :
    (State.setCoex s c).Ok qs := by
  unfold State.setCoex
  repeat' first
    | with_reducible assumption
    | with_reducible exact mk_ok (by with_reducible assumption) (by with_reducible rfl)

theorem execCoexPrioRise_ok {qs : List Instr} {s : State} {u : State} (hs : s.Ok qs) (e : execCoexPrioRise s = .next u) :
    u.Ok qs := by
  unfold execCoexPrioRise at e; cases e
  repeat' first
    | with_reducible assumption
    | with_reducible apply State.setCoex_ok
    | with_reducible refine ite_ok ?_ ?_

theorem State.coexRefuse_ok {qs : List Instr} {s : State} (r : ℕ) (p : ℕ) (id : ℕ) (hs : s.Ok qs) :
    (State.coexRefuse s r p id).Ok qs := by
  unfold State.coexRefuse
  repeat' first
    | with_reducible assumption
    | with_reducible apply State.pathHold_ok
    | with_reducible apply State.setPath_ok
    | with_reducible apply State.txRefuse_ok

theorem State.coexRx_ok {qs : List Instr} {s : State} (p : ℕ) (id : ℕ) (reqIn : Bool) (hs : s.Ok qs) :
    (State.coexRx s p id reqIn).Ok qs := by
  unfold State.coexRx
  repeat' first
    | with_reducible assumption
    | with_reducible apply State.raise_ok
    | with_reducible apply State.setCoex_ok
    | with_reducible refine ite_ok ?_ ?_

theorem State.coexStart_ok {qs : List Instr} {s : State} (r : ℕ) (p : ℕ) (id : ℕ) (reqIn : Bool) (hs : s.Ok qs) :
    (State.coexStart s r p id reqIn).Ok qs := by
  unfold State.coexStart
  repeat' first
    | with_reducible assumption
    | split
    | with_reducible apply State.coexRefuse_ok
    | with_reducible apply State.coexRx_ok
    | with_reducible apply State.setCoex_ok

theorem State.coexSample_ok {qs : List Instr} {s : State} (r : ℕ) (p : ℕ) (id : ℕ) (grant : Bool) (hs : s.Ok qs) :
    (State.coexSample s r p id grant).Ok qs := by
  unfold State.coexSample
  repeat' first
    | with_reducible assumption
    | with_reducible apply State.coexRefuse_ok
    | with_reducible apply State.coexRelease_ok
    | with_reducible apply State.setCoex_ok
    | split

theorem State.cancClr_ok {qs : List Instr} {s : State} (hs : s.Ok qs) :
    (State.cancClr s).Ok qs := by
  unfold State.cancClr
  repeat' first
    | with_reducible assumption
    | with_reducible apply State.set_ok
    | with_reducible refine foldl_ok ?_ (fun t e ht => ?_)
    | with_reducible exact mk_ok (by with_reducible assumption) (by with_reducible rfl)

theorem State.cancSav_ok {qs : List Instr} {s : State} (hs : s.Ok qs) :
    (State.cancSav s).Ok qs := by
  unfold State.cancSav
  repeat' first
    | with_reducible assumption
    | with_reducible exact mk_ok (by with_reducible assumption) (by with_reducible rfl)

end Sys2Proof.Machine
end

