-- ==== Sys2Proof/Laws/KeepFabric.lean ====
section
/-!
SUPPORT. The operations of Machine/Fabric.lean keep what Laws/Keep.lean says.
-/

set_option linter.all false

namespace Sys2Proof.Machine

theorem State.setWag_ok {qs : List Instr} {s : State} (w : ℕ) (x : Wagon) (hs : s.Ok qs) :
    (State.setWag s w x).Ok qs := by
  unfold State.setWag
  repeat' first
    | with_reducible assumption
    | with_reducible exact mk_ok (by with_reducible assumption) (by with_reducible rfl)

theorem State.yardCnt_ok {qs : List Instr} {s : State} (n : ℕ) (hs : s.Ok qs) :
    (State.yardCnt s n).Ok qs := by
  unfold State.yardCnt
  repeat' first
    | with_reducible assumption
    | with_reducible apply State.bump_ok

theorem State.setTrain_ok {qs : List Instr} {s : State} (t : ℕ) (x : ℕ × ℕ) (hs : s.Ok qs) :
    (State.setTrain s t x).Ok qs := by
  unfold State.setTrain
  repeat' first
    | with_reducible assumption
    | with_reducible exact mk_ok (by with_reducible assumption) (by with_reducible rfl)

theorem State.resvSlot_ok {qs : List Instr} {s u : State} (o : Nat) (hs : s.Ok qs) (e : State.resvSlot s o = some u) : u.Ok qs := by
  unfold State.resvSlot at e
  dsimp only at e
  split at e
  · cases e; exact ⟨hs.regs, hs.mem, hs.prog, hs.queue⟩
  · cases e

theorem State.unresv_ok {qs : List Instr} {s : State} (t : ℕ) (hs : s.Ok qs) :
    (State.unresv s t).Ok qs := by
  unfold State.unresv
  repeat' first
    | with_reducible assumption
    | with_reducible exact mk_ok (by with_reducible assumption) (by with_reducible rfl)

theorem State.makeReady_ok {qs : List Instr} {s : State} (w : ℕ) (hs : s.Ok qs) :
    (State.makeReady s w).Ok qs := by
  unfold State.makeReady
  repeat' first
    | with_reducible assumption
    | (intro t; refine (have ht : State.Ok qs t := ?_; ?_); (on_goal 2 => clear_value t); (on_goal 1 => subst t))
    | intro (t : YardS)
    | split
    | lift_lets
    | with_reducible apply State.setWag_ok
    | with_reducible exact mk_ok (by with_reducible assumption) (by with_reducible rfl)

theorem State.settle_ok {qs : List Instr} {s : State} (w : ℕ) (hs : s.Ok qs) :
    (State.settle s w).Ok qs := by
  unfold State.settle
  repeat' first
    | with_reducible assumption
    | split
    | with_reducible apply State.makeReady_ok

theorem State.freeWid_ok {qs : List Instr} {s : State} (hs : s.Ok qs) :
    (State.freeWid s).2.Ok qs := by
  unfold State.freeWid
  repeat' first
    | with_reducible assumption
    | with_reducible apply State.pick_ok

theorem State.placeNew_ok {qs : List Instr} {s : State} (x : Wagon) (hs : s.Ok qs) :
    (State.placeNew s x).2.Ok qs := by
  unfold State.placeNew
  repeat' first
    | with_reducible assumption
    | (intro t; refine (have ht : State.Ok qs t.2 := ?_; ?_); (on_goal 2 => clear_value t); (on_goal 1 => subst t))
    | lift_lets
    | with_reducible apply State.freeWid_ok
    | with_reducible apply State.setTrain_ok
    | with_reducible apply State.setWag_ok
    | with_reducible apply State.settle_ok
    | split

theorem State.islandWagon_ok {qs : List Instr} {s : State} (o : ℕ) (train : ℕ) (cs : ℕ) (c : List (ℕ × ℕ × Option ℕ)) (hs : s.Ok qs) :
    (State.islandWagon s o train cs c).2.Ok qs := by
  unfold State.islandWagon
  repeat' first
    | with_reducible assumption
    | with_reducible apply State.placeNew_ok

theorem State.islandCommit_ok {qs : List Instr} {s : State} (o : ℕ) (train : ℕ) (cs : ℕ) (c : List (ℕ × ℕ × Option ℕ)) (hs : s.Ok qs) :
    (State.islandCommit s o train cs c).2.Ok qs := by
  unfold State.islandCommit
  repeat' first
    | with_reducible assumption
    | with_reducible apply State.islandWagon_ok
    | with_reducible apply State.unresv_ok

theorem State.yardFull_ok {qs : List Instr} {s : State} (hs : s.Ok qs) :
    (State.yardFull s).Ok qs := by
  unfold State.yardFull
  repeat' first
    | with_reducible assumption
    | with_reducible apply State.raise_ok
    | with_reducible apply State.yardCnt_ok

theorem State.txDone_ok {qs : List Instr} {s : State} (ctrain : ℕ) (status : ℕ) (stamp : Option ℕ) (miss : Bool) (frame : Option ℕ) (hs : s.Ok qs) :
    (State.txDone s ctrain status stamp miss frame).Ok qs := by
  unfold State.txDone
  repeat' first
    | with_reducible assumption
    | with_reducible apply State.bufRelease_ok
    | with_reducible apply State.islandWagon_ok
    | with_reducible apply State.yardFull_ok
    | split

theorem State.outDone_ok {qs : List Instr} {s : State} (o : Out) (miss : Bool) (status : ℕ) (stamp : Option ℕ) (hs : s.Ok qs) :
    (State.outDone s o miss status stamp).Ok qs := by
  unfold State.outDone
  repeat' first
    | with_reducible assumption
    | with_reducible apply State.bufRelease_ok
    | with_reducible apply State.txDone_ok
    | split

theorem State.stray_ok {qs : List Instr} {s : State} (ty : ℕ) (v : ℕ) (hs : s.Ok qs) :
    (State.stray s ty v).Ok qs := by
  unfold State.stray
  repeat' first
    | with_reducible assumption
    | with_reducible apply State.bufRelease_ok
    | with_reducible apply State.raise_ok
    | with_reducible apply State.yardCnt_ok
    | split

theorem State.couple_ok {qs : List Instr} {s : State} (w : ℕ) (k : ℕ) (ty : ℕ) (v : ℕ) (snap : List Byte) (hs : s.Ok qs) :
    (State.couple s w k ty v snap).Ok qs := by
  unfold State.couple
  repeat' first
    | with_reducible assumption
    | split
    | with_reducible apply State.setWag_ok
    | with_reducible apply State.settle_ok
    | with_reducible apply State.stray_ok

theorem execCouplingArrive_ok {qs : List Instr} (wid : ℕ) (slot : ℕ) (typ : ℕ) (val : ℕ) (snap : List Byte) {s : State} {u : State} (hs : s.Ok qs) (e : execCouplingArrive wid slot typ val snap s = .next u) :
    u.Ok qs := by
  unfold execCouplingArrive at e; cases e
  repeat' first
    | with_reducible assumption
    | with_reducible apply State.couple_ok
    | split

theorem State.setEng_ok {qs : List Instr} {s : State} (e : ℕ) (x : EngS) (hs : s.Ok qs) :
    (State.setEng s e x).Ok qs := by
  unfold State.setEng
  repeat' first
    | with_reducible assumption
    | with_reducible exact mk_ok (by with_reducible assumption) (by with_reducible rfl)

theorem State.histAdd_ok {qs : List Instr} {s : State} (c : ℕ) (ns : ℕ) (hs : s.Ok qs) :
    (State.histAdd s c ns).Ok qs := by
  unfold State.histAdd
  repeat' first
    | with_reducible assumption
    | with_reducible exact mk_ok (by with_reducible assumption) (by with_reducible rfl)

theorem State.dispatchTo_ok {qs : List Instr} {s : State} (e : ℕ) (hs : s.Ok qs) :
    (State.dispatchTo s e).Ok qs := by
  unfold State.dispatchTo
  repeat' first
    | with_reducible assumption
    | split
    | with_reducible apply State.histAdd_ok
    | with_reducible apply State.setEng_ok
    | with_reducible apply State.setWag_ok

theorem execDispatch_ok {qs : List Instr} (e : ℕ) {s : State} {u : State} (hs : s.Ok qs) (e : execDispatch e s = .next u) :
    u.Ok qs := by
  unfold execDispatch at e; cases e
  repeat' first
    | with_reducible assumption
    | with_reducible apply State.dispatchTo_ok

theorem State.engFree_ok {qs : List Instr} {s : State} (e : ℕ) (hs : s.Ok qs) :
    (State.engFree s e).Ok qs := by
  unfold State.engFree
  repeat' first
    | with_reducible assumption
    | intro t
    | lift_lets
    | with_reducible apply State.setEng_ok
    | split

theorem State.setRd_ok {qs : List Instr} {s : State} (e : ℕ) (v : ℤ) (hs : s.Ok qs) :
    (State.setRd s e v).Ok qs := by
  unfold State.setRd
  repeat' first
    | with_reducible assumption
    | with_reducible apply State.setEng_ok

theorem State.wemitOp_ok {qs : List Instr} {s : State} (e : ℕ) (o : Out) (hs : s.Ok qs) :
    (State.wemitOp s e o).Ok qs := by
  unfold State.wemitOp
  repeat' first
    | with_reducible assumption
    | split
    | with_reducible apply State.setRd_ok
    | with_reducible apply State.setWag_ok

theorem execWemit_ok {qs : List Instr} (e : ℕ) (o : Out) {s : State} {u : State} (hs : s.Ok qs) (e : execWemit e o s = .next u) :
    u.Ok qs := by
  unfold execWemit at e; cases e
  repeat' first
    | with_reducible assumption
    | with_reducible apply State.wemitOp_ok

theorem State.wnewOp_ok {qs : List Instr} {s : State} (e : ℕ) (t : Tmpl) (hs : s.Ok qs) :
    (State.wnewOp s e t).Ok qs := by
  unfold State.wnewOp
  repeat' first
    | with_reducible assumption
    | (intro t; refine (have ht : State.Ok qs t.2 := ?_; ?_); (on_goal 2 => clear_value t); (on_goal 1 => subst t))
    | split
    | lift_lets
    | with_reducible apply State.freeWid_ok
    | with_reducible apply State.setRd_ok
    | with_reducible apply State.setWag_ok
    | with_reducible apply State.yardFull_ok

theorem execWnew_ok {qs : List Instr} (e : ℕ) (t : Tmpl) {s : State} {u : State} (hs : s.Ok qs) (e : execWnew e t s = .next u) :
    u.Ok qs := by
  unfold execWnew at e; cases e
  repeat' first
    | with_reducible assumption
    | with_reducible apply State.wnewOp_ok

theorem State.wcplOp_ok {qs : List Instr} {s : State} (e : ℕ) (wid : ℕ) (slot : ℕ) (typ : ℕ) (val : ℕ) (hs : s.Ok qs) :
    (State.wcplOp s e wid slot typ val).Ok qs := by
  unfold State.wcplOp
  repeat' first
    | with_reducible assumption
    | split
    | with_reducible apply State.setRd_ok
    | with_reducible apply State.setWag_ok

theorem execWcpl_ok {qs : List Instr} (e : ℕ) (wid : ℕ) (slot : ℕ) (typ : ℕ) (val : ℕ) {s : State} {u : State} (hs : s.Ok qs) (e : execWcpl e wid slot typ val s = .next u) :
    u.Ok qs := by
  unfold execWcpl at e; cases e
  repeat' first
    | with_reducible assumption
    | with_reducible apply State.wcplOp_ok

theorem State.wreqOp_ok {qs : List Instr} {s : State} (e : ℕ) (sec : Bool) (req : List ℕ) (wid : ℕ) (slot : ℕ) (hs : s.Ok qs) :
    (State.wreqOp s e sec req wid slot).Ok qs := by
  unfold State.wreqOp
  repeat' first
    | with_reducible assumption
    | split
    | with_reducible apply State.setRd_ok
    | with_reducible exact mk_ok (by with_reducible assumption) (by with_reducible rfl)

theorem State.whandOp_ok {qs : List Instr} {s : State} (e : ℕ) (wid : ℕ) (hs : s.Ok qs) :
    (State.whandOp s e wid).Ok qs := by
  unfold State.whandOp
  repeat' first
    | with_reducible assumption
    | split
    | with_reducible apply State.setRd_ok
    | with_reducible apply State.setWag_ok

theorem execWhand_ok {qs : List Instr} (e : ℕ) (wid : ℕ) {s : State} {u : State} (hs : s.Ok qs) (e : execWhand e wid s = .next u) :
    u.Ok qs := by
  unfold execWhand at e; cases e
  repeat' first
    | with_reducible assumption
    | with_reducible apply State.whandOp_ok

theorem State.wbufOp_ok {qs : List Instr} {s : State} (e : ℕ) (len : ℕ) (hs : s.Ok qs) :
    (State.wbufOp s e len).Ok qs := by
  unfold State.wbufOp
  repeat' first
    | with_reducible assumption
    | (intro t; refine (have ht : State.Ok qs t.2 := ?_; ?_); (on_goal 2 => clear_value t); (on_goal 1 => subst t))
    | split
    | lift_lets
    | with_reducible apply State.bufAlloc_ok
    | with_reducible apply State.setRd_ok
    | with_reducible apply State.setWag_ok

theorem execWbuf_ok {qs : List Instr} (e : ℕ) (len : ℕ) {s : State} {u : State} (hs : s.Ok qs) (e : execWbuf e len s = .next u) :
    u.Ok qs := by
  unfold execWbuf at e; cases e
  repeat' first
    | with_reducible assumption
    | with_reducible apply State.wbufOp_ok

theorem State.wagFree_ok {qs : List Instr} {s : State} (w : ℕ) (hs : s.Ok qs) :
    (State.wagFree s w).Ok qs := by
  unfold State.wagFree
  repeat' first
    | with_reducible assumption
    | (intro t; refine (have ht : State.Ok qs t := ?_; ?_); (on_goal 2 => clear_value t); (on_goal 1 => subst t))
    | intro (t : YardS)
    | split
    | lift_lets
    | with_reducible apply State.bufRelease_ok
    | with_reducible refine foldl_ok ?_ (fun t e ht => ?_)
    | with_reducible exact mk_ok (by with_reducible assumption) (by with_reducible rfl)

theorem State.unstage_ok {qs : List Instr} {s : State} (w : ℕ) (hs : s.Ok qs) :
    (State.unstage s w).Ok qs := by
  unfold State.unstage
  repeat' first
    | with_reducible assumption
    | split
    | with_reducible apply State.setWag_ok
    | with_reducible apply State.wagFree_ok
    | with_reducible refine foldl_ok ?_ (fun t e ht => ?_)

theorem State.commit_ok {qs : List Instr} {s : State} (w : ℕ) (hs : s.Ok qs) :
    (State.commit s w).Ok qs := by
  unfold State.commit
  repeat' first
    | with_reducible assumption
    | split
    | with_reducible apply State.couple_ok
    | with_reducible apply State.setWag_ok
    | with_reducible apply State.settle_ok
    | with_reducible refine foldl_ok ?_ (fun t e ht => ?_)

theorem State.voidWag_ok {qs : List Instr} {s : State} (w : ℕ) (hs : s.Ok qs) :
    (State.voidWag s w).Ok qs := by
  unfold State.voidWag
  repeat' first
    | with_reducible assumption
    | (intro t; refine (have ht : State.Ok qs t := ?_; ?_); (on_goal 2 => clear_value t); (on_goal 1 => subst t))
    | lift_lets
    | with_reducible apply State.setWag_ok
    | with_reducible apply State.unstage_ok
    | with_reducible apply State.yardCnt_ok
    | split

theorem State.engFail_ok {qs : List Instr} {s : State} (e : ℕ) (charge : Bool) (hs : s.Ok qs) :
    (State.engFail s e charge).Ok qs := by
  unfold State.engFail
  repeat' first
    | with_reducible assumption
    | split
    | with_reducible apply State.engFree_ok
    | with_reducible apply State.makeReady_ok
    | with_reducible apply State.raise_ok
    | with_reducible apply State.unstage_ok
    | with_reducible apply State.yardCnt_ok

theorem State.deadline_ok {qs : List Instr} {s : State} (w : ℕ) (hs : s.Ok qs) :
    (State.deadline s w).Ok qs := by
  unfold State.deadline
  repeat' first
    | with_reducible assumption
    | split
    | with_reducible apply State.raise_ok
    | with_reducible apply State.setWag_ok
    | with_reducible apply State.sets_ok
    | with_reducible apply State.yardCnt_ok

theorem execWagonDeadline_ok {qs : List Instr} (wid : ℕ) {s : State} {u : State} (hs : s.Ok qs) (e : execWagonDeadline wid s = .next u) :
    u.Ok qs := by
  unfold execWagonDeadline at e; cases e
  repeat' first
    | with_reducible assumption
    | with_reducible apply State.deadline_ok

theorem State.swCreate_ok {qs : List Instr} {s : State} (rq : Rq) (a : ℕ) (hs : s.Ok qs) :
    (State.swCreate s rq a).Ok qs := by
  unfold State.swCreate
  repeat' first
    | with_reducible assumption
    | (intro t; refine (have ht : State.Ok qs t.2 := ?_; ?_); (on_goal 2 => clear_value t); (on_goal 1 => subst t))
    | lift_lets
    | with_reducible apply State.errRec_ok
    | with_reducible apply State.placeNew_ok
    | with_reducible apply State.set_ok
    | with_reducible apply State.yardFull_ok
    | with_reducible refine ite_ok ?_ ?_
    | split

theorem State.swCouple_ok {qs : List Instr} {s : State} (v : ℕ) (hs : s.Ok qs) :
    (State.swCouple s v).Ok qs := by
  unfold State.swCouple
  repeat' first
    | with_reducible assumption
    | with_reducible apply State.couple_ok

theorem State.startLoad_ok {qs : List Instr} {s : State} (rq : Rq) (c : ℕ) (hs : s.Ok qs) :
    (State.startLoad s rq c).Ok qs := by
  unfold State.startLoad
  repeat' first
    | with_reducible assumption
    | with_reducible apply State.opFail_ok
    | with_reducible apply State.opStart_ok
    | with_reducible refine ite_ok ?_ ?_

theorem State.loadUnit_ok {qs : List Instr} {s : State} (c : Nat) (hs : s.Ok qs) : (State.loadUnit s c).Ok qs := by
  unfold State.loadUnit
  lift_lets
  intro w k a b u m
  have hu : u.Ok qs := State.ueHit_ok _ _ hs
  clear_value u
  have hm : Memory.wf m = true := memory_wf_puts (u.peeks a 1024) ((2 * c + b) * 32768 + 1024 * k) hu.prog
  clear_value m
  split
  · exact State.opFail_ok _ _ hs
  split
  · exact State.opFail_ok _ _ hu
  · refine State.opUnits_ok _ _ _ ?_
    exact ⟨hu.regs, hu.mem, hm, hu.queue⟩

theorem State.pbArmOp_ok {qs : List Instr} {s : State} (hs : s.Ok qs) :
    (State.pbArmOp s).Ok qs := by
  unfold State.pbArmOp
  repeat' first
    | with_reducible assumption
    | with_reducible apply State.set_ok

theorem State.pbSwitchOp_ok {qs : List Instr} {s : State} (hs : s.Ok qs) :
    (State.pbSwitchOp s).Ok qs := by
  unfold State.pbSwitchOp
  repeat' first
    | with_reducible assumption
    | with_reducible apply State.raise_ok
    | with_reducible apply State.set_ok
    | with_reducible refine ite_ok ?_ ?_

theorem execPbSwitch_ok {qs : List Instr} {s : State} {u : State} (hs : s.Ok qs) (e : execPbSwitch s = .next u) :
    u.Ok qs := by
  unfold execPbSwitch at e; cases e
  repeat' first
    | with_reducible assumption
    | with_reducible apply State.pbSwitchOp_ok

theorem State.histClose_ok {qs : List Instr} {s : State} (hs : s.Ok qs) :
    (State.histClose s).Ok qs := by
  unfold State.histClose
  repeat' first
    | with_reducible assumption
    | (intro t; refine (have ht : State.Ok qs t := ?_; ?_); (on_goal 2 => clear_value t); (on_goal 1 => subst t))
    | lift_lets
    | with_reducible apply State.raise_ok
    | with_reducible apply State.set_ok
    | with_reducible refine ite_ok ?_ ?_
    | with_reducible refine foldl_ok ?_ (fun t e ht => ?_)
    | with_reducible exact mk_ok (by with_reducible assumption) (by with_reducible rfl)

theorem execHistWindow_ok {qs : List Instr} {s : State} {u : State} (hs : s.Ok qs) (e : execHistWindow s = .next u) :
    u.Ok qs := by
  unfold execHistWindow at e; cases e
  repeat' first
    | with_reducible assumption
    | with_reducible apply State.histClose_ok

theorem State.loadClose_ok {qs : List Instr} {s : State} (retired : List ℕ) (hs : s.Ok qs) :
    (State.loadClose s retired).Ok qs := by
  unfold State.loadClose
  repeat' first
    | with_reducible assumption
    | (intro t; refine (have ht : State.Ok qs t := ?_; ?_); (on_goal 2 => clear_value t); (on_goal 1 => subst t))
    | intro (t : YardS)
    | intro t
    | lift_lets
    | with_reducible apply State.setEng_ok
    | with_reducible apply State.sets_ok
    | with_reducible refine foldl_ok ?_ (fun t e ht => ?_)
    | with_reducible exact mk_ok (by with_reducible assumption) (by with_reducible rfl)
    | split

theorem execEloadWindow_ok {qs : List Instr} (retired : List ℕ) {s : State} {u : State} (hs : s.Ok qs) (e : execEloadWindow retired s = .next u) :
    u.Ok qs := by
  unfold execEloadWindow at e; cases e
  repeat' first
    | with_reducible assumption
    | with_reducible apply State.loadClose_ok

end Sys2Proof.Machine
end

