-- ==== Sys2Proof/Laws/KeepLim.lean ====
section
/-!
SUPPORT. The operations of Machine/Lim.lean keep what Laws/Keep.lean says.
-/

set_option linter.all false

namespace Sys2Proof.Machine

theorem State.meterAdd_ok {qs : List Instr} {s : State} (m : ℕ) (window : ℕ) (n : ℕ) (hs : s.Ok qs) :
    (State.meterAdd s m window n).Ok qs := by
  unfold State.meterAdd
  repeat' first
    | with_reducible assumption
    | with_reducible apply State.raise_ok
    | with_reducible apply State.set_ok
    | with_reducible refine ite_ok ?_ ?_
    | with_reducible exact mk_ok (by with_reducible assumption) (by with_reducible rfl)

theorem State.limAdmit_ok {qs : List Instr} {s : State} (q' : LimAsk) (hs : s.Ok qs) :
    (State.limAdmit s q').2.Ok qs := by
  unfold State.limAdmit
  repeat' first
    | with_reducible assumption
    | (intro t; refine (have ht : State.Ok qs t := ?_; ?_); (on_goal 2 => clear_value t); (on_goal 1 => subst t))
    | intro t
    | split
    | lift_lets
    | with_reducible apply State.bump_ok
    | with_reducible apply State.meterAdd_ok
    | with_reducible apply State.raise_ok
    | with_reducible refine foldl_ok ?_ (fun t e ht => ?_)
    | with_reducible exact mk_ok (by with_reducible assumption) (by with_reducible rfl)

theorem State.limCut_ok {qs : List Instr} {s : State} (id : ℕ) (hs : s.Ok qs) :
    (State.limCut s id).Ok qs := by
  unfold State.limCut
  repeat' first
    | with_reducible assumption
    | with_reducible exact mk_ok (by with_reducible assumption) (by with_reducible rfl)

theorem State.meterAge_ok {qs : List Instr} {s : State} (m : ℕ) (hs : s.Ok qs) :
    (State.meterAge s m).Ok qs := by
  unfold State.meterAge
  repeat' first
    | with_reducible assumption
    | split
    | with_reducible exact mk_ok (by with_reducible assumption) (by with_reducible rfl)

theorem execMeterBucketAge_ok {qs : List Instr} (meter : ℕ) {s : State} {u : State} (hs : s.Ok qs) (e : execMeterBucketAge meter s = .next u) :
    u.Ok qs := by
  unfold execMeterBucketAge at e; cases e
  repeat' first
    | with_reducible assumption
    | with_reducible apply State.meterAge_ok

theorem State.limSnap_ok {qs : List Instr} {s : State} (kind : ℕ) (ok : Bool) (hs : s.Ok qs) :
    (State.limSnap s kind ok).Ok qs := by
  unfold State.limSnap
  repeat' first
    | with_reducible assumption
    | (intro t; refine (have ht : State.Ok qs t := ?_; ?_); (on_goal 2 => clear_value t); (on_goal 1 => subst t))
    | intro t
    | lift_lets
    | with_reducible apply State.bump_ok
    | with_reducible apply State.poke_ok
    | with_reducible apply State.raise_ok
    | with_reducible exact mk_ok (by with_reducible assumption) (by with_reducible rfl)
    | split

theorem execLimSnapshot_ok {qs : List Instr} (ok : Bool) {s : State} {u : State} (hs : s.Ok qs) (e : execLimSnapshot ok s = .next u) :
    u.Ok qs := by
  unfold execLimSnapshot at e; cases e
  repeat' first
    | with_reducible assumption
    | with_reducible apply State.limSnap_ok
    | with_reducible refine ite_ok ?_ ?_

theorem State.limRestore_ok {qs : List Instr} {s : State} (hs : s.Ok qs) :
    (State.limRestore s).Ok qs := by
  unfold State.limRestore
  repeat' first
    | with_reducible assumption
    | split
    | with_reducible exact mk_ok (by with_reducible assumption) (by with_reducible rfl)

end Sys2Proof.Machine
end

