-- ==== Sys2Proof/Laws/KeepMphy.lean ====
section
/-!
SUPPORT. The operations of Machine/Mphy.lean keep what Laws/Keep.lean says.
-/

set_option linter.all false

namespace Sys2Proof.Machine

theorem State.mphyCnt_ok {qs : List Instr} {s : State} (n : ℕ) (hs : s.Ok qs) :
    (State.mphyCnt s n).Ok qs := by
  unfold State.mphyCnt
  repeat' first
    | with_reducible assumption
    | with_reducible apply State.bump_ok

theorem State.rxFrames_ok {qs : List Instr} {s : State} (hs : s.Ok qs) :
    (State.rxFrames s).Ok qs := by
  unfold State.rxFrames
  repeat' first
    | with_reducible assumption
    | with_reducible apply State.raise_ok
    | with_reducible apply State.set_ok
    | with_reducible refine ite_ok ?_ ?_

theorem State.setLis_ok {qs : List Instr} {s : State} (l : ℕ) (x : Lis) (hs : s.Ok qs) :
    (State.setLis s l x).Ok qs := by
  unfold State.setLis
  repeat' first
    | with_reducible assumption
    | with_reducible exact mk_ok (by with_reducible assumption) (by with_reducible rfl)

theorem State.lisSearch_ok {qs : List Instr} {s : State} (l : ℕ) (hs : s.Ok qs) :
    (State.lisSearch s l).Ok qs := by
  unfold State.lisSearch
  repeat' first
    | with_reducible assumption
    | with_reducible apply State.setLis_ok

theorem State.lisIdle_ok {qs : List Instr} {s : State} (l : ℕ) (hs : s.Ok qs) :
    (State.lisIdle s l).Ok qs := by
  unfold State.lisIdle
  repeat' first
    | with_reducible assumption
    | with_reducible apply State.setLis_ok

theorem State.lisReturn_ok {qs : List Instr} {s : State} (l : ℕ) (hs : s.Ok qs) :
    (State.lisReturn s l).Ok qs := by
  unfold State.lisReturn
  repeat' first
    | with_reducible assumption
    | split
    | with_reducible apply State.lisIdle_ok
    | with_reducible apply State.lisSearch_ok

theorem State.lisTell_ok {qs : List Instr} {s : State} (l : ℕ) (a : Asn) (hs : s.Ok qs) :
    (State.lisTell s l a).Ok qs := by
  unfold State.lisTell
  repeat' first
    | with_reducible assumption
    | with_reducible exact mk_ok (by with_reducible assumption) (by with_reducible rfl)

theorem State.lisBack_ok {qs : List Instr} {s : State} (l : ℕ) (hs : s.Ok qs) :
    (State.lisBack s l).Ok qs := by
  unfold State.lisBack
  repeat' first
    | with_reducible assumption
    | (intro t; refine (have ht : State.Ok qs t := ?_; ?_); (on_goal 2 => clear_value t); (on_goal 1 => subst t))
    | intro t
    | lift_lets
    | with_reducible apply State.lisReturn_ok
    | with_reducible apply State.lisSearch_ok
    | with_reducible apply State.lisTell_ok
    | with_reducible apply State.mphyCnt_ok
    | with_reducible apply State.rxEntry_ok
    | with_reducible apply State.setLis_ok
    | split

theorem State.lisRelease_ok {qs : List Instr} {s : State} (l : ℕ) (hs : s.Ok qs) :
    (State.lisRelease s l).Ok qs := by
  unfold State.lisRelease
  repeat' first
    | with_reducible assumption
    | intro t
    | lift_lets
    | with_reducible apply State.bufRelease_ok
    | with_reducible apply State.setLis_ok
    | with_reducible apply State.unresv_ok
    | split

theorem State.mlcPath1_ok {qs : List Instr} {s : State} (p : ℕ) (hs : s.Ok qs) :
    (State.mlcPath1 s p).Ok qs := by
  unfold State.mlcPath1
  repeat' first
    | with_reducible assumption
    | (intro t; refine (have ht : State.Ok qs t := ?_; ?_); (on_goal 2 => clear_value t); (on_goal 1 => subst t))
    | (intro t; refine (have hf : ∀ a, State.Ok qs a → State.Ok qs (t a) := ?_; ?_); (on_goal 2 => clear_value t); (on_goal 1 => subst t); (on_goal 1 => intro a ha); (on_goal 1 => beta_reduce))
    | with_reducible apply hf
    | intro t
    | lift_lets
    | with_reducible apply State.pathFree_ok
    | with_reducible refine getD_ok ?_ (fun u e => State.pathRx_ok _ _ _ ?_ e)
    | with_reducible exact mk_ok (by with_reducible assumption) (by with_reducible rfl)
    | split

theorem State.mlcPath_ok {qs : List Instr} {s : State} (hs : s.Ok qs) :
    (State.mlcPath s).Ok qs := by
  unfold State.mlcPath
  repeat' first
    | with_reducible assumption
    | with_reducible apply State.mlcPath1_ok

theorem State.giveAsn_ok {qs : List Instr} {s : State} (l : ℕ) (a : Asn) (hs : s.Ok qs) :
    (State.giveAsn s l a).2.Ok qs := by
  unfold State.giveAsn
  repeat' first
    | with_reducible assumption
    | intro t
    | lift_lets
    | with_reducible apply State.lisTell_ok
    | with_reducible apply State.mlcPath_ok
    | with_reducible apply State.mphyCnt_ok
    | with_reducible apply State.raise_ok
    | with_reducible apply State.rxEntry_ok
    | with_reducible apply State.setLis_ok
    | split

theorem State.lisOpen_ok {qs : List Instr} {s : State} (l : ℕ) (hs : s.Ok qs) :
    (State.lisOpen s l).Ok qs := by
  unfold State.lisOpen
  repeat' first
    | with_reducible assumption
    | intro t
    | lift_lets
    | with_reducible apply State.lisSearch_ok
    | split

theorem State.deafen_ok {qs : List Instr} {s : State} (id : ℕ) (hs : s.Ok qs) :
    (State.deafen s id).Ok qs := by
  unfold State.deafen
  repeat' first
    | with_reducible assumption
    | split
    | with_reducible apply State.lisBack_ok
    | with_reducible apply State.lisRelease_ok

theorem State.nfSample_ok {qs : List Instr} {s : State} (l : ℕ) (e : ℤ) (hs : s.Ok qs) :
    (State.nfSample s l e).Ok qs := by
  unfold State.nfSample
  repeat' first
    | with_reducible assumption
    | split
    | with_reducible exact mk_ok (by with_reducible assumption) (by with_reducible rfl)

theorem State.lisEnergy_ok {qs : List Instr} {s : State} (l : ℕ) (e : ℤ) (hs : s.Ok qs) :
    (State.lisEnergy s l e).Ok qs := by
  unfold State.lisEnergy
  repeat' first
    | with_reducible assumption
    | with_reducible apply State.nfSample_ok
    | with_reducible apply State.setLis_ok
    | with_reducible refine ite_ok ?_ ?_

theorem State.lisQualify_ok {qs : List Instr} {s : State} (l : ℕ) (corr : List ℕ) (e0 : ℤ) (e1 : ℤ) (hs : s.Ok qs) :
    (State.lisQualify s l corr e0 e1).Ok qs := by
  unfold State.lisQualify
  repeat' first
    | with_reducible assumption
    | with_reducible apply State.setLis_ok
    | with_reducible refine ite_ok ?_ ?_

theorem State.lisUnqualify_ok {qs : List Instr} {s : State} (l : ℕ) (corr : List ℕ) (e : ℤ) (hs : s.Ok qs) :
    (State.lisUnqualify s l corr e).Ok qs := by
  unfold State.lisUnqualify
  repeat' first
    | with_reducible assumption
    | with_reducible apply State.lisBack_ok
    | with_reducible refine ite_ok ?_ ?_

theorem State.lisSfd_ok {qs : List Instr} {s : State} (l : ℕ) (units : ℕ) (rssi : ℤ) (hs : s.Ok qs) :
    (State.lisSfd s l units rssi).Ok qs := by
  unfold State.lisSfd
  repeat' first
    | with_reducible assumption
    | (intro t; refine (have ht : State.Ok qs t.2 := ?_; ?_); (on_goal 2 => clear_value t); (on_goal 1 => subst t))
    | (intro t; refine (have hf : ∀ a, State.Ok qs a → State.Ok qs (t a) := ?_; ?_); (on_goal 2 => clear_value t); (on_goal 1 => subst t); (on_goal 1 => intro a ha); (on_goal 1 => beta_reduce))
    | with_reducible apply hf
    | intro t
    | lift_lets
    | with_reducible apply State.bufAlloc_ok
    | with_reducible apply State.bufRelease_ok
    | with_reducible apply State.lisBack_ok
    | with_reducible apply State.mphyCnt_ok
    | with_reducible apply State.raise_ok
    | with_reducible refine State.resvSlot_ok _ ?_ (by with_reducible assumption)
    | with_reducible apply State.setLis_ok
    | split

theorem State.lisFalse_ok {qs : List Instr} {s : State} (l : ℕ) (units : ℕ) (hs : s.Ok qs) :
    (State.lisFalse s l units).Ok qs := by
  unfold State.lisFalse
  repeat' first
    | with_reducible assumption
    | with_reducible apply State.lisBack_ok
    | with_reducible apply State.mphyCnt_ok
    | split

theorem State.lisCapture_ok {qs : List Instr} {s : State} (l : ℕ) (corr : List ℕ) (e : ℤ) (e0 : ℤ) (e1 : ℤ) (hs : s.Ok qs) :
    (State.lisCapture s l corr e e0 e1).Ok qs := by
  unfold State.lisCapture
  repeat' first
    | with_reducible assumption
    | with_reducible apply State.lisRelease_ok
    | with_reducible apply State.mphyCnt_ok
    | with_reducible apply State.setLis_ok
    | with_reducible refine ite_ok ?_ ?_

theorem State.lisBlank_ok {qs : List Instr} {s : State} (l : ℕ) (hs : s.Ok qs) :
    (State.lisBlank s l).Ok qs := by
  unfold State.lisBlank
  repeat' first
    | with_reducible assumption
    | with_reducible apply State.lisBack_ok
    | with_reducible apply State.lisRelease_ok
    | with_reducible apply State.mphyCnt_ok
    | with_reducible apply State.raise_ok

theorem State.lisPhr_ok {qs : List Instr} {s : State} (l : ℕ) (h : Phr) (len : ℕ) (fcslen dw : Bool) (hs : s.Ok qs) :
    (State.lisPhr s l h len fcslen dw).Ok qs := by
  unfold State.lisPhr
  repeat' first
    | with_reducible assumption
    | intro t
    | lift_lets
    | with_reducible apply State.lisBack_ok
    | with_reducible apply State.lisBlank_ok
    | with_reducible apply State.lisRelease_ok
    | with_reducible apply State.mphyCnt_ok
    | with_reducible apply State.setLis_ok
    | split

theorem State.pokeHdr_ok {qs : List Instr} {s : State} (h : ℕ) (k : ℕ) (ws : List ℕ) (hs : s.Ok qs) :
    (State.pokeHdr s h k ws).Ok qs := by
  unfold State.pokeHdr
  repeat' first
    | with_reducible assumption
    | with_reducible apply State.pokeN_ok
    | with_reducible refine foldl_ok ?_ (fun t e ht => ?_)

theorem State.pokeData_ok {qs : List Instr} {s : State} (h : ℕ) (ofs : ℕ) (l : List Byte) (hs : s.Ok qs) :
    (State.pokeData s h ofs l).Ok qs := by
  unfold State.pokeData
  repeat' first
    | with_reducible assumption
    | with_reducible apply State.poke_ok

theorem State.eqExport_ok {qs : List Instr} {s : State} (l : ℕ) (m : ℕ) (taps : List ℕ) (hs : s.Ok qs) :
    (State.eqExport s l m taps).Ok qs := by
  unfold State.eqExport
  repeat' first
    | with_reducible assumption
    | with_reducible apply State.dmaWord_ok
    | with_reducible apply State.raise_ok
    | with_reducible apply State.set_ok
    | with_reducible refine foldl_ok ?_ (fun t e ht => ?_)
    | split

theorem State.lisPsdu_ok {qs : List Instr} {s : State} (l : ℕ) (psdu : List Byte) (rep : RxRep) (taps : List ℕ) (hs : s.Ok qs) :
    (State.lisPsdu s l psdu rep taps).Ok qs := by
  unfold State.lisPsdu
  repeat' first
    | with_reducible assumption
    | (intro t; refine (have ht : State.Ok qs t := ?_; ?_); (on_goal 2 => clear_value t); (on_goal 1 => subst t))
    | intro t
    | lift_lets
    | with_reducible apply State.eqExport_ok
    | with_reducible apply State.lisBack_ok
    | with_reducible apply State.lisBlank_ok
    | with_reducible apply State.pokeData_ok
    | with_reducible apply State.pokeHdr_ok
    | with_reducible apply State.rxFrames_ok
    | with_reducible apply State.setLis_ok
    | with_reducible exact mk_ok (by with_reducible assumption) (by with_reducible rfl)
    | split

theorem State.lisClose_ok {qs : List Instr} {s : State} (l : ℕ) (hs : s.Ok qs) :
    (State.lisClose s l).Ok qs := by
  unfold State.lisClose
  repeat' first
    | with_reducible assumption
    | intro t
    | lift_lets
    | with_reducible apply State.lisBack_ok
    | split

theorem State.blank_ok {qs : List Instr} {s : State} (p : ℕ) (hs : s.Ok qs) :
    (State.blank s p).Ok qs := by
  unfold State.blank
  repeat' first
    | with_reducible assumption
    | with_reducible apply State.lisBlank_ok
    | with_reducible refine foldl_ok ?_ (fun t e ht => ?_)

theorem State.lisDrop_ok {qs : List Instr} {s : State} (l : ℕ) (hs : s.Ok qs) :
    (State.lisDrop s l).Ok qs := by
  unfold State.lisDrop
  repeat' first
    | with_reducible assumption
    | with_reducible apply State.lisIdle_ok
    | with_reducible apply State.lisRelease_ok

theorem State.lisPower_ok {qs : List Instr} {s : State} (hs : s.Ok qs) :
    (State.lisPower s).Ok qs := by
  unfold State.lisPower
  repeat' first
    | with_reducible assumption
    | with_reducible apply State.lisDrop_ok
    | with_reducible refine foldl_ok ?_ (fun t e ht => ?_)

theorem State.winApply_ok {qs : List Instr} {s : State} (hs : s.Ok qs) :
    (State.winApply s).Ok qs := by
  unfold State.winApply
  repeat' first
    | with_reducible assumption
    | (intro t; refine (have ht : State.Ok qs t := ?_; ?_); (on_goal 2 => clear_value t); (on_goal 1 => subst t))
    | intro t
    | lift_lets
    | with_reducible apply State.blank_ok
    | with_reducible apply State.raise_ok
    | with_reducible apply State.set_ok
    | with_reducible apply State.setPath_ok
    | with_reducible exact mk_ok (by with_reducible assumption) (by with_reducible rfl)
    | split

theorem State.carrStatus_ok {qs : List Instr} {s : State} (st : ℕ) (hs : s.Ok qs) :
    (State.carrStatus s st).Ok qs := by
  unfold State.carrStatus
  repeat' first
    | with_reducible assumption
    | with_reducible apply State.raiseIf_ok
    | with_reducible exact mk_ok (by with_reducible assumption) (by with_reducible rfl)

theorem State.carrReq_ok {qs : List Instr} {s : State} (c : Carr) (hs : s.Ok qs) :
    (State.carrReq s c).2.Ok qs := by
  unfold State.carrReq
  repeat' first
    | with_reducible assumption
    | (intro t; refine (have ht : State.Ok qs t := ?_; ?_); (on_goal 2 => clear_value t); (on_goal 1 => subst t))
    | (intro t; refine (have ht : State.Ok qs t.2 := ?_; ?_); (on_goal 2 => clear_value t); (on_goal 1 => subst t))
    | intro t
    | lift_lets
    | with_reducible apply State.carrStatus_ok
    | with_reducible apply State.limAdmit_ok
    | with_reducible apply State.mphyCnt_ok
    | with_reducible apply State.raise_ok
    | with_reducible apply State.txAccept_ok
    | with_reducible apply State.txBound_ok
    | with_reducible apply State.txRefuse_ok
    | with_reducible exact mk_ok (by with_reducible assumption) (by with_reducible rfl)
    | split

theorem State.carrShow_ok {qs : List Instr} {s : State} (hs : s.Ok qs) :
    (State.carrShow s).Ok qs := by
  unfold State.carrShow
  repeat' first
    | with_reducible assumption
    | with_reducible apply State.sets_ok

theorem State.carrLaunch_ok {qs : List Instr} {s : State} (id : ℕ) (hs : s.Ok qs) :
    (State.carrLaunch s id).Ok qs := by
  unfold State.carrLaunch
  repeat' first
    | with_reducible assumption
    | split
    | with_reducible apply State.blank_ok
    | with_reducible apply State.carrShow_ok
    | with_reducible apply State.reflAir_ok
    | with_reducible apply State.set_ok
    | with_reducible apply State.setPath_ok
    | with_reducible refine ite_ok ?_ ?_
    | with_reducible exact mk_ok (by with_reducible assumption) (by with_reducible rfl)

theorem State.carrDrop_ok {qs : List Instr} {s : State} (id : ℕ) (hs : s.Ok qs) :
    (State.carrDrop s id).Ok qs := by
  unfold State.carrDrop
  repeat' first
    | with_reducible assumption
    | with_reducible apply State.carrShow_ok
    | with_reducible exact mk_ok (by with_reducible assumption) (by with_reducible rfl)

end Sys2Proof.Machine
end

