-- ==== Sys2Proof/Laws/KeepMnode.lean ====
section
/-!
SUPPORT. The operations of Machine/Mnode.lean keep what Laws/Keep.lean says.
-/

set_option linter.all false

namespace Sys2Proof.Machine

theorem State.mnCnt_ok {qs : List Instr} {s : State} (n : ℕ) (hs : s.Ok qs) :
    (State.mnCnt s n).Ok qs := by
  unfold State.mnCnt
  repeat' first
    | with_reducible assumption
    | with_reducible apply State.bump_ok

theorem State.setMn_ok {qs : List Instr} {s : State} (m : MnodeS) (hs : s.Ok qs) :
    (State.setMn s m).Ok qs := by
  unfold State.setMn
  repeat' first
    | with_reducible assumption
    | with_reducible exact mk_ok (by with_reducible assumption) (by with_reducible rfl)

theorem State.setRecW_ok {qs : List Instr} {s : State} (i : ℕ) (w : ℕ) (v : ℕ) (hs : s.Ok qs) :
    (State.setRecW s i w v).Ok qs := by
  unfold State.setRecW
  repeat' first
    | with_reducible assumption
    | with_reducible apply State.poke_ok

theorem State.setRecF_ok {qs : List Instr} {s : State} (i : ℕ) (w : ℕ) (lo : ℕ) (len : ℕ) (v : ℕ) (hs : s.Ok qs) :
    (State.setRecF s i w lo len v).Ok qs := by
  unfold State.setRecF
  repeat' first
    | with_reducible assumption
    | with_reducible apply State.setRecW_ok

theorem State.setMap_ok {qs : List Instr} {s : State} (t : ℕ) (a : ℕ) (v : ℕ) (hs : s.Ok qs) :
    (State.setMap s t a v).Ok qs := by
  unfold State.setMap
  repeat' first
    | with_reducible assumption
    | with_reducible apply State.pokeN_ok

theorem State.setPfcRec_ok {qs : List Instr} {s : State} (i : ℕ) (c : ℕ) (known : Bool) (hs : s.Ok qs) :
    (State.setPfcRec s i c known).Ok qs := by
  unfold State.setPfcRec
  repeat' first
    | with_reducible assumption
    | with_reducible apply State.setRecF_ok
    | with_reducible apply State.setRecW_ok

theorem State.setShadow_ok {qs : List Instr} {s : State} (i : ℕ) (c : ℕ) (known : Bool) (hs : s.Ok qs) :
    (State.setShadow s i c known).Ok qs := by
  unfold State.setShadow
  repeat' first
    | with_reducible assumption
    | (intro t; refine (have ht : State.Ok qs t := ?_; ?_); (on_goal 2 => clear_value t); (on_goal 1 => subst t))
    | lift_lets
    | with_reducible apply State.pokeN_ok
    | with_reducible exact mk_ok (by with_reducible assumption) (by with_reducible rfl)

theorem State.setPfc_ok {qs : List Instr} {s : State} (i : ℕ) (c : ℕ) (known : Bool) (hs : s.Ok qs) :
    (State.setPfc s i c known).Ok qs := by
  unfold State.setPfc
  repeat' first
    | with_reducible assumption
    | with_reducible apply State.setPfcRec_ok
    | with_reducible apply State.setShadow_ok

theorem State.shadowUp_ok {qs : List Instr} {s : State} (i : ℕ) (c : ℕ) (hs : s.Ok qs) :
    (State.shadowUp s i c).Ok qs := by
  unfold State.shadowUp
  repeat' first
    | with_reducible assumption
    | with_reducible apply State.setShadow_ok
    | split

theorem State.recLose_ok {qs : List Instr} {s : State} (i : ℕ) (hs : s.Ok qs) :
    (State.recLose s i).Ok qs := by
  unfold State.recLose
  repeat' first
    | with_reducible assumption
    | with_reducible apply State.raise_ok
    | with_reducible apply State.set_ok
    | with_reducible apply State.setMap_ok
    | with_reducible apply State.setMn_ok

theorem State.recCache_ok {qs : List Instr} {s : State} (i : ℕ) (hs : s.Ok qs) :
    (State.recCache s i).Ok qs := by
  unfold State.recCache
  repeat' first
    | with_reducible assumption
    | with_reducible apply State.setMn_ok

theorem State.recLoad_ok {qs : List Instr} {s : State} (i : ℕ) (hs : s.Ok qs) :
    (State.recLoad s i).Ok qs := by
  unfold State.recLoad
  repeat' first
    | with_reducible assumption
    | with_reducible apply State.mnCnt_ok
    | with_reducible apply State.poke_ok
    | with_reducible apply State.raise_ok
    | with_reducible apply State.recCache_ok
    | with_reducible apply State.recLose_ok
    | with_reducible apply State.ueHit_ok
    | split

theorem State.recFresh_ok {qs : List Instr} {s : State} (i : ℕ) (ws : List ℕ) (hs : s.Ok qs) :
    (State.recFresh s i ws).Ok qs := by
  unfold State.recFresh
  repeat' first
    | with_reducible assumption
    | with_reducible apply State.poke_ok
    | with_reducible apply State.recCache_ok
    | with_reducible apply State.setMn_ok

theorem State.recSalvage_ok {qs : List Instr} {s : State} (i : ℕ) (hs : s.Ok qs) :
    (State.recSalvage s i).Ok qs := by
  unfold State.recSalvage
  repeat' first
    | with_reducible assumption
    | with_reducible apply State.recFresh_ok
    | with_reducible exact mk_ok (by with_reducible assumption) (by with_reducible rfl)

theorem State.setNodeQ_ok {qs : List Instr} {s : State} (i : ℕ) (l : List QEnt) (hs : s.Ok qs) :
    (State.setNodeQ s i l).Ok qs := by
  unfold State.setNodeQ
  repeat' first
    | with_reducible assumption
    | (intro t; refine (have ht : State.Ok qs t := ?_; ?_); (on_goal 2 => clear_value t); (on_goal 1 => subst t))
    | intro t
    | lift_lets
    | with_reducible apply State.recLoad_ok
    | with_reducible apply State.setMn_ok
    | with_reducible apply State.setRecF_ok
    | with_reducible exact mk_ok (by with_reducible assumption) (by with_reducible rfl)

theorem State.setSharedQ_ok {qs : List Instr} {s : State} (t : ℕ) (l : List QEnt) (hs : s.Ok qs) :
    (State.setSharedQ s t l).Ok qs := by
  unfold State.setSharedQ
  repeat' first
    | with_reducible assumption
    | with_reducible apply State.setMn_ok

theorem State.mnFull_ok {qs : List Instr} {s : State} (o : Out) (miss : Bool) (hs : s.Ok qs) :
    (State.mnFull s o miss).Ok qs := by
  unfold State.mnFull
  repeat' first
    | with_reducible assumption
    | with_reducible apply State.mnCnt_ok
    | with_reducible apply State.outDone_ok
    | with_reducible apply State.raise_ok

theorem State.mnEnqueue_ok {qs : List Instr} {s : State} (o : Out) (miss : Bool) (hs : s.Ok qs) :
    (State.mnEnqueue s o miss).Ok qs := by
  unfold State.mnEnqueue
  repeat' first
    | with_reducible assumption
    | with_reducible apply State.mnFull_ok
    | with_reducible apply State.outDone_ok
    | with_reducible apply State.recLoad_ok
    | with_reducible apply State.setNodeQ_ok
    | with_reducible apply State.setSharedQ_ok
    | with_reducible refine ite_ok ?_ ?_

theorem State.tryForget_ok {qs : List Instr} {s : State} (h : ℕ) (hs : s.Ok qs) :
    (State.tryForget s h).Ok qs := by
  unfold State.tryForget
  repeat' first
    | with_reducible assumption
    | with_reducible exact mk_ok (by with_reducible assumption) (by with_reducible rfl)

theorem State.qDrop_ok {qs : List Instr} {s : State} (h : ℕ) (hs : s.Ok qs) :
    (State.qDrop s h).Ok qs := by
  unfold State.qDrop
  repeat' first
    | with_reducible assumption
    | with_reducible apply State.setNodeQ_ok
    | with_reducible apply State.setSharedQ_ok
    | with_reducible apply State.tryForget_ok
    | with_reducible refine foldl_ok ?_ (fun t e ht => ?_)
    | split

theorem State.qEnd_ok {qs : List Instr} {s : State} (h : ℕ) (status : ℕ) (stamp : Option ℕ) (hs : s.Ok qs) :
    (State.qEnd s h status stamp).Ok qs := by
  unfold State.qEnd
  repeat' first
    | with_reducible assumption
    | split
    | with_reducible apply State.outDone_ok
    | with_reducible apply State.qDrop_ok

theorem State.qMod_ok {qs : List Instr} {s : State} (h : ℕ) (f : QEnt → QEnt) (hs : s.Ok qs) :
    (State.qMod s h f).Ok qs := by
  unfold State.qMod
  repeat' first
    | with_reducible assumption
    | with_reducible apply State.setMn_ok

theorem State.promote_ok {qs : List Instr} {s : State} (i : ℕ) (hs : s.Ok qs) :
    (State.promote s i).Ok qs := by
  unfold State.promote
  repeat' first
    | with_reducible assumption
    | with_reducible apply State.setNodeQ_ok
    | with_reducible apply State.setSharedQ_ok
    | with_reducible refine ite_ok ?_ ?_
    | split

theorem State.qFlush_ok {qs : List Instr} {s : State} (i : ℕ) (hs : s.Ok qs) :
    (State.qFlush s i).Ok qs := by
  unfold State.qFlush
  repeat' first
    | with_reducible assumption
    | with_reducible apply State.mnCnt_ok
    | with_reducible apply State.qEnd_ok
    | with_reducible refine foldl_ok ?_ (fun t e ht => ?_)

theorem State.qExpire_ok {qs : List Instr} {s : State} (h : ℕ) (hs : s.Ok qs) :
    (State.qExpire s h).Ok qs := by
  unfold State.qExpire
  repeat' first
    | with_reducible assumption
    | split
    | with_reducible apply State.mnCnt_ok
    | with_reducible apply State.qEnd_ok
    | with_reducible refine ite_ok ?_ ?_

theorem execDownlinkExpire_ok {qs : List Instr} (handle : ℕ) {s : State} {u : State} (hs : s.Ok qs) (e : execDownlinkExpire handle s = .next u) :
    u.Ok qs := by
  unfold execDownlinkExpire at e; cases e
  repeat' first
    | with_reducible assumption
    | with_reducible apply State.qExpire_ok

theorem State.mnDone_ok {qs : List Instr} {s : State} (result : ℕ) (hs : s.Ok qs) :
    (State.mnDone s result).Ok qs := by
  unfold State.mnDone
  repeat' first
    | with_reducible assumption
    | with_reducible apply State.raise_ok
    | with_reducible apply State.set_ok
    | with_reducible apply State.setMn_ok

theorem State.mnShow_ok {qs : List Instr} {s : State} (i : ℕ) (hs : s.Ok qs) :
    (State.mnShow s i).Ok qs := by
  unfold State.mnShow
  repeat' first
    | with_reducible assumption
    | with_reducible apply State.sets_ok

theorem State.mnRun_ok {qs : List Instr} {s : State} (op : ℕ) (f : State → List ℕ → State) (hs : s.Ok qs) (hf : ∀ a0 a1, a0.Ok qs → (f a0 a1).Ok qs) :
    (State.mnRun s op f).Ok qs := by
  unfold State.mnRun
  repeat' first
    | with_reducible assumption
    | with_reducible apply hf
    | split

theorem State.mnGo_ok {qs : List Instr} {s : State} (rq : Rq) (hs : s.Ok qs) :
    (State.mnGo s rq).Ok qs := by
  unfold State.mnGo
  repeat' first
    | with_reducible assumption
    | with_reducible apply State.errRec_ok
    | with_reducible apply State.mnDone_ok
    | with_reducible apply State.set_ok
    | with_reducible apply State.setMn_ok
    | with_reducible refine ite_ok ?_ ?_

theorem State.mnAlloc_ok {qs : List Instr} {s : State} (args : List ℕ) (hs : s.Ok qs) :
    (State.mnAlloc s args).Ok qs := by
  unfold State.mnAlloc
  repeat' first
    | with_reducible assumption
    | (intro t; refine (have ht : State.Ok qs t := ?_; ?_); (on_goal 2 => clear_value t); (on_goal 1 => subst t))
    | (intro t; refine (have ht : State.Ok qs t.2 := ?_; ?_); (on_goal 2 => clear_value t); (on_goal 1 => subst t))
    | (intro t; clear_value t)
    | lift_lets
    | with_reducible apply State.mnDone_ok
    | with_reducible apply State.mnShow_ok
    | with_reducible apply State.pick_ok
    | with_reducible apply State.recFresh_ok
    | with_reducible apply State.recLoad_ok
    | with_reducible apply State.setMap_ok
    | with_reducible apply State.setMn_ok
    | with_reducible apply State.setPfc_ok
    | with_reducible apply State.setRecF_ok
    | with_reducible apply State.setRecW_ok
    | split

theorem execAlloc_ok {qs : List Instr} {s : State} {u : State} (hs : s.Ok qs) (e : execAlloc s = .next u) :
    u.Ok qs := by
  unfold execAlloc at e; cases e
  repeat' first
    | with_reducible assumption
    | with_reducible apply State.mnAlloc_ok
    | with_reducible apply State.mnRun_ok

theorem State.mnRelease_ok {qs : List Instr} {s : State} (args : List ℕ) (hs : s.Ok qs) :
    (State.mnRelease s args).Ok qs := by
  unfold State.mnRelease
  repeat' first
    | with_reducible assumption
    | with_reducible apply State.mnDone_ok
    | with_reducible apply State.mnShow_ok
    | with_reducible apply State.qFlush_ok
    | with_reducible apply State.recLoad_ok
    | with_reducible apply State.recSalvage_ok
    | with_reducible apply State.setMap_ok
    | with_reducible apply State.setRecF_ok
    | with_reducible apply State.setRecW_ok
    | with_reducible refine ite_ok ?_ ?_

theorem execRelease_ok {qs : List Instr} {s : State} {u : State} (hs : s.Ok qs) (e : execRelease s = .next u) :
    u.Ok qs := by
  unfold execRelease at e; cases e
  repeat' first
    | with_reducible assumption
    | with_reducible apply State.mnRelease_ok
    | with_reducible apply State.mnRun_ok

theorem State.mnRead_ok {qs : List Instr} {s : State} (args : List ℕ) (hs : s.Ok qs) :
    (State.mnRead s args).Ok qs := by
  unfold State.mnRead
  repeat' first
    | with_reducible assumption
    | with_reducible apply State.mnDone_ok
    | with_reducible apply State.mnShow_ok
    | with_reducible apply State.recLoad_ok
    | with_reducible apply State.set_ok
    | with_reducible refine foldl_ok ?_ (fun t e ht => ?_)

theorem execRead_ok {qs : List Instr} {s : State} {u : State} (hs : s.Ok qs) (e : execRead s = .next u) :
    u.Ok qs := by
  unfold execRead at e; cases e
  repeat' first
    | with_reducible assumption
    | with_reducible apply State.mnRead_ok
    | with_reducible apply State.mnRun_ok

theorem State.mnSetkey_ok {qs : List Instr} {s : State} (args : List ℕ) (hs : s.Ok qs) :
    (State.mnSetkey s args).Ok qs := by
  unfold State.mnSetkey
  repeat' first
    | with_reducible assumption
    | with_reducible apply State.mnDone_ok
    | with_reducible apply State.mnShow_ok
    | with_reducible apply State.recLoad_ok
    | with_reducible apply State.setMap_ok
    | with_reducible apply State.setPfc_ok
    | with_reducible apply State.setRecF_ok
    | with_reducible refine ite_ok ?_ ?_

theorem execSetkey_ok {qs : List Instr} {s : State} {u : State} (hs : s.Ok qs) (e : execSetkey s = .next u) :
    u.Ok qs := by
  unfold execSetkey at e; cases e
  repeat' first
    | with_reducible assumption
    | with_reducible apply State.mnRun_ok
    | with_reducible apply State.mnSetkey_ok

theorem State.mnFindext_ok {qs : List Instr} {s : State} (args : List ℕ) (hs : s.Ok qs) :
    (State.mnFindext s args).Ok qs := by
  unfold State.mnFindext
  repeat' first
    | with_reducible assumption
    | split
    | with_reducible apply State.mnDone_ok
    | with_reducible apply State.mnShow_ok
    | with_reducible apply State.recLoad_ok

theorem execFindext_ok {qs : List Instr} {s : State} {u : State} (hs : s.Ok qs) (e : execFindext s = .next u) :
    u.Ok qs := by
  unfold execFindext at e; cases e
  repeat' first
    | with_reducible assumption
    | with_reducible apply State.mnFindext_ok
    | with_reducible apply State.mnRun_ok

theorem State.mnFindshort_ok {qs : List Instr} {s : State} (args : List ℕ) (hs : s.Ok qs) :
    (State.mnFindshort s args).Ok qs := by
  unfold State.mnFindshort
  repeat' first
    | with_reducible assumption
    | with_reducible apply State.mnDone_ok
    | with_reducible apply State.mnShow_ok
    | with_reducible apply State.recLoad_ok
    | with_reducible refine ite_ok ?_ ?_

theorem execFindshort_ok {qs : List Instr} {s : State} {u : State} (hs : s.Ok qs) (e : execFindshort s = .next u) :
    u.Ok qs := by
  unfold execFindshort at e; cases e
  repeat' first
    | with_reducible assumption
    | with_reducible apply State.mnFindshort_ok
    | with_reducible apply State.mnRun_ok

theorem State.mnFlushq_ok {qs : List Instr} {s : State} (args : List ℕ) (hs : s.Ok qs) :
    (State.mnFlushq s args).Ok qs := by
  unfold State.mnFlushq
  repeat' first
    | with_reducible assumption
    | with_reducible apply State.mnDone_ok
    | with_reducible apply State.mnShow_ok
    | with_reducible apply State.qFlush_ok
    | with_reducible apply State.recLoad_ok

theorem execFlushq_ok {qs : List Instr} {s : State} {u : State} (hs : s.Ok qs) (e : execFlushq s = .next u) :
    u.Ok qs := by
  unfold execFlushq at e; cases e
  repeat' first
    | with_reducible assumption
    | with_reducible apply State.mnFlushq_ok
    | with_reducible apply State.mnRun_ok

theorem State.mnSetsw_ok {qs : List Instr} {s : State} (args : List ℕ) (hs : s.Ok qs) :
    (State.mnSetsw s args).Ok qs := by
  unfold State.mnSetsw
  repeat' first
    | with_reducible assumption
    | with_reducible apply State.mnDone_ok
    | with_reducible apply State.mnShow_ok
    | with_reducible apply State.recLoad_ok
    | with_reducible apply State.setRecW_ok

theorem execSetsw_ok {qs : List Instr} {s : State} {u : State} (hs : s.Ok qs) (e : execSetsw s = .next u) :
    u.Ok qs := by
  unfold execSetsw at e; cases e
  repeat' first
    | with_reducible assumption
    | with_reducible apply State.mnRun_ok
    | with_reducible apply State.mnSetsw_ok

theorem State.mnHoldoff_ok {qs : List Instr} {s : State} (i : ℕ) (hs : s.Ok qs) :
    (State.mnHoldoff s i).Ok qs := by
  unfold State.mnHoldoff
  repeat' first
    | with_reducible assumption
    | with_reducible apply State.recLoad_ok
    | with_reducible apply State.setMap_ok
    | with_reducible apply State.setMn_ok
    | with_reducible apply State.setRecF_ok
    | with_reducible refine ite_ok ?_ ?_

theorem execHoldoffExpire_ok {qs : List Instr} (i : ℕ) {s : State} {u : State} (hs : s.Ok qs) (e : execHoldoffExpire i s = .next u) :
    u.Ok qs := by
  unfold execHoldoffExpire at e; cases e
  repeat' first
    | with_reducible assumption
    | with_reducible apply State.mnHoldoff_ok

theorem State.driftN_ok {qs : List Instr} {s : State} (i : ℕ) (hs : s.Ok qs) :
    (State.driftN s i).Ok qs := by
  unfold State.driftN
  repeat' first
    | with_reducible assumption
    | with_reducible apply State.raiseIf_ok
    | with_reducible apply State.setRecF_ok
    | with_reducible refine ite_ok ?_ ?_

theorem State.anchor_ok {qs : List Instr} {s : State} (i : ℕ) (a : Attr) (hs : s.Ok qs) :
    (State.anchor s i a).Ok qs := by
  unfold State.anchor
  repeat' first
    | with_reducible assumption
    | with_reducible apply State.setRecW_ok

theorem State.driftSample_ok {qs : List Instr} {s : State} (i : ℕ) (verdict : ℕ) (a : Attr) (hs : s.Ok qs) :
    (State.driftSample s i verdict a).Ok qs := by
  unfold State.driftSample
  repeat' first
    | with_reducible assumption
    | with_reducible apply State.anchor_ok
    | with_reducible apply State.driftN_ok
    | with_reducible apply State.mnCnt_ok
    | with_reducible apply State.raise_ok
    | with_reducible apply State.setMn_ok
    | with_reducible apply State.setRecF_ok
    | with_reducible apply State.setRecW_ok
    | with_reducible refine ite_ok ?_ ?_

theorem State.driftFirst_ok {qs : List Instr} {s : State} (i : ℕ) (a : Attr) (hs : s.Ok qs) :
    (State.driftFirst s i a).Ok qs := by
  unfold State.driftFirst
  repeat' first
    | with_reducible assumption
    | with_reducible apply State.setRecF_ok
    | split

theorem State.judge_ok {qs : List Instr} {s : State} (i : ℕ) (m : Mac154) (a : Attr) (hs : s.Ok qs) :
    (State.judge s i m a).2.Ok qs := by
  unfold State.judge
  repeat' first
    | with_reducible assumption
    | (intro t; refine (have ht : State.Ok qs t := ?_; ?_); (on_goal 2 => clear_value t); (on_goal 1 => subst t))
    | (intro t; clear_value t)
    | split
    | lift_lets
    | with_reducible apply State.raise_ok
    | with_reducible apply State.setPfcRec_ok
    | with_reducible apply State.setRecF_ok
    | with_reducible apply State.setRecW_ok
    | with_reducible apply State.shadowUp_ok

theorem State.attribute_ok {qs : List Instr} {s : State} (a : Attr) (hs : s.Ok qs) : (State.attribute s a).Ok qs := by
  unfold State.attribute
  extract_lets m src s0 s1 f t v give i p t2 t3 src' t4
  have h0 : s0.Ok qs := State.setMn_ok _ hs
  have h1 : s1.Ok qs := by
    dsimp only [s1]
    split
    · exact State.recLoad_ok _ h0
    · exact h0
  have ht : t.Ok qs := ite_ok (State.recLoad_ok _ h1) h1
  have hg : ∀ (t : State) (i v : Nat) (snap : List Byte), t.Ok qs → (give t i v snap).Ok qs :=
    fun t i v snap h => State.couple_ok _ _ _ _ _ (State.mnCnt_ok _ h)
  have h3 : t3.Ok qs := State.driftFirst_ok i a (State.setRecF_ok i 14 0 16 (unsgn 16 a.rssi) (State.setRecF_ok i 13 0 20 (unsgn 20 a.fofs) (State.judge_ok f.1 m a ht)))
  have h4 : t4.Ok qs := ite_ok (State.driftSample_ok _ _ _ h3) (ite_ok (State.setMn_ok _ h3) h3)
  exact ite_ok (hg _ _ _ _ ht) (hg _ _ _ _ h4)

theorem execFrameAttribute_ok {qs : List Instr} {s : State} {u : State} (hs : s.Ok qs) (e : execFrameAttribute s = .next u) :
    u.Ok qs := by
  unfold execFrameAttribute at e; cases e
  repeat' first
    | with_reducible assumption
    | split
    | with_reducible apply State.attribute_ok

theorem State.rebuildAll_ok {qs : List Instr} {s : State} (hs : s.Ok qs) :
    (State.rebuildAll s).Ok qs := by
  unfold State.rebuildAll
  repeat' first
    | with_reducible assumption
    | (intro t; refine (have ht : State.Ok qs t := ?_; ?_); (on_goal 2 => clear_value t); (on_goal 1 => subst t))
    | intro t
    | lift_lets
    | with_reducible apply State.setMap_ok
    | with_reducible apply State.setMn_ok
    | with_reducible apply State.setPfc_ok
    | with_reducible refine ite_ok ?_ ?_
    | with_reducible refine foldl_ok ?_ (fun t e ht => ?_)
    | with_reducible exact mk_ok (by with_reducible assumption) (by with_reducible rfl)
    | with_reducible exact mkdrop_ok (by with_reducible assumption) (by with_reducible rfl)

theorem State.rebStart_ok {qs : List Instr} {s : State} (rq : Rq) (m : ℕ) (hs : s.Ok qs) :
    (State.rebStart s rq m).Ok qs := by
  unfold State.rebStart
  repeat' first
    | with_reducible assumption
    | with_reducible apply State.opFail_ok
    | with_reducible apply State.opStart_ok
    | with_reducible apply State.qEnd_ok
    | with_reducible refine ite_ok ?_ ?_
    | with_reducible refine foldl_ok ?_ (fun t e ht => ?_)

theorem State.rebUnit_ok {qs : List Instr} {s : State} (hs : s.Ok qs) :
    (State.rebUnit s).Ok qs := by
  unfold State.rebUnit
  repeat' first
    | with_reducible assumption
    | with_reducible apply State.opDone_ok
    | with_reducible apply State.opFail_ok
    | with_reducible apply State.opUnits_ok
    | with_reducible apply State.poke_ok
    | with_reducible apply State.rebuildAll_ok
    | with_reducible apply State.setRecW_ok
    | with_reducible apply State.ueHit_ok
    | with_reducible refine ite_ok ?_ ?_
    | with_reducible refine foldl_ok ?_ (fun t e ht => ?_)

theorem execRebuildCopy0_ok {qs : List Instr} (rq : Rq) {s : State} {u : State} (hs : s.Ok qs) (e : execRebuildCopy0 rq s = .next u) :
    u.Ok qs := by
  unfold execRebuildCopy0 at e; cases e
  repeat' first
    | with_reducible assumption
    | with_reducible apply State.rebStart_ok

theorem execRebuildCopy1_ok {qs : List Instr} (rq : Rq) {s : State} {u : State} (hs : s.Ok qs) (e : execRebuildCopy1 rq s = .next u) :
    u.Ok qs := by
  unfold execRebuildCopy1 at e; cases e
  repeat' first
    | with_reducible assumption
    | with_reducible apply State.rebStart_ok

theorem execRebuildRestore_ok {qs : List Instr} (rq : Rq) {s : State} {u : State} (hs : s.Ok qs) (e : execRebuildRestore rq s = .next u) :
    u.Ok qs := by
  unfold execRebuildRestore at e; cases e
  repeat' first
    | with_reducible assumption
    | with_reducible apply State.rebStart_ok

end Sys2Proof.Machine
end

