-- ==== Sys2Proof/Laws/KeepChan.lean ====
section
/-!
SUPPORT. The operations of Machine/Chan.lean keep what Laws/Keep.lean says.
-/

set_option linter.all false

namespace Sys2Proof.Machine

theorem State.setWl_ok {qs : List Instr} {s : State} (w : WlanS) (hs : s.Ok qs) :
    (State.setWl s w).Ok qs := by
  unfold State.setWl
  repeat' first
    | with_reducible assumption
    | with_reducible exact mk_ok (by with_reducible assumption) (by with_reducible rfl)

theorem State.setWmac_ok {qs : List Instr} {s : State} (r : ℕ) (x : WMac) (hs : s.Ok qs) :
    (State.setWmac s r x).Ok qs := by
  unfold State.setWmac
  repeat' first
    | with_reducible assumption
    | with_reducible apply State.setWl_ok

theorem State.medBusy_ok {qs : List Instr} {s : State} (r : ℕ) (b : ℕ) (hs : s.Ok qs) :
    (State.medBusy s r b).Ok qs := by
  unfold State.medBusy
  repeat' first
    | with_reducible assumption
    | with_reducible apply State.setWmac_ok

theorem State.quietPast_ok {qs : List Instr} {s : State} (hs : s.Ok qs) :
    (State.quietPast s).Ok qs := by
  unfold State.quietPast
  repeat' first
    | with_reducible assumption
    | with_reducible apply State.setWmac_ok
    | with_reducible refine ite_ok ?_ ?_

end Sys2Proof.Machine
end

