-- ==== Sys2Proof/Laws/KeepMlc.lean ====
section
/-!
SUPPORT. The operations of Machine/Mlc.lean keep what Laws/Keep.lean says.
-/

set_option linter.all false

namespace Sys2Proof.Machine

theorem State.mlcCnt_ok {qs : List Instr} {s : State} (n : ℕ) (hs : s.Ok qs) :
    (State.mlcCnt s n).Ok qs := by
  unfold State.mlcCnt
  repeat' first
    | with_reducible assumption
    | with_reducible apply State.bump_ok

theorem State.setMlc_ok {qs : List Instr} {s : State} (m : MlcS) (hs : s.Ok qs) :
    (State.setMlc s m).Ok qs := by
  unfold State.setMlc
  repeat' first
    | with_reducible assumption
    | with_reducible exact mk_ok (by with_reducible assumption) (by with_reducible rfl)

theorem State.setTile_ok {qs : List Instr} {s : State} (t : ℕ) (x : TileS) (hs : s.Ok qs) :
    (State.setTile s t x).Ok qs := by
  unfold State.setTile
  repeat' first
    | with_reducible assumption
    | with_reducible apply State.setMlc_ok

theorem State.bankRead_ok {qs : List Instr} {s : State} (t : ℕ) (f : ℕ) (b : ℕ) (hs : s.Ok qs) :
    (State.bankRead s t f b).Ok qs := by
  unfold State.bankRead
  repeat' first
    | with_reducible assumption
    | with_reducible apply State.ueHit_ok
    | with_reducible refine ite_ok ?_ ?_

theorem State.mlcGive_ok {qs : List Instr} {s : State} (l : ℕ) (a : Asn) (hs : s.Ok qs) :
    (State.mlcGive s l a).2.Ok qs := by
  unfold State.mlcGive
  repeat' first
    | with_reducible assumption
    | with_reducible apply State.giveAsn_ok
    | with_reducible apply State.setMlc_ok
    | split

theorem State.mlcFeed_ok {qs : List Instr} {s : State} (l : ℕ) (hs : s.Ok qs) :
    (State.mlcFeed s l).Ok qs := by
  unfold State.mlcFeed
  repeat' first
    | with_reducible assumption
    | with_reducible apply State.giveAsn_ok
    | with_reducible apply State.setMlc_ok
    | with_reducible refine ite_ok ?_ ?_
    | split

theorem State.csmaOk_ok {qs : List Instr} {s : State} (t : ℕ) (hs : s.Ok qs) :
    (State.csmaOk s t).Ok qs := by
  unfold State.csmaOk
  repeat' first
    | with_reducible assumption
    | with_reducible apply State.setTile_ok

theorem State.csmaFail_ok {qs : List Instr} {s : State} (t : ℕ) (hs : s.Ok qs) :
    (State.csmaFail s t).Ok qs := by
  unfold State.csmaFail
  repeat' first
    | with_reducible assumption
    | with_reducible apply State.setTile_ok

theorem State.frameFail_ok {qs : List Instr} {s : State} (t : ℕ) (what : ℕ) (h : ℕ) (hs : s.Ok qs) :
    (State.frameFail s t what h).Ok qs := by
  unfold State.frameFail
  repeat' first
    | with_reducible assumption
    | split
    | with_reducible apply State.csmaFail_ok
    | with_reducible apply State.csmaOk_ok
    | with_reducible apply State.mlcCnt_ok
    | with_reducible apply State.qEnd_ok
    | with_reducible apply State.qMod_ok
    | with_reducible apply State.raise_ok

theorem State.tryDrop_ok {qs : List Instr} {s : State} (id : ℕ) (hs : s.Ok qs) :
    (State.tryDrop s id).Ok qs := by
  unfold State.tryDrop
  repeat' first
    | with_reducible assumption
    | with_reducible apply State.setMlc_ok

theorem State.tryOk_ok {qs : List Instr} {s : State} (r : Try) (hs : s.Ok qs) :
    (State.tryOk s r).Ok qs := by
  unfold State.tryOk
  repeat' first
    | with_reducible assumption
    | with_reducible apply State.csmaOk_ok
    | with_reducible apply State.qEnd_ok
    | with_reducible apply State.tryDrop_ok
    | split

theorem State.tryFail_ok {qs : List Instr} {s : State} (r : Try) (noAck : Bool) (hs : s.Ok qs) :
    (State.tryFail s r noAck).Ok qs := by
  unfold State.tryFail
  repeat' first
    | with_reducible assumption
    | with_reducible apply State.frameFail_ok
    | with_reducible apply State.mlcCnt_ok
    | with_reducible apply State.tryDrop_ok
    | split

theorem State.tryRefused_ok {qs : List Instr} {s : State} (r : Try) (status : ℕ) (hs : s.Ok qs) :
    (State.tryRefused s r status).Ok qs := by
  unfold State.tryRefused
  repeat' first
    | with_reducible assumption
    | with_reducible apply State.mlcCnt_ok
    | with_reducible apply State.qEnd_ok
    | with_reducible apply State.tryDrop_ok
    | split

theorem State.mlcTold_ok {qs : List Instr} {s : State} (hs : s.Ok qs) :
    (State.mlcTold s).Ok qs := by
  unfold State.mlcTold
  repeat' first
    | with_reducible assumption
    | with_reducible apply State.tryFail_ok
    | with_reducible refine foldl_ok ?_ (fun t e ht => ?_)
    | with_reducible exact mk_ok (by with_reducible assumption) (by with_reducible rfl)

theorem State.lbt_ok {qs : List Instr} {s : State} (t : ℕ) (f : ℕ) (e : Option ℤ) (ack : Bool) (hs : s.Ok qs) :
    (State.lbt s t f e ack).2.Ok qs := by
  unfold State.lbt
  repeat' first
    | with_reducible assumption
    | split
    | with_reducible apply State.mlcCnt_ok

theorem State.carrId_ok {qs : List Instr} {s : State} (hs : s.Ok qs) :
    (State.carrId s).2.Ok qs := by
  unfold State.carrId
  repeat' first
    | with_reducible assumption
    | with_reducible apply State.setMlc_ok

theorem State.meshSend_ok {qs : List Instr} {s : State} (port : ℕ) (freq : ℕ) (mode : ℕ) (at' : ℕ) (cls : ℕ) (four : Bool) (psdu : List Byte) (r : ℕ → ℕ → Try) (hs : s.Ok qs) :
    (State.meshSend s port freq mode at' cls four psdu r).2.Ok qs := by
  unfold State.meshSend
  repeat' first
    | with_reducible assumption
    | (intro t; refine (have ht : State.Ok qs t.2 := ?_; ?_); (on_goal 2 => clear_value t); (on_goal 1 => subst t))
    | intro t
    | lift_lets
    | with_reducible apply State.carrId_ok
    | with_reducible apply State.carrReq_ok
    | with_reducible apply State.fresh_ok
    | with_reducible apply State.setMlc_ok
    | split

theorem State.asnUndo_ok {qs : List Instr} {s : State} (l : ℕ) (id : ℕ) (hs : s.Ok qs) :
    (State.asnUndo s l id).Ok qs := by
  unfold State.asnUndo
  repeat' first
    | with_reducible assumption
    | with_reducible apply State.lisIdle_ok
    | with_reducible apply State.setLis_ok
    | with_reducible apply State.setMlc_ok
    | with_reducible refine ite_ok ?_ ?_

theorem State.attempt_ok {qs : List Instr} {s : State} (t : ℕ) (k : ℕ) (what : ℕ) (q' : Square) (e : QEnt) (busy : Bool) (lbt : Option ℤ) (hs : s.Ok qs) :
    (State.attempt s t k what q' e busy lbt).Ok qs := by
  unfold State.attempt
  repeat' first
    | with_reducible assumption
    | with_reducible apply State.asnUndo_ok
    | with_reducible apply State.frameFail_ok
    | with_reducible apply State.lbt_ok
    | with_reducible apply State.meshSend_ok
    | with_reducible apply State.mlcCnt_ok
    | with_reducible apply State.mlcGive_ok
    | with_reducible apply State.mlcTold_ok
    | with_reducible apply State.tryRefused_ok
    | with_reducible refine ite_ok ?_ ?_
    | split

theorem State.takePlan_ok {qs : List Instr} {s : State} (t : ℕ) (square : ℕ) (hs : s.Ok qs) :
    (State.takePlan s t square).2.Ok qs := by
  unfold State.takePlan
  repeat' first
    | with_reducible assumption
    | split
    | with_reducible apply State.setMlc_ok

theorem State.txSq_ok {qs : List Instr} {s : State} (t : ℕ) (square : ℕ) (lbt : Option ℤ) (hs : s.Ok qs) :
    (State.txSq s t square lbt).Ok qs := by
  unfold State.txSq
  repeat' first
    | with_reducible assumption
    | (intro t; refine (have ht : State.Ok qs t.2 := ?_; ?_); (on_goal 2 => clear_value t); (on_goal 1 => subst t))
    | (intro t; clear_value t)
    | lift_lets
    | with_reducible apply State.attempt_ok
    | with_reducible apply State.takePlan_ok
    | split

theorem execTxSquare_ok {qs : List Instr} (t : ℕ) (square : ℕ) (lbt : Option ℤ) {s : State} {u : State} (hs : s.Ok qs) (e : execTxSquare t square lbt s = .next u) :
    u.Ok qs := by
  unfold execTxSquare at e; cases e
  repeat' first
    | with_reducible assumption
    | with_reducible apply State.mlcPath_ok
    | with_reducible apply State.txSq_ok

theorem State.shSq_ok {qs : List Instr} {s : State} (t : ℕ) (square : ℕ) (cca : Option ℤ) (lbt : Option ℤ) (hs : s.Ok qs) :
    (State.shSq s t square cca lbt).Ok qs := by
  unfold State.shSq
  repeat' first
    | with_reducible assumption
    | (intro t; refine (have ht : State.Ok qs t.2 := ?_; ?_); (on_goal 2 => clear_value t); (on_goal 1 => subst t))
    | lift_lets
    | with_reducible apply State.attempt_ok
    | with_reducible apply State.setTile_ok
    | with_reducible apply State.takePlan_ok
    | with_reducible refine ite_ok ?_ ?_
    | split

theorem execSharedSquare_ok {qs : List Instr} (t : ℕ) (square : ℕ) (cca : Option ℤ) (lbt : Option ℤ) {s : State} {u : State} (hs : s.Ok qs) (e : execSharedSquare t square cca lbt s = .next u) :
    u.Ok qs := by
  unfold execSharedSquare at e; cases e
  repeat' first
    | with_reducible assumption
    | with_reducible apply State.mlcPath_ok
    | with_reducible apply State.shSq_ok

theorem State.bcnSq_ok {qs : List Instr} {s : State} (t : ℕ) (square : ℕ) (lbt : Option ℤ) (hs : s.Ok qs) :
    (State.bcnSq s t square lbt).Ok qs := by
  unfold State.bcnSq
  repeat' first
    | with_reducible assumption
    | (intro t; refine (have ht : State.Ok qs t := ?_; ?_); (on_goal 2 => clear_value t); (on_goal 1 => subst t))
    | (intro t; refine (have ht : State.Ok qs t.2 := ?_; ?_); (on_goal 2 => clear_value t); (on_goal 1 => subst t))
    | lift_lets
    | with_reducible apply State.lbt_ok
    | with_reducible apply State.meshSend_ok
    | with_reducible apply State.mlcCnt_ok
    | with_reducible apply State.raise_ok
    | with_reducible apply State.takePlan_ok
    | with_reducible refine ite_ok ?_ ?_
    | split

theorem execBeaconSquare_ok {qs : List Instr} (t : ℕ) (square : ℕ) (lbt : Option ℤ) {s : State} {u : State} (hs : s.Ok qs) (e : execBeaconSquare t square lbt s = .next u) :
    u.Ok qs := by
  unfold execBeaconSquare at e; cases e
  repeat' first
    | with_reducible assumption
    | with_reducible apply State.bcnSq_ok

theorem State.nbrDeliver_ok {qs : List Instr} {s : State} (t : ℕ) (useAck : Bool) (hs : s.Ok qs) :
    (State.nbrDeliver s t useAck).Ok qs := by
  unfold State.nbrDeliver
  repeat' first
    | with_reducible assumption
    | (intro t; refine (have ht : State.Ok qs t := ?_; ?_); (on_goal 2 => clear_value t); (on_goal 1 => subst t))
    | (intro t; refine (have hf : ∀ a x, State.Ok qs a → State.Ok qs (t a x) := ?_; ?_); (on_goal 2 => clear_value t); (on_goal 1 => subst t); (on_goal 1 => intro a x ha); (on_goal 1 => beta_reduce))
    | with_reducible apply hf
    | intro t
    | lift_lets
    | with_reducible apply State.measure_ok
    | with_reducible apply State.setTile_ok
    | with_reducible exact mk_ok (by with_reducible assumption) (by with_reducible rfl)
    | split

theorem State.keepAlive_ok {qs : List Instr} {s : State} (t : ℕ) (a : ℕ) (hs : s.Ok qs) :
    (State.keepAlive s t a).2.Ok qs := by
  unfold State.keepAlive
  repeat' first
    | with_reducible assumption
    | with_reducible apply State.fresh_ok

theorem State.kaSq_ok {qs : List Instr} {s : State} (t : ℕ) (square : ℕ) (fin : Bool) (lbt : Option ℤ) (hs : s.Ok qs) :
    (State.kaSq s t square fin lbt).Ok qs := by
  unfold State.kaSq
  repeat' first
    | with_reducible assumption
    | (intro t; refine (have ht : State.Ok qs t.2 := ?_; ?_); (on_goal 2 => clear_value t); (on_goal 1 => subst t))
    | lift_lets
    | with_reducible apply State.asnUndo_ok
    | with_reducible apply State.keepAlive_ok
    | with_reducible apply State.lbt_ok
    | with_reducible apply State.meshSend_ok
    | with_reducible apply State.mlcCnt_ok
    | with_reducible apply State.mlcGive_ok
    | with_reducible apply State.mlcTold_ok
    | with_reducible apply State.nbrDeliver_ok
    | with_reducible apply State.takePlan_ok
    | with_reducible refine ite_ok ?_ ?_
    | split

theorem execKeepaliveSquare_ok {qs : List Instr} (t : ℕ) (square : ℕ) (fin : Bool) (lbt : Option ℤ) {s : State} {u : State} (hs : s.Ok qs) (e : execKeepaliveSquare t square fin lbt s = .next u) :
    u.Ok qs := by
  unfold execKeepaliveSquare at e; cases e
  repeat' first
    | with_reducible assumption
    | with_reducible apply State.kaSq_ok
    | with_reducible apply State.mlcPath_ok

theorem State.withdraw_ok {qs : List Instr} {s : State} (t : ℕ) (k : ℕ) (hs : s.Ok qs) :
    (State.withdraw s t k).Ok qs := by
  unfold State.withdraw
  repeat' first
    | with_reducible assumption
    | with_reducible apply State.lisIdle_ok
    | with_reducible apply State.mlcFeed_ok
    | with_reducible apply State.setLis_ok
    | with_reducible apply State.setMlc_ok
    | with_reducible refine foldl_ok ?_ (fun t e ht => ?_)
    | split

theorem State.tileEn_ok {qs : List Instr} {s : State} (t : ℕ) (old : Bool) (new : Bool) (hs : s.Ok qs) :
    (State.tileEn s t old new).Ok qs := by
  unfold State.tileEn
  repeat' first
    | with_reducible assumption
    | with_reducible apply State.lisDrop_ok
    | with_reducible apply State.mlcPath_ok
    | with_reducible apply State.set_ok
    | with_reducible apply State.setTile_ok
    | with_reducible apply State.withdraw_ok
    | with_reducible refine ite_ok ?_ ?_
    | split

theorem State.tileChecked_ok {qs : List Instr} {s : State} (t : ℕ) (hs : s.Ok qs) :
    (State.tileChecked s t).Ok qs := by
  unfold State.tileChecked
  repeat' first
    | with_reducible assumption
    | with_reducible apply State.bankRead_ok
    | with_reducible apply State.mlcGive_ok
    | with_reducible apply State.raise_ok
    | with_reducible apply State.set_ok
    | with_reducible apply State.setTile_ok
    | with_reducible refine ite_ok ?_ ?_
    | with_reducible refine foldl_ok ?_ (fun t e ht => ?_)

theorem execTileChecksDone_ok {qs : List Instr} (t : ℕ) {s : State} {u : State} (hs : s.Ok qs) (e : execTileChecksDone t s = .next u) :
    u.Ok qs := by
  unfold execTileChecksDone at e; cases e
  repeat' first
    | with_reducible assumption
    | with_reducible apply State.mlcPath_ok
    | with_reducible apply State.mlcTold_ok
    | with_reducible apply State.tileChecked_ok

theorem State.sfRefuse_ok {qs : List Instr} {s : State} (t : ℕ) (f : ℕ) (cause : ℕ) (hs : s.Ok qs) :
    (State.sfRefuse s t f cause).Ok qs := by
  unfold State.sfRefuse
  repeat' first
    | with_reducible assumption
    | with_reducible apply State.raise_ok
    | with_reducible apply State.set_ok

theorem State.sfDo_ok {qs : List Instr} {s : State} (t : ℕ) (f : ℕ) (hs : s.Ok qs) :
    (State.sfDo s t f).Ok qs := by
  unfold State.sfDo
  repeat' first
    | with_reducible assumption
    | with_reducible apply State.raise_ok
    | with_reducible apply State.set_ok

theorem State.sfArm_ok {qs : List Instr} {s : State} (t : ℕ) (f : ℕ) (hs : s.Ok qs) :
    (State.sfArm s t f).Ok qs := by
  unfold State.sfArm
  repeat' first
    | with_reducible assumption
    | with_reducible apply State.bankRead_ok
    | with_reducible apply State.raise_ok
    | with_reducible apply State.set_ok
    | with_reducible apply State.sfDo_ok
    | with_reducible apply State.sfRefuse_ok
    | with_reducible refine ite_ok ?_ ?_

theorem State.tileStop_ok {qs : List Instr} {s : State} (t : ℕ) (k : ℕ) (hs : s.Ok qs) :
    (State.tileStop s t k).Ok qs := by
  unfold State.tileStop
  repeat' first
    | with_reducible assumption
    | with_reducible apply State.set_ok
    | with_reducible apply State.setTile_ok
    | with_reducible apply State.sfRefuse_ok
    | with_reducible apply State.withdraw_ok
    | with_reducible refine foldl_ok ?_ (fun t e ht => ?_)
    | split

theorem State.nbrSquare_ok {qs : List Instr} {s : State} (t : ℕ) (k : ℕ) (hs : s.Ok qs) :
    (State.nbrSquare s t k).Ok qs := by
  unfold State.nbrSquare
  repeat' first
    | with_reducible assumption
    | with_reducible apply State.nbrDeliver_ok
    | split

theorem State.edgeRun_ok {qs : List Instr} {s : State} (t : ℕ) (k : ℕ) (hs : s.Ok qs) :
    (State.edgeRun s t k).Ok qs := by
  unfold State.edgeRun
  repeat' first
    | with_reducible assumption
    | with_reducible apply State.nbrSquare_ok
    | with_reducible apply State.setTile_ok
    | with_reducible apply State.sets_ok
    | with_reducible apply State.sfDo_ok
    | with_reducible refine foldl_ok ?_ (fun t e ht => ?_)
    | split

theorem State.edgePre_ok {qs : List Instr} {s : State} (t : ℕ) (hs : s.Ok qs) :
    (State.edgePre s t).Ok qs := by
  unfold State.edgePre
  repeat' first
    | with_reducible assumption
    | with_reducible apply State.setMlc_ok
    | with_reducible apply State.winApply_ok
    | with_reducible refine ite_ok ?_ ?_

theorem State.edgeAt_ok {qs : List Instr} {s : State} (t : ℕ) (o : Option ℕ) (hs : s.Ok qs) :
    (State.edgeAt s t o).Ok qs := by
  unfold State.edgeAt
  repeat' first
    | with_reducible assumption
    | split
    | with_reducible apply State.edgePre_ok
    | with_reducible apply State.edgeRun_ok
    | with_reducible apply State.mlcPath_ok
    | with_reducible apply State.tileStop_ok

theorem State.slotEdgeOp_ok {qs : List Instr} {s : State} (t : ℕ) (hs : s.Ok qs) :
    (State.slotEdgeOp s t).Ok qs := by
  unfold State.slotEdgeOp
  repeat' first
    | with_reducible assumption
    | with_reducible apply State.edgeAt_ok

theorem execSlotEdge_ok {qs : List Instr} (t : ℕ) {s : State} {u : State} (hs : s.Ok qs) (e : execSlotEdge t s = .next u) :
    u.Ok qs := by
  unfold execSlotEdge at e; cases e
  repeat' first
    | with_reducible assumption
    | with_reducible apply State.slotEdgeOp_ok

theorem State.quietGive_ok {qs : List Instr} {s : State} (t : ℕ) (k : ℕ) (q' : Square) (f : ℕ) (hs : s.Ok qs) :
    (State.quietGive s t k q' f).Ok qs := by
  unfold State.quietGive
  repeat' first
    | with_reducible assumption
    | with_reducible apply State.setMlc_ok
    | with_reducible refine ite_ok ?_ ?_

theorem State.serve_ok {qs : List Instr} {s : State} (t : ℕ) (k : ℕ) (q' : Square) (hs : s.Ok qs) :
    (State.serve s t k q').Ok qs := by
  unfold State.serve
  repeat' first
    | with_reducible assumption
    | with_reducible apply State.mlcCnt_ok
    | with_reducible apply State.mlcGive_ok
    | with_reducible apply State.quietGive_ok
    | with_reducible apply State.raise_ok
    | with_reducible apply State.recLoad_ok
    | with_reducible apply State.setMlc_ok
    | with_reducible refine ite_ok ?_ ?_

theorem State.prepTile_ok {qs : List Instr} {s : State} (t : ℕ) (k : ℕ) (hs : s.Ok qs) :
    (State.prepTile s t k).Ok qs := by
  unfold State.prepTile
  repeat' first
    | with_reducible assumption
    | with_reducible apply State.mlcCnt_ok
    | with_reducible apply State.quietPast_ok
    | with_reducible apply State.raise_ok
    | with_reducible apply State.serve_ok
    | with_reducible apply State.setMlc_ok
    | with_reducible apply State.setTile_ok
    | with_reducible apply State.ueHit_ok
    | with_reducible refine foldl_ok ?_ (fun t e ht => ?_)

theorem State.prepare_ok {qs : List Instr} {s : State} (t : ℕ) (hs : s.Ok qs) :
    (State.prepare s t).Ok qs := by
  unfold State.prepare
  repeat' first
    | with_reducible assumption
    | split
    | with_reducible apply State.prepTile_ok
    | with_reducible refine foldl_ok ?_ (fun t e ht => ?_)

theorem execSlotPrepare_ok {qs : List Instr} (t : ℕ) {s : State} {u : State} (hs : s.Ok qs) (e : execSlotPrepare t s = .next u) :
    u.Ok qs := by
  unfold execSlotPrepare at e; cases e
  repeat' first
    | with_reducible assumption
    | with_reducible apply State.mlcPath_ok
    | with_reducible apply State.mlcTold_ok
    | with_reducible apply State.prepare_ok

theorem State.quietAgain_ok {qs : List Instr} {s : State} (hs : s.Ok qs) :
    (State.quietAgain s).Ok qs := by
  unfold State.quietAgain
  repeat' first
    | with_reducible assumption
    | with_reducible apply State.quietGive_ok
    | with_reducible refine ite_ok ?_ ?_
    | with_reducible refine foldl_ok ?_ (fun t e ht => ?_)

theorem State.boardStart_ok {qs : List Instr} {s : State} (rq : Rq) (hs : s.Ok qs) :
    (State.boardStart s rq).Ok qs := by
  unfold State.boardStart
  repeat' first
    | with_reducible assumption
    | with_reducible apply State.opFail_ok
    | with_reducible apply State.opStart_ok
    | with_reducible refine ite_ok ?_ ?_

theorem execMlcBoardLoad_ok {qs : List Instr} (rq : Rq) {s : State} {u : State} (hs : s.Ok qs) (e : execMlcBoardLoad rq s = .next u) :
    u.Ok qs := by
  unfold execMlcBoardLoad at e; cases e
  repeat' first
    | with_reducible assumption
    | with_reducible apply State.boardStart_ok

theorem State.boardUnit_ok {qs : List Instr} {s : State} (hs : s.Ok qs) :
    (State.boardUnit s).Ok qs := by
  unfold State.boardUnit
  repeat' first
    | with_reducible assumption
    | with_reducible apply State.opDone_ok
    | with_reducible apply State.opFail_ok
    | with_reducible apply State.opUnits_ok
    | with_reducible apply State.poke_ok
    | with_reducible apply State.ueHit_ok
    | with_reducible refine ite_ok ?_ ?_

theorem State.lisThen_ok {qs : List Instr} {s : State} (l : ℕ) (hs : s.Ok qs) :
    (State.lisThen s l).Ok qs := by
  unfold State.lisThen
  repeat' first
    | with_reducible assumption
    | with_reducible apply State.coexRelease_ok
    | with_reducible apply State.mlcFeed_ok
    | with_reducible apply State.mlcPath_ok
    | with_reducible apply State.mlcTold_ok
    | with_reducible refine ite_ok ?_ ?_

theorem execListenerAssign_ok {qs : List Instr} (l : ℕ) (a : Asn) {s : State} {u : State} (hs : s.Ok qs) (e : execListenerAssign l a s = .next u) :
    u.Ok qs := by
  rw [← Host.Outcome.next.inj e]
  exact State.lisThen_ok _ (State.giveAsn_ok _ _ hs)

theorem execListenerWindowOpen_ok {qs : List Instr} (l : ℕ) {s : State} {u : State} (hs : s.Ok qs) (e : execListenerWindowOpen l s = .next u) :
    u.Ok qs := by
  unfold execListenerWindowOpen at e; cases e
  repeat' first
    | with_reducible assumption
    | with_reducible apply State.lisOpen_ok

theorem execEnergyDetect_ok {qs : List Instr} (l : ℕ) (e : ℤ) {s : State} {u : State} (hs : s.Ok qs) (e : execEnergyDetect l e s = .next u) :
    u.Ok qs := by
  unfold execEnergyDetect at e; cases e
  repeat' first
    | with_reducible assumption
    | with_reducible apply State.lisEnergy_ok

theorem execQualifierPass_ok {qs : List Instr} (l : ℕ) (corr : List ℕ) (es : ℤ × ℤ) {s : State} {u : State} (hs : s.Ok qs) (e : execQualifierPass l corr es s = .next u) :
    u.Ok qs := by
  unfold execQualifierPass at e; cases e
  repeat' first
    | with_reducible assumption
    | with_reducible apply State.lisQualify_ok

theorem execQualifierFail_ok {qs : List Instr} (q : QualEnd) {s : State} {u : State} (hs : s.Ok qs)
    (e : execQualifierFail q s = .next u) : u.Ok qs := by
  rw [← Host.Outcome.next.inj e]
  exact State.lisThen_ok _ (State.lisUnqualify_ok _ _ _ hs)

theorem execSfdMatch_ok {qs : List Instr} (l : ℕ) (units : ℕ) (rssi : ℤ) {s : State} {u : State} (hs : s.Ok qs) (e : execSfdMatch l units rssi s = .next u) :
    u.Ok qs := by
  unfold execSfdMatch at e; cases e
  repeat' first
    | with_reducible assumption
    | (intro t; refine (have ht : State.Ok qs t := ?_; ?_); (on_goal 2 => clear_value t); (on_goal 1 => subst t))
    | (intro t; refine (have ht : State.Ok qs t.2 := ?_; ?_); (on_goal 2 => clear_value t); (on_goal 1 => subst t))
    | (intro t; clear_value t)
    | intro t
    | lift_lets
    | with_reducible apply State.lisSfd_ok
    | with_reducible apply State.lisThen_ok
    | with_reducible refine ite_ok ?_ ?_
    | with_reducible refine foldl_ok ?_ (fun t e ht => ?_)
    | with_reducible exact mk_ok (by with_reducible assumption) (by with_reducible rfl)
    | split

theorem execSfdwaitExpire_ok {qs : List Instr} (w : SfdWait) {s : State} {u : State} (hs : s.Ok qs) (e : execSfdwaitExpire w s = .next u) :
    u.Ok qs := by
  rw [← Host.Outcome.next.inj e]
  exact State.lisThen_ok _ (State.lisFalse_ok _ _ hs)

theorem execStrongerPreamble_ok {qs : List Instr} (l : ℕ) (corr : List ℕ) (e' : ℤ) (es : ℤ × ℤ) {s : State} {u : State} (hs : s.Ok qs) (e : execStrongerPreamble l corr e' es s = .next u) :
    u.Ok qs := by
  unfold execStrongerPreamble at e; cases e
  repeat' first
    | with_reducible assumption
    | with_reducible apply State.lisCapture_ok

theorem execPhrEnd_ok {qs : List Instr} (l : ℕ) (h : Phr) (len : ℕ) (fcslen dw : Bool) {s : State} {u : State} (hs : s.Ok qs) (e : execPhrEnd l h len fcslen dw s = .next u) :
    u.Ok qs := by
  unfold execPhrEnd at e; cases e
  repeat' first
    | with_reducible assumption
    | (intro t; refine (have ht : State.Ok qs t := ?_; ?_); (on_goal 2 => clear_value t); (on_goal 1 => subst t))
    | (intro t; refine (have ht : State.Ok qs t.2 := ?_; ?_); (on_goal 2 => clear_value t); (on_goal 1 => subst t))
    | (intro t; clear_value t)
    | intro t
    | lift_lets
    | with_reducible apply State.lisPhr_ok
    | with_reducible apply State.lisThen_ok
    | with_reducible refine ite_ok ?_ ?_
    | with_reducible refine foldl_ok ?_ (fun t e ht => ?_)
    | with_reducible exact mk_ok (by with_reducible assumption) (by with_reducible rfl)
    | split

theorem execPsduEnd_ok {qs : List Instr} (l : ℕ) (psdu : List Byte) (rep : RxRep) (taps : List ℕ) {s : State} {u : State} (hs : s.Ok qs) (e : execPsduEnd l psdu rep taps s = .next u) :
    u.Ok qs := by
  unfold execPsduEnd at e; cases e
  repeat' first
    | with_reducible assumption
    | (intro t; refine (have ht : State.Ok qs t := ?_; ?_); (on_goal 2 => clear_value t); (on_goal 1 => subst t))
    | (intro t; refine (have ht : State.Ok qs t.2 := ?_; ?_); (on_goal 2 => clear_value t); (on_goal 1 => subst t))
    | (intro t; clear_value t)
    | intro t
    | lift_lets
    | with_reducible apply State.lisPsdu_ok
    | with_reducible apply State.lisThen_ok
    | with_reducible refine ite_ok ?_ ?_
    | with_reducible refine foldl_ok ?_ (fun t e ht => ?_)
    | with_reducible exact mk_ok (by with_reducible assumption) (by with_reducible rfl)
    | split

theorem State.winClose_ok {qs : List Instr} {s : State} (l : ℕ) (hs : s.Ok qs) :
    (State.winClose s l).Ok qs := by
  unfold State.winClose
  repeat' first
    | with_reducible assumption
    | with_reducible apply State.lisClose_ok
    | with_reducible apply State.lisThen_ok

theorem execListenerWindowClose_ok {qs : List Instr} (l : ℕ) {s : State} {u : State} (hs : s.Ok qs) (e : execListenerWindowClose l s = .next u) :
    u.Ok qs := by
  unfold execListenerWindowClose at e; cases e
  repeat' first
    | with_reducible assumption
    | (intro t; refine (have ht : State.Ok qs t := ?_; ?_); (on_goal 2 => clear_value t); (on_goal 1 => subst t))
    | (intro t; refine (have ht : State.Ok qs t.2 := ?_; ?_); (on_goal 2 => clear_value t); (on_goal 1 => subst t))
    | (intro t; clear_value t)
    | intro t
    | lift_lets
    | with_reducible apply State.winClose_ok
    | with_reducible refine ite_ok ?_ ?_
    | with_reducible refine foldl_ok ?_ (fun t e ht => ?_)
    | with_reducible exact mk_ok (by with_reducible assumption) (by with_reducible rfl)
    | split

theorem State.winCommit_ok {qs : List Instr} {s : State} (hs : s.Ok qs) :
    (State.winCommit s).Ok qs := by
  unfold State.winCommit
  repeat' first
    | with_reducible assumption
    | with_reducible apply State.set_ok
    | with_reducible apply State.winApply_ok
    | with_reducible refine ite_ok ?_ ?_

theorem execWindowApply_ok {qs : List Instr} {s : State} {u : State} (hs : s.Ok qs) (e : execWindowApply s = .next u) :
    u.Ok qs := by
  unfold execWindowApply at e; cases e
  repeat' first
    | with_reducible assumption
    | with_reducible apply State.winApply_ok

theorem execPreselRetuneDone_ok {qs : List Instr} (r : ℕ) (p : ℕ) {s : State} {u : State} (hs : s.Ok qs) (e : execPreselRetuneDone r p s = .next u) :
    u.Ok qs := by
  unfold execPreselRetuneDone at e; cases e
  repeat' first
    | with_reducible assumption
    | with_reducible apply State.blank_ok
    | with_reducible apply State.mlcTold_ok
    | with_reducible apply State.set_ok
    | split

theorem State.eqArm_ok {qs : List Instr} {s : State} (rq : Rq) (hs : s.Ok qs) :
    (State.eqArm s rq).Ok qs := by
  unfold State.eqArm
  repeat' first
    | with_reducible assumption
    | with_reducible apply State.errRec_ok
    | with_reducible apply State.set_ok
    | with_reducible refine ite_ok ?_ ?_

end Sys2Proof.Machine
end

