-- ==== Sys2Proof/Laws/KeepMlcRx.lean ====
section
/-!
SUPPORT. The operations of Machine/MlcRx.lean keep what Laws/Keep.lean says.
-/

set_option linter.all false

namespace Sys2Proof.Machine

theorem State.mlcJudge_ok {qs : List Instr} {s : State} (t : ℕ) (asn : ℕ) (m : Mac154) (psdu : List Byte) (hs : s.Ok qs) :
    (State.mlcJudge s t asn m psdu).2.Ok qs := by
  unfold State.mlcJudge
  repeat' first
    | with_reducible assumption
    | (intro t; refine (have ht : State.Ok qs t := ?_; ?_); (on_goal 2 => clear_value t); (on_goal 1 => subst t))
    | intro t
    | split
    | lift_lets
    | with_reducible apply State.pokeN_ok
    | with_reducible apply State.setMlc_ok

theorem State.arrivalD_ok {qs : List Instr} {s : State} (x : Handed) (ref : ℕ) (guard : ℕ) (hs : s.Ok qs) :
    (State.arrivalD s x ref guard).2.Ok qs := by
  unfold State.arrivalD
  repeat' first
    | with_reducible assumption
    | with_reducible apply State.fresh_ok
    | split

theorem State.ackSend_ok {qs : List Instr} {s : State} (x : Handed) (m : Mac154) (pend : Bool) (tc : ℤ) (lbt : Option ℤ) (hs : s.Ok qs) :
    (State.ackSend s x m pend tc lbt).2.Ok qs := by
  unfold State.ackSend
  repeat' first
    | with_reducible assumption
    | (intro t; refine (have ht : State.Ok qs t.2 := ?_; ?_); (on_goal 2 => clear_value t); (on_goal 1 => subst t))
    | intro t
    | lift_lets
    | with_reducible apply State.lbt_ok
    | with_reducible apply State.meshSend_ok
    | with_reducible apply State.mlcCnt_ok
    | with_reducible apply State.raise_ok
    | split

theorem State.ackHeard_ok {qs : List Instr} {s : State} (x : Handed) (m : Mac154) (hs : s.Ok qs) :
    (State.ackHeard s x m).Ok qs := by
  unfold State.ackHeard
  repeat' first
    | with_reducible assumption
    | (intro t; refine (have ht : State.Ok qs t := ?_; ?_); (on_goal 2 => clear_value t); (on_goal 1 => subst t))
    | intro t
    | split
    | lift_lets
    | with_reducible apply State.setMn_ok
    | with_reducible apply State.setTile_ok
    | with_reducible apply State.tryOk_ok

theorem State.nbrHeard_ok {qs : List Instr} {s : State} (x : Handed) (m : Mac154) (tpl : ℕ) (hs : s.Ok qs) :
    (State.nbrHeard s x m tpl).Ok qs := by
  unfold State.nbrHeard
  repeat' first
    | with_reducible assumption
    | with_reducible apply State.lisDrop_ok
    | with_reducible apply State.nbrDeliver_ok
    | with_reducible apply State.raise_ok
    | with_reducible apply State.setEpoch_ok
    | with_reducible apply State.setTile_ok
    | with_reducible apply State.sets_ok
    | with_reducible refine ite_ok ?_ ?_
    | split

theorem State.secAsk_ok {qs : List Instr} {s : State} (op : ℕ) (key : ℕ) (h : ℕ) (wid : ℕ) (hs : s.Ok qs) :
    (State.secAsk s op key h wid).Ok qs := by
  unfold State.secAsk
  repeat' first
    | with_reducible assumption
    | with_reducible exact mk_ok (by with_reducible assumption) (by with_reducible rfl)

theorem State.handOn_ok {qs : List Instr} {s : State} (x : Handed) (m : Mac154) (w11 : ℕ) (d : ℤ) (a : Attr) (hs : s.Ok qs) :
    (State.handOn s x m w11 d a).Ok qs := by
  unfold State.handOn
  repeat' first
    | with_reducible assumption
    | (intro t; refine (have ht : State.Ok qs t := ?_; ?_); (on_goal 2 => clear_value t); (on_goal 1 => subst t))
    | (intro t; refine (have ht : State.Ok qs t.2 := ?_; ?_); (on_goal 2 => clear_value t); (on_goal 1 => subst t))
    | intro t
    | split
    | lift_lets
    | with_reducible apply State.bufRelease_ok
    | with_reducible apply State.islandCommit_ok
    | with_reducible apply State.pokeHdr_ok
    | with_reducible apply State.recLoad_ok
    | with_reducible apply State.secAsk_ok
    | with_reducible apply State.setMn_ok

theorem State.judgeTo_ok {qs : List Instr} {s : State} (x : Handed) (hs : s.Ok qs) :
    (State.judgeTo s x).Ok qs := by
  unfold State.judgeTo
  repeat' first
    | with_reducible assumption
    | (intro t; refine (have ht : State.Ok qs t := ?_; ?_); (on_goal 2 => clear_value t); (on_goal 1 => subst t))
    | (intro t; refine (have ht : State.Ok qs t.2 := ?_; ?_); (on_goal 2 => clear_value t); (on_goal 1 => subst t))
    | intro t
    | lift_lets
    | with_reducible apply State.mlcJudge_ok
    | with_reducible refine foldl_ok ?_ (fun t e ht => ?_)
    | with_reducible exact mk_ok (by with_reducible assumption) (by with_reducible rfl)
    | split

theorem State.mlcFrame_ok {qs : List Instr} {s : State} (x : Handed) (m : Mac154) (j : Option ℕ) (lbt : Option ℤ) (hs : s.Ok qs) :
    (State.mlcFrame s x m j lbt).Ok qs := by
  unfold State.mlcFrame
  lift_lets
  intro t kind tpl s1
  have h1 : s1.Ok qs := State.ackHeard_ok _ _ hs
  clear_value s1
  intro s2
  have h2 : s2.Ok qs := ite_ok (State.nbrHeard_ok _ _ _ h1) h1
  clear_value s2
  intro slot k ref dp
  have hd : dp.2.Ok qs := by
    show State.Ok qs (if slot then _ else _ : Int × State).2
    split
    · exact State.arrivalD_ok _ _ _ h2
    · exact h2
  clear_value dp
  intro d s3
  have h3 : s3.Ok qs := hd
  clear_value s3
  intro tc want mayAck node pend r
  have hr : r.2.Ok qs := by
    show (if _ then _ else _ : Bool × State).2.Ok qs
    split
    · exact State.ackSend_ok _ _ _ _ _ h3
    · exact ite_ok (State.mlcCnt_ok _ h3) h3
  clear_value r
  intro u
  have hu : u.Ok qs := by
    dsimp only [u]
    split
    · exact State.promote_ok _ hr
    · exact hr
  clear_value u
  intro w11
  exact State.handOn_ok _ _ _ _ _ hu

theorem State.mlcCheck_ok {qs : List Instr} {s : State} (l : ℕ) (lbt : Option ℤ) (hs : s.Ok qs) :
    (State.mlcCheck s l lbt).Ok qs := by
  unfold State.mlcCheck
  repeat' first
    | with_reducible assumption
    | (intro t; refine (have ht : State.Ok qs t := ?_; ?_); (on_goal 2 => clear_value t); (on_goal 1 => subst t))
    | (intro t; refine (have hf : ∀ a, State.Ok qs a → State.Ok qs (t a) := ?_; ?_); (on_goal 2 => clear_value t); (on_goal 1 => subst t); (on_goal 1 => intro a ha); (on_goal 1 => beta_reduce))
    | with_reducible apply hf
    | intro t
    | split
    | lift_lets
    | with_reducible apply State.bufRelease_ok
    | with_reducible apply State.judgeTo_ok
    | with_reducible apply State.mlcCnt_ok
    | with_reducible apply State.mlcFrame_ok
    | with_reducible apply State.unresv_ok
    | with_reducible exact mk_ok (by with_reducible assumption) (by with_reducible rfl)

theorem execMlcFrameCheck_ok {qs : List Instr} (l : ℕ) (lbt : Option ℤ) {s : State} {u : State} (hs : s.Ok qs) (e : execMlcFrameCheck l lbt s = .next u) :
    u.Ok qs := by
  unfold execMlcFrameCheck at e; cases e
  repeat' first
    | with_reducible assumption
    | with_reducible apply State.lisThen_ok
    | with_reducible apply State.mlcCheck_ok

theorem execBoardWriteDiscard_ok {qs : List Instr} (rq : Rq) (addr : ℕ) (bytes : ℕ) {s : State} {u : State} (hs : s.Ok qs) (e : execBoardWriteDiscard rq addr bytes s = .next u) :
    u.Ok qs := by
  unfold execBoardWriteDiscard at e; cases e
  repeat' first
    | with_reducible assumption
    | with_reducible apply State.raise_ok
    | split

theorem execMapWriteDiscard_ok {qs : List Instr} (rq : Rq) (addr : ℕ) (bytes : ℕ) {s : State} {u : State} (hs : s.Ok qs) (e : execMapWriteDiscard rq addr bytes s = .next u) :
    u.Ok qs := by
  unfold execMapWriteDiscard at e; cases e
  repeat' first
    | with_reducible assumption
    | with_reducible apply State.raise_ok
    | with_reducible refine ite_ok ?_ ?_

end Sys2Proof.Machine
end

