-- ==== Sys2Proof/Laws/KeepAir.lean ====
section
/-!
SUPPORT. The operations of Machine/Air.lean keep what Laws/Keep.lean says.
-/

set_option linter.all false

namespace Sys2Proof.Machine

theorem State.carrSent_ok {qs : List Instr} {s : State} (id : ℕ) (hs : s.Ok qs) :
    (State.carrSent s id).Ok qs := by
  unfold State.carrSent
  repeat' first
    | with_reducible assumption
    | (intro t; refine (have ht : State.Ok qs t := ?_; ?_); (on_goal 2 => clear_value t); (on_goal 1 => subst t))
    | lift_lets
    | with_reducible apply State.carrDrop_ok
    | with_reducible apply State.tryDrop_ok
    | with_reducible apply State.tryOk_ok
    | split

theorem State.carrCut_ok {qs : List Instr} {s : State} (id : ℕ) (hs : s.Ok qs) :
    (State.carrCut s id).Ok qs := by
  unfold State.carrCut
  repeat' first
    | with_reducible assumption
    | (intro t; refine (have ht : State.Ok qs t := ?_; ?_); (on_goal 2 => clear_value t); (on_goal 1 => subst t))
    | intro t
    | lift_lets
    | with_reducible apply State.carrDrop_ok
    | with_reducible apply State.limCut_ok
    | with_reducible apply State.tryDrop_ok
    | with_reducible apply State.tryFail_ok
    | with_reducible exact mk_ok (by with_reducible assumption) (by with_reducible rfl)
    | split

theorem State.carrRefused_ok {qs : List Instr} {s : State} (id : ℕ) (status : ℕ) (hs : s.Ok qs) :
    (State.carrRefused s id status).Ok qs := by
  unfold State.carrRefused
  repeat' first
    | with_reducible assumption
    | (intro t; refine (have ht : State.Ok qs t := ?_; ?_); (on_goal 2 => clear_value t); (on_goal 1 => subst t))
    | lift_lets
    | with_reducible apply State.carrDrop_ok
    | with_reducible apply State.carrStatus_ok
    | with_reducible apply State.limCut_ok
    | with_reducible apply State.tryRefused_ok
    | split

theorem State.pathForget_ok {qs : List Instr} {s : State} (p : ℕ) (id : ℕ) (hs : s.Ok qs) :
    (State.pathForget s p id).Ok qs := by
  unfold State.pathForget
  repeat' first
    | with_reducible assumption
    | with_reducible apply State.setPath_ok

theorem State.portCut_ok {qs : List Instr} {s : State} (port : ℕ) (hs : s.Ok qs) :
    (State.portCut s port).Ok qs := by
  unfold State.portCut
  repeat' first
    | with_reducible assumption
    | with_reducible apply State.carrCut_ok
    | with_reducible apply State.pathForget_ok
    | with_reducible refine foldl_ok ?_ (fun t e ht => ?_)

theorem State.meshStop_ok {qs : List Instr} {s : State} (p : ℕ) (hs : s.Ok qs) :
    (State.meshStop s p).Ok qs := by
  unfold State.meshStop
  repeat' first
    | with_reducible assumption
    | with_reducible apply State.carrCut_ok
    | with_reducible apply State.carrRefused_ok
    | with_reducible refine foldl_ok ?_ (fun t e ht => ?_)

theorem State.carrLend_ok {qs : List Instr} {s : State} (c : Carr) (hs : s.Ok qs) :
    (State.carrLend s c).Ok qs := by
  unfold State.carrLend
  repeat' first
    | with_reducible assumption
    | with_reducible apply State.carrDrop_ok
    | with_reducible apply State.pathForget_ok
    | with_reducible apply State.setMlc_ok

theorem execCarrierRequest_ok {qs : List Instr} (c : Carr) {s : State} {u : State} (hs : s.Ok qs) (e : execCarrierRequest c s = .next u) :
    u.Ok qs := by
  unfold execCarrierRequest at e; cases e
  repeat' first
    | with_reducible assumption
    | with_reducible apply State.carrReq_ok
    | with_reducible apply State.setMlc_ok
    | with_reducible refine ite_ok ?_ ?_

theorem State.carrCount_ok {qs : List Instr} {s : State} (id : ℕ) (hs : s.Ok qs) :
    (State.carrCount s id).Ok qs := by
  unfold State.carrCount
  repeat' first
    | with_reducible assumption
    | split
    | with_reducible apply State.mlcCnt_ok

theorem State.carrGo_ok {qs : List Instr} {s : State} (id : ℕ) (hs : s.Ok qs) :
    (State.carrGo s id).Ok qs := by
  unfold State.carrGo
  repeat' first
    | with_reducible assumption
    | split
    | with_reducible apply State.carrCount_ok
    | with_reducible apply State.carrLaunch_ok
    | with_reducible apply State.carrRefused_ok
    | with_reducible apply State.coexRefuse_ok
    | with_reducible apply State.deafen_ok
    | with_reducible apply State.pathForget_ok

theorem execCarrierLaunch_ok {qs : List Instr} (id : ℕ) {s : State} {u : State} (hs : s.Ok qs) (e : execCarrierLaunch id s = .next u) :
    u.Ok qs := by
  unfold execCarrierLaunch at e; cases e
  repeat' first
    | with_reducible assumption
    | with_reducible apply State.carrGo_ok

theorem State.airRetire_ok {qs : List Instr} {s : State} (code : ℕ) (hs : s.Ok qs) :
    (State.airRetire s code).Ok qs := by
  unfold State.airRetire
  repeat' first
    | with_reducible assumption
    | (intro t; refine (have ht : State.Ok qs t := ?_; ?_); (on_goal 2 => clear_value t); (on_goal 1 => subst t))
    | intro t
    | lift_lets
    | with_reducible apply State.carrLend_ok
    | with_reducible apply State.carrRefused_ok
    | with_reducible apply State.pathForget_ok
    | with_reducible apply State.portCut_ok
    | with_reducible apply State.set_ok
    | with_reducible refine foldl_ok ?_ (fun t e ht => ?_)
    | with_reducible exact mk_ok (by with_reducible assumption) (by with_reducible rfl)
    | split

theorem State.fltAir_ok {qs : List Instr} {s : State} (code : ℕ) (page : ℕ) (hard : Bool) (hs : s.Ok qs) :
    (State.fltAir s code page hard).Ok qs := by
  unfold State.fltAir
  repeat' first
    | with_reducible assumption
    | with_reducible apply State.airRetire_ok
    | with_reducible apply State.fltEvent_ok
    | with_reducible refine ite_ok ?_ ?_

theorem State.fltRestoreOp_ok {qs : List Instr} {s : State} (hs : s.Ok qs) :
    (State.fltRestoreOp s).Ok qs := by
  unfold State.fltRestoreOp
  repeat' first
    | with_reducible assumption
    | with_reducible apply State.set_ok
    | with_reducible refine ite_ok ?_ ?_
    | with_reducible exact mk_ok (by with_reducible assumption) (by with_reducible rfl)

theorem State.maskOp_ok {qs : List Instr} {s : State} (r : ℕ) (port : ℕ) (excess : ℤ) (hs : s.Ok qs) :
    (State.maskOp s r port excess).Ok qs := by
  unfold State.maskOp
  repeat' first
    | with_reducible assumption
    | with_reducible apply State.fltAir_ok
    | with_reducible apply State.portCut_ok
    | with_reducible apply State.raise_ok
    | with_reducible apply State.satAdd_ok
    | with_reducible apply State.set_ok
    | with_reducible apply State.setI_ok
    | with_reducible refine ite_ok ?_ ?_

end Sys2Proof.Machine
end

