-- ==== Sys2Proof/Laws/KeepWphy.lean ====
section
/-!
SUPPORT. The operations of Machine/Wphy.lean keep what Laws/Keep.lean says.
-/

set_option linter.all false

namespace Sys2Proof.Machine

theorem State.wphyCnt_ok {qs : List Instr} {s : State} (r : ℕ) (n : ℕ) (hs : s.Ok qs) :
    (State.wphyCnt s r n).Ok qs := by
  unfold State.wphyCnt
  repeat' first
    | with_reducible assumption
    | with_reducible apply State.bump_ok

theorem State.setWrx_ok {qs : List Instr} {s : State} (r : ℕ) (x : WRx) (hs : s.Ok qs) :
    (State.setWrx s r x).Ok qs := by
  unfold State.setWrx
  repeat' first
    | with_reducible assumption
    | with_reducible apply State.setWl_ok

theorem State.wrxFree_ok {qs : List Instr} {s : State} (r : ℕ) (hs : s.Ok qs) :
    (State.wrxFree s r).Ok qs := by
  unfold State.wrxFree
  repeat' first
    | with_reducible assumption
    | split
    | with_reducible apply State.bufRelease_ok
    | with_reducible apply State.setWrx_ok
    | with_reducible apply State.unresv_ok

theorem State.wrxSearch_ok {qs : List Instr} {s : State} (r : ℕ) (hs : s.Ok qs) :
    (State.wrxSearch s r).Ok qs := by
  unfold State.wrxSearch
  repeat' first
    | with_reducible assumption
    | with_reducible apply State.setWrx_ok

theorem State.wDetect_ok {qs : List Instr} {s : State} (r : ℕ) (power : ℤ) (hs : s.Ok qs) :
    (State.wDetect s r power).Ok qs := by
  unfold State.wDetect
  repeat' first
    | with_reducible assumption
    | with_reducible apply State.setWrx_ok
    | split

theorem execWlanLstfDetect_ok {qs : List Instr} (r : ℕ) (power : ℤ) {s : State} {u : State} (hs : s.Ok qs) (e : execWlanLstfDetect r power s = .next u) :
    u.Ok qs := by
  unfold execWlanLstfDetect at e; cases e
  repeat' first
    | with_reducible assumption
    | with_reducible apply State.wDetect_ok

theorem execWlanLltfConfirm_ok {qs : List Instr} (r : ℕ) {s : State} {u : State} (hs : s.Ok qs) (e : execWlanLltfConfirm r s = .next u) :
    u.Ok qs := by
  unfold execWlanLltfConfirm at e; cases e
  repeat' first
    | with_reducible assumption
    | with_reducible apply State.setWrx_ok
    | split

theorem execWlanLltfTimeout_ok {qs : List Instr} (r : ℕ) {s : State} {u : State} (hs : s.Ok qs) (e : execWlanLltfTimeout r s = .next u) :
    u.Ok qs := by
  unfold execWlanLltfTimeout at e; cases e
  repeat' first
    | with_reducible assumption
    | with_reducible apply State.wrxSearch_ok
    | split

theorem State.wCommit_ok {qs : List Instr} {s : State} (r : ℕ) (n : ℕ) (hs : s.Ok qs) :
    (State.wCommit s r n).Ok qs := by
  unfold State.wCommit
  repeat' first
    | with_reducible assumption
    | (intro t; refine (have ht : State.Ok qs t.2 := ?_; ?_); (on_goal 2 => clear_value t); (on_goal 1 => subst t))
    | (intro t; refine (have hf : ∀ a, State.Ok qs a → State.Ok qs (t a) := ?_; ?_); (on_goal 2 => clear_value t); (on_goal 1 => subst t); (on_goal 1 => intro a ha); (on_goal 1 => beta_reduce))
    | with_reducible apply hf
    | lift_lets
    | with_reducible apply State.bufAlloc_ok
    | with_reducible apply State.bufRelease_ok
    | with_reducible apply State.raise_ok
    | with_reducible refine State.resvSlot_ok _ ?_ (by with_reducible assumption)
    | with_reducible apply State.setWrx_ok
    | with_reducible apply State.wphyCnt_ok
    | with_reducible apply State.wrxSearch_ok
    | split

theorem State.wLsig_ok {qs : List Instr} {s : State} (r : ℕ) (ok : Bool) (nonHt : Bool) (dur : ℕ) (n : ℕ) (hs : s.Ok qs) :
    (State.wLsig s r ok nonHt dur n).Ok qs := by
  unfold State.wLsig
  repeat' first
    | with_reducible assumption
    | with_reducible apply State.medBusy_ok
    | with_reducible apply State.setWrx_ok
    | with_reducible apply State.wCommit_ok
    | with_reducible apply State.wphyCnt_ok
    | with_reducible apply State.wrxSearch_ok
    | split

theorem execWlanLsigEnd_ok {qs : List Instr} (r : ℕ) (ok : Bool) (nonHt : Bool) (dur : ℕ) (n : ℕ) {s : State} {u : State} (hs : s.Ok qs) (e : execWlanLsigEnd r ok nonHt dur n s = .next u) :
    u.Ok qs := by
  unfold execWlanLsigEnd at e; cases e
  repeat' first
    | with_reducible assumption
    | with_reducible apply State.wLsig_ok

theorem State.wSig_ok {qs : List Instr} {s : State} (r fmt : ℕ) (g : Sig) (mine : Bool) (tb : Bool) (dur : ℕ) (n : ℕ) (hs : s.Ok qs) :
    (State.wSig s r fmt g mine tb dur n).Ok qs := by
  unfold State.wSig
  repeat' first
    | with_reducible assumption
    | with_reducible apply State.setWrx_ok
    | with_reducible apply State.wCommit_ok
    | with_reducible apply State.wphyCnt_ok
    | with_reducible apply State.wrxSearch_ok
    | split

theorem execWlanSigEnd_ok {qs : List Instr} (r fmt : ℕ) (g : Sig) (mine : Bool) (tb : Bool) (dur : ℕ) (n : ℕ) {s : State} {u : State} (hs : s.Ok qs) (e : execWlanSigEnd r fmt g mine tb dur n s = .next u) :
    u.Ok qs := by
  unfold execWlanSigEnd at e; cases e
  repeat' first
    | with_reducible assumption
    | with_reducible apply State.wSig_ok

theorem State.wRestart_ok {qs : List Instr} {s : State} (r : ℕ) (power : ℤ) (hs : s.Ok qs) :
    (State.wRestart s r power).Ok qs := by
  unfold State.wRestart
  repeat' first
    | with_reducible assumption
    | with_reducible apply State.setWrx_ok
    | with_reducible apply State.wphyCnt_ok
    | with_reducible apply State.wrxFree_ok
    | with_reducible refine ite_ok ?_ ?_

theorem execWlanRestart_ok {qs : List Instr} (r : ℕ) (power : ℤ) {s : State} {u : State} (hs : s.Ok qs) (e : execWlanRestart r power s = .next u) :
    u.Ok qs := by
  unfold execWlanRestart at e; cases e
  repeat' first
    | with_reducible assumption
    | with_reducible apply State.wRestart_ok

theorem State.wAbort_ok {qs : List Instr} {s : State} (r : ℕ) (hs : s.Ok qs) :
    (State.wAbort s r).Ok qs := by
  unfold State.wAbort
  repeat' first
    | with_reducible assumption
    | with_reducible apply State.wphyCnt_ok
    | with_reducible apply State.wrxFree_ok
    | with_reducible apply State.wrxSearch_ok
    | split

theorem State.wBuf_ok {qs : List Instr} {s : State} (r : ℕ) (n : ℕ) (hs : s.Ok qs) :
    (State.wBuf s r n).2.Ok qs := by
  unfold State.wBuf
  repeat' first
    | with_reducible assumption
    | (intro t; refine (have ht : State.Ok qs t := ?_; ?_); (on_goal 2 => clear_value t); (on_goal 1 => subst t))
    | (intro t; refine (have ht : State.Ok qs t.2 := ?_; ?_); (on_goal 2 => clear_value t); (on_goal 1 => subst t))
    | intro t
    | lift_lets
    | with_reducible apply State.bufAlloc_ok
    | with_reducible apply State.bufRelease_ok
    | with_reducible refine State.resvSlot_ok _ ?_ (by with_reducible assumption)
    | with_reducible apply State.setWrx_ok
    | with_reducible apply State.unresv_ok
    | split

theorem State.wHand_ok {qs : List Instr} {s : State} (r : ℕ) (fmt : ℕ) (rep : WRep) (d : List Byte) (hs : s.Ok qs) :
    (State.wHand s r fmt rep d).Ok qs := by
  unfold State.wHand
  extract_lets p t
  have hp : p.2.Ok qs := State.wBuf_ok _ _ hs
  have ht : t.Ok qs := hp
  clear_value t
  split
  · exact State.raise_ok _ _ (State.wphyCnt_ok _ _ ht)
  · extract_lets t c
    have hc : c.2.Ok qs := State.islandCommit_ok _ _ _ _ (State.pokeData_ok _ _ _ (State.pokeHdr_ok _ _ _ ht))
    clear_value c
    split
    · exact State.bufRelease_ok _ hc
    · exact ite_ok (State.secAsk_ok _ _ _ _ hc) hc

theorem State.staLearn_ok {qs : List Instr} {s : State} (r : ℕ) (p : WPsdu) (d : List Byte) (hs : s.Ok qs) :
    (State.staLearn s r p d).Ok qs := by
  unfold State.staLearn
  repeat' first
    | with_reducible assumption
    | split
    | with_reducible apply State.setWl_ok

theorem State.wWalk_ok {qs : List Instr} {s : State} (r : ℕ) (fmt : ℕ) (p : WPsdu) (hs : s.Ok qs) :
    (State.wWalk s r fmt p).Ok qs := by
  unfold State.wWalk
  repeat' first
    | with_reducible assumption
    | with_reducible apply State.staLearn_ok
    | with_reducible apply State.wHand_ok
    | with_reducible apply State.wphyCnt_ok
    | with_reducible refine foldl_ok ?_ (fun t e ht => ?_)
    | split

theorem State.wmacCnt_ok {qs : List Instr} {s : State} (r : ℕ) (n : ℕ) (hs : s.Ok qs) :
    (State.wmacCnt s r n).Ok qs := by
  unfold State.wmacCnt
  repeat' first
    | with_reducible assumption
    | with_reducible apply State.bump_ok

theorem State.wEqExport_ok {qs : List Instr} {s : State} (r : ℕ) (l : List EqUser) (fmt : ℕ) (hs : s.Ok qs) :
    (State.wEqExport s r l fmt).Ok qs := by
  unfold State.wEqExport
  repeat' first
    | with_reducible assumption
    | split
    | with_reducible apply State.dmaWord_ok
    | with_reducible apply State.raise_ok
    | with_reducible apply State.sets_ok
    | with_reducible refine foldl_ok ?_ (fun t e ht => ?_)

theorem State.wEqArm_ok {qs : List Instr} {s : State} (rq : Rq) (r : ℕ) (v : ℕ) (hs : s.Ok qs) :
    (State.wEqArm s rq r v).Ok qs := by
  unfold State.wEqArm
  repeat' first
    | with_reducible assumption
    | with_reducible apply State.errRec_ok
    | with_reducible apply State.set_ok
    | with_reducible refine ite_ok ?_ ?_

theorem State.setGrantW_ok {qs : List Instr} {s : State} (i : ℕ) (w : ℕ) (v : ℕ) (hs : s.Ok qs) :
    (State.setGrantW s i w v).Ok qs := by
  unfold State.setGrantW
  repeat' first
    | with_reducible assumption
    | with_reducible apply State.setWl_ok

theorem State.grantExp_ok {qs : List Instr} {s : State} (i : ℕ) (hs : s.Ok qs) :
    (State.grantExp s i).Ok qs := by
  unfold State.grantExp
  repeat' first
    | with_reducible assumption
    | with_reducible apply State.raise_ok
    | with_reducible apply State.setGrantW_ok
    | with_reducible refine ite_ok ?_ ?_

theorem execGrantExpire_ok {qs : List Instr} (idx : ℕ) {s : State} {u : State} (hs : s.Ok qs) (e : execGrantExpire idx s = .next u) :
    u.Ok qs := by
  unfold execGrantExpire at e; cases e
  repeat' first
    | with_reducible assumption
    | with_reducible apply State.grantExp_ok

theorem State.chanCommit_ok {qs : List Instr} {s : State} (r : ℕ) (hs : s.Ok qs) :
    (State.chanCommit s r).Ok qs := by
  unfold State.chanCommit
  repeat' first
    | with_reducible assumption
    | with_reducible apply State.raise_ok
    | with_reducible apply State.set_ok
    | with_reducible apply State.setWl_ok
    | with_reducible refine ite_ok ?_ ?_

theorem State.chanApply_ok {qs : List Instr} {s : State} (r : ℕ) (hs : s.Ok qs) :
    (State.chanApply s r).Ok qs := by
  unfold State.chanApply
  repeat' first
    | with_reducible assumption
    | with_reducible apply State.quietAgain_ok
    | with_reducible apply State.raise_ok
    | with_reducible apply State.rxEntry_ok
    | with_reducible apply State.set_ok
    | with_reducible apply State.setWl_ok
    | split

theorem execChannelApply_ok {qs : List Instr} (r : ℕ) {s : State} {u : State} (hs : s.Ok qs) (e : execChannelApply r s = .next u) :
    u.Ok qs := by
  unfold execChannelApply at e; cases e
  repeat' first
    | with_reducible assumption
    | with_reducible apply State.chanApply_ok

end Sys2Proof.Machine
end

