-- ==== Sys2Proof/Laws/KeepMld.lean ====
section
/-!
SUPPORT. The operations of Machine/Mld.lean keep what Laws/Keep.lean says.
-/

set_option linter.all false

namespace Sys2Proof.Machine

theorem State.mldCnt_ok {qs : List Instr} {s : State} (n : ℕ) (hs : s.Ok qs) :
    (State.mldCnt s n).Ok qs := by
  unfold State.mldCnt
  repeat' first
    | with_reducible assumption
    | with_reducible apply State.bump_ok

theorem State.tsfWrite_ok {qs : List Instr} {s : State} (reg : ℕ) (v : ℕ) (hs : s.Ok qs) :
    (State.tsfWrite s reg v).Ok qs := by
  unfold State.tsfWrite
  repeat' first
    | with_reducible assumption
    | with_reducible apply State.set_ok
    | with_reducible apply State.setWl_ok

theorem State.wDrop_ok {qs : List Instr} {s : State} (h : ℕ) (hs : s.Ok qs) :
    (State.wDrop s h).Ok qs := by
  unfold State.wDrop
  repeat' first
    | with_reducible assumption
    | with_reducible apply State.setWl_ok

theorem State.wChange_ok {qs : List Instr} {s : State} (h : ℕ) (g : WEnt → WEnt) (hs : s.Ok qs) :
    (State.wChange s h g).Ok qs := by
  unfold State.wChange
  repeat' first
    | with_reducible assumption
    | with_reducible apply State.setWl_ok

theorem State.wEnd_ok {qs : List Instr} {s : State} (h : ℕ) (status : ℕ) (stamp : Option ℕ) (hs : s.Ok qs) :
    (State.wEnd s h status stamp).Ok qs := by
  unfold State.wEnd
  repeat' first
    | with_reducible assumption
    | split
    | with_reducible apply State.outDone_ok
    | with_reducible apply State.wDrop_ok

theorem State.mldTimed_ok {qs : List Instr} {s : State} (x : WEnt) (rs : List ℕ) (hs : s.Ok qs) :
    (State.mldTimed s x rs).Ok qs := by
  unfold State.mldTimed
  repeat' first
    | with_reducible assumption
    | with_reducible apply State.outDone_ok
    | with_reducible apply State.raise_ok
    | with_reducible apply State.setWl_ok
    | with_reducible apply State.wmacCnt_ok
    | with_reducible refine ite_ok ?_ ?_

theorem State.mldEnqueue_ok {qs : List Instr} {s : State} (o : Out) (miss : Bool) (dl : ℕ) (hs : s.Ok qs) :
    (State.mldEnqueue s o miss dl).Ok qs := by
  unfold State.mldEnqueue
  repeat' first
    | with_reducible assumption
    | with_reducible apply State.mldCnt_ok
    | with_reducible apply State.mldTimed_ok
    | with_reducible apply State.outDone_ok
    | with_reducible apply State.raise_ok
    | with_reducible apply State.setWl_ok
    | with_reducible refine ite_ok ?_ ?_
    | with_reducible refine foldl_ok ?_ (fun t e ht => ?_)
    | split

theorem State.wExpire_ok {qs : List Instr} {s : State} (h : ℕ) (hs : s.Ok qs) :
    (State.wExpire s h).Ok qs := by
  unfold State.wExpire
  repeat' first
    | with_reducible assumption
    | split
    | with_reducible apply State.mldCnt_ok
    | with_reducible apply State.wEnd_ok

theorem execMldFrameExpire_ok {qs : List Instr} (handle : ℕ) {s : State} {u : State} (hs : s.Ok qs) (e : execMldFrameExpire handle s = .next u) :
    u.Ok qs := by
  unfold execMldFrameExpire at e; cases e
  repeat' first
    | with_reducible assumption
    | with_reducible apply State.wExpire_ok

theorem State.staDone_ok {qs : List Instr} {s : State} (result : ℕ) (hs : s.Ok qs) :
    (State.staDone s result).Ok qs := by
  unfold State.staDone
  repeat' first
    | with_reducible assumption
    | with_reducible apply State.raise_ok
    | with_reducible apply State.set_ok
    | with_reducible apply State.setWl_ok

theorem State.staGo_ok {qs : List Instr} {s : State} (rq : Rq) (hs : s.Ok qs) :
    (State.staGo s rq).Ok qs := by
  unfold State.staGo
  repeat' first
    | with_reducible assumption
    | with_reducible apply State.errRec_ok
    | with_reducible apply State.set_ok
    | with_reducible apply State.setWl_ok
    | with_reducible apply State.staDone_ok
    | with_reducible refine ite_ok ?_ ?_

theorem State.staRun_ok {qs : List Instr} {s : State} (op : ℕ) (f : State → List ℕ → State) (hs : s.Ok qs) (hf : ∀ a0 a1, a0.Ok qs → (f a0 a1).Ok qs) :
    (State.staRun s op f).Ok qs := by
  unfold State.staRun
  repeat' first
    | with_reducible assumption
    | with_reducible apply hf
    | split

theorem State.staAdd_ok {qs : List Instr} {s : State} (args : List ℕ) (hs : s.Ok qs) :
    (State.staAdd s args).Ok qs := by
  unfold State.staAdd
  repeat' first
    | with_reducible assumption
    | (intro t; refine (have ht : State.Ok qs t := ?_; ?_); (on_goal 2 => clear_value t); (on_goal 1 => subst t))
    | (intro t; refine (have ht : State.Ok qs t.2 := ?_; ?_); (on_goal 2 => clear_value t); (on_goal 1 => subst t))
    | lift_lets
    | with_reducible apply State.fresh_ok
    | with_reducible apply State.pick_ok
    | with_reducible apply State.set_ok
    | with_reducible apply State.setWl_ok
    | with_reducible apply State.staDone_ok
    | with_reducible refine ite_ok ?_ ?_
    | split

theorem execStaAdd_ok {qs : List Instr} {s : State} {u : State} (hs : s.Ok qs) (e : execStaAdd s = .next u) :
    u.Ok qs := by
  unfold execStaAdd at e; cases e
  repeat' first
    | with_reducible assumption
    | with_reducible apply State.staAdd_ok
    | with_reducible apply State.staRun_ok

theorem State.staFlushQ_ok {qs : List Instr} {s : State} (e : ℕ) (hs : s.Ok qs) :
    (State.staFlushQ s e).Ok qs := by
  unfold State.staFlushQ
  repeat' first
    | with_reducible assumption
    | with_reducible apply State.mldCnt_ok
    | with_reducible apply State.wEnd_ok
    | with_reducible refine foldl_ok ?_ (fun t e ht => ?_)

theorem State.twtClear_ok {qs : List Instr} {s : State} (a : ℕ) (hs : s.Ok qs) :
    (State.twtClear s a).Ok qs := by
  unfold State.twtClear
  repeat' first
    | with_reducible assumption
    | split
    | with_reducible apply State.setWl_ok

theorem State.staDel_ok {qs : List Instr} {s : State} (args : List ℕ) (hs : s.Ok qs) :
    (State.staDel s args).Ok qs := by
  unfold State.staDel
  repeat' first
    | with_reducible assumption
    | with_reducible apply State.mldCnt_ok
    | with_reducible apply State.outDone_ok
    | with_reducible apply State.setWl_ok
    | with_reducible apply State.staDone_ok
    | with_reducible apply State.staFlushQ_ok
    | with_reducible apply State.twtClear_ok
    | with_reducible refine ite_ok ?_ ?_
    | with_reducible refine foldl_ok ?_ (fun t e ht => ?_)

theorem execStaDel_ok {qs : List Instr} {s : State} {u : State} (hs : s.Ok qs) (e : execStaDel s = .next u) :
    u.Ok qs := by
  unfold execStaDel at e; cases e
  repeat' first
    | with_reducible assumption
    | with_reducible apply State.staDel_ok
    | with_reducible apply State.staRun_ok

theorem State.staSetlink_ok {qs : List Instr} {s : State} (args : List ℕ) (hs : s.Ok qs) :
    (State.staSetlink s args).Ok qs := by
  unfold State.staSetlink
  repeat' first
    | with_reducible assumption
    | intro t
    | lift_lets
    | with_reducible apply State.setWl_ok
    | with_reducible apply State.staDone_ok
    | split

theorem execStaSetlink_ok {qs : List Instr} {s : State} {u : State} (hs : s.Ok qs) (e : execStaSetlink s = .next u) :
    u.Ok qs := by
  unfold execStaSetlink at e; cases e
  repeat' first
    | with_reducible assumption
    | with_reducible apply State.staRun_ok
    | with_reducible apply State.staSetlink_ok

theorem State.staSetmap_ok {qs : List Instr} {s : State} (args : List ℕ) (hs : s.Ok qs) :
    (State.staSetmap s args).Ok qs := by
  unfold State.staSetmap
  repeat' first
    | with_reducible assumption
    | intro t
    | lift_lets
    | with_reducible apply State.setWl_ok
    | with_reducible apply State.staDone_ok
    | split

theorem execStaSetmap_ok {qs : List Instr} {s : State} {u : State} (hs : s.Ok qs) (e : execStaSetmap s = .next u) :
    u.Ok qs := by
  unfold execStaSetmap at e; cases e
  repeat' first
    | with_reducible assumption
    | with_reducible apply State.staRun_ok
    | with_reducible apply State.staSetmap_ok

theorem execStaFlush_ok {qs : List Instr} {s : State} {u : State} (hs : s.Ok qs) (e : execStaFlush s = .next u) :
    u.Ok qs := by
  unfold execStaFlush at e; cases e
  repeat' first
    | with_reducible assumption
    | intro t
    | with_reducible apply State.staDone_ok
    | with_reducible apply State.staFlushQ_ok
    | with_reducible apply State.staRun_ok

theorem State.setTwtW_ok {qs : List Instr} {s : State} (a : ℕ) (w : ℕ) (v : ℕ) (hs : s.Ok qs) :
    (State.setTwtW s a w v).Ok qs := by
  unfold State.setTwtW
  repeat' first
    | with_reducible assumption
    | with_reducible apply State.setWl_ok

theorem State.twtValid_ok {qs : List Instr} {s : State} (rq : Rq) (v : ℕ) (hs : s.Ok qs) :
    (State.twtValid s rq v).Ok qs := by
  unfold State.twtValid
  repeat' first
    | with_reducible assumption
    | with_reducible apply State.errRec_ok
    | with_reducible apply State.setTwtW_ok
    | with_reducible apply State.setWl_ok
    | with_reducible refine ite_ok ?_ ?_

theorem State.spStart_ok {qs : List Instr} {s : State} (a : ℕ) (hs : s.Ok qs) :
    (State.spStart s a).Ok qs := by
  unfold State.spStart
  repeat' first
    | with_reducible assumption
    | split
    | with_reducible apply State.setWl_ok

theorem execTwtSpStart_ok {qs : List Instr} (a : ℕ) {s : State} {u : State} (hs : s.Ok qs) (e : execTwtSpStart a s = .next u) :
    u.Ok qs := by
  unfold execTwtSpStart at e; cases e
  repeat' first
    | with_reducible assumption
    | with_reducible apply State.spStart_ok

theorem execTwtSpEnd_ok {qs : List Instr} (a : ℕ) {s : State} {u : State} (hs : s.Ok qs) (e : execTwtSpEnd a s = .next u) :
    u.Ok qs := by
  unfold execTwtSpEnd at e; cases e
  repeat' first
    | with_reducible assumption
    | split
    | with_reducible apply State.setWl_ok

theorem State.suFmt_ok {qs : List Instr} {s : State} (r : ℕ) (mcs : ℕ) (x : StaS) (hs : s.Ok qs) :
    (State.suFmt s r mcs x).2.Ok qs := by
  unfold State.suFmt
  repeat' first
    | with_reducible assumption
    | split
    | with_reducible apply State.fresh_ok

theorem State.planUser_ok {qs : List Instr} {s : State} (r : ℕ) (ac : ℕ) (fmt : ℕ) (ru : ℕ) (idx : ℕ) (d : ℕ) (nss : ℕ) (e : ℕ) (hs : s.Ok qs) :
    (State.planUser s r ac fmt ru idx d nss e).2.Ok qs := by
  unfold State.planUser
  repeat' first
    | with_reducible assumption
    | split
    | with_reducible apply State.fresh_ok

theorem State.planUsers_ok {qs : List Instr} {s : State} (r : ℕ) (ac : ℕ) (fmt : ℕ) (ru : ℕ) (d : ℕ) (x6 : List (ℕ × ℕ × ℕ)) (hs : s.Ok qs) :
    (State.planUsers s r ac fmt ru d x6).2.Ok qs := by
  induction x6 generalizing s r ac fmt ru d with
  | nil =>
    unfold State.planUsers
    repeat' first
      | with_reducible assumption
      | with_reducible apply ih
      | with_reducible apply State.planUser_ok
  | cons e tl ih =>
    unfold State.planUsers
    repeat' first
      | with_reducible assumption
      | with_reducible apply ih
      | with_reducible apply State.planUser_ok

theorem State.planDl_ok {qs : List Instr} {s : State} (r : ℕ) (ac : ℕ) (used : ℕ) (clear : List Bool) (c : List ℕ) (hs : s.Ok qs) :
    (State.planDl s r ac used clear c).2.Ok qs := by
  unfold State.planDl
  repeat' first
    | with_reducible assumption
    | (intro t; refine (have ht : State.Ok qs t.2 := ?_; ?_); (on_goal 2 => clear_value t); (on_goal 1 => subst t))
    | (intro t; clear_value t)
    | split
    | lift_lets
    | with_reducible apply State.planUsers_ok
    | with_reducible apply State.suFmt_ok

theorem State.planMake_ok {qs : List Instr} {s : State} (r : ℕ) (ac : ℕ) (inp : PlanIn) (hs : s.Ok qs) :
    (State.planMake s r ac inp).2.Ok qs := by
  unfold State.planMake
  repeat' first
    | with_reducible assumption
    | with_reducible apply State.planDl_ok
    | with_reducible apply State.planUsers_ok
    | split

theorem State.planRev_ok {qs : List Instr} {s : State} (r : ℕ) (ac : ℕ) (inp : PlanIn) (hs : s.Ok qs) :
    (State.planRev s r ac inp).Ok qs := by
  unfold State.planRev
  repeat' first
    | with_reducible assumption
    | with_reducible apply State.mldCnt_ok
    | with_reducible apply State.planMake_ok
    | with_reducible apply State.raise_ok
    | with_reducible apply State.setWl_ok
    | with_reducible refine ite_ok ?_ ?_
    | with_reducible refine foldl_ok ?_ (fun t e ht => ?_)

theorem execPlanRevise_ok {qs : List Instr} (r : ℕ) (ac : ℕ) (inp : PlanIn) {s : State} {u : State} (hs : s.Ok qs) (e : execPlanRevise r ac inp s = .next u) :
    u.Ok qs := by
  unfold execPlanRevise at e; cases e
  repeat' first
    | with_reducible assumption
    | with_reducible apply State.planRev_ok

end Sys2Proof.Machine
end

