-- ==== Sys2Proof/Laws/KeepShp.lean ====
section
/-!
SUPPORT. The operations of Machine/Shp.lean keep what Laws/Keep.lean says.
-/

set_option linter.all false

namespace Sys2Proof.Machine

theorem State.setShp_ok {qs : List Instr} {s : State} (n : ℕ) (x : ShpS) (hs : s.Ok qs) :
    (State.setShp s n x).Ok qs := by
  unfold State.setShp
  repeat' first
    | with_reducible assumption
    | with_reducible exact mk_ok (by with_reducible assumption) (by with_reducible rfl)

theorem State.setEmac_ok {qs : List Instr} {s : State} (n : ℕ) (x : EmacS) (hs : s.Ok qs) :
    (State.setEmac s n x).Ok qs := by
  unfold State.setEmac
  repeat' first
    | with_reducible assumption
    | with_reducible exact mk_ok (by with_reducible assumption) (by with_reducible rfl)

theorem State.shpCnt_ok {qs : List Instr} {s : State} (n : ℕ) (k : ℕ) (hs : s.Ok qs) :
    (State.shpCnt s n k).Ok qs := by
  unfold State.shpCnt
  repeat' first
    | with_reducible assumption
    | with_reducible apply State.bump_ok

theorem State.emacCnt_ok {qs : List Instr} {s : State} (n : ℕ) (k : ℕ) (hs : s.Ok qs) :
    (State.emacCnt s n k).Ok qs := by
  unfold State.emacCnt
  repeat' first
    | with_reducible assumption
    | with_reducible apply State.bump_ok

theorem State.emacStat_ok {qs : List Instr} {s : State} (n : ℕ) (k : ℕ) (v : ℕ) (hs : s.Ok qs) :
    (State.emacStat s n k v).Ok qs := by
  unfold State.emacStat
  repeat' first
    | with_reducible assumption
    | with_reducible apply State.raise_ok
    | with_reducible apply State.set_ok
    | with_reducible apply State.sets_ok
    | with_reducible refine ite_ok ?_ ?_

theorem State.sticky_ok {qs : List Instr} {s : State} (n : ℕ) (f : Fld) (hs : s.Ok qs) :
    (State.sticky s n f).Ok qs := by
  unfold State.sticky
  repeat' first
    | with_reducible assumption
    | with_reducible apply State.raiseIf_ok
    | with_reducible apply State.set_ok

theorem State.setShpQ_ok {qs : List Instr} {s : State} (n : ℕ) (c : ℕ) (l : List SEnt) (hs : s.Ok qs) :
    (State.setShpQ s n c l).Ok qs := by
  unfold State.setShpQ
  repeat' first
    | with_reducible assumption
    | with_reducible apply State.setShp_ok

theorem State.shpSync_ok {qs : List Instr} {s : State} (n : ℕ) (hs : s.Ok qs) :
    (State.shpSync s n).Ok qs := by
  unfold State.shpSync
  repeat' first
    | with_reducible assumption
    | with_reducible apply State.setShp_ok

theorem State.slopeBad_ok {qs : List Instr} {s : State} (n : ℕ) (hs : s.Ok qs) :
    (State.slopeBad s n).Ok qs := by
  unfold State.slopeBad
  repeat' first
    | with_reducible assumption
    | with_reducible apply State.raise_ok
    | with_reducible apply State.set_ok

theorem State.refill_ok {qs : List Instr} {s : State} (n : ℕ) (hs : s.Ok qs) :
    (State.refill s n).Ok qs := by
  unfold State.refill
  repeat' first
    | with_reducible assumption
    | with_reducible apply State.set_ok
    | with_reducible apply State.setShp_ok
    | with_reducible apply State.slopeBad_ok
    | with_reducible refine ite_ok ?_ ?_

theorem State.tlShow_ok {qs : List Instr} {s : State} (n : ℕ) (hs : s.Ok qs) :
    (State.tlShow s n).Ok qs := by
  unfold State.tlShow
  repeat' first
    | with_reducible assumption
    | with_reducible apply State.set_ok
    | split

theorem State.tlTell_ok {qs : List Instr} {s : State} (n : ℕ) (t : ℕ) (hs : s.Ok qs) :
    (State.tlTell s n t).Ok qs := by
  unfold State.tlTell
  repeat' first
    | with_reducible assumption
    | with_reducible apply State.sets_ok

theorem State.tlArm_ok {qs : List Instr} {s : State} (n : ℕ) (b : ℕ) (hs : s.Ok qs) :
    (State.tlArm s n b).Ok qs := by
  unfold State.tlArm
  repeat' first
    | with_reducible assumption
    | with_reducible apply State.setShp_ok
    | with_reducible apply State.tlTell_ok

theorem State.tlArmSwap_ok {qs : List Instr} {s : State} (n : ℕ) (b : ℕ) (hs : s.Ok qs) :
    (State.tlArmSwap s n b).Ok qs := by
  unfold State.tlArmSwap
  repeat' first
    | with_reducible assumption
    | with_reducible apply State.setShp_ok
    | with_reducible apply State.tlTell_ok

theorem State.tlRefuse_ok {qs : List Instr} {s : State} (n : ℕ) (cause : ℕ) (hs : s.Ok qs) :
    (State.tlRefuse s n cause).Ok qs := by
  unfold State.tlRefuse
  repeat' first
    | with_reducible assumption
    | with_reducible apply State.raise_ok
    | with_reducible apply State.set_ok

theorem State.tlOn_ok {qs : List Instr} {s : State} (n : ℕ) (hs : s.Ok qs) :
    (State.tlOn s n).Ok qs := by
  unfold State.tlOn
  repeat' first
    | with_reducible assumption
    | intro t
    | lift_lets
    | with_reducible apply State.set_ok
    | with_reducible apply State.tlArm_ok
    | with_reducible apply State.tlRefuse_ok
    | split

theorem State.tlOff_ok {qs : List Instr} {s : State} (n : ℕ) (hs : s.Ok qs) :
    (State.tlOff s n).Ok qs := by
  unfold State.tlOff
  repeat' first
    | with_reducible assumption
    | with_reducible apply State.set_ok
    | with_reducible apply State.setShp_ok
    | with_reducible apply State.tlShow_ok

theorem State.tlSwap_ok {qs : List Instr} {s : State} (n : ℕ) (hs : s.Ok qs) :
    (State.tlSwap s n).Ok qs := by
  unfold State.tlSwap
  repeat' first
    | with_reducible assumption
    | with_reducible apply State.raise_ok
    | with_reducible apply State.set_ok
    | with_reducible apply State.tlArmSwap_ok
    | with_reducible apply State.tlRefuse_ok
    | with_reducible refine ite_ok ?_ ?_
    | split

theorem State.shpEnd_ok {qs : List Instr} {s : State} (e : SEnt) (status : ℕ) (hs : s.Ok qs) :
    (State.shpEnd s e status).Ok qs := by
  unfold State.shpEnd
  repeat' first
    | with_reducible assumption
    | with_reducible apply State.outDone_ok

theorem State.shpLate_ok {qs : List Instr} {s : State} (n : ℕ) (e : SEnt) (far : Bool) (hs : s.Ok qs) :
    (State.shpLate s n e far).Ok qs := by
  unfold State.shpLate
  repeat' first
    | with_reducible assumption
    | with_reducible apply State.emacCnt_ok
    | with_reducible apply State.shpEnd_ok

theorem State.shpFlush_ok {qs : List Instr} {s : State} (n : ℕ) (hs : s.Ok qs) :
    (State.shpFlush s n).Ok qs := by
  unfold State.shpFlush
  repeat' first
    | with_reducible assumption
    | with_reducible apply State.raiseIf_ok
    | with_reducible apply State.setShp_ok
    | with_reducible apply State.shpCnt_ok
    | with_reducible apply State.shpEnd_ok
    | with_reducible refine foldl_ok ?_ (fun t e ht => ?_)

theorem State.gateDrops_ok {qs : List Instr} {s : State} (n : ℕ) (c : ℕ) (x3 : List SEnt) (hs : s.Ok qs) :
    (State.gateDrops s n c x3).Ok qs := by
  induction x3 generalizing s n c with
  | nil =>
    unfold State.gateDrops
    repeat' first
      | with_reducible assumption
      | with_reducible apply ih
      | with_reducible apply State.raise_ok
      | with_reducible apply State.setShpQ_ok
      | with_reducible apply State.shpCnt_ok
      | with_reducible apply State.shpEnd_ok
      | split
  | cons e tl ih =>
    unfold State.gateDrops
    repeat' first
      | with_reducible assumption
      | with_reducible apply ih
      | with_reducible apply State.raise_ok
      | with_reducible apply State.setShpQ_ok
      | with_reducible apply State.shpCnt_ok
      | with_reducible apply State.shpEnd_ok
      | split

theorem State.txNote_ok {qs : List Instr} {s : State} (n : ℕ) (h : ℕ) (status : ℕ) (hs : s.Ok qs) :
    (State.txNote s n h status).Ok qs := by
  unfold State.txNote
  repeat' first
    | with_reducible assumption
    | split
    | with_reducible apply State.emacCnt_ok
    | with_reducible apply State.sticky_ok
    | with_reducible apply State.ueHit_ok

theorem State.ethSend_ok {qs : List Instr} {s : State} (n : ℕ) (c : ℕ) (e : SEnt) (at' : Option ℕ) (hs : s.Ok qs) :
    (State.ethSend s n c e at').Ok qs := by
  unfold State.ethSend
  repeat' first
    | with_reducible assumption
    | with_reducible apply State.setShp_ok

theorem State.pauseStart_ok {qs : List Instr} {s : State} (n : ℕ) (q' : ℕ) (cls : ℕ) (hs : s.Ok qs) :
    (State.pauseStart s n q' cls).Ok qs := by
  unfold State.pauseStart
  repeat' first
    | with_reducible assumption
    | with_reducible apply State.emacCnt_ok
    | with_reducible apply State.set_ok
    | with_reducible apply State.setEmac_ok
    | with_reducible apply State.setShp_ok

theorem State.timedDel_ok {qs : List Instr} {s : State} (n : ℕ) (e : SEnt) (hs : s.Ok qs) :
    (State.timedDel s n e).Ok qs := by
  unfold State.timedDel
  repeat' first
    | with_reducible assumption
    | with_reducible apply State.setShp_ok

theorem State.timedGo_ok {qs : List Instr} {s : State} (n : ℕ) (e : SEnt) (hs : s.Ok qs) :
    (State.timedGo s n e).Ok qs := by
  unfold State.timedGo
  repeat' first
    | with_reducible assumption
    | with_reducible apply State.ethSend_ok
    | with_reducible apply State.shpEnd_ok
    | with_reducible apply State.shpLate_ok
    | with_reducible apply State.timedDel_ok
    | with_reducible apply State.txNote_ok
    | with_reducible refine ite_ok ?_ ?_
    | split

theorem State.timedDue_ok {qs : List Instr} {s : State} (n : ℕ) (hs : s.Ok qs) :
    (State.timedDue s n).Ok qs := by
  unfold State.timedDue
  repeat' first
    | with_reducible assumption
    | with_reducible apply State.timedGo_ok
    | split

theorem State.pickTake_ok {qs : List Instr} {s : State} (n : ℕ) (c : ℕ) (hs : s.Ok qs) :
    (State.pickTake s n c).2.Ok qs := by
  unfold State.pickTake
  repeat' first
    | with_reducible assumption
    | (intro t; refine (have ht : State.Ok qs t := ?_; ?_); (on_goal 2 => clear_value t); (on_goal 1 => subst t))
    | split
    | lift_lets
    | with_reducible apply State.ethSend_ok
    | with_reducible apply State.setShpQ_ok
    | with_reducible apply State.shpEnd_ok
    | with_reducible apply State.txNote_ok

theorem State.pickClass_ok {qs : List Instr} {s : State} (n : ℕ) (hs : s.Ok qs) :
    (State.pickClass s n).2.Ok qs := by
  unfold State.pickClass
  repeat' first
    | with_reducible assumption
    | (intro t; refine (have ht : State.Ok qs t := ?_; ?_); (on_goal 2 => clear_value t); (on_goal 1 => subst t))
    | lift_lets
    | with_reducible apply State.gateDrops_ok
    | with_reducible apply State.pickTake_ok
    | with_reducible refine foldl_ok ?_ (fun t e ht => ?_)
    | split

theorem State.pickNext_ok {qs : List Instr} {s : State} (n : ℕ) (want : Option (ℕ × ℕ)) (hs : s.Ok qs) :
    (State.pickNext s n want).2.Ok qs := by
  unfold State.pickNext
  repeat' first
    | with_reducible assumption
    | split
    | with_reducible apply State.pauseStart_ok
    | with_reducible apply State.pickClass_ok

theorem State.shpPick_ok {qs : List Instr} {s : State} (n : ℕ) (x2 : ℕ) (hs : s.Ok qs) :
    (State.shpPick s n x2).Ok qs := by
  induction x2 generalizing s n with
  | zero =>
    unfold State.shpPick
    repeat' first
      | with_reducible assumption
      | with_reducible apply ih
      | with_reducible apply State.pickNext_ok
      | with_reducible refine ite_ok ?_ ?_
  | succ k ih =>
    unfold State.shpPick
    repeat' first
      | with_reducible assumption
      | with_reducible apply ih
      | with_reducible apply State.pickNext_ok
      | with_reducible refine ite_ok ?_ ?_

theorem State.portSync_ok {qs : List Instr} {s : State} (n : ℕ) (hs : s.Ok qs) :
    (State.portSync s n).Ok qs := by
  unfold State.portSync
  repeat' first
    | with_reducible assumption
    | with_reducible apply State.setEmac_ok
    | with_reducible apply State.shpSync_ok
    | split

theorem State.shpGo_ok {qs : List Instr} {s : State} (n : ℕ) (hs : s.Ok qs) :
    (State.shpGo s n).Ok qs := by
  unfold State.shpGo
  repeat' first
    | with_reducible assumption
    | with_reducible apply State.shpPick_ok
    | with_reducible apply State.timedDue_ok

theorem State.boundaryOp_ok {qs : List Instr} {s : State} (n : ℕ) (hs : s.Ok qs) :
    (State.boundaryOp s n).Ok qs := by
  unfold State.boundaryOp
  repeat' first
    | with_reducible assumption
    | (intro t; refine (have ht : State.Ok qs t := ?_; ?_); (on_goal 2 => clear_value t); (on_goal 1 => subst t))
    | lift_lets
    | with_reducible apply State.emacStat_ok
    | with_reducible apply State.outDone_ok
    | with_reducible apply State.portSync_ok
    | with_reducible apply State.set_ok
    | with_reducible apply State.setShp_ok
    | with_reducible apply State.shpGo_ok
    | with_reducible apply State.txNote_ok
    | split

theorem execFrameBoundary_ok {qs : List Instr} (n : ℕ) {s : State} {u : State} (hs : s.Ok qs) (e : execFrameBoundary n s = .next u) :
    u.Ok qs := by
  unfold execFrameBoundary at e; cases e
  repeat' first
    | with_reducible assumption
    | with_reducible apply State.boundaryOp_ok
    | split

theorem State.shpLaunch_ok {qs : List Instr} {s : State} (n : ℕ) (h : ℕ) (hs : s.Ok qs) :
    (State.shpLaunch s n h).Ok qs := by
  unfold State.shpLaunch
  repeat' first
    | with_reducible assumption
    | (intro t; refine (have ht : State.Ok qs t := ?_; ?_); (on_goal 2 => clear_value t); (on_goal 1 => subst t))
    | lift_lets
    | with_reducible apply State.portSync_ok
    | with_reducible apply State.shpGo_ok
    | with_reducible apply State.timedGo_ok
    | split

theorem State.shpEnqueue_ok {qs : List Instr} {s : State} (o : Out) (miss : Bool) (hs : s.Ok qs) :
    (State.shpEnqueue s o miss).Ok qs := by
  unfold State.shpEnqueue
  repeat' first
    | with_reducible assumption
    | with_reducible apply State.portSync_ok
    | with_reducible apply State.raise_ok
    | with_reducible apply State.setShp_ok
    | with_reducible apply State.setShpQ_ok
    | with_reducible apply State.shpCnt_ok
    | with_reducible apply State.shpEnd_ok
    | with_reducible apply State.shpGo_ok
    | with_reducible apply State.shpLate_ok
    | with_reducible refine ite_ok ?_ ?_

theorem execCreditRefill_ok {qs : List Instr} (n : ℕ) {s : State} {u : State} (hs : s.Ok qs) (e : execCreditRefill n s = .next u) :
    u.Ok qs := by
  unfold execCreditRefill at e; cases e
  repeat' first
    | with_reducible assumption
    | with_reducible apply State.portSync_ok
    | with_reducible apply State.refill_ok
    | with_reducible apply State.shpGo_ok
    | split

theorem State.tlBegin_ok {qs : List Instr} {s : State} (n : ℕ) (hs : s.Ok qs) :
    (State.tlBegin s n).Ok qs := by
  unfold State.tlBegin
  repeat' first
    | with_reducible assumption
    | with_reducible apply State.portSync_ok
    | with_reducible apply State.raise_ok
    | with_reducible apply State.setShp_ok
    | with_reducible apply State.sets_ok
    | with_reducible apply State.shpGo_ok
    | with_reducible apply State.tlShow_ok
    | with_reducible refine ite_ok ?_ ?_

theorem execTlStart_ok {qs : List Instr} (n : ℕ) {s : State} {u : State} (hs : s.Ok qs) (e : execTlStart n s = .next u) :
    u.Ok qs := by
  unfold execTlStart at e; cases e
  repeat' first
    | with_reducible assumption
    | with_reducible apply State.tlBegin_ok
    | split

theorem State.tlNext_ok {qs : List Instr} {s : State} (n : ℕ) (hs : s.Ok qs) :
    (State.tlNext s n).Ok qs := by
  unfold State.tlNext
  repeat' first
    | with_reducible assumption
    | with_reducible apply State.portSync_ok
    | with_reducible apply State.shpGo_ok
    | with_reducible apply State.tlShow_ok
    | split

theorem execTlEntryBoundary_ok {qs : List Instr} (n : ℕ) {s : State} {u : State} (hs : s.Ok qs) (e : execTlEntryBoundary n s = .next u) :
    u.Ok qs := by
  unfold execTlEntryBoundary at e; cases e
  repeat' first
    | with_reducible assumption
    | with_reducible apply State.tlNext_ok
    | split

theorem execCreditReachesZero_ok {qs : List Instr} (n : ℕ) (c : ℕ) {s : State} {u : State} (hs : s.Ok qs) (e : execCreditReachesZero n c s = .next u) :
    u.Ok qs := by
  unfold execCreditReachesZero at e; cases e
  repeat' first
    | with_reducible assumption
    | with_reducible apply State.portSync_ok
    | with_reducible apply State.shpGo_ok
    | split

theorem State.tickTime_ok {qs : List Instr} {s : State} (hs : s.Ok qs) :
    (State.tickTime s).Ok qs := by
  unfold State.tickTime
  repeat' first
    | with_reducible assumption
    | with_reducible apply State.mlcPath_ok
    | with_reducible apply State.tlBegin_ok
    | with_reducible apply State.tlNext_ok
    | with_reducible apply tickOp_ok
    | with_reducible refine foldl_ok ?_ (fun t e ht => ?_)
    | split

theorem State.pauseAsk_ok {qs : List Instr} {s : State} (rq : Rq) (n : ℕ) (hs : s.Ok qs) :
    (State.pauseAsk s rq n).Ok qs := by
  unfold State.pauseAsk
  repeat' first
    | with_reducible assumption
    | with_reducible apply State.errRec_ok
    | with_reducible apply State.portSync_ok
    | with_reducible apply State.set_ok
    | with_reducible apply State.setEmac_ok
    | with_reducible apply State.shpGo_ok
    | split

theorem State.pauseAgain_ok {qs : List Instr} {s : State} (n : ℕ) (hs : s.Ok qs) :
    (State.pauseAgain s n).Ok qs := by
  unfold State.pauseAgain
  repeat' first
    | with_reducible assumption
    | split
    | with_reducible apply State.portSync_ok
    | with_reducible apply State.set_ok
    | with_reducible apply State.setEmac_ok
    | with_reducible apply State.shpGo_ok

theorem execPauseRepeat_ok {qs : List Instr} (n : ℕ) {s : State} {u : State} (hs : s.Ok qs) (e : execPauseRepeat n s = .next u) :
    u.Ok qs := by
  unfold execPauseRepeat at e; cases e
  repeat' first
    | with_reducible assumption
    | with_reducible apply State.pauseAgain_ok
    | split

theorem State.lpiIn_ok {qs : List Instr} {s : State} (n : ℕ) (hs : s.Ok qs) :
    (State.lpiIn s n).Ok qs := by
  unfold State.lpiIn
  repeat' first
    | with_reducible assumption
    | with_reducible apply State.emacCnt_ok
    | with_reducible apply State.portSync_ok
    | with_reducible apply State.set_ok
    | with_reducible refine ite_ok ?_ ?_

theorem execLpiEnter_ok {qs : List Instr} (n : ℕ) {s : State} {u : State} (hs : s.Ok qs) (e : execLpiEnter n s = .next u) :
    u.Ok qs := by
  unfold execLpiEnter at e; cases e
  repeat' first
    | with_reducible assumption
    | with_reducible apply State.lpiIn_ok
    | split

theorem State.lpiOut_ok {qs : List Instr} {s : State} (n : ℕ) (hs : s.Ok qs) :
    (State.lpiOut s n).Ok qs := by
  unfold State.lpiOut
  repeat' first
    | with_reducible assumption
    | with_reducible apply State.portSync_ok
    | with_reducible apply State.set_ok
    | with_reducible apply State.setEmac_ok
    | split

theorem execLpiExit_ok {qs : List Instr} (n : ℕ) {s : State} {u : State} (hs : s.Ok qs) (e : execLpiExit n s = .next u) :
    u.Ok qs := by
  unfold execLpiExit at e; cases e
  repeat' first
    | with_reducible assumption
    | with_reducible apply State.lpiOut_ok
    | split

theorem execRxLpiChange_ok {qs : List Instr} (n : ℕ) (on : Bool) {s : State} {u : State} (hs : s.Ok qs) (e : execRxLpiChange n on s = .next u) :
    u.Ok qs := by
  unfold execRxLpiChange at e; cases e
  repeat' first
    | with_reducible assumption
    | with_reducible apply State.set_ok
    | split

end Sys2Proof.Machine
end

