-- ==== Sys2Proof/Laws/KeepLane.lean ====
section
/-!
SUPPORT. The operations of Machine/Lane.lean keep what Laws/Keep.lean says.
-/

set_option linter.all false

namespace Sys2Proof.Machine

theorem State.laneTo_ok {qs : List Instr} {s : State} (n : ℕ) (st : ℕ) (hs : s.Ok qs) :
    (State.laneTo s n st).Ok qs := by
  unfold State.laneTo
  repeat' first
    | with_reducible assumption
    | with_reducible apply State.raiseIf_ok
    | with_reducible apply State.set_ok

theorem State.laneOn_ok {qs : List Instr} {s : State} (n : ℕ) (hs : s.Ok qs) :
    (State.laneOn s n).Ok qs := by
  unfold State.laneOn
  repeat' first
    | with_reducible assumption
    | with_reducible apply State.laneTo_ok
    | with_reducible apply State.set_ok
    | split

theorem State.laneOff_ok {qs : List Instr} {s : State} (n : ℕ) (hs : s.Ok qs) :
    (State.laneOff s n).Ok qs := by
  unfold State.laneOff
  repeat' first
    | with_reducible assumption
    | with_reducible apply State.sets_ok
    | split

theorem State.laneSignal_ok {qs : List Instr} {s : State} (n : ℕ) (hs : s.Ok qs) :
    (State.laneSignal s n).Ok qs := by
  unfold State.laneSignal
  repeat' first
    | with_reducible assumption
    | with_reducible apply State.laneTo_ok
    | with_reducible apply State.set_ok
    | split

theorem execSignalDetect_ok {qs : List Instr} (n : ℕ) {s : State} {u : State} (hs : s.Ok qs) (e : execSignalDetect n s = .next u) :
    u.Ok qs := by
  unfold execSignalDetect at e; cases e
  repeat' first
    | with_reducible assumption
    | with_reducible apply State.laneSignal_ok
    | split

theorem State.laneAn_ok {qs : List Instr} {s : State} (n : ℕ) (common : Bool) (fec : ℕ) (pause : ℕ) (eee : Bool) (hs : s.Ok qs) :
    (State.laneAn s n common fec pause eee).Ok qs := by
  unfold State.laneAn
  repeat' first
    | with_reducible assumption
    | with_reducible apply State.laneTo_ok
    | with_reducible apply State.raise_ok
    | with_reducible apply State.satAdd_ok
    | with_reducible apply State.sets_ok
    | split

theorem execAnComplete_ok {qs : List Instr} (n : ℕ) (common : Bool) (fec : ℕ) (pause : ℕ) (eee : Bool) {s : State} {u : State} (hs : s.Ok qs) (e : execAnComplete n common fec pause eee s = .next u) :
    u.Ok qs := by
  unfold execAnComplete at e; cases e
  repeat' first
    | with_reducible assumption
    | with_reducible apply State.laneAn_ok
    | split

theorem execTrainComplete_ok {qs : List Instr} (n : ℕ) (pre : ℕ) (main : ℕ) (post : ℕ) {s : State} {u : State} (hs : s.Ok qs) (e : execTrainComplete n pre main post s = .next u) :
    u.Ok qs := by
  unfold execTrainComplete at e; cases e
  repeat' first
    | with_reducible assumption
    | with_reducible apply State.laneTo_ok
    | with_reducible apply State.sets_ok
    | split

theorem execTrainTimeout_ok {qs : List Instr} (n : ℕ) {s : State} {u : State} (hs : s.Ok qs) (e : execTrainTimeout n s = .next u) :
    u.Ok qs := by
  unfold execTrainTimeout at e; cases e
  repeat' first
    | with_reducible assumption
    | with_reducible apply State.laneTo_ok
    | with_reducible apply State.raise_ok
    | with_reducible apply State.satAdd_ok
    | split

theorem execWordLock_ok {qs : List Instr} (n : ℕ) {s : State} {u : State} (hs : s.Ok qs) (e : execWordLock n s = .next u) :
    u.Ok qs := by
  unfold execWordLock at e; cases e
  repeat' first
    | with_reducible assumption
    | with_reducible apply State.laneTo_ok
    | with_reducible apply State.set_ok
    | split

theorem execLockTimeout_ok {qs : List Instr} (n : ℕ) {s : State} {u : State} (hs : s.Ok qs) (e : execLockTimeout n s = .next u) :
    u.Ok qs := by
  unfold execLockTimeout at e; cases e
  repeat' first
    | with_reducible assumption
    | with_reducible apply State.laneTo_ok
    | split

theorem execExchangeComplete_ok {qs : List Instr} (n : ℕ) (speed : ℕ) (pause : ℕ) {s : State} {u : State} (hs : s.Ok qs) (e : execExchangeComplete n speed pause s = .next u) :
    u.Ok qs := by
  unfold execExchangeComplete at e; cases e
  repeat' first
    | with_reducible assumption
    | with_reducible apply State.laneTo_ok
    | with_reducible apply State.set_ok
    | with_reducible apply State.setEmac_ok
    | split

theorem execLockLoss_ok {qs : List Instr} (n : ℕ) {s : State} {u : State} (hs : s.Ok qs) (e : execLockLoss n s = .next u) :
    u.Ok qs := by
  unfold execLockLoss at e; cases e
  repeat' first
    | with_reducible assumption
    | with_reducible apply State.laneTo_ok
    | with_reducible apply State.raise_ok
    | with_reducible apply State.satAdd_ok
    | with_reducible apply State.set_ok
    | split

theorem State.laneRetrain_ok {qs : List Instr} {s : State} (n : ℕ) (hs : s.Ok qs) :
    (State.laneRetrain s n).Ok qs := by
  unfold State.laneRetrain
  repeat' first
    | with_reducible assumption
    | with_reducible apply State.laneTo_ok
    | with_reducible apply State.set_ok
    | split

theorem State.laneIdle_ok {qs : List Instr} {s : State} (n : ℕ) (on : Bool) (hs : s.Ok qs) :
    (State.laneIdle s n on).Ok qs := by
  unfold State.laneIdle
  repeat' first
    | with_reducible assumption
    | with_reducible apply State.portSync_ok
    | with_reducible apply State.set_ok
    | with_reducible apply State.shpGo_ok
    | split

theorem State.ethGive_ok {qs : List Instr} {s : State} (n : ℕ) (hs : s.Ok qs) :
    (State.ethGive s n).Ok qs := by
  unfold State.ethGive
  repeat' first
    | with_reducible assumption
    | split
    | with_reducible apply State.bufRelease_ok
    | with_reducible apply State.setEmac_ok
    | with_reducible apply State.unresv_ok

theorem State.txCut_ok {qs : List Instr} {s : State} (n : ℕ) (status : ℕ) (hs : s.Ok qs) :
    (State.txCut s n status).Ok qs := by
  unfold State.txCut
  repeat' first
    | with_reducible assumption
    | split
    | with_reducible apply State.setShp_ok
    | with_reducible apply State.shpEnd_ok
    | with_reducible apply State.txNote_ok

theorem State.linkLost_ok {qs : List Instr} {s : State} (n : ℕ) (hs : s.Ok qs) :
    (State.linkLost s n).Ok qs := by
  unfold State.linkLost
  repeat' first
    | with_reducible assumption
    | with_reducible apply State.emacCnt_ok
    | with_reducible apply State.ethGive_ok
    | with_reducible apply State.portSync_ok
    | with_reducible apply State.setEmac_ok
    | with_reducible apply State.sets_ok
    | with_reducible apply State.shpFlush_ok
    | with_reducible apply State.txCut_ok
    | split

theorem State.linkDownOp_ok {qs : List Instr} {s : State} (n : ℕ) (loc : Bool) (rem : Bool) (hs : s.Ok qs) :
    (State.linkDownOp s n loc rem).Ok qs := by
  unfold State.linkDownOp
  repeat' first
    | with_reducible assumption
    | with_reducible apply State.linkLost_ok
    | with_reducible apply State.raise_ok
    | with_reducible apply State.sets_ok
    | with_reducible apply State.sticky_ok
    | split

theorem execLinkDown_ok {qs : List Instr} (n : ℕ) (loc : Bool) (rem : Bool) {s : State} {u : State} (hs : s.Ok qs) (e : execLinkDown n loc rem s = .next u) :
    u.Ok qs := by
  unfold execLinkDown at e; cases e
  repeat' first
    | with_reducible assumption
    | with_reducible apply State.linkDownOp_ok
    | split

theorem State.linkUpOp_ok {qs : List Instr} {s : State} (n : ℕ) (hs : s.Ok qs) :
    (State.linkUpOp s n).Ok qs := by
  unfold State.linkUpOp
  repeat' first
    | with_reducible assumption
    | with_reducible apply State.portSync_ok
    | with_reducible apply State.raise_ok
    | with_reducible apply State.setEmac_ok
    | with_reducible apply State.sets_ok
    | with_reducible apply State.shpGo_ok
    | with_reducible apply State.slopeBad_ok
    | split

theorem execLinkUp_ok {qs : List Instr} (n : ℕ) {s : State} {u : State} (hs : s.Ok qs) (e : execLinkUp n s = .next u) :
    u.Ok qs := by
  unfold execLinkUp at e; cases e
  repeat' first
    | with_reducible assumption
    | with_reducible apply State.linkUpOp_ok
    | split

theorem State.ethStart_ok {qs : List Instr} {s : State} (n : ℕ) (hs : s.Ok qs) :
    (State.ethStart s n).Ok qs := by
  unfold State.ethStart
  repeat' first
    | with_reducible assumption
    | (intro t; refine (have ht : State.Ok qs t.2 := ?_; ?_); (on_goal 2 => clear_value t); (on_goal 1 => subst t))
    | (intro t; refine (have hf : ∀ a, State.Ok qs a → State.Ok qs (t a) := ?_; ?_); (on_goal 2 => clear_value t); (on_goal 1 => subst t); (on_goal 1 => intro a ha); (on_goal 1 => beta_reduce))
    | with_reducible apply hf
    | lift_lets
    | with_reducible apply State.bufAlloc_ok
    | with_reducible apply State.bufRelease_ok
    | with_reducible apply State.emacCnt_ok
    | with_reducible refine State.resvSlot_ok _ ?_ (by with_reducible assumption)
    | with_reducible apply State.setEmac_ok
    | with_reducible apply State.sticky_ok
    | split

theorem execEthRxStart_ok {qs : List Instr} (n : ℕ) {s : State} {u : State} (hs : s.Ok qs) (e : execEthRxStart n s = .next u) :
    u.Ok qs := by
  unfold execEthRxStart at e; cases e
  repeat' first
    | with_reducible assumption
    | with_reducible apply State.ethStart_ok
    | split

theorem State.pauseLoad_ok {qs : List Instr} {s : State} (n : ℕ) (c : ℕ) (q' : ℕ) (hs : s.Ok qs) :
    (State.pauseLoad s n c q').Ok qs := by
  unfold State.pauseLoad
  repeat' first
    | with_reducible assumption
    | with_reducible apply State.set_ok
    | with_reducible apply State.setEmac_ok

theorem State.pauseRx_ok {qs : List Instr} {s : State} (n : ℕ) (l : List Byte) (hs : s.Ok qs) :
    (State.pauseRx s n l).Ok qs := by
  unfold State.pauseRx
  repeat' first
    | with_reducible assumption
    | with_reducible apply State.pauseLoad_ok
    | with_reducible apply State.raise_ok
    | with_reducible apply State.shpGo_ok
    | with_reducible refine ite_ok ?_ ?_
    | with_reducible refine foldl_ok ?_ (fun t e ht => ?_)

theorem ethTell_ok {qs : List Instr} (n : ℕ) (h : ℕ) (sec : Bool) (l : List Byte) (p : Option ℕ × State) (hp : p.2.Ok qs) :
    (ethTell n h sec l p).Ok qs := by
  unfold ethTell
  repeat' first
    | with_reducible assumption
    | split
    | with_reducible apply State.bufRelease_ok
    | with_reducible apply State.secAsk_ok

theorem State.ethHand_ok {qs : List Instr} {s : State} (n : ℕ) (h : ℕ) (stamp : ℕ) (trn : ℕ) (l : List Byte) (hs : s.Ok qs) :
    (State.ethHand s n h stamp trn l).Ok qs := by
  unfold State.ethHand
  repeat' first
    | with_reducible assumption
    | with_reducible apply State.emacStat_ok
    | with_reducible apply State.islandCommit_ok
    | with_reducible apply State.pokeData_ok
    | with_reducible apply State.pokeHdr_ok
    | with_reducible apply State.pokeN_ok
    | with_reducible apply State.setEmac_ok
    | with_reducible apply ethTell_ok

theorem State.codeErr_ok {qs : List Instr} {s : State} (n : ℕ) (hs : s.Ok qs) :
    (State.codeErr s n).Ok qs := by
  unfold State.codeErr
  repeat' first
    | with_reducible assumption
    | with_reducible apply State.satAdd_ok
    | split

theorem State.ethEnd_ok {qs : List Instr} {s : State} (n : ℕ) (l : List Byte) (code : Bool) (hs : s.Ok qs) :
    (State.ethEnd s n l code).Ok qs := by
  unfold State.ethEnd
  repeat' first
    | with_reducible assumption
    | (intro t; refine (have ht : State.Ok qs t := ?_; ?_); (on_goal 2 => clear_value t); (on_goal 1 => subst t))
    | (intro t; refine (have hf : ∀ x y, State.Ok qs (t x y) := ?_; ?_); (on_goal 2 => clear_value t); (on_goal 1 => subst t); (on_goal 1 => intro x y); (on_goal 1 => beta_reduce))
    | with_reducible apply hf
    | lift_lets
    | with_reducible apply State.codeErr_ok
    | with_reducible apply State.emacCnt_ok
    | with_reducible apply State.ethGive_ok
    | with_reducible apply State.ethHand_ok
    | with_reducible apply State.pauseRx_ok
    | with_reducible apply State.portSync_ok
    | with_reducible apply State.sticky_ok
    | with_reducible refine ite_ok ?_ ?_
    | split

theorem execEthRxEnd_ok {qs : List Instr} (n : ℕ) (data : List Byte) (code : Bool) {s : State} {u : State} (hs : s.Ok qs) (e : execEthRxEnd n data code s = .next u) :
    u.Ok qs := by
  unfold execEthRxEnd at e; cases e
  repeat' first
    | with_reducible assumption
    | with_reducible apply State.ethEnd_ok
    | split

theorem execPauseTimerExpire_ok {qs : List Instr} (n : ℕ) (c : ℕ) {s : State} {u : State} (hs : s.Ok qs) (e : execPauseTimerExpire n c s = .next u) :
    u.Ok qs := by
  unfold execPauseTimerExpire at e; cases e
  repeat' first
    | with_reducible assumption
    | with_reducible apply State.pauseLoad_ok
    | with_reducible apply State.portSync_ok
    | with_reducible apply State.shpGo_ok
    | with_reducible refine foldl_ok ?_ (fun t e ht => ?_)
    | split

end Sys2Proof.Machine
end

