-- ==== Sys2Proof/Laws/KeepRte.lean ====
section
/-!
SUPPORT. The operations of Machine/Rte.lean keep what Laws/Keep.lean says.
-/

set_option linter.all false

namespace Sys2Proof.Machine

theorem State.rteCnt_ok {qs : List Instr} {s : State} (n : ℕ) (hs : s.Ok qs) :
    (State.rteCnt s n).Ok qs := by
  unfold State.rteCnt
  repeat' first
    | with_reducible assumption
    | with_reducible apply State.bump_ok

theorem State.setRte_ok {qs : List Instr} {s : State} (r : RteS) (hs : s.Ok qs) :
    (State.setRte s r).Ok qs := by
  unfold State.setRte
  repeat' first
    | with_reducible assumption
    | with_reducible exact mk_ok (by with_reducible assumption) (by with_reducible rfl)

theorem State.commitStart_ok {qs : List Instr} {s : State} (rq : Rq) (hs : s.Ok qs) :
    (State.commitStart s rq).Ok qs := by
  unfold State.commitStart
  repeat' first
    | with_reducible assumption
    | with_reducible apply State.opStart_ok
    | with_reducible apply State.setRte_ok
    | with_reducible refine ite_ok ?_ ?_

theorem execRteCommit_ok {qs : List Instr} (rq : Rq) {s : State} {u : State} (hs : s.Ok qs) (e : execRteCommit rq s = .next u) :
    u.Ok qs := by
  unfold execRteCommit at e; cases e
  repeat' first
    | with_reducible assumption
    | with_reducible apply State.commitStart_ok

theorem State.stageUnit_ok {qs : List Instr} {s : State} (hs : s.Ok qs) :
    (State.stageUnit s).Ok qs := by
  unfold State.stageUnit
  repeat' first
    | with_reducible assumption
    | with_reducible apply State.opFail_ok
    | with_reducible apply State.opUnits_ok
    | with_reducible apply State.setRte_ok
    | with_reducible apply State.ueHit_ok
    | with_reducible refine ite_ok ?_ ?_

theorem State.stageTo_ok {qs : List Instr} {s : State} (x1 : ℕ) (hs : s.Ok qs) :
    (State.stageTo s x1).Ok qs := by
  induction x1 generalizing s with
  | zero =>
    unfold State.stageTo
    repeat' first
      | with_reducible assumption
      | with_reducible apply ih
      | with_reducible apply State.stageUnit_ok
      | split
  | succ k ih =>
    unfold State.stageTo
    repeat' first
      | with_reducible assumption
      | with_reducible apply ih
      | with_reducible apply State.stageUnit_ok
      | split

theorem State.useShow_ok {qs : List Instr} {s : State} (hs : s.Ok qs) :
    (State.useShow s).Ok qs := by
  unfold State.useShow
  repeat' first
    | with_reducible assumption
    | with_reducible apply State.set_ok
    | with_reducible refine foldl_ok ?_ (fun t e ht => ?_)

theorem State.commitApply_ok {qs : List Instr} {s : State} (units : ℕ) (hs : s.Ok qs) :
    (State.commitApply s units).Ok qs := by
  unfold State.commitApply
  repeat' first
    | with_reducible assumption
    | with_reducible apply State.opDone_ok
    | with_reducible apply State.opFail_ok
    | with_reducible apply State.set_ok
    | with_reducible apply State.setRte_ok
    | with_reducible apply State.stageTo_ok
    | with_reducible apply State.useShow_ok
    | with_reducible refine ite_ok ?_ ?_
    | split

theorem execRteCommitApply_ok {qs : List Instr} (units : ℕ) {s : State} {u : State} (hs : s.Ok qs) (e : execRteCommitApply units s = .next u) :
    u.Ok qs := by
  unfold execRteCommitApply at e; cases e
  repeat' first
    | with_reducible assumption
    | with_reducible apply State.commitApply_ok

theorem State.oldGone_ok {qs : List Instr} {s : State} (hs : s.Ok qs) :
    (State.oldGone s).Ok qs := by
  unfold State.oldGone
  repeat' first
    | with_reducible assumption
    | split
    | with_reducible apply State.setRte_ok

theorem execOldSetRelease_ok {qs : List Instr} {s : State} {u : State} (hs : s.Ok qs) (e : execOldSetRelease s = .next u) :
    u.Ok qs := by
  unfold execOldSetRelease at e; cases e
  repeat' first
    | with_reducible assumption
    | split
    | with_reducible apply State.oldGone_ok
    | with_reducible refine ite_ok ?_ ?_

theorem State.rteSet_ok {qs : List Instr} {s : State} (cs : ℕ) (hs : s.Ok qs) :
    (State.rteSet s cs).2.Ok qs := by
  unfold State.rteSet
  repeat' first
    | with_reducible assumption
    | with_reducible apply State.raise_ok
    | with_reducible apply State.rteCnt_ok
    | split

theorem State.watchSet_ok {qs : List Instr} {s : State} (w : ℕ) (up : Bool) (hs : s.Ok qs) :
    (State.watchSet s w up).Ok qs := by
  unfold State.watchSet
  repeat' first
    | with_reducible assumption
    | with_reducible apply State.raise_ok
    | with_reducible apply State.set_ok
    | with_reducible apply State.setRte_ok

theorem State.watchChg_ok {qs : List Instr} {s : State} (w : ℕ) (hs : s.Ok qs) :
    (State.watchChg s w).Ok qs := by
  unfold State.watchChg
  repeat' first
    | with_reducible assumption
    | with_reducible apply State.setRte_ok
    | with_reducible apply State.watchSet_ok
    | with_reducible refine ite_ok ?_ ?_

theorem execWatchChange_ok {qs : List Instr} (w : ℕ) {s : State} {u : State} (hs : s.Ok qs) (e : execWatchChange w s = .next u) :
    u.Ok qs := by
  unfold execWatchChange at e; cases e
  repeat' first
    | with_reducible assumption
    | with_reducible apply State.watchChg_ok
    | split

theorem execWatchHoldExpire_ok {qs : List Instr} (w : ℕ) {s : State} {u : State} (hs : s.Ok qs) (e : execWatchHoldExpire w s = .next u) :
    u.Ok qs := by
  unfold execWatchHoldExpire at e; cases e
  repeat' first
    | with_reducible assumption
    | with_reducible apply State.watchSet_ok
    | with_reducible refine ite_ok ?_ ?_

theorem State.watchBack_ok {qs : List Instr} {s : State} (w : ℕ) (hs : s.Ok qs) :
    (State.watchBack s w).Ok qs := by
  unfold State.watchBack
  repeat' first
    | with_reducible assumption
    | with_reducible apply State.watchSet_ok
    | split

theorem State.staReport_ok {qs : List Instr} {s : State} (e : ℕ) (ok : Bool) (hs : s.Ok qs) :
    (State.staReport s e ok).Ok qs := by
  unfold State.staReport
  repeat' first
    | with_reducible assumption
    | with_reducible apply State.setRte_ok

theorem State.rteAns_ok {qs : List Instr} {s : State} (r : Req) (status : ℕ) (detail : ℕ) (hs : s.Ok qs) :
    (State.rteAns s r status detail).Ok qs := by
  unfold State.rteAns
  repeat' first
    | with_reducible assumption
    | with_reducible apply State.couple_ok
    | with_reducible apply State.reqTake_ok

theorem State.rteFail_ok {qs : List Instr} {s : State} (r : Req) (status : ℕ) (hs : s.Ok qs) :
    (State.rteFail s r status).Ok qs := by
  unfold State.rteFail
  repeat' first
    | with_reducible assumption
    | with_reducible apply State.rteAns_ok
    | with_reducible apply State.rteCnt_ok
    | split

theorem State.rteOut_ok {qs : List Instr} {s : State} (r : Req) (l : List Byte) (hs : s.Ok qs) :
    (State.rteOut s r l).Ok qs := by
  unfold State.rteOut
  repeat' first
    | with_reducible assumption
    | with_reducible apply State.pokeData_ok
    | with_reducible apply State.pokeHdr_ok
    | with_reducible apply State.rteAns_ok
    | with_reducible apply State.rteFail_ok
    | with_reducible refine ite_ok ?_ ?_

theorem State.rteRun_ok {qs : List Instr} {s : State} (op : ℕ) (f : State → Req → State) (hs : s.Ok qs) (hf : ∀ a0 a1, a0.Ok qs → (f a0 a1).Ok qs) :
    (State.rteRun s op f).Ok qs := by
  unfold State.rteRun
  repeat' first
    | with_reducible assumption
    | with_reducible apply hf
    | with_reducible apply hf
    | split
    | with_reducible apply State.rteFail_ok

theorem State.lookupOp_ok {qs : List Instr} {s : State} (r : Req) (hs : s.Ok qs) :
    (State.lookupOp s r).Ok qs := by
  unfold State.lookupOp
  repeat' first
    | with_reducible assumption
    | (intro t; refine (have ht : State.Ok qs t := ?_; ?_); (on_goal 2 => clear_value t); (on_goal 1 => subst t))
    | (intro t; refine (have ht : State.Ok qs t.2 := ?_; ?_); (on_goal 2 => clear_value t); (on_goal 1 => subst t))
    | (intro t; refine (have hf : ∀ a, State.Ok qs a → State.Ok qs (t a) := ?_; ?_); (on_goal 2 => clear_value t); (on_goal 1 => subst t); (on_goal 1 => intro a ha); (on_goal 1 => beta_reduce))
    | (intro t; refine (have hf : ∀ a x, State.Ok qs a → State.Ok qs (t a x) := ?_; ?_); (on_goal 2 => clear_value t); (on_goal 1 => subst t); (on_goal 1 => intro a x ha); (on_goal 1 => beta_reduce))
    | (intro t; refine (have hf : ∀ x a, State.Ok qs a → State.Ok qs (t x a) := ?_; ?_); (on_goal 2 => clear_value t); (on_goal 1 => subst t); (on_goal 1 => intro x a ha); (on_goal 1 => beta_reduce))
    | (intro t; refine (have hf : ∀ a x y, State.Ok qs a → State.Ok qs (t a x y) := ?_; ?_); (on_goal 2 => clear_value t); (on_goal 1 => subst t); (on_goal 1 => intro a x y ha); (on_goal 1 => beta_reduce))
    | (intro t; refine (have hf : ∀ x y a, State.Ok qs a → State.Ok qs (t x y a) := ?_; ?_); (on_goal 2 => clear_value t); (on_goal 1 => subst t); (on_goal 1 => intro x y a ha); (on_goal 1 => beta_reduce))
    | (intro t; refine (have hf : ∀ a x y z, State.Ok qs a → State.Ok qs (t a x y z) := ?_; ?_); (on_goal 2 => clear_value t); (on_goal 1 => subst t); (on_goal 1 => intro a x y z ha); (on_goal 1 => beta_reduce))
    | (intro t; refine (have hf : ∀ x, State.Ok qs (t x) := ?_; ?_); (on_goal 2 => clear_value t); (on_goal 1 => subst t); (on_goal 1 => intro x); (on_goal 1 => beta_reduce))
    | (intro t; refine (have hf : ∀ x y, State.Ok qs (t x y) := ?_; ?_); (on_goal 2 => clear_value t); (on_goal 1 => subst t); (on_goal 1 => intro x y); (on_goal 1 => beta_reduce))
    | with_reducible apply hf
    | (intro t; clear_value t)
    | intro t
    | split
    | lift_lets
    | with_reducible apply State.rteCnt_ok
    | with_reducible apply State.rteFail_ok
    | with_reducible apply State.rteOut_ok
    | with_reducible apply State.rteSet_ok

theorem execLookup_ok {qs : List Instr} {s : State} {u : State} (hs : s.Ok qs) (e : execLookup s = .next u) :
    u.Ok qs := by
  unfold execLookup at e; cases e
  repeat' first
    | with_reducible assumption
    | with_reducible apply State.lookupOp_ok
    | with_reducible apply State.rteRun_ok

theorem State.fragIn_ok {qs : List Instr} {s : State} (r : Req) (src : ℕ × ℕ) (size : ℕ) (tag : ℕ) (ofs : ℕ) (d : List Byte) (sum : Option (ℕ × ℕ)) (hs : s.Ok qs) :
    (State.fragIn s r src size tag ofs d sum).Ok qs := by
  unfold State.fragIn
  repeat' first
    | with_reducible assumption
    | (intro t; refine (have hf : ∀ a, State.Ok qs a → State.Ok qs (t a) := ?_; ?_); (on_goal 2 => clear_value t); (on_goal 1 => subst t); (on_goal 1 => intro a ha); (on_goal 1 => beta_reduce))
    | with_reducible apply hf
    | intro t
    | lift_lets
    | with_reducible apply State.rteAns_ok
    | with_reducible apply State.rteCnt_ok
    | with_reducible apply State.rteFail_ok
    | with_reducible apply State.rteOut_ok
    | with_reducible apply State.setRte_ok
    | split

theorem State.decompOp_ok {qs : List Instr} {s : State} (r : Req) (hs : s.Ok qs) :
    (State.decompOp s r).Ok qs := by
  unfold State.decompOp
  repeat' first
    | with_reducible assumption
    | with_reducible apply State.fragIn_ok
    | with_reducible apply State.rteFail_ok
    | with_reducible apply State.rteOut_ok
    | with_reducible apply State.rteSet_ok
    | with_reducible refine ite_ok ?_ ?_
    | split

theorem execDecomp_ok {qs : List Instr} {s : State} {u : State} (hs : s.Ok qs) (e : execDecomp s = .next u) :
    u.Ok qs := by
  unfold execDecomp at e; cases e
  repeat' first
    | with_reducible assumption
    | with_reducible apply State.decompOp_ok
    | with_reducible apply State.rteRun_ok

theorem execReasmExpire_ok {qs : List Instr} (idx : ℕ) {s : State} {u : State} (hs : s.Ok qs) (e : execReasmExpire idx s = .next u) :
    u.Ok qs := by
  unfold execReasmExpire at e; cases e
  repeat' first
    | with_reducible assumption
    | split
    | with_reducible apply State.raise_ok
    | with_reducible apply State.rteCnt_ok
    | with_reducible apply State.setRte_ok

theorem State.compOp_ok {qs : List Instr} {s : State} (r : Req) (hs : s.Ok qs) :
    (State.compOp s r).Ok qs := by
  unfold State.compOp
  dsimp only
  split
  · exact State.rteFail_ok _ _ (State.rteSet_ok _ hs)
  · exact ite_ok (State.rteOut_ok _ _ (State.rteSet_ok _ hs))
      (ite_ok (State.rteAns_ok _ _ _ (State.rteSet_ok _ hs)) (State.rteFail_ok _ _ (State.rteSet_ok _ hs)))

theorem execComp_ok {qs : List Instr} {s : State} {u : State} (hs : s.Ok qs) (e : execComp s = .next u) :
    u.Ok qs := by
  unfold execComp at e; cases e
  repeat' first
    | with_reducible assumption
    | with_reducible apply State.compOp_ok
    | with_reducible apply State.rteRun_ok

theorem State.fragOp_ok {qs : List Instr} {s : State} (r : Req) (hs : s.Ok qs) :
    (State.fragOp s r).Ok qs := by
  unfold State.fragOp
  repeat' first
    | with_reducible assumption
    | (intro t; refine (have ht : State.Ok qs t := ?_; ?_); (on_goal 2 => clear_value t); (on_goal 1 => subst t))
    | (intro t; refine (have ht : State.Ok qs t.2 := ?_; ?_); (on_goal 2 => clear_value t); (on_goal 1 => subst t))
    | lift_lets
    | with_reducible apply State.rteFail_ok
    | with_reducible apply State.rteOut_ok
    | with_reducible apply State.rteSet_ok
    | with_reducible refine ite_ok ?_ ?_
    | split

theorem execFrag_ok {qs : List Instr} {s : State} {u : State} (hs : s.Ok qs) (e : execFrag s = .next u) :
    u.Ok qs := by
  unfold execFrag at e; cases e
  repeat' first
    | with_reducible assumption
    | with_reducible apply State.fragOp_ok
    | with_reducible apply State.rteRun_ok

theorem State.srhOp_ok {qs : List Instr} {s : State} (r : Req) (hs : s.Ok qs) :
    (State.srhOp s r).Ok qs := by
  unfold State.srhOp
  repeat' first
    | with_reducible assumption
    | with_reducible apply State.fresh_ok
    | with_reducible apply State.rteFail_ok
    | with_reducible apply State.rteOut_ok
    | with_reducible apply State.rteSet_ok
    | with_reducible refine ite_ok ?_ ?_
    | split

theorem execSrhins_ok {qs : List Instr} {s : State} {u : State} (hs : s.Ok qs) (e : execSrhins s = .next u) :
    u.Ok qs := by
  unfold execSrhins at e; cases e
  repeat' first
    | with_reducible assumption
    | with_reducible apply State.rteRun_ok
    | with_reducible apply State.srhOp_ok

end Sys2Proof.Machine
end

