-- ==== Sys2Proof/Laws/KeepNvs.lean ====
section
/-!
SUPPORT. The operations of Machine/Nvs.lean keep what Laws/Keep.lean says.
-/

set_option linter.all false

namespace Sys2Proof.Machine

theorem State.prefer_ok {qs : List Instr} {s : State} (k : ℕ) (hs : s.Ok qs) :
    (State.prefer s k).Ok qs := by
  unfold State.prefer
  repeat' first
    | with_reducible assumption
    | with_reducible apply State.raise_ok
    | with_reducible apply State.raiseIf_ok
    | with_reducible exact mk_ok (by with_reducible assumption) (by with_reducible rfl)
    | with_reducible exact mkputs_ok (by with_reducible assumption) (by with_reducible rfl)
    | split

theorem State.nvsStart_ok {qs : List Instr} {s : State} (rq : Rq) (hs : s.Ok qs) :
    (State.nvsStart s rq).Ok qs := by
  unfold State.nvsStart
  repeat' first
    | with_reducible assumption
    | with_reducible apply State.opFail_ok
    | with_reducible apply State.opStart_ok
    | with_reducible refine ite_ok ?_ ?_

theorem State.nvsUnit_ok {qs : List Instr} {s : State} (hs : s.Ok qs) :
    (State.nvsUnit s).Ok qs := by
  unfold State.nvsUnit
  repeat' first
    | with_reducible assumption
    | (intro t; refine (have ht : State.Ok qs t := ?_; ?_); (on_goal 2 => clear_value t); (on_goal 1 => subst t))
    | intro t
    | lift_lets
    | with_reducible apply State.opDone_ok
    | with_reducible apply State.opFail_ok
    | with_reducible apply State.opUnits_ok
    | with_reducible apply State.prefer_ok
    | with_reducible apply State.ueHit_ok
    | with_reducible exact mkputs_ok (by with_reducible assumption) (by with_reducible rfl)
    | split

theorem execNvsProgram_ok {qs : List Instr} (rq : Rq) {s : State} {u : State} (hs : s.Ok qs) (e : execNvsProgram rq s = .next u) :
    u.Ok qs := by
  unfold execNvsProgram at e; cases e
  repeat' first
    | with_reducible assumption
    | with_reducible apply State.nvsStart_ok
    | with_reducible refine ite_ok ?_ ?_

theorem execNvsActivate_ok {qs : List Instr} (rq : Rq) {s : State} {u : State} (hs : s.Ok qs) (e : execNvsActivate rq s = .next u) :
    u.Ok qs := by
  unfold execNvsActivate at e; cases e
  repeat' first
    | with_reducible assumption
    | with_reducible apply State.nvsStart_ok
    | with_reducible refine ite_ok ?_ ?_

end Sys2Proof.Machine
end

