-- ==== Sys2Proof/Laws/KeepSec.lean ====
section
/-!
SUPPORT. The operations of Machine/Sec.lean keep what Laws/Keep.lean says.
-/

set_option linter.all false

namespace Sys2Proof.Machine

theorem State.secCnt_ok {qs : List Instr} {s : State} (n : ℕ) (hs : s.Ok qs) :
    (State.secCnt s n).Ok qs := by
  unfold State.secCnt
  repeat' first
    | with_reducible assumption
    | with_reducible apply State.bump_ok

theorem State.secAns_ok {qs : List Instr} {s : State} (r : Req) (handle : ℕ) (result : ℕ) (hs : s.Ok qs) :
    (State.secAns s r handle result).Ok qs := by
  unfold State.secAns
  repeat' first
    | with_reducible assumption
    | with_reducible apply State.couple_ok
    | with_reducible apply State.reqTake_ok

theorem State.secBuf_ok {qs : List Instr} {s : State} (r : Req) (n : ℕ) (hs : s.Ok qs) :
    (State.secBuf s r n).2.Ok qs := by
  unfold State.secBuf
  repeat' first
    | with_reducible assumption
    | with_reducible apply State.bufAlloc_ok
    | split

theorem State.secPut_ok {qs : List Instr} {s : State} (r : Req) (l : List Byte) (hs : s.Ok qs) :
    (State.secPut s r l).Ok qs := by
  unfold State.secPut
  repeat' first
    | with_reducible assumption
    | (intro t; refine (have ht : State.Ok qs t := ?_; ?_); (on_goal 2 => clear_value t); (on_goal 1 => subst t))
    | intro t
    | lift_lets
    | with_reducible apply State.pokeData_ok
    | with_reducible apply State.pokeHdr_ok
    | with_reducible apply State.secAns_ok
    | with_reducible apply State.secBuf_ok
    | split

theorem State.secRun_ok {qs : List Instr} {s : State} (op : ℕ) (f : State → Req → KeyS → State) (hs : s.Ok qs) (hf : ∀ a0 a1 a2, a0.Ok qs → (f a0 a1 a2).Ok qs) :
    (State.secRun s op f).Ok qs := by
  unfold State.secRun
  repeat' first
    | with_reducible assumption
    | with_reducible apply hf
    | with_reducible apply hf
    | split
    | with_reducible apply State.secAns_ok
    | with_reducible apply State.secCnt_ok

theorem State.secOpen_ok {qs : List Instr} {s : State} (r : Req) (l : Option (List Byte)) (hs : s.Ok qs) :
    (State.secOpen s r l).Ok qs := by
  unfold State.secOpen
  repeat' first
    | with_reducible assumption
    | split
    | with_reducible apply State.secAns_ok
    | with_reducible apply State.secCnt_ok
    | with_reducible apply State.secPut_ok

theorem State.keyStep_ok {qs : List Instr} {s : State} (i : ℕ) (k : KeyS) (hs : s.Ok qs) :
    (State.keyStep s i k).Ok qs := by
  unfold State.keyStep
  repeat' first
    | with_reducible assumption
    | with_reducible apply State.raise_ok
    | with_reducible exact mk_ok (by with_reducible assumption) (by with_reducible rfl)
    | split

theorem State.keyBlock_ok {qs : List Instr} {s : State} (i : ℕ) (k : KeyS) (hs : s.Ok qs) :
    (State.keyBlock s i k).Ok qs := by
  unfold State.keyBlock
  repeat' first
    | with_reducible assumption
    | with_reducible apply State.raiseIf_ok
    | with_reducible apply State.set_ok
    | with_reducible refine ite_ok ?_ ?_
    | with_reducible exact mk_ok (by with_reducible assumption) (by with_reducible rfl)

theorem State.secSeal_ok {qs : List Instr} {s : State} (r : Req) (k : KeyS) (f : List Byte → List Byte) (hs : s.Ok qs) :
    (State.secSeal s r k f).Ok qs := by
  unfold State.secSeal
  repeat' first
    | with_reducible assumption
    | with_reducible apply State.keyBlock_ok
    | with_reducible apply State.keyStep_ok
    | with_reducible apply State.secAns_ok
    | with_reducible apply State.secCnt_ok
    | with_reducible apply State.secPut_ok
    | with_reducible refine ite_ok ?_ ?_

theorem State.ccmDec_ok {qs : List Instr} {s : State} (r : Req) (k : KeyS) (hs : s.Ok qs) :
    (State.ccmDec s r k).Ok qs := by
  unfold State.ccmDec
  repeat' first
    | with_reducible assumption
    | with_reducible apply State.secOpen_ok

theorem State.ccmEnc_ok {qs : List Instr} {s : State} (r : Req) (k : KeyS) (hs : s.Ok qs) :
    (State.ccmEnc s r k).Ok qs := by
  unfold State.ccmEnc
  repeat' first
    | with_reducible assumption
    | with_reducible apply State.secSeal_ok

theorem State.gcmpDec_ok {qs : List Instr} {s : State} (r : Req) (k : KeyS) (hs : s.Ok qs) :
    (State.gcmpDec s r k).Ok qs := by
  unfold State.gcmpDec
  repeat' first
    | with_reducible assumption
    | with_reducible apply State.secOpen_ok

theorem State.gcmpEnc_ok {qs : List Instr} {s : State} (r : Req) (k : KeyS) (hs : s.Ok qs) :
    (State.gcmpEnc s r k).Ok qs := by
  unfold State.gcmpEnc
  repeat' first
    | with_reducible assumption
    | with_reducible apply State.secSeal_ok

theorem State.macsecDec_ok {qs : List Instr} {s : State} (r : Req) (k : KeyS) (hs : s.Ok qs) :
    (State.macsecDec s r k).Ok qs := by
  unfold State.macsecDec
  repeat' first
    | with_reducible assumption
    | with_reducible apply State.secOpen_ok

theorem State.macsecEnc_ok {qs : List Instr} {s : State} (r : Req) (k : KeyS) (hs : s.Ok qs) :
    (State.macsecEnc s r k).Ok qs := by
  unfold State.macsecEnc
  repeat' first
    | with_reducible assumption
    | with_reducible apply State.secSeal_ok

theorem execCcmDecrypt_ok {qs : List Instr} {s : State} {u : State} (hs : s.Ok qs) (e : execCcmDecrypt s = .next u) :
    u.Ok qs := by
  unfold execCcmDecrypt at e; cases e
  repeat' first
    | with_reducible assumption
    | with_reducible apply State.ccmDec_ok
    | with_reducible apply State.secRun_ok

theorem execCcmEncrypt_ok {qs : List Instr} {s : State} {u : State} (hs : s.Ok qs) (e : execCcmEncrypt s = .next u) :
    u.Ok qs := by
  unfold execCcmEncrypt at e; cases e
  repeat' first
    | with_reducible assumption
    | with_reducible apply State.ccmEnc_ok
    | with_reducible apply State.secRun_ok

theorem execGcmpDecrypt_ok {qs : List Instr} {s : State} {u : State} (hs : s.Ok qs) (e : execGcmpDecrypt s = .next u) :
    u.Ok qs := by
  unfold execGcmpDecrypt at e; cases e
  repeat' first
    | with_reducible assumption
    | with_reducible apply State.gcmpDec_ok
    | with_reducible apply State.secRun_ok

theorem execGcmpEncrypt_ok {qs : List Instr} {s : State} {u : State} (hs : s.Ok qs) (e : execGcmpEncrypt s = .next u) :
    u.Ok qs := by
  unfold execGcmpEncrypt at e; cases e
  repeat' first
    | with_reducible assumption
    | with_reducible apply State.gcmpEnc_ok
    | with_reducible apply State.secRun_ok

theorem execMacsecDecrypt_ok {qs : List Instr} {s : State} {u : State} (hs : s.Ok qs) (e : execMacsecDecrypt s = .next u) :
    u.Ok qs := by
  unfold execMacsecDecrypt at e; cases e
  repeat' first
    | with_reducible assumption
    | with_reducible apply State.macsecDec_ok
    | with_reducible apply State.secRun_ok

theorem execMacsecEncrypt_ok {qs : List Instr} {s : State} {u : State} (hs : s.Ok qs) (e : execMacsecEncrypt s = .next u) :
    u.Ok qs := by
  unfold execMacsecEncrypt at e; cases e
  repeat' first
    | with_reducible assumption
    | with_reducible apply State.macsecEnc_ok
    | with_reducible apply State.secRun_ok

theorem State.wreqNow_ok {qs : List Instr} {s : State} (e : ℕ) (sec : Bool) (req : List ℕ) (wid : ℕ) (slot : ℕ) (hs : s.Ok qs) :
    (State.wreqNow s e sec req wid slot).Ok qs := by
  unfold State.wreqNow
  repeat' first
    | with_reducible assumption
    | (intro t; refine (have ht : State.Ok qs t := ?_; ?_); (on_goal 2 => clear_value t); (on_goal 1 => subst t))
    | lift_lets
    | with_reducible apply State.rteFail_ok
    | with_reducible apply State.secAns_ok
    | with_reducible apply State.wreqOp_ok
    | split

theorem execWreq_ok {qs : List Instr} (e : ℕ) (sec : Bool) (req : List ℕ) (wid : ℕ) (slot : ℕ) {s : State} {u : State} (hs : s.Ok qs) (e : execWreq e sec req wid slot s = .next u) :
    u.Ok qs := by
  unfold execWreq at e; cases e
  repeat' first
    | with_reducible assumption
    | with_reducible apply State.wreqNow_ok

theorem State.enrStart_ok {qs : List Instr} {s : State} (rq : Rq) (hs : s.Ok qs) :
    (State.enrStart s rq).Ok qs := by
  unfold State.enrStart
  repeat' first
    | with_reducible assumption
    | with_reducible apply State.opStart_ok

theorem execSecEnrol_ok {qs : List Instr} (rq : Rq) {s : State} {u : State} (hs : s.Ok qs) (e : execSecEnrol rq s = .next u) :
    u.Ok qs := by
  unfold execSecEnrol at e; cases e
  repeat' first
    | with_reducible assumption
    | with_reducible apply State.enrStart_ok

theorem State.enrRead_ok {qs : List Instr} {s : State} (hs : s.Ok qs) :
    (State.enrRead s).Ok qs := by
  unfold State.enrRead
  repeat' first
    | with_reducible assumption
    | with_reducible apply State.ueHit_ok
    | with_reducible refine ite_ok ?_ ?_

theorem State.enrEntry_ok {qs : List Instr} {s : State} (k : ℕ) (hs : s.Ok qs) :
    (State.enrEntry s k).Ok qs := by
  unfold State.enrEntry
  repeat' first
    | with_reducible assumption
    | with_reducible apply State.opFail_ok
    | with_reducible apply State.opUnits_ok
    | with_reducible apply State.secCnt_ok
    | with_reducible refine ite_ok ?_ ?_
    | with_reducible exact mk_ok (by with_reducible assumption) (by with_reducible rfl)
    | split

theorem State.enrUnit_ok {qs : List Instr} {s : State} (hs : s.Ok qs) :
    (State.enrUnit s).Ok qs := by
  unfold State.enrUnit
  repeat' first
    | with_reducible assumption
    | (intro t; refine (have ht : State.Ok qs t := ?_; ?_); (on_goal 2 => clear_value t); (on_goal 1 => subst t))
    | intro t
    | lift_lets
    | with_reducible apply State.enrEntry_ok
    | with_reducible apply State.enrRead_ok
    | with_reducible apply State.opDone_ok
    | with_reducible apply State.opFail_ok
    | with_reducible exact mk_ok (by with_reducible assumption) (by with_reducible rfl)
    | split

end Sys2Proof.Machine
end

