-- ==== Sys2Proof/Laws/KeepCpl.lean ====
section
/-!
SUPPORT. The operations of Machine/Cpl.lean keep what Laws/Keep.lean says.
-/

set_option linter.all false

namespace Sys2Proof.Machine

theorem State.cplCnt_ok {qs : List Instr} {s : State} (n : ℕ) (hs : s.Ok qs) :
    (State.cplCnt s n).Ok qs := by
  unfold State.cplCnt
  repeat' first
    | with_reducible assumption
    | with_reducible apply State.bump_ok

theorem State.cplAdd_ok {qs : List Instr} {s : State} (n : ℕ) (k : ℕ) (hs : s.Ok qs) :
    (State.cplAdd s n k).Ok qs := by
  unfold State.cplAdd
  repeat' first
    | with_reducible assumption
    | with_reducible apply State.satAdd_ok

theorem State.setPair_ok {qs : List Instr} {s : State} (x : CplS) (hs : s.Ok qs) :
    (State.setPair s x).Ok qs := by
  unfold State.setPair
  repeat' first
    | with_reducible assumption
    | with_reducible exact mk_ok (by with_reducible assumption) (by with_reducible rfl)

theorem State.unlend_ok {qs : List Instr} {s : State} (hs : s.Ok qs) :
    (State.unlend s).Ok qs := by
  unfold State.unlend
  repeat' first
    | with_reducible assumption
    | with_reducible apply State.carrRefused_ok
    | with_reducible apply State.setMlc_ok
    | with_reducible apply State.sets_ok
    | with_reducible refine foldl_ok ?_ (fun t e ht => ?_)

theorem State.radios_ok {qs : List Instr} {s : State} (on : Bool) (hs : s.Ok qs) :
    (State.radios s on).Ok qs := by
  unfold State.radios
  repeat' first
    | with_reducible assumption
    | with_reducible apply State.pathCut_ok
    | with_reducible apply State.pathGo_ok
    | with_reducible apply State.rfeEnable_ok
    | with_reducible refine foldl_ok ?_ (fun t e ht => ?_)
    | split

theorem State.cplTo_ok {qs : List Instr} {s : State} (st : ℕ) (hs : s.Ok qs) :
    (State.cplTo s st).Ok qs := by
  unfold State.cplTo
  repeat' first
    | with_reducible assumption
    | (intro t; refine (have ht : State.Ok qs t := ?_; ?_); (on_goal 2 => clear_value t); (on_goal 1 => subst t))
    | intro t
    | lift_lets
    | with_reducible apply State.pathGo_ok
    | with_reducible apply State.radios_ok
    | with_reducible apply State.raise_ok
    | with_reducible apply State.set_ok
    | with_reducible apply State.setPair_ok
    | with_reducible apply State.syncTo_ok
    | with_reducible apply State.unlend_ok
    | with_reducible exact mk_ok (by with_reducible assumption) (by with_reducible rfl)
    | split

theorem State.cplSolo_ok {qs : List Instr} {s : State} (hs : s.Ok qs) :
    (State.cplSolo s).Ok qs := by
  unfold State.cplSolo
  repeat' first
    | with_reducible assumption
    | with_reducible apply State.cplTo_ok
    | with_reducible apply State.outDone_ok
    | with_reducible apply State.setMlc_ok
    | with_reducible apply State.setPair_ok
    | with_reducible apply State.sets_ok
    | with_reducible refine ite_ok ?_ ?_
    | with_reducible refine foldl_ok ?_ (fun t e ht => ?_)

theorem State.pairKeys_ok {qs : List Instr} {s : State} (gap : Bool) (hs : s.Ok qs) :
    (State.pairKeys s gap).Ok qs := by
  unfold State.pairKeys
  repeat' first
    | with_reducible assumption
    | with_reducible exact mk_ok (by with_reducible assumption) (by with_reducible rfl)

theorem State.takeover_ok {qs : List Instr} {s : State} (hs : s.Ok qs) :
    (State.takeover s).Ok qs := by
  unfold State.takeover
  repeat' first
    | with_reducible assumption
    | with_reducible apply State.cplCnt_ok
    | with_reducible apply State.cplTo_ok
    | with_reducible apply State.pairKeys_ok
    | with_reducible apply State.raise_ok
    | with_reducible apply State.setMlc_ok

theorem State.cplEval_ok {qs : List Instr} {s : State} (reading : Bool) (hs : s.Ok qs) :
    (State.cplEval s reading).Ok qs := by
  unfold State.cplEval
  repeat' first
    | with_reducible assumption
    | split
    | with_reducible apply State.cplCnt_ok
    | with_reducible apply State.cplSolo_ok
    | with_reducible apply State.cplTo_ok
    | with_reducible apply State.raise_ok
    | with_reducible apply State.takeover_ok

theorem State.cplEnable_ok {qs : List Instr} {s : State} (en : Bool) (hs : s.Ok qs) :
    (State.cplEnable s en).Ok qs := by
  unfold State.cplEnable
  repeat' first
    | with_reducible assumption
    | with_reducible apply State.cplSolo_ok
    | with_reducible apply State.cplTo_ok
    | with_reducible apply State.raise_ok
    | with_reducible refine ite_ok ?_ ?_

theorem State.helloOp_ok {qs : List Instr} {s : State} (sen : ℕ) (pairid : ℕ) (role : ℕ) (lanes : ℕ) (hs : s.Ok qs) :
    (State.helloOp s sen pairid role lanes).Ok qs := by
  unfold State.helloOp
  repeat' first
    | with_reducible assumption
    | with_reducible apply State.cplTo_ok
    | with_reducible apply State.raise_ok
    | with_reducible apply State.set_ok
    | with_reducible apply State.setMlc_ok
    | with_reducible refine ite_ok ?_ ?_
    | split

theorem execHello_ok {qs : List Instr} (sen : ℕ) (pairid : ℕ) (role : ℕ) (lanes : ℕ) {s : State} {u : State} (hs : s.Ok qs) (e : execHello sen pairid role lanes s = .next u) :
    u.Ok qs := by
  unfold execHello at e; cases e
  repeat' first
    | with_reducible assumption
    | with_reducible apply State.helloOp_ok

theorem State.cplDown_ok {qs : List Instr} {s : State} (hs : s.Ok qs) :
    (State.cplDown s).Ok qs := by
  unfold State.cplDown
  repeat' first
    | with_reducible assumption
    | with_reducible apply State.cplEval_ok
    | with_reducible apply State.outDone_ok
    | with_reducible apply State.setPair_ok
    | with_reducible refine foldl_ok ?_ (fun t e ht => ?_)

theorem State.laneDrop_ok {qs : List Instr} {s : State} (k : ℕ) (hs : s.Ok qs) :
    (State.laneDrop s k).Ok qs := by
  unfold State.laneDrop
  repeat' first
    | with_reducible assumption
    | with_reducible apply State.cplCnt_ok
    | with_reducible apply State.cplDown_ok
    | with_reducible apply State.fltEvent_ok
    | with_reducible apply State.raise_ok
    | with_reducible apply State.set_ok
    | with_reducible apply State.setPair_ok
    | with_reducible refine ite_ok ?_ ?_

theorem execCouplerLaneDrop_ok {qs : List Instr} (k : ℕ) (resent : ℕ) (lost : ℕ) {s : State} {u : State} (hs : s.Ok qs) (e : execCouplerLaneDrop k resent lost s = .next u) :
    u.Ok qs := by
  unfold execCouplerLaneDrop at e; cases e
  repeat' first
    | with_reducible assumption
    | with_reducible apply State.cplAdd_ok
    | with_reducible apply State.laneDrop_ok
    | split

theorem State.laneIn_ok {qs : List Instr} {s : State} (k : ℕ) (hs : s.Ok qs) :
    (State.laneIn s k).Ok qs := by
  unfold State.laneIn
  repeat' first
    | with_reducible assumption
    | with_reducible apply State.set_ok

theorem State.marker_ok {qs : List Instr} {s : State} (lanes : ℕ) (hs : s.Ok qs) :
    (State.marker s lanes).Ok qs := by
  unfold State.marker
  repeat' first
    | with_reducible assumption
    | with_reducible apply State.laneDrop_ok
    | with_reducible apply State.laneIn_ok
    | with_reducible apply State.setPair_ok
    | with_reducible refine foldl_ok ?_ (fun t e ht => ?_)
    | split

theorem execAlignmentMarker_ok {qs : List Instr} (lanes : ℕ) {s : State} {u : State} (hs : s.Ok qs) (e : execAlignmentMarker lanes s = .next u) :
    u.Ok qs := by
  unfold execAlignmentMarker at e; cases e
  repeat' first
    | with_reducible assumption
    | with_reducible apply State.marker_ok

theorem execCouplerLaneJoin_ok {qs : List Instr} (k : ℕ) {s : State} {u : State} (hs : s.Ok qs) (e : execCouplerLaneJoin k s = .next u) :
    u.Ok qs := by
  unfold execCouplerLaneJoin at e; cases e
  repeat' first
    | with_reducible assumption
    | with_reducible apply State.cplCnt_ok
    | with_reducible apply State.laneIn_ok
    | with_reducible apply State.raise_ok
    | with_reducible apply State.setPair_ok
    | split

theorem State.cplEnqueue_ok {qs : List Instr} {s : State} (o : Out) (miss : Bool) (hs : s.Ok qs) :
    (State.cplEnqueue s o miss).Ok qs := by
  unfold State.cplEnqueue
  repeat' first
    | with_reducible assumption
    | with_reducible apply State.outDone_ok
    | with_reducible apply State.setPair_ok
    | with_reducible refine ite_ok ?_ ?_

theorem State.cplDrain_ok {qs : List Instr} {s : State} (left : ℕ) (x2 : List (Out × Bool)) (hs : s.Ok qs) :
    (State.cplDrain s left x2).Ok qs := by
  induction x2 generalizing s left with
  | nil =>
    unfold State.cplDrain
    repeat' first
      | with_reducible assumption
      | with_reducible apply ih
      | with_reducible apply State.outDone_ok
      | with_reducible apply State.setPair_ok
      | with_reducible refine ite_ok ?_ ?_
  | cons e tl ih =>
    unfold State.cplDrain
    repeat' first
      | with_reducible assumption
      | with_reducible apply ih
      | with_reducible apply State.outDone_ok
      | with_reducible apply State.setPair_ok
      | with_reducible refine ite_ok ?_ ?_

theorem execHeartbeatSend_ok {qs : List Instr} {s : State} {u : State} (hs : s.Ok qs) (e : execHeartbeatSend s = .next u) :
    u.Ok qs := by
  unfold execHeartbeatSend at e; cases e
  repeat' first
    | with_reducible assumption
    | with_reducible apply State.cplDrain_ok
    | with_reducible refine ite_ok ?_ ?_

theorem State.cplData_ok {qs : List Instr} {s : State} (l : List Byte) (hs : s.Ok qs) :
    (State.cplData s l).Ok qs := by
  unfold State.cplData
  repeat' first
    | with_reducible assumption
    | (intro t; refine (have ht : State.Ok qs t.2 := ?_; ?_); (on_goal 2 => clear_value t); (on_goal 1 => subst t))
    | lift_lets
    | with_reducible apply State.bufAlloc_ok
    | with_reducible apply State.bufRelease_ok
    | with_reducible apply State.cplCnt_ok
    | with_reducible apply State.islandCommit_ok
    | with_reducible apply State.pokeData_ok
    | with_reducible apply State.pokeHdr_ok
    | with_reducible refine State.resvSlot_ok _ ?_ (by with_reducible assumption)
    | split

theorem execCplDataReceive_ok {qs : List Instr} (frame : List Byte) {s : State} {u : State} (hs : s.Ok qs) (e : execCplDataReceive frame s = .next u) :
    u.Ok qs := by
  unfold execCplDataReceive at e; cases e
  repeat' first
    | with_reducible assumption
    | with_reducible apply State.cplData_ok

theorem State.hbRx_ok {qs : List Instr} {s : State} (sen : ℕ) (acks : List ℕ) (hs : s.Ok qs) :
    (State.hbRx s sen acks).Ok qs := by
  unfold State.hbRx
  repeat' first
    | with_reducible assumption
    | with_reducible apply State.setPair_ok
    | with_reducible apply State.sets_ok
    | with_reducible refine foldl_ok ?_ (fun t e ht => ?_)
    | with_reducible exact mk_ok (by with_reducible assumption) (by with_reducible rfl)
    | split

theorem execHeartbeatReceive_ok {qs : List Instr} (sen : ℕ) (acks : List ℕ) {s : State} {u : State} (hs : s.Ok qs) (e : execHeartbeatReceive sen acks s = .next u) :
    u.Ok qs := by
  unfold execHeartbeatReceive at e; cases e
  repeat' first
    | with_reducible assumption
    | with_reducible apply State.hbRx_ok

theorem execHeartbeatMiss_ok {qs : List Instr} {s : State} {u : State} (hs : s.Ok qs) (e : execHeartbeatMiss s = .next u) :
    u.Ok qs := by
  unfold execHeartbeatMiss at e; cases e
  repeat' first
    | with_reducible assumption
    | with_reducible apply State.cplCnt_ok
    | with_reducible apply State.cplEval_ok
    | with_reducible apply State.satAdd0_ok
    | with_reducible apply State.set_ok
    | with_reducible refine ite_ok ?_ ?_

theorem execLifeInReading_ok {qs : List Instr} (reading : ℕ) {s : State} {u : State} (hs : s.Ok qs) (e : execLifeInReading reading s = .next u) :
    u.Ok qs := by
  unfold execLifeInReading at e; cases e
  repeat' first
    | with_reducible assumption
    | with_reducible apply State.cplEval_ok
    | with_reducible apply State.set_ok
    | split

theorem State.mirIndex_ok {qs : List Instr} {s : State} (i : ℕ) (hs : s.Ok qs) :
    (State.mirIndex s i).Ok qs := by
  unfold State.mirIndex
  repeat' first
    | with_reducible assumption
    | with_reducible apply State.setMlc_ok
    | with_reducible apply State.setMn_ok
    | split

theorem State.mirror_ok {qs : List Instr} {s : State} (m : Mir) (hs : s.Ok qs) :
    (State.mirror s m).Ok qs := by
  unfold State.mirror
  repeat' first
    | with_reducible assumption
    | split
    | with_reducible apply State.mirIndex_ok
    | with_reducible apply State.poke_ok
    | with_reducible apply State.pokeN_ok
    | with_reducible apply State.recFresh_ok
    | with_reducible apply State.setEpoch_ok
    | with_reducible apply State.setMap_ok
    | with_reducible apply State.setTile_ok
    | with_reducible apply State.sets_ok
    | with_reducible apply State.sfArm_ok
    | with_reducible exact mk_ok (by with_reducible assumption) (by with_reducible rfl)

theorem execMirrorUpdate_ok {qs : List Instr} (m : Mir) {s : State} {u : State} (hs : s.Ok qs) (e : execMirrorUpdate m s = .next u) :
    u.Ok qs := by
  unfold execMirrorUpdate at e; cases e
  repeat' first
    | with_reducible assumption
    | split
    | with_reducible apply State.mirror_ok
    | with_reducible apply State.setPair_ok

theorem State.syncDone_ok {qs : List Instr} {s : State} (copy : List Mir) (hs : s.Ok qs) :
    (State.syncDone s copy).Ok qs := by
  unfold State.syncDone
  repeat' first
    | with_reducible assumption
    | split
    | with_reducible apply State.cplTo_ok
    | with_reducible apply State.mirror_ok
    | with_reducible apply State.set_ok
    | with_reducible apply State.setMlc_ok
    | with_reducible apply State.setMn_ok
    | with_reducible apply State.setPair_ok
    | with_reducible refine foldl_ok ?_ (fun t e ht => ?_)
    | with_reducible exact mkdrop_ok (by with_reducible assumption) (by with_reducible rfl)

theorem execSyncComplete_ok {qs : List Instr} (copy : List Mir) {s : State} {u : State} (hs : s.Ok qs) (e : execSyncComplete copy s = .next u) :
    u.Ok qs := by
  unfold execSyncComplete at e; cases e
  repeat' first
    | with_reducible assumption
    | with_reducible apply State.syncDone_ok

theorem State.timeFollow_ok {qs : List Instr} {s : State} (x : LeadTime) (hs : s.Ok qs) :
    (State.timeFollow s x).Ok qs := by
  unfold State.timeFollow
  repeat' first
    | with_reducible assumption
    | (intro t; refine (have ht : State.Ok qs t := ?_; ?_); (on_goal 2 => clear_value t); (on_goal 1 => subst t))
    | intro t
    | lift_lets
    | with_reducible apply State.setI_ok
    | with_reducible apply State.setUnc_ok
    | with_reducible apply State.syncTo_ok
    | with_reducible refine ite_ok ?_ ?_
    | with_reducible exact mk_ok (by with_reducible assumption) (by with_reducible rfl)

theorem execCplTimeCorrect_ok {qs : List Instr} (t : LeadTime) {s : State} {u : State} (hs : s.Ok qs) (e : execCplTimeCorrect t s = .next u) :
    u.Ok qs := by
  unfold execCplTimeCorrect at e; cases e
  repeat' first
    | with_reducible assumption
    | with_reducible apply State.timeFollow_ok

theorem execReleaseReceive_ok {qs : List Instr} {s : State} {u : State} (hs : s.Ok qs) (e : execReleaseReceive s = .next u) :
    u.Ok qs := by
  unfold execReleaseReceive at e; cases e
  repeat' first
    | with_reducible assumption
    | with_reducible apply State.takeover_ok
    | with_reducible refine ite_ok ?_ ?_

theorem State.cplHand_ok {qs : List Instr} {s : State} (hs : s.Ok qs) :
    (State.cplHand s).Ok qs := by
  unfold State.cplHand
  repeat' first
    | with_reducible assumption
    | with_reducible apply State.cplTo_ok
    | with_reducible apply State.setMlc_ok
    | with_reducible refine ite_ok ?_ ?_

theorem State.cplResyncOp_ok {qs : List Instr} {s : State} (hs : s.Ok qs) :
    (State.cplResyncOp s).Ok qs := by
  unfold State.cplResyncOp
  repeat' first
    | with_reducible assumption
    | with_reducible apply State.cplTo_ok
    | with_reducible refine ite_ok ?_ ?_

theorem State.ebHeard_ok {qs : List Instr} {s : State} (sen : ℕ) (pairid : ℕ) (role : ℕ) (hs : s.Ok qs) :
    (State.ebHeard s sen pairid role).Ok qs := by
  unfold State.ebHeard
  repeat' first
    | with_reducible assumption
    | with_reducible apply State.cplCnt_ok
    | with_reducible apply State.cplTo_ok
    | with_reducible apply State.raise_ok
    | with_reducible apply State.raiseIf_ok
    | with_reducible apply State.set_ok
    | with_reducible apply State.setMlc_ok
    | with_reducible apply State.setPair_ok
    | split

theorem execCplEbHeard_ok {qs : List Instr} (sen : ℕ) (pairid : ℕ) (role : ℕ) {s : State} {u : State} (hs : s.Ok qs) (e : execCplEbHeard sen pairid role s = .next u) :
    u.Ok qs := by
  unfold execCplEbHeard at e; cases e
  repeat' first
    | with_reducible assumption
    | with_reducible apply State.ebHeard_ok

theorem execCplEbMiss_ok {qs : List Instr} (b : ℕ) {s : State} {u : State} (hs : s.Ok qs) (e : execCplEbMiss b s = .next u) :
    u.Ok qs := by
  unfold execCplEbMiss at e; cases e
  repeat' first
    | with_reducible assumption
    | with_reducible apply State.satAdd0_ok
    | with_reducible apply State.takeover_ok
    | with_reducible refine ite_ok ?_ ?_

theorem State.lentReq_ok {qs : List Instr} {s : State} (c : Carr) (answer : Option ℕ) (hs : s.Ok qs) :
    (State.lentReq s c answer).Ok qs := by
  unfold State.lentReq
  repeat' first
    | with_reducible assumption
    | split
    | with_reducible apply State.carrCount_ok
    | with_reducible apply State.carrRefused_ok
    | with_reducible apply State.carrReq_ok
    | with_reducible apply State.carrSent_ok
    | with_reducible apply State.cplCnt_ok
    | with_reducible apply State.setMlc_ok
    | with_reducible refine ite_ok ?_ ?_

theorem execLentCarrierRequest_ok {qs : List Instr} (c : Carr) (answer : Option ℕ) {s : State} {u : State} (hs : s.Ok qs) (e : execLentCarrierRequest c answer s = .next u) :
    u.Ok qs := by
  unfold execLentCarrierRequest at e; cases e
  repeat' first
    | with_reducible assumption
    | with_reducible apply State.lentReq_ok

end Sys2Proof.Machine
end

