-- ==== Sys2Proof/Laws/KeepWmac.lean ====
section
/-!
SUPPORT. The operations of Machine/Wmac.lean keep what Laws/Keep.lean says.
-/

set_option linter.all false

namespace Sys2Proof.Machine

theorem State.wRoll_ok {qs : List Instr} {s : State} (r : ℕ) (ac : ℕ) (hs : s.Ok qs) :
    (State.wRoll s r ac).Ok qs := by
  unfold State.wRoll
  repeat' first
    | with_reducible assumption
    | with_reducible apply State.setWl_ok
    | with_reducible apply State.setWmac_ok

theorem State.cwOk_ok {qs : List Instr} {s : State} (r : ℕ) (ac : ℕ) (hs : s.Ok qs) :
    (State.cwOk s r ac).Ok qs := by
  unfold State.cwOk
  repeat' first
    | with_reducible assumption
    | with_reducible apply State.setWmac_ok
    | with_reducible apply State.wRoll_ok

theorem State.cwFail_ok {qs : List Instr} {s : State} (r : ℕ) (ac : ℕ) (hs : s.Ok qs) :
    (State.cwFail s r ac).Ok qs := by
  unfold State.cwFail
  repeat' first
    | with_reducible assumption
    | with_reducible apply State.setWmac_ok
    | with_reducible apply State.wRoll_ok

theorem State.pwrClass_ok {qs : List Instr} {s : State} (r : ℕ) (hs : s.Ok qs) :
    (State.pwrClass s r).2.Ok qs := by
  unfold State.pwrClass
  repeat' first
    | with_reducible assumption
    | with_reducible apply State.raise_ok
    | with_reducible apply State.wphyCnt_ok
    | split

theorem State.ppduPow_ok {qs : List Instr} {s : State} (r : ℕ) (kind : ℕ) (fmt : ℕ) (cls : ℕ) (users : List WUser) (hs : s.Ok qs) :
    (State.ppduPow s r kind fmt cls users).2.Ok qs := by
  unfold State.ppduPow
  repeat' first
    | with_reducible assumption
    | split
    | with_reducible apply State.fresh_ok

theorem State.ppdu_ok {qs : List Instr} {s : State} (r : ℕ) (kind : ℕ) (fmt : ℕ) (ru : ℕ) (users : List WUser) (acked : List ℕ) (data : List Byte) (timed : Bool) (a : ℕ) (air : ℕ) (hs : s.Ok qs) :
    (State.ppdu s r kind fmt ru users acked data timed a air).2.Ok qs := by
  unfold State.ppdu
  repeat' first
    | with_reducible assumption
    | (intro t; refine (have ht : State.Ok qs t := ?_; ?_); (on_goal 2 => clear_value t); (on_goal 1 => subst t))
    | (intro t; refine (have ht : State.Ok qs t.2 := ?_; ?_); (on_goal 2 => clear_value t); (on_goal 1 => subst t))
    | intro t
    | split
    | lift_lets
    | with_reducible apply State.carrId_ok
    | with_reducible apply State.limAdmit_ok
    | with_reducible apply State.medBusy_ok
    | with_reducible apply State.ppduPow_ok
    | with_reducible apply State.pwrClass_ok
    | with_reducible apply State.setWl_ok
    | with_reducible apply State.txAccept_ok
    | with_reducible apply State.txBound_ok
    | with_reducible apply State.txRefuse_ok
    | with_reducible apply State.txStatus_ok
    | with_reducible apply State.wAbort_ok
    | with_reducible apply State.wphyCnt_ok

theorem State.ppduBack_ok {qs : List Instr} {s : State} (r : ℕ) (id : ℕ) (hs : s.Ok qs) :
    (State.ppduBack s r id).Ok qs := by
  unfold State.ppduBack
  repeat' first
    | with_reducible assumption
    | with_reducible apply State.limCut_ok
    | with_reducible apply State.pathHold_ok
    | with_reducible apply State.setPath_ok
    | with_reducible apply State.setWl_ok

theorem State.timedEnd_ok {qs : List Instr} {s : State} (r : ℕ) (h : ℕ) (status : ℕ) (stamp : ℕ) (hs : s.Ok qs) :
    (State.timedEnd s r h status stamp).Ok qs := by
  unfold State.timedEnd
  repeat' first
    | with_reducible assumption
    | split
    | with_reducible apply State.outDone_ok
    | with_reducible apply State.setWl_ok
    | with_reducible refine ite_ok ?_ ?_

theorem State.wFrameEnd_ok {qs : List Instr} {s : State} (r : ℕ) (h : ℕ) (status : ℕ) (stamp : ℕ) (hs : s.Ok qs) :
    (State.wFrameEnd s r h status stamp).Ok qs := by
  unfold State.wFrameEnd
  repeat' first
    | with_reducible assumption
    | with_reducible apply State.timedEnd_ok
    | with_reducible apply State.wEnd_ok
    | split

theorem State.grpSent_ok {qs : List Instr} {s : State} (r : ℕ) (b : ℕ) (h : ℕ) (stamp : ℕ) (hs : s.Ok qs) :
    (State.grpSent s r b h stamp).Ok qs := by
  unfold State.grpSent
  repeat' first
    | with_reducible assumption
    | split
    | with_reducible apply State.outDone_ok
    | with_reducible apply State.setWl_ok
    | with_reducible refine ite_ok ?_ ?_

theorem State.adapt_ok {qs : List Instr} {s : State} (r : ℕ) (e : ℕ) (n : ℕ) (f : ℕ) (hs : s.Ok qs) :
    (State.adapt s r e n f).Ok qs := by
  unfold State.adapt
  repeat' first
    | with_reducible assumption
    | split
    | with_reducible apply State.setWl_ok

theorem State.wFailed_ok {qs : List Instr} {s : State} (r : ℕ) (e : ℕ) (h : ℕ) (hs : s.Ok qs) :
    (State.wFailed s r e h).Ok qs := by
  unfold State.wFailed
  repeat' first
    | with_reducible assumption
    | split
    | with_reducible apply State.mldCnt_ok
    | with_reducible apply State.staReport_ok
    | with_reducible apply State.wChange_ok
    | with_reducible apply State.wEnd_ok
    | with_reducible apply State.wFrameEnd_ok
    | with_reducible apply State.wmacCnt_ok

theorem State.ppduEnd_ok {qs : List Instr} {s : State} (id : ℕ) (hs : s.Ok qs) :
    (State.ppduEnd s id).Ok qs := by
  unfold State.ppduEnd
  repeat' first
    | with_reducible assumption
    | split
    | with_reducible apply State.adapt_ok
    | with_reducible apply State.grpSent_ok
    | with_reducible apply State.setWl_ok
    | with_reducible apply State.staReport_ok
    | with_reducible apply State.wFailed_ok
    | with_reducible apply State.wFrameEnd_ok
    | with_reducible refine foldl_ok ?_ (fun t e ht => ?_)

theorem State.ppduCut_ok {qs : List Instr} {s : State} (r : ℕ) (hs : s.Ok qs) :
    (State.ppduCut s r).Ok qs := by
  unfold State.ppduCut
  repeat' first
    | with_reducible assumption
    | with_reducible apply State.limCut_ok
    | with_reducible apply State.setWl_ok
    | with_reducible apply State.wFrameEnd_ok
    | with_reducible refine foldl_ok ?_ (fun t e ht => ?_)

theorem State.ppduCoex_ok {qs : List Instr} {s : State} (id : ℕ) (hs : s.Ok qs) :
    (State.ppduCoex s id).Ok qs := by
  unfold State.ppduCoex
  repeat' first
    | with_reducible assumption
    | split
    | with_reducible apply State.limCut_ok
    | with_reducible apply State.setWl_ok
    | with_reducible apply State.wFrameEnd_ok
    | with_reducible refine foldl_ok ?_ (fun t e ht => ?_)

theorem State.stepLearn_ok {qs : List Instr} {s : State} (r : ℕ) (x : WStep) (o : TxopObs) (hs : s.Ok qs) :
    (State.stepLearn s r x o).Ok qs := by
  unfold State.stepLearn
  repeat' first
    | with_reducible assumption
    | with_reducible apply State.setWl_ok
    | with_reducible refine foldl_ok ?_ (fun t e ht => ?_)
    | split

theorem State.runSteps_ok {qs : List Instr} {s : State} (r : ℕ) (o : TxopObs) (a : ℕ) (first : Bool) (x5 : List WStep) (hs : s.Ok qs) :
    (State.runSteps s r o a first x5).1.Ok qs := by
  induction x5 generalizing s r o a first with
  | nil =>
    unfold State.runSteps
    repeat' first
      | with_reducible assumption
      | with_reducible apply ih
      | with_reducible apply State.ppdu_ok
      | with_reducible apply State.stepLearn_ok
      | with_reducible apply State.wFrameEnd_ok
      | with_reducible refine foldl_ok ?_ (fun t e ht => ?_)
      | split
  | cons e tl ih =>
    unfold State.runSteps
    repeat' first
      | with_reducible assumption
      | with_reducible apply ih
      | with_reducible apply State.ppdu_ok
      | with_reducible apply State.stepLearn_ok
      | with_reducible apply State.wFrameEnd_ok
      | with_reducible refine foldl_ok ?_ (fun t e ht => ?_)
      | split

theorem State.planVoid_ok {qs : List Instr} {s : State} (hs' : List ℕ) (hs : s.Ok qs) :
    (State.planVoid s hs').Ok qs := by
  unfold State.planVoid
  repeat' first
    | with_reducible assumption
    | with_reducible apply State.mldCnt_ok
    | with_reducible apply State.planRev_ok
    | with_reducible apply State.setWl_ok
    | with_reducible refine foldl_ok ?_ (fun t e ht => ?_)

theorem State.planTake_ok {qs : List Instr} {s : State} (r : ℕ) (ac : ℕ) (energy : List ℤ) (hs : s.Ok qs) :
    (State.planTake s r ac energy).2.Ok qs := by
  unfold State.planTake
  repeat' first
    | with_reducible assumption
    | (intro t; refine (have ht : State.Ok qs t := ?_; ?_); (on_goal 2 => clear_value t); (on_goal 1 => subst t))
    | (intro t; refine (have ht : State.Ok qs t.2 := ?_; ?_); (on_goal 2 => clear_value t); (on_goal 1 => subst t))
    | intro t
    | lift_lets
    | with_reducible apply State.planDl_ok
    | with_reducible apply State.raise_ok
    | with_reducible apply State.setWl_ok
    | with_reducible apply State.wmacCnt_ok
    | split

theorem State.cfEnd_ok {qs : List Instr} {s : State} (r : ℕ) (a : ℕ) (til : ℕ) (hs : s.Ok qs) :
    (State.cfEnd s r a til).1.Ok qs := by
  unfold State.cfEnd
  repeat' first
    | with_reducible assumption
    | (intro t; refine (have ht : State.Ok qs t.2 := ?_; ?_); (on_goal 2 => clear_value t); (on_goal 1 => subst t))
    | intro t
    | lift_lets
    | with_reducible apply State.ppdu_ok
    | with_reducible apply State.wmacCnt_ok
    | split

theorem State.holdTo_ok {qs : List Instr} {s : State} (r : ℕ) (t : ℕ) (hs : s.Ok qs) :
    (State.holdTo s r t).Ok qs := by
  unfold State.holdTo
  repeat' first
    | with_reducible assumption
    | with_reducible apply State.medBusy_ok
    | with_reducible apply State.setWmac_ok

theorem State.timedUser_ok {qs : List Instr} {s : State} (r : ℕ) (e : WEnt) (hs : s.Ok qs) :
    (State.timedUser s r e).2.Ok qs := by
  unfold State.timedUser
  repeat' first
    | with_reducible assumption
    | with_reducible apply State.suFmt_ok
    | split

theorem State.timedSend_ok {qs : List Instr} {s : State} (r : ℕ) (e : WEnt) (t : ℕ) (hs : s.Ok qs) :
    (State.timedSend s r e t).2.Ok qs := by
  unfold State.timedSend
  repeat' first
    | with_reducible assumption
    | with_reducible apply State.ppdu_ok
    | with_reducible apply State.timedUser_ok

theorem State.wArm_ok {qs : List Instr} {s : State} (r : ℕ) (hs : s.Ok qs) :
    (State.wArm s r).Ok qs := by
  unfold State.wArm
  repeat' first
    | with_reducible assumption
    | with_reducible apply State.timedSend_ok
    | with_reducible refine ite_ok ?_ ?_
    | with_reducible refine foldl_ok ?_ (fun t e ht => ?_)

theorem State.planFit_ok {qs : List Instr} {s : State} (r : ℕ) (ac : ℕ) (plan : List WStep) (hs : s.Ok qs) :
    (State.planFit s r ac plan).2.Ok qs := by
  unfold State.planFit
  repeat' first
    | with_reducible assumption
    | with_reducible apply State.mldCnt_ok
    | with_reducible apply State.raiseIf_ok
    | with_reducible refine foldl_ok ?_ (fun t e ht => ?_)

theorem State.txopRun_ok {qs : List Instr} {s : State} (r : ℕ) (ac : ℕ) (o : TxopObs) (hs : s.Ok qs) :
    (State.txopRun s r ac o).Ok qs := by
  unfold State.txopRun
  repeat' first
    | with_reducible assumption
    | split
    | with_reducible apply State.cfEnd_ok
    | with_reducible apply State.cwFail_ok
    | with_reducible apply State.cwOk_ok
    | with_reducible apply State.holdTo_ok
    | with_reducible apply State.planFit_ok
    | with_reducible apply State.planTake_ok
    | with_reducible apply State.planVoid_ok
    | with_reducible apply State.runSteps_ok
    | with_reducible apply State.setWmac_ok
    | with_reducible apply State.wArm_ok
    | with_reducible refine ite_ok ?_ ?_

theorem State.bcnGo_ok {qs : List Instr} {s : State} (r : ℕ) (hs : s.Ok qs) :
    (State.bcnGo s r).Ok qs := by
  unfold State.bcnGo
  repeat' first
    | with_reducible assumption
    | split
    | with_reducible apply State.ppdu_ok
    | with_reducible apply State.setWmac_ok
    | with_reducible refine ite_ok ?_ ?_

theorem State.tbttOp_ok {qs : List Instr} {s : State} (r : ℕ) (n : ℕ) (hs : s.Ok qs) :
    (State.tbttOp s r n).Ok qs := by
  unfold State.tbttOp
  repeat' first
    | with_reducible assumption
    | with_reducible apply State.bcnGo_ok
    | with_reducible apply State.setWmac_ok
    | with_reducible refine ite_ok ?_ ?_

theorem execTbtt_ok {qs : List Instr} (r : ℕ) (bss : ℕ) {s : State} {u : State} (hs : s.Ok qs) (e : execTbtt r bss s = .next u) :
    u.Ok qs := by
  unfold execTbtt at e; cases e
  repeat' first
    | with_reducible assumption
    | with_reducible apply State.tbttOp_ok

theorem State.bcnTick_ok {qs : List Instr} {s : State} (hs : s.Ok qs) :
    (State.bcnTick s).Ok qs := by
  unfold State.bcnTick
  repeat' first
    | with_reducible assumption
    | with_reducible apply State.bcnGo_ok

theorem State.txop_ok {qs : List Instr} {s : State} (r : ℕ) (acs : List ℕ) (o : TxopObs) (hs : s.Ok qs) :
    (State.txop s r acs o).Ok qs := by
  unfold State.txop
  repeat' first
    | with_reducible assumption
    | with_reducible apply State.bcnGo_ok
    | with_reducible apply State.cwFail_ok
    | with_reducible apply State.txopRun_ok
    | with_reducible apply State.wmacCnt_ok
    | with_reducible refine foldl_ok ?_ (fun t e ht => ?_)
    | split

theorem execTxopWin_ok {qs : List Instr} (r : ℕ) (acs : List ℕ) (o : TxopObs) {s : State} {u : State} (hs : s.Ok qs) (e : execTxopWin r acs o s = .next u) :
    u.Ok qs := by
  unfold execTxopWin at e; cases e
  repeat' first
    | with_reducible assumption
    | with_reducible apply State.txop_ok

theorem State.wLaunch_ok {qs : List Instr} {s : State} (r : ℕ) (h : ℕ) (idle : Bool) (hs : s.Ok qs) :
    (State.wLaunch s r h idle).Ok qs := by
  unfold State.wLaunch
  repeat' first
    | with_reducible assumption
    | split
    | with_reducible apply State.ppduBack_ok
    | with_reducible apply State.raise_ok
    | with_reducible apply State.timedSend_ok
    | with_reducible apply State.wFrameEnd_ok
    | with_reducible apply State.wmacCnt_ok
    | with_reducible refine ite_ok ?_ ?_

theorem State.wRespond_ok {qs : List Instr} {s : State} (r : ℕ) (l : List (List Byte)) (resp : Option (ℕ × ℕ)) (hs : s.Ok qs) :
    (State.wRespond s r l resp).Ok qs := by
  unfold State.wRespond
  repeat' first
    | with_reducible assumption
    | split
    | with_reducible apply State.ppdu_ok
    | with_reducible apply State.raise_ok
    | with_reducible apply State.wmacCnt_ok
    | with_reducible refine ite_ok ?_ ?_

theorem State.wPsdu_ok {qs : List Instr} {s : State} (r : ℕ) (l : List WPsdu) (eq : List EqUser) (resp : Option (ℕ × ℕ)) (hs : s.Ok qs) :
    (State.wPsdu s r l eq resp).Ok qs := by
  unfold State.wPsdu
  repeat' first
    | with_reducible assumption
    | with_reducible apply State.wEqExport_ok
    | with_reducible apply State.wRespond_ok
    | with_reducible apply State.wWalk_ok
    | with_reducible apply State.wrxFree_ok
    | with_reducible apply State.wrxSearch_ok
    | with_reducible refine ite_ok ?_ ?_
    | with_reducible refine foldl_ok ?_ (fun t e ht => ?_)

theorem execWlanPsduEnd_ok {qs : List Instr} (r : ℕ) (l : List WPsdu) (eq : List EqUser) (resp : Option (ℕ × ℕ)) {s : State} {u : State} (hs : s.Ok qs) (e : execWlanPsduEnd r l eq resp s = .next u) :
    u.Ok qs := by
  unfold execWlanPsduEnd at e; cases e
  repeat' first
    | with_reducible assumption
    | with_reducible apply State.wPsdu_ok

end Sys2Proof.Machine
end

