-- ==== Sys2Proof/Laws/KeepDomain.lean ====
section
/-!
SUPPORT. The operations of Machine/Domain.lean keep what Laws/Keep.lean says.
-/

set_option linter.all false

namespace Sys2Proof.Machine

theorem State.coachStop_ok {qs : List Instr} {s : State} (c : ℕ) (hs : s.Ok qs) :
    (State.coachStop s c).Ok qs := by
  unfold State.coachStop
  repeat' first
    | with_reducible assumption
    | (intro t; refine (have ht : State.Ok qs t := ?_; ?_); (on_goal 2 => clear_value t); (on_goal 1 => subst t))
    | intro (t : YardS)
    | lift_lets
    | with_reducible apply State.engFail_ok
    | with_reducible refine foldl_ok ?_ (fun t e ht => ?_)
    | with_reducible exact mk_ok (by with_reducible assumption) (by with_reducible rfl)

theorem State.coachLeave_ok {qs : List Instr} {s : State} (c : ℕ) (hs : s.Ok qs) :
    (State.coachLeave s c).Ok qs := by
  unfold State.coachLeave
  repeat' first
    | with_reducible assumption
    | (intro t; refine (have ht : State.Ok qs t := ?_; ?_); (on_goal 2 => clear_value t); (on_goal 1 => subst t))
    | lift_lets
    | with_reducible apply State.coachStop_ok
    | with_reducible apply State.opKill_ok
    | with_reducible apply State.setDom_ok
    | with_reducible exact mk_ok (by with_reducible assumption) (by with_reducible rfl)

theorem State.coachCheck_ok {qs : List Instr} {s : State} (c : ℕ) (hs : s.Ok qs) :
    (State.coachCheck s c).Ok qs := by
  unfold State.coachCheck
  repeat' first
    | with_reducible assumption
    | with_reducible apply State.coachLeave_ok
    | split

end Sys2Proof.Machine
end

