-- ==== Sys2Proof/Laws/KeepRelease.lean ====
section
/-!
SUPPORT. The operations of Machine/Release.lean keep what Laws/Keep.lean says.
-/

set_option linter.all false

namespace Sys2Proof.Machine

theorem State.ringWrite_ok {qs : List Instr} {s : State} (x : Wagon) (o : Out) (hs : s.Ok qs) :
    (State.ringWrite s x o).Ok qs := by
  unfold State.ringWrite
  repeat' first
    | with_reducible assumption
    | with_reducible apply State.dmaWord_ok
    | with_reducible apply State.outDone_ok
    | with_reducible apply State.raiseIf_ok
    | with_reducible apply State.satAdd_ok
    | with_reducible apply State.set_ok
    | with_reducible apply State.txDone_ok
    | with_reducible refine ite_ok ?_ ?_
    | with_reducible refine foldl_ok ?_ (fun t e ht => ?_)

theorem State.handOut_ok {qs : List Instr} {s : State} (x : Wagon) (o : Out) (hs : s.Ok qs) :
    (State.handOut s x o).Ok qs := by
  unfold State.handOut
  repeat' first
    | with_reducible assumption
    | split
    | with_reducible apply State.cplEnqueue_ok
    | with_reducible apply State.mldEnqueue_ok
    | with_reducible apply State.mnEnqueue_ok
    | with_reducible apply State.outDone_ok
    | with_reducible apply State.ringWrite_ok
    | with_reducible apply State.shpEnqueue_ok
    | with_reducible apply State.wArm_ok
    | with_reducible refine foldl_ok ?_ (fun t e ht => ?_)

theorem State.childPlace_ok {qs : List Instr} {s : State} (x : Wagon) (c : ℕ) (hs : s.Ok qs) :
    (State.childPlace s x c).Ok qs := by
  unfold State.childPlace
  repeat' first
    | with_reducible assumption
    | split
    | with_reducible apply State.setTrain_ok
    | with_reducible apply State.setWag_ok
    | with_reducible apply State.settle_ok

theorem State.relOne_ok {qs : List Instr} {s : State} (w : ℕ) (x : Wagon) (hs : s.Ok qs) :
    (State.relOne s w x).Ok qs := by
  unfold State.relOne
  repeat' first
    | with_reducible assumption
    | with_reducible apply State.childPlace_ok
    | with_reducible apply State.handOut_ok
    | with_reducible apply State.setTrain_ok
    | with_reducible apply State.wagFree_ok
    | with_reducible apply State.yardCnt_ok
    | with_reducible refine foldl_ok ?_ (fun t e ht => ?_)
    | split

theorem State.relRun_ok {qs : List Instr} {s : State} (n : Nat) (l : List Nat) (hs : s.Ok qs) : (State.relRun s n l).Ok qs := by
  induction n generalizing s l with
  | zero => unfold State.relRun; exact hs
  | succ k ih =>
    cases l with
    | nil => exact hs
    | cons t ts =>
      unfold State.relRun
      dsimp only
      split
      · exact ih _ hs
      · exact ih _ (State.relOne_ok _ _ hs)

theorem State.release_ok {qs : List Instr} {s : State} (t : ℕ) (hs : s.Ok qs) :
    (State.release s t).Ok qs := by
  unfold State.release
  repeat' first
    | with_reducible assumption
    | with_reducible apply State.relRun_ok

theorem State.wagDone_ok {qs : List Instr} {s : State} (w : ℕ) (hs : s.Ok qs) :
    (State.wagDone s w).Ok qs := by
  unfold State.wagDone
  repeat' first
    | with_reducible assumption
    | split
    | with_reducible apply State.release_ok

theorem execWend_ok {qs : List Instr} (e : ℕ) (void : Bool) {s : State} {u : State} (hs : s.Ok qs) (e : execWend e void s = .next u) :
    u.Ok qs := by
  unfold execWend at e; cases e
  repeat' first
    | with_reducible assumption
    | split
    | with_reducible apply State.coachCheck_ok
    | with_reducible apply State.commit_ok
    | with_reducible apply State.engFree_ok
    | with_reducible apply State.voidWag_ok
    | with_reducible apply State.wagDone_ok

theorem State.trapWag_ok {qs : List Instr} {s : State} (e : ℕ) (hs : s.Ok qs) :
    (State.trapWag s e).Ok qs := by
  unfold State.trapWag
  repeat' first
    | with_reducible assumption
    | split
    | with_reducible apply State.coachCheck_ok
    | with_reducible apply State.engFree_ok
    | with_reducible apply State.voidWag_ok
    | with_reducible apply State.wagDone_ok

theorem State.engTrap_ok {qs : List Instr} {s : State} (e : ℕ) (hs : s.Ok qs) :
    (State.engTrap s e).Ok qs := by
  unfold State.engTrap
  repeat' first
    | with_reducible assumption
    | with_reducible apply State.raise_ok
    | with_reducible apply State.satAdd_ok
    | with_reducible apply State.trapWag_ok
    | split

theorem execEngineTrap_ok {qs : List Instr} (e : ℕ) {s : State} {u : State} (hs : s.Ok qs) (e : execEngineTrap e s = .next u) :
    u.Ok qs := by
  unfold execEngineTrap at e; cases e
  repeat' first
    | with_reducible assumption
    | with_reducible apply State.engTrap_ok
    | split

theorem execWagonAbandon_ok {qs : List Instr} (wid : ℕ) {s : State} {u : State} (hs : s.Ok qs) (e : execWagonAbandon wid s = .next u) :
    u.Ok qs := by
  unfold execWagonAbandon at e; cases e
  repeat' first
    | with_reducible assumption
    | (intro t; refine (have ht : State.Ok qs t := ?_; ?_); (on_goal 2 => clear_value t); (on_goal 1 => subst t))
    | split
    | lift_lets
    | with_reducible apply State.raise_ok
    | with_reducible apply State.setWag_ok
    | with_reducible apply State.unstage_ok
    | with_reducible apply State.wagDone_ok
    | with_reducible apply State.yardCnt_ok

theorem State.engFails_ok {qs : List Instr} {s : State} (e : ℕ) (charge : Bool) (hs : s.Ok qs) :
    (State.engFails s e charge).Ok qs := by
  unfold State.engFails
  repeat' first
    | with_reducible assumption
    | with_reducible apply State.coachCheck_ok
    | with_reducible apply State.engFail_ok
    | with_reducible apply State.raise_ok

theorem execEngineStall_ok {qs : List Instr} (e : ℕ) {s : State} {u : State} (hs : s.Ok qs) (e : execEngineStall e s = .next u) :
    u.Ok qs := by
  unfold execEngineStall at e; cases e
  repeat' first
    | with_reducible assumption
    | with_reducible apply State.engFails_ok
    | with_reducible apply State.fltAir_ok
    | with_reducible apply State.fltCnt_ok
    | with_reducible apply State.raise_ok
    | split

theorem execEngineRunmax_ok {qs : List Instr} (e : ℕ) {s : State} {u : State} (hs : s.Ok qs) (e : execEngineRunmax e s = .next u) :
    u.Ok qs := by
  unfold execEngineRunmax at e; cases e
  repeat' first
    | with_reducible assumption
    | with_reducible apply State.engTrap_ok
    | with_reducible apply State.fltCnt_ok
    | with_reducible apply State.raise_ok
    | split

theorem execProgramLoad_ok {qs : List Instr} (rq : Rq) (coach : ℕ) {s : State} {u : State} (hs : s.Ok qs) (e : execProgramLoad rq coach s = .next u) :
    u.Ok qs := by
  unfold execProgramLoad at e; cases e
  repeat' first
    | with_reducible assumption
    | with_reducible apply State.startLoad_ok
    | split

theorem execTimeTick_ok {qs : List Instr} {s : State} {u : State} (hs : s.Ok qs) (e : execTimeTick s = .next u) :
    u.Ok qs := by
  unfold execTimeTick at e; cases e
  repeat' first
    | with_reducible assumption
    | with_reducible apply State.bcnTick_ok
    | with_reducible apply State.tickTime_ok

theorem execLaunchTimeReached_ok {qs : List Instr} (eth : Bool) (unit : ℕ) (handle : ℕ) (open' : Bool) {s : State} {u : State} (hs : s.Ok qs) (e : execLaunchTimeReached eth unit handle open' s = .next u) :
    u.Ok qs := by
  unfold execLaunchTimeReached at e; cases e
  repeat' first
    | with_reducible assumption
    | with_reducible apply State.shpLaunch_ok
    | with_reducible apply State.wLaunch_ok
    | split

end Sys2Proof.Machine
end

