-- ==== Sys2Proof/Laws/KeepTx.lean ====
section
/-!
SUPPORT. The operations of Machine/Tx.lean keep what Laws/Keep.lean says.
-/

set_option linter.all false

namespace Sys2Proof.Machine

theorem State.pathSettle_ok {qs : List Instr} {s : State} (r : ℕ) (p : ℕ) (hs : s.Ok qs) :
    (State.pathSettle s r p).Ok qs := by
  unfold State.pathSettle
  repeat' first
    | with_reducible assumption
    | with_reducible apply State.pathGo_ok
    | split

theorem execPathTransitionDone_ok {qs : List Instr} (r : ℕ) (p : ℕ) {s : State} {u : State} (hs : s.Ok qs) (e : execPathTransitionDone r p s = .next u) :
    u.Ok qs := by
  unfold execPathTransitionDone at e; cases e
  repeat' first
    | with_reducible assumption
    | with_reducible apply State.blank_ok
    | with_reducible apply State.mlcPath_ok
    | with_reducible apply State.pathArrive_ok
    | with_reducible apply State.wAbort_ok
    | with_reducible refine ite_ok ?_ ?_

theorem execPathRxCommand_ok {qs : List Instr} (r : ℕ) (p : ℕ) (rx : Bool) (freq : ℕ) (width : ℕ) {s : State} {u : State} (hs : s.Ok qs) (e : execPathRxCommand r p rx freq width s = .next u) :
    u.Ok qs := by
  unfold execPathRxCommand at e; cases e
  repeat' first
    | with_reducible assumption
    | split
    | with_reducible refine State.pathRx_ok _ _ _ ?_ (by with_reducible assumption)
    | with_reducible apply State.rxEntry_ok

theorem State.pathTx_ok {qs : List Instr} {s : State} (r : ℕ) (p : ℕ) (c : TxCmd) (rl : List (ℕ × ℕ)) (hs : s.Ok qs) :
    (State.pathTx s r p c rl).Ok qs := by
  unfold State.pathTx
  repeat' first
    | with_reducible assumption
    | with_reducible apply State.reflMeas_ok
    | with_reducible apply State.txAccept_ok
    | with_reducible apply State.txBound_ok
    | with_reducible apply State.txRefuse_ok
    | with_reducible apply State.txStatus_ok
    | with_reducible apply State.wAbort_ok
    | with_reducible refine ite_ok ?_ ?_

theorem execPathTxCommand_ok {qs : List Instr} (r : ℕ) (p : ℕ) (c : TxCmd) (rl : List (ℕ × ℕ)) {s : State} {u : State} (hs : s.Ok qs) (e : execPathTxCommand r p c rl s = .next u) :
    u.Ok qs := by
  unfold execPathTxCommand at e; cases e
  repeat' first
    | with_reducible assumption
    | with_reducible apply State.pathTx_ok

theorem State.coexOwner_ok {qs : List Instr} {t : State} {s : State} (r : ℕ) (p : ℕ) (id : ℕ) (ht : t.Ok qs) (hs : s.Ok qs) :
    (State.coexOwner t s r p id).Ok qs := by
  unfold State.coexOwner
  repeat' first
    | with_reducible assumption
    | with_reducible apply State.carrRefused_ok
    | with_reducible apply State.ppduCoex_ok
    | split

theorem State.coexPurge_ok {qs : List Instr} {s : State} (hs : s.Ok qs) :
    (State.coexPurge s).Ok qs := by
  unfold State.coexPurge
  repeat' first
    | with_reducible assumption
    | with_reducible apply State.coexOwner_ok
    | with_reducible apply State.coexRefuse_ok
    | with_reducible refine foldl_ok ?_ (fun t e ht => ?_)
    | split

theorem State.coexPurged_ok {qs : List Instr} {t : State} {s : State} (ht : t.Ok qs) (hs : s.Ok qs) :
    (State.coexPurged t s).Ok qs := by
  unfold State.coexPurged
  repeat' first
    | with_reducible assumption
    | with_reducible apply State.coexPurge_ok
    | split

theorem State.coexRise_ok {qs : List Instr} {s : State} (prio : Bool) (hs : s.Ok qs) :
    (State.coexRise s prio).Ok qs := by
  unfold State.coexRise
  repeat' first
    | with_reducible assumption
    | with_reducible apply State.coexPurge_ok
    | with_reducible apply State.coexRelease_ok
    | with_reducible apply State.setCoex_ok
    | with_reducible refine ite_ok ?_ ?_

theorem execCoexReqInRise_ok {qs : List Instr} (prio : Bool) {s : State} {u : State} (hs : s.Ok qs) (e : execCoexReqInRise prio s = .next u) :
    u.Ok qs := by
  unfold execCoexReqInRise at e; cases e
  repeat' first
    | with_reducible assumption
    | with_reducible apply State.coexRise_ok
    | split

theorem State.ppduOver_ok {qs : List Instr} {t : State} (r : ℕ) (id : ℕ) (ht : t.Ok qs) :
    (State.ppduOver t r id).Ok qs := by
  unfold State.ppduOver
  repeat' first
    | with_reducible assumption
    | with_reducible apply State.ppduEnd_ok
    | with_reducible apply State.reflAir_ok
    | split

theorem execPathTxEnd_ok {qs : List Instr} (r : ℕ) (p : ℕ) (id : ℕ) (canc : List CancMeas) {s : State} {u : State} (hs : s.Ok qs) (e : execPathTxEnd r p id canc s = .next u) :
    u.Ok qs := by
  unfold execPathTxEnd at e; cases e
  repeat' first
    | with_reducible assumption
    | with_reducible apply State.carrSent_ok
    | with_reducible apply State.coexPurged_ok
    | with_reducible apply State.ppduOver_ok
    | with_reducible apply State.txEnd_ok
    | split

theorem execPathRxEnd_ok {qs : List Instr} (r : ℕ) (p : ℕ) {s : State} {u : State} (hs : s.Ok qs) (e : execPathRxEnd r p s = .next u) :
    u.Ok qs := by
  unfold execPathRxEnd at e; cases e
  repeat' first
    | with_reducible assumption
    | with_reducible apply State.pathGo_ok
    | split

theorem execPathRelease_ok {qs : List Instr} (r : ℕ) (p : ℕ) {s : State} {u : State} (hs : s.Ok qs) (e : execPathRelease r p s = .next u) :
    u.Ok qs := by
  unfold execPathRelease at e; cases e
  repeat' first
    | with_reducible assumption
    | with_reducible apply State.pathFree_ok

theorem execCoexLead_ok {qs : List Instr} (r : ℕ) (p : ℕ) (id : ℕ) (reqIn : Bool) {s : State} {u : State} (hs : s.Ok qs) (e : execCoexLead r p id reqIn s = .next u) :
    u.Ok qs := by
  unfold execCoexLead at e; cases e
  repeat' first
    | with_reducible assumption
    | with_reducible apply State.coexOwner_ok
    | with_reducible apply State.coexStart_ok

theorem execCoexGrantSample_ok {qs : List Instr} (r : ℕ) (p : ℕ) (id : ℕ) (grant : Bool) {s : State} {u : State} (hs : s.Ok qs) (e : execCoexGrantSample r p id grant s = .next u) :
    u.Ok qs := by
  unfold execCoexGrantSample at e; cases e
  repeat' first
    | with_reducible assumption
    | with_reducible apply State.coexOwner_ok
    | with_reducible apply State.coexSample_ok

theorem State.airStop_ok {qs : List Instr} {s : State} (r : ℕ) (hs : s.Ok qs) :
    (State.airStop s r).Ok qs := by
  unfold State.airStop
  repeat' first
    | with_reducible assumption
    | with_reducible apply State.meshStop_ok
    | with_reducible apply State.ppduCut_ok
    | split

theorem execFaultEvent_ok {qs : List Instr} (code : ℕ) (page : ℕ) (hard : Bool) {s : State} {u : State} (hs : s.Ok qs) (e : execFaultEvent code page hard s = .next u) :
    u.Ok qs := by
  unfold execFaultEvent at e; cases e
  repeat' first
    | with_reducible assumption
    | with_reducible apply State.fltAir_ok
    | with_reducible apply State.wAbort_ok
    | with_reducible refine ite_ok ?_ ?_

theorem execMaskMeasure_ok {qs : List Instr} (r : ℕ) (port : ℕ) (excess : ℤ) {s : State} {u : State} (hs : s.Ok qs) (e : execMaskMeasure r port excess s = .next u) :
    u.Ok qs := by
  unfold execMaskMeasure at e; cases e
  repeat' first
    | with_reducible assumption
    | with_reducible apply State.maskOp_ok
    | with_reducible apply State.pathCut_ok
    | with_reducible apply State.pathHold_ok
    | with_reducible apply State.pathSettle_ok
    | with_reducible apply State.ppduCut_ok
    | with_reducible refine ite_ok ?_ ?_

theorem execRfeCalSweep_ok {qs : List Instr} (rq : Rq) (r : ℕ) {s : State} {u : State} (hs : s.Ok qs) (e : execRfeCalSweep rq r s = .next u) :
    u.Ok qs := by
  unfold execRfeCalSweep at e; cases e
  repeat' first
    | with_reducible assumption
    | with_reducible apply State.startSweep_ok
    | split

theorem execRfeSurvey_ok {qs : List Instr} (rq : Rq) (r : ℕ) {s : State} {u : State} (hs : s.Ok qs) (e : execRfeSurvey rq r s = .next u) :
    u.Ok qs := by
  unfold execRfeSurvey at e; cases e
  repeat' first
    | with_reducible assumption
    | with_reducible apply State.startSurvey_ok
    | split

theorem State.fgStart_ok {qs : List Instr} {s : State} (rq : Rq) (r : ℕ) (hs : s.Ok qs) :
    (State.fgStart s rq r).Ok qs := by
  unfold State.fgStart
  repeat' first
    | with_reducible assumption
    | with_reducible apply State.meshStop_ok
    | with_reducible apply State.ppduCut_ok
    | with_reducible apply State.startFg_ok
    | with_reducible apply State.wAbort_ok
    | with_reducible refine ite_ok ?_ ?_

theorem execRfeFgCal_ok {qs : List Instr} (rq : Rq) (r : ℕ) {s : State} {u : State} (hs : s.Ok qs) (e : execRfeFgCal rq r s = .next u) :
    u.Ok qs := by
  unfold execRfeFgCal at e; cases e
  repeat' first
    | with_reducible assumption
    | with_reducible apply State.fgStart_ok
    | split

theorem State.rfeOp_ok {qs : List Instr} {s : State} (rq : Rq) (r : ℕ) (hs : s.Ok qs) :
    (State.rfeOp s rq r).Ok qs := by
  unfold State.rfeOp
  repeat' first
    | with_reducible assumption
    | split
    | with_reducible apply State.fgStart_ok
    | with_reducible apply State.opStart_ok
    | with_reducible apply State.startSurvey_ok
    | with_reducible apply State.startSweep_ok

theorem State.rfeCtrl_ok {qs : List Instr} {s : State} (r : ℕ) (en : Bool) (hs : s.Ok qs) :
    (State.rfeCtrl s r en).Ok qs := by
  unfold State.rfeCtrl
  repeat' first
    | with_reducible assumption
    | with_reducible apply State.airStop_ok
    | with_reducible apply State.rfeEnable_ok
    | split

end Sys2Proof.Machine
end

