-- ==== Sys2Proof/Laws/KeepRegs.lean ====
section
/-!
SUPPORT. The operations of Machine/Regs.lean keep what Laws/Keep.lean says.
-/

set_option linter.all false

namespace Sys2Proof.Machine

theorem State.latchWords_ok {qs : List Instr} {s : State} (rq : Rq) (w : ℕ) (l : List ℕ) (hs : s.Ok qs) :
    (State.latchWords s rq w l).Ok qs := by
  unfold State.latchWords
  repeat' first
    | with_reducible assumption
    | with_reducible exact mk_ok (by with_reducible assumption) (by with_reducible rfl)

theorem State.opLatch_ok {qs : List Instr} {s : State} (rq : Rq) (w : ℕ) (hs : s.Ok qs) :
    (State.opLatch s rq w).Ok qs := by
  unfold State.opLatch
  repeat' first
    | with_reducible assumption
    | with_reducible apply State.latchWords_ok
    | with_reducible exact mk_ok (by with_reducible assumption) (by with_reducible rfl)
    | split

theorem State.rcClear_ok {qs : List Instr} {s : State} (w : ℕ) (off : ℕ) (lo : ℕ) (n : ℕ) (hs : s.Ok qs) :
    (State.rcClear s w off lo n).Ok qs := by
  unfold State.rcClear
  repeat' first
    | with_reducible assumption
    | split
    | with_reducible apply State.set_ok
    | with_reducible refine foldl_ok ?_ (fun t e ht => ?_)

theorem State.regRead_ok {qs : List Instr} {s : State} (rq : Rq) (w : ℕ) (off : ℕ) (lo : ℕ) (n : ℕ) (hs : s.Ok qs) :
    (State.regRead s rq w off lo n).Ok qs := by
  unfold State.regRead
  repeat' first
    | with_reducible assumption
    | (intro t; refine (have ht : State.Ok qs t := ?_; ?_); (on_goal 2 => clear_value t); (on_goal 1 => subst t))
    | intro t
    | split
    | lift_lets
    | with_reducible apply State.answer_ok
    | with_reducible apply State.latchWords_ok
    | with_reducible apply State.opLatch_ok
    | with_reducible apply State.rcClear_ok
    | with_reducible exact mk_ok (by with_reducible assumption) (by with_reducible rfl)

end Sys2Proof.Machine
end

