-- ==== Sys2Proof/Laws/KeepMem.lean ====
section
/-!
SUPPORT. The operations of Machine/Mem.lean keep what Laws/Keep.lean says.
-/

set_option linter.all false

namespace Sys2Proof.Machine

theorem State.upset_ok {qs : List Instr} {s : State} (a : ℕ) (u : Upset) (hs : s.Ok qs) :
    (State.upset s a u).Ok qs := by
  unfold State.upset
  repeat' first
    | with_reducible assumption
    | with_reducible apply State.bump_ok
    | with_reducible apply State.fltEvent_ok
    | with_reducible exact mk_ok (by with_reducible assumption) (by with_reducible rfl)
    | split

theorem State.answerUe_ok {qs : List Instr} {s : State} (rq : Rq) (n : ℕ) (hs : s.Ok qs) :
    (State.answerUe s rq n).Ok qs := by
  unfold State.answerUe
  repeat' first
    | with_reducible assumption
    | (intro t; refine (have ht : State.Ok qs t := ?_; ?_); (on_goal 2 => clear_value t); (on_goal 1 => subst t))
    | intro t
    | lift_lets
    | with_reducible apply State.fresh_ok
    | with_reducible exact mk_ok (by with_reducible assumption) (by with_reducible rfl)
    | split

theorem State.memRd_ok {qs : List Instr} {s : State} (rq : Rq) (a : ℕ) (n : ℕ) (hs : s.Ok qs) :
    (State.memRd s rq a n).Ok qs := by
  unfold State.memRd
  repeat' first
    | with_reducible assumption
    | with_reducible apply State.answer_ok
    | with_reducible apply State.answerUe_ok
    | with_reducible apply State.ueHit_ok
    | with_reducible refine ite_ok ?_ ?_

theorem State.memWr_ok {qs : List Instr} {s : State} (rq : Rq) (a : ℕ) (n : ℕ) (v : ℕ) (hs : s.Ok qs) :
    (State.memWr s rq a n v).Ok qs := by
  unfold State.memWr
  repeat' first
    | with_reducible assumption
    | with_reducible apply State.answer_ok
    | with_reducible apply State.answerUe_ok
    | with_reducible apply State.pokeN_ok
    | with_reducible refine ite_ok ?_ ?_

theorem State.scrubStep_ok {qs : List Instr} {s : State} (dram : Bool) (u : Upset) (hs : s.Ok qs) :
    (State.scrubStep s dram u).Ok qs := by
  unfold State.scrubStep
  repeat' first
    | with_reducible assumption
    | (intro t; refine (have ht : State.Ok qs t := ?_; ?_); (on_goal 2 => clear_value t); (on_goal 1 => subst t))
    | intro t
    | lift_lets
    | with_reducible apply State.ueHit_ok
    | with_reducible apply State.upset_ok
    | with_reducible refine ite_ok ?_ ?_
    | with_reducible exact mk_ok (by with_reducible assumption) (by with_reducible rfl)

theorem execScrub_ok {qs : List Instr} (dram : Bool) (upset : Upset) {s : State} {u : State} (hs : s.Ok qs) (e : execScrub dram upset s = .next u) :
    u.Ok qs := by
  unfold execScrub at e; cases e
  repeat' first
    | with_reducible assumption
    | with_reducible apply State.scrubStep_ok

theorem State.mirrorSet_ok {qs : List Instr} {s : State} (w : ℕ) (hs : s.Ok qs) :
    (State.mirrorSet s w).Ok qs := by
  unfold State.mirrorSet
  repeat' first
    | with_reducible assumption
    | with_reducible apply State.raise_ok
    | with_reducible apply State.set_ok
    | with_reducible refine ite_ok ?_ ?_

theorem State.memAllocOp_ok {qs : List Instr} {s : State} (rq : Rq) (n : ℕ) (hs : s.Ok qs) :
    (State.memAllocOp s rq n).Ok qs := by
  unfold State.memAllocOp
  repeat' first
    | with_reducible assumption
    | (intro t; refine (have ht : State.Ok qs t := ?_; ?_); (on_goal 2 => clear_value t); (on_goal 1 => subst t))
    | (intro t; refine (have ht : State.Ok qs t.2 := ?_; ?_); (on_goal 2 => clear_value t); (on_goal 1 => subst t))
    | lift_lets
    | with_reducible apply State.bufAlloc_ok
    | with_reducible exact mk_ok (by with_reducible assumption) (by with_reducible rfl)
    | split

theorem State.memFreeOp_ok {qs : List Instr} {s : State} (h : ℕ) (hs : s.Ok qs) :
    (State.memFreeOp s h).Ok qs := by
  unfold State.memFreeOp
  repeat' first
    | with_reducible assumption
    | with_reducible apply State.bufRelease_ok
    | with_reducible apply State.bump_ok
    | split

theorem State.poolSet_ok {qs : List Instr} {s : State} (hs : s.Ok qs) :
    (State.poolSet s).Ok qs := by
  unfold State.poolSet
  repeat' first
    | with_reducible assumption
    | with_reducible apply State.raise_ok
    | with_reducible refine ite_ok ?_ ?_
    | with_reducible exact mk_ok (by with_reducible assumption) (by with_reducible rfl)

theorem State.setChkVal_ok {qs : List Instr} {s : State} (u : ℕ) (v : ℕ) (hs : s.Ok qs) :
    (State.setChkVal s u v).Ok qs := by
  unfold State.setChkVal
  repeat' first
    | with_reducible assumption
    | with_reducible apply State.sets_ok

theorem State.chkStart_ok {qs : List Instr} {s : State} (rq : Rq) (u : ℕ) (hs : s.Ok qs) :
    (State.chkStart s rq u).Ok qs := by
  unfold State.chkStart
  repeat' first
    | with_reducible assumption
    | with_reducible apply State.opStart_ok
    | with_reducible apply State.setChkVal_ok
    | with_reducible refine ite_ok ?_ ?_

theorem execChkScan_ok {qs : List Instr} (rq : Rq) (unit : ℕ) {s : State} {u : State} (hs : s.Ok qs) (e : execChkScan rq unit s = .next u) :
    u.Ok qs := by
  unfold execChkScan at e; cases e
  repeat' first
    | with_reducible assumption
    | with_reducible apply State.chkStart_ok
    | split

theorem State.chkUnit_ok {qs : List Instr} {s : State} (u : ℕ) (hs : s.Ok qs) :
    (State.chkUnit s u).Ok qs := by
  unfold State.chkUnit
  repeat' first
    | with_reducible assumption
    | with_reducible apply State.opDone_ok
    | with_reducible apply State.opFail_ok
    | with_reducible apply State.opUnits_ok
    | with_reducible apply State.setChkVal_ok
    | with_reducible apply State.sets_ok
    | with_reducible apply State.ueHit_ok
    | with_reducible refine ite_ok ?_ ?_

theorem State.hartStart_ok {qs : List Instr} {s : State} (v : ℕ) (hs : s.Ok qs) :
    (State.hartStart s v).Ok qs := by
  unfold State.hartStart
  repeat' first
    | with_reducible assumption
    | with_reducible apply State.raiseIf_ok
    | with_reducible apply State.set_ok
    | with_reducible exact mk_ok (by with_reducible assumption) (by with_reducible rfl)

theorem State.plicClaimOp_ok {qs : List Instr} {s : State} (ctx : ℕ) (hs : s.Ok qs) :
    (State.plicClaimOp s ctx).Ok qs := by
  unfold State.plicClaimOp
  repeat' first
    | with_reducible assumption
    | split
    | with_reducible apply State.answer_ok
    | with_reducible exact mk_ok (by with_reducible assumption) (by with_reducible rfl)

theorem State.plicDone_ok {qs : List Instr} {s : State} (ctx : ℕ) (i : ℕ) (hs : s.Ok qs) :
    (State.plicDone s ctx i).Ok qs := by
  unfold State.plicDone
  repeat' first
    | with_reducible assumption
    | with_reducible apply State.plicSample_ok
    | with_reducible exact mk_ok (by with_reducible assumption) (by with_reducible rfl)
    | split

theorem execPlicClaim_ok {qs : List Instr} (ctx : ℕ) {s : State} {u : State} (hs : s.Ok qs) (e : execPlicClaim ctx s = .next u) :
    u.Ok qs := by
  unfold execPlicClaim at e; cases e
  repeat' first
    | with_reducible assumption
    | with_reducible apply State.plicClaimOp_ok
    | split

theorem execPlicComplete_ok {qs : List Instr} (ctx : ℕ) (src : ℕ) {s : State} {u : State} (hs : s.Ok qs) (e : execPlicComplete ctx src s = .next u) :
    u.Ok qs := by
  unfold execPlicComplete at e; cases e
  repeat' first
    | with_reducible assumption
    | with_reducible apply State.plicDone_ok
    | split

theorem State.setMsip_ok {qs : List Instr} {s : State} (h : ℕ) (v : ℕ) (hs : s.Ok qs) :
    (State.setMsip s h v).Ok qs := by
  unfold State.setMsip
  repeat' first
    | with_reducible assumption
    | with_reducible exact mk_ok (by with_reducible assumption) (by with_reducible rfl)

theorem execMsipWrite_ok {qs : List Instr} (hart : ℕ) (by' : ℕ) (v : Word) {s : State} {u : State} (hs : s.Ok qs) (e : execMsipWrite hart by' v s = .next u) :
    u.Ok qs := by
  unfold execMsipWrite at e; cases e
  repeat' first
    | with_reducible assumption
    | with_reducible apply State.setMsip_ok
    | split

theorem State.plicWr_ok {qs : List Instr} {s : State} (o : ℕ) (v : ℕ) (hs : s.Ok qs) :
    (State.plicWr s o v).Ok qs := by
  unfold State.plicWr
  repeat' first
    | with_reducible assumption
    | with_reducible apply State.plicDone_ok
    | with_reducible exact mk_ok (by with_reducible assumption) (by with_reducible rfl)
    | split

theorem State.privRd_ok {qs : List Instr} {s : State} (rq : Rq) (a : ℕ) (hs : s.Ok qs) :
    (State.privRd s rq a).Ok qs := by
  unfold State.privRd
  repeat' first
    | with_reducible assumption
    | with_reducible apply State.answer_ok
    | with_reducible apply State.plicClaimOp_ok
    | with_reducible exact mk_ok (by with_reducible assumption) (by with_reducible rfl)
    | split

theorem State.privWr_ok {qs : List Instr} {s : State} (rq : Rq) (a : ℕ) (v : ℕ) (hs : s.Ok qs) :
    (State.privWr s rq a v).Ok qs := by
  unfold State.privWr
  repeat' first
    | with_reducible assumption
    | with_reducible apply State.plicWr_ok
    | with_reducible apply State.setMsip_ok
    | with_reducible exact mk_ok (by with_reducible assumption) (by with_reducible rfl)
    | split

theorem State.privAcc_ok {qs : List Instr} {s : State} (rq : Rq) (a : ℕ) (n : ℕ) (wr : Bool) (v : ℕ) (hs : s.Ok qs) :
    (State.privAcc s rq a n wr v).Ok qs := by
  unfold State.privAcc
  repeat' first
    | with_reducible assumption
    | with_reducible apply State.answer_ok
    | with_reducible apply State.privRd_ok
    | with_reducible apply State.privWr_ok
    | split

end Sys2Proof.Machine
end

