-- ==== Sys2Proof/Laws/KeepReset.lean ====
section
/-!
SUPPORT. The operations of Machine/Reset.lean keep what Laws/Keep.lean says.
-/

set_option linter.all false

namespace Sys2Proof.Machine

theorem State.rfeStop_ok {qs : List Instr} {s : State} (r : ℕ) (hs : s.Ok qs) :
    (State.rfeStop s r).Ok qs := by
  unfold State.rfeStop
  repeat' first
    | with_reducible assumption
    | (intro t; refine (have ht : State.Ok qs t := ?_; ?_); (on_goal 2 => clear_value t); (on_goal 1 => subst t))
    | intro t
    | lift_lets
    | with_reducible apply State.airStop_ok
    | with_reducible apply State.blank_ok
    | with_reducible apply State.set_ok
    | with_reducible apply State.setCoex_ok
    | with_reducible apply State.setPath_ok
    | with_reducible apply State.wAbort_ok
    | with_reducible refine foldl_ok ?_ (fun t e ht => ?_)
    | with_reducible exact mk_ok (by with_reducible assumption) (by with_reducible rfl)
    | split

theorem State.rfeWake_ok {qs : List Instr} {s : State} (r : ℕ) (hs : s.Ok qs) :
    (State.rfeWake s r).Ok qs := by
  unfold State.rfeWake
  repeat' first
    | with_reducible assumption
    | with_reducible apply State.rfeEnable_ok
    | split

theorem State.mphyStop_ok {qs : List Instr} {s : State} (hs : s.Ok qs) :
    (State.mphyStop s).Ok qs := by
  unfold State.mphyStop
  repeat' first
    | with_reducible assumption
    | (intro t; refine (have ht : State.Ok qs t := ?_; ?_); (on_goal 2 => clear_value t); (on_goal 1 => subst t))
    | lift_lets
    | with_reducible apply State.carrCut_ok
    | with_reducible apply State.carrRefused_ok
    | with_reducible apply State.lisDrop_ok
    | with_reducible apply State.pathForget_ok
    | with_reducible refine foldl_ok ?_ (fun t e ht => ?_)
    | with_reducible exact mk_ok (by with_reducible assumption) (by with_reducible rfl)

theorem State.mlcStop_ok {qs : List Instr} {s : State} (hs : s.Ok qs) :
    (State.mlcStop s).Ok qs := by
  unfold State.mlcStop
  repeat' first
    | with_reducible assumption
    | (intro t; refine (have ht : State.Ok qs t := ?_; ?_); (on_goal 2 => clear_value t); (on_goal 1 => subst t))
    | lift_lets
    | with_reducible apply State.bufRelease_ok
    | with_reducible apply State.lisDrop_ok
    | with_reducible apply State.setMlc_ok
    | with_reducible apply State.unresv_ok
    | with_reducible refine ite_ok ?_ ?_
    | with_reducible refine foldl_ok ?_ (fun t e ht => ?_)
    | with_reducible exact mk_ok (by with_reducible assumption) (by with_reducible rfl)

theorem State.mnStop_ok {qs : List Instr} {s : State} (hs : s.Ok qs) :
    (State.mnStop s).Ok qs := by
  unfold State.mnStop
  repeat' first
    | with_reducible assumption
    | with_reducible apply State.qEnd_ok
    | with_reducible apply State.setMn_ok
    | with_reducible refine foldl_ok ?_ (fun t e ht => ?_)

theorem State.wphyStop_ok {qs : List Instr} {s : State} (r : ℕ) (hs : s.Ok qs) :
    (State.wphyStop s r).Ok qs := by
  unfold State.wphyStop
  repeat' first
    | with_reducible assumption
    | with_reducible apply State.ppduCut_ok
    | with_reducible apply State.setPath_ok
    | with_reducible apply State.setWl_ok
    | with_reducible apply State.wAbort_ok

theorem State.wmacStop_ok {qs : List Instr} {s : State} (r : ℕ) (hs : s.Ok qs) :
    (State.wmacStop s r).Ok qs := by
  unfold State.wmacStop
  repeat' first
    | with_reducible assumption
    | with_reducible apply State.setWl_ok
    | with_reducible apply State.timedEnd_ok
    | with_reducible refine foldl_ok ?_ (fun t e ht => ?_)

theorem State.mldStop_ok {qs : List Instr} {s : State} (hs : s.Ok qs) :
    (State.mldStop s).Ok qs := by
  unfold State.mldStop
  repeat' first
    | with_reducible assumption
    | with_reducible apply State.mldCnt_ok
    | with_reducible apply State.setWl_ok
    | with_reducible apply State.wEnd_ok
    | with_reducible refine foldl_ok ?_ (fun t e ht => ?_)

theorem State.yardStop_ok {qs : List Instr} {s : State} (hs : s.Ok qs) :
    (State.yardStop s).Ok qs := by
  unfold State.yardStop
  repeat' first
    | with_reducible assumption
    | (intro t; refine (have ht : State.Ok qs t := ?_; ?_); (on_goal 2 => clear_value t); (on_goal 1 => subst t))
    | lift_lets
    | with_reducible apply State.wagFree_ok
    | with_reducible refine foldl_ok ?_ (fun t e ht => ?_)
    | with_reducible exact mk_ok (by with_reducible assumption) (by with_reducible rfl)

theorem State.rteStop_ok {qs : List Instr} {s : State} (hs : s.Ok qs) :
    (State.rteStop s).Ok qs := by
  unfold State.rteStop
  repeat' first
    | with_reducible assumption
    | with_reducible apply State.oldGone_ok
    | with_reducible apply State.setRte_ok

theorem State.secStop_ok {qs : List Instr} {s : State} (hs : s.Ok qs) :
    (State.secStop s).Ok qs := by
  unfold State.secStop
  repeat' first
    | with_reducible assumption
    | with_reducible apply State.secAns_ok
    | with_reducible refine foldl_ok ?_ (fun t e ht => ?_)

theorem State.emacStop_ok {qs : List Instr} {s : State} (n : ℕ) (hs : s.Ok qs) :
    (State.emacStop s n).Ok qs := by
  unfold State.emacStop
  repeat' first
    | with_reducible assumption
    | with_reducible apply State.linkLost_ok
    | with_reducible apply State.setEmac_ok

theorem State.shpStop_ok {qs : List Instr} {s : State} (n : ℕ) (hs : s.Ok qs) :
    (State.shpStop s n).Ok qs := by
  unfold State.shpStop
  repeat' first
    | with_reducible assumption
    | with_reducible apply State.setShp_ok
    | with_reducible apply State.shpFlush_ok

theorem State.dbgStop_ok {qs : List Instr} {s : State} (hs : s.Ok qs) :
    (State.dbgStop s).Ok qs := by
  unfold State.dbgStop
  repeat' first
    | with_reducible assumption
    | with_reducible exact mk_ok (by with_reducible assumption) (by with_reducible rfl)

theorem State.blockStop_ok {qs : List Instr} {s : State} (w : ℕ) (hs : s.Ok qs) :
    (State.blockStop s w).Ok qs := by
  unfold State.blockStop
  repeat' first
    | with_reducible assumption
    | with_reducible apply State.coachStop_ok
    | with_reducible apply State.cplSolo_ok
    | with_reducible apply State.dbgStop_ok
    | with_reducible apply State.emacStop_ok
    | with_reducible apply State.laneOff_ok
    | with_reducible apply State.mlcStop_ok
    | with_reducible apply State.mldStop_ok
    | with_reducible apply State.mnStop_ok
    | with_reducible apply State.mphyStop_ok
    | with_reducible apply State.rfeStop_ok
    | with_reducible apply State.rteStop_ok
    | with_reducible apply State.secStop_ok
    | with_reducible apply State.shpStop_ok
    | with_reducible apply State.wmacStop_ok
    | with_reducible apply State.wphyStop_ok
    | with_reducible apply State.yardStop_ok
    | with_reducible refine ite_ok ?_ ?_

theorem State.regsReset_ok {qs : List Instr} {s : State} (w : ℕ) (dom : Bool) (hs : s.Ok qs) :
    (State.regsReset s w dom).Ok qs := by
  unfold State.regsReset
  repeat' first
    | with_reducible assumption
    | with_reducible exact mkregs_ok (by with_reducible assumption) (by with_reducible rfl)

theorem State.blockStart_ok {qs : List Instr} {s : State} (w : ℕ) (hs : s.Ok qs) :
    (State.blockStart s w).Ok qs := by
  unfold State.blockStart
  repeat' first
    | with_reducible assumption
    | with_reducible apply State.rfeWake_ok
    | with_reducible apply State.set_ok
    | with_reducible apply State.useShow_ok
    | with_reducible refine ite_ok ?_ ?_

theorem State.blockReset_ok {qs : List Instr} {s : State} (w : ℕ) (dom : Bool) (hs : s.Ok qs) :
    (State.blockReset s w dom).Ok qs := by
  unfold State.blockReset
  repeat' first
    | with_reducible assumption
    | with_reducible apply State.blockStart_ok
    | with_reducible apply State.blockStop_ok
    | with_reducible apply State.opKill_ok
    | with_reducible apply State.regsReset_ok

theorem State.sresetOp_ok {qs : List Instr} {s : State} (rq : Rq) (w : ℕ) (hs : s.Ok qs) :
    (State.sresetOp s rq w).Ok qs := by
  unfold State.sresetOp
  repeat' first
    | with_reducible assumption
    | (intro t; refine (have ht : State.Ok qs t := ?_; ?_); (on_goal 2 => clear_value t); (on_goal 1 => subst t))
    | lift_lets
    | with_reducible apply State.blockReset_ok
    | with_reducible apply State.errRec_ok
    | with_reducible apply State.poolSet_ok
    | with_reducible apply State.raiseIf_ok
    | with_reducible exact mk_ok (by with_reducible assumption) (by with_reducible rfl)
    | split

theorem execSreset_ok {qs : List Instr} (rq : Rq) (win : ℕ) {s : State} {u : State} (hs : s.Ok qs) (e : execSreset rq win s = .next u) :
    u.Ok qs := by
  unfold execSreset at e; cases e
  repeat' first
    | with_reducible assumption
    | with_reducible apply State.sresetOp_ok

end Sys2Proof.Machine
end

