-- ==== Sys2Proof/Laws/KeepPower.lean ====
section
/-!
SUPPORT. The operations of Machine/Power.lean keep what Laws/Keep.lean says.
-/

set_option linter.all false

namespace Sys2Proof.Machine

theorem State.domLeave_ok {qs : List Instr} {s : State} (d : ℕ) (hs : s.Ok qs) :
    (State.domLeave s d).Ok qs := by
  unfold State.domLeave
  repeat' first
    | with_reducible assumption
    | (intro t; refine (have ht : State.Ok qs t := ?_; ?_); (on_goal 2 => clear_value t); (on_goal 1 => subst t))
    | lift_lets
    | with_reducible apply State.blockStop_ok
    | with_reducible apply State.coachLeave_ok
    | with_reducible apply State.laneOff_ok
    | with_reducible apply State.linkDownOp_ok
    | with_reducible apply State.opKill_ok
    | with_reducible apply State.setDom_ok
    | with_reducible apply State.setPath_ok
    | with_reducible refine foldl_ok ?_ (fun t e ht => ?_)
    | with_reducible exact mk_ok (by with_reducible assumption) (by with_reducible rfl)
    | split

theorem State.domLose_ok {qs : List Instr} {s : State} (d : ℕ) (off : Bool) (hs : s.Ok qs) :
    (State.domLose s d off).Ok qs := by
  unfold State.domLose
  repeat' first
    | with_reducible assumption
    | (intro t; refine (have ht : State.Ok qs t := ?_; ?_); (on_goal 2 => clear_value t); (on_goal 1 => subst t))
    | intro t
    | lift_lets
    | with_reducible apply State.regsReset_ok
    | with_reducible apply State.set_ok
    | with_reducible apply State.setWl_ok
    | with_reducible refine foldl_ok ?_ (fun t e ht => ?_)
    | with_reducible exact mk_ok (by with_reducible assumption) (by with_reducible rfl)
    | with_reducible exact mkregs_ok (by with_reducible assumption) (by with_reducible rfl)
    | exact ⟨hs.regs, hs.mem, memory_wf_filter _ hs.prog, hs.queue⟩
    | split

theorem State.domOn_ok {qs : List Instr} {s : State} (d : ℕ) (hs : s.Ok qs) :
    (State.domOn s d).Ok qs := by
  unfold State.domOn
  repeat' first
    | with_reducible assumption
    | (intro t; refine (have ht : State.Ok qs t := ?_; ?_); (on_goal 2 => clear_value t); (on_goal 1 => subst t))
    | intro (t : YardS)
    | lift_lets
    | with_reducible apply State.blockStart_ok
    | with_reducible apply State.regsReset_ok
    | with_reducible apply State.setDom_ok
    | with_reducible refine foldl_ok ?_ (fun t e ht => ?_)
    | with_reducible exact mk_ok (by with_reducible assumption) (by with_reducible rfl)
    | split

theorem State.domEval_ok {qs : List Instr} {s : State} (d : ℕ) (hs : s.Ok qs) :
    (State.domEval s d).Ok qs := by
  unfold State.domEval
  repeat' first
    | with_reducible assumption
    | with_reducible apply State.coachCheck_ok
    | with_reducible apply State.domLeave_ok
    | with_reducible apply State.setDom_ok
    | with_reducible refine ite_ok ?_ ?_
    | with_reducible exact mk_ok (by with_reducible assumption) (by with_reducible rfl)
    | split

theorem State.domAll_ok {qs : List Instr} {s : State} (hs : s.Ok qs) :
    (State.domAll s).Ok qs := by
  unfold State.domAll
  repeat' first
    | with_reducible assumption
    | with_reducible apply State.domEval_ok
    | with_reducible refine foldl_ok ?_ (fun t e ht => ?_)

theorem State.domArrive_ok {qs : List Instr} {s : State} (d : ℕ) (hs : s.Ok qs) :
    (State.domArrive s d).Ok qs := by
  unfold State.domArrive
  repeat' first
    | with_reducible assumption
    | split
    | with_reducible apply State.domLose_ok
    | with_reducible apply State.domOn_ok
    | with_reducible apply State.setDom_ok

theorem State.domDone_ok {qs : List Instr} {s : State} (d : ℕ) (hs : s.Ok qs) :
    (State.domDone s d).Ok qs := by
  unfold State.domDone
  repeat' first
    | with_reducible assumption
    | with_reducible apply State.domArrive_ok
    | with_reducible apply State.domEval_ok
    | with_reducible apply State.domLeave_ok
    | split

theorem execDomainTransitionDone_ok {qs : List Instr} (dom : ℕ) {s : State} {u : State} (hs : s.Ok qs) (e : execDomainTransitionDone dom s = .next u) :
    u.Ok qs := by
  unfold execDomainTransitionDone at e; cases e
  repeat' first
    | with_reducible assumption
    | with_reducible apply State.domDone_ok

theorem State.drainEnd_ok {qs : List Instr} {s : State} (c : ℕ) (hs : s.Ok qs) :
    (State.drainEnd s c).Ok qs := by
  unfold State.drainEnd
  repeat' first
    | with_reducible assumption
    | with_reducible apply State.coachCheck_ok
    | with_reducible apply State.engFails_ok
    | with_reducible refine foldl_ok ?_ (fun t e ht => ?_)
    | split

theorem execCoachDrainTimeout_ok {qs : List Instr} (coach : ℕ) {s : State} {u : State} (hs : s.Ok qs) (e : execCoachDrainTimeout coach s = .next u) :
    u.Ok qs := by
  unfold execCoachDrainTimeout at e; cases e
  repeat' first
    | with_reducible assumption
    | with_reducible apply State.drainEnd_ok

theorem State.domSettle_ok {qs : List Instr} {s : State} (hs : s.Ok qs) :
    (State.domSettle s).Ok qs := by
  unfold State.domSettle
  repeat' first
    | with_reducible assumption
    | with_reducible apply State.domArrive_ok
    | with_reducible apply State.domEval_ok
    | with_reducible apply State.drainEnd_ok
    | with_reducible refine ite_ok ?_ ?_
    | with_reducible refine foldl_ok ?_ (fun t e ht => ?_)

theorem State.perfEval_ok {qs : List Instr} {s : State} (hs : s.Ok qs) :
    (State.perfEval s).Ok qs := by
  unfold State.perfEval
  repeat' first
    | with_reducible assumption
    | with_reducible exact mk_ok (by with_reducible assumption) (by with_reducible rfl)

theorem State.perfDone_ok {qs : List Instr} {s : State} (cluster : Bool) (hs : s.Ok qs) :
    (State.perfDone s cluster).Ok qs := by
  unfold State.perfDone
  repeat' first
    | with_reducible assumption
    | split
    | with_reducible apply State.perfEval_ok
    | with_reducible apply State.raise_ok
    | with_reducible apply State.set_ok
    | with_reducible exact mk_ok (by with_reducible assumption) (by with_reducible rfl)

theorem execPerfSwitchDone_ok {qs : List Instr} (cluster : Bool) {s : State} {u : State} (hs : s.Ok qs) (e : execPerfSwitchDone cluster s = .next u) :
    u.Ok qs := by
  unfold execPerfSwitchDone at e; cases e
  repeat' first
    | with_reducible assumption
    | with_reducible apply State.perfDone_ok
    | with_reducible refine ite_ok ?_ ?_

theorem State.perfSettle_ok {qs : List Instr} {s : State} (hs : s.Ok qs) :
    (State.perfSettle s).Ok qs := by
  unfold State.perfSettle
  repeat' first
    | with_reducible assumption
    | with_reducible apply State.perfDone_ok

theorem State.pwrCnt_ok {qs : List Instr} {s : State} (n : ℕ) (hs : s.Ok qs) :
    (State.pwrCnt s n).Ok qs := by
  unfold State.pwrCnt
  repeat' first
    | with_reducible assumption
    | with_reducible apply State.bump_ok

theorem State.refuse_ok {qs : List Instr} {s : State} (cause : ℕ) (hs : s.Ok qs) :
    (State.refuse s cause).Ok qs := by
  unfold State.refuse
  repeat' first
    | with_reducible assumption
    | with_reducible apply State.pwrCnt_ok
    | with_reducible apply State.raise_ok
    | with_reducible apply State.set_ok

theorem State.devTo_ok {qs : List Instr} {s : State} (st : ℕ) (hs : s.Ok qs) :
    (State.devTo s st).Ok qs := by
  unfold State.devTo
  repeat' first
    | with_reducible assumption
    | with_reducible apply State.pwrCnt_ok
    | with_reducible apply State.raise_ok
    | with_reducible apply State.set_ok

theorem State.park_ok {qs : List Instr} {s : State} (p : ℕ → Bool) (on : Bool) (hs : s.Ok qs) :
    (State.park s p on).Ok qs := by
  unfold State.park
  repeat' first
    | with_reducible assumption
    | with_reducible exact mk_ok (by with_reducible assumption) (by with_reducible rfl)

theorem State.lanesIdle_ok {qs : List Instr} {s : State} (hs : s.Ok qs) :
    (State.lanesIdle s).Ok qs := by
  unfold State.lanesIdle
  repeat' first
    | with_reducible assumption
    | with_reducible apply State.set_ok
    | with_reducible refine ite_ok ?_ ?_
    | with_reducible refine foldl_ok ?_ (fun t e ht => ?_)

theorem State.stepStart_ok {qs : List Instr} {s : State} (next : ℕ) (final : ℕ) (hs : s.Ok qs) :
    (State.stepStart s next final).Ok qs := by
  unfold State.stepStart
  repeat' first
    | with_reducible assumption
    | (intro t; refine (have ht : State.Ok qs t := ?_; ?_); (on_goal 2 => clear_value t); (on_goal 1 => subst t))
    | intro t
    | lift_lets
    | with_reducible apply State.domAll_ok
    | with_reducible apply State.lanesIdle_ok
    | with_reducible apply State.park_ok
    | with_reducible apply State.perfEval_ok
    | with_reducible apply State.set_ok
    | with_reducible exact mk_ok (by with_reducible assumption) (by with_reducible rfl)
    | split

theorem State.ask_ok {qs : List Instr} {s : State} (tgt : ℕ) (wake : ℕ) (hs : s.Ok qs) :
    (State.ask s tgt wake).Ok qs := by
  unfold State.ask
  repeat' first
    | with_reducible assumption
    | with_reducible apply State.refuse_ok
    | with_reducible apply State.stepStart_ok
    | with_reducible refine ite_ok ?_ ?_

theorem State.goReq_ok {qs : List Instr} {s : State} (tgt : ℕ) (wake : ℕ) (hs : s.Ok qs) :
    (State.goReq s tgt wake).Ok qs := by
  unfold State.goReq
  repeat' first
    | with_reducible assumption
    | (intro t; refine (have ht : State.Ok qs t := ?_; ?_); (on_goal 2 => clear_value t); (on_goal 1 => subst t))
    | lift_lets
    | with_reducible apply State.ask_ok
    | with_reducible apply State.refuse_ok
    | with_reducible exact mk_ok (by with_reducible assumption) (by with_reducible rfl)
    | split

theorem State.noChange_ok {qs : List Instr} {s : State} (hs : s.Ok qs) :
    (State.noChange s).Ok qs := by
  unfold State.noChange
  repeat' first
    | with_reducible assumption
    | with_reducible apply State.set_ok
    | with_reducible exact mk_ok (by with_reducible assumption) (by with_reducible rfl)

theorem State.stepLast_ok {qs : List Instr} {s : State} (old : ℕ) (new : ℕ) (hs : s.Ok qs) :
    (State.stepLast s old new).Ok qs := by
  unfold State.stepLast
  repeat' first
    | with_reducible assumption
    | split
    | with_reducible apply State.hushEntry_ok
    | with_reducible apply State.hushExit_ok
    | with_reducible apply State.laneOff_ok
    | with_reducible apply State.laneOn_ok
    | with_reducible apply State.linkDownOp_ok
    | with_reducible apply State.park_ok
    | with_reducible refine foldl_ok ?_ (fun t e ht => ?_)
    | with_reducible exact mk_ok (by with_reducible assumption) (by with_reducible rfl)

theorem State.allOff_ok {qs : List Instr} {s : State} (hs : s.Ok qs) :
    (State.allOff s).Ok qs := by
  unfold State.allOff
  repeat' first
    | with_reducible assumption
    | with_reducible apply State.coachLeave_ok
    | with_reducible apply State.domLeave_ok
    | with_reducible apply State.domLose_ok
    | with_reducible apply State.opKill_ok
    | with_reducible apply State.setDom_ok
    | with_reducible refine ite_ok ?_ ?_
    | with_reducible refine foldl_ok ?_ (fun t e ht => ?_)

theorem State.stepEnd_ok {qs : List Instr} {s : State} (new : ℕ) (hs : s.Ok qs) :
    (State.stepEnd s new).Ok qs := by
  unfold State.stepEnd
  repeat' first
    | with_reducible assumption
    | with_reducible apply State.allOff_ok
    | with_reducible apply State.devTo_ok
    | with_reducible apply State.domSettle_ok
    | with_reducible apply State.limSnap_ok
    | with_reducible apply State.lisPower_ok
    | with_reducible apply State.noChange_ok
    | with_reducible apply State.perfEval_ok
    | with_reducible apply State.perfSettle_ok
    | with_reducible apply State.stepLast_ok
    | with_reducible exact mk_ok (by with_reducible assumption) (by with_reducible rfl)
    | split

theorem State.takePend_ok {qs : List Instr} {s : State} (wake : ℕ) (hs : s.Ok qs) :
    (State.takePend s wake).Ok qs := by
  unfold State.takePend
  repeat' first
    | with_reducible assumption
    | split
    | with_reducible apply State.ask_ok
    | with_reducible exact mk_ok (by with_reducible assumption) (by with_reducible rfl)

theorem State.stepNext_ok {qs : List Instr} {s : State} (wake : ℕ) (hs : s.Ok qs) :
    (State.stepNext s wake).Ok qs := by
  unfold State.stepNext
  repeat' first
    | with_reducible assumption
    | with_reducible apply State.refuse_ok
    | with_reducible apply State.stepStart_ok
    | with_reducible apply State.takePend_ok
    | with_reducible refine ite_ok ?_ ?_
    | with_reducible exact mk_ok (by with_reducible assumption) (by with_reducible rfl)

theorem State.changeDone_ok {qs : List Instr} {s : State} (wake : ℕ) (hs : s.Ok qs) :
    (State.changeDone s wake).Ok qs := by
  unfold State.changeDone
  repeat' first
    | with_reducible assumption
    | split
    | with_reducible apply State.stepEnd_ok
    | with_reducible apply State.stepNext_ok

theorem execStateChangeDone_ok {qs : List Instr} (wake : ℕ) {s : State} {u : State} (hs : s.Ok qs) (e : execStateChangeDone wake s = .next u) :
    u.Ok qs := by
  unfold execStateChangeDone at e; cases e
  repeat' first
    | with_reducible assumption
    | with_reducible apply State.changeDone_ok
    | with_reducible apply State.mlcPath_ok

theorem State.pendDrop_ok {qs : List Instr} {s : State} (hs : s.Ok qs) :
    (State.pendDrop s).Ok qs := by
  unfold State.pendDrop
  repeat' first
    | with_reducible assumption
    | split
    | with_reducible apply State.refuse_ok
    | with_reducible exact mk_ok (by with_reducible assumption) (by with_reducible rfl)

theorem State.forceVigil_ok {qs : List Instr} {s : State} (r45 : Bool) (hs : s.Ok qs) :
    (State.forceVigil s r45).Ok qs := by
  unfold State.forceVigil
  repeat' first
    | with_reducible assumption
    | (intro t; refine (have ht : State.Ok qs t := ?_; ?_); (on_goal 2 => clear_value t); (on_goal 1 => subst t))
    | lift_lets
    | with_reducible apply State.cplHand_ok
    | with_reducible apply State.domAll_ok
    | with_reducible apply State.noChange_ok
    | with_reducible apply State.pendDrop_ok
    | with_reducible apply State.perfEval_ok
    | with_reducible apply State.stepStart_ok
    | with_reducible refine ite_ok ?_ ?_
    | with_reducible exact mk_ok (by with_reducible assumption) (by with_reducible rfl)
    | split

theorem State.dormAbandon_ok {qs : List Instr} {s : State} (hs : s.Ok qs) :
    (State.dormAbandon s).Ok qs := by
  unfold State.dormAbandon
  repeat' first
    | with_reducible assumption
    | with_reducible apply State.noChange_ok
    | with_reducible apply State.refuse_ok

end Sys2Proof.Machine
end

