-- ==== Sys2Proof/Laws/KeepStart.lean ====
section
/-!
SUPPORT. The operations of Machine/Start.lean keep what Laws/Keep.lean says.
-/

set_option linter.all false

namespace Sys2Proof.Machine

theorem State.supTo_ok {qs : List Instr} {s : State} (p : SupPath) (hs : s.Ok qs) :
    (State.supTo s p).Ok qs := by
  unfold State.supTo
  repeat' first
    | with_reducible assumption
    | with_reducible apply State.set_ok
    | with_reducible exact mk_ok (by with_reducible assumption) (by with_reducible rfl)

theorem State.bootVigil_ok {qs : List Instr} {s : State} (hs : s.Ok qs) :
    (State.bootVigil s).Ok qs := by
  unfold State.bootVigil
  repeat' first
    | with_reducible assumption
    | with_reducible apply State.devTo_ok
    | with_reducible apply State.domAll_ok
    | with_reducible apply State.domSettle_ok
    | with_reducible apply State.lisPower_ok
    | with_reducible apply State.park_ok
    | with_reducible refine ite_ok ?_ ?_
    | with_reducible exact mk_ok (by with_reducible assumption) (by with_reducible rfl)

theorem State.startKept_ok {qs : List Instr} {s : State} (kind n : Nat) (hs : s.Ok qs) : (State.startKept s kind n).Ok qs :=
  ⟨kok_filter _ hs.regs, memory_wf_filter _ hs.mem, rfl, hs.queue⟩

theorem State.startRegs_ok {qs : List Instr} {t : State} {s1 : State} (kind : ℕ) (rec' : ℕ) (ht : t.Ok qs) (hs1 : s1.Ok qs) :
    (State.startRegs t s1 kind rec').Ok qs := by
  unfold State.startRegs
  repeat' first
    | with_reducible assumption
    | with_reducible apply State.fresh_ok
    | with_reducible apply State.raiseIf_ok
    | with_reducible apply State.sets_ok
    | split

theorem State.startState_ok {qs : List Instr} {t : State} (rec' : ℕ) (bridging : Bool) (ht : t.Ok qs) :
    (State.startState t rec' bridging).Ok qs := by
  unfold State.startState
  repeat' first
    | with_reducible assumption
    | with_reducible apply State.bootVigil_ok
    | with_reducible apply State.devTo_ok
    | with_reducible apply State.raise_ok
    | with_reducible apply State.set_ok
    | with_reducible refine ite_ok ?_ ?_

theorem State.plicStart_ok {qs : List Instr} {t : State} (ht : t.Ok qs) :
    (State.plicStart t).Ok qs := by
  unfold State.plicStart
  repeat' first
    | with_reducible assumption
    | with_reducible apply State.plicSample_ok
    | with_reducible refine foldl_ok ?_ (fun t e ht => ?_)

theorem State.start_ok {qs : List Instr} {s : State} (kind : ℕ) (n : ℕ) (hs : s.Ok qs) :
    (State.start s kind n).Ok qs := by
  unfold State.start
  repeat' first
    | with_reducible assumption
    | with_reducible apply State.plicStart_ok
    | with_reducible apply State.startKept_ok
    | with_reducible apply State.startRegs_ok
    | with_reducible apply State.startState_ok
    | with_reducible apply State.timeRestore_ok

theorem State.dieOff_ok {qs : List Instr} {s : State} (p : Phase) (life : ℕ) (hs : s.Ok qs) :
    (State.dieOff s p life).Ok qs := by
  unfold State.dieOff
  repeat' first
    | with_reducible assumption
    | with_reducible apply State.set_ok
    | with_reducible refine foldl_ok ?_ (fun t e ht => ?_)
    | with_reducible exact mk_ok (by with_reducible assumption) (by with_reducible rfl)

theorem State.leaveOff_ok {qs : List Instr} {s : State} (hs : s.Ok qs) :
    (State.leaveOff s).Ok qs := by
  unfold State.leaveOff
  repeat' first
    | with_reducible assumption
    | with_reducible apply State.start_ok
    | with_reducible apply State.supTo_ok
    | with_reducible refine ite_ok ?_ ?_

theorem State.supPin_ok {qs : List Instr} {s : State} (f : Fld) (v : Bool) (ev : ℕ) (hs : s.Ok qs) :
    (State.supPin s f v ev).Ok qs := by
  unfold State.supPin
  repeat' first
    | with_reducible assumption
    | with_reducible apply State.raiseIf_ok
    | with_reducible apply State.set_ok

theorem State.mainsGood_ok {qs : List Instr} {s : State} (hs : s.Ok qs) :
    (State.mainsGood s).Ok qs := by
  unfold State.mainsGood
  repeat' first
    | with_reducible assumption
    | (intro t; refine (have ht : State.Ok qs t := ?_; ?_); (on_goal 2 => clear_value t); (on_goal 1 => subst t))
    | lift_lets
    | with_reducible apply State.leaveOff_ok
    | with_reducible apply State.supPin_ok
    | with_reducible apply State.supTo_ok
    | split

theorem execMainsGood_ok {qs : List Instr} {s : State} {u : State} (hs : s.Ok qs) (e : execMainsGood s = .next u) :
    u.Ok qs := by
  unfold execMainsGood at e; cases e
  repeat' first
    | with_reducible assumption
    | with_reducible apply State.mainsGood_ok

theorem State.bridge_ok {qs : List Instr} {s : State} (hs : s.Ok qs) :
    (State.bridge s).Ok qs := by
  unfold State.bridge
  repeat' first
    | with_reducible assumption
    | with_reducible apply State.bootVigil_ok
    | with_reducible apply State.supTo_ok

theorem State.mainsLoss_ok {qs : List Instr} {s : State} (hs : s.Ok qs) :
    (State.mainsLoss s).Ok qs := by
  unfold State.mainsLoss
  repeat' first
    | with_reducible assumption
    | (intro t; refine (have ht : State.Ok qs t := ?_; ?_); (on_goal 2 => clear_value t); (on_goal 1 => subst t))
    | lift_lets
    | with_reducible apply State.bridge_ok
    | with_reducible apply State.supPin_ok
    | with_reducible apply State.supTo_ok
    | split

theorem execMainsLoss_ok {qs : List Instr} {s : State} {u : State} (hs : s.Ok qs) (e : execMainsLoss s = .next u) :
    u.Ok qs := by
  unfold execMainsLoss at e; cases e
  repeat' first
    | with_reducible assumption
    | with_reducible apply State.mainsLoss_ok

theorem execMainsReturn_ok {qs : List Instr} {s : State} {u : State} (hs : s.Ok qs) (e : execMainsReturn s = .next u) :
    u.Ok qs := by
  unfold execMainsReturn at e; cases e
  repeat' first
    | with_reducible assumption
    | with_reducible apply State.supTo_ok
    | with_reducible refine ite_ok ?_ ?_

theorem State.backupGood_ok {qs : List Instr} {s : State} (volts : ℕ) (hs : s.Ok qs) :
    (State.backupGood s volts).Ok qs := by
  unfold State.backupGood
  repeat' first
    | with_reducible assumption
    | (intro t; refine (have ht : State.Ok qs t := ?_; ?_); (on_goal 2 => clear_value t); (on_goal 1 => subst t))
    | lift_lets
    | with_reducible apply State.leaveOff_ok
    | with_reducible apply State.set_ok
    | with_reducible apply State.supPin_ok
    | with_reducible apply State.supTo_ok
    | split

theorem execBackupGood_ok {qs : List Instr} (volts : ℕ) {s : State} {u : State} (hs : s.Ok qs) (e : execBackupGood volts s = .next u) :
    u.Ok qs := by
  unfold execBackupGood at e; cases e
  repeat' first
    | with_reducible assumption
    | with_reducible apply State.backupGood_ok

theorem State.backupLoss_ok {qs : List Instr} {s : State} (volts : ℕ) (hs : s.Ok qs) :
    (State.backupLoss s volts).Ok qs := by
  unfold State.backupLoss
  repeat' first
    | with_reducible assumption
    | with_reducible apply State.bridge_ok
    | with_reducible apply State.set_ok
    | with_reducible apply State.supPin_ok
    | with_reducible apply State.supTo_ok
    | with_reducible refine ite_ok ?_ ?_

theorem execBackupLoss_ok {qs : List Instr} (volts : ℕ) {s : State} {u : State} (hs : s.Ok qs) (e : execBackupLoss volts s = .next u) :
    u.Ok qs := by
  unfold execBackupLoss at e; cases e
  repeat' first
    | with_reducible assumption
    | with_reducible apply State.backupLoss_ok

theorem State.bridgeExpire_ok {qs : List Instr} {s : State} (hs : s.Ok qs) :
    (State.bridgeExpire s).Ok qs := by
  unfold State.bridgeExpire
  repeat' first
    | with_reducible assumption
    | with_reducible apply State.forceVigil_ok
    | with_reducible refine ite_ok ?_ ?_
    | with_reducible exact mk_ok (by with_reducible assumption) (by with_reducible rfl)

theorem execBridgeTimerExpire_ok {qs : List Instr} {s : State} {u : State} (hs : s.Ok qs) (e : execBridgeTimerExpire s = .next u) :
    u.Ok qs := by
  unfold execBridgeTimerExpire at e; cases e
  repeat' first
    | with_reducible assumption
    | with_reducible apply State.bridgeExpire_ok

theorem State.storeEnd_ok {qs : List Instr} {s : State} (hs : s.Ok qs) :
    (State.storeEnd s).Ok qs := by
  unfold State.storeEnd
  repeat' first
    | with_reducible assumption
    | with_reducible apply State.dieOff_ok
    | with_reducible apply State.supTo_ok
    | with_reducible refine ite_ok ?_ ?_

theorem execStoreExhausted_ok {qs : List Instr} {s : State} {u : State} (hs : s.Ok qs) (e : execStoreExhausted s = .next u) :
    u.Ok qs := by
  unfold execStoreExhausted at e; cases e
  repeat' first
    | with_reducible assumption
    | with_reducible apply State.storeEnd_ok

theorem State.thermWarn_ok {qs : List Instr} {s : State} (hs : s.Ok qs) :
    (State.thermWarn s).Ok qs := by
  unfold State.thermWarn
  repeat' first
    | with_reducible assumption
    | with_reducible apply State.raise_ok
    | with_reducible apply State.set_ok
    | with_reducible refine ite_ok ?_ ?_

theorem State.feel_ok {qs : List Instr} {s : State} (x : ℤ) (hs : s.Ok qs) :
    (State.feel s x).Ok qs := by
  unfold State.feel
  repeat' first
    | with_reducible assumption
    | with_reducible apply State.setI_ok

theorem execThermWarn_ok {qs : List Instr} (temp : ℤ) {s : State} {u : State} (hs : s.Ok qs) (e : execThermWarn temp s = .next u) :
    u.Ok qs := by
  unfold execThermWarn at e; cases e
  repeat' first
    | with_reducible assumption
    | with_reducible apply State.feel_ok
    | with_reducible apply State.thermWarn_ok

theorem State.warnClear_ok {qs : List Instr} {s : State} (hs : s.Ok qs) :
    (State.warnClear s).Ok qs := by
  unfold State.warnClear
  repeat' first
    | with_reducible assumption
    | with_reducible apply State.set_ok
    | with_reducible refine ite_ok ?_ ?_

theorem execWarnClear_ok {qs : List Instr} (temp : ℤ) {s : State} {u : State} (hs : s.Ok qs) (e : execWarnClear temp s = .next u) :
    u.Ok qs := by
  unfold execWarnClear at e; cases e
  repeat' first
    | with_reducible assumption
    | with_reducible apply State.feel_ok
    | with_reducible apply State.warnClear_ok

theorem State.thermHold_ok {qs : List Instr} {s : State} (hs : s.Ok qs) :
    (State.thermHold s).Ok qs := by
  unfold State.thermHold
  repeat' first
    | with_reducible assumption
    | with_reducible apply State.bootVigil_ok
    | with_reducible apply State.forceVigil_ok
    | with_reducible apply State.raise_ok
    | with_reducible apply State.set_ok
    | with_reducible apply State.thermWarn_ok
    | with_reducible refine ite_ok ?_ ?_

theorem execThermHold_ok {qs : List Instr} (temp : ℤ) {s : State} {u : State} (hs : s.Ok qs) (e : execThermHold temp s = .next u) :
    u.Ok qs := by
  unfold execThermHold at e; cases e
  repeat' first
    | with_reducible assumption
    | with_reducible apply State.feel_ok
    | with_reducible apply State.thermHold_ok

theorem State.thermClear_ok {qs : List Instr} {s : State} (hs : s.Ok qs) :
    (State.thermClear s).Ok qs := by
  unfold State.thermClear
  repeat' first
    | with_reducible assumption
    | with_reducible apply State.raise_ok
    | with_reducible apply State.set_ok
    | with_reducible refine ite_ok ?_ ?_

theorem execThermClear_ok {qs : List Instr} (temp : ℤ) {s : State} {u : State} (hs : s.Ok qs) (e : execThermClear temp s = .next u) :
    u.Ok qs := by
  unfold execThermClear at e; cases e
  repeat' first
    | with_reducible assumption
    | with_reducible apply State.feel_ok
    | with_reducible apply State.thermClear_ok

theorem State.thermCut_ok {qs : List Instr} {s : State} (hs : s.Ok qs) :
    (State.thermCut s).Ok qs := by
  unfold State.thermCut
  repeat' first
    | with_reducible assumption
    | (intro t; refine (have ht : State.Ok qs t := ?_; ?_); (on_goal 2 => clear_value t); (on_goal 1 => subst t))
    | lift_lets
    | with_reducible apply State.dieOff_ok
    | with_reducible apply State.supTo_ok
    | with_reducible refine ite_ok ?_ ?_
    | with_reducible exact mk_ok (by with_reducible assumption) (by with_reducible rfl)

theorem execThermalCut_ok {qs : List Instr} (temp : ℤ) {s : State} {u : State} (hs : s.Ok qs) (e : execThermalCut temp s = .next u) :
    u.Ok qs := by
  unfold execThermalCut at e; cases e
  repeat' first
    | with_reducible assumption
    | with_reducible apply State.feel_ok
    | with_reducible apply State.thermCut_ok

theorem execThermalCutRecover_ok {qs : List Instr} (temp : ℤ) {s : State} {u : State} (hs : s.Ok qs) (e : execThermalCutRecover temp s = .next u) :
    u.Ok qs := by
  unfold execThermalCutRecover at e; cases e
  repeat' first
    | with_reducible assumption
    | with_reducible apply State.feel_ok
    | with_reducible apply State.leaveOff_ok
    | split

theorem State.nresetLow_ok {qs : List Instr} {s : State} (hs : s.Ok qs) :
    (State.nresetLow s).Ok qs := by
  unfold State.nresetLow
  repeat' first
    | with_reducible assumption
    | (intro t; refine (have ht : State.Ok qs t := ?_; ?_); (on_goal 2 => clear_value t); (on_goal 1 => subst t))
    | intro t
    | lift_lets
    | with_reducible apply State.dieOff_ok
    | with_reducible refine ite_ok ?_ ?_
    | with_reducible exact mk_ok (by with_reducible assumption) (by with_reducible rfl)

theorem execNresetLow_ok {qs : List Instr} {s : State} {u : State} (hs : s.Ok qs) (e : execNresetLow s = .next u) :
    u.Ok qs := by
  unfold execNresetLow at e; cases e
  repeat' first
    | with_reducible assumption
    | with_reducible apply State.nresetLow_ok

theorem execNresetRelease_ok {qs : List Instr} {s : State} {u : State} (hs : s.Ok qs) (e : execNresetRelease s = .next u) :
    u.Ok qs := by
  unfold execNresetRelease at e; cases e
  repeat' first
    | with_reducible assumption
    | with_reducible apply State.start_ok
    | with_reducible refine ite_ok ?_ ?_

theorem State.dieStop_ok {qs : List Instr} {s : State} (cause : ℕ) (cls : ℕ) (hs : s.Ok qs) :
    (State.dieStop s cause cls).Ok qs := by
  unfold State.dieStop
  repeat' first
    | with_reducible assumption
    | (intro t; refine (have ht : State.Ok qs t := ?_; ?_); (on_goal 2 => clear_value t); (on_goal 1 => subst t))
    | intro t
    | lift_lets
    | with_reducible apply State.dieOff_ok
    | with_reducible apply State.opKill_ok
    | with_reducible apply State.sets_ok
    | with_reducible refine ite_ok ?_ ?_
    | with_reducible refine foldl_ok ?_ (fun t e ht => ?_)
    | with_reducible exact mk_ok (by with_reducible assumption) (by with_reducible rfl)

theorem execHandshakeStall_ok {qs : List Instr} (cls : ℕ) {s : State} {u : State} (hs : s.Ok qs) (e : execHandshakeStall cls s = .next u) :
    u.Ok qs := by
  unfold execHandshakeStall at e; cases e
  repeat' first
    | with_reducible assumption
    | with_reducible apply State.dieStop_ok

theorem execRailFault_ok {qs : List Instr} {s : State} {u : State} (hs : s.Ok qs) (e : execRailFault s = .next u) :
    u.Ok qs := by
  unfold execRailFault at e; cases e
  repeat' first
    | with_reducible assumption
    | with_reducible apply State.dieStop_ok

theorem execTickLockLost_ok {qs : List Instr} {s : State} {u : State} (hs : s.Ok qs) (e : execTickLockLost s = .next u) :
    u.Ok qs := by
  unfold execTickLockLost at e; cases e
  repeat' first
    | with_reducible assumption
    | with_reducible apply State.dieStop_ok

theorem execStopholdExpire_ok {qs : List Instr} {s : State} {u : State} (hs : s.Ok qs) (e : execStopholdExpire s = .next u) :
    u.Ok qs := by
  unfold execStopholdExpire at e; cases e
  repeat' first
    | with_reducible assumption
    | with_reducible apply State.fltCnt_ok
    | with_reducible apply State.raise_ok
    | with_reducible apply State.start_ok
    | with_reducible refine ite_ok ?_ ?_

theorem State.wakeNote_ok {qs : List Instr} {s : State} (src : ℕ) (dorm : Bool) (hs : s.Ok qs) :
    (State.wakeNote s src dorm).Ok qs := by
  unfold State.wakeNote
  repeat' first
    | with_reducible assumption
    | with_reducible apply State.pwrCnt_ok
    | with_reducible apply State.raise_ok
    | with_reducible apply State.sets_ok

theorem State.wakeDie_ok {qs : List Instr} {s : State} (src : ℕ) (n : ℕ) (hs : s.Ok qs) :
    (State.wakeDie s src n).Ok qs := by
  unfold State.wakeDie
  repeat' first
    | with_reducible assumption
    | with_reducible apply State.start_ok
    | with_reducible apply State.wakeNote_ok

theorem State.wake_ok {qs : List Instr} {s : State} (src : ℕ) (n : ℕ) (hs : s.Ok qs) :
    (State.wake s src n).Ok qs := by
  unfold State.wake
  repeat' first
    | with_reducible assumption
    | with_reducible apply State.dormAbandon_ok
    | with_reducible apply State.stepStart_ok
    | with_reducible apply State.takePend_ok
    | with_reducible apply State.wakeDie_ok
    | with_reducible apply State.wakeNote_ok
    | split

theorem execWakeSource_ok {qs : List Instr} (src : ℕ) (edges : ℕ) {s : State} {u : State} (hs : s.Ok qs) (e : execWakeSource src edges s = .next u) :
    u.Ok qs := by
  unfold execWakeSource at e; cases e
  repeat' first
    | with_reducible assumption
    | with_reducible apply State.wake_ok

theorem execDormantAlarm_ok {qs : List Instr} (edges : ℕ) {s : State} {u : State} (hs : s.Ok qs) (e : execDormantAlarm edges s = .next u) :
    u.Ok qs := by
  unfold execDormantAlarm at e; cases e
  repeat' first
    | with_reducible assumption
    | with_reducible apply State.wakeDie_ok
    | split

end Sys2Proof.Machine
end

