-- ==== Sys2Proof/Laws/KeepWrites.lean ====
section
/-!
SUPPORT. The operations of Machine/Writes.lean keep what Laws/Keep.lean says.
-/

set_option linter.all false

namespace Sys2Proof.Machine

theorem State.fldWrite_ok {qs : List Instr} {s0 : State} (rq : Rq) (w : ℕ) (off : ℕ) (j : ℕ) (v : ℕ) {s : State} (f : FldRow) (hs0 : s0.Ok qs) (hs : s.Ok qs) :
    (State.fldWrite s0 rq w off j v s f).Ok qs := by
  unfold State.fldWrite
  repeat' first
    | with_reducible assumption
    | with_reducible apply State.errRec_ok
    | with_reducible apply State.raise_ok
    | with_reducible apply State.raiseIf_ok
    | with_reducible apply State.set_ok
    | with_reducible refine ite_ok ?_ ?_
    | split

theorem State.tabWrite_ok {qs : List Instr} {s : State} (rq : Rq) (w : ℕ) (off : ℕ) (v : ℕ) (hs : s.Ok qs) :
    (State.tabWrite s rq w off v).Ok qs := by
  unfold State.tabWrite
  repeat' first
    | with_reducible assumption
    | split
    | with_reducible apply State.fldWrite_ok
    | with_reducible refine foldl_ok ?_ (fun t e ht => ?_)

theorem State.multiStore_ok {qs : List Instr} {s : State} (rq : Rq) (w : ℕ) (l : List ℕ) (ws : List ℕ) (hs : s.Ok qs) :
    (State.multiStore s rq w l ws).Ok qs := by
  unfold State.multiStore
  repeat' first
    | with_reducible assumption
    | with_reducible apply State.askLoad_ok
    | with_reducible apply State.setIncr_ok
    | with_reducible apply State.tabWrite_ok
    | with_reducible refine foldl_ok ?_ (fun t e ht => ?_)
    | with_reducible exact mk_ok (by with_reducible assumption) (by with_reducible rfl)
    | split

theorem State.multiWrite_ok {qs : List Instr} {s : State} (rq : Rq) (w : ℕ) (off : ℕ) (v : ℕ) (l : List ℕ) (hs : s.Ok qs) :
    (State.multiWrite s rq w off v l).Ok qs := by
  unfold State.multiWrite
  repeat' first
    | with_reducible assumption
    | with_reducible apply State.multiStore_ok
    | with_reducible exact mk_ok (by with_reducible assumption) (by with_reducible rfl)
    | split

theorem State.nfDrop_ok {qs : List Instr} {s : State} (r : ℕ) (i : ℕ) (hs : s.Ok qs) :
    (State.nfDrop s r i).Ok qs := by
  unfold State.nfDrop
  repeat' first
    | with_reducible assumption
    | with_reducible exact mk_ok (by with_reducible assumption) (by with_reducible rfl)
    | split

theorem State.calWrite_ok {qs : List Instr} {s : State} (rq : Rq) (r : ℕ) (k : ℕ) (v : ℕ) (hs : s.Ok qs) :
    (State.calWrite s rq r k v).Ok qs := by
  unfold State.calWrite
  repeat' first
    | with_reducible assumption
    | with_reducible apply State.errRec_ok
    | with_reducible apply State.nfDrop_ok
    | with_reducible apply State.setCalW_ok
    | with_reducible refine ite_ok ?_ ?_

theorem State.lcfgWrite_ok {qs : List Instr} {s : State} (rq : Rq) (v : ℕ) (hs : s.Ok qs) :
    (State.lcfgWrite s rq v).Ok qs := by
  unfold State.lcfgWrite
  repeat' first
    | with_reducible assumption
    | (intro t; refine (have ht : State.Ok qs t := ?_; ?_); (on_goal 2 => clear_value t); (on_goal 1 => subst t))
    | intro t
    | lift_lets
    | with_reducible apply State.errRec_ok
    | with_reducible exact mk_ok (by with_reducible assumption) (by with_reducible rfl)
    | split

theorem State.grantWrite_ok {qs : List Instr} {s : State} (k : ℕ) (v : ℕ) (hs : s.Ok qs) :
    (State.grantWrite s k v).Ok qs := by
  unfold State.grantWrite
  repeat' first
    | with_reducible assumption
    | with_reducible apply State.setGrantW_ok
    | with_reducible refine ite_ok ?_ ?_

theorem State.twtWrite_ok {qs : List Instr} {s : State} (rq : Rq) (k : ℕ) (v : ℕ) (hs : s.Ok qs) :
    (State.twtWrite s rq k v).Ok qs := by
  unfold State.twtWrite
  repeat' first
    | with_reducible assumption
    | with_reducible apply State.setTwtW_ok
    | with_reducible apply State.twtClear_ok
    | with_reducible apply State.twtValid_ok
    | with_reducible refine ite_ok ?_ ?_

theorem State.hookTime_ok {qs : List Instr} {s : State} {o : State} (off : ℕ) (v : ℕ) (hs : s.Ok qs) (ho : o.Ok qs) :
    (State.hookTime s o off v).Ok qs := by
  unfold State.hookTime
  repeat' first
    | with_reducible assumption
    | split
    | with_reducible apply State.askStep_ok
    | with_reducible apply State.driftCheck_ok
    | with_reducible apply State.measure_ok
    | with_reducible apply State.refChoose_ok
    | with_reducible apply State.setSlew_ok
    | with_reducible apply State.setUnc_ok
    | with_reducible apply State.srcWritten_ok
    | with_reducible exact mk_ok (by with_reducible assumption) (by with_reducible rfl)

theorem State.hookPwr_ok {qs : List Instr} {s : State} {o : State} (w : ℕ) (off : ℕ) (v : ℕ) (wake : ℕ) (hs : s.Ok qs) (ho : o.Ok qs) :
    (State.hookPwr s o w off v wake).Ok qs := by
  unfold State.hookPwr
  repeat' first
    | with_reducible assumption
    | with_reducible apply State.dieStop_ok
    | with_reducible apply State.domAll_ok
    | with_reducible apply State.fltRestoreOp_ok
    | with_reducible apply State.goReq_ok
    | with_reducible apply State.perfEval_ok
    | with_reducible apply State.sets_ok
    | split

theorem State.restGo_ok {qs : List Instr} {s : State} (r : ℕ) (p : ℕ) (hs : s.Ok qs) :
    (State.restGo s r p).Ok qs := by
  unfold State.restGo
  repeat' first
    | with_reducible assumption
    | with_reducible apply State.pathGo_ok
    | split

theorem State.hookRfe_ok {qs : List Instr} {s : State} (r : ℕ) (off : ℕ) (v : ℕ) (hs : s.Ok qs) :
    (State.hookRfe s r off v).Ok qs := by
  unfold State.hookRfe
  repeat' first
    | with_reducible assumption
    | with_reducible apply State.cancClr_ok
    | with_reducible apply State.cancSav_ok
    | with_reducible apply State.restGo_ok
    | with_reducible apply State.setCoex_ok
    | split

theorem State.hookMesh_ok {qs : List Instr} {s : State} {o : State} (rq : Rq) (w : ℕ) (off : ℕ) (v : ℕ) (hs : s.Ok qs) (ho : o.Ok qs) :
    (State.hookMesh s o rq w off v).Ok qs := by
  unfold State.hookMesh
  repeat' first
    | with_reducible assumption
    | with_reducible apply State.eqArm_ok
    | with_reducible apply State.mnGo_ok
    | with_reducible apply State.setTile_ok
    | with_reducible apply State.sfArm_ok
    | with_reducible apply State.tileEn_ok
    | with_reducible apply State.winCommit_ok
    | split

theorem State.hookWlan_ok {qs : List Instr} {s : State} (rq : Rq) (w : ℕ) (off : ℕ) (v : ℕ) (hs : s.Ok qs) :
    (State.hookWlan s rq w off v).Ok qs := by
  unfold State.hookWlan
  repeat' first
    | with_reducible assumption
    | with_reducible apply State.chanCommit_ok
    | with_reducible apply State.setWl_ok
    | with_reducible apply State.staGo_ok
    | with_reducible apply State.wEqArm_ok
    | split

theorem State.hookYard_ok {qs : List Instr} {s : State} (rq : Rq) (w : ℕ) (off : ℕ) (v : ℕ) (hs : s.Ok qs) :
    (State.hookYard s rq w off v).Ok qs := by
  unfold State.hookYard
  repeat' first
    | with_reducible assumption
    | with_reducible apply State.pbArmOp_ok
    | with_reducible apply State.swCouple_ok
    | with_reducible apply State.swCreate_ok
    | with_reducible apply State.watchBack_ok
    | with_reducible apply State.watchChg_ok
    | split

theorem State.hookNet_ok {qs : List Instr} {s : State} {o : State} (rq : Rq) (w : ℕ) (off : ℕ) (v : ℕ) (hs : s.Ok qs) (ho : o.Ok qs) :
    (State.hookNet s o rq w off v).Ok qs := by
  unfold State.hookNet
  repeat' first
    | with_reducible assumption
    | with_reducible apply State.cplHand_ok
    | with_reducible apply State.cplResyncOp_ok
    | with_reducible apply State.laneIdle_ok
    | with_reducible apply State.laneRetrain_ok
    | with_reducible apply State.pauseAsk_ok
    | with_reducible apply State.portSync_ok
    | with_reducible apply State.raise_ok
    | with_reducible apply State.setShp_ok
    | with_reducible apply State.shpGo_ok
    | with_reducible apply State.tabWrite_ok
    | with_reducible apply State.tlOff_ok
    | with_reducible apply State.tlOn_ok
    | with_reducible apply State.tlSwap_ok
    | with_reducible refine ite_ok ?_ ?_

theorem State.hookCore_ok {qs : List Instr} {s : State} (rq : Rq) (w : ℕ) (off : ℕ) (v : ℕ) (hs : s.Ok qs) :
    (State.hookCore s rq w off v).Ok qs := by
  unfold State.hookCore
  repeat' first
    | with_reducible assumption
    | with_reducible apply State.hartStart_ok
    | with_reducible apply State.memAllocOp_ok
    | with_reducible apply State.memFreeOp_ok
    | with_reducible apply State.mirrorSet_ok
    | split

theorem State.hook_ok {qs : List Instr} {s : State} {o : State} (rq : Rq) (w : ℕ) (off : ℕ) (v : ℕ) (wake : ℕ) (hs : s.Ok qs) (ho : o.Ok qs) :
    (State.hook s o rq w off v wake).Ok qs := by
  unfold State.hook
  repeat' first
    | with_reducible assumption
    | with_reducible apply State.hookCore_ok
    | with_reducible apply State.hookMesh_ok
    | with_reducible apply State.hookNet_ok
    | with_reducible apply State.hookPwr_ok
    | with_reducible apply State.hookRfe_ok
    | with_reducible apply State.hookTime_ok
    | with_reducible apply State.hookWlan_ok
    | with_reducible apply State.hookYard_ok
    | split

theorem State.blockWrite_ok {qs : List Instr} {s : State} (rq : Rq) (w : ℕ) (off : ℕ) (v : ℕ) (wake : ℕ) (hs : s.Ok qs) :
    (State.blockWrite s rq w off v wake).Ok qs := by
  unfold State.blockWrite
  repeat' first
    | with_reducible assumption
    | split
    | with_reducible apply State.calWrite_ok
    | with_reducible apply State.grantWrite_ok
    | with_reducible apply State.hook_ok
    | with_reducible apply State.hookTime_ok
    | with_reducible apply State.lcfgWrite_ok
    | with_reducible apply State.multiWrite_ok
    | with_reducible apply State.tabWrite_ok
    | with_reducible apply State.tsfWrite_ok
    | with_reducible apply State.twtWrite_ok

theorem State.lockWr_ok {qs : List Instr} {s : State} (w : ℕ) (v : ℕ) (hs : s.Ok qs) :
    (State.lockWr s w v).Ok qs := by
  unfold State.lockWr
  repeat' first
    | with_reducible assumption
    | with_reducible apply State.sets_ok
    | split

theorem State.evClear_ok {qs : List Instr} {s : State} (w : ℕ) (v : ℕ) (hs : s.Ok qs) :
    (State.evClear s w v).Ok qs := by
  unfold State.evClear
  repeat' first
    | with_reducible assumption
    | with_reducible apply State.set_ok
    | with_reducible refine foldl_ok ?_ (fun t e ht => ?_)
    | split

theorem State.evSet_ok {qs : List Instr} {s : State} (w : ℕ) (v : ℕ) (hs : s.Ok qs) :
    (State.evSet s w v).Ok qs := by
  unfold State.evSet
  repeat' first
    | with_reducible assumption
    | with_reducible apply State.raiseIf_ok
    | with_reducible refine foldl_ok ?_ (fun t e ht => ?_)

theorem State.enableHook_ok {qs : List Instr} {s : State} (w : ℕ) (en : Bool) (hs : s.Ok qs) :
    (State.enableHook s w en).Ok qs := by
  unfold State.enableHook
  repeat' first
    | with_reducible assumption
    | with_reducible apply State.cplEnable_ok
    | with_reducible apply State.laneOff_ok
    | with_reducible apply State.laneOn_ok
    | with_reducible apply State.portSync_ok
    | with_reducible apply State.rfeCtrl_ok
    | with_reducible apply State.rfeWake_ok
    | with_reducible apply State.setWl_ok
    | with_reducible apply State.shpGo_ok
    | with_reducible exact mk_ok (by with_reducible assumption) (by with_reducible rfl)
    | split

theorem State.ctrlWr_ok {qs : List Instr} {s : State} (rq : Rq) (w : ℕ) (v : ℕ) (hs : s.Ok qs) :
    (State.ctrlWr s rq w v).Ok qs := by
  unfold State.ctrlWr
  repeat' first
    | with_reducible assumption
    | with_reducible apply State.domAll_ok
    | with_reducible apply State.domEval_ok
    | with_reducible apply State.enableHook_ok
    | with_reducible apply State.errRec_ok
    | with_reducible apply State.set_ok
    | with_reducible apply State.sresetOp_ok
    | with_reducible refine ite_ok ?_ ?_

theorem State.opGo_ok {qs : List Instr} {s : State} (rq : Rq) (w : ℕ) (hs : s.Ok qs) :
    (State.opGo s rq w).Ok qs := by
  unfold State.opGo
  repeat' first
    | with_reducible assumption
    | with_reducible apply State.boardStart_ok
    | with_reducible apply State.chkStart_ok
    | with_reducible apply State.commitStart_ok
    | with_reducible apply State.enrStart_ok
    | with_reducible apply State.nvsStart_ok
    | with_reducible apply State.rebStart_ok
    | with_reducible apply State.rfeOp_ok
    | with_reducible apply State.startLoad_ok
    | split

theorem State.loadStep_ok {qs : List Instr} {s : State} (c : ℕ) (hs : s.Ok qs) :
    (State.loadStep s c).Ok qs := by
  unfold State.loadStep
  repeat' first
    | with_reducible assumption
    | with_reducible apply State.loadUnit_ok
    | with_reducible apply State.opDone_ok
    | with_reducible refine ite_ok ?_ ?_

theorem State.opUnit_ok {qs : List Instr} {s : State} (w : ℕ) (hs : s.Ok qs) :
    (State.opUnit s w).Ok qs := by
  unfold State.opUnit
  repeat' first
    | with_reducible assumption
    | with_reducible apply State.boardUnit_ok
    | with_reducible apply State.chkUnit_ok
    | with_reducible apply State.enrUnit_ok
    | with_reducible apply State.loadStep_ok
    | with_reducible apply State.nvsUnit_ok
    | with_reducible apply State.rebUnit_ok
    | with_reducible apply State.stageUnit_ok
    | split

theorem State.opRun_ok {qs : List Instr} {s : State} (w : ℕ) (n : ℕ) (x3 : ℕ) (hs : s.Ok qs) :
    (State.opRun s w n x3).Ok qs := by
  induction x3 generalizing s w n with
  | zero =>
    unfold State.opRun
    repeat' first
      | with_reducible assumption
      | with_reducible apply ih
      | with_reducible apply State.opUnit_ok
      | split
  | succ k ih =>
    unfold State.opRun
    repeat' first
      | with_reducible assumption
      | with_reducible apply ih
      | with_reducible apply State.opUnit_ok
      | split

theorem State.opAdvance_ok {qs : List Instr} {s : State} (w : ℕ) (n : ℕ) (hs : s.Ok qs) :
    (State.opAdvance s w n).Ok qs := by
  unfold State.opAdvance
  repeat' first
    | with_reducible assumption
    | with_reducible apply State.opRun_ok

theorem State.freeCal_ok {qs : List Instr} {s : State} (hs : s.Ok qs) :
    (State.freeCal s).2.Ok qs := by
  unfold State.freeCal
  repeat' first
    | with_reducible assumption
    | with_reducible apply State.fresh_ok

theorem State.rfeAbort_ok {qs : List Instr} {s : State} (r : ℕ) (hs : s.Ok qs) :
    (State.rfeAbort s r).Ok qs := by
  unfold State.rfeAbort
  repeat' first
    | with_reducible assumption
    | with_reducible apply State.calStore_ok
    | with_reducible apply State.fgLeave_ok
    | with_reducible apply State.freeCal_ok
    | with_reducible apply State.opUnits_ok
    | with_reducible refine ite_ok ?_ ?_
    | split

theorem State.opAbort_ok {qs : List Instr} {s : State} (w : ℕ) (hs : s.Ok qs) :
    (State.opAbort s w).Ok qs := by
  unfold State.opAbort
  repeat' first
    | with_reducible assumption
    | with_reducible apply State.opFinish_ok
    | with_reducible apply State.rfeAbort_ok
    | with_reducible apply State.setRte_ok
    | split

theorem State.hdrWrite_ok {qs : List Instr} {s : State} (rq : Rq) (w : ℕ) (off : ℕ) (v : ℕ) (hs : s.Ok qs) :
    (State.hdrWrite s rq w off v).Ok qs := by
  unfold State.hdrWrite
  repeat' first
    | with_reducible assumption
    | split
    | with_reducible apply State.ctrlWr_ok
    | with_reducible apply State.evClear_ok
    | with_reducible apply State.evSet_ok
    | with_reducible apply State.lockWr_ok
    | with_reducible apply State.opAbort_ok
    | with_reducible apply State.opGo_ok
    | with_reducible apply State.plicSample_ok
    | with_reducible apply State.set_ok
    | with_reducible apply State.sets_ok
    | with_reducible apply State.tabWrite_ok

theorem State.wordWrite_ok {qs : List Instr} {s : State} (rq : Rq) (w : ℕ) (off : ℕ) (v : ℕ) (wake : ℕ) (hs : s.Ok qs) :
    (State.wordWrite s rq w off v wake).Ok qs := by
  unfold State.wordWrite
  repeat' first
    | with_reducible assumption
    | with_reducible apply State.blockWrite_ok
    | with_reducible apply State.hdrWrite_ok
    | split

end Sys2Proof.Machine
end

