-- ==== Sys2Proof/Laws/KeepAccess.lean ====
section
/-!
SUPPORT. The operations of Machine/Access.lean keep what Laws/Keep.lean says.
-/

set_option linter.all false

namespace Sys2Proof.Machine

theorem State.tokenFail_ok {qs : List Instr} {s : State} (hs : s.Ok qs) :
    (State.tokenFail s).Ok qs := by
  unfold State.tokenFail
  repeat' first
    | with_reducible assumption
    | with_reducible apply State.raise_ok
    | with_reducible apply State.set_ok
    | with_reducible apply State.sets_ok
    | with_reducible refine ite_ok ?_ ?_

theorem State.tokenWord_ok {qs : List Instr} {s : State} (v : ℕ) (hs : s.Ok qs) :
    (State.tokenWord s v).Ok qs := by
  unfold State.tokenWord
  repeat' first
    | with_reducible assumption
    | with_reducible apply State.tokenFail_ok
    | with_reducible exact mk_ok (by with_reducible assumption) (by with_reducible rfl)
    | split

theorem State.tokenCheck_ok {qs : List Instr} {s : State} (hs : s.Ok qs) :
    (State.tokenCheck s).Ok qs := by
  unfold State.tokenCheck
  repeat' first
    | with_reducible assumption
    | (intro t; refine (have ht : State.Ok qs t.2 := ?_; ?_); (on_goal 2 => clear_value t); (on_goal 1 => subst t))
    | intro t
    | lift_lets
    | with_reducible apply State.fresh_ok
    | with_reducible apply State.sets_ok
    | with_reducible exact mk_ok (by with_reducible assumption) (by with_reducible rfl)

theorem State.tokenDone_ok {qs : List Instr} {s : State} (hs : s.Ok qs) :
    (State.tokenDone s).Ok qs := by
  unfold State.tokenDone
  repeat' first
    | with_reducible assumption
    | split
    | with_reducible apply State.raiseIf_ok
    | with_reducible apply State.set_ok
    | with_reducible apply State.tokenFail_ok
    | with_reducible exact mk_ok (by with_reducible assumption) (by with_reducible rfl)

theorem execTokenCheckDone_ok {qs : List Instr} {s : State} {u : State} (hs : s.Ok qs) (e : execTokenCheckDone s = .next u) :
    u.Ok qs := by
  unfold execTokenCheckDone at e; cases e
  repeat' first
    | with_reducible assumption
    | with_reducible apply State.tokenDone_ok
    | with_reducible refine ite_ok ?_ ?_

theorem State.yieldOp_ok {qs : List Instr} {s : State} (hs : s.Ok qs) :
    (State.yieldOp s).Ok qs := by
  unfold State.yieldOp
  repeat' first
    | with_reducible assumption
    | with_reducible apply State.coachCheck_ok
    | with_reducible apply State.engFail_ok
    | with_reducible refine ite_ok ?_ ?_

theorem State.dbgWrite_ok {qs : List Instr} {s : State} (rq : Rq) (off : ℕ) (v : ℕ) (hs : s.Ok qs) :
    (State.dbgWrite s rq off v).Ok qs := by
  unfold State.dbgWrite
  repeat' first
    | with_reducible assumption
    | with_reducible apply State.tabWrite_ok
    | with_reducible apply State.tokenCheck_ok
    | with_reducible apply State.tokenWord_ok
    | with_reducible apply State.yieldOp_ok
    | split

theorem State.coreWrite_ok {qs : List Instr} {s : State} (rq : Rq) (w : ℕ) (off : ℕ) (v : ℕ) (wake : ℕ) (hs : s.Ok qs) :
    (State.coreWrite s rq w off v wake).Ok qs := by
  unfold State.coreWrite
  repeat' first
    | with_reducible assumption
    | with_reducible apply State.dbgWrite_ok
    | with_reducible apply State.wordWrite_ok
    | split

theorem State.engAns_ok {qs : List Instr} {s : State} (rq : Rq) (hs : s.Ok qs) :
    (State.engAns s rq).Ok qs := by
  unfold State.engAns
  repeat' first
    | with_reducible assumption
    | (intro t; refine (have ht : State.Ok qs t := ?_; ?_); (on_goal 2 => clear_value t); (on_goal 1 => subst t))
    | lift_lets
    | with_reducible apply State.engTrap_ok
    | with_reducible refine ite_ok ?_ ?_
    | with_reducible exact mk_ok (by with_reducible assumption) (by with_reducible rfl)

theorem State.misMem_ok {qs : List Instr} {s : State} (rq : Rq) (hs : s.Ok qs) :
    (State.misMem s rq).Ok qs := by
  unfold State.misMem
  repeat' first
    | with_reducible assumption
    | with_reducible apply State.answer_ok
    | with_reducible apply State.engTrap_ok
    | with_reducible refine ite_ok ?_ ?_

theorem State.sramBars_ok {qs : List Instr} {s u : State} (rq : Rq) (a n : Nat) (hs : s.Ok qs)
    (e : State.sramBars s rq a n = some u) : u.Ok qs := by
  unfold State.sramBars at e
  dsimp only at e
  split at e
  · cases e
  · split at e
    · cases e; exact State.raise_ok _ _ hs
    · split at e
      · cases e; exact State.raise_ok _ _ hs
      · cases e

theorem State.memAcc_ok {qs : List Instr} {s : State} (rq : Rq) (a : ℕ) (n : ℕ) (wr : Bool) (v : ℕ) (u : Upset) (hs : s.Ok qs) :
    (State.memAcc s rq a n wr v u).Ok qs := by
  unfold State.memAcc
  repeat' first
    | with_reducible assumption
    | with_reducible apply State.answer_ok
    | with_reducible apply State.memRd_ok
    | with_reducible apply State.memWr_ok
    | with_reducible apply State.misMem_ok
    | with_reducible refine State.sramBars_ok _ _ _ ?_ (by with_reducible assumption)
    | with_reducible apply State.upset_ok
    | split

theorem State.regAcc_ok {qs : List Instr} {s : State} (f : State → Rq → ℕ → ℕ → ℕ → State) (rq : Rq) (a : ℕ) (n : ℕ) (wr : Bool) (v : ℕ) (hs : s.Ok qs) (hf : ∀ a0 a1 a2 a3 a4, a0.Ok qs → (f a0 a1 a2 a3 a4).Ok qs) :
    (State.regAcc s f rq a n wr v).Ok qs := by
  unfold State.regAcc
  repeat' first
    | with_reducible assumption
    | with_reducible apply hf
    | with_reducible apply State.answer_ok
    | with_reducible apply State.engTrap_ok
    | with_reducible apply State.errRec_ok
    | with_reducible apply State.regRead_ok
    | split

theorem State.accRaw_ok {qs : List Instr} {s : State} (f : State → Rq → ℕ → ℕ → ℕ → State) (rq : Rq) (a : ℕ) (n : ℕ) (wr : Bool) (v : ℕ) (u : Upset) (hs : s.Ok qs) (hf : ∀ a0 a1 a2 a3 a4, a0.Ok qs → (f a0 a1 a2 a3 a4).Ok qs) :
    (State.accRaw s f rq a n wr v u).Ok qs := by
  unfold State.accRaw
  repeat' first
    | with_reducible assumption
    | split
    | with_reducible apply State.answerErr_ok
    | with_reducible apply State.darkRec_ok
    | with_reducible apply State.memAcc_ok
    | with_reducible apply State.privAcc_ok
    | with_reducible apply State.regAcc_ok

theorem State.accessBy_ok {qs : List Instr} {s : State} (f : State → Rq → ℕ → ℕ → ℕ → State) (rq : Rq) (a : ℕ) (n : ℕ) (wr : Bool) (v : ℕ) (u : Upset) (hs : s.Ok qs) (hf : ∀ a0 a1 a2 a3 a4, a0.Ok qs → (f a0 a1 a2 a3 a4).Ok qs) :
    (State.accessBy s f rq a n wr v u).Ok qs := by
  unfold State.accessBy
  repeat' first
    | with_reducible assumption
    | with_reducible apply State.accRaw_ok
    | with_reducible apply State.answer_ok
    | with_reducible apply State.engAns_ok
    | split

theorem State.mapGo_ok {qs : List Instr} {s : State} (rq : Rq) (v : ℕ) (hs : s.Ok qs) :
    (State.mapGo s rq v).Ok qs := by
  unfold State.mapGo
  repeat' first
    | with_reducible assumption
    | (intro t; refine (have ht : State.Ok qs t := ?_; ?_); (on_goal 2 => clear_value t); (on_goal 1 => subst t))
    | intro t
    | with_reducible apply State.accessBy_ok
    | with_reducible apply State.answer_ok
    | with_reducible apply State.coreWrite_ok
    | with_reducible apply State.set_ok
    | with_reducible apply State.sets_ok
    | with_reducible apply State.tabWrite_ok
    | with_reducible refine ite_ok ?_ ?_

theorem State.regWrite_ok {qs : List Instr} {s : State} (rq : Rq) (w : ℕ) (off : ℕ) (v : ℕ) (hs : s.Ok qs) :
    (State.regWrite s rq w off v).Ok qs := by
  unfold State.regWrite
  repeat' first
    | with_reducible assumption
    | with_reducible apply State.coreWrite_ok
    | with_reducible apply State.mapGo_ok
    | split

theorem State.access_ok {qs : List Instr} {s : State} (rq : Rq) (a : ℕ) (n : ℕ) (wr : Bool) (v : ℕ) (u : Upset) (hs : s.Ok qs) :
    (State.access s rq a n wr v u).Ok qs := by
  unfold State.access
  repeat' first
    | with_reducible assumption
    | with_reducible apply State.accessBy_ok
    | with_reducible apply State.regWrite_ok

theorem State.put_ok {qs : List Instr} {s : State} (rq : Rq) (w : ℕ) (off : ℕ) (v : Word) (hs : s.Ok qs) :
    (State.put s rq w off v).Ok qs := by
  unfold State.put
  repeat' first
    | with_reducible assumption
    | with_reducible apply State.access_ok

theorem execRegWrite_ok {qs : List Instr} (rq : Rq) (addr : ℕ) (v : Word) {s : State} {u : State} (hs : s.Ok qs) (e : execRegWrite rq addr v s = .next u) :
    u.Ok qs := by
  unfold execRegWrite at e; cases e
  repeat' first
    | with_reducible assumption
    | with_reducible apply State.access_ok

theorem execRcRead_ok {qs : List Instr} (rq : Rq) (addr : ℕ) {s : State} {u : State} (hs : s.Ok qs) (e : execRcRead rq addr s = .next u) :
    u.Ok qs := by
  unfold execRcRead at e; cases e
  repeat' first
    | with_reducible assumption
    | with_reducible apply State.access_ok

theorem execOpstatRead_ok {qs : List Instr} (rq : Rq) (win : ℕ) (units : ℕ) {s : State} {u : State} (hs : s.Ok qs) (e : execOpstatRead rq win units s = .next u) :
    u.Ok qs := by
  unfold execOpstatRead at e; cases e
  repeat' first
    | with_reducible assumption
    | with_reducible apply State.access_ok
    | with_reducible apply State.opAdvance_ok

theorem execMultiwordLowRead_ok {qs : List Instr} (rq : Rq) (addr : ℕ) {s : State} {u : State} (hs : s.Ok qs) (e : execMultiwordLowRead rq addr s = .next u) :
    u.Ok qs := by
  unfold execMultiwordLowRead at e; cases e
  repeat' first
    | with_reducible assumption
    | with_reducible apply State.access_ok

theorem execMultiwordHighWrite_ok {qs : List Instr} (rq : Rq) (addr : ℕ) (v : Word) {s : State} {u : State} (hs : s.Ok qs) (e : execMultiwordHighWrite rq addr v s = .next u) :
    u.Ok qs := by
  unfold execMultiwordHighWrite at e; cases e
  repeat' first
    | with_reducible assumption
    | with_reducible apply State.access_ok

theorem execSubwordAccess_ok {qs : List Instr} (rq : Rq) (addr : ℕ) (bytes : ℕ) (write : Bool) {s : State} {u : State} (hs : s.Ok qs) (e : execSubwordAccess rq addr bytes write s = .next u) :
    u.Ok qs := by
  unfold execSubwordAccess at e; cases e
  repeat' first
    | with_reducible assumption
    | with_reducible apply State.access_ok
    | split

theorem execDarkAccess_ok {qs : List Instr} (rq : Rq) (addr : ℕ) (write : Bool) {s : State} {u : State} (hs : s.Ok qs) (e : execDarkAccess rq addr write s = .next u) :
    u.Ok qs := by
  unfold execDarkAccess at e; cases e
  repeat' first
    | with_reducible assumption
    | with_reducible apply State.access_ok
    | split

theorem execLockWrite_ok {qs : List Instr} (rq : Rq) (win : ℕ) (v : Word) {s : State} {u : State} (hs : s.Ok qs) (e : execLockWrite rq win v s = .next u) :
    u.Ok qs := by
  unfold execLockWrite at e; cases e
  repeat' first
    | with_reducible assumption
    | with_reducible apply State.put_ok

theorem execEvForce_ok {qs : List Instr} (rq : Rq) (win : ℕ) (v : Word) {s : State} {u : State} (hs : s.Ok qs) (e : execEvForce rq win v s = .next u) :
    u.Ok qs := by
  unfold execEvForce at e; cases e
  repeat' first
    | with_reducible assumption
    | with_reducible apply State.put_ok

theorem execCtrlEnableWrite_ok {qs : List Instr} (rq : Rq) (win : ℕ) (v : Word) {s : State} {u : State} (hs : s.Ok qs) (e : execCtrlEnableWrite rq win v s = .next u) :
    u.Ok qs := by
  unfold execCtrlEnableWrite at e; cases e
  repeat' first
    | with_reducible assumption
    | with_reducible apply State.put_ok

theorem execDomreqWrite_ok {qs : List Instr} (rq : Rq) (win : ℕ) (v : Word) {s : State} {u : State} (hs : s.Ok qs) (e : execDomreqWrite rq win v s = .next u) :
    u.Ok qs := by
  unfold execDomreqWrite at e; cases e
  repeat' first
    | with_reducible assumption
    | with_reducible apply State.put_ok

theorem execOpAbort_ok {qs : List Instr} (rq : Rq) (win : ℕ) (units : ℕ) {s : State} {u : State} (hs : s.Ok qs) (e : execOpAbort rq win units s = .next u) :
    u.Ok qs := by
  unfold execOpAbort at e; cases e
  repeat' first
    | with_reducible assumption
    | with_reducible apply State.opAdvance_ok
    | with_reducible apply State.put_ok

theorem execOpResourceFree_ok {qs : List Instr} (win : ℕ) {s : State} {u : State} (hs : s.Ok qs) (e : execOpResourceFree win s = .next u) :
    u.Ok qs := by
  unfold execOpResourceFree at e; cases e
  repeat' first
    | with_reducible assumption
    | with_reducible apply State.set_ok
    | split

theorem State.sweepRest_ok {qs : List Instr} {s : State} (r : ℕ) (x2 : ℕ) (hs : s.Ok qs) :
    (State.sweepRest s r x2).Ok qs := by
  induction x2 generalizing s r with
  | zero =>
    unfold State.sweepRest
    repeat' first
      | with_reducible assumption
      | with_reducible apply ih
      | with_reducible apply State.freeCal_ok
      | with_reducible apply State.sweepStep_ok
      | split
  | succ k ih =>
    unfold State.sweepRest
    repeat' first
      | with_reducible assumption
      | with_reducible apply ih
      | with_reducible apply State.freeCal_ok
      | with_reducible apply State.sweepStep_ok
      | split

theorem State.opLast_ok {qs : List Instr} {s : State} (w : ℕ) (hs : s.Ok qs) :
    (State.opLast s w).Ok qs := by
  unfold State.opLast
  repeat' first
    | with_reducible assumption
    | with_reducible apply State.commitApply_ok
    | with_reducible apply State.fgEnd_ok
    | with_reducible apply State.opAdvance_ok
    | with_reducible apply State.sweepRest_ok
    | split

theorem execOpEnd_ok {qs : List Instr} (win : ℕ) (err : ℕ) {s : State} {u : State} (hs : s.Ok qs) (e : execOpEnd win err s = .next u) :
    u.Ok qs := by
  unfold execOpEnd at e; cases e
  repeat' first
    | with_reducible assumption
    | with_reducible apply State.opFail_ok
    | with_reducible apply State.opLast_ok
    | split

theorem execMemAccess_ok {qs : List Instr} (rq : Rq) (addr : ℕ) (bytes : ℕ) (write : Bool) (v : ℕ) (upset : Upset) {s : State} {u : State} (hs : s.Ok qs) (e : execMemAccess rq addr bytes write v upset s = .next u) :
    u.Ok qs := by
  unfold execMemAccess at e; cases e
  repeat' first
    | with_reducible assumption
    | with_reducible apply State.access_ok
    | split

theorem execMemAlloc_ok {qs : List Instr} (rq : Rq) (v : Word) {s : State} {u : State} (hs : s.Ok qs) (e : execMemAlloc rq v s = .next u) :
    u.Ok qs := by
  unfold execMemAlloc at e; cases e
  repeat' first
    | with_reducible assumption
    | with_reducible apply State.put_ok

theorem execMemFree_ok {qs : List Instr} (rq : Rq) (v : Word) {s : State} {u : State} (hs : s.Ok qs) (e : execMemFree rq v s = .next u) :
    u.Ok qs := by
  unfold execMemFree at e; cases e
  repeat' first
    | with_reducible assumption
    | with_reducible apply State.put_ok

theorem execHartRelease_ok {qs : List Instr} (rq : Rq) (v : Word) {s : State} {u : State} (hs : s.Ok qs) (e : execHartRelease rq v s = .next u) :
    u.Ok qs := by
  unfold execHartRelease at e; cases e
  repeat' first
    | with_reducible assumption
    | with_reducible apply State.put_ok

theorem execTimeSlewWrite_ok {qs : List Instr} (rq : Rq) (v : Word) {s : State} {u : State} (hs : s.Ok qs) (e : execTimeSlewWrite rq v s = .next u) :
    u.Ok qs := by
  unfold execTimeSlewWrite at e; cases e
  repeat' first
    | with_reducible assumption
    | with_reducible apply State.put_ok

theorem execTimeStepWrite_ok {qs : List Instr} (rq : Rq) (v : Word) {s : State} {u : State} (hs : s.Ok qs) (e : execTimeStepWrite rq v s = .next u) :
    u.Ok qs := by
  unfold execTimeStepWrite at e; cases e
  repeat' first
    | with_reducible assumption
    | with_reducible apply State.put_ok

theorem execTimeMeasWrite_ok {qs : List Instr} (rq : Rq) (v : Word) {s : State} {u : State} (hs : s.Ok qs) (e : execTimeMeasWrite rq v s = .next u) :
    u.Ok qs := by
  unfold execTimeMeasWrite at e; cases e
  repeat' first
    | with_reducible assumption
    | with_reducible apply State.put_ok

theorem execSyncSrcWrite_ok {qs : List Instr} (rq : Rq) (v : Word) {s : State} {u : State} (hs : s.Ok qs) (e : execSyncSrcWrite rq v s = .next u) :
    u.Ok qs := by
  unfold execSyncSrcWrite at e; cases e
  repeat' first
    | with_reducible assumption
    | with_reducible apply State.put_ok

theorem execCancClear_ok {qs : List Instr} (rq : Rq) (v : Word) {s : State} {u : State} (hs : s.Ok qs) (e : execCancClear rq v s = .next u) :
    u.Ok qs := by
  unfold execCancClear at e; cases e
  repeat' first
    | with_reducible assumption
    | with_reducible apply State.put_ok

theorem execCancSave_ok {qs : List Instr} (rq : Rq) (v : Word) {s : State} {u : State} (hs : s.Ok qs) (e : execCancSave rq v s = .next u) :
    u.Ok qs := by
  unfold execCancSave at e; cases e
  repeat' first
    | with_reducible assumption
    | with_reducible apply State.put_ok

theorem execWindowCommit_ok {qs : List Instr} (rq : Rq) (v : Word) {s : State} {u : State} (hs : s.Ok qs) (e : execWindowCommit rq v s = .next u) :
    u.Ok qs := by
  unfold execWindowCommit at e; cases e
  repeat' first
    | with_reducible assumption
    | with_reducible apply State.put_ok

theorem execEqArm_ok {qs : List Instr} (rq : Rq) (v : Word) {s : State} {u : State} (hs : s.Ok qs) (e : execEqArm rq v s = .next u) :
    u.Ok qs := by
  unfold execEqArm at e; cases e
  repeat' first
    | with_reducible assumption
    | with_reducible apply State.put_ok

theorem execTileEnable_ok {qs : List Instr} (rq : Rq) (t : ℕ) (v : Word) {s : State} {u : State} (hs : s.Ok qs) (e : execTileEnable rq t v s = .next u) :
    u.Ok qs := by
  unfold execTileEnable at e; cases e
  repeat' first
    | with_reducible assumption
    | with_reducible apply State.put_ok

theorem execTileDisable_ok {qs : List Instr} (rq : Rq) (t : ℕ) (v : Word) {s : State} {u : State} (hs : s.Ok qs) (e : execTileDisable rq t v s = .next u) :
    u.Ok qs := by
  unfold execTileDisable at e; cases e
  repeat' first
    | with_reducible assumption
    | with_reducible apply State.put_ok

theorem execSfSwitch_ok {qs : List Instr} (rq : Rq) (t : ℕ) (sf : ℕ) (v : Word) {s : State} {u : State} (hs : s.Ok qs) (e : execSfSwitch rq t sf v s = .next u) :
    u.Ok qs := by
  unfold execSfSwitch at e; cases e
  repeat' first
    | with_reducible assumption
    | with_reducible apply State.put_ok

theorem execWlanEqArm_ok {qs : List Instr} (rq : Rq) (r : ℕ) (v : Word) {s : State} {u : State} (hs : s.Ok qs) (e : execWlanEqArm rq r v s = .next u) :
    u.Ok qs := by
  unfold execWlanEqArm at e; cases e
  repeat' first
    | with_reducible assumption
    | with_reducible apply State.put_ok

theorem execChannelCommit_ok {qs : List Instr} (rq : Rq) (r : ℕ) (v : Word) {s : State} {u : State} (hs : s.Ok qs) (e : execChannelCommit rq r v s = .next u) :
    u.Ok qs := by
  unfold execChannelCommit at e; cases e
  repeat' first
    | with_reducible assumption
    | with_reducible apply State.put_ok

theorem execTsfEpochWrite_ok {qs : List Instr} (rq : Rq) (reg : ℕ) (v : Word) {s : State} {u : State} (hs : s.Ok qs) (e : execTsfEpochWrite rq reg v s = .next u) :
    u.Ok qs := by
  unfold execTsfEpochWrite at e; cases e
  repeat' first
    | with_reducible assumption
    | with_reducible apply State.put_ok

theorem execTwtValidWrite_ok {qs : List Instr} (rq : Rq) (v : Word) {s : State} {u : State} (hs : s.Ok qs) (e : execTwtValidWrite rq v s = .next u) :
    u.Ok qs := by
  unfold execTwtValidWrite at e; cases e
  repeat' first
    | with_reducible assumption
    | with_reducible apply State.put_ok

theorem execSwCreate_ok {qs : List Instr} (rq : Rq) (v : Word) {s : State} {u : State} (hs : s.Ok qs) (e : execSwCreate rq v s = .next u) :
    u.Ok qs := by
  unfold execSwCreate at e; cases e
  repeat' first
    | with_reducible assumption
    | with_reducible apply State.put_ok

theorem execSwCoupling_ok {qs : List Instr} (rq : Rq) (v : Word) {s : State} {u : State} (hs : s.Ok qs) (e : execSwCoupling rq v s = .next u) :
    u.Ok qs := by
  unfold execSwCoupling at e; cases e
  repeat' first
    | with_reducible assumption
    | with_reducible apply State.put_ok

theorem execPbArm_ok {qs : List Instr} (rq : Rq) (v : Word) {s : State} {u : State} (hs : s.Ok qs) (e : execPbArm rq v s = .next u) :
    u.Ok qs := by
  unfold execPbArm at e; cases e
  repeat' first
    | with_reducible assumption
    | with_reducible apply State.put_ok

theorem execWatchRestore_ok {qs : List Instr} (rq : Rq) (w : ℕ) (v : Word) {s : State} {u : State} (hs : s.Ok qs) (e : execWatchRestore rq w v s = .next u) :
    u.Ok qs := by
  unfold execWatchRestore at e; cases e
  repeat' first
    | with_reducible assumption
    | with_reducible apply State.put_ok

theorem execTlEnable_ok {qs : List Instr} (rq : Rq) (n : ℕ) (v : Word) {s : State} {u : State} (hs : s.Ok qs) (e : execTlEnable rq n v s = .next u) :
    u.Ok qs := by
  unfold execTlEnable at e; cases e
  repeat' first
    | with_reducible assumption
    | with_reducible apply State.put_ok

theorem execTlDisable_ok {qs : List Instr} (rq : Rq) (n : ℕ) (v : Word) {s : State} {u : State} (hs : s.Ok qs) (e : execTlDisable rq n v s = .next u) :
    u.Ok qs := by
  unfold execTlDisable at e; cases e
  repeat' first
    | with_reducible assumption
    | with_reducible apply State.put_ok

theorem execTlSwitch_ok {qs : List Instr} (rq : Rq) (n : ℕ) (v : Word) {s : State} {u : State} (hs : s.Ok qs) (e : execTlSwitch rq n v s = .next u) :
    u.Ok qs := by
  unfold execTlSwitch at e; cases e
  repeat' first
    | with_reducible assumption
    | with_reducible apply State.put_ok

theorem execLaneRetrain_ok {qs : List Instr} (rq : Rq) (n : ℕ) (v : Word) {s : State} {u : State} (hs : s.Ok qs) (e : execLaneRetrain rq n v s = .next u) :
    u.Ok qs := by
  unfold execLaneRetrain at e; cases e
  repeat' first
    | with_reducible assumption
    | with_reducible apply State.put_ok

theorem execEidleWrite_ok {qs : List Instr} (rq : Rq) (n : ℕ) (v : Word) {s : State} {u : State} (hs : s.Ok qs) (e : execEidleWrite rq n v s = .next u) :
    u.Ok qs := by
  unfold execEidleWrite at e; cases e
  repeat' first
    | with_reducible assumption
    | with_reducible apply State.put_ok

theorem execTxpauseSend_ok {qs : List Instr} (rq : Rq) (n : ℕ) (v : Word) {s : State} {u : State} (hs : s.Ok qs) (e : execTxpauseSend rq n v s = .next u) :
    u.Ok qs := by
  unfold execTxpauseSend at e; cases e
  repeat' first
    | with_reducible assumption
    | with_reducible apply State.put_ok

theorem execCplHandover_ok {qs : List Instr} (rq : Rq) (v : Word) {s : State} {u : State} (hs : s.Ok qs) (e : execCplHandover rq v s = .next u) :
    u.Ok qs := by
  unfold execCplHandover at e; cases e
  repeat' first
    | with_reducible assumption
    | with_reducible apply State.put_ok

theorem execCplResync_ok {qs : List Instr} (rq : Rq) (v : Word) {s : State} {u : State} (hs : s.Ok qs) (e : execCplResync rq v s = .next u) :
    u.Ok qs := by
  unfold execCplResync at e; cases e
  repeat' first
    | with_reducible assumption
    | with_reducible apply State.put_ok

theorem execPerfRequest_ok {qs : List Instr} (rq : Rq) (v : Word) {s : State} {u : State} (hs : s.Ok qs) (e : execPerfRequest rq v s = .next u) :
    u.Ok qs := by
  unfold execPerfRequest at e; cases e
  repeat' first
    | with_reducible assumption
    | with_reducible apply State.put_ok

theorem execFltRestore_ok {qs : List Instr} (rq : Rq) (v : Word) {s : State} {u : State} (hs : s.Ok qs) (e : execFltRestore rq v s = .next u) :
    u.Ok qs := by
  unfold execFltRestore at e; cases e
  repeat' first
    | with_reducible assumption
    | with_reducible apply State.put_ok

theorem execFltStop_ok {qs : List Instr} (rq : Rq) (v : Word) {s : State} {u : State} (hs : s.Ok qs) (e : execFltStop rq v s = .next u) :
    u.Ok qs := by
  unfold execFltStop at e; cases e
  repeat' first
    | with_reducible assumption
    | with_reducible apply State.put_ok

theorem execTokenWordWrite_ok {qs : List Instr} (rq : Rq) (v : Word) {s : State} {u : State} (hs : s.Ok qs) (e : execTokenWordWrite rq v s = .next u) :
    u.Ok qs := by
  unfold execTokenWordWrite at e; cases e
  repeat' first
    | with_reducible assumption
    | with_reducible apply State.put_ok

theorem execTokenVerify_ok {qs : List Instr} (rq : Rq) (v : Word) {s : State} {u : State} (hs : s.Ok qs) (e : execTokenVerify rq v s = .next u) :
    u.Ok qs := by
  unfold execTokenVerify at e; cases e
  repeat' first
    | with_reducible assumption
    | with_reducible apply State.put_ok

theorem execEngineYield_ok {qs : List Instr} (rq : Rq) (v : Word) {s : State} {u : State} (hs : s.Ok qs) (e : execEngineYield rq v s = .next u) :
    u.Ok qs := by
  unfold execEngineYield at e; cases e
  repeat' first
    | with_reducible assumption
    | with_reducible apply State.put_ok

theorem execMapRead_ok {qs : List Instr} (rq : Rq) (v : Word) {s : State} {u : State} (hs : s.Ok qs) (e : execMapRead rq v s = .next u) :
    u.Ok qs := by
  unfold execMapRead at e; cases e
  repeat' first
    | with_reducible assumption
    | with_reducible apply State.put_ok

theorem execMapWrite_ok {qs : List Instr} (rq : Rq) (v : Word) {s : State} {u : State} (hs : s.Ok qs) (e : execMapWrite rq v s = .next u) :
    u.Ok qs := by
  unfold execMapWrite at e; cases e
  repeat' first
    | with_reducible assumption
    | with_reducible apply State.put_ok

theorem execStateRequest_ok {qs : List Instr} (rq : Rq) (v : Word) (wake : ℕ) {s : State} {u : State} (hs : s.Ok qs) (e : execStateRequest rq v wake s = .next u) :
    u.Ok qs := by
  unfold execStateRequest at e; cases e
  repeat' first
    | with_reducible assumption
    | intro t
    | with_reducible apply State.accessBy_ok
    | with_reducible apply State.coreWrite_ok

end Sys2Proof.Machine
end

