-- ==== Sys2Proof/Laws/KeepBoot.lean ====
section
/-!
SUPPORT. The operations of Machine/Boot.lean keep what Laws/Keep.lean says.
-/

set_option linter.all false

namespace Sys2Proof.Machine

theorem State.nvField_ok {qs : List Instr} {s : State} (f : Fld) (v : Nat) (hs : s.Ok qs) : (State.nvField s f v).Ok qs :=
  ⟨kok_kdel hs.regs, hs.mem, hs.prog, hs.queue⟩

theorem State.nvWord_ok {qs : List Instr} {s : State} (w : ℕ) (off : ℕ) (v : ℕ) (hs : s.Ok qs) :
    (State.nvWord s w off v).Ok qs := by
  unfold State.nvWord
  repeat' first
    | with_reducible assumption
    | split
    | with_reducible apply State.nvField_ok
    | with_reducible refine foldl_ok ?_ (fun t e ht => ?_)

theorem State.regPair_ok {qs : List Instr} {s : State} (e : ℕ × ℕ) (hs : s.Ok qs) :
    (State.regPair s e).Ok qs := by
  unfold State.regPair
  repeat' first
    | with_reducible assumption
    | with_reducible apply State.access_ok
    | with_reducible apply State.nvWord_ok
    | split

theorem State.bankLoad_ok {qs : List Instr} {s : State} (k : Nat) (l : List Byte) (hs : s.Ok qs) : (State.bankLoad s k l).Ok qs :=
  ⟨hs.regs, hs.mem, memory_wf_puts _ _ hs.prog, hs.queue⟩

theorem State.setApply_ok {qs : List Instr} {s : State} (slot : ℕ) (hs : s.Ok qs) :
    (State.setApply s slot).Ok qs := by
  unfold State.setApply
  repeat' first
    | with_reducible assumption
    | with_reducible apply State.bankLoad_ok
    | with_reducible apply State.regPair_ok
    | with_reducible refine foldl_ok ?_ (fun t e ht => ?_)

theorem State.imgApply_ok {qs : List Instr} {s : State} (slot : Option ℕ) (hs : s.Ok qs) :
    (State.imgApply s slot).Ok qs := by
  unfold State.imgApply
  repeat' first
    | with_reducible assumption
    | split
    | with_reducible exact mk_ok (by with_reducible assumption) (by with_reducible rfl)

theorem State.bootNote_ok {qs : List Instr} {s : State} (n : ℕ) (slot : Option ℕ) (hs : s.Ok qs) :
    (State.bootNote s n slot).Ok qs := by
  unfold State.bootNote
  repeat' first
    | with_reducible assumption
    | split
    | with_reducible exact mk_ok (by with_reducible assumption) (by with_reducible rfl)

theorem State.softwareOn_ok {qs : List Instr} {s : State} (slot : ℕ) (hs : s.Ok qs) :
    (State.softwareOn s slot).Ok qs := by
  unfold State.softwareOn
  repeat' first
    | with_reducible assumption
    | (intro t; refine (have ht : State.Ok qs t := ?_; ?_); (on_goal 2 => clear_value t); (on_goal 1 => subst t))
    | lift_lets
    | with_reducible apply State.poke_ok
    | with_reducible exact mk_ok (by with_reducible assumption) (by with_reducible rfl)

theorem State.handOver_ok {qs : List Instr} {s : State} (ms : ℕ) (hs : s.Ok qs) :
    (State.handOver s ms).Ok qs := by
  unfold State.handOver
  repeat' first
    | with_reducible assumption
    | (intro t; refine (have ht : State.Ok qs t := ?_; ?_); (on_goal 2 => clear_value t); (on_goal 1 => subst t))
    | (intro t; clear_value t)
    | split
    | lift_lets
    | with_reducible apply State.bootNote_ok
    | with_reducible apply State.domAll_ok
    | with_reducible apply State.imgApply_ok
    | with_reducible apply State.limRestore_ok
    | with_reducible apply State.perfEval_ok
    | with_reducible apply State.poolSet_ok
    | with_reducible apply State.setApply_ok
    | with_reducible apply State.sets_ok
    | with_reducible apply State.softwareOn_ok
    | with_reducible exact mk_ok (by with_reducible assumption) (by with_reducible rfl)

theorem execBootHandover_ok {qs : List Instr} (ms : ℕ) {s : State} {u : State} (hs : s.Ok qs) (e : execBootHandover ms s = .next u) :
    u.Ok qs := by
  unfold execBootHandover at e; cases e
  repeat' first
    | with_reducible assumption
    | with_reducible apply State.handOver_ok
    | split

end Sys2Proof.Machine
end

