-- ==== Sys2Proof/Laws/KeepDebug.lean ====
section
/-!
SUPPORT. The operations of Machine/Debug.lean keep what Laws/Keep.lean says.
-/

set_option linter.all false

namespace Sys2Proof.Machine

theorem State.setDbg_ok {qs : List Instr} {s : State} (d : DbgS) (hs : s.Ok qs) :
    (State.setDbg s d).Ok qs := by
  unfold State.setDbg
  repeat' first
    | with_reducible assumption
    | with_reducible exact mk_ok (by with_reducible assumption) (by with_reducible rfl)

theorem State.setHart_ok {qs : List Instr} {s : State} (h : ℕ) (x : HartDbg) (hs : s.Ok qs) :
    (State.setHart s h x).Ok qs := by
  unfold State.setHart
  repeat' first
    | with_reducible assumption
    | with_reducible apply State.setDbg_ok

theorem State.setHalted_ok {qs : List Instr} {s : State} (h : ℕ) (on : Bool) (hs : s.Ok qs) :
    (State.setHalted s h on).Ok qs := by
  unfold State.setHalted
  repeat' first
    | with_reducible assumption
    | with_reducible apply State.setEng_ok
    | with_reducible apply State.setHart_ok
    | split

theorem State.forget_ok {qs : List Instr} {s : State} (h : ℕ) (hs : s.Ok qs) :
    (State.forget s h).Ok qs := by
  unfold State.forget
  repeat' first
    | with_reducible assumption
    | with_reducible apply State.setDbg_ok

theorem State.haltIn_ok {qs : List Instr} {s : State} (h : ℕ) (cause : ℕ) (hs : s.Ok qs) :
    (State.haltIn s h cause).Ok qs := by
  unfold State.haltIn
  repeat' first
    | with_reducible assumption
    | with_reducible apply State.forget_ok
    | with_reducible apply State.raise_ok
    | with_reducible apply State.setHalted_ok
    | with_reducible apply State.setHart_ok

theorem State.haltOp_ok {qs : List Instr} {s : State} (h : ℕ) (hs : s.Ok qs) :
    (State.haltOp s h).Ok qs := by
  unfold State.haltOp
  repeat' first
    | with_reducible assumption
    | with_reducible apply State.haltIn_ok
    | split

theorem State.engStep_ok {qs : List Instr} {s : State} (e : ℕ) (ins : EngIns) (hs : s.Ok qs) :
    (State.engStep s e ins).Ok qs := by
  unfold State.engStep
  repeat' first
    | with_reducible assumption
    | split
    | with_reducible apply State.commit_ok
    | with_reducible apply State.engFree_ok
    | with_reducible apply State.engTrap_ok
    | with_reducible apply State.voidWag_ok
    | with_reducible apply State.wagDone_ok
    | with_reducible apply State.wbufOp_ok
    | with_reducible apply State.wcplOp_ok
    | with_reducible apply State.wemitOp_ok
    | with_reducible apply State.whandOp_ok
    | with_reducible apply State.wnewOp_ok
    | with_reducible apply State.wreqNow_ok

theorem State.stepOp_ok {qs : List Instr} {s : State} (h : ℕ) (ins : EngIns) (hs : s.Ok qs) :
    (State.stepOp s h ins).Ok qs := by
  unfold State.stepOp
  repeat' first
    | with_reducible assumption
    | with_reducible apply State.coachCheck_ok
    | with_reducible apply State.engStep_ok
    | with_reducible apply State.haltIn_ok
    | with_reducible apply State.setHalted_ok
    | with_reducible apply State.setHart_ok
    | with_reducible refine ite_ok ?_ ?_

theorem State.resumeOp_ok {qs : List Instr} {s : State} (h : ℕ) (hs : s.Ok qs) :
    (State.resumeOp s h).Ok qs := by
  unfold State.resumeOp
  repeat' first
    | with_reducible assumption
    | with_reducible apply State.forget_ok
    | with_reducible apply State.setHalted_ok
    | with_reducible apply State.setHart_ok
    | with_reducible apply State.stepOp_ok
    | split

theorem State.ebreakOp_ok {qs : List Instr} {s : State} (h : ℕ) (hs : s.Ok qs) :
    (State.ebreakOp s h).Ok qs := by
  unfold State.ebreakOp
  repeat' first
    | with_reducible assumption
    | with_reducible apply State.engTrap_ok
    | with_reducible apply State.haltIn_ok
    | split

theorem State.dataWr_ok {qs : List Instr} {s : State} (k : ℕ) (n : ℕ) (v : ℕ) (hs : s.Ok qs) :
    (State.dataWr s k n v).Ok qs := by
  unfold State.dataWr
  repeat' first
    | with_reducible assumption
    | with_reducible apply State.setDbg_ok

theorem State.cmderr_ok {qs : List Instr} {s : State} (c : ℕ) (hs : s.Ok qs) :
    (State.cmderr s c).Ok qs := by
  unfold State.cmderr
  repeat' first
    | with_reducible assumption
    | with_reducible apply State.setDbg_ok

theorem State.hartReg_ok {qs : List Instr} {s : State} (h : ℕ) (r : ℕ) (hs : s.Ok qs) :
    (State.hartReg s h r).2.Ok qs := by
  unfold State.hartReg
  repeat' first
    | with_reducible assumption
    | with_reducible apply State.fresh_ok
    | with_reducible apply State.setDbg_ok
    | split

theorem State.setHartReg_ok {qs : List Instr} {s : State} (h : ℕ) (r : ℕ) (v : ℕ) (hs : s.Ok qs) :
    (State.setHartReg s h r v).Ok qs := by
  unfold State.setHartReg
  repeat' first
    | with_reducible assumption
    | with_reducible apply State.setDbg_ok
    | with_reducible apply State.setHart_ok
    | split

theorem State.regCmd_ok {qs : List Instr} {s : State} (h : ℕ) (v : ℕ) (hs : s.Ok qs) :
    (State.regCmd s h v).Ok qs := by
  unfold State.regCmd
  repeat' first
    | with_reducible assumption
    | with_reducible apply State.cmderr_ok
    | with_reducible apply State.dataWr_ok
    | with_reducible apply State.forget_ok
    | with_reducible apply State.hartReg_ok
    | with_reducible apply State.setDbg_ok
    | with_reducible apply State.setHartReg_ok
    | with_reducible refine ite_ok ?_ ?_

theorem State.locRd_ok {qs : List Instr} {s : State} (e : ℕ) (a : ℕ) (hs : s.Ok qs) :
    (State.locRd s e a).2.Ok qs := by
  unfold State.locRd
  repeat' first
    | with_reducible assumption
    | with_reducible apply State.fresh_ok
    | with_reducible apply State.setDbg_ok
    | split

theorem State.progPut_ok {qs : List Instr} {s : State} (p v : Nat) (hs : s.Ok qs) : (State.progPut s p v).Ok qs :=
  ⟨hs.regs, hs.mem, memory_wf_put _ _ hs.prog, hs.queue⟩

theorem State.locWr_ok {qs : List Instr} {s : State} (e : ℕ) (a : ℕ) (v : ℕ) (hs : s.Ok qs) :
    (State.locWr s e a v).Ok qs := by
  unfold State.locWr
  repeat' first
    | with_reducible assumption
    | with_reducible apply State.progPut_ok
    | with_reducible apply State.setDbg_ok
    | split

theorem State.locRds_ok {qs : List Instr} {s : State} (e a n : Nat) (hs : s.Ok qs) : (State.locRds s e a n).2.Ok qs := by
  induction n generalizing s a with
  | zero => exact hs
  | succ k ih => exact ih _ (State.locRd_ok _ _ hs)

theorem State.cmdAns_ok {qs : List Instr} {s : State} (hs : s.Ok qs) : (State.cmdAns s).2.2.Ok qs := hs

theorem State.cmdAcc_ok {qs : List Instr} {s : State} (h : ℕ) (a : ℕ) (n : ℕ) (wr : Bool) (v : ℕ) (hs : s.Ok qs) :
    (State.cmdAcc s h a n wr v).2.2.Ok qs := by
  unfold State.cmdAcc
  repeat' first
    | with_reducible assumption
    | with_reducible apply State.accRaw_ok
    | with_reducible apply State.answerErr_ok
    | with_reducible apply State.cmdAns_ok
    | with_reducible apply State.darkRec_ok
    | with_reducible apply State.locRds_ok
    | with_reducible apply State.locWr_ok
    | with_reducible apply State.regWrite_ok
    | with_reducible refine foldl_ok ?_ (fun t e ht => ?_)
    | split

theorem State.memCmd_ok {qs : List Instr} {s : State} (h : ℕ) (v : ℕ) (hs : s.Ok qs) :
    (State.memCmd s h v).Ok qs := by
  unfold State.memCmd
  repeat' first
    | with_reducible assumption
    | with_reducible apply State.cmdAcc_ok
    | with_reducible apply State.cmderr_ok
    | with_reducible apply State.dataWr_ok
    | with_reducible refine ite_ok ?_ ?_

theorem State.command_ok {qs : List Instr} {s : State} (v : ℕ) (hs : s.Ok qs) :
    (State.command s v).Ok qs := by
  unfold State.command
  repeat' first
    | with_reducible assumption
    | with_reducible apply State.cmderr_ok
    | with_reducible apply State.memCmd_ok
    | with_reducible apply State.regCmd_ok
    | with_reducible apply State.setDbg_ok
    | with_reducible refine ite_ok ?_ ?_
    | split

theorem State.dmControl_ok {qs : List Instr} {s : State} (v : ℕ) (hs : s.Ok qs) :
    (State.dmControl s v).Ok qs := by
  unfold State.dmControl
  repeat' first
    | with_reducible assumption
    | with_reducible apply State.haltOp_ok
    | with_reducible apply State.resumeOp_ok
    | with_reducible apply State.setDbg_ok
    | with_reducible apply State.setHart_ok
    | with_reducible refine ite_ok ?_ ?_

theorem State.autoRun_ok {qs : List Instr} {s : State} (k : ℕ) (hs : s.Ok qs) :
    (State.autoRun s k).Ok qs := by
  unfold State.autoRun
  repeat' first
    | with_reducible assumption
    | with_reducible apply State.command_ok
    | split

theorem State.dmWrite_ok {qs : List Instr} {s : State} (a : ℕ) (v : ℕ) (hs : s.Ok qs) :
    (State.dmWrite s a v).Ok qs := by
  unfold State.dmWrite
  repeat' first
    | with_reducible assumption
    | with_reducible apply State.autoRun_ok
    | with_reducible apply State.cmderr_ok
    | with_reducible apply State.command_ok
    | with_reducible apply State.dmControl_ok
    | with_reducible apply State.setDbg_ok
    | split

theorem execTapReset_ok {qs : List Instr} {s : State} {u : State} (hs : s.Ok qs) (e : execTapReset s = .next u) :
    u.Ok qs := by
  unfold execTapReset at e; cases e
  repeat' first
    | with_reducible assumption
    | with_reducible apply State.setDbg_ok

theorem execDbgiAccess_ok {qs : List Instr} (op : ℕ) (off : ℕ) (v : Word) {s : State} {u : State} (hs : s.Ok qs) (e : execDbgiAccess op off v s = .next u) :
    u.Ok qs := by
  unfold execDbgiAccess at e; cases e
  repeat' first
    | with_reducible assumption
    | with_reducible apply State.regRead_ok
    | with_reducible apply State.regWrite_ok
    | with_reducible apply State.setDbg_ok
    | split

theorem execDmiAccess_ok {qs : List Instr} (op : ℕ) (addr : ℕ) (v : Word) {s : State} {u : State} (hs : s.Ok qs) (e : execDmiAccess op addr v s = .next u) :
    u.Ok qs := by
  unfold execDmiAccess at e; cases e
  repeat' first
    | with_reducible assumption
    | with_reducible apply State.autoRun_ok
    | with_reducible apply State.dmWrite_ok
    | with_reducible apply State.setDbg_ok
    | with_reducible refine ite_ok ?_ ?_
    | split

theorem execHaltRequest_ok {qs : List Instr} (h : ℕ) {s : State} {u : State} (hs : s.Ok qs) (e : execHaltRequest h s = .next u) :
    u.Ok qs := by
  unfold execHaltRequest at e; cases e
  repeat' first
    | with_reducible assumption
    | with_reducible apply State.dmControl_ok
    | split

theorem execResumeRequest_ok {qs : List Instr} (h : ℕ) {s : State} {u : State} (hs : s.Ok qs) (e : execResumeRequest h s = .next u) :
    u.Ok qs := by
  unfold execResumeRequest at e; cases e
  repeat' first
    | with_reducible assumption
    | with_reducible apply State.dmControl_ok
    | split

theorem execSingleStep_ok {qs : List Instr} (h : ℕ) (ins : EngIns) {s : State} {u : State} (hs : s.Ok qs) (e : execSingleStep h ins s = .next u) :
    u.Ok qs := by
  unfold execSingleStep at e; cases e
  repeat' first
    | with_reducible assumption
    | with_reducible apply State.stepOp_ok
    | split

theorem execEbreak_ok {qs : List Instr} (h : ℕ) {s : State} {u : State} (hs : s.Ok qs) (e : execEbreak h s = .next u) :
    u.Ok qs := by
  unfold execEbreak at e; cases e
  repeat' first
    | with_reducible assumption
    | with_reducible apply State.ebreakOp_ok

theorem execAbstractCommand_ok {qs : List Instr} (v : Word) {s : State} {u : State} (hs : s.Ok qs) (e : execAbstractCommand v s = .next u) :
    u.Ok qs := by
  unfold execAbstractCommand at e; cases e
  repeat' first
    | with_reducible assumption
    | with_reducible apply State.command_ok
    | with_reducible refine ite_ok ?_ ?_

end Sys2Proof.Machine
end

