-- ==== Sys2Proof/WellFormed.lean ====
section
/-!
DEFINITION. Which commands are well formed: every operand within the range that the spec gives the thing it names. A meaning is
total; a command out of range acts on nothing it names.
-/

namespace Sys2Proof

open Machine (winOk)

/-- A requester of R72. -/
def Rq.ok (q : Rq) : Bool :=
  match q.cls with
  | 0 => decide (q.num < 8)
  | 1 => decide (q.num < 48)
  | 2 => decide (q.num = 0)
  | 3 => winOk q.num
  | _ => false

/-- A reading of PINS_BASETEMP in 0.125 °C, R32. -/
def tempOk (x : Int) : Bool := decide (-2048 ≤ x ∧ x ≤ 2047)

/-- The octets of an access, R57, R402. -/
def sizeOk (n : Nat) : Bool := n == 1 || n == 2 || n == 4 || n == 8

/-- A listener's assignment, R126. -/
def Asn.ok (a : Asn) : Bool := decide (a.tile < 8 ∧ a.freq < 2 ^ 24 ∧ a.mode < 256 ∧ a.opn ≤ a.cls)

/-- A mesh carrier request, R141. -/
def Carr.ok (c : Carr) : Bool := decide (c.tile < 8 ∧ 20 ≤ c.port ∧ c.port < 24 ∧ c.freq < 2 ^ 24 ∧ c.mode < 256 ∧ c.act < 3 ∧ c.cls < 3
  ∧ 4 ≤ c.pre ∧ c.pre ≤ 1000)

/-- What a PHY header gives, R196, R206. -/
def Sig.fits (g : Sig) : Bool := decide (g.mcs < 16 ∧ g.nss ≤ 16 ∧ g.punc < 65536)

/-- A PSDU with its user's report, R206: the widths of the report's fields. -/
def WPsdu.ok (x : WPsdu) : Bool :=
  decide (x.rep.fmt < 16 ∧ x.rep.bw < 8 ∧ x.rep.mcs < 16 ∧ x.rep.nss ≤ 16 ∧ x.rep.gi < 4 ∧ x.rep.aid < 4096 ∧ x.rep.color < 64)

/-- The taps of a user, R205. -/
def EqUser.ok (u : EqUser) : Bool := decide (u.aid < 4096 ∧ u.chains ≤ 8 ∧ u.streams ≤ 8)

/-- A transmit command, R110. -/
def TxCmd.ok (c : TxCmd) : Bool := decide (c.port < 24 ∧ c.freq < 2 ^ 24 ∧ c.width < 5 ∧ c.act < 3)

/-- An output descriptor, R250. -/
def Out.ok (o : Out) : Bool := decide (o.handle < 2 ^ 20 ∧ o.dest < 8 ∧ o.ctrain < 4096)

/-- A template, R233. -/
def Tmpl.ok (t : Tmpl) : Bool := decide (t.train < 4096 ∧ t.prog < 256 ∧ t.ecls < 4 ∧ t.cpl.length ≤ 8)

/-- The engine instruction of a single step, R396. -/
def EngIns.ok : EngIns → Bool
  | .wemit o => o.ok
  | .wnew t => t.ok
  | .wcpl wid slot typ val => decide (wid < 65536 ∧ slot < 16 ∧ typ < 16 ∧ val < 2 ^ 32)
  | .wreq _ _ wid slot => decide (wid < 65536 ∧ slot < 16)
  | .whand wid => decide (wid < 65536)
  | _ => true

/-- A well-formed command. -/
def Instr.wf : Instr → Bool
  | .regWrite rq addr _ => rq.ok && decide (addr < 2 ^ 40)
  | .rcRead rq addr => rq.ok && decide (addr < 2 ^ 40)
  | .opstatRead rq win _ => rq.ok && winOk win
  | .multiwordLowRead rq addr => rq.ok && decide (addr < 2 ^ 40)
  | .multiwordHighWrite rq addr _ => rq.ok && decide (addr < 2 ^ 40)
  | .subwordAccess rq addr bytes _ => rq.ok && decide (addr < 2 ^ 40) && sizeOk bytes
  | .darkAccess rq addr _ => rq.ok && decide (addr < 2 ^ 40)
  | .sreset rq win => rq.ok && winOk win
  | .lockWrite rq win _ => rq.ok && winOk win
  | .evForce rq win _ => rq.ok && winOk win
  | .ctrlEnableWrite rq win _ => rq.ok && winOk win
  | .domreqWrite rq win _ => rq.ok && winOk win
  | .domainTransitionDone dom => decide (dom < 28)
  | .coachDrainTimeout coach => decide (coach < 6)
  | .opAbort rq win _ => rq.ok && winOk win
  | .opResourceFree win => winOk win
  | .opEnd win _ => winOk win
  | .thermWarn temp => tempOk temp
  | .warnClear temp => tempOk temp
  | .thermHold temp => tempOk temp
  | .thermClear temp => tempOk temp
  | .thermalCut temp => tempOk temp
  | .thermalCutRecover temp => tempOk temp
  | .mainsGood => true
  | .mainsLoss => true
  | .mainsReturn => true
  | .backupGood volts => decide (volts < 4096)
  | .backupLoss volts => decide (volts < 4096)
  | .bridgeTimerExpire => true
  | .storeExhausted => true
  | .nresetLow => true
  | .nresetRelease => true
  | .bootHandover _ => true
  | .timeTick => true
  | .ppsOutEnd => true
  | .timeSlewWrite rq _ => rq.ok
  | .slewEnd => true
  | .timeStepWrite rq _ => rq.ok
  | .ref10Valid _ den => decide (0 < den)
  | .ref10Loss => true
  | .ppsInEdge => true
  | .timeMeasWrite rq _ => rq.ok
  | .syncSrcWrite rq _ => rq.ok
  | .syncIvlBoundary => true
  | .sleepCalWindow => true
  | .launchTimeReached _ unit handle _ => decide (unit < 8) && decide (handle < 2 ^ 20)
  | .pathTransitionDone r p => decide (r < 4) && decide (p < 3)
  | .pathRxCommand r p _ freq width => decide (r < 4) && decide (p < 3) && decide (freq < 2 ^ 24) && decide (width < 5)
  | .pathTxCommand r p c _ => decide (r < 4) && decide (p < 3) && c.ok
  | .pathTxEnd r p _ _ => decide (r < 4) && decide (p < 3)
  | .pathRxEnd r p => decide (r < 4) && decide (p < 3)
  | .pathRelease r p => decide (r < 4) && decide (p < 3)
  | .preselRetuneDone r p => decide (r < 4) && decide (p < 3)
  | .rfeCalSweep rq r => rq.ok && decide (r < 4)
  | .sweepEntryDone r _ => decide (r < 4)
  | .rfeSurvey rq r => rq.ok && decide (r < 4)
  | .surveyDwellEnd r _ _ => decide (r < 4)
  | .rfeFgCal rq r => rq.ok && decide (r < 4)
  | .fgCalEnd r => decide (r < 4)
  | .bgCalStep r idx _ _ => decide (r < 4) && decide (idx < 256)
  | .entryStale r idx => decide (r < 4) && decide (idx < 256)
  | .maskMeasure r port _ => decide (r < 4) && decide (port < 24)
  | .cancClear rq _ => rq.ok
  | .cancSave rq _ => rq.ok
  | .coexReqInRise _ => true
  | .coexLead r p _ _ => decide (r < 4) && decide (p < 3)
  | .coexGrantSample r p _ _ => decide (r < 4) && decide (p < 3)
  | .windowCommit rq _ => rq.ok
  | .windowApply => true
  | .listenerAssign l a => decide (l < 288) && a.ok
  | .listenerWindowOpen l => decide (l < 288)
  | .energyDetect l _ => decide (l < 288)
  | .qualifierPass l _ _ => decide (l < 288)
  | .qualifierFail q => decide (q.l < 288)
  | .sfdMatch l _ _ => decide (l < 288)
  | .sfdwaitExpire w => decide (w.l < 288)
  | .strongerPreamble l _ _ _ => decide (l < 288)
  | .phrEnd l _ len _ _ => decide (l < 288) && decide (len < 2048)
  | .psduEnd l psdu _ _ => decide (l < 288) && decide (psdu.length ≤ 2047)
  | .listenerWindowClose l => decide (l < 288)
  | .eqArm rq _ => rq.ok
  | .carrierRequest c => c.ok
  | .carrierLaunch _ => true
  | .tileEnable rq t _ => rq.ok && decide (t < 8)
  | .tileChecksDone t => decide (t < 8)
  | .tileDisable rq t _ => rq.ok && decide (t < 8)
  | .slotEdge t => decide (t < 8)
  | .slotPrepare t => decide (t < 8)
  | .sfSwitch rq t sf _ => rq.ok && decide (t < 8) && decide (sf < 16)
  | .boardWriteDiscard rq addr bytes => rq.ok && decide (addr < 2 ^ 40) && sizeOk bytes
  | .mlcBoardLoad rq => rq.ok
  | .mlcFrameCheck l _ => decide (l < 288)
  | .txSquare t square _ => decide (t < 8) && decide (square < 2 ^ 20)
  | .sharedSquare t square _ _ => decide (t < 8) && decide (square < 2 ^ 20)
  | .beaconSquare t square _ => decide (t < 8) && decide (square < 2 ^ 20)
  | .keepaliveSquare t square _ _ => decide (t < 8) && decide (square < 2 ^ 20)
  | .alloc => true
  | .release => true
  | .read => true
  | .setkey => true
  | .findext => true
  | .findshort => true
  | .flushq => true
  | .setsw => true
  | .holdoffExpire rec' => decide (rec' < 262144)
  | .frameAttribute => true
  | .mapWriteDiscard rq addr bytes => rq.ok && decide (addr < 2 ^ 40) && sizeOk bytes
  | .downlinkExpire handle => decide (handle < 2 ^ 20)
  | .rebuildCopy0 rq => rq.ok
  | .rebuildCopy1 rq => rq.ok
  | .rebuildRestore rq => rq.ok
  | .wlanLstfDetect r _ => decide (r < 3)
  | .wlanLltfConfirm r => decide (r < 3)
  | .wlanLltfTimeout r => decide (r < 3)
  | .wlanLsigEnd r _ _ _ _ => decide (r < 3)
  | .wlanSigEnd r fmt g _ _ _ _ => decide (r < 3) && decide (fmt < 16) && g.fits
  | .wlanPsduEnd r l eq _ => decide (r < 3) && l.all WPsdu.ok && eq.all EqUser.ok
  | .wlanRestart r _ => decide (r < 3)
  | .grantExpire idx => decide (idx < 32)
  | .wlanEqArm rq r _ => rq.ok && decide (r < 3)
  | .channelCommit rq r _ => rq.ok && decide (r < 3)
  | .channelApply r => decide (r < 3)
  | .staAdd => true
  | .staDel => true
  | .staSetlink => true
  | .staSetmap => true
  | .staFlush => true
  | .tsfEpochWrite rq reg _ => rq.ok && decide (reg < 3)
  | .tbtt r bss => decide (r < 3) && decide (bss < 16)
  | .mldFrameExpire handle => decide (handle < 2 ^ 20)
  | .planRevise r ac _ => decide (r < 3) && decide (ac < 4)
  | .txopWin r acs _ => decide (r < 3) && acs.all (fun a => decide (a < 4))
  | .twtValidWrite rq _ => rq.ok
  | .twtSpStart a => decide (a < 4096)
  | .swCreate rq _ => rq.ok
  | .swCoupling rq _ => rq.ok
  | .couplingArrive wid slot typ val snap => decide (wid < 65536) && decide (slot < 16) && decide (typ < 16) && decide (val < 2 ^ 32) && decide (snap.length ≤ 128)
  | .dispatch e => decide (e < 48)
  | .wend e _ => decide (e < 48)
  | .wemit e o => decide (e < 48) && o.ok
  | .wnew e t => decide (e < 48) && t.ok
  | .wcpl e wid slot typ val => decide (e < 48) && decide (wid < 65536) && decide (slot < 16) && decide (typ < 16) && decide (val < 2 ^ 32)
  | .wreq e _ req wid slot => decide (e < 48) && decide (req.length ≤ 16) && decide (wid < 65536) && decide (slot < 16)
  | .whand e wid => decide (e < 48) && decide (wid < 65536)
  | .wbuf e len => decide (e < 48) && decide (len < 16385)
  | .engineTrap e => decide (e < 48)
  | .wagonDeadline wid => decide (wid < 65536)
  | .wagonAbandon wid => decide (wid < 65536)
  | .programLoad rq coach => rq.ok && decide (coach < 6)
  | .pbArm rq _ => rq.ok
  | .pbSwitch => true
  | .histWindow => true
  | .eloadWindow retired => retired.all (fun e => decide (e < 48))
  | .rteCommit rq => rq.ok
  | .rteCommitApply _ => true
  | .oldSetRelease => true
  | .lookup => true
  | .decomp => true
  | .comp => true
  | .frag => true
  | .srhins => true
  | .reasmExpire idx => decide (idx < 1024)
  | .watchChange w => decide (w < 16)
  | .watchHoldExpire w => decide (w < 16)
  | .watchRestore rq w _ => rq.ok && decide (w < 16)
  | .frameBoundary n => decide (n < 8)
  | .creditRefill n => decide (n < 8)
  | .tlEnable rq n _ => rq.ok && decide (n < 8)
  | .tlDisable rq n _ => rq.ok && decide (n < 8)
  | .tlSwitch rq n _ => rq.ok && decide (n < 8)
  | .tlStart n => decide (n < 8)
  | .tlEntryBoundary n => decide (n < 8)
  | .signalDetect n => decide (n < 8)
  | .anComplete n _ fec pause _ => decide (n < 8) && decide (fec < 3) && decide (pause < 4)
  | .trainComplete n _ _ _ => decide (n < 8)
  | .trainTimeout n => decide (n < 8)
  | .wordLock n => decide (n < 8)
  | .lockTimeout n => decide (n < 8)
  | .exchangeComplete n _ pause => decide (n < 8) && decide (pause < 4)
  | .lockLoss n => decide (n < 8)
  | .laneRetrain rq n _ => rq.ok && decide (n < 8)
  | .eidleWrite rq n _ => rq.ok && decide (n < 8)
  | .linkDown n _ _ => decide (n < 8)
  | .linkUp n => decide (n < 8)
  | .ethRxStart n => decide (n < 8)
  | .ethRxEnd n data _ => decide (n < 8) && decide (data.length ≤ 16384)
  | .pauseTimerExpire n c => decide (n < 8) && decide (c < 8)
  | .txpauseSend rq n _ => rq.ok && decide (n < 8)
  | .pauseRepeat n => decide (n < 8)
  | .lpiEnter n => decide (n < 8)
  | .lpiExit n => decide (n < 8)
  | .hello sen _ role lanes => decide (sen < 16) && decide (role < 4) && decide (lanes < 16)
  | .heartbeatSend => true
  | .heartbeatReceive sen _ => decide (sen < 16)
  | .heartbeatMiss => true
  | .lifeInReading reading => decide (reading < 3)
  | .alignmentMarker lanes => decide (lanes < 16)
  | .couplerLaneDrop k _ _ => decide (k < 4)
  | .couplerLaneJoin k => decide (k < 4)
  | .cplDataReceive frame => decide (frame.length ≤ 16384)
  | .syncComplete _ => true
  | .mirrorUpdate _ => true
  | .cplTimeCorrect _ => true
  | .releaseReceive => true
  | .cplHandover rq _ => rq.ok
  | .cplResync rq _ => rq.ok
  | .cplEbHeard sen _ role => decide (sen < 16) && decide (role < 4)
  | .cplEbMiss b => decide (b < 16)
  | .lentCarrierRequest c _ => c.ok
  | .nvsProgram rq => rq.ok
  | .nvsActivate rq => rq.ok
  | .secEnrol rq => rq.ok
  | .ccmDecrypt => true
  | .ccmEncrypt => true
  | .gcmpDecrypt => true
  | .gcmpEncrypt => true
  | .macsecDecrypt => true
  | .macsecEncrypt => true
  | .meterBucketAge meter => decide (meter < 13)
  | .limSnapshot _ => true
  | .hartRelease rq _ => rq.ok
  | .msipWrite hart by' _ => decide (hart < 8) && decide (by' < 8)
  | .plicClaim ctx => decide (ctx < 16)
  | .plicComplete ctx src => decide (ctx < 16) && decide (src < 84)
  | .memAccess rq addr bytes _ v _ => rq.ok && decide (addr < 2 ^ 40) && sizeOk bytes && decide (v < 2 ^ 64)
  | .scrub _ _ => true
  | .memAlloc rq _ => rq.ok
  | .memFree rq _ => rq.ok
  | .chkScan rq unit => rq.ok && decide (unit < 4)
  | .stateRequest rq _ _ => rq.ok
  | .stateChangeDone _ => true
  | .dormantAlarm _ => true
  | .wakeSource src _ => decide (src < 16)
  | .perfRequest rq _ => rq.ok
  | .perfSwitchDone _ => true
  | .faultEvent code page _ => decide (code < 65536) && decide (page < 2 ^ 28)
  | .fltRestore rq _ => rq.ok
  | .fltStop rq _ => rq.ok
  | .handshakeStall cls => decide (cls < 128)
  | .railFault => true
  | .tickLockLost => true
  | .stopholdExpire => true
  | .engineStall e => decide (e < 48)
  | .engineRunmax e => decide (e < 48)
  | .tapReset => true
  | .dbgiAccess op off _ => decide (op < 3) && decide (off < 4096)
  | .dmiAccess op addr _ => decide (op < 3) && decide (addr < 2 ^ 40)
  | .haltRequest h => decide (h < 56)
  | .resumeRequest h => decide (h < 56)
  | .singleStep h ins => decide (h < 56) && ins.ok
  | .ebreak h => decide (h < 56)
  | .abstractCommand _ => true
  | .mapRead rq _ => rq.ok
  | .mapWrite rq _ => rq.ok
  | .tokenWordWrite rq _ => rq.ok
  | .tokenVerify rq _ => rq.ok
  | .tokenCheckDone => true
  | .engineYield rq _ => rq.ok
  | .twtSpEnd a => decide (a < 4096)
  | .creditReachesZero n c => decide (n < 8) && decide (c < 8)
  | .coexPrioRise => true
  | .rxLpiChange n _ => decide (n < 8)

end Sys2Proof
end

