-- ==== Sys2Proof/Tests/Slice0.lean ====
section
/-!
SUPPORT. Tests: well-formed and ill-formed commands, decoding of table words, the queue, and for every statement with hypotheses a
state and operands that meet them.
-/

namespace Sys2Proof.Tests
open Sys2Proof Sys2Proof.Machine

set_option maxRecDepth 100000
set_option linter.unusedVariables false

/-- The module after a hand-over to Run. -/
def up : State := { State.reset with env := { State.reset.env with phase := .software } }
/-- A regulatory image that permits the sub-GHz mesh on every port. -/
def img : RegImage :=
  { region := 1, ports := List.replicate 24 { gain := 0, cond := 120, ranges := [(400000, 6000000)] }, eirp := [], bw := [(0, 200)], removed := [],
    meters := [], lbt := [], cut := none, ed := [], lpi := none, sp := none }

/-- The module with that image in force, MPHY and RFE_M enabled, path 1 in Ready and a calibration entry for 868.3 MHz. -/
def upAir : State :=
  (({ (((up.set (F.CTRL_ENABLE 0x14) 1).set (F.CTRL_ENABLE 0x13) 1).set (F.RFE_PATHSTAT_STATE 3 1) 2) with
    lim := { up.lim with img := some img } }).setCalW 3 5 0 (868300 + 2 ^ 24 + 2 ^ 26))

/-! Well-formedness: a command of each constructor is accepted, and for each check one that breaks it alone is refused -/

theorem test_wf_accepts_0 : ([.regWrite { cls := 0, num := 0 } 0 0#32, .rcRead { cls := 0, num := 0 } 0, .opstatRead { cls := 0, num := 0 } 0 0,
    .multiwordLowRead { cls := 0, num := 0 } 0, .multiwordHighWrite { cls := 0, num := 0 } 0 0#32,
    .subwordAccess { cls := 0, num := 0 } 0 1 false, .darkAccess { cls := 0, num := 0 } 0 false,
    .sreset { cls := 0, num := 0 } 0, .lockWrite { cls := 0, num := 0 } 0 0#32, .evForce { cls := 0, num := 0 } 0 0#32,
    .ctrlEnableWrite { cls := 0, num := 0 } 0 0#32, .domreqWrite { cls := 0, num := 0 } 0 0#32, .domainTransitionDone 0,
    .coachDrainTimeout 0, .opAbort { cls := 0, num := 0 } 0 0, .opResourceFree 0, .opEnd 0 0, .thermWarn 0, .warnClear 0,
    .thermHold 0, .thermClear 0, .thermalCut 0, .thermalCutRecover 0, .mainsGood, .mainsLoss, .mainsReturn,
    .backupGood 0, .backupLoss 0, .bridgeTimerExpire, .storeExhausted, .nresetLow, .nresetRelease, .bootHandover 0,
    .timeTick, .ppsOutEnd, .timeSlewWrite { cls := 0, num := 0 } 0#32, .slewEnd,
    .timeStepWrite { cls := 0, num := 0 } 0#32, .ref10Valid 0 1, .ref10Loss, .ppsInEdge,
    .timeMeasWrite { cls := 0, num := 0 } 0#32, .syncSrcWrite { cls := 0, num := 0 } 0#32, .syncIvlBoundary,
    .sleepCalWindow, .launchTimeReached false 0 0 false, .pathTransitionDone 0 0, .pathRxCommand 0 0 false 0 0,
    .pathTxCommand 0 0 { id := 0, port := 0, freq := 0, bw := 0, width := 0, timed := false, at' := 0, dur := 0, act := 0 } [],
    .pathTxEnd 0 0 0 [], .pathRxEnd 0 0, .pathRelease 0 0, .preselRetuneDone 0 0, .rfeCalSweep { cls := 0, num := 0 } 0,
    .sweepEntryDone 0 { result := 0, gain := 0, presel := 0, txpwr := 0, dpdset := 0 },
    .rfeSurvey { cls := 0, num := 0 } 0, .surveyDwellEnd 0 0 false, .rfeFgCal { cls := 0, num := 0 } 0, .fgCalEnd 0,
    .bgCalStep 0 0 false { result := 0, gain := 0, presel := 0, txpwr := 0, dpdset := 0 }] : List Instr).all Instr.wf = true := by decide

theorem test_wf_accepts_1 : ([.entryStale 0 0, .maskMeasure 0 0 0, .cancClear { cls := 0, num := 0 } 0#32, .cancSave { cls := 0, num := 0 } 0#32,
    .coexReqInRise false, .coexLead 0 0 0 false, .coexGrantSample 0 0 0 false, .windowCommit { cls := 0, num := 0 } 0#32,
    .windowApply,
    .listenerAssign 0 { tile := 0, freq := 0, mode := 0, opn := 0, cls := 0, square := 0, asn := 0, att := none },
    .listenerWindowOpen 0, .energyDetect 0 0, .qualifierPass 0 [] (0, 0), .qualifierFail { l := 0, corr := [], e := 0 },
    .sfdMatch 0 0 0, .sfdwaitExpire { l := 0, units := 0 }, .strongerPreamble 0 [] 0 (0, 0),
    .phrEnd 0 { modeSwitch := false, reserved := 0, hcs := false } 0 false false,
    .psduEnd 0 [] { snr := 0, fofs := 0, fosat := false } [], .listenerWindowClose 0, .eqArm { cls := 0, num := 0 } 0#32,
    .carrierRequest { id := 0, tile := 0, port := 20, freq := 0, mode := 0, power := 0, at' := 0, dur := 0, act := 0, cls := 0, psdu := [], wag := none, whiten := false, fcs4 := false, pre := 4 },
    .carrierLaunch 0, .tileEnable { cls := 0, num := 0 } 0 0#32, .tileChecksDone 0,
    .tileDisable { cls := 0, num := 0 } 0 0#32, .slotEdge 0, .slotPrepare 0, .sfSwitch { cls := 0, num := 0 } 0 0 0#32,
    .boardWriteDiscard { cls := 0, num := 0 } 0 1, .mlcBoardLoad { cls := 0, num := 0 }, .mlcFrameCheck 0 none,
    .txSquare 0 0 none, .sharedSquare 0 0 none none, .beaconSquare 0 0 none, .keepaliveSquare 0 0 false none, .alloc,
    .release, .read, .setkey, .findext, .findshort, .flushq, .setsw, .holdoffExpire 0, .frameAttribute,
    .mapWriteDiscard { cls := 0, num := 0 } 0 1, .downlinkExpire 0, .rebuildCopy0 { cls := 0, num := 0 },
    .rebuildCopy1 { cls := 0, num := 0 }, .rebuildRestore { cls := 0, num := 0 }, .wlanLstfDetect 0 0,
    .wlanLltfConfirm 0, .wlanLltfTimeout 0, .wlanLsigEnd 0 false false 0 0,
    .wlanSigEnd 0 0 { ok := false, mcs := 0, nss := 0, dcm := false, ldpc := false, stbc := false, tones := 0, punc := 0, random := false, shared := false } false false 0 0,
    .wlanPsduEnd 0 [] [] none, .wlanRestart 0 0, .grantExpire 0, .wlanEqArm { cls := 0, num := 0 } 0 0#32] : List Instr).all Instr.wf = true := by decide

theorem test_wf_accepts_2 : ([.channelCommit { cls := 0, num := 0 } 0 0#32, .channelApply 0, .staAdd, .staDel, .staSetlink, .staSetmap, .staFlush,
    .tsfEpochWrite { cls := 0, num := 0 } 0 0#32, .tbtt 0 0, .mldFrameExpire 0,
    .planRevise 0 0 { energy := [], corr := [] }, .txopWin 0 [] { acked := [], fed := [], bsr := [], energy := [] },
    .twtValidWrite { cls := 0, num := 0 } 0#32, .twtSpStart 0, .swCreate { cls := 0, num := 0 } 0#32,
    .swCoupling { cls := 0, num := 0 } 0#32, .couplingArrive 0 0 0 0 [], .dispatch 0, .wend 0 false,
    .wemit 0 { handle := 0, dest := 0, queue := 0, launch := 0, timed := false, compl := false, keep := false, ctrain := 0, ingress := 0 },
    .wnew 0 { train := 0, prog := 0, ecls := 0, placewait := false, deadline := 0, decl := 0, arr := 0, ctype := 0, user := 0, cpl := [] },
    .wcpl 0 0 0 0 0, .wreq 0 false [] 0 0, .whand 0 0, .wbuf 0 0, .engineTrap 0, .wagonDeadline 0, .wagonAbandon 0,
    .programLoad { cls := 0, num := 0 } 0, .pbArm { cls := 0, num := 0 } 0#32, .pbSwitch, .histWindow, .eloadWindow [],
    .rteCommit { cls := 0, num := 0 }, .rteCommitApply 0, .oldSetRelease, .lookup, .decomp, .comp, .frag, .srhins,
    .reasmExpire 0, .watchChange 0, .watchHoldExpire 0, .watchRestore { cls := 0, num := 0 } 0 0#32, .frameBoundary 0,
    .creditRefill 0, .tlEnable { cls := 0, num := 0 } 0 0#32, .tlDisable { cls := 0, num := 0 } 0 0#32,
    .tlSwitch { cls := 0, num := 0 } 0 0#32, .tlStart 0, .tlEntryBoundary 0, .signalDetect 0,
    .anComplete 0 false 0 0 false, .trainComplete 0 0 0 0, .trainTimeout 0, .wordLock 0, .lockTimeout 0,
    .exchangeComplete 0 0 0, .lockLoss 0] : List Instr).all Instr.wf = true := by decide

theorem test_wf_accepts_3 : ([.laneRetrain { cls := 0, num := 0 } 0 0#32, .eidleWrite { cls := 0, num := 0 } 0 0#32, .linkDown 0 false false,
    .linkUp 0, .ethRxStart 0, .ethRxEnd 0 [] false, .pauseTimerExpire 0 0, .txpauseSend { cls := 0, num := 0 } 0 0#32,
    .pauseRepeat 0, .lpiEnter 0, .lpiExit 0, .hello 0 0 0 0, .heartbeatSend, .heartbeatReceive 0 [], .heartbeatMiss,
    .lifeInReading 0, .alignmentMarker 0, .couplerLaneDrop 0 0 0, .couplerLaneJoin 0, .cplDataReceive [],
    .syncComplete [], .mirrorUpdate (.shadow 0 0),
    .cplTimeCorrect { t1 := 0, t2 := 0, t3 := 0, t4 := 0, incr := 0, slew := 0, step := none, st := 0, unc := 0 },
    .releaseReceive, .cplHandover { cls := 0, num := 0 } 0#32, .cplResync { cls := 0, num := 0 } 0#32, .cplEbHeard 0 0 0,
    .cplEbMiss 0,
    .lentCarrierRequest { id := 0, tile := 0, port := 20, freq := 0, mode := 0, power := 0, at' := 0, dur := 0, act := 0, cls := 0, psdu := [], wag := none, whiten := false, fcs4 := false, pre := 4 } none,
    .nvsProgram { cls := 0, num := 0 }, .nvsActivate { cls := 0, num := 0 }, .secEnrol { cls := 0, num := 0 },
    .ccmDecrypt, .ccmEncrypt, .gcmpDecrypt, .gcmpEncrypt, .macsecDecrypt, .macsecEncrypt, .meterBucketAge 0,
    .limSnapshot false, .hartRelease { cls := 0, num := 0 } 0#32, .msipWrite 0 0 0#32, .plicClaim 0, .plicComplete 0 0,
    .memAccess { cls := 0, num := 0 } 0 1 false 0 .none, .scrub false .none, .memAlloc { cls := 0, num := 0 } 0#32,
    .memFree { cls := 0, num := 0 } 0#32, .chkScan { cls := 0, num := 0 } 0, .stateRequest { cls := 0, num := 0 } 0#32 0,
    .stateChangeDone 0, .dormantAlarm 0, .wakeSource 0 0, .perfRequest { cls := 0, num := 0 } 0#32,
    .perfSwitchDone false, .faultEvent 0 0 false, .fltRestore { cls := 0, num := 0 } 0#32,
    .fltStop { cls := 0, num := 0 } 0#32, .handshakeStall 0, .railFault] : List Instr).all Instr.wf = true := by decide

theorem test_wf_accepts_4 : ([.tickLockLost, .stopholdExpire, .engineStall 0, .engineRunmax 0, .tapReset, .dbgiAccess 0 0 0#32,
    .dmiAccess 0 0 0#32, .haltRequest 0, .resumeRequest 0, .singleStep 0 .plain, .ebreak 0, .abstractCommand 0#32,
    .mapRead { cls := 0, num := 0 } 0#32, .mapWrite { cls := 0, num := 0 } 0#32,
    .tokenWordWrite { cls := 0, num := 0 } 0#32, .tokenVerify { cls := 0, num := 0 } 0#32, .tokenCheckDone,
    .engineYield { cls := 0, num := 0 } 0#32, .twtSpEnd 0, .creditReachesZero 0 0, .coexPrioRise, .rxLpiChange 0 false] : List Instr).all Instr.wf = true := by decide

theorem test_wf_refuses_0 : ([.regWrite { cls := 0, num := 8 } 0 0#32, .regWrite { cls := 0, num := 0 } (2 ^ 40) 0#32,
    .rcRead { cls := 0, num := 8 } 0, .rcRead { cls := 0, num := 0 } (2 ^ 40), .opstatRead { cls := 0, num := 8 } 0 0,
    .opstatRead { cls := 0, num := 0 } 6 0, .multiwordLowRead { cls := 0, num := 8 } 0,
    .multiwordLowRead { cls := 0, num := 0 } (2 ^ 40), .multiwordHighWrite { cls := 0, num := 8 } 0 0#32,
    .multiwordHighWrite { cls := 0, num := 0 } (2 ^ 40) 0#32, .subwordAccess { cls := 0, num := 8 } 0 1 false,
    .subwordAccess { cls := 0, num := 0 } (2 ^ 40) 1 false, .subwordAccess { cls := 0, num := 0 } 0 3 false,
    .darkAccess { cls := 0, num := 8 } 0 false, .darkAccess { cls := 0, num := 0 } (2 ^ 40) false,
    .sreset { cls := 0, num := 8 } 0, .sreset { cls := 0, num := 0 } 6, .lockWrite { cls := 0, num := 8 } 0 0#32,
    .lockWrite { cls := 0, num := 0 } 6 0#32, .evForce { cls := 0, num := 8 } 0 0#32,
    .evForce { cls := 0, num := 0 } 6 0#32, .ctrlEnableWrite { cls := 0, num := 8 } 0 0#32,
    .ctrlEnableWrite { cls := 0, num := 0 } 6 0#32, .domreqWrite { cls := 0, num := 8 } 0 0#32,
    .domreqWrite { cls := 0, num := 0 } 6 0#32, .domainTransitionDone 28, .coachDrainTimeout 6,
    .opAbort { cls := 0, num := 8 } 0 0, .opAbort { cls := 0, num := 0 } 6 0, .opResourceFree 6, .opEnd 6 0,
    .thermWarn 2048, .warnClear 2048, .thermHold 2048, .thermClear 2048, .thermalCut 2048, .thermalCutRecover 2048,
    .backupGood 4096, .backupLoss 4096, .timeSlewWrite { cls := 0, num := 8 } 0#32] : List Instr).all (fun c => !c.wf) = true := by decide

theorem test_wf_refuses_1 : ([.timeStepWrite { cls := 0, num := 8 } 0#32, .ref10Valid 0 0, .timeMeasWrite { cls := 0, num := 8 } 0#32,
    .syncSrcWrite { cls := 0, num := 8 } 0#32, .launchTimeReached false 8 0 false,
    .launchTimeReached false 0 (2 ^ 20) false, .pathTransitionDone 4 0, .pathTransitionDone 0 3,
    .pathRxCommand 4 0 false 0 0, .pathRxCommand 0 3 false 0 0, .pathRxCommand 0 0 false (2 ^ 24) 0,
    .pathRxCommand 0 0 false 0 5,
    .pathTxCommand 4 0 { id := 0, port := 0, freq := 0, bw := 0, width := 0, timed := false, at' := 0, dur := 0, act := 0 } [],
    .pathTxCommand 0 3 { id := 0, port := 0, freq := 0, bw := 0, width := 0, timed := false, at' := 0, dur := 0, act := 0 } [],
    .pathTxCommand 0 0 { id := 0, port := 24, freq := 0, bw := 0, width := 0, timed := false, at' := 0, dur := 0, act := 0 } [],
    .pathTxEnd 4 0 0 [], .pathTxEnd 0 3 0 [], .pathRxEnd 4 0, .pathRxEnd 0 3, .pathRelease 4 0, .pathRelease 0 3,
    .preselRetuneDone 4 0, .preselRetuneDone 0 3, .rfeCalSweep { cls := 0, num := 8 } 0,
    .rfeCalSweep { cls := 0, num := 0 } 4,
    .sweepEntryDone 4 { result := 0, gain := 0, presel := 0, txpwr := 0, dpdset := 0 },
    .rfeSurvey { cls := 0, num := 8 } 0, .rfeSurvey { cls := 0, num := 0 } 4, .surveyDwellEnd 4 0 false,
    .rfeFgCal { cls := 0, num := 8 } 0, .rfeFgCal { cls := 0, num := 0 } 4, .fgCalEnd 4,
    .bgCalStep 4 0 false { result := 0, gain := 0, presel := 0, txpwr := 0, dpdset := 0 },
    .bgCalStep 0 256 false { result := 0, gain := 0, presel := 0, txpwr := 0, dpdset := 0 }, .entryStale 4 0,
    .entryStale 0 256, .maskMeasure 4 0 0, .maskMeasure 0 24 0, .cancClear { cls := 0, num := 8 } 0#32,
    .cancSave { cls := 0, num := 8 } 0#32] : List Instr).all (fun c => !c.wf) = true := by decide

theorem test_wf_refuses_2 : ([.coexLead 4 0 0 false, .coexLead 0 3 0 false, .coexGrantSample 4 0 0 false, .coexGrantSample 0 3 0 false,
    .windowCommit { cls := 0, num := 8 } 0#32,
    .listenerAssign 288 { tile := 0, freq := 0, mode := 0, opn := 0, cls := 0, square := 0, asn := 0, att := none },
    .listenerAssign 0 { tile := 8, freq := 0, mode := 0, opn := 0, cls := 0, square := 0, asn := 0, att := none },
    .listenerWindowOpen 288, .energyDetect 288 0, .qualifierPass 288 [] (0, 0),
    .qualifierFail { l := 288, corr := [], e := 0 }, .sfdMatch 288 0 0, .sfdwaitExpire { l := 288, units := 0 },
    .strongerPreamble 288 [] 0 (0, 0), .phrEnd 288 { modeSwitch := false, reserved := 0, hcs := false } 0 false false,
    .phrEnd 0 { modeSwitch := false, reserved := 0, hcs := false } 2048 false false,
    .psduEnd 288 [] { snr := 0, fofs := 0, fosat := false } [],
    .psduEnd 0 (List.replicate 2048 0) { snr := 0, fofs := 0, fosat := false } [], .listenerWindowClose 288,
    .eqArm { cls := 0, num := 8 } 0#32,
    .carrierRequest { id := 0, tile := 0, port := 24, freq := 0, mode := 0, power := 0, at' := 0, dur := 0, act := 0, cls := 0, psdu := [], wag := none, whiten := false, fcs4 := false, pre := 0 },
    .tileEnable { cls := 0, num := 8 } 0 0#32, .tileEnable { cls := 0, num := 0 } 8 0#32, .tileChecksDone 8,
    .tileDisable { cls := 0, num := 8 } 0 0#32, .tileDisable { cls := 0, num := 0 } 8 0#32, .slotEdge 8, .slotPrepare 8,
    .sfSwitch { cls := 0, num := 8 } 0 0 0#32, .sfSwitch { cls := 0, num := 0 } 8 0 0#32,
    .sfSwitch { cls := 0, num := 0 } 0 16 0#32, .boardWriteDiscard { cls := 0, num := 8 } 0 1,
    .boardWriteDiscard { cls := 0, num := 0 } (2 ^ 40) 1, .boardWriteDiscard { cls := 0, num := 0 } 0 3,
    .mlcBoardLoad { cls := 0, num := 8 }, .mlcFrameCheck 288 none, .txSquare 8 0 none, .txSquare 0 (2 ^ 20) none,
    .sharedSquare 8 0 none none, .sharedSquare 0 (2 ^ 20) none none] : List Instr).all (fun c => !c.wf) = true := by decide

theorem test_wf_refuses_3 : ([.beaconSquare 8 0 none, .beaconSquare 0 (2 ^ 20) none, .keepaliveSquare 8 0 false none,
    .keepaliveSquare 0 (2 ^ 20) false none, .holdoffExpire 262144, .mapWriteDiscard { cls := 0, num := 8 } 0 1,
    .mapWriteDiscard { cls := 0, num := 0 } (2 ^ 40) 1, .mapWriteDiscard { cls := 0, num := 0 } 0 3,
    .downlinkExpire (2 ^ 20), .rebuildCopy0 { cls := 0, num := 8 }, .rebuildCopy1 { cls := 0, num := 8 },
    .rebuildRestore { cls := 0, num := 8 }, .wlanLstfDetect 3 0, .wlanLltfConfirm 3, .wlanLltfTimeout 3,
    .wlanLsigEnd 3 false false 0 0,
    .wlanSigEnd 3 0 { ok := false, mcs := 0, nss := 0, dcm := false, ldpc := false, stbc := false, tones := 0, punc := 0, random := false, shared := false } false false 0 0,
    .wlanSigEnd 0 16 { ok := false, mcs := 0, nss := 0, dcm := false, ldpc := false, stbc := false, tones := 0, punc := 0, random := false, shared := false } false false 0 0,
    .wlanSigEnd 0 0 { ok := false, mcs := 16, nss := 0, dcm := false, ldpc := false, stbc := false, tones := 0, punc := 0, random := false, shared := false } false false 0 0,
    .wlanPsduEnd 3 [] [] none,
    .wlanPsduEnd 0 [{ data := [], agg := false, rep := { fmt := 0, bw := 0, mcs := 0, nss := 0, gi := 0, aid := 4096, color := 0, rssi := 0, nf := 0, snr := 0, evm := 0, fofs := 0 }, bsr := [] }] [] none,
    .wlanPsduEnd 0 [] [{ aid := 0, ru := 0, chains := 9, streams := 0, taps := [] }] none, .wlanRestart 3 0,
    .grantExpire 32, .wlanEqArm { cls := 0, num := 8 } 0 0#32, .wlanEqArm { cls := 0, num := 0 } 3 0#32,
    .channelCommit { cls := 0, num := 8 } 0 0#32, .channelCommit { cls := 0, num := 0 } 3 0#32, .channelApply 3,
    .tsfEpochWrite { cls := 0, num := 8 } 0 0#32, .tsfEpochWrite { cls := 0, num := 0 } 3 0#32, .tbtt 3 0, .tbtt 0 16,
    .mldFrameExpire (2 ^ 20), .planRevise 3 0 { energy := [], corr := [] }, .planRevise 0 4 { energy := [], corr := [] },
    .txopWin 3 [] { acked := [], fed := [], bsr := [], energy := [] },
    .txopWin 0 [4] { acked := [], fed := [], bsr := [], energy := [] }, .twtValidWrite { cls := 0, num := 8 } 0#32,
    .twtSpStart 4096] : List Instr).all (fun c => !c.wf) = true := by decide

theorem test_wf_refuses_4 : ([.swCreate { cls := 0, num := 8 } 0#32, .swCoupling { cls := 0, num := 8 } 0#32, .couplingArrive 65536 0 0 0 [],
    .couplingArrive 0 16 0 0 [], .couplingArrive 0 0 16 0 [], .couplingArrive 0 0 0 (2 ^ 32) [],
    .couplingArrive 0 0 0 0 (List.replicate 129 0), .dispatch 48, .wend 48 false,
    .wemit 48 { handle := 0, dest := 0, queue := 0, launch := 0, timed := false, compl := false, keep := false, ctrain := 0, ingress := 0 },
    .wemit 0 { handle := 0, dest := 8, queue := 0, launch := 0, timed := false, compl := false, keep := false, ctrain := 0 },
    .wnew 48 { train := 0, prog := 0, ecls := 0, placewait := false, deadline := 0, decl := 0, arr := 0, ctype := 0, user := 0, cpl := [] },
    .wnew 0 { train := 0, prog := 0, ecls := 4, placewait := false, deadline := 0, decl := 0, arr := 0, ctype := 0, user := 0, cpl := [] },
    .wcpl 48 0 0 0 0, .wcpl 0 65536 0 0 0, .wcpl 0 0 16 0 0, .wcpl 0 0 0 16 0, .wcpl 0 0 0 0 (2 ^ 32),
    .wreq 48 false [] 0 0, .wreq 0 false (List.replicate 17 0) 0 0, .wreq 0 false [] 65536 0, .wreq 0 false [] 0 16,
    .whand 48 0, .whand 0 65536, .wbuf 48 0, .wbuf 0 16385, .engineTrap 48, .wagonDeadline 65536, .wagonAbandon 65536,
    .programLoad { cls := 0, num := 8 } 0, .programLoad { cls := 0, num := 0 } 6, .pbArm { cls := 0, num := 8 } 0#32,
    .eloadWindow [48], .rteCommit { cls := 0, num := 8 }, .reasmExpire 1024, .watchChange 16, .watchHoldExpire 16,
    .watchRestore { cls := 0, num := 8 } 0 0#32, .watchRestore { cls := 0, num := 0 } 16 0#32, .frameBoundary 8] : List Instr).all (fun c => !c.wf) = true := by decide

theorem test_wf_refuses_5 : ([.creditRefill 8, .tlEnable { cls := 0, num := 8 } 0 0#32, .tlEnable { cls := 0, num := 0 } 8 0#32,
    .tlDisable { cls := 0, num := 8 } 0 0#32, .tlDisable { cls := 0, num := 0 } 8 0#32,
    .tlSwitch { cls := 0, num := 8 } 0 0#32, .tlSwitch { cls := 0, num := 0 } 8 0#32, .tlStart 8, .tlEntryBoundary 8,
    .signalDetect 8, .anComplete 8 false 0 0 false, .anComplete 0 false 3 0 false, .anComplete 0 false 0 4 false,
    .trainComplete 8 0 0 0, .trainTimeout 8, .wordLock 8, .lockTimeout 8, .exchangeComplete 8 0 0,
    .exchangeComplete 0 0 4, .lockLoss 8, .laneRetrain { cls := 0, num := 8 } 0 0#32,
    .laneRetrain { cls := 0, num := 0 } 8 0#32, .eidleWrite { cls := 0, num := 8 } 0 0#32,
    .eidleWrite { cls := 0, num := 0 } 8 0#32, .linkDown 8 false false, .linkUp 8, .ethRxStart 8, .ethRxEnd 8 [] false,
    .ethRxEnd 0 (List.replicate 16385 0) false, .pauseTimerExpire 8 0, .pauseTimerExpire 0 8,
    .txpauseSend { cls := 0, num := 8 } 0 0#32, .txpauseSend { cls := 0, num := 0 } 8 0#32, .pauseRepeat 8, .lpiEnter 8,
    .lpiExit 8, .hello 16 0 0 0, .hello 0 0 4 0, .hello 0 0 0 16, .heartbeatReceive 16 []] : List Instr).all (fun c => !c.wf) = true := by decide

theorem test_wf_refuses_6 : ([.lifeInReading 3, .alignmentMarker 16, .couplerLaneDrop 4 0 0, .couplerLaneJoin 4,
    .cplDataReceive (List.replicate 16385 0), .cplHandover { cls := 0, num := 8 } 0#32,
    .cplResync { cls := 0, num := 8 } 0#32, .cplEbHeard 16 0 0, .cplEbHeard 0 0 4, .cplEbMiss 16,
    .lentCarrierRequest { id := 0, tile := 0, port := 24, freq := 0, mode := 0, power := 0, at' := 0, dur := 0, act := 0, cls := 0, psdu := [], wag := none, whiten := false, fcs4 := false, pre := 0 } none,
    .nvsProgram { cls := 0, num := 8 }, .nvsActivate { cls := 0, num := 8 }, .secEnrol { cls := 0, num := 8 },
    .meterBucketAge 13, .hartRelease { cls := 0, num := 8 } 0#32, .msipWrite 8 0 0#32, .msipWrite 0 8 0#32,
    .plicClaim 16, .plicComplete 16 0, .plicComplete 0 84, .memAccess { cls := 0, num := 8 } 0 1 false 0 .none,
    .memAccess { cls := 0, num := 0 } (2 ^ 40) 1 false 0 .none, .memAccess { cls := 0, num := 0 } 0 3 false 0 .none,
    .memAccess { cls := 0, num := 0 } 0 1 false (2 ^ 64) .none, .memAlloc { cls := 0, num := 8 } 0#32,
    .memFree { cls := 0, num := 8 } 0#32, .chkScan { cls := 0, num := 8 } 0, .chkScan { cls := 0, num := 0 } 4,
    .stateRequest { cls := 0, num := 8 } 0#32 0, .wakeSource 16 0, .perfRequest { cls := 0, num := 8 } 0#32,
    .faultEvent 65536 0 false, .faultEvent 0 (2 ^ 28) false, .fltRestore { cls := 0, num := 8 } 0#32,
    .fltStop { cls := 0, num := 8 } 0#32, .handshakeStall 128, .engineStall 48, .engineRunmax 48, .dbgiAccess 3 0 0#32] : List Instr).all (fun c => !c.wf) = true := by decide

theorem test_wf_refuses_7 : ([.dbgiAccess 0 4096 0#32, .dmiAccess 3 0 0#32, .dmiAccess 0 (2 ^ 40) 0#32, .haltRequest 56, .resumeRequest 56,
    .singleStep 56 .plain, .singleStep 0 (.whand 65536), .ebreak 56, .mapRead { cls := 0, num := 8 } 0#32,
    .mapWrite { cls := 0, num := 8 } 0#32, .tokenWordWrite { cls := 0, num := 8 } 0#32,
    .tokenVerify { cls := 0, num := 8 } 0#32, .engineYield { cls := 0, num := 8 } 0#32, .twtSpEnd 4096,
    .creditReachesZero 8 0, .creditReachesZero 0 8, .rxLpiChange 8 false] : List Instr).all (fun c => !c.wf) = true := by decide

/-! Decoding: the table gives bits for no row -/

theorem test_decode_no_row : decodeTableWord 16 0x1234 = none := by decide

theorem test_fetch_leaves_state : (State.reset.withFetchWord 16 0x1234).pending = [] := by decide

/-! One step -/

/-- R65: 0xA5 on LOCK sets HALF. -/
theorem test_step_lock : (match step { up with pending := [.lockWrite { cls := 0, num := 0 } 4 0xA5#32] } with
    | .next t => decide (t.get (F.LOCK_HALF 4) = 1 ∧ t.pending = []) | _ => false) = true := by decide

/-- R45: mains lost with no backup leads to Bridging. -/
theorem test_step_mains : (match step { up with pending := [.mainsLoss, .tapReset] } with
    | .next t => decide (t.env.path = .bridging ∧ t.pending = [.tapReset]) | _ => false) = true := by decide

theorem test_step_idle : step State.reset = .next State.reset := rfl

/-! Worked examples of the spec -/

/-- TIME as the example of spec/04 "one mesh measurement" sets it. -/
def servoUp : State :=
  ({ up with tm := { up.tm with incr := 0x400004000 } }).sets [(F.TIME_SYNCCFG_SRC, 2), (F.TIME_SYNCCFG_SERVO, 1), (F.TIME_SYNCCFG_KP, 1),
    (F.TIME_SYNCCFG_KI, 4), (F.TIME_SYNCIVL_IVL, 2000), (F.TIME_STATE_STATE, 1), (F.TIME_LOCKCFG_THR, 1000)]

/-- R95, R97: y = +4,800 ns leaves TIME_INCR at 0x04_0000_35EF with a slew of -2,400 ns and does not count towards Locked. -/
theorem test_example_servo : let t := servoUp.measure 4800
    t.tm.incr = 0x4000035EF ∧ t.tm.slew = -2400 * 2 ^ 32 ∧ t.tm.acq = 0 := by decide

/-- R102, spec/04 "a minute in Dormant": the wake at 7,260:401,320,960 with TIME_UNC 600,314, Resumed. -/
theorem test_example_dormant :
    let s : State := ({ up with tm := { up.tm with t0 := (7200 * 1000000000 + 400000000) * 2 ^ 32 } }).sets
      [(F.TIME_SLPPER_INT, 0x7736), (F.TIME_SLPPER_FRAC, 0x4000), (F.TIME_SLPCFG_CALVALID, 1), (F.TIME_SLPCFG_DRIFT, 10),
        (F.TIME_UNC_UNC, 300), (F.TIME_STATE_STATE, 3)]
    let t := s.timeRestore 1966080
    tbSecOf t.tm.tb = 7260 ∧ tbNsOf t.tm.tb = 401320960 ∧ t.get F.TIME_UNC_UNC = 600314 ∧ t.get F.TIME_STATE_STATE = 5 := by decide

/-- R129, R158: spec/07 "one uplink": 62 octets of 80 µs to the frame's end, and 2,640 µs for the acknowledgement. -/
theorem test_example_air : airNs 1 60 = 4960000 ∧ preNs 1 8 + airNs 1 21 = 2640000 := by decide

/-- R152: the channel of ASN 0x01234567 with CHOFF 9 is 918,200 kHz, and the slot's edge is at 478,218.575 s. -/
theorem test_example_hop :
    let s := up.sets [(F.MLC_TILE_CH0_CH0 1, 916200), (F.MLC_TILE_SPACING_SPACING 1, 400), (F.MLC_TILE_SLOT_HOPLEN 1, 16),
      (F.MLC_TILE_EPOCHSECLO_SEC 1, 1000), (F.MLC_TILE_SLOT_SLOTLEN 1, 25000), (F.MLC_HOP_EVEN 1 0, 5)]
    s.hopFreq 1 0x1234567 9 = 918200 ∧ s.edgeNs 1 0x1234567 = 478218575000000 := by decide

/-- R281: spec/13 "a list whose base time has passed": the start is 5,000:123,500,000. -/
theorem test_example_turns :
    let s : State := ({ up with tm := { up.tm with tb := 5000123456789 * 2 ^ 32 } }).sets [(F.SHP_BASESECLO_SEC 5 1, 100),
      (F.SHP_CYCLE_CYCLE 5 1, 250000), (F.SHP_COUNT_COUNT 5 1, 2), (F.SHP_TURN_GATES 5 1 0, 0x80), (F.SHP_TURN_INTERVAL 5 1 0, 50000),
      (F.SHP_TURN_GATES 5 1 1, 0x7F), (F.SHP_TURN_INTERVAL 5 1 1, 200000), (F.SHP_TLCTL_EN 5, 1)]
    let t := s.tlSwap 5
    (t.shpOf 5).swit = some (5000123500000, 1) ∧ t.get (F.SHP_TLSTARTNS_NS 5) = 123500000 := by decide

/-- R277: spec/13 "a CBS class": 12,160 ns at an idle slope of 200,000 kb/s earn 2,432 bits; 8,160 ns of sending leave -4,096. -/
theorem test_example_credit : creditRest false false 200000 (12160 * 65536) 0 = 2432 * 65536
    ∧ creditSend 200000 1000000 (8160 * 65536) (2432 * 65536) = -4096 * 65536 := by decide

/-- A frame of the node of spec/08's worked example: reference time, D, TC. -/
def driftAttr (ref : Nat) (d tc : Int) : Attr :=
  { wid := 0, lis := 0, tile := 1, stamp := 0, asn := 0, d := d, tc := tc, sample := true, ref := ref, mlc := none, fofs := 11754, fosat := false,
    snr := 72, freq := 918200, rssi := 0, incr := 0x4000035EF, psdu := [] }

/-- MNODE as that example sets it, after report 1. -/
def drift1 : State :=
  ((up.sets [(F.MNODE_DRIFTCFG_MINSPAN, 30), (F.MNODE_DRIFTCFG_CFO, 1), (F.MNODE_TBL0LO_ADDR, 0x10000000),
    (F.MNODE_TBL1LO_ADDR, 0x11000000)]).driftFirst 3 (driftAttr 500000000000000 38460 38)).driftSample 3 0 (driftAttr 500000000000000 38460 38)

/-- R183, R185: the provisional DRIFT is 11,997 ppb and the anchor 460. -/
theorem test_example_drift_first : sgn 24 (drift1.recF 3 7 0 24) = 11997 ∧ sgn 32 (drift1.recW 3 10) = 460 := by decide

/-- R185: the duplicate of report 2 undoes and carries: ANCREF -241,540; report 3 gives DRIFT 12,000. -/
theorem test_example_drift :
    let a := (drift1.driftSample 3 0 (driftAttr 500020000000000 240460 240)).driftSample 3 1 (driftAttr 500020100000000 241660 242)
    let b := a.driftSample 3 0 (driftAttr 500040000000000 238460 238)
    sgn 32 (a.recW 3 10) = -241540 ∧ sgn 24 (b.recF 3 7 0 24) = 12000 ∧ sgn 32 (b.recW 3 10) = 460 := by decide

/-- The downlink of spec/12 "a fragmented downlink along a source route" after SRHINS: outer IPv6, routing header, inner IPv6, UDP and 600
octets. -/
def srhPkt : List Byte :=
  let mac := fun (k : Nat) => toBE 8 0x20010DB800000000 ++ toBE 8 (xorN k (2 ^ 57))
  toBE 4 0x60000000 ++ toBE 2 672 ++ [43, 64] ++ mac 1 ++ mac 2
    ++ [41, 2, 3, 2, 0x88, 0, 0, 0] ++ toBE 16 0x50000000000000006
    ++ toBE 4 0x60000000 ++ toBE 2 608 ++ [17, 64] ++ toBE 16 (0x20010DB9 * 2 ^ 96 + 9) ++ mac 7
    ++ toBE 2 5683 ++ toBE 2 5684 ++ toBE 2 608 ++ [0x12, 0x34] ++ List.replicate 600 0

/-- R266, R268: its headers compress from 112 octets to 60, and at an MTU of 250 the three fragments cover 296, 240 and 176 octets. -/
theorem test_example_downlink :
    let m : Mac154 := { (default : Mac154) with srcMode := 2, src := 1, dstMode := 2, dst := 2 }
    let c := iphcSeal [(0, toBE 16 (0x20010DB8 * 2 ^ 96), 64)] m srhPkt
    c.1.length = 60 ∧ c.2 = 112 ∧ srhPkt.length = 712 ∧ frag0 250 60 112 = 296 ∧ fragN 250 = 240 ∧ fragCount 250 60 112 712 = 3 := by decide

/-- The check values of the two check sequences over the octets of 1 to 9 in ASCII: of IEEE 802.3 and of IEEE 802.15.4 (R352). -/
theorem test_check_values : crc32 [49, 50, 51, 52, 53, 54, 55, 56, 57] = 0xCBF43926
    ∧ crc16 [49, 50, 51, 52, 53, 54, 55, 56, 57] = 0x2189 := by decide

/-! Witnesses -/

/-- Every clause of StepRunsFrontCommand with hypotheses is met. -/
theorem witness_StepRunsFrontCommand :
    (let s : State := { up with pending := [.railFault, .tapReset] }; s.pending = .railFault :: [.tapReset]) ∧
    (up.pending = []) :=
  ⟨by decide,
   by decide⟩

/-- Every clause of StepKeepsWellFormed with hypotheses is met. -/
theorem witness_StepKeepsWellFormed :
    (up.wf = true) :=
  by decide

/-- Every clause of CommandsLeaveTheQueue with hypotheses is met. -/
theorem witness_CommandsLeaveTheQueue :
    (up.wf = true) :=
  by decide

/-- Every clause of ReservedOffsets with hypotheses is met. -/
theorem witness_ReservedOffsets :
    (∃ (s : State) (rq : Rq) (w : Nat) (off : Nat), winOk w = true ∧ ((0x34 ≤ off ∧ off < 0x40 ∧ s.live = true) ∨ (0x40 ≤ off
      ∧ s.winOn w = true)) ∧ off % 4 = 0 ∧ off < 65536 ∧ regAt w off = none) ∧
    (∃ (s : State) (rq : Rq) (w : Nat) (off : Nat) (v : Word), winOk w = true ∧ ((0x34 ≤ off ∧ off < 0x40
      ∧ s.live = true) ∨ (0x40 ≤ off ∧ s.winOn w = true)) ∧ off % 4 = 0 ∧ off < 65536 ∧ regAt w off = none) :=
  ⟨⟨up, { cls := 0, num := 3 }, 0x52, 0xFFFC, by decide⟩,
   ⟨up, { cls := 0, num := 3 }, 0x52, 0xFFFC, 0xFFFFFFFF#32, by decide⟩⟩

/-- Every clause of HandshakeStallStops with hypotheses is met. -/
theorem witness_HandshakeStallStops :
    (∃ (s : State) (n : Nat), s.live = true ∧ n < 256) :=
  ⟨up, 0x28, by decide⟩

/-- Every clause of EngineEbreak with hypotheses is met. -/
theorem witness_EngineEbreak :
    (∃ (s : State) (e : Nat) (w : Nat) (x : Wagon), e < 48 ∧ s.live = true ∧ s.running e = some (w, x) ∧ (s.hart (8 + e)).ebreakm = true) ∧
    (let s : State := { up with yard := { up.yard with wagons := [(5, { wagon0 with st := 4 })], engs := [(47, { eng0 with wag := some 5 })] } }; s.live = true
      ∧ s.running 47 = some (5, { wagon0 with st := 4 }) ∧ (s.hart 55).ebreakm = false) :=
  ⟨⟨{ up with yard := { up.yard with wagons := [(5, { wagon0 with st := 4 })], engs := [(47, { eng0 with wag := some 5 })] }, dbg := { up.dbg with harts := [(55, { hart0 with ebreakm := true })] } }, 47, 5, { wagon0 with st := 4 }, by decide⟩,
   by decide⟩

/-- Every clause of SupplyPathTable with hypotheses is met. -/
theorem witness_SupplyPathTable :
    (∃ (s : State), s.env.path = .onMains ∧ s.backupOk = true) ∧
    (∃ (s : State), s.env.path = .onMains ∧ s.backupOk = false ∧ s.env.phase ≠ .boot) ∧
    (∃ (s : State), (s.env.path = .bridging ∨ s.env.path = .onBackup)) ∧
    (∃ (s : State), s.env.path = .bridging) ∧
    (∃ (s : State) (v : Nat), s.env.path = .bridging ∧ v < 4096) ∧
    (∃ (s : State) (v : Nat), s.env.path = .onBackup ∧ s.mainsOk = false ∧ s.env.phase ≠ .boot ∧ v < 4096) ∧
    (∃ (s : State), s.env.path = .bridging) :=
  ⟨⟨State.reset.set F.PINS_SUPPLY_BACKUP_OK 1, by decide⟩,
   ⟨up, by decide⟩,
   ⟨up.supTo .bridging, by decide⟩,
   ⟨up.supTo .bridging, by decide⟩,
   ⟨up.supTo .bridging, 4095, by decide⟩,
   ⟨(up.set F.PINS_SUPPLY_MAINS_OK 0).supTo .onBackup, 4095, by decide⟩,
   ⟨up.supTo .bridging, by decide⟩⟩

/-- Every clause of ThermalThresholds with hypotheses is met. -/
theorem witness_ThermalThresholds :
    (∃ (s : State) (x : Int), s.live = true ∧ 704 ≤ x ∧ x ≤ 2047 ∧ s.on F.PINS_BASETEMP_WARN = false) ∧
    (∃ (s : State) (x : Int), s.live = true ∧ -2048 ≤ x ∧ x < 664) ∧
    (∃ (s : State) (x : Int), s.env.phase = .software ∧ 760 ≤ x ∧ x ≤ 2047 ∧ s.on F.PINS_BASETEMP_HOLD = false ∧ s.dev = 0
      ∧ s.pwr.change = none) ∧
    (∃ (s : State) (x : Int), s.live = true ∧ -2048 ≤ x ∧ x < 680 ∧ s.on F.PINS_BASETEMP_HOLD = true) ∧
    (∃ (s : State) (x : Int), s.env.phase ≠ .off ∧ 840 ≤ x ∧ x ≤ 2047) ∧
    (∃ (s : State) (x : Int), s.env.cut = true ∧ s.env.phase = .off ∧ -2048 ≤ x ∧ x < 600 ∧ s.mainsOk = true) :=
  ⟨⟨up, 704, by decide⟩,
   ⟨up.set F.PINS_BASETEMP_WARN 1, 663, by decide⟩,
   ⟨up, 760, by decide⟩,
   ⟨up.set F.PINS_BASETEMP_HOLD 1, 679, by decide⟩,
   ⟨up, 840, by decide⟩,
   ⟨(up.dieOff .off 0).supTo .off |> fun s => { s with env := { s.env with cut := true } }, 599, by decide⟩⟩

/-- Every clause of ResetAndStart with hypotheses is met. -/
theorem witness_ResetAndStart :
    (∃ (s : State), s.env.phase ≠ .off) ∧
    (∃ (s : State), s.env.phase = .inReset) ∧
    (∃ (s : State), s.env.timer = true ∧ s.env.phase = .software ∧ s.dev = 0 ∧ s.pwr.change = none) ∧
    (∃ (s : State) (ms : Nat), s.env.phase = .boot ∧ (s.hart 0).halted = false) :=
  ⟨⟨up, by decide⟩,
   ⟨up.nresetLow, by decide⟩,
   ⟨up.supTo .bridging, by decide⟩,
   ⟨State.reset, 150, by decide⟩⟩

/-- Every clause of RegisterAccess with hypotheses is met. -/
theorem witness_RegisterAccess :
    (∃ (s : State) (rq : Rq) (w : Nat) (v : Word), s.live = true ∧ winOk w = true ∧ (rq.cls = 2 → s.dbgLevel = 2)) ∧
    (∃ (s : State) (rq : Rq) (w : Nat) (off : Nat) (v : Word), s.live = true ∧ winOk w = true ∧ (rq.cls = 2 → s.dbgLevel = 2)
      ∧ (off = 0x34 ∨ off = 0x38 ∨ off = 0x3C)) ∧
    (∃ (s : State) (rq : Rq) (n : Nat), s.winOn W.MPHY = true ∧ n < 13 ∧ (rq.cls = 2 → s.dbgLevel = 2)) :=
  ⟨⟨up, { cls := 0, num := 3 }, 0x52, 0xFFFFFFFF#32, by decide⟩,
   ⟨up, { cls := 0, num := 3 }, 0x28, 0x3C, 1#32, by decide⟩,
   ⟨up.set (mkF W.MPHY 0xF0 0 31 0) 5, { cls := 0, num := 3 }, 12, by decide⟩⟩

/-- Every clause of SubwordAndDark with hypotheses is met. -/
theorem witness_SubwordAndDark :
    (∃ (s : State) (rq : Rq) (w : Nat) (o : Nat) (n : Nat), s.live = true ∧ winOk w = true ∧ (rq.cls = 2 → s.dbgLevel = 2)
      ∧ (n = 1 ∨ n = 2) ∧ o + n ≤ 4 ∧ o % n = 0 ∧ s.on (F.ERRINFO_VALID w) = false) ∧
    (∃ (s : State) (rq : Rq) (w : Nat) (o : Nat) (n : Nat), s.live = true ∧ winOk w = true ∧ (rq.cls = 2 → s.dbgLevel = 2)
      ∧ (n = 1 ∨ n = 2) ∧ o + n ≤ 4 ∧ o % n = 0) ∧
    (∃ (s : State) (rq : Rq) (a : Nat) (wr : Bool), s.live = true ∧ rq.cls ≠ 1 ∧ rq.cls ≠ 2 ∧ s.darkAt rq a wr = some 1 ∧ a < 2 ^ 40
      ∧ s.on F.PWR_STATUS_DARKACC = false) ∧
    (∃ (s : State) (rq : Rq) (a : Nat) (wr : Bool), s.live = true ∧ rq.cls ≠ 1 ∧ rq.cls ≠ 2 ∧ s.darkAt rq a wr = some 0
      ∧ s.on F.PWR_STATUS_DARKACC = true) :=
  ⟨⟨up, { cls := 0, num := 3 }, 0x52, 3, 1, by decide⟩,
   ⟨up.set (F.EV_MASK 0x52) 0xABCD0000, { cls := 0, num := 3 }, 0x52, 2, 2, by decide⟩,
   ⟨up, { cls := 0, num := 3 }, 0xFFFFFFFFFF, true, by decide⟩,
   ⟨(up.setDom 6 0).set F.PWR_STATUS_DARKACC 1, { cls := 0, num := 3 }, 0x401F0040, true, by decide⟩⟩

/-- Every clause of LockEventsEnable with hypotheses is met. -/
theorem witness_LockEventsEnable :
    (∃ (s : State) (rq : Rq) (w : Nat) (v : Word), s.live = true ∧ winOk w = true ∧ (rq.cls = 2 → s.dbgLevel = 2)) ∧
    (∃ (s : State) (rq : Rq) (w : Nat) (v : Word), s.live = true ∧ winOk w = true ∧ (rq.cls = 2 → s.dbgLevel = 2)) ∧
    (∃ (s : State) (rq : Rq) (w : Nat) (v : Word), s.live = true ∧ (rq.cls = 2 → s.dbgLevel = 2)
      ∧ (w = W.SYS ∨ w = W.LIM ∨ w = W.PINS ∨ w = W.NVS ∨ w = W.TIME) ∧ v.toNat / 2 % 2 = 0 ∧ v.toNat / 4 % 4 ≠ 3) ∧
    (∃ (s : State) (rq : Rq) (v : Word), s.live = true ∧ (rq.cls = 2 → s.dbgLevel = 2) ∧ s.domSt 6 = 3
      ∧ v.toNat % 4 = s.get (F.CTRL_ENABLE W.MLD) ∧ s.get (F.CTRL_ENABLE W.MLD) < 2 ∧ v.toNat / 4 % 4 ≠ 3) ∧
    (∃ (s : State) (rq : Rq) (w : Nat) (v : Word), s.live = true ∧ winOk w = true ∧ (rq.cls = 2 → s.dbgLevel = 2)
      ∧ v.toNat = 12 + s.get (F.CTRL_ENABLE w) ∧ s.get (F.CTRL_ENABLE w) < 2 ∧ s.on (F.ERRINFO_VALID w) = false) :=
  ⟨⟨up.set (F.LOCK_HALF 0x20) 1, { cls := 0, num := 3 }, 0x20, 0x5A#32, by decide⟩,
   ⟨up, { cls := 0, num := 3 }, 0x15, 0xFFFFFFFF#32, by decide⟩,
   ⟨up, { cls := 0, num := 3 }, W.LIM, 1#32, by decide⟩,
   ⟨up.setDom 6 3, { cls := 0, num := 3 }, 8#32, by decide⟩,
   ⟨up, { cls := 0, num := 3 }, 0x1F, 12#32, by decide⟩⟩

/-- Every clause of MultiwordRegisters with hypotheses is met. -/
theorem witness_MultiwordRegisters :
    (∃ (s : State) (rq : Rq) (k : Nat), s.winOn W.PWR = true ∧ k < 12 ∧ (rq.cls = 2 → s.dbgLevel = 2)) ∧
    (∃ (s : State) (rq : Rq) (k : Nat) (v : Word), s.winOn W.PWR = true ∧ k < 12 ∧ s.pwr.res.length = 12 ∧ (rq.cls = 2 → s.dbgLevel = 2)) :=
  ⟨⟨up, { cls := 0, num := 3 }, 11, by decide⟩,
   ⟨up, { cls := 0, num := 3 }, 11, 3#32, by decide⟩⟩

/-- Every clause of SresetOfABlock with hypotheses is met. -/
theorem witness_SresetOfABlock :
    (∃ (s : State) (rq : Rq) (w : Nat), s.live = true ∧ winOk w = true ∧ s.domSt (winDom w) ≠ 2 ∧ s.on (F.ERRINFO_VALID w) = false) ∧
    (∃ (s : State) (rq : Rq) (w : Nat), w ∈ [W.SYS, W.NVS, W.LIM, 0x08, 0x09, 0x0A, 0x0B, W.APC, W.PINS] ∧ s.winOn w = true) :=
  ⟨⟨up.setDom 6 3, { cls := 0, num := 3 }, 0x1F, by decide⟩,
   ⟨up.set (F.OPSTAT_STATE 0x08) 2, { cls := 0, num := 3 }, 0x08, by decide⟩⟩

/-- Every clause of Operations with hypotheses is met. -/
theorem witness_Operations :
    (∃ (s : State) (rq : Rq) (w : Nat) (n : Nat), s.live = true ∧ winOk w = true ∧ (rq.cls = 2 → s.dbgLevel = 2)
      ∧ n ≤ s.get (F.OPSTAT_PROGRESS w)) ∧
    (∃ (s : State) (rq : Rq) (w : Nat) (n : Nat), w ∈ [W.NVS, 0x08, 0x09, 0x0A, 0x0B, W.MLC, W.MNODE, W.SEC] ∧ s.live = true
      ∧ (rq.cls = 2 → s.dbgLevel = 2) ∧ s.busy w = true ∧ n ≤ s.get (F.OPSTAT_PROGRESS w)) ∧
    (∃ (s : State) (w : Nat), s.winOn w = true ∧ w ≠ W.RTE ∧ s.opSt w = 1) ∧
    (∃ (s : State) (w : Nat) (e : Nat), s.winOn w = true ∧ s.opSt w = 2 ∧ 4 ≤ e ∧ e ≤ 15) ∧
    (∃ (s : State) (r : Nat), r < 4 ∧ s.winOn (W.RFE r) = true ∧ s.opSt (W.RFE r) = 2 ∧ s.get (F.RFE_OPSEL_OP r) = 2) :=
  ⟨⟨up.set (F.OPSTAT_STATE 0x08) 3, { cls := 0, num := 3 }, 0x08, 0, by decide⟩,
   ⟨up.set (F.OPSTAT_STATE 0x08) 2, { cls := 0, num := 3 }, 0x08, 0, by decide⟩,
   ⟨up.set (F.OPSTAT_STATE 0x10) 1, 0x10, by decide⟩,
   ⟨up.set (F.OPSTAT_STATE 0x10) 2, 0x10, 15, by decide⟩,
   ⟨(up.set (F.OPSTAT_STATE 0x13) 2).set (F.RFE_OPSEL_OP 3) 2, 3, by decide⟩⟩

/-- Every clause of DomainTransitions with hypotheses is met. -/
theorem witness_DomainTransitions :
    (∃ (s : State) (d : Nat), s.live = true ∧ (d = 2 ∨ d = 6) ∧ s.domSt d = 5 ∧ s.domGoal d = 0) ∧
    (∃ (s : State) (d : Nat), s.live = true ∧ (d = 2 ∨ d = 6) ∧ s.domSt d = 4 ∧ s.domGoal d = 1) ∧
    (∃ (s : State) (d : Nat), s.live = true ∧ d = 6 ∧ s.domSt d = 1 ∧ s.domGoal d = 2) ∧
    (∃ (s : State) (c : Nat), c < 6 ∧ s.drain.contains c = true ∧ s.domSt (8 + c) = 2) :=
  ⟨⟨(up.setDom 6 5).set (F.CTRL_DOMREQ 0x1F) 2, 6, by decide⟩,
   ⟨(up.setDom 6 4).set (F.CTRL_DOMREQ 0x1F) 1, 6, by decide⟩,
   ⟨up.setDom 6 1, 6, by decide⟩,
   ⟨{ up with drain := [5] }, 5, by decide⟩⟩

/-- Every clause of TickAndSlew with hypotheses is met. -/
theorem witness_TickAndSlew :
    (∃ (s : State), s.live = true ∧ s.tm.tick = .run ∧ s.tm.pend = [] ∧ s.tm.slew = 0) ∧
    (∃ (s : State) (rq : Rq) (v : Word), s.winOn W.TIME = true ∧ (rq.cls = 2 → s.dbgLevel = 2)) ∧
    (∃ (s : State), s.tm.slewing = true ∧ s.tm.slew = 0) ∧
    (∃ (s : State) (rq : Rq) (v : Word), s.winOn W.TIME = true ∧ (rq.cls = 2 → s.dbgLevel = 2) ∧ s.anyTile = false ∧ 0 ≤ sgn 32 v.toNat) ∧
    (∃ (s : State) (rq : Rq) (v : Word), s.winOn W.TIME = true ∧ (rq.cls = 2 → s.dbgLevel = 2) ∧ s.anyTile = true
      ∧ s.stepMax < (sgn 32 v.toNat).natAbs) ∧
    (∃ (s : State), s.tm.ppsOut = true ∧ s.tm.ppsEnd ≤ s.tm.mono) :=
  ⟨⟨up, by decide⟩,
   ⟨up, { cls := 0, num := 3 }, 0xFFFFFFFF#32, by decide⟩,
   ⟨{ up with tm := { up.tm with slewing := true } }, by decide⟩,
   ⟨up, { cls := 0, num := 3 }, 0x7FFFFFFF#32, by decide⟩,
   ⟨up.set (F.MLC_TILE_CTL_EN 7) 1, { cls := 0, num := 3 }, 10001#32, by decide⟩,
   ⟨{ up with tm := { up.tm with ppsOut := true } }, by decide⟩⟩

/-- Every clause of ReferenceAndCapture with hypotheses is met. -/
theorem witness_ReferenceAndCapture :
    (∃ (s : State) (a : Nat) (b : Nat), s.winOn W.TIME = true ∧ a ≠ 0 ∧ b ≠ 0 ∧ s.on F.TIME_REFCTL_SEL = false
      ∧ s.on F.TIME_REFCTL_ACTIVE = false) ∧
    (∃ (s : State) (a : Nat) (b : Nat), s.winOn W.TIME = true ∧ a ≠ 0 ∧ b ≠ 0 ∧ s.on F.TIME_REFCTL_SEL = true
      ∧ s.on F.TIME_REFCTL_ACTIVE = false ∧ s.tm.tick = .run) ∧
    (∃ (s : State), s.on F.TIME_REFCTL_EXTVALID = true) ∧
    (∃ (s : State), s.winOn W.TIME = true ∧ s.tm.tick ≠ .stopped ∧ s.get F.TIME_SYNCCFG_SRC ≠ 3) ∧
    (∃ (s : State), s.live = true ∧ s.tm.tick ≠ .stopped) :=
  ⟨⟨up, 1000001, 1000000, by decide⟩,
   ⟨up.set F.TIME_REFCTL_SEL 1, 1000001, 1000000, by decide⟩,
   ⟨up.set F.TIME_REFCTL_EXTVALID 1, by decide⟩,
   ⟨up, by decide⟩,
   ⟨up, by decide⟩⟩

/-- Every clause of SyncStates with hypotheses is met. -/
theorem witness_SyncStates :
    (∃ (s : State) (rq : Rq) (v : Word), s.winOn W.TIME = true ∧ (rq.cls = 2 → s.dbgLevel = 2) ∧ s.get F.TIME_SYNCCFG_SRC = 1
      ∧ s.on F.TIME_SYNCCFG_SERVO = false ∧ s.trails = false ∧ s.get F.TIME_STATE_STATE = 0) ∧
    (∃ (s : State) (rq : Rq) (v : Word), s.winOn W.TIME = true ∧ (rq.cls = 2 → s.dbgLevel = 2) ∧ s.get F.TIME_SYNCCFG_SRC ≠ 1) ∧
    (∃ (s : State) (rq : Rq) (v : Word), s.winOn W.TIME = true ∧ (rq.cls = 2 → s.dbgLevel = 2) ∧ v.toNat % 4 = 0
      ∧ s.get F.TIME_STATE_STATE ≠ 0) ∧
    (∃ (s : State), s.syncIvl ≤ s.tm.elapsed ∧ s.tm.meas = false ∧ s.trails = false ∧ s.get F.TIME_STATE_STATE = 2
      ∧ s.get F.TIME_STATE_MISSES = 2) ∧
    (∃ (s : State), s.syncIvl ≤ s.tm.elapsed ∧ s.tm.meas = true) :=
  ⟨⟨(up.set F.TIME_SYNCCFG_SRC 1).set F.TIME_SYNCCFG_SERVO 0, { cls := 0, num := 3 }, 0x80000000#32, by decide⟩,
   ⟨up, { cls := 0, num := 3 }, 5#32, by decide⟩,
   ⟨(up.set F.TIME_SYNCCFG_SRC 1).set F.TIME_STATE_STATE 2, { cls := 0, num := 3 }, 0#32, by decide⟩,
   ⟨(({ up with tm := { up.tm with elapsed := 1000000000 } }).set F.TIME_STATE_STATE 2).set F.TIME_STATE_MISSES 2, by decide⟩,
   ⟨{ up with tm := { up.tm with elapsed := 1000000000, meas := true } }, by decide⟩⟩

/-- Every clause of PathStates with hypotheses is met. -/
theorem witness_PathStates :
    (∃ (s : State) (r : Nat) (p : Nat) (f : Nat) (wd : Nat), s.enabled (W.RFE r) = true ∧ s.pst r p = 2 ∧ (s.path r p).nxt = none
      ∧ (¬(r = 3 ∧ p = 1)) ∧ s.calFind r p f wd ≠ none) ∧
    (∃ (s : State) (r : Nat) (p : Nat), s.pst r p = 3 ∧ (¬(r = 3 ∧ p = 0)) ∧ s.get (F.RFE_PATHCFG_AFTERRX r p) = 1) ∧
    (∃ (s : State) (r : Nat) (p : Nat), s.pst r p = 3 ∧ r = 3 ∧ p = 0) ∧
    (∃ (s : State) (r : Nat) (p : Nat), (s.pst r p = 2 ∨ s.pst r p = 3 ∨ s.pst r p = 4)) ∧
    (∃ (s : State) (r : Nat) (p : Nat) (st : Nat), (s.path r p).nxt = some st ∧ r = 3 ∧ p < 2 ∧ st ≤ 4) ∧
    (∃ (s : State) (r : Nat) (p : Nat), s.on (F.RFE_PATHSTAT_TUNING r p) = true ∧ (¬(r = 3 ∧ p = 0))) :=
  ⟨⟨((up.set (F.CTRL_ENABLE 0x13) 1).set (F.RFE_PATHSTAT_STATE 3 0) 2).setCalW 3 5 0 (868300 + 2 ^ 26), 3, 0, 868300, 0, by decide⟩,
   ⟨(up.set (F.RFE_PATHSTAT_STATE 3 2) 3).set (F.RFE_PATHCFG_AFTERRX 3 2) 1, 3, 2, by decide⟩,
   ⟨up.set (F.RFE_PATHSTAT_STATE 3 0) 3, 3, 0, by decide⟩,
   ⟨up.set (F.RFE_PATHSTAT_STATE 3 1) 4, 3, 1, by decide⟩,
   ⟨up.setPath 3 0 { pathIdle with nxt := some 3, goal := 3 }, 3, 0, 3, by decide⟩,
   ⟨up.set (F.RFE_PATHSTAT_TUNING 1 0) 1, 1, 0, by decide⟩⟩

/-- Every clause of TransmitCommands with hypotheses is met. -/
theorem witness_TransmitCommands :
    (∃ (s : State) (r : Nat) (p : Nat) (c : TxCmd), (s.pst r p = 0 ∨ s.pst r p = 5) ∧ s.get (F.RFE_CNT0_BUSY r) < 32766) ∧
    (∃ (s : State) (r : Nat) (p : Nat) (c : TxCmd), s.enabled (W.RFE r) = true ∧ 1 ≤ s.pst r p ∧ s.pst r p ≤ 4
      ∧ (s.path r p).nxt ≠ some 0 ∧ s.calFind r p c.freq c.width = none) ∧
    (∃ (s : State) (r : Nat) (p : Nat) (c : TxCmd), (s.txCheck r p c).1 = 0) ∧
    (∃ (s : State) (r : Nat) (p : Nat) (i : Nat) (c : TxCmd), r = 3 ∧ (s.path r p).txs = [c] ∧ c.id = i ∧ s.pst r p = 4
      ∧ s.get (F.RFE_PATHCFG_AFTERTX r p) = 1 ∧ s.on (F.RFE_CANCCFG_EN 3) = false ∧ s.mphy.active = []) ∧
    (∃ (s : State) (r : Nat) (q : Nat) (e : Int), (portPath q).1 = r ∧ e ≤ 0) ∧
    (∃ (s : State) (r : Nat) (q : Nat) (e : Int), (portPath q).1 = r ∧ r < 4 ∧ q < 24 ∧ 0 < e
      ∧ e < (match s.lim.img with | some g => g.cut.getD 12 | none => 12) ∧ e < 2 ^ 15) ∧
    (∃ (s : State) (r : Nat) (q : Nat) (e : Int), (portPath q).1 = r ∧ r < 4 ∧ q < 24 ∧ 0 < e
      ∧ (match s.lim.img with | some g => g.cut.getD 12 | none => 12) ≤ e ∧ e < 2 ^ 15) :=
  ⟨⟨up, 3, 1, { id := 7, port := 21, freq := 868300, bw := 200, width := 0, timed := true, at' := 5000000, dur := 4000000, act := 1 },
      by decide⟩,
   ⟨(up.set (F.CTRL_ENABLE 0x13) 1).set (F.RFE_PATHSTAT_STATE 3 1) 2, 3,
      1, { id := 7, port := 21, freq := 868300, bw := 200, width := 0, timed := true, at' := 5000000, dur := 4000000, act := 1 },
      by decide⟩,
   ⟨((up.set (F.CTRL_ENABLE 0x13) 1).set (F.RFE_PATHSTAT_STATE 3 1) 2).setCalW 3 5 0 (868300 + 2 ^ 24 + 2 ^ 26),
      3, 1, { id := 7, port := 21, freq := 868300, bw := 200, width := 0, timed := true, at' := 5000000, dur := 4000000, act := 1 },
      by decide⟩,
   ⟨(((up.set (F.RFE_CANCCFG_EN 3) 0).set (F.RFE_PATHSTAT_STATE 3 1) 4).setPath 3 1 { pathIdle with txs := [{ id := 7, port := 21, freq := 868300, bw := 200, width := 0, timed := true, at' := 5000000, dur := 4000000, act := 1 }] }).set (F.RFE_PATHCFG_AFTERTX 3 1) 1, 3, 1, 7, { id := 7, port := 21, freq := 868300, bw := 200, width := 0, timed := true, at' := 5000000, dur := 4000000, act := 1 }, by decide⟩,
   ⟨up, 3, 20, 0, by decide⟩,
   ⟨up, 3, 21, 11, by decide⟩,
   ⟨{ up with mphy := { up.mphy with active := [{ id := 7, tile := 0, port := 21, freq := 868300, mode := 0, power := 0, at' := 0, dur := 1000000, act := 0, cls := 0, psdu := [], wag := none }] } }, 3, 21, 12, by decide⟩⟩

/-- Every clause of CalibrationOperations with hypotheses is met. -/
theorem witness_CalibrationOperations :
    (∃ (s : State) (rq : Rq) (r : Nat), s.winOn (W.RFE r) = true ∧ s.busy (W.RFE r) = false ∧ s.get (F.RFE_OPSEL_OP r) = 0
      ∧ s.opRange r = true ∧ s.pst r (s.get (F.RFE_OPSEL_PATH r)) = 0) ∧
    (∃ (s : State) (rq : Rq) (r : Nat), r < 3 ∧ s.winOn (W.RFE r) = true ∧ s.busy (W.RFE r) = false ∧ s.get (F.RFE_OPSEL_OP r) = 0
      ∧ s.opRange r = true ∧ 1 ≤ s.pst r (s.get (F.RFE_OPSEL_PATH r)) ∧ (s.path r (s.get (F.RFE_OPSEL_PATH r))).fg = true) ∧
    (∃ (s : State) (r : Nat) (m : CalMeas), r < 3 ∧ s.opSt (W.RFE r) = 2 ∧ s.get (F.RFE_OPSEL_OP r) = 0
      ∧ s.get (F.OPSTAT_PROGRESS (W.RFE r)) + 1 = s.opCount r ∧ s.calFree r (s.get (F.RFE_OPSEL_PATH r)) = true ∧ m.result = 0) ∧
    (∃ (s : State) (rq : Rq) (r : Nat), s.winOn (W.RFE r) = true ∧ s.busy (W.RFE r) = false ∧ s.get (F.RFE_OPSEL_OP r) = 1
      ∧ s.opRange r = true ∧ s.survOk r = true ∧ s.get (F.RFE_SURVEY_DWELL r) < 10) ∧
    (∃ (s : State) (rq : Rq) (r : Nat), s.winOn (W.RFE r) = true ∧ s.busy (W.RFE r) = false ∧ s.get (F.RFE_OPSEL_OP r) = 1
      ∧ s.opRange r = true ∧ s.survOk r = true ∧ 10 ≤ s.get (F.RFE_SURVEY_DWELL r) ∧ r < 3 ∧ 1 ≤ s.pst r 0 ∧ s.ram.ue = []
      ∧ s.get (F.RFE_SURVADDR_ADDR r) + 4 * s.opCount r ≤ 0x13500000) ∧
    (∃ (s : State) (r : Nat) (e : Nat), s.opSt (W.RFE r) = 2 ∧ s.get (F.RFE_OPSEL_OP r) = 1 ∧ kget s.rfe.surv r = some (0, 0)
      ∧ 2 ≤ s.opCount r ∧ s.get (F.RFE_SURVADDR_ADDR r) = 0x13000000) ∧
    (∃ (s : State) (r : Nat) (e : Nat), r < 4 ∧ s.opSt (W.RFE r) = 2 ∧ s.get (F.RFE_OPSEL_OP r) = 1 ∧ kget s.rfe.surv r = some (0, 0)
      ∧ 2 ≤ s.opCount r ∧ s.get (F.RFE_SURVADDR_ADDR r) = 0x13000000 ∧ s.get (F.OPSTAT_PROGRESS (W.RFE r)) < 2 ^ 23) ∧
    (∃ (s : State) (rq : Rq) (r : Nat), r < 3 ∧ s.winOn (W.RFE r) = true ∧ s.busy (W.RFE r) = false ∧ s.get (F.RFE_OPSEL_OP r) = 2
      ∧ s.get (F.RFE_OPSEL_PATH r) = 0 ∧ s.pst r 0 = 1 ∧ s.wl.tx = []) ∧
    (∃ (s : State) (r : Nat), r < 4 ∧ s.opSt (W.RFE r) = 2 ∧ s.get (F.RFE_OPSEL_OP r) = 2 ∧ s.get (F.RFE_OPSEL_PATH r) < 3) :=
  ⟨⟨up.set (F.RFE_OPSEL_COUNT 3) 1, { cls := 0, num := 3 }, 3, by decide⟩,
   ⟨((up.set (F.RFE_OPSEL_COUNT 1) 1).set (F.RFE_PATHSTAT_STATE 1 0) 2).setPath 1 0 { pathIdle with fg := true },
      { cls := 0, num := 3 }, 1, by decide⟩,
   ⟨((up.set (F.RFE_OPSEL_COUNT 1) 1).set (F.OPSTAT_STATE 0x11) 2).set (F.RFE_PATHSTAT_STATE 1 0) 2,
      1, { result := 0, gain := 5, presel := 6, txpwr := 7, dpdset := 8 }, by decide⟩,
   ⟨((up.set (F.RFE_OPSEL_COUNT 1) 1).set (F.RFE_OPSEL_OP 1) 1).set (F.RFE_SURVEY_DWELL 1) 9, { cls := 0, num := 3 }, 1, by decide⟩,
   ⟨((up.set (F.RFE_OPSEL_COUNT 1) 1).set (F.RFE_OPSEL_OP 1) 1).set (F.RFE_PATHSTAT_STATE 1 0) 2, { cls := 0, num := 3 }, 1, by decide⟩,
   ⟨{ ((up.set (F.RFE_OPSEL_COUNT 1) 3).set (F.RFE_OPSEL_OP 1) 1).set (F.OPSTAT_STATE 0x11) 2 with rfe := { up.rfe with surv := [(1, (0, 0))] } }, 1, 5, by decide⟩,
   ⟨{ (((up.set (F.RFE_OPSEL_COUNT 1) 3).set (F.RFE_OPSEL_OP 1) 1).set (F.OPSTAT_STATE 0x11) 2).set (F.RFE_SURVADDR_ADDR 1) 0x13000000 with rfe := { up.rfe with surv := [(1, (0, 0))] } }, 1, 0xFF38, by decide⟩,
   ⟨(up.set (F.RFE_OPSEL_OP 1) 2).set (F.RFE_PATHSTAT_STATE 1 0) 1, { cls := 0, num := 3 }, 1, by decide⟩,
   ⟨(up.set (F.RFE_OPSEL_OP 1) 2).set (F.OPSTAT_STATE 0x11) 2, 1, by decide⟩⟩

/-- Every clause of CalibrationUpkeep with hypotheses is met. -/
theorem witness_CalibrationUpkeep :
    (∃ (s : State) (r : Nat) (i : Nat) (m : CalMeas), s.on (F.RFE_BGCAL_EN r) = true ∧ calValid (s.calW r i 0) = true
      ∧ calStale (s.calW r i 0) = true ∧ s.pst r (calPath (s.calW r i 0)) = 2 ∧ s.calFree r (calPath (s.calW r i 0)) = true
      ∧ m.result = 0 ∧ r < 4 ∧ i < 256) ∧
    (∃ (s : State) (r : Nat) (i : Nat), calValid (s.calW r i 0) = true ∧ calStale (s.calW r i 0) = false
      ∧ 8 * clampN 1 20 (s.get (F.RFE_BGCAL_TEMPSTEP r)) < (s.getI F.PINS_BASETEMP_TEMP - sgn 12 (s.calW r i 3)).natAbs) ∧
    (∃ (s : State) (rq : Rq) (v : Word), s.winOn (W.RFE 3) = true ∧ (rq.cls = 2 → s.dbgLevel = 2) ∧ v.toNat / 4 % 2 = 1
      ∧ v.toNat / 8 % 2 = 0) ∧
    (∃ (s : State) (rq : Rq) (v : Word), s.winOn (W.RFE 3) = true ∧ (rq.cls = 2 → s.dbgLevel = 2) ∧ v.toNat / 4 % 2 = 0
      ∧ v.toNat / 8 % 2 = 1) :=
  ⟨⟨(up.set (F.RFE_PATHSTAT_STATE 1 0) 2).setCalW 1 63 0 (5180000 + 2 ^ 26 + 2 ^ 27),
      1, 63, { result := 0, gain := 5, presel := 6, txpwr := 7, dpdset := 8 }, by decide⟩,
   ⟨(up.setCalW 1 63 0 (5180000 + 2 ^ 26)).set F.PINS_BASETEMP_TEMP 200, 1, 63, by decide⟩,
   ⟨up.set (F.RFE_CANCSTAT_CONV 3 2) 1, { cls := 0, num := 3 }, 0x3705#32, by decide⟩,
   ⟨{ up with rfe := { up.rfe with taps := [(3, 9)] } }, { cls := 0, num := 3 }, 0x3709#32, by decide⟩⟩

/-- Every clause of CoexistenceWires with hypotheses is met. -/
theorem witness_CoexistenceWires :
    (∃ (s : State) (pr : Bool), s.coexOn = true ∧ s.rfe.coex.hold = none) ∧
    (∃ (s : State) (pr : Bool) (n : Nat), s.coexOn = true ∧ s.rfe.coex.hold = some n ∧ n < s.coexExt pr ∧ s.coexOnAir = true) ∧
    (∃ (s : State) (pr : Bool), s.coexOn = false) ∧
    (∃ (s : State), s.coexOn = true ∧ s.rfe.coex.reqIn = true) ∧
    (∃ (s : State) (r : Nat) (p : Nat) (i : Nat) (q : Bool) (c : TxCmd), (s.path r p).txs = [c] ∧ c.id = i ∧ s.coexScope r p = true
      ∧ q = false ∧ s.rfe.coex.ending = false ∧ s.ns ≤ c.at') ∧
    (∃ (s : State) (r : Nat) (p : Nat) (i : Nat) (c : TxCmd), r = 3 ∧ (s.path r p).txs = [c] ∧ c.id = i ∧ s.coexScope r p = true
      ∧ s.ns ≤ c.at' ∧ s.mphy.waiting = [] ∧ s.mphy.active = []) :=
  ⟨⟨((up.set (F.RFE_COEXCFG_EN 3) 1).set (F.RFE_COEXCFG_SCOPE 3) 31).setPath 3 1 { pathIdle with txs := [{ id := 7, port := 21, freq := 868300, bw := 200, width := 0, timed := true, at' := 5000000, dur := 4000000, act := 1 }] }, true, by decide⟩,
   ⟨((((up.set (F.RFE_COEXCFG_EN 3) 1).set (F.RFE_COEXCFG_SCOPE 3) 31).setPath 3 1 { pathIdle with txs := [{ id := 7, port := 21, freq := 868300, bw := 200, width := 0, timed := true, at' := 5000000, dur := 4000000, act := 1 }] }).set (F.RFE_COEXCFG_PEXTHI 3) 7).setCoex { up.rfe.coex with hold := some 2 } |> fun s => { s with tm := { s.tm with tb := 2 ^ 56 } }, true, 2, by decide⟩,
   ⟨up, true, by decide⟩,
   ⟨(((up.set (F.RFE_COEXCFG_EN 3) 1).set (F.RFE_COEXCFG_SCOPE 3) 31).setPath 3 1 { pathIdle with txs := [{ id := 7, port := 21, freq := 868300, bw := 200, width := 0, timed := true, at' := 5000000, dur := 4000000, act := 1 }] }).setCoex { up.rfe.coex with reqIn := true }, by decide⟩,
   ⟨((up.set (F.RFE_COEXCFG_EN 3) 1).set (F.RFE_COEXCFG_SCOPE 3) 31).setPath 3 1 { pathIdle with txs := [{ id := 7, port := 21, freq := 868300, bw := 200, width := 0, timed := true, at' := 5000000, dur := 4000000, act := 1 }] }, 3, 1, 7, false, { id := 7, port := 21, freq := 868300, bw := 200, width := 0, timed := true, at' := 5000000, dur := 4000000, act := 1 }, by decide⟩,
   ⟨((up.set (F.RFE_COEXCFG_EN 3) 1).set (F.RFE_COEXCFG_SCOPE 3) 31).setPath 3 1 { pathIdle with txs := [{ id := 7, port := 21, freq := 868300, bw := 200, width := 0, timed := true, at' := 5000000, dur := 4000000, act := 1 }] }, 3, 1, 7, { id := 7, port := 21, freq := 868300, bw := 200, width := 0, timed := true, at' := 5000000, dur := 4000000, act := 1 }, by decide⟩⟩

/-- Every clause of ListenerSearch with hypotheses is met. -/
theorem witness_ListenerSearch :
    (∃ (s : State) (l : Nat) (a : Asn), s.asnOk l a = true ∧ (s.lis l).st < 5 ∧ s.mlc.later = [] ∧ s.mlc.tries = []) ∧
    (∃ (s : State) (l : Nat) (a : Asn), s.asnOk l a = true ∧ 5 ≤ (s.lis l).st ∧ s.mlc.later = [] ∧ s.mlc.tries = []) ∧
    (∃ (s : State) (l : Nat) (a : Asn), s.asnOk l a = false ∧ s.mlc.later = [] ∧ s.mlc.tries = []) ∧
    (∃ (s : State) (l : Nat) (a : Asn), (s.lis l).st = 1 ∧ (s.lis l).cur = some a ∧ a.opn ≤ s.ns) ∧
    (∃ (s : State) (l : Nat) (e : Int), (s.lis l).st = 2 ∧ s.hears l = true ∧ s.lisThr l ≤ e) ∧
    (∃ (s : State) (l : Nat) (corr : List Nat) (e0 : Int) (e1 : Int) (a : Asn), (s.lis l).st = 3 ∧ (s.lis l).cur = some a
      ∧ s.hears l = true ∧ corr.length = s.get (F.MPHY_QUAL_M (modeFam a.mode))
      ∧ s.get (F.MPHY_QUAL_N (modeFam a.mode)) ≤ (corr.filter fun v => decide (s.get (F.MPHY_QUAL_QTHR (modeFam a.mode)) ≤ v)).length) ∧
    (∃ (s : State) (l : Nat) (corr : List Nat) (e : Int) (a : Asn), (s.lis l).st = 3 ∧ (s.lis l).cur = some a ∧ (s.lis l).next = none
      ∧ (e < s.lisThr l ∨ (corr.length = s.get (F.MPHY_QUAL_M (modeFam a.mode))
      ∧ (corr.filter fun v => decide (s.get (F.MPHY_QUAL_QTHR (modeFam a.mode)) ≤ v)).length < s.get (F.MPHY_QUAL_N (modeFam a.mode))))
      ∧ s.ns < a.cls ∧ s.mlc.later = [] ∧ s.mlc.tries = []) ∧
    (∃ (s : State) (l : Nat) (corr : List Nat) (e : Int) (b : Asn), (s.lis l).st = 3 ∧ (s.lis l).next = some b ∧ b.opn ≤ s.ns
      ∧ s.ns ≤ b.cls ∧ e < s.lisThr l ∧ s.mlc.later = [] ∧ s.mlc.tries = []) ∧
    (∃ (s : State) (l : Nat) (u : Nat) (a : Asn), (s.lis l).st = 4 ∧ (s.lis l).cur = some a ∧ (s.lis l).next = none
      ∧ s.get (F.MPHY_QUAL_SFDWAIT (modeFam a.mode)) ≤ u ∧ 1 ≤ u ∧ s.ns < a.cls ∧ s.mlc.later = [] ∧ s.mlc.tries = []) ∧
    (∃ (s : State) (l : Nat) (a : Asn), 2 ≤ (s.lis l).st ∧ (s.lis l).st ≤ 4 ∧ (s.lis l).cur = some a ∧ (s.lis l).next = none
      ∧ a.cls ≤ s.ns ∧ s.mlc.later = [] ∧ s.mlc.tries = []) :=
  ⟨⟨{ (up.set (F.CTRL_ENABLE W.MPHY) 1) with mphy := { up.mphy with win := [(0, (860000, 880000))] } },
      9, { tile := 2, freq := 868300, mode := 0, opn := 0, cls := 9000000, square := 5, asn := 77 }, by decide⟩,
   ⟨({ (up.set (F.CTRL_ENABLE W.MPHY) 1) with mphy := { up.mphy with win := [(0, (860000, 880000))] } }.setLis 9 { lis0 with st := 5, cur := some { tile := 2, freq := 868300, mode := 0, opn := 0, cls := 9000000, square := 5, asn := 77 } }), 9, { tile := 2, freq := 868300, mode := 0, opn := 0, cls := 9000000, square := 5, asn := 77 }, by decide⟩,
   ⟨up, 9, { tile := 2, freq := 868300, mode := 0, opn := 0, cls := 9000000, square := 5, asn := 77 }, by decide⟩,
   ⟨((up.set (F.CTRL_ENABLE W.MPHY) 1).setLis 9 { lis0 with st := 1, cur := some { tile := 2, freq := 868300, mode := 0, opn := 0, cls := 9000000, square := 5, asn := 77 } }), 9, { tile := 2, freq := 868300, mode := 0, opn := 0, cls := 9000000, square := 5, asn := 77 }, by decide⟩,
   ⟨((up.set (F.CTRL_ENABLE W.MPHY) 1).setLis 9 { lis0 with st := 2, cur := some { tile := 2, freq := 868300, mode := 0, opn := 0, cls := 9000000, square := 5, asn := 77 } }), 9, 12, by decide⟩,
   ⟨((up.set (F.CTRL_ENABLE W.MPHY) 1).setLis 9 { lis0 with st := 3, cur := some { tile := 2, freq := 868300, mode := 0, opn := 0, cls := 9000000, square := 5, asn := 77 } }), 9, (List.replicate (up.get (F.MPHY_QUAL_M 0)) 255), 5, -9, { tile := 2, freq := 868300, mode := 0, opn := 0, cls := 9000000, square := 5, asn := 77 }, by decide⟩,
   ⟨((up.set (F.CTRL_ENABLE W.MPHY) 1).setLis 9 { lis0 with st := 3, cur := some { tile := 2, freq := 868300, mode := 0, opn := 0, cls := 9000000, square := 5, asn := 77 } }), 9, [], -500, { tile := 2, freq := 868300, mode := 0, opn := 0, cls := 9000000, square := 5, asn := 77 }, by decide⟩,
   ⟨((up.set (F.CTRL_ENABLE W.MPHY) 1).setLis 9 { lis0 with st := 3, cur := some { tile := 2, freq := 868300, mode := 0, opn := 0, cls := 9000000, square := 5, asn := 77 }, next := some { tile := 2, freq := 868300, mode := 0, opn := 0, cls := 9000000, square := 5, asn := 77 } }), 9, [], -500, { tile := 2, freq := 868300, mode := 0, opn := 0, cls := 9000000, square := 5, asn := 77 }, by decide⟩,
   ⟨((up.set (F.CTRL_ENABLE W.MPHY) 1).setLis 9 { lis0 with st := 4, cur := some { tile := 2, freq := 868300, mode := 0, opn := 0, cls := 9000000, square := 5, asn := 77 } }), 9, 255, { tile := 2, freq := 868300, mode := 0, opn := 0, cls := 9000000, square := 5, asn := 77 }, by decide⟩,
   ⟨{ ((up.set (F.CTRL_ENABLE W.MPHY) 1).setLis 9 { lis0 with st := 2, cur := some { tile := 2, freq := 868300, mode := 0, opn := 0, cls := 9000000, square := 5, asn := 77 } }) with tm := { up.tm with tb := 9000000 * 2 ^ 32 } }, 9, { tile := 2, freq := 868300, mode := 0, opn := 0, cls := 9000000, square := 5, asn := 77 }, by decide⟩⟩

/-- Every clause of ListenerFrames with hypotheses is met. -/
theorem witness_ListenerFrames :
    (∃ (s : State) (l : Nat) (u : Nat) (r : Int) (a : Asn), (s.lis l).st = 4 ∧ (s.lis l).cur = some a ∧ (s.lis l).next = none
      ∧ s.hears l = true ∧ u ≤ s.sfdWait (modeFam a.mode) ∧ s.ns < a.cls ∧ (∀ k ∈ List.range 4, s.bufFree k = 0) ∧ s.mlc.later = []
      ∧ s.mlc.tries = []) ∧
    (∃ (s : State) (l : Nat) (u : Nat) (r : Int) (a : Asn), (s.lis l).st = 4 ∧ (s.lis l).cur = some a ∧ s.hears l = true
      ∧ u ≤ s.sfdWait (modeFam a.mode) ∧ 0 < s.bufFree (classFor (psduMax a.mode))
      ∧ kget s.ram.pool (s.bufHandle (classFor (psduMax a.mode)) 0) = none ∧ s.enabled W.YARD = true ∧ s.resvAll < s.slotsFree
      ∧ s.trainRoom (s.origTrain a.tile) = true ∧ s.mlc.later = [] ∧ s.mlc.tries = []) ∧
    (∃ (s : State) (l : Nat) (h : Phr) (n : Nat) (f : Bool) (d : Bool) (a : Asn), (s.lis l).st = 5 ∧ (s.lis l).cur = some a
      ∧ s.blanked (lisPath l) = false ∧ phrOk (modeFam a.mode) h = true ∧ psduOk a.mode n = true ∧ s.mlc.later = [] ∧ s.mlc.tries = []) ∧
    (∃ (s : State) (l : Nat) (h : Phr) (n : Nat) (f : Bool) (d : Bool) (a : Asn), (s.lis l).st = 5 ∧ (s.lis l).cur = some a
      ∧ (s.lis l).next = none ∧ (s.lis l).buf = none ∧ s.blanked (lisPath l) = false ∧ phrOk (modeFam a.mode) h = false ∧ s.ns < a.cls
      ∧ s.mlc.later = [] ∧ s.mlc.tries = []) ∧
    (∃ (s : State) (l : Nat) (corr : List Nat) (e : Int) (e0 : Int) (e1 : Int) (a : Asn), (s.lis l).st = 5 ∧ (s.lis l).buf = none
      ∧ (s.lis l).cur = some a ∧ s.hears l = true ∧ s.qualified (modeFam a.mode) corr = true ∧ bitsOf (s.lis l).cfg 2 6 ≠ 0
      ∧ (s.lis l).rssi + 2 * bitsOf (s.lis l).cfg 2 6 ≤ e) ∧
    (∃ (s : State) (l : Nat) (d : List Byte) (rep : RxRep) (a : Asn) (h : Nat), (s.lis l).st = 6 ∧ s.blanked (lisPath l) = false
      ∧ (s.lis l).cur = some a ∧ (s.lis l).buf = some h ∧ (s.lis l).next = none ∧ s.on F.MPHY_EQCFG_ARMED = false ∧ s.ns < a.cls
      ∧ s.get F.MPHY_RXFRAMESLO_COUNT + 1 < 2 ^ 32 ∧ s.get F.MPHY_RXFRAMESHI_COUNT = 0 ∧ s.ram.ue = []
      ∧ s.on (F.MEM_MIRROR_VALID 0) = false ∧ s.on (F.MEM_MIRROR_VALID 1) = false ∧ s.on (F.MEM_MIRROR_VALID 2) = false
      ∧ s.on (F.MEM_MIRROR_VALID 3) = false ∧ s.mlc.later = [] ∧ s.mlc.tries = []) :=
  ⟨⟨(fun s => { s with ram := { s.ram with counts := [0, 0, 0, 0] } }) ((up.set (F.CTRL_ENABLE W.MPHY) 1).setLis 9 { lis0 with st := 4, cur := some { tile := 2, freq := 868300, mode := 0, opn := 0, cls := 9000000, square := 5, asn := 77 } }), 9, 1, -200, { tile := 2, freq := 868300, mode := 0, opn := 0, cls := 9000000, square := 5, asn := 77 }, by decide⟩,
   ⟨((((up.set (F.CTRL_ENABLE W.MPHY) 1).setLis 9 { lis0 with st := 4, cur := some { tile := 2, freq := 868300, mode := 0, opn := 0, cls := 9000000, square := 5, asn := 77 } })).set (F.CTRL_ENABLE W.YARD) 1), 9, 1, -200, { tile := 2, freq := 868300, mode := 0, opn := 0, cls := 9000000, square := 5, asn := 77 }, by decide⟩,
   ⟨((up.set (F.CTRL_ENABLE W.MPHY) 1).setLis 9 { lis0 with st := 5, cur := some { tile := 2, freq := 868300, mode := 0, opn := 0, cls := 9000000, square := 5, asn := 77 } }), 9, { modeSwitch := false, reserved := 0, hcs := false }, 2047, true, false, { tile := 2, freq := 868300, mode := 0, opn := 0, cls := 9000000, square := 5, asn := 77 }, by decide⟩,
   ⟨((up.set (F.CTRL_ENABLE W.MPHY) 1).setLis 9 { lis0 with st := 5, cur := some { tile := 2, freq := 868300, mode := 0, opn := 0, cls := 9000000, square := 5, asn := 77 } }), 9, { modeSwitch := true, reserved := 0, hcs := false }, 2047, true, false, { tile := 2, freq := 868300, mode := 0, opn := 0, cls := 9000000, square := 5, asn := 77 }, by decide⟩,
   ⟨((up.set (F.CTRL_ENABLE W.MPHY) 1).setLis 9 { lis0 with st := 5, cur := some { tile := 2, freq := 868300, mode := 0, opn := 0, cls := 9000000, square := 5, asn := 77 }, cfg := lcfg0, rssi := -300 }), 9, (List.replicate (up.get (F.MPHY_QUAL_M 0)) 255), -276, 0, 0, { tile := 2, freq := 868300, mode := 0, opn := 0, cls := 9000000, square := 5, asn := 77 }, by decide⟩,
   ⟨((up.set (F.CTRL_ENABLE W.MPHY) 1).setLis 9 { lis0 with st := 6, cur := some { tile := 2, freq := 868300, mode := 0, opn := 0, cls := 9000000, square := 5, asn := 77 }, buf := some 1, len := 5 }), 9, [1, 2, 3, 4, 5], { snr := 40, fofs := -100, fosat := false }, { tile := 2, freq := 868300, mode := 0, opn := 0, cls := 9000000, square := 5, asn := 77 }, 1, by decide⟩⟩

/-- Every clause of WindowsAndCarriers with hypotheses is met. -/
theorem witness_WindowsAndCarriers :
    (∃ (s : State) (rq : Rq) (v : Word), s.winOn W.MPHY = true ∧ (rq.cls = 2 → s.dbgLevel = 2) ∧ v.toNat % 2 = 1 ∧ s.subGhzTile = false
      ∧ groupsOk (s.stagedWin.map fun e => e.2) = true ∧ s.mphy.lis = []) ∧
    (∃ (s : State), s.on F.MPHY_WINCTL_PENDING = true ∧ groupsOk (s.stagedWin.map fun e => e.2) = false) ∧
    (∃ (s : State), s.on F.MPHY_WINCTL_PENDING = true ∧ groupsOk (s.stagedWin.map fun e => e.2) = true ∧ s.mphy.lis = []) ∧
    (∃ (s : State) (rq : Rq) (v : Word), s.winOn W.MPHY = true ∧ (rq.cls = 2 → s.dbgLevel = 2) ∧ v.toNat / 512 % 2 = 1
      ∧ v.toNat % 512 < 288 ∧ s.get F.MPHY_EQADDR_ADDR % 8 = 0 ∧ 0x13000000 ≤ s.get F.MPHY_EQADDR_ADDR
      ∧ s.get F.MPHY_EQADDR_ADDR + 832 ≤ 0x14000000) ∧
    (∃ (s : State) (c : Carr), s.lentPort c.port = false ∧ s.enabled W.MPHY = true ∧ s.enabled (W.RFE 3) = true
      ∧ s.retired (0x1000 + c.port) = false ∧ psduOk c.mode c.psdu.length = false) ∧
    (∃ (s : State) (c : Carr) (d : Carr), s.lentPort c.port = false ∧ s.enabled W.MPHY = true ∧ s.enabled (W.RFE 3) = true
      ∧ s.retired (0x1000 + c.port) = false ∧ psduOk c.mode c.psdu.length = true ∧ modeOk c.mode = true
      ∧ (modeFam c.mode = 2 ↔ 22 ≤ c.port) ∧ d = { c with dur := preNs c.mode c.pre + airNs c.mode c.psdu.length }
      ∧ carrFull d (s.portCarr c.port) = false ∧ (s.txCheck 3 (carrPath c.port) (s.carrCmd d)).1 = 0
      ∧ s.carrExcess d ≤ 4 * s.get F.MPHY_TXCFG_MAXRED
      ∧ s.limCheck { id := c.id, port := c.port, lo := c.freq - s.modeBw c.mode / 2, hi := c.freq + (s.modeBw c.mode + 1) / 2, frm := c.at', til := c.at' + d.dur, ack := decide (c.cls = 1), cls := 0 } = 0) ∧
    (∃ (s : State) (i : Nat) (c : Carr), s.mphy.waiting = [c] ∧ c.id = i ∧ c.at' ≤ s.ns ∧ s.ns ≤ c.at' + 50 ∧ c.port < 22
      ∧ s.rfe.coex.ending = false ∧ s.mlc.tries = []) ∧
    (∃ (s : State) (i : Nat) (c : Carr), s.mphy.waiting = [c] ∧ c.id = i ∧ c.at' ≤ s.ns ∧ s.ns ≤ c.at' + 50 ∧ 22 ≤ c.port
      ∧ s.rfe.coex.ending = false ∧ s.mlc.tries = [] ∧ s.mphy.lis = []) ∧
    (∃ (s : State) (i : Nat) (c : Carr), s.mphy.waiting = [c] ∧ c.id = i ∧ c.at' + 50 < s.ns ∧ s.mlc.tries = []) ∧
    (∃ (s : State) (i : Nat) (c : Carr), s.mphy.waiting = [c] ∧ c.id = i ∧ s.ns < c.at') :=
  ⟨⟨up, { cls := 0, num := 3 }, 1#32, by decide⟩,
   ⟨((((((up.set F.MPHY_WINCTL_PENDING 1).set (F.MPHY_WIN_WIDTH 0) 1).set (F.MPHY_WIN_CENTRE 0) 410000).set (F.MPHY_WIN_WIDTH 1) 1).set (F.MPHY_WIN_CENTRE 1) 600000).set (F.MPHY_WIN_WIDTH 2) 4).set (F.MPHY_WIN_CENTRE 2) 900000, by decide⟩,
   ⟨(up.set F.MPHY_WINCTL_PENDING 1).set (F.MPHY_WIN_WIDTH 0) 3, by decide⟩,
   ⟨up.set F.MPHY_EQADDR_ADDR 0x13FFFCC0, { cls := 0, num := 3 }, 0x309#32, by decide⟩,
   ⟨((up.set (F.CTRL_ENABLE W.MPHY) 1).set (F.CTRL_ENABLE 0x13) 1),
      { id := 3, tile := 2, port := 21, freq := 868300, mode := 0, power := 40, at' := 5000000, dur := 4000000, act := 1, cls := 0, psdu := [1, 2, 3, 4], wag := none }, by decide⟩,
   ⟨upAir, { id := 3, tile := 2, port := 21, freq := 868300, mode := 0, power := 40, at' := 5000000, dur := 4000000, act := 1, cls := 0, psdu := [1, 2, 3, 4, 5], wag := none }, { id := 3, tile := 2, port := 21, freq := 868300, mode := 0, power := 40, at' := 5000000, dur := (preNs 0 8 + airNs 0 5), act := 1, cls := 0, psdu := [1, 2, 3, 4, 5], wag := none }, by decide⟩,
   ⟨{ up with mphy := { up.mphy with waiting := [{ id := 3, tile := 2, port := 21, freq := 868300, mode := 0, power := 40, at' := 5000000, dur := 4000000, act := 1, cls := 0, psdu := [1, 2, 3, 4], wag := none }] }, tm := { up.tm with tb := 5000000 * 2 ^ 32 } }, 3, { id := 3, tile := 2, port := 21, freq := 868300, mode := 0, power := 40, at' := 5000000, dur := 4000000, act := 1, cls := 0, psdu := [1, 2, 3, 4], wag := none }, by decide⟩,
   ⟨{ up with mphy := { up.mphy with waiting := [{ id := 3, tile := 2, port := 22, freq := 868300, mode := 0, power := 40, at' := 5000000, dur := 4000000, act := 1, cls := 0, psdu := [1, 2, 3, 4], wag := none }] }, tm := { up.tm with tb := 5000050 * 2 ^ 32 } }, 3, { id := 3, tile := 2, port := 22, freq := 868300, mode := 0, power := 40, at' := 5000000, dur := 4000000, act := 1, cls := 0, psdu := [1, 2, 3, 4], wag := none }, by decide⟩,
   ⟨{ up with mphy := { up.mphy with waiting := [{ id := 3, tile := 2, port := 21, freq := 868300, mode := 0, power := 40, at' := 5000000, dur := 4000000, act := 1, cls := 0, psdu := [1, 2, 3, 4], wag := none }] }, tm := { up.tm with tb := 5000051 * 2 ^ 32 } }, 3, { id := 3, tile := 2, port := 21, freq := 868300, mode := 0, power := 40, at' := 5000000, dur := 4000000, act := 1, cls := 0, psdu := [1, 2, 3, 4], wag := none }, by decide⟩,
   ⟨{ up with mphy := { up.mphy with waiting := [{ id := 3, tile := 2, port := 21, freq := 868300, mode := 0, power := 40, at' := 5000000, dur := 4000000, act := 1, cls := 0, psdu := [1, 2, 3, 4], wag := none }] }, tm := { up.tm with tb := 4999999 * 2 ^ 32 } }, 3, { id := 3, tile := 2, port := 21, freq := 868300, mode := 0, power := 40, at' := 5000000, dur := 4000000, act := 1, cls := 0, psdu := [1, 2, 3, 4], wag := none }, by decide⟩⟩

/-- Every clause of TilesAndSlots with hypotheses is met. -/
theorem witness_TilesAndSlots :
    (∃ (s : State) (rq : Rq) (n : Nat) (v : Word), s.winOn W.MLC = true ∧ (rq.cls = 2 → s.dbgLevel = 2) ∧ n < 8 ∧ v.toNat % 2 = 1
      ∧ s.on (F.MLC_TILE_CTL_EN n) = false ∧ s.on (F.MLC_TILE_CTL_RUN n) = false) ∧
    (∃ (s : State) (rq : Rq) (n : Nat) (v : Word), s.winOn W.MLC = true ∧ (rq.cls = 2 → s.dbgLevel = 2) ∧ n < 8 ∧ v.toNat % 2 = 1
      ∧ s.on (F.MLC_TILE_CTL_EN n) = false ∧ s.on (F.MLC_TILE_CTL_RUN n) = true) ∧
    (∃ (s : State) (n : Nat), s.enabled W.MLC = true ∧ s.on (F.MLC_TILE_CTL_EN n) = true ∧ (s.tile n).chk = 1 ∧ s.tileCause n ≠ 0
      ∧ s.tileCause n ≠ 5 ∧ s.mlc.tries = []) ∧
    (∃ (s : State) (n : Nat), s.enabled W.MLC = true ∧ s.on (F.MLC_TILE_CTL_EN n) = true ∧ (s.tile n).chk = 1 ∧ s.tileCause n = 5
      ∧ s.mlc.tries = []) ∧
    (∃ (s : State) (n : Nat), s.enabled W.MLC = true ∧ s.on (F.MLC_TILE_CTL_EN n) = true ∧ (s.tile n).chk = 1 ∧ s.tileCause n = 0
      ∧ s.on (F.MLC_TILE_CTL_FOLLOW n) = false ∧ s.mlc.tries = []) ∧
    (∃ (s : State) (n : Nat), s.enabled W.MLC = true ∧ s.on (F.MLC_TILE_CTL_EN n) = true ∧ (s.tile n).chk = 1 ∧ s.tileCause n = 0
      ∧ s.on (F.MLC_TILE_CTL_FOLLOW n) = true) ∧
    (∃ (s : State) (n : Nat) (m : Nat), s.enabled W.MLC = true ∧ (s.tile n).chk = 2 ∧ s.on (F.MLC_TILE_CTL_ACQ n) = false
      ∧ (s.on (F.MLC_TILE_CTL_FOLLOW n) = false ∨ s.mlc.plan = []) ∧ (s.tile n).stop = false ∧ s.slotK n = some m
      ∧ (s.tile n).edge ≠ some m ∧ s.band n = 1 ∧ (∀ f ∈ List.range 16, s.on (F.MLC_SFCTL_SWPEND n f) = false)) ∧
    (∃ (s : State) (n : Nat) (m : Nat), s.enabled W.MLC = true ∧ (s.tile n).chk = 2 ∧ s.on (F.MLC_TILE_CTL_ACQ n) = false
      ∧ (s.tile n).stop = true ∧ s.slotK n = some m ∧ (s.tile n).edge ≠ some m ∧ s.band n = 1 ∧ s.mphy.lis = []
      ∧ (∀ f ∈ List.range 16, s.on (F.MLC_SFCTL_SWPEND n f) = false)) ∧
    (∃ (s : State) (n : Nat) (m : Nat), s.enabled W.MLC = true ∧ (s.tile n).chk = 2 ∧ (s.tile n).stop = false
      ∧ s.on (F.MLC_TILE_CTL_ACQ n) = false ∧ s.slotK n = some m ∧ (s.tile n).prep ≤ m + 1 ∧ n < 8
      ∧ (∀ u ∈ List.range 8, ∀ f ∈ List.range 16, s.on (F.MLC_SFCTL_EN u f) = false) ∧ s.mlc.tries = []) ∧
    (∃ (s : State) (rq : Rq) (n : Nat) (v : Word), s.winOn W.MLC = true ∧ (rq.cls = 2 → s.dbgLevel = 2) ∧ n < 8 ∧ v.toNat % 2 = 0
      ∧ s.on (F.MLC_TILE_CTL_EN n) = true ∧ s.on (F.MLC_TILE_CTL_RUN n) = true) ∧
    (∃ (s : State) (rq : Rq) (n : Nat) (v : Word), s.winOn W.MLC = true ∧ (rq.cls = 2 → s.dbgLevel = 2) ∧ n < 8 ∧ v.toNat % 2 = 0
      ∧ s.on (F.MLC_TILE_CTL_EN n) = true ∧ s.on (F.MLC_TILE_CTL_RUN n) = false ∧ s.on (F.MLC_TILE_CTL_ACQ n) = false ∧ s.mlc.later = []) :=
  ⟨⟨up, { cls := 0, num := 3 }, 7, 1#32, by decide⟩,
   ⟨((up.set (F.MLC_TILE_CTL_RUN 5) 1).setTile 5 { tile0 with chk := 2, stop := true }), { cls := 0, num := 3 }, 5, 1#32, by decide⟩,
   ⟨(((up.set (F.CTRL_ENABLE W.MLC) 1).set (F.MLC_TILE_CTL_EN 5) 1).setTile 5 { tile0 with chk := 1 }), 5, by decide⟩,
   ⟨((((((List.range 16).foldl (fun s j => s.sets [(F.MLC_HOP_EVEN 5 j, 3), (F.MLC_HOP_ODD 5 j, 7)]) (((up.set (F.CTRL_ENABLE W.MLC) 1).set (F.MLC_TILE_CTL_EN 5) 1).set (F.MLC_TILE_CH0_CH0 5) 868000)).set (F.MLC_SFCTL_EN 5 3) 1).set (F.MLC_ACOUNT_COUNT 5 3) 1)).setTile 5 { tile0 with chk := 1 }), 5, by decide⟩,
   ⟨((((List.range 16).foldl (fun s j => s.sets [(F.MLC_HOP_EVEN 5 j, 3), (F.MLC_HOP_ODD 5 j, 7)]) (((up.set (F.CTRL_ENABLE W.MLC) 1).set (F.MLC_TILE_CTL_EN 5) 1).set (F.MLC_TILE_CH0_CH0 5) 868000))).setTile 5 { tile0 with chk := 1 }), 5, by decide⟩,
   ⟨((((List.range 16).foldl (fun s j => s.sets [(F.MLC_HOP_EVEN 5 j, 3), (F.MLC_HOP_ODD 5 j, 7)]) (((up.set (F.CTRL_ENABLE W.MLC) 1).set (F.MLC_TILE_CTL_EN 5) 1).set (F.MLC_TILE_CH0_CH0 5) 868000)).set (F.MLC_TILE_CTL_FOLLOW 5) 1).setTile 5 { tile0 with chk := 1 }), 5, by decide⟩,
   ⟨{ (((up.set (F.CTRL_ENABLE W.MLC) 1).set (F.MLC_TILE_CTL_BAND 5) 1).setTile 5 { tile0 with chk := 2 }) with tm := { up.tm with tb := 100000000 * 2 ^ 32 } }, 5, 4, by decide⟩,
   ⟨{ ((((up.set (F.CTRL_ENABLE W.MLC) 1).set (F.MLC_TILE_CTL_BAND 5) 1).set (F.MLC_TILE_CTL_RUN 5) 1).setTile 5 { tile0 with chk := 2, stop := true, edge := some 3 }) with tm := { up.tm with tb := 100000000 * 2 ^ 32 } }, 5, 4, by decide⟩,
   ⟨{ (((up.set (F.CTRL_ENABLE W.MLC) 1)).setTile 5 { tile0 with chk := 2 }) with tm := { up.tm with tb := 100000000 * 2 ^ 32 } },
      5, 4, by decide⟩,
   ⟨(((up.set (F.CTRL_ENABLE W.MLC) 1).set (F.MLC_TILE_CTL_EN 5) 1).set (F.MLC_TILE_CTL_RUN 5) 1),
      { cls := 0, num := 3 }, 5, 0#32, by decide⟩,
   ⟨(((up.set (F.CTRL_ENABLE W.MLC) 1).set (F.MLC_TILE_CTL_EN 5) 1).setTile 5 { tile0 with chk := 1 }),
      { cls := 0, num := 3 }, 5, 0#32, by decide⟩⟩

/-- Every clause of SlotframesAndBoard with hypotheses is met. -/
theorem witness_SlotframesAndBoard :
    (∃ (s : State) (rq : Rq) (n : Nat) (f : Nat) (v : Word), s.winOn W.MLC = true ∧ (rq.cls = 2 → s.dbgLevel = 2) ∧ n < 8 ∧ f < 16
      ∧ v.toNat / 4 % 2 = 1 ∧ v.toNat % 2 = s.get (F.MLC_SFCTL_EN n f) ∧ s.on (F.MLC_SFCTL_SWPEND n f) = false
      ∧ s.on (F.MLC_TILE_CTL_RUN n) = false ∧ s.bankCause n f (1 - s.actBank n f) = 0) ∧
    (∃ (s : State) (rq : Rq) (n : Nat) (f : Nat) (v : Word) (m : Nat), s.winOn W.MLC = true ∧ (rq.cls = 2 → s.dbgLevel = 2) ∧ n < 8
      ∧ f < 16 ∧ v.toNat / 4 % 2 = 1 ∧ v.toNat % 2 = s.get (F.MLC_SFCTL_EN n f) ∧ s.on (F.MLC_SFCTL_SWPEND n f) = false
      ∧ s.on (F.MLC_TILE_CTL_RUN n) = true ∧ s.slotK n = some m ∧ s.asnOf n m + 2 ≤ s.swAsn n f
      ∧ s.bankCause n f (1 - s.actBank n f) = 0) ∧
    (∃ (s : State) (rq : Rq) (n : Nat) (f : Nat) (v : Word) (m : Nat), s.winOn W.MLC = true ∧ (rq.cls = 2 → s.dbgLevel = 2) ∧ n < 8
      ∧ f < 16 ∧ v.toNat / 4 % 2 = 1 ∧ v.toNat % 2 = s.get (F.MLC_SFCTL_EN n f) ∧ s.on (F.MLC_SFCTL_SWPEND n f) = false
      ∧ s.on (F.MLC_TILE_CTL_RUN n) = true ∧ s.slotK n = some m ∧ s.swAsn n f < s.asnOf n m + 2) ∧
    (∃ (s : State) (rq : Rq) (n : Nat) (f : Nat) (v : Word), s.winOn W.MLC = true ∧ (rq.cls = 2 → s.dbgLevel = 2) ∧ n < 8 ∧ f < 16
      ∧ v.toNat / 4 % 2 = 1 ∧ v.toNat % 2 = s.get (F.MLC_SFCTL_EN n f) ∧ s.on (F.MLC_SFCTL_SWPEND n f) = true) ∧
    (∃ (s : State) (rq : Rq) (a : Nat) (n : Nat), rq.cls ≠ 3 ∧ inBoard a = true ∧ 0 < n) ∧
    (∃ (s : State) (rq : Rq), s.winOn W.MLC = true ∧ s.busy W.MLC = false ∧ s.loadSrc % 8 = 0 ∧ inSram s.loadSrc = true
      ∧ s.loadSrc + 8 * s.get F.MLC_LOADCOUNT_COUNT ≤ 0x13800000 ∧ 0 < s.get F.MLC_LOADCOUNT_COUNT
      ∧ s.get F.MLC_LOADFIRST_FIRST + s.get F.MLC_LOADCOUNT_COUNT ≤ 1048576 ∧ s.loadHits = false) :=
  ⟨⟨up, { cls := 0, num := 3 }, 7, 15, 4#32, by decide⟩,
   ⟨{ ((((up.set (F.CTRL_ENABLE W.MLC) 1).set (F.MLC_TILE_CTL_EN 5) 1).set (F.MLC_TILE_CTL_RUN 5) 1).set (F.MLC_SWASNLO_SWASN 5 3) 6) with tm := { up.tm with tb := 100000000 * 2 ^ 32 } }, { cls := 0, num := 3 }, 5, 3, 4#32, 4, by decide⟩,
   ⟨{ ((((up.set (F.CTRL_ENABLE W.MLC) 1).set (F.MLC_TILE_CTL_EN 5) 1).set (F.MLC_TILE_CTL_RUN 5) 1).set (F.MLC_SWASNLO_SWASN 5 3) 5) with tm := { up.tm with tb := 100000000 * 2 ^ 32 } }, { cls := 0, num := 3 }, 5, 3, 4#32, 4, by decide⟩,
   ⟨up.set (F.MLC_SFCTL_SWPEND 5 3) 1, { cls := 0, num := 3 }, 5, 3, 4#32, by decide⟩,
   ⟨up, { cls := 0, num := 3 }, 0x13FFFFFF, 1, by decide⟩,
   ⟨(up.set F.MLC_LOADSRCLO_ADDR 0x137FFFF8).set F.MLC_LOADCOUNT_COUNT 1, { cls := 0, num := 3 }, by decide⟩⟩

/-- Every clause of SquaresAndFrames with hypotheses is met. -/
theorem witness_SquaresAndFrames :
    (∃ (s : State) (n : Nat) (i : Nat) (m : Nat) (e : QEnt) (r : List QEnt), s.mlc.plan = [(n, m, i)] ∧ s.mayTx = true
      ∧ (s.square i).kind = 1 ∧ (s.square i).any = false ∧ s.nodeQ (s.square i).node = e :: r ∧ s.trying e.out.handle = false
      ∧ s.lbtOf (s.hopFreq n (s.asnOf n m) (s.square i).choff) = none ∧ (mac154 (s.frame e.out.handle)).ackReq = false
      ∧ ({ s with mlc := { s.mlc with plan := [] } }.meshSend (s.meshPort n (s.hopFreq n (s.asnOf n m) (s.square i).choff) none) (s.hopFreq n (s.asnOf n m) (s.square i).choff) (s.get (F.MLC_TPL3_MODE n (s.square i).tpl)) (s.edgeNs n m + s.get (F.MLC_TPL0_TXOFFSET n (s.square i).tpl) * 1000) 0 (modeFam (s.get (F.MLC_TPL3_MODE n (s.square i).tpl)) != 2) (s.frame e.out.handle) (fun id st => { tile := n, what := 0, q := some e, id := id, stamp := st, lis := none, seq := (mac154 (s.frame e.out.handle)).seq, own := none })).1 = 0) ∧
    (∃ (s : State) (n : Nat) (i : Nat) (m : Nat), s.mlc.plan = [(n, m, i)] ∧ s.mayTx = true ∧ (s.square i).any = true
      ∧ s.sharedQ n = []) ∧
    (∃ (s : State) (n : Nat) (i : Nat) (m : Nat) (e : QEnt) (r : List QEnt), s.mlc.plan = [(n, m, i)] ∧ s.mayTx = true
      ∧ (s.square i).kind = 2 ∧ s.sharedQ n = e :: r ∧ s.trying e.out.handle = false ∧ 0 < (s.tile n).w) ∧
    (∃ (s : State) (n : Nat) (i : Nat) (m : Nat) (e : QEnt) (r : List QEnt), s.mlc.plan = [(n, m, i)] ∧ s.mayTx = true
      ∧ (s.square i).kind = 2 ∧ s.sharedQ n = e :: r ∧ s.trying e.out.handle = false ∧ (s.tile n).w = 0
      ∧ s.lbtOf (s.hopFreq n (s.asnOf n m) (s.square i).choff) = none ∧ (mac154 (s.frame e.out.handle)).ackReq = false
      ∧ ({ s with mlc := { s.mlc with plan := [] } }.meshSend (s.meshPort n (s.hopFreq n (s.asnOf n m) (s.square i).choff) none) (s.hopFreq n (s.asnOf n m) (s.square i).choff) (s.get (F.MLC_TPL3_MODE n (s.square i).tpl)) (s.edgeNs n m + s.get (F.MLC_TPL0_TXOFFSET n (s.square i).tpl) * 1000) 0 (modeFam (s.get (F.MLC_TPL3_MODE n (s.square i).tpl)) != 2) (s.frame e.out.handle) (fun id st => { tile := n, what := 1, q := some e, id := id, stamp := st, lis := none, seq := (mac154 (s.frame e.out.handle)).seq, own := some (s.square i).lis })).1 = 0) ∧
    (∃ (s : State) (n : Nat) (i : Nat) (m : Nat) (e : QEnt) (c : Int), s.mlc.plan = [(n, m, i)] ∧ s.mayTx = true
      ∧ (s.square i).kind = 2 ∧ s.sharedQ n = [e] ∧ s.mn.sq = [(n, [e])] ∧ s.mn.q = [] ∧ s.trying e.out.handle = false
      ∧ (s.tile n).w = 0 ∧ 0 < s.get (F.MLC_TPL4_CCADUR n (s.square i).tpl) ∧ 4 * sgn 8 (s.tv n 14) ≤ c ∧ e.retries + 1 ≤ s.tv n 13) ∧
    (∃ (s : State) (n : Nat) (i : Nat) (m : Nat), s.mlc.plan = [(n, m, i)] ∧ s.mayTx = false ∧ (s.square i).kind = 3) ∧
    (∃ (s : State) (n : Nat) (i : Nat) (m : Nat), s.mlc.plan = [(n, m, i)] ∧ s.mayTx = true ∧ (s.square i).kind = 3
      ∧ s.get F.CPL_STAT_STATE ≠ 2 ∧ 0 < s.tv n 10 ∧ inSram (s.tv n (6 + s.tv n 4)) = true
      ∧ inSram ((s.tv n (6 + s.tv n 4)) + s.tv n 10 - 1) = true
      ∧ (mac154 (s.beacon n (s.asnOf n m) (s.edgeNs n m + s.get (F.MLC_TPL0_TXOFFSET n (s.square i).tpl) * 1000))).secured = false
      ∧ psduOk (s.get (F.MLC_TPL3_MODE n (s.square i).tpl)) (fcsAppend (modeFam (s.get (F.MLC_TPL3_MODE n (s.square i).tpl)) != 2) (s.beacon n (s.asnOf n m) (s.edgeNs n m + s.get (F.MLC_TPL0_TXOFFSET n (s.square i).tpl) * 1000))).length = true
      ∧ s.lbtOf (s.bcnFreq n (s.asnOf n m) (s.square i).choff) = none
      ∧ ({ s with mlc := { s.mlc with plan := [] } }.meshSend (s.meshPort n (s.bcnFreq n (s.asnOf n m) (s.square i).choff) none) (s.bcnFreq n (s.asnOf n m) (s.square i).choff) (s.get (F.MLC_TPL3_MODE n (s.square i).tpl)) (s.edgeNs n m + s.get (F.MLC_TPL0_TXOFFSET n (s.square i).tpl) * 1000) 2 (modeFam (s.get (F.MLC_TPL3_MODE n (s.square i).tpl)) != 2) (fcsAppend (modeFam (s.get (F.MLC_TPL3_MODE n (s.square i).tpl)) != 2) (s.beacon n (s.asnOf n m) (s.edgeNs n m + s.get (F.MLC_TPL0_TXOFFSET n (s.square i).tpl) * 1000))) (fun id st => { tile := n, what := 3, q := none, id := id, stamp := st, lis := none, seq := none, own := none })).1 = 0) ∧
    (∃ (s : State) (n : Nat) (i : Nat) (m : Nat), s.mlc.plan = [(n, m, i)] ∧ s.mayTx = true ∧ (s.square i).kind = 3
      ∧ s.get F.CPL_STAT_STATE ≠ 2 ∧ s.tv n 10 = 0) ∧
    (∃ (s : State) (n : Nat) (i : Nat) (b : Int) (a : Int), s.on (F.MLC_TILE_CTL_FOLLOW n) = true ∧ s.get F.TIME_SYNCCFG_SRC ≠ 2
      ∧ (s.tile n).eb = some b ∧ (s.tile n).ea = some a) ∧
    (∃ (s : State) (n : Nat) (i : Nat) (m : Nat), s.mlc.plan = [(n, m, i)] ∧ s.mayTx = true ∧ (s.square i).kind = 4
      ∧ s.lbtOf (s.hopFreq n (s.asnOf n m) (s.square i).choff) = none
      ∧ s.asnOk (s.square i).lis (s.ackAsn n m (s.square i) (kaLen (s.get (F.MLC_TPL3_MODE n (s.square i).tpl)))) = true
      ∧ s.asnWaits (s.square i).lis (s.ackAsn n m (s.square i) (kaLen (s.get (F.MLC_TPL3_MODE n (s.square i).tpl)))) = false
      ∧ s.lentPort (s.meshPort n (s.hopFreq n (s.asnOf n m) (s.square i).choff) none) = true) ∧
    (∃ (s : State) (l : Nat) (x : Handed), s.mphy.handed = [x] ∧ x.lis = l ∧ s.enabled W.MLC = true ∧ s.mlc.mute = false
      ∧ s.mlc.later = [] ∧ s.mlc.tries = [] ∧ x.mac.fcs = false) ∧
    (∃ (s : State) (l : Nat) (x : Handed), s.mphy.handed = [x] ∧ x.lis = l ∧ x.jd = none ∧ x.asn.square < scanMark
      ∧ (s.square x.asn.square).kind = 0 ∧ s.enabled W.MLC = true ∧ s.mlc.mute = false ∧ s.mlc.later = [] ∧ s.mlc.tries = []
      ∧ x.mac.fcs = true ∧ x.mac.ackReq = false ∧ s.yard.wagons.length < 65536 ∧ (∀ e ∈ s.yard.wagons, e.1 < 65536)) :=
  ⟨⟨((({ ((fun s : State => s.poke (squareAt 9) (toLE 8 (1 * 2 ^ 27 + 9 * 2 ^ 30 + 3 * 2 ^ 40 + 0 * 2 ^ 58 + 2 ^ 63))) ((upAir.set (F.CTRL_ENABLE W.MLC) 1).set (F.MLC_TILE_CH0_CH0 5) 868300)) with mlc := { up.mlc with plan := [(5, 4, 9)] }, mn := { up.mn with q := [(3, [{ out := { handle := 7, dest := 2, queue := 3, launch := 0, timed := false, compl := false, keep := false, ctrain := 0 }, miss := false, since := 0, retries := 0, rec' := none, promo := false }])] } }).set F.CPL_STAT_STATE 3).set F.CPL_LEND_MT1 1), 5, 9, 4, { out := { handle := 7, dest := 2, queue := 3, launch := 0, timed := false, compl := false, keep := false, ctrain := 0 }, miss := false, since := 0, retries := 0, rec' := none, promo := false }, [], by decide⟩,
   ⟨{ ((fun s : State => s.poke (squareAt 9) (toLE 8 (1 * 2 ^ 27 + 9 * 2 ^ 30 + 3 * 2 ^ 40 + 1 * 2 ^ 58 + 2 ^ 63))) ((upAir.set (F.CTRL_ENABLE W.MLC) 1).set (F.MLC_TILE_CH0_CH0 5) 868300)) with mlc := { up.mlc with plan := [(5, 4, 9)] }, mn := up.mn }, 5, 9, 4, by decide⟩,
   ⟨({ ((fun s : State => s.poke (squareAt 9) (toLE 8 (2 * 2 ^ 27 + 9 * 2 ^ 30 + 3 * 2 ^ 40 + 0 * 2 ^ 58 + 2 ^ 63))) ((upAir.set (F.CTRL_ENABLE W.MLC) 1).set (F.MLC_TILE_CH0_CH0 5) 868300)) with mlc := { up.mlc with plan := [(5, 4, 9)] }, mn := { up.mn with sq := [(5, [{ out := { handle := 7, dest := 2, queue := 3, launch := 0, timed := false, compl := false, keep := false, ctrain := 0 }, miss := false, since := 0, retries := 0, rec' := none, promo := false }])] } }).setTile 5 { tile0 with w := 1 }, 5, 9, 4, { out := { handle := 7, dest := 2, queue := 3, launch := 0, timed := false, compl := false, keep := false, ctrain := 0 }, miss := false, since := 0, retries := 0, rec' := none, promo := false }, [], by decide⟩,
   ⟨((({ ((fun s : State => s.poke (squareAt 9) (toLE 8 (2 * 2 ^ 27 + 9 * 2 ^ 30 + 3 * 2 ^ 40 + 0 * 2 ^ 58 + 2 ^ 63))) ((upAir.set (F.CTRL_ENABLE W.MLC) 1).set (F.MLC_TILE_CH0_CH0 5) 868300)) with mlc := { up.mlc with plan := [(5, 4, 9)] }, mn := { up.mn with sq := [(5, [{ out := { handle := 7, dest := 2, queue := 3, launch := 0, timed := false, compl := false, keep := false, ctrain := 0 }, miss := false, since := 0, retries := 0, rec' := none, promo := false }])] } }).set F.CPL_STAT_STATE 3).set F.CPL_LEND_MT1 1), 5, 9, 4, { out := { handle := 7, dest := 2, queue := 3, launch := 0, timed := false, compl := false, keep := false, ctrain := 0 }, miss := false, since := 0, retries := 0, rec' := none, promo := false }, [], by decide⟩,
   ⟨({ (((fun s : State => s.poke (squareAt 9) (toLE 8 (2 * 2 ^ 27 + 9 * 2 ^ 30 + 3 * 2 ^ 40 + 0 * 2 ^ 58 + 2 ^ 63))) ((upAir.set (F.CTRL_ENABLE W.MLC) 1).set (F.MLC_TILE_CH0_CH0 5) 868300)).set (F.MLC_TPL4_CCADUR 5 0) 128) with mlc := { up.mlc with plan := [(5, 4, 9)] }, mn := { up.mn with sq := [(5, [{ out := { handle := 7, dest := 2, queue := 3, launch := 0, timed := false, compl := false, keep := false, ctrain := 0 }, miss := false, since := 0, retries := 0, rec' := none, promo := false }])] } }).setTile 5 { tile0 with words := [0, 0, 0, 0, 0, 0, 0, 0, 0, 0, 0, 1, 7, 3, 0xB5] }, 5, 9, 4, { out := { handle := 7, dest := 2, queue := 3, launch := 0, timed := false, compl := false, keep := false, ctrain := 0 }, miss := false, since := 0, retries := 0, rec' := none, promo := false }, -300, by decide⟩,
   ⟨{ ((fun s : State => s.poke (squareAt 9) (toLE 8 (3 * 2 ^ 27 + 9 * 2 ^ 30 + 3 * 2 ^ 40 + 0 * 2 ^ 58 + 2 ^ 63))) ((upAir.set (F.CTRL_ENABLE W.MLC) 1).set (F.MLC_TILE_CH0_CH0 5) 868300)) with mlc := { up.mlc with plan := [(5, 4, 9)], mute := true }, mn := up.mn }, 5, 9, 4, by decide⟩,
   ⟨(((({ ((fun s : State => s.poke (squareAt 9) (toLE 8 (3 * 2 ^ 27 + 9 * 2 ^ 30 + 3 * 2 ^ 40 + 0 * 2 ^ 58 + 2 ^ 63))) ((upAir.set (F.CTRL_ENABLE W.MLC) 1).set (F.MLC_TILE_CH0_CH0 5) 868300)) with mlc := { up.mlc with plan := [(5, 4, 9)] }, mn := up.mn }).setTile 5 { tile0 with words := [0, 0, 0, 0, 0, 0, 0x13000000, 0x13001000, 0, 0, 20] }).set F.CPL_STAT_STATE 3).set F.CPL_LEND_MT1 1), 5, 9, 4, by decide⟩,
   ⟨{ ((fun s : State => s.poke (squareAt 9) (toLE 8 (3 * 2 ^ 27 + 9 * 2 ^ 30 + 3 * 2 ^ 40 + 0 * 2 ^ 58 + 2 ^ 63))) ((upAir.set (F.CTRL_ENABLE W.MLC) 1).set (F.MLC_TILE_CH0_CH0 5) 868300)) with mlc := { up.mlc with plan := [(5, 4, 9)] }, mn := up.mn }, 5, 9, 4, by decide⟩,
   ⟨(up.set (F.MLC_TILE_CTL_FOLLOW 5) 1).setTile 5 { tile0 with eb := some 100, ea := some (-41) }, 5, 9, 100, -41, by decide⟩,
   ⟨((({ { ((fun s : State => s.poke (squareAt 9) (toLE 8 (4 * 2 ^ 27 + 9 * 2 ^ 30 + 3 * 2 ^ 40 + 0 * 2 ^ 58 + 2 ^ 63))) ((upAir.set (F.CTRL_ENABLE W.MLC) 1).set (F.MLC_TILE_CH0_CH0 5) 868300)) with mlc := { up.mlc with plan := [(5, 4, 9)] }, mn := up.mn } with mphy := { upAir.mphy with win := [(0, (860000, 880000))] } }).set F.CPL_STAT_STATE 3).set F.CPL_LEND_MT1 1), 5, 9, 4, by decide⟩,
   ⟨{ (up.set (F.CTRL_ENABLE W.MLC) 1) with mphy := { up.mphy with handed := [{ lis := 9, aerial := 0, asn := { tile := 2, freq := 868300, mode := 0, opn := 0, cls := 9000000, square := 5, asn := 77 }, buf := 1, trn := 0, stamp := 65536000, incr := 0, fcslen := true, snr := 40, fofs := 0, fosat := false, rssi := -300, ended := 4000, psdu := [1, 0, 7, 4, 5], jd := none }] } }, 9, { lis := 9, aerial := 0, asn := { tile := 2, freq := 868300, mode := 0, opn := 0, cls := 9000000, square := 5, asn := 77 }, buf := 1, trn := 0, stamp := 65536000, incr := 0, fcslen := true, snr := 40, fofs := 0, fosat := false, rssi := -300, ended := 4000, psdu := [1, 0, 7, 4, 5], jd := none }, by decide⟩,
   ⟨{ (up.set (F.CTRL_ENABLE W.MLC) 1) with mphy := { up.mphy with handed := [{ lis := 9, aerial := 0, asn := { tile := 2, freq := 868300, mode := 0, opn := 0, cls := 9000000, square := 5, asn := 77 }, buf := 1, trn := 0, stamp := 65536000, incr := 0, fcslen := true, snr := 40, fofs := 0, fosat := false, rssi := -300, ended := 4000, psdu := (fcsAppend false [1, 0, 7]), jd := none }] } }, 9, { lis := 9, aerial := 0, asn := { tile := 2, freq := 868300, mode := 0, opn := 0, cls := 9000000, square := 5, asn := 77 }, buf := 1, trn := 0, stamp := 65536000, incr := 0, fcslen := true, snr := 40, fofs := 0, fosat := false, rssi := -300, ended := 4000, psdu := (fcsAppend false [1, 0, 7]), jd := none }, by decide⟩⟩

/-- Every clause of NodeCommands with hypotheses is met. -/
theorem witness_NodeCommands :
    (∃ (s : State) (l : List Nat), s.winOn W.MNODE = true ∧ s.mn.cmd = some (1, l)
      ∧ kget s.mn.idx (l.getD 0 0 + l.getD 1 0 * 2 ^ 32) = none ∧ bitOf (l.getD 2 0) 3 = false ∧ s.ram.ue = []) ∧
    (∃ (s : State) (l : List Nat) (i : Nat) (x : Nat), s.winOn W.MNODE = true ∧ s.mn.cmd = some (1, l)
      ∧ kget s.mn.idx (l.getD 0 0 + l.getD 1 0 * 2 ^ 32) = none ∧ bitOf (l.getD 2 0) 3 = false ∧ s.ram.ue = [] ∧ i < 262144
      ∧ s.recState i = 0 ∧ s.mn.lost.contains i = false ∧ x < 0xFFFE ∧ s.addrFree (bitsOf (l.getD 2 0) 0 3) x = true) ∧
    (∃ (s : State) (l : List Nat) (i : Nat), s.winOn W.MNODE = true ∧ s.mn.cmd = some (1, l)
      ∧ kget s.mn.idx (l.getD 0 0 + l.getD 1 0 * 2 ^ 32) = some i ∧ s.ram.ue = [] ∧ s.recF i 2 16 3 = bitsOf (l.getD 2 0) 0 3
      ∧ s.recState i = 1) ∧
    (∃ (s : State) (l : List Nat) (i : Nat), s.winOn W.MNODE = true ∧ s.mn.cmd = some (1, l)
      ∧ kget s.mn.idx (l.getD 0 0 + l.getD 1 0 * 2 ^ 32) = some i ∧ s.ram.ue = [] ∧ s.recF i 2 16 3 ≠ bitsOf (l.getD 2 0) 0 3) ∧
    (∃ (s : State) (l : List Nat) (i : Nat), s.winOn W.MNODE = true ∧ s.mn.cmd = some (2, l) ∧ l.getD 0 0 % 2 ^ 18 = i ∧ s.ram.ue = []
      ∧ s.mn.lost.contains i = false ∧ s.recState i = 1 ∧ s.nodeQ i = []) ∧
    (∃ (s : State) (l : List Nat) (i : Nat), s.winOn W.MNODE = true ∧ s.mn.cmd = some (2, l) ∧ l.getD 0 0 % 2 ^ 18 = i ∧ s.ram.ue = []
      ∧ s.mn.lost.contains i = false ∧ s.recState i ≠ 1) ∧
    (∃ (s : State) (l : List Nat) (i : Nat), s.winOn W.MNODE = true ∧ s.mn.cmd = some (3, l) ∧ l.getD 0 0 % 2 ^ 18 = i ∧ s.ram.ue = []) ∧
    (∃ (s : State) (l : List Nat) (i : Nat), s.winOn W.MNODE = true ∧ s.mn.cmd = some (4, l) ∧ l.getD 0 0 % 2 ^ 18 = i ∧ s.ram.ue = []
      ∧ s.recState i = 1) ∧
    (∃ (s : State) (l : List Nat) (i : Nat), s.winOn W.MNODE = true ∧ s.mn.cmd = some (5, l)
      ∧ kget s.mn.idx (l.getD 0 0 + l.getD 1 0 * 2 ^ 32) = some i ∧ s.ram.ue = [] ∧ i < 2 ^ 18) ∧
    (∃ (s : State) (l : List Nat), s.winOn W.MNODE = true ∧ s.mn.cmd = some (5, l)
      ∧ kget s.mn.idx (l.getD 0 0 + l.getD 1 0 * 2 ^ 32) = none) ∧
    (∃ (s : State) (l : List Nat) (i : Nat) (x : Nat), s.winOn W.MNODE = true ∧ s.mn.cmd = some (6, l)
      ∧ s.mapE (bitsOf (l.getD 0 0) 16 3) (l.getD 0 0 % 65536) = x ∧ bitsOf x 30 2 ≠ 0 ∧ x % 2 ^ 18 = i ∧ s.ram.ue = []) ∧
    (∃ (s : State) (l : List Nat), s.winOn W.MNODE = true ∧ s.mn.cmd = some (6, l)
      ∧ bitsOf (s.mapE (bitsOf (l.getD 0 0) 16 3) (l.getD 0 0 % 65536)) 30 2 = 0) ∧
    (∃ (s : State) (l : List Nat) (i : Nat), s.winOn W.MNODE = true ∧ s.mn.cmd = some (7, l) ∧ l.getD 0 0 % 2 ^ 18 = i ∧ s.ram.ue = []
      ∧ s.nodeQ i = []) ∧
    (∃ (s : State) (l : List Nat) (i : Nat) (e : QEnt), s.winOn W.MNODE = true ∧ s.mn.cmd = some (7, l) ∧ l.getD 0 0 % 2 ^ 18 = i
      ∧ s.ram.ue = [] ∧ s.mn.q = [(i, [e])] ∧ s.mn.sq = [] ∧ e.out.compl = false) ∧
    (∃ (s : State) (l : List Nat) (i : Nat), s.winOn W.MNODE = true ∧ s.mn.cmd = some (8, l) ∧ l.getD 0 0 % 2 ^ 18 = i ∧ s.ram.ue = []
      ∧ l.getD 1 0 < 2 ^ 32 ∧ s.tbl 0 + 2 ^ 24 ≤ s.tbl 1 ∧ s.tbl 1 + 2 ^ 24 ≤ 0x8400000000 ∧ inDram (s.tbl 0) = true
      ∧ s.mirrorOf (s.recAddr 0 i + 56) = none ∧ s.mirrorOf (s.recAddr 1 i + 56) = none) :=
  ⟨⟨{ (up.sets [(F.MNODE_TBL0HI_ADDR, 0x80), (F.MNODE_TBL1HI_ADDR, 0x82), (F.MNODE_CMD_CBUSY, 1)]) with mn := { up.mn with cmd := some (1, [7, 9, 5 + 2 ^ 4, 0]) } }, [7, 9, 5 + 2 ^ 4, 0], by decide⟩,
   ⟨{ (up.sets [(F.MNODE_TBL0HI_ADDR, 0x80), (F.MNODE_TBL1HI_ADDR, 0x82), (F.MNODE_CMD_CBUSY, 1)]) with mn := { up.mn with cmd := some (1, [7, 9, 5 + 2 ^ 4, 0]) } }, [7, 9, 5 + 2 ^ 4, 0], 262143, 0xFFFD, by decide⟩,
   ⟨{ (((up.sets [(F.MNODE_TBL0HI_ADDR, 0x80), (F.MNODE_TBL1HI_ADDR, 0x82), (F.MNODE_CMD_CBUSY, 1)]).pokeN (0x8000000000 + 64 * 3 + 8) 4 (0x1234 + 5 * 2 ^ 16 + 2 ^ 19)).pokeN (0x8000000000 + 64 * 3 + 12) 4 0x50000) with mn := { up.mn with cmd := some (1, [7, 9, 5, 0]), idx := [(7 + 9 * 2 ^ 32, 3)] } }, [7, 9, 5, 0], 3, by decide⟩,
   ⟨{ (((up.sets [(F.MNODE_TBL0HI_ADDR, 0x80), (F.MNODE_TBL1HI_ADDR, 0x82), (F.MNODE_CMD_CBUSY, 1)]).pokeN (0x8000000000 + 64 * 3 + 8) 4 (0x1234 + 5 * 2 ^ 16 + 2 ^ 19)).pokeN (0x8000000000 + 64 * 3 + 12) 4 0x50000) with mn := { up.mn with cmd := some (1, [7, 9, 4, 0]), idx := [(7 + 9 * 2 ^ 32, 3)] } }, [7, 9, 4, 0], 3, by decide⟩,
   ⟨{ (((up.sets [(F.MNODE_TBL0HI_ADDR, 0x80), (F.MNODE_TBL1HI_ADDR, 0x82), (F.MNODE_CMD_CBUSY, 1)]).pokeN (0x8000000000 + 64 * 3 + 8) 4 (0x1234 + 5 * 2 ^ 16 + 2 ^ 19)).pokeN (0x8000000000 + 64 * 3 + 12) 4 0x50000) with mn := { up.mn with cmd := some (2, [3]) } }, [3], 3, by decide⟩,
   ⟨{ (up.sets [(F.MNODE_TBL0HI_ADDR, 0x80), (F.MNODE_TBL1HI_ADDR, 0x82), (F.MNODE_CMD_CBUSY, 1)]) with mn := { up.mn with cmd := some (2, [3]) } }, [3], 3, by decide⟩,
   ⟨{ (((up.sets [(F.MNODE_TBL0HI_ADDR, 0x80), (F.MNODE_TBL1HI_ADDR, 0x82), (F.MNODE_CMD_CBUSY, 1)]).pokeN (0x8000000000 + 64 * 3 + 8) 4 (0x1234 + 5 * 2 ^ 16 + 2 ^ 19)).pokeN (0x8000000000 + 64 * 3 + 12) 4 0x50000) with mn := { up.mn with cmd := some (3, [3]) } }, [3], 3, by decide⟩,
   ⟨{ (((up.sets [(F.MNODE_TBL0HI_ADDR, 0x80), (F.MNODE_TBL1HI_ADDR, 0x82), (F.MNODE_CMD_CBUSY, 1)]).pokeN (0x8000000000 + 64 * 3 + 8) 4 (0x1234 + 5 * 2 ^ 16 + 2 ^ 19)).pokeN (0x8000000000 + 64 * 3 + 12) 4 0x50000) with mn := { up.mn with cmd := some (4, [3, 0xABC]) }, mlc := { up.mlc with known := [(3, 1)] } }, [3, 0xABC], 3, by decide⟩,
   ⟨{ (((up.sets [(F.MNODE_TBL0HI_ADDR, 0x80), (F.MNODE_TBL1HI_ADDR, 0x82), (F.MNODE_CMD_CBUSY, 1)]).pokeN (0x8000000000 + 64 * 3 + 8) 4 (0x1234 + 5 * 2 ^ 16 + 2 ^ 19)).pokeN (0x8000000000 + 64 * 3 + 12) 4 0x50000) with mn := { up.mn with cmd := some (5, [7, 9]), idx := [(7 + 9 * 2 ^ 32, 3)] } }, [7, 9], 3, by decide⟩,
   ⟨{ (up.sets [(F.MNODE_TBL0HI_ADDR, 0x80), (F.MNODE_TBL1HI_ADDR, 0x82), (F.MNODE_CMD_CBUSY, 1)]) with mn := { up.mn with cmd := some (5, [7, 9]) } }, [7, 9], by decide⟩,
   ⟨{ ((((up.sets [(F.MNODE_TBL0HI_ADDR, 0x80), (F.MNODE_TBL1HI_ADDR, 0x82), (F.MNODE_CMD_CBUSY, 1)]).pokeN (0x8000000000 + 64 * 3 + 8) 4 (0x1234 + 5 * 2 ^ 16 + 2 ^ 19)).pokeN (0x8000000000 + 64 * 3 + 12) 4 0x50000).setMap 5 0x1234 (mapWord 3 5 false true)) with mn := { up.mn with cmd := some (6, [0x51234]) } }, [0x51234], 3, mapWord 3 5 false true, by decide⟩,
   ⟨{ (up.sets [(F.MNODE_TBL0HI_ADDR, 0x80), (F.MNODE_TBL1HI_ADDR, 0x82), (F.MNODE_CMD_CBUSY, 1)]) with mn := { up.mn with cmd := some (6, [0x51234]) } }, [0x51234], by decide⟩,
   ⟨{ (((up.sets [(F.MNODE_TBL0HI_ADDR, 0x80), (F.MNODE_TBL1HI_ADDR, 0x82), (F.MNODE_CMD_CBUSY, 1)]).pokeN (0x8000000000 + 64 * 3 + 8) 4 (0x1234 + 5 * 2 ^ 16 + 2 ^ 19)).pokeN (0x8000000000 + 64 * 3 + 12) 4 0x50000) with mn := { up.mn with cmd := some (7, [3]) } }, [3], 3, by decide⟩,
   ⟨{ (((up.sets [(F.MNODE_TBL0HI_ADDR, 0x80), (F.MNODE_TBL1HI_ADDR, 0x82), (F.MNODE_CMD_CBUSY, 1)]).pokeN (0x8000000000 + 64 * 3 + 8) 4 (0x1234 + 5 * 2 ^ 16 + 2 ^ 19)).pokeN (0x8000000000 + 64 * 3 + 12) 4 0x50000) with mn := { up.mn with cmd := some (7, [3]), q := [(3, [{ out := { handle := 7, dest := 2, queue := 3, launch := 0, timed := false, compl := false, keep := false, ctrain := 0 }, miss := false, since := 5000000, retries := 0, rec' := none, promo := false }])] } }, [3], 3, { out := { handle := 7, dest := 2, queue := 3, launch := 0, timed := false, compl := false, keep := false, ctrain := 0 }, miss := false, since := 5000000, retries := 0, rec' := none, promo := false }, by decide⟩,
   ⟨{ (((up.sets [(F.MNODE_TBL0HI_ADDR, 0x80), (F.MNODE_TBL1HI_ADDR, 0x82), (F.MNODE_CMD_CBUSY, 1)]).pokeN (0x8000000000 + 64 * 3 + 8) 4 (0x1234 + 5 * 2 ^ 16 + 2 ^ 19)).pokeN (0x8000000000 + 64 * 3 + 12) 4 0x50000) with mn := { up.mn with cmd := some (8, [3, 0xCAFEF00D]) } }, [3, 0xCAFEF00D], 3, by decide⟩⟩

/-- Every clause of NodeUpkeep with hypotheses is met. -/
theorem witness_NodeUpkeep :
    (∃ (s : State) (i : Nat), s.winOn W.MNODE = true ∧ s.recState i = 2
      ∧ s.get F.MNODE_ADDRCFG_HOLDOFF ≤ (s.sec + 2 ^ 32 - s.recW i 12) % 2 ^ 32 ∧ s.ram.ue = [] ∧ s.mn.lost.contains i = false
      ∧ s.tbl 0 + 2 ^ 24 ≤ s.tbl 1 ∧ s.tbl 1 + 2 ^ 24 ≤ 0x8400000000 ∧ inDram (s.tbl 0) = true ∧ i < 262144) ∧
    (∃ (s : State) (i : Nat), s.ram.ue = [] ∧ (s.sec + 2 ^ 32 - s.recW i 12) % 2 ^ 32 < s.get F.MNODE_ADDRCFG_HOLDOFF) ∧
    (∃ (s : State) (i : Nat) (x : Nat) (e : QEnt), s.mn.q = [(x, [e])] ∧ s.mn.sq = [] ∧ e.out.handle = i ∧ e.out.compl = false
      ∧ s.get F.MNODE_DLCFG_TTL ≠ 0 ∧ e.since + s.get F.MNODE_DLCFG_TTL * 1000000000 ≤ s.ns
      ∧ s.get (mkF W.MNODE 0x124 0 31 0) < 2 ^ 31 - 1 ∧ s.ram.ue = []) ∧
    (∃ (s : State) (i : Nat) (e : QEnt), s.qFind i = some e ∧ (s.ns < e.since + s.get F.MNODE_DLCFG_TTL * 1000000000
      ∨ s.get F.MNODE_DLCFG_TTL = 0)) ∧
    (∃ (s : State) (a : Attr) (x : Nat), s.mn.todo = [a] ∧ s.mphy.handed = [] ∧ s.enabled W.MNODE = true ∧ s.ram.ue = []
      ∧ (s.findRec a.tile (mac154 a.psdu)).2 = x ∧ x ≠ 0) ∧
    (∃ (s : State) (a : Attr) (i : Nat), s.mn.todo = [a] ∧ s.mphy.handed = [] ∧ s.enabled W.MNODE = true ∧ s.ram.ue = []
      ∧ s.findRec a.tile (mac154 a.psdu) = (i, 0) ∧ s.mn.lost.contains i = false ∧ s.classP (mac154 a.psdu) = false
      ∧ (mac154 a.psdu).seq = none) ∧
    (∃ (s : State) (rq : Rq) (i : Nat) (x : Nat), rq.cls ≠ 3 ∧ inMap i = true ∧ 0 < x) :=
  ⟨⟨{ (((up.sets [(F.MNODE_TBL0HI_ADDR, 0x80), (F.MNODE_TBL1HI_ADDR, 0x82), (F.MNODE_CMD_CBUSY, 1)]).pokeN (0x8000000000 + 64 * 3 + 8) 4 (0x1234 + 5 * 2 ^ 16 + 2 * 2 ^ 19)).pokeN (0x8000000000 + 64 * 3 + 12) 4 0x50000) with tm := { up.tm with tb := 86400 * 1000000000 * 2 ^ 32 } }, 3, by decide⟩,
   ⟨(((up.sets [(F.MNODE_TBL0HI_ADDR, 0x80), (F.MNODE_TBL1HI_ADDR, 0x82), (F.MNODE_CMD_CBUSY, 1)]).pokeN (0x8000000000 + 64 * 3 + 8) 4 (0x1234 + 5 * 2 ^ 16 + 2 * 2 ^ 19)).pokeN (0x8000000000 + 64 * 3 + 12) 4 0x50000), 3, by decide⟩,
   ⟨{ (up.sets [(F.MNODE_TBL0HI_ADDR, 0x80), (F.MNODE_TBL1HI_ADDR, 0x82), (F.MNODE_CMD_CBUSY, 1)]) with mn := { up.mn with q := [(3, [{ out := { handle := 7, dest := 2, queue := 3, launch := 0, timed := false, compl := false, keep := false, ctrain := 0 }, miss := false, since := 5000000, retries := 0, rec' := none, promo := false }])] }, mlc := { up.mlc with pend := [(3, 1)] }, tm := { up.tm with tb := (86400 * 1000000000 + 5000000) * 2 ^ 32 } }, 7, 3, { out := { handle := 7, dest := 2, queue := 3, launch := 0, timed := false, compl := false, keep := false, ctrain := 0 }, miss := false, since := 5000000, retries := 0, rec' := none, promo := false }, by decide⟩,
   ⟨{ (up.sets [(F.MNODE_TBL0HI_ADDR, 0x80), (F.MNODE_TBL1HI_ADDR, 0x82), (F.MNODE_CMD_CBUSY, 1)]) with mn := { up.mn with q := [(3, [{ out := { handle := 7, dest := 2, queue := 3, launch := 0, timed := false, compl := false, keep := false, ctrain := 0 }, miss := false, since := 5000000, retries := 0, rec' := none, promo := false }])] } }, 7, { out := { handle := 7, dest := 2, queue := 3, launch := 0, timed := false, compl := false, keep := false, ctrain := 0 }, miss := false, since := 5000000, retries := 0, rec' := none, promo := false }, by decide⟩,
   ⟨{ ((up.sets [(F.MNODE_TBL0HI_ADDR, 0x80), (F.MNODE_TBL1HI_ADDR, 0x82), (F.MNODE_CMD_CBUSY, 1)]).set (F.CTRL_ENABLE W.MNODE) 1) with mn := { up.mn with todo := [{ wid := 3, lis := 9, tile := 2, stamp := 65536, asn := 77, d := 0, tc := 0, sample := false, ref := 0, mlc := none, fofs := 0, fosat := false, snr := 0, freq := 868300, rssi := -300, incr := 0, psdu := [1, 2, 3] }] } }, { wid := 3, lis := 9, tile := 2, stamp := 65536, asn := 77, d := 0, tc := 0, sample := false, ref := 0, mlc := none, fofs := 0, fosat := false, snr := 0, freq := 868300, rssi := -300, incr := 0, psdu := [1, 2, 3] }, 5, by decide⟩,
   ⟨{ ((((up.sets [(F.MNODE_TBL0HI_ADDR, 0x80), (F.MNODE_TBL1HI_ADDR, 0x82), (F.MNODE_CMD_CBUSY, 1)]).pokeN (0x8000000000 + 64 * 3 + 8) 4 (0x1234 + 5 * 2 ^ 16 + 2 ^ 19)).pokeN (0x8000000000 + 64 * 3 + 12) 4 0x50000).set (F.CTRL_ENABLE W.MNODE) 1).setMap 2 0x1234 (mapWord 3 5 false true) with mn := { up.mn with todo := [{ wid := 3, lis := 9, tile := 2, stamp := 65536, asn := 77, d := 0, tc := 0, sample := false, ref := 0, mlc := none, fofs := 0, fosat := false, snr := 0, freq := 868300, rssi := -300, incr := 0, psdu := [0x01, 0xA1, 0x34, 0x12, 0x34, 0x12] }] } }, { wid := 3, lis := 9, tile := 2, stamp := 65536, asn := 77, d := 0, tc := 0, sample := false, ref := 0, mlc := none, fofs := 0, fosat := false, snr := 0, freq := 868300, rssi := -300, incr := 0, psdu := [0x01, 0xA1, 0x34, 0x12, 0x34, 0x12] }, 3, by decide⟩,
   ⟨up, { cls := 0, num := 3 }, 0x13500000, 4, by decide⟩⟩

/-- Every clause of NodeRebuilds with hypotheses is met. -/
theorem witness_NodeRebuilds :
    (∃ (s : State) (rq : Rq), s.winOn W.MNODE = true ∧ s.busy W.MNODE = false ∧ s.get F.MNODE_REBCFG_MODE = 0) ∧
    (∃ (s : State) (rq : Rq), s.winOn W.MNODE = true ∧ s.busy W.MNODE = false ∧ s.get F.MNODE_REBCFG_MODE = 1) ∧
    (∃ (s : State) (rq : Rq), s.winOn W.MNODE = true ∧ s.busy W.MNODE = false ∧ s.get F.MNODE_REBCFG_MODE = 2 ∧ s.rebSrc % 64 = 0
      ∧ inDram s.rebSrc = true ∧ s.rebSrc + 64 * 262144 ≤ 0x8400000000 ∧ (∀ n ∈ List.range 8, s.on (F.MLC_TILE_CTL_EN n) = false)
      ∧ s.mn.q = [] ∧ s.mn.sq = []) ∧
    (∃ (s : State) (rq : Rq) (n : Nat), s.winOn W.MNODE = true ∧ s.busy W.MNODE = false ∧ s.get F.MNODE_REBCFG_MODE = 2
      ∧ s.rebSrc % 64 = 0 ∧ inDram s.rebSrc = true ∧ s.rebSrc + 64 * 262144 ≤ 0x8400000000 ∧ n < 8 ∧ s.on (F.MLC_TILE_CTL_EN n) = true) ∧
    (∃ (s : State) (rq : Rq), s.winOn W.MNODE = true ∧ s.busy W.MNODE = false ∧ s.get F.MNODE_REBCFG_MODE = 2 ∧ s.rebSrc % 64 ≠ 0) :=
  ⟨⟨up, { cls := 0, num := 3 }, by decide⟩,
   ⟨up.set F.MNODE_REBCFG_MODE 1, { cls := 0, num := 3 }, by decide⟩,
   ⟨up.sets [(F.MNODE_REBCFG_MODE, 2), (F.MNODE_REBSRCHI_ADDR, 0x83), (F.MNODE_REBSRCLO_ADDR, 0xFF000000)],
      { cls := 0, num := 3 }, by decide⟩,
   ⟨up.sets [(F.MNODE_REBCFG_MODE, 2), (F.MNODE_REBSRCHI_ADDR, 0x80), (F.MLC_TILE_CTL_EN 6, 1), (F.MLC_TILE_CTL_FOLLOW 6, 1)],
      { cls := 0, num := 3 }, 6, by decide⟩,
   ⟨up.sets [(F.MNODE_REBCFG_MODE, 2), (F.MNODE_REBSRCHI_ADDR, 0x80), (F.MNODE_REBSRCLO_ADDR, 32)], { cls := 0, num := 3 }, by decide⟩⟩

/-- Every clause of WlanReceiver with hypotheses is met. -/
theorem witness_WlanReceiver :
    (∃ (s : State) (r : Nat) (p : Int), s.wrxRuns r = true ∧ (s.wrx r).st = 0 ∧ s.pdThr r ≤ p) ∧
    (∃ (s : State) (r : Nat) (p : Int), p < s.pdThr r) ∧
    (∃ (s : State) (r : Nat), s.wrxRuns r = true ∧ (s.wrx r).st = 1) ∧
    (∃ (s : State) (r : Nat), (s.wrx r).st = 1) ∧
    (∃ (s : State) (r : Nat) (d : Nat) (n : Nat), (s.wrx r).st = 2) ∧
    (∃ (s : State) (r : Nat) (h : Bool) (d : Nat) (n : Nat), (s.wrx r).st = 2) ∧
    (∃ (s : State) (r : Nat) (f : Nat) (g : Sig) (m : Bool) (b : Bool) (d : Nat) (n : Nat), (s.wrx r).st = 3
      ∧ (g.ok = false ∨ featOk r f g = false)) ∧
    (∃ (s : State) (r : Nat) (f : Nat) (g : Sig) (b : Bool) (d : Nat) (n : Nat), (s.wrx r).st = 3 ∧ g.ok = true ∧ featOk r f g = true
      ∧ wRxFmt r f = true ∧ d ≤ 5484000) ∧
    (∃ (s : State) (r : Nat) (f : Nat) (g : Sig) (d : Nat) (n : Nat), (s.wrx r).st = 3 ∧ g.ok = true ∧ featOk r f g = true
      ∧ wRxFmt r f = true ∧ d ≤ 5484000 ∧ 0 < s.bufFree (classFor n) ∧ kget s.ram.pool (s.bufHandle (classFor n) 0) = none
      ∧ s.enabled W.YARD = true ∧ s.resvAll < s.slotsFree ∧ s.trainRoom (s.origTrain (8 + r)) = true) ∧
    (∃ (s : State) (r : Nat) (f : Nat) (g : Sig) (d : Nat) (n : Nat), (s.wrx r).st = 3 ∧ g.ok = true ∧ featOk r f g = true
      ∧ wRxFmt r f = true ∧ d ≤ 5484000 ∧ (∀ k ∈ List.range 4, s.bufFree k = 0)) ∧
    (∃ (s : State) (r : Nat) (h : Nat), (s.wrx r).st = 4 ∧ (s.wrx r).buf = some h ∧ s.bufAimed h = false) ∧
    (∃ (s : State) (r : Nat) (h : Nat) (d : List Byte) (q : WRep), (s.wrx r).st = 4 ∧ (s.wrx r).buf = some h
      ∧ s.resvFits h d.length = true ∧ 14 ≤ d.length ∧ d.length ≤ (fmtMax (s.wrx r).fmt).1 ∧ mpduOk d = true
      ∧ bitOf (d.getD 1 0).toNat 6 = false ∧ s.yard.wagons.length < 65536 ∧ (∀ e ∈ s.yard.wagons, e.1 < 65536)) ∧
    (∃ (s : State) (r : Nat) (p : Int) (h : Nat), (s.wrx r).st = 4 ∧ (s.wrx r).tb = false ∧ (s.wrx r).buf = some h
      ∧ s.get (F.WPHY_RXCFG_MARGIN r) ≠ 0 ∧ (s.wrx r).power + 2 * s.get (F.WPHY_RXCFG_MARGIN r) ≤ p
      ∧ s.on (F.WPHY_RXCFG_RESTARTSPAN r) = true ∧ s.bufAimed h = false) ∧
    (∃ (s : State) (r : Nat) (p : Int), (s.wrx r).st = 2 ∧ p < (s.wrx r).power + 2 * s.get (F.WPHY_RXCFG_MARGIN r)) :=
  ⟨⟨((up.set (F.CTRL_ENABLE (W.WPHY 2)) 1).set (F.RFE_PATHSTAT_STATE 2 0) 3), 2, -328, by decide⟩,
   ⟨((up.set (F.CTRL_ENABLE (W.WPHY 2)) 1).set (F.RFE_PATHSTAT_STATE 2 0) 3), 2, -329, by decide⟩,
   ⟨(((up.set (F.CTRL_ENABLE (W.WPHY 1)) 1).set (F.RFE_PATHSTAT_STATE 1 0) 3).setWrx 1 { wrx0 with st := 1 }), 1, by decide⟩,
   ⟨(((up.set (F.CTRL_ENABLE (W.WPHY 1)) 1).set (F.RFE_PATHSTAT_STATE 1 0) 3).setWrx 1 { wrx0 with st := 1 }), 1, by decide⟩,
   ⟨(((up.set (F.CTRL_ENABLE (W.WPHY 0)) 1).set (F.RFE_PATHSTAT_STATE 0 0) 3).setWrx 0 { wrx0 with st := 2 }),
      0, 5484000, 4095, by decide⟩,
   ⟨(((up.set (F.CTRL_ENABLE (W.WPHY 0)) 1).set (F.RFE_PATHSTAT_STATE 0 0) 3).setWrx 0 { wrx0 with st := 2 }),
      0, true, 5484000, 4095, by decide⟩,
   ⟨(((up.set (F.CTRL_ENABLE (W.WPHY 0)) 1).set (F.RFE_PATHSTAT_STATE 0 0) 3).setWrx 0 { wrx0 with st := 3 }),
      0, 4, { ok := false, mcs := 7, nss := 2, dcm := false, ldpc := true, stbc := false, tones := 242, punc := 0, random := false, shared := false }, true, false, 5484000, 4095, by decide⟩,
   ⟨(((up.set (F.CTRL_ENABLE (W.WPHY 0)) 1).set (F.RFE_PATHSTAT_STATE 0 0) 3).setWrx 0 { wrx0 with st := 3 }),
      0, 4, { ok := true, mcs := 7, nss := 2, dcm := false, ldpc := true, stbc := false, tones := 242, punc := 0, random := false, shared := false }, false, 5484000, 4095, by decide⟩,
   ⟨(((((up.set (F.CTRL_ENABLE (W.WPHY 1)) 1).set (F.RFE_PATHSTAT_STATE 1 0) 3).setWrx 1 { wrx0 with st := 3 })).set (F.CTRL_ENABLE W.YARD) 1), 1, 7, { ok := true, mcs := 7, nss := 2, dcm := false, ldpc := true, stbc := false, tones := 242, punc := 0, random := false, shared := false }, 5484000, 4095, by decide⟩,
   ⟨(fun s => { s with ram := { s.ram with counts := [0, 0, 0, 0] } }) (((up.set (F.CTRL_ENABLE (W.WPHY 1)) 1).set (F.RFE_PATHSTAT_STATE 1 0) 3).setWrx 1 { wrx0 with st := 3 }), 1, 7, { ok := true, mcs := 7, nss := 2, dcm := false, ldpc := true, stbc := false, tones := 242, punc := 0, random := false, shared := false }, 5484000, 4095, by decide⟩,
   ⟨(fun s => { s with ram := { s.ram with pool := [(7, 1)] } }) (((up.set (F.CTRL_ENABLE (W.WPHY 2)) 1).set (F.RFE_PATHSTAT_STATE 2 0) 3).setWrx 2 { wrx0 with st := 4, buf := some 7 }), 2, 7, by decide⟩,
   ⟨(fun s => { s with ram := { s.ram with pool := [(7, 1)] } }) (((up.set (F.CTRL_ENABLE (W.WPHY 2)) 1).set (F.RFE_PATHSTAT_STATE 2 0) 3).setWrx 2 { wrx0 with st := 4, buf := some 7, fmt := 4 }), 2, 7, (let l : List Byte := [0x08, 0x01] ++ List.replicate 8 0x55; l ++ toLE 4 (crc32 l)), { fmt := 4, bw := 1, mcs := 7, nss := 2, gi := 1, aid := 0, color := 3, rssi := -240, nf := -380, snr := 140, evm := -120, fofs := 100 }, by decide⟩,
   ⟨((((up.set (F.CTRL_ENABLE (W.WPHY 2)) 1).set (F.RFE_PATHSTAT_STATE 2 0) 3).set (F.WPHY_RXCFG_RESTARTSPAN 2) 1).setWrx 2 { wrx0 with st := 4, buf := some 7, power := -300 }), 2, -284, 7, by decide⟩,
   ⟨(((up.set (F.CTRL_ENABLE (W.WPHY 2)) 1).set (F.RFE_PATHSTAT_STATE 2 0) 3).setWrx 2 { wrx0 with st := 2, power := -300 }),
      2, -285, by decide⟩⟩

/-- Every clause of GrantsAndChannels with hypotheses is met. -/
theorem witness_GrantsAndChannels :
    (∃ (s : State) (i : Nat), bitOf (s.grantW i 0) 16 = true ∧ s.grantEnd i ≤ s.sec) ∧
    (∃ (s : State) (i : Nat), s.sec < s.grantEnd i) ∧
    (∃ (s : State) (rq : Rq) (r : Nat) (v : Word), r < 3 ∧ s.winOn (W.WPHY r) = true ∧ (rq.cls = 2 → s.dbgLevel = 2)
      ∧ v.toNat / 2 ^ 14 % 2 = 1 ∧ v.toNat / 2 ^ 12 % 4 = 2 ∧ 0x13000000 ≤ s.get (F.WPHY_EQADDR_ADDR r)
      ∧ s.get (F.WPHY_EQADDR_ADDR r) % 8 = 0 ∧ s.get (F.WPHY_EQADDR_ADDR r) + 127488 ≤ 0x14000000) ∧
    (∃ (s : State) (rq : Rq) (r : Nat) (v : Word), r < 3 ∧ s.winOn (W.WPHY r) = true ∧ (rq.cls = 2 → s.dbgLevel = 2)
      ∧ v.toNat / 2 ^ 14 % 2 = 1 ∧ s.get (F.WPHY_EQADDR_ADDR r) < 0x13000000 ∧ s.on (F.ERRINFO_VALID (W.WPHY r)) = false) ∧
    (∃ (s : State) (rq : Rq) (r : Nat) (v : Word), r < 3 ∧ s.winOn (W.WPHY r) = true ∧ (rq.cls = 2 → s.dbgLevel = 2) ∧ v.toNat % 2 = 1
      ∧ chanOk r (s.get (F.WPHY_CHANSTAGE_PRIMARY r)) (s.get (F.WPHY_CHANSTAGE_WIDTH r)) = false) ∧
    (∃ (s : State) (rq : Rq) (r : Nat) (v : Word), r < 3 ∧ s.winOn (W.WPHY r) = true ∧ (rq.cls = 2 → s.dbgLevel = 2) ∧ v.toNat % 2 = 1
      ∧ chanOk r (s.get (F.WPHY_CHANSTAGE_PRIMARY r)) (s.get (F.WPHY_CHANSTAGE_WIDTH r)) = true
      ∧ s.get (F.WPHY_CHANSTAGE_DISSUB r) = 0 ∧ s.lim.img = none
      ∧ (s.calFind r 0 (chanKHz r (s.stageN r)) (s.get (F.WPHY_CHANSTAGE_WIDTH r))).isSome = true) ∧
    (∃ (s : State) (r : Nat) (x : Nat) (i : Nat), r < 3 ∧ s.on (F.WPHY_CHANCTL_PENDING r) = true ∧ s.winOn (W.WPHY r) = true
      ∧ (s.wmac r).hold ≤ s.ns ∧ (s.wrx r).st = 0 ∧ (s.path r 0).txs = [] ∧ kget s.wl.stage r = some x
      ∧ s.calFind r 0 (chanKHz r (x / 2 ^ 32)) (bitsOf (x % 2 ^ 32) 8 3) = some i) :=
  ⟨⟨up.setWl { up.wl with grants := [(31, [0x10501, 5, 0, 0])] }, 31, by decide⟩,
   ⟨up.setWl { up.wl with grants := [(31, [0x10501, 5, 1, 0])] }, 31, by decide⟩,
   ⟨up.set (F.WPHY_EQADDR_ADDR 2) 0x13FE0E00, { cls := 0, num := 3 }, 2, 0x6007#32, by decide⟩,
   ⟨up.set (F.WPHY_EQADDR_ADDR 2) 0x12FFFFF8, { cls := 0, num := 3 }, 2, 0x6007#32, by decide⟩,
   ⟨up.set (F.WPHY_CHANSTAGE_PRIMARY 2) 235, { cls := 0, num := 3 }, 2, 1#32, by decide⟩,
   ⟨up.setCalW 1 5 0 (5180000 + 2 ^ 26), { cls := 0, num := 3 }, 1, 1#32, by decide⟩,
   ⟨((up.set (F.WPHY_CHANCTL_PENDING 1) 1).setWl { up.wl with stage := [(1, 36 + 36 * 2 ^ 32)] }).setCalW 1 5 0 (5180000 + 2 ^ 26),
      1, 36 + 36 * 2 ^ 32, 5, by decide⟩⟩

/-- Every clause of StationCommands with hypotheses is met. -/
theorem witness_StationCommands :
    (∃ (s : State) (l : List Nat), s.winOn W.MLD = true ∧ s.wl.cmd = some (1, l) ∧ 0 < bitsOf (l.getD 1 0) 16 11
      ∧ bitsOf (l.getD 1 0) 16 11 ≤ 2006 ∧ bitsOf (l.getD 2 0) 0 2 ≠ 3 ∧ s.wl.sta = []) ∧
    (∃ (s : State) (l : List Nat) (i : Nat) (x : StaS), s.winOn W.MLD = true ∧ s.wl.cmd = some (1, l) ∧ 0 < bitsOf (l.getD 1 0) 16 11
      ∧ bitsOf (l.getD 1 0) 16 11 ≤ 2006 ∧ bitsOf (l.getD 2 0) 0 2 ≠ 3 ∧ (i, x) ∈ s.wl.sta ∧ x.aid = bitsOf (l.getD 1 0) 16 11) ∧
    (∃ (s : State) (l : List Nat), s.winOn W.MLD = true ∧ s.wl.cmd = some (1, l) ∧ bitsOf (l.getD 1 0) 16 11 = 0) ∧
    (∃ (s : State) (l : List Nat) (x : StaS), s.winOn W.MLD = true ∧ s.wl.cmd = some (2, l)
      ∧ kget s.wl.sta (l.getD 0 0 % 1024) = some x ∧ s.wl.q = [] ∧ s.wl.timed = [] ∧ s.wl.twt = []) ∧
    (∃ (s : State) (l : List Nat), s.winOn W.MLD = true ∧ s.wl.cmd = some (2, l) ∧ kget s.wl.sta (l.getD 0 0 % 1024) = none) ∧
    (∃ (s : State) (l : List Nat) (x : StaS), s.winOn W.MLD = true ∧ s.wl.cmd = some (3, l)
      ∧ kget s.wl.sta (l.getD 0 0 % 1024) = some x ∧ x.mld = true ∧ bitsOf (l.getD 2 0) 16 2 ≠ 3
      ∧ kget x.links (bitsOf (l.getD 2 0) 16 2) = none ∧ s.linksOf (bitsOf (l.getD 2 0) 16 2) < 512) ∧
    (∃ (s : State) (l : List Nat) (x : StaS), s.winOn W.MLD = true ∧ s.wl.cmd = some (3, l)
      ∧ kget s.wl.sta (l.getD 0 0 % 1024) = some x ∧ (kget x.links (bitsOf (l.getD 2 0) 16 2)).isSome = true) ∧
    (∃ (s : State) (l : List Nat) (x : StaS), s.winOn W.MLD = true ∧ s.wl.cmd = some (4, l)
      ∧ kget s.wl.sta (l.getD 0 0 % 1024) = some x ∧ (∀ n ∈ List.range 8,
      ∃ r ∈ List.range 3, bitOf (l.getD 1 0 % 2 ^ 24) (3 * n + r) = true ∧ (kget x.links r).isSome = true)) ∧
    (∃ (s : State) (l : List Nat) (n : Nat) (e : WEnt), s.winOn W.MLD = true ∧ s.wl.cmd = some (5, l)
      ∧ s.wl.q = [(16 * (l.getD 0 0 % 1024) + n, [e])] ∧ n < 16 ∧ s.wl.grp = [] ∧ e.out.compl = false) ∧
    (∃ (s : State) (l : List Nat), s.winOn W.MLD = true ∧ s.wl.cmd = some (5, l) ∧ s.wl.q = []) :=
  ⟨⟨(up.set F.MLD_STACMD_CBUSY 1).setWl { up.wl with cmd := some (1, [0x33445566, 0x1122 + 9 * 2 ^ 16, 1 + 3 * 4, 0]) },
      [0x33445566, 0x1122 + 9 * 2 ^ 16, 1 + 3 * 4, 0], by decide⟩,
   ⟨(up.set F.MLD_STACMD_CBUSY 1).setWl { up.wl with cmd := some (1, [1, 7 * 2 ^ 16, 0, 0]), sta := [(2, { addr := 0x112233445566, aid := 7, links := [(1, (0x112233445566, 3))], train := 5, mld := true, twtmem := false, emlsr := false, caps := 8, map := none, snr := [], fed := [], adj := [], good := [], bsr := [], ps := false })] }, [1, 7 * 2 ^ 16, 0, 0], 2, { addr := 0x112233445566, aid := 7, links := [(1, (0x112233445566, 3))], train := 5, mld := true, twtmem := false, emlsr := false, caps := 8, map := none, snr := [], fed := [], adj := [], good := [], bsr := [], ps := false }, by decide⟩,
   ⟨(up.set F.MLD_STACMD_CBUSY 1).setWl { up.wl with cmd := some (1, [1, 7, 0, 0]) }, [1, 7, 0, 0], by decide⟩,
   ⟨(up.set F.MLD_STACMD_CBUSY 1).setWl { up.wl with cmd := some (2, [2]), sta := [(2, { addr := 0x112233445566, aid := 7, links := [(1, (0x112233445566, 3))], train := 5, mld := true, twtmem := false, emlsr := false, caps := 8, map := none, snr := [], fed := [], adj := [], good := [], bsr := [], ps := false })] }, [2], { addr := 0x112233445566, aid := 7, links := [(1, (0x112233445566, 3))], train := 5, mld := true, twtmem := false, emlsr := false, caps := 8, map := none, snr := [], fed := [], adj := [], good := [], bsr := [], ps := false }, by decide⟩,
   ⟨(up.set F.MLD_STACMD_CBUSY 1).setWl { up.wl with cmd := some (2, [2]) }, [2], by decide⟩,
   ⟨(up.set F.MLD_STACMD_CBUSY 1).setWl { up.wl with cmd := some (3, [2, 5, 2 * 2 ^ 16]), sta := [(2, { addr := 0x112233445566, aid := 7, links := [(1, (0x112233445566, 3))], train := 5, mld := true, twtmem := false, emlsr := false, caps := 8, map := none, snr := [], fed := [], adj := [], good := [], bsr := [], ps := false })] }, [2, 5, 2 * 2 ^ 16], { addr := 0x112233445566, aid := 7, links := [(1, (0x112233445566, 3))], train := 5, mld := true, twtmem := false, emlsr := false, caps := 8, map := none, snr := [], fed := [], adj := [], good := [], bsr := [], ps := false }, by decide⟩,
   ⟨(up.set F.MLD_STACMD_CBUSY 1).setWl { up.wl with cmd := some (3, [2, 5, 1 * 2 ^ 16]), sta := [(2, { addr := 0x112233445566, aid := 7, links := [(1, (0x112233445566, 3))], train := 5, mld := true, twtmem := false, emlsr := false, caps := 8, map := none, snr := [], fed := [], adj := [], good := [], bsr := [], ps := false })] }, [2, 5, 1 * 2 ^ 16], { addr := 0x112233445566, aid := 7, links := [(1, (0x112233445566, 3))], train := 5, mld := true, twtmem := false, emlsr := false, caps := 8, map := none, snr := [], fed := [], adj := [], good := [], bsr := [], ps := false }, by decide⟩,
   ⟨(up.set F.MLD_STACMD_CBUSY 1).setWl { up.wl with cmd := some (4, [2, 0xFFFFFF]), sta := [(2, { addr := 0x112233445566, aid := 7, links := [(1, (0x112233445566, 3))], train := 5, mld := true, twtmem := false, emlsr := false, caps := 8, map := none, snr := [], fed := [], adj := [], good := [], bsr := [], ps := false })] }, [2, 0xFFFFFF], { addr := 0x112233445566, aid := 7, links := [(1, (0x112233445566, 3))], train := 5, mld := true, twtmem := false, emlsr := false, caps := 8, map := none, snr := [], fed := [], adj := [], good := [], bsr := [], ps := false }, by decide⟩,
   ⟨(up.set F.MLD_STACMD_CBUSY 1).setWl { up.wl with cmd := some (5, [2]), sta := [(2, { addr := 0x112233445566, aid := 7, links := [(1, (0x112233445566, 3))], train := 5, mld := true, twtmem := false, emlsr := false, caps := 8, map := none, snr := [], fed := [], adj := [], good := [], bsr := [], ps := false })], q := [(47, [{ out := { handle := 7, dest := 4, queue := 3, launch := 0, timed := false, compl := false, keep := false, ctrain := 0 }, miss := false, dl := 0, since := 5, retries := 0, sta := 2, tid := 15 }])] }, [2], 15, { out := { handle := 7, dest := 4, queue := 3, launch := 0, timed := false, compl := false, keep := false, ctrain := 0 }, miss := false, dl := 0, since := 5, retries := 0, sta := 2, tid := 15 }, by decide⟩,
   ⟨(up.set F.MLD_STACMD_CBUSY 1).setWl { up.wl with cmd := some (5, [2]), sta := [(2, { addr := 0x112233445566, aid := 7, links := [(1, (0x112233445566, 3))], train := 5, mld := true, twtmem := false, emlsr := false, caps := 8, map := none, snr := [], fed := [], adj := [], good := [], bsr := [], ps := false })] }, [2], by decide⟩⟩

/-- Every clause of WlanTimeAndTwt with hypotheses is met. -/
theorem witness_WlanTimeAndTwt :
    (∃ (s : State) (rq : Rq) (v : Word), s.winOn W.MLD = true ∧ (rq.cls = 2 → s.dbgLevel = 2)) ∧
    (∃ (s : State) (rq : Rq) (v : Word), s.winOn W.MLD = true ∧ (rq.cls = 2 → s.dbgLevel = 2)) ∧
    (∃ (s : State) (rq : Rq) (v : Word), s.winOn W.MLD = true ∧ (rq.cls = 2 → s.dbgLevel = 2)) ∧
    (∃ (s : State) (r : Nat) (n : Nat), r < 3 ∧ n < 16 ∧ s.enabled (W.WMAC r) = true ∧ s.pwr.capState = 0
      ∧ s.on (F.WMAC_BSSCTL_EN r n) = true ∧ s.tsf % (max 1 (s.get (F.WMAC_BSSCTL_BI r n)) * 1024) = 0
      ∧ s.ns < (s.wmacAt r s.ns).busy + aifs r 1 ∧ (s.wmac r).bcn.contains n = false) ∧
    (∃ (s : State) (r : Nat) (n : Nat), r < 3 ∧ n < 16 ∧ s.enabled (W.WMAC r) = true ∧ s.pwr.capState = 0
      ∧ s.on (F.WMAC_BSSCTL_EN r n) = true ∧ s.tsf % (max 1 (s.get (F.WMAC_BSSCTL_BI r n)) * 1024) = 0 ∧ (s.wmac r).bcn = []
      ∧ s.mayContend r [] = true ∧ (s.wmacAt r s.ns).busy + aifs r 1 ≤ s.ns
      ∧ s.quietMeets r s.ns (s.ns + nonHtAir (s.bcnOf r n).length) = false
      ∧ (((s.setWmac r { s.wmac r with bcn := [n] }).setWmac r { (s.setWmac r { s.wmac r with bcn := [n] }).wmac r with bcn := [] }).ppdu r 6 0 3 [] [] (s.bcnOf r n) false s.ns (nonHtAir (s.bcnOf r n).length)).1 = 0) ∧
    (∃ (s : State) (i : Nat) (a : Nat) (e : WEnt), s.wl.q = [(a, [e])] ∧ s.wl.grp = [] ∧ e.out.handle = i ∧ e.out.compl = false
      ∧ s.get F.MLD_QCFG_TTL ≠ 0 ∧ e.since + s.get F.MLD_QCFG_TTL * 1000000 ≤ s.ns) ∧
    (∃ (s : State) (rq : Rq) (v : Word) (a : Nat) (x : StaS), s.winOn W.MLD = true ∧ (rq.cls = 2 → s.dbgLevel = 2)
      ∧ v.toNat / 2 ^ 31 = 1 ∧ v.toNat / 2 ^ 13 % 2 = 0 ∧ s.get F.MLD_TWTIDX_INDEX = a ∧ bitOf (s.twtW a 0) 31 = false
      ∧ kget s.wl.sta (v.toNat % 1024) = some x ∧ (kget x.links (v.toNat / 2 ^ 16 % 4)).isSome = true ∧ 0 < s.twtW a 4
      ∧ s.twtW a 3 / 65536 ≤ s.twtW a 4) ∧
    (∃ (s : State) (rq : Rq) (v : Word) (a : Nat), s.winOn W.MLD = true ∧ (rq.cls = 2 → s.dbgLevel = 2) ∧ v.toNat / 2 ^ 31 = 1
      ∧ s.get F.MLD_TWTIDX_INDEX = a ∧ bitOf (s.twtW a 0) 31 = false ∧ s.twtW a 4 < s.twtW a 3 / 65536
      ∧ s.on (F.ERRINFO_VALID W.MLD) = false) ∧
    (∃ (s : State) (a : Nat) (n : Nat), kget s.wl.spNext a = some n ∧ n ≤ s.ns ∧ 0 < s.twtW a 4) ∧
    (∃ (s : State) (a : Nat) (n : Nat) (i : Nat) (b : Bool × List Nat), kget s.wl.spOpen a = some (n, i, b) ∧ i ≤ s.ns) :=
  ⟨⟨up, { cls := 0, num := 3 }, 0x80005#32, by decide⟩,
   ⟨up, { cls := 0, num := 3 }, 0x80005#32, by decide⟩,
   ⟨up, { cls := 0, num := 3 }, 0x80005#32, by decide⟩,
   ⟨(up.set (F.CTRL_ENABLE (W.WMAC 1)) 1).set (F.WMAC_BSSCTL_EN 1 15) 1, 1, 15, by decide⟩,
   ⟨{ ((((((upAir.set (F.CTRL_ENABLE 0x11) 1).set (F.CTRL_ENABLE (W.WMAC 1)) 1).set (F.CTRL_ENABLE (W.WPHY 1)) 1).set (F.WMAC_BSSCTL_EN 1 15) 1).set (F.RFE_PATHSTAT_STATE 1 0) 3).setCalW 1 5 0 (5180000 + 2 ^ 26)) with tm := { up.tm with tb := 102400000 * 2 ^ 32 } }, 1, 15, by decide⟩,
   ⟨{ (up.setWl { up.wl with q := [(32, [{ out := { handle := 7, dest := 4, queue := 3, launch := 0, timed := false, compl := false, keep := false, ctrain := 0 }, miss := false, dl := 0, since := 5, retries := 0, sta := 2, tid := 0 }])] }) with tm := { up.tm with tb := 500000005 * 2 ^ 32 } }, 7, 32, { out := { handle := 7, dest := 4, queue := 3, launch := 0, timed := false, compl := false, keep := false, ctrain := 0 }, miss := false, dl := 0, since := 5, retries := 0, sta := 2, tid := 0 }, by decide⟩,
   ⟨(up.set F.MLD_TWTIDX_INDEX 4095).setWl { up.wl with sta := [(2, { addr := 0x112233445566, aid := 7, links := [(1, (0x112233445566, 3))], train := 5, mld := true, twtmem := false, emlsr := false, caps := 8, map := none, snr := [], fed := [], adj := [], good := [], bsr := [], ps := false })], twt := [(4095, [0, 0, 0, 1000 * 2 ^ 16, 1000])] }, { cls := 0, num := 3 }, 0x80010002#32, 4095, { addr := 0x112233445566, aid := 7, links := [(1, (0x112233445566, 3))], train := 5, mld := true, twtmem := false, emlsr := false, caps := 8, map := none, snr := [], fed := [], adj := [], good := [], bsr := [], ps := false }, by decide⟩,
   ⟨(up.set F.MLD_TWTIDX_INDEX 4095).setWl { up.wl with twt := [(4095, [0, 0, 0, 1000 * 2 ^ 16, 999])] },
      { cls := 0, num := 3 }, 0x80010002#32, 4095, by decide⟩,
   ⟨up.setWl { up.wl with twt := [(3, [0x80000002 + 1 * 2 ^ 16, 0, 0, 1000 * 2 ^ 16, 5000])], spNext := [(3, 0)] }, 3, 0, by decide⟩,
   ⟨up.setWl { up.wl with spOpen := [(3, (0, 0, true, [2]))] }, 3, 0, 0, (true, [2]), by decide⟩⟩

/-- Every clause of PlansAndTxops with hypotheses is met. -/
theorem witness_PlansAndTxops :
    (∃ (s : State) (r : Nat) (c : Nat) (i : PlanIn), s.enabled W.MLD = true ∧ r < 3 ∧ c < 4 ∧ kget s.wl.revAt (4 * r + c) = none
      ∧ s.wl.sta = [] ∧ s.wl.grp = []) ∧
    (∃ (s : State) (r : Nat) (c : Nat) (i : PlanIn), s.enabled W.MLD = true ∧ r < 3 ∧ c < 4 ∧ kget s.wl.revAt (4 * r + c) = none
      ∧ s.noLink c = 0 ∧ (s.planMake r c i).1 ≠ []) ∧
    (∃ (s : State) (r : Nat) (c : Nat) (i : PlanIn) (a : Nat), kget s.wl.revAt (4 * r + c) = some a
      ∧ s.ns < a + max 10 (s.get F.MLD_PLANCFG_MINIVL) * 1000) ∧
    (∃ (s : State) (r : Nat) (c : Nat) (o : TxopObs) (a : Nat) (x : WStep), 1 ≤ r ∧ c < 4 ∧ s.mayContend r o.energy = true
      ∧ (s.wmac r).bcn = [] ∧ s.boDone r c = true ∧ s.get (F.WMAC_EDCA_TXOPLIM r c) = 0
      ∧ s.wl.plans = [(4 * r + c, { at' := a, steps := [x] })] ∧ a + 16000 ≤ s.ns ∧ x.users = [] ∧ x.dur ≤ 5484000
      ∧ s.on F.MLD_PLANCFG_BCSYNC = false) ∧
    (∃ (s : State) (r : Nat) (c : Nat) (o : TxopObs) (a : Nat) (x : WStep), 1 ≤ r ∧ c < 4 ∧ s.mayContend r o.energy = true
      ∧ (s.wmac r).bcn = [] ∧ s.boDone r c = true ∧ s.get (F.WMAC_EDCA_TXOPLIM r c) = 0
      ∧ s.wl.plans = [(4 * r + c, { at' := a, steps := [x] })] ∧ a + 16000 ≤ s.ns ∧ x.users = [] ∧ x.dur ≤ 5484000
      ∧ s.on F.MLD_PLANCFG_BCSYNC = false
      ∧ (((s.setWl { s.wl with plans := [] }).setWmac r { s.wmac r with hold := s.ns + x.dur }).ppdu r x.kind x.fmt x.ru [] o.acked [] false s.ns x.air).1 = 0) ∧
    (∃ (s : State) (r : Nat) (c : Nat) (o : TxopObs), 1 ≤ r ∧ c < 4 ∧ s.mayContend r o.energy = true ∧ (s.wmac r).bcn = []
      ∧ s.boDone r c = true ∧ s.get (F.WMAC_EDCA_TXOPLIM r c) = 0 ∧ s.wl.plans = [] ∧ s.wl.sta = []) :=
  ⟨⟨(up.set (F.CTRL_ENABLE W.MLD) 1).setWl { up.wl with plans := [(7, { at' := 0, steps := [{ kind := 3, fmt := 4, users := [], ru := 0, air := 100000, dur := 762400 }] })] }, 1, 3, { energy := [], corr := [] }, by decide⟩,
   ⟨(up.set (F.CTRL_ENABLE W.MLD) 1).setWl { up.wl with grp := [(16, [{ out := { handle := 7, dest := 4, queue := 3, launch := 0, timed := false, compl := false, keep := false, ctrain := 0 }, miss := false, dl := 0, since := 5, retries := 0, sta := 1040, tid := 0 }])] }, 1, 1, { energy := [], corr := [] }, by decide⟩,
   ⟨(up.set (F.CTRL_ENABLE W.MLD) 1).setWl { up.wl with revAt := [(7, 0)] }, 1, 3, { energy := [], corr := [] }, 0, by decide⟩,
   ⟨{ (((((up.set (F.CTRL_ENABLE (W.WMAC 1)) 1).set (F.CTRL_ENABLE (W.WPHY 1)) 1).set (F.WMAC_EDCA_TXOPLIM 1 3) 0).set (F.RFE_PATHSTAT_STATE 1 0) 3).setWl { up.wl with plans := [(7, { at' := 0, steps := [{ kind := 3, fmt := 4, users := [], ru := 0, air := 100000, dur := 762400 }] })] }) with tm := { up.tm with tb := 16000000 * 2 ^ 32 } }, 1, 3, { acked := [], fed := [], bsr := [] }, 0, { kind := 3, fmt := 4, users := [], ru := 0, air := 100000, dur := 762400 }, by decide⟩,
   ⟨((({ ((((((upAir.set (F.CTRL_ENABLE 0x11) 1).set (F.CTRL_ENABLE (W.WMAC 1)) 1).set (F.CTRL_ENABLE (W.WPHY 1)) 1).set (F.WMAC_BSSCTL_EN 1 15) 1).set (F.RFE_PATHSTAT_STATE 1 0) 3).setCalW 1 5 0 (5180000 + 2 ^ 26)) with tm := { up.tm with tb := 102400000 * 2 ^ 32 } } : State).set (F.WMAC_EDCA_TXOPLIM 1 3) 0).setWl { up.wl with plans := [(7, { at' := 0, steps := [{ kind := 3, fmt := 4, users := [], ru := 0, air := 100000, dur := 762400 }] })] }), 1, 3, { acked := [], fed := [], bsr := [] }, 0, { kind := 3, fmt := 4, users := [], ru := 0, air := 100000, dur := 762400 }, by decide⟩,
   ⟨{ ((((up.set (F.CTRL_ENABLE (W.WMAC 1)) 1).set (F.CTRL_ENABLE (W.WPHY 1)) 1).set (F.WMAC_EDCA_TXOPLIM 1 3) 0).set (F.RFE_PATHSTAT_STATE 1 0) 3) with tm := { up.tm with tb := 16000000 * 2 ^ 32 } }, 1, 3, { acked := [], fed := [], bsr := [] }, by decide⟩⟩

/-- Every clause of WagonsMadeAndTaken with hypotheses is met. -/
theorem witness_WagonsMadeAndTaken :
    (∃ (s : State) (rq : Rq) (v : Word), s.enabled W.YARD = true ∧ (rq.cls = 2 → s.dbgLevel = 2) ∧ s.on F.YARD_SWRES_DONE = true
      ∧ inSram v.toNat = true ∧ v.toNat % 64 = 0 ∧ tmplOk (s.tmplAt v.toNat) = true ∧ s.get F.YARD_ISLRESV_RESV < s.slotsFree
      ∧ s.trainRoom (s.tmplAt v.toNat).train = true ∧ s.yard.wagons = []) ∧
    (∃ (s : State) (rq : Rq) (v : Word), s.winOn W.YARD = true ∧ (rq.cls = 2 → s.dbgLevel = 2) ∧ s.on F.YARD_SWRES_DONE = true
      ∧ v.toNat % 64 ≠ 0) ∧
    (∃ (s : State) (rq : Rq) (v : Word) (w : Nat) (x : Wagon) (n : Nat), s.winOn W.YARD = true ∧ (rq.cls = 2 → s.dbgLevel = 2)
      ∧ s.get F.YARD_SWCPL0_WID = w ∧ s.get F.YARD_SWCPL0_SLOT = n ∧ s.get F.YARD_SWCPL0_TYPE = 5 ∧ s.wag w = some x ∧ x.st = 2
      ∧ bitOf x.decl n = true ∧ bitOf x.arr n = false ∧ bitsOf x.ctype (4 * n) 4 = 5 ∧ x.cpl.length = 8 ∧ n < 8) ∧
    (∃ (s : State) (w : Nat) (n : Nat) (v : Nat) (x : Wagon), s.winOn 0x20 = true ∧ s.wag w = some x ∧ x.st = 2 ∧ x.pend = false
      ∧ n < 8 ∧ bitOf x.decl n = true ∧ bitOf x.arr n = false ∧ x.arr + 2 ^ n = x.decl ∧ bitsOf x.ctype (4 * n) 4 = 5) ∧
    (∃ (s : State) (w : Nat) (n : Nat) (v : Nat), s.winOn 0x20 = true ∧ s.wag w = none) ∧
    (∃ (s : State) (e : Nat) (w : Nat) (x : Wagon), e < 48 ∧ s.enabled 0x20 = true ∧ s.inDisp e = true ∧ (s.eng e).wag = none
      ∧ s.yard.wagons = [(w, x)] ∧ x.st = 3 ∧ s.serves (e / 8) x.ecls = true ∧ (∀ k ∈ List.range e, s.engIdle k = false
      ∨ s.serves (k / 8) x.ecls = false)) :=
  ⟨⟨(up.set (F.CTRL_ENABLE 0x20) 1).pokeN 0x10000044 4 0x0103FFFF, { cls := 0, num := 3 }, 0x10000040#32, by decide⟩,
   ⟨up, { cls := 0, num := 3 }, 0x10000020#32, by decide⟩,
   ⟨{ (up.sets [(F.YARD_SWCPL0_WID, 5), (F.YARD_SWCPL0_SLOT, 7), (F.YARD_SWCPL0_TYPE, 5)]) with yard := { up.yard with wagons := [(5, { wagon0 with st := 2, decl := 2 ^ 7 + 1, ctype := 5 * 16 ^ 7 })] } }, { cls := 0, num := 3 }, 0xFFFFFFFF#32, 5, { wagon0 with st := 2, decl := 2 ^ 7 + 1, ctype := 5 * 16 ^ 7 }, 7, by decide⟩,
   ⟨{ up with yard := { up.yard with wagons := [(5, { wagon0 with st := 2, decl := 1, ctype := 5 })] } },
      5, 0, 9, { wagon0 with st := 2, decl := 1, ctype := 5 }, by decide⟩,
   ⟨up, 65535, 7, 9, by decide⟩,
   ⟨{ ((up.set (F.CTRL_ENABLE 0x20) 1).set (F.CTRL_ENABLE 0x26) 1) with yard := { up.yard with wagons := [(5, { wagon0 with st := 3 })] } }, 40, 5, { wagon0 with st := 3 }, by decide⟩⟩

/-- Every clause of WagonExtensions with hypotheses is met. -/
theorem witness_WagonExtensions :
    (∃ (s : State) (e : Nat) (w : Nat) (x : Wagon), s.running e = some (w, x) ∧ x.cpls = [] ∧ x.kids = [] ∧ x.pend = true
      ∧ s.wag w = some x ∧ s.drain = []) ∧
    (∃ (s : State) (e : Nat) (w : Nat) (x : Wagon), s.running e = some (w, x) ∧ x.cpls = [] ∧ x.kids = [] ∧ x.outs = [] ∧ x.bufs = []
      ∧ x.succ = none ∧ x.pend = false ∧ x.void = false ∧ s.yard.wagons = [(w, x)] ∧ (s.train x.train).2 = x.seq
      ∧ (s.train x.train).1 = (x.seq + 1) % 65536 ∧ x.seq < 65536 ∧ s.drain = []) ∧
    (∃ (s : State) (e : Nat) (w : Nat) (x : Wagon), s.running e = some (w, x) ∧ x.kids = [] ∧ x.pend = true ∧ s.wag w = some x
      ∧ s.drain = []) ∧
    (∃ (s : State) (e : Nat) (o : Out) (w : Nat) (x : Wagon), s.running e = some (w, x) ∧ s.wag w = some x ∧ o.dest < 7
      ∧ x.outs.length < 16) ∧
    (∃ (s : State) (e : Nat) (o : Out) (w : Nat) (x : Wagon), s.running e = some (w, x) ∧ o.dest < 7 ∧ 16 ≤ x.outs.length) ∧
    (∃ (s : State) (e : Nat) (c : Tmpl) (w : Nat) (x : Wagon), s.running e = some (w, x) ∧ s.wag w = some x ∧ tmplOk c = true
      ∧ x.kids.length < 16 ∧ s.enabled W.YARD = true ∧ s.get F.YARD_ISLRESV_RESV < s.slotsFree ∧ s.trainRoom (c.train % 4096) = true
      ∧ s.yard.wagons.length = 1) ∧
    (∃ (s : State) (e : Nat) (c : Nat) (n : Nat) (v : Nat) (w : Nat) (x : Wagon), s.running e = some (w, x) ∧ s.wag w = some x
      ∧ x.cpls.length < 32) ∧
    (∃ (s : State) (e : Nat) (l : List Nat) (c : Nat) (n : Nat) (w : Nat) (x : Wagon), s.running e = some (w, x)
      ∧ 1 ≤ bitsOf (l.getD 0 0) 0 4 ∧ bitsOf (l.getD 0 0) 0 4 ≤ 5 ∧ l.getD 0 0 < 2 ^ 32 ∧ 0 < l.length) ∧
    (∃ (s : State) (e : Nat) (c : Nat) (w : Nat) (x : Wagon), s.running e = some (w, x) ∧ s.wag w = some x ∧ x.succ = none ∧ c ∈ x.kids) ∧
    (∃ (s : State) (e : Nat) (c : Nat) (n : Nat) (w : Nat) (x : Wagon), s.running e = some (w, x) ∧ x.succ = some n) ∧
    (∃ (s : State) (e : Nat) (n : Nat) (w : Nat) (x : Wagon), s.running e = some (w, x) ∧ s.wag w = some x ∧ 0 < n ∧ n ≤ 16383
      ∧ 0 < s.bufFree (classFor n) ∧ s.ram.pool = []) ∧
    (∃ (s : State) (e : Nat) (n : Nat) (w : Nat) (x : Wagon), s.running e = some (w, x) ∧ (n = 0 ∨ 16383 < n)) ∧
    (∃ (s : State) (e : Nat) (w : Nat) (x : Wagon), e < 48 ∧ s.running e = some (w, x) ∧ x.kids = [] ∧ x.pend = true
      ∧ s.wag w = some x ∧ s.drain = []) :=
  ⟨⟨{ up with yard := { up.yard with wagons := [(5, { wagon0 with st := 4, pend := true })], engs := [(47, { eng0 with wag := some 5 })] } }, 47, 5, { wagon0 with st := 4, pend := true }, by decide⟩,
   ⟨{ up with yard := { up.yard with wagons := [(5, { wagon0 with st := 4, seq := 65535 })], engs := [(47, { eng0 with wag := some 5 })], trains := [(0, (0, 65535))] } }, 47, 5, { wagon0 with st := 4, seq := 65535 }, by decide⟩,
   ⟨{ up with yard := { up.yard with wagons := [(5, { wagon0 with st := 4, pend := true, outs := [{ handle := 7, dest := 2, queue := 3, launch := 0, timed := false, compl := false, keep := false, ctrain := 0 }] })], engs := [(47, { eng0 with wag := some 5 })] } }, 47, 5, { wagon0 with st := 4, pend := true, outs := [{ handle := 7, dest := 2, queue := 3, launch := 0, timed := false, compl := false, keep := false, ctrain := 0 }] }, by decide⟩,
   ⟨{ up with yard := { up.yard with wagons := [(5, { wagon0 with st := 4 })], engs := [(47, { eng0 with wag := some 5 })] } },
      47, { handle := 7, dest := 2, queue := 3, launch := 0, timed := false, compl := false, keep := false, ctrain := 0 },
      5, { wagon0 with st := 4 }, by decide⟩,
   ⟨{ up with yard := { up.yard with wagons := [(5, { wagon0 with st := 4, outs := List.replicate 16 ({ handle := 7, dest := 2, queue := 3, launch := 0, timed := false, compl := false, keep := false, ctrain := 0 }) })], engs := [(47, { eng0 with wag := some 5 })] } }, 47, { handle := 7, dest := 2, queue := 3, launch := 0, timed := false, compl := false, keep := false, ctrain := 0 }, 5, { wagon0 with st := 4, outs := List.replicate 16 ({ handle := 7, dest := 2, queue := 3, launch := 0, timed := false, compl := false, keep := false, ctrain := 0 }) }, by decide⟩,
   ⟨{ (up.set (F.CTRL_ENABLE 0x20) 1) with yard := { up.yard with wagons := [(5, { wagon0 with st := 4 })], engs := [(47, { eng0 with wag := some 5 })] } }, 47, { train := 9, prog := 1, ecls := 1, placewait := false, deadline := 5, decl := 3, arr := 1, ctype := 0x14, user := 8, cpl := [1, 2, 3, 4, 5, 6, 7, 8] }, 5, { wagon0 with st := 4 }, by decide⟩,
   ⟨{ up with yard := { up.yard with wagons := [(5, { wagon0 with st := 4 })], engs := [(47, { eng0 with wag := some 5 })] } },
      47, 6, 7, 9, 5, { wagon0 with st := 4 }, by decide⟩,
   ⟨{ up with yard := { up.yard with wagons := [(5, { wagon0 with st := 4 })], engs := [(47, { eng0 with wag := some 5 })] } },
      47, [1, 2, 3, 4], 5, 3, 5, { wagon0 with st := 4 }, by decide⟩,
   ⟨{ up with yard := { up.yard with wagons := [(5, { wagon0 with st := 4, kids := [6] })], engs := [(47, { eng0 with wag := some 5 })] } }, 47, 6, 5, { wagon0 with st := 4, kids := [6] }, by decide⟩,
   ⟨{ up with yard := { up.yard with wagons := [(5, { wagon0 with st := 4, kids := [6], succ := some 6 })], engs := [(47, { eng0 with wag := some 5 })] } }, 47, 6, 6, 5, { wagon0 with st := 4, kids := [6], succ := some 6 }, by decide⟩,
   ⟨{ up with yard := { up.yard with wagons := [(5, { wagon0 with st := 4 })], engs := [(47, { eng0 with wag := some 5 })] } },
      47, 16383, 5, { wagon0 with st := 4 }, by decide⟩,
   ⟨{ up with yard := { up.yard with wagons := [(5, { wagon0 with st := 4 })], engs := [(47, { eng0 with wag := some 5 })] } },
      47, 16384, 5, { wagon0 with st := 4 }, by decide⟩,
   ⟨{ up with yard := { up.yard with wagons := [(5, { wagon0 with st := 4, pend := true, outs := [{ handle := 7, dest := 2, queue := 3, launch := 0, timed := false, compl := false, keep := false, ctrain := 0 }] })], engs := [(47, { eng0 with wag := some 5 })] } }, 47, 5, { wagon0 with st := 4, pend := true, outs := [{ handle := 7, dest := 2, queue := 3, launch := 0, timed := false, compl := false, keep := false, ctrain := 0 }] }, by decide⟩⟩

/-- Every clause of WagonUpkeep with hypotheses is met. -/
theorem witness_WagonUpkeep :
    (∃ (s : State) (w : Nat) (x : Wagon), s.wag w = some x ∧ x.miss = false ∧ s.reached x.dl = true ∧ x.pend = false ∧ x.train < 4096
      ∧ x.seq < 65536) ∧
    (∃ (s : State) (w : Nat) (x : Wagon), s.wag w = some x ∧ (x.miss = true ∨ s.reached x.dl = false)) ∧
    (∃ (s : State) (w : Nat) (x : Wagon), s.wag w = some x ∧ x.st = 2 ∧ x.kids = [] ∧ x.pend = true
      ∧ s.reached ((x.dl + max 1 (s.get F.YARD_ABANDON_MS) * 1000000) % wMod) = true) ∧
    (∃ (s : State) (rq : Rq) (n : Nat), n < 6 ∧ s.winOn (W.ENG n) = true ∧ s.busy (W.ENG n) = false ∧ s.get (F.ENG_LOADLEN_KIB n) = 24
      ∧ s.get (F.ENG_LOADSRCHI_ADDR n) = 0 ∧ s.get (F.ENG_LOADSRCLO_ADDR n) = 0x10000004
      ∧ s.get (F.ENG_LOADBANK_BANK n) ≠ s.get F.YARD_PBCTL_CUR ∧ s.yard.wagons = []) ∧
    (∃ (s : State) (rq : Rq) (n : Nat), n < 6 ∧ s.winOn (W.ENG n) = true ∧ s.busy (W.ENG n) = false
      ∧ (s.get (F.ENG_LOADLEN_KIB n) = 0 ∨ 24 < s.get (F.ENG_LOADLEN_KIB n))) ∧
    (∃ (s : State) (rq : Rq) (v : Word), s.winOn W.YARD = true ∧ (rq.cls = 2 → s.dbgLevel = 2) ∧ v.toNat / 2 % 2 = 1) ∧
    (∃ (s : State), s.on F.YARD_PBCTL_ARMED = true
      ∧ nsOf (s.get F.YARD_PBSECLO_SEC) (s.get F.YARD_PBSECHI_SEC) (s.get F.YARD_PBNS_NS) ≤ s.ns) ∧
    (∃ (s : State), s.enabled 0x20 = true ∧ s.yard.histAt + max 1 (s.get F.YARD_HISTCFG_WINDOW) * 1000000 ≤ s.ns) ∧
    (∃ (s : State) (l : List Nat), s.yard.loadAt / 1000000 < s.ns / 1000000 ∧ s.winOn (W.ENG 5) = true
      ∧ (kget s.yard.coachOn 5).getD 0 ≤ s.yard.loadAt ∧ s.eng 47 = eng0) :=
  ⟨⟨{ up with yard := { up.yard with wagons := [(5, { wagon0 with st := 3, train := 4095, seq := 65535 })] } },
      5, { wagon0 with st := 3, train := 4095, seq := 65535 }, by decide⟩,
   ⟨{ up with yard := { up.yard with wagons := [(5, { wagon0 with st := 3, dl := 1 })] } },
      5, { wagon0 with st := 3, dl := 1 }, by decide⟩,
   ⟨{ { up with tm := { up.tm with tb := 100000000 * 2 ^ 32 } } with yard := { up.yard with wagons := [(5, { wagon0 with st := 2, pend := true })] } }, 5, { wagon0 with st := 2, pend := true }, by decide⟩,
   ⟨up.sets [(F.ENG_LOADLEN_KIB 5, 24), (F.ENG_LOADSRCLO_ADDR 5, 0x10000004), (F.ENG_LOADBANK_BANK 5, 1)],
      { cls := 0, num := 3 }, 5, by decide⟩,
   ⟨up.set (F.ENG_LOADLEN_KIB 0) 25, { cls := 0, num := 3 }, 0, by decide⟩,
   ⟨up, { cls := 0, num := 3 }, 3#32, by decide⟩,
   ⟨up.set F.YARD_PBCTL_ARMED 1, by decide⟩,
   ⟨{ (up.set (F.CTRL_ENABLE 0x20) 1) with tm := { up.tm with tb := 1000000000 * 2 ^ 32 } }, by decide⟩,
   ⟨{ up with tm := { up.tm with tb := 1000000 * 2 ^ 32 } }, List.replicate 48 5, by decide⟩⟩

/-- Every clause of RteCommits with hypotheses is met. -/
theorem witness_RteCommits :
    (∃ (s : State) (rq : Rq), s.winOn W.RTE = true ∧ s.busy W.RTE = false ∧ s.rte.old = none ∧ s.chgSrc % 16 = 0 ∧ inSram s.chgSrc = true
      ∧ inSram (s.chgSrc + 80 * s.get F.RTE_CHGCOUNT_COUNT - 1) = true ∧ 0 < s.get F.RTE_CHGCOUNT_COUNT
      ∧ s.get F.RTE_CHGCOUNT_COUNT ≤ 4096 ∧ s.ns + 1000000 ≤ s.commitAt) ∧
    (∃ (s : State) (rq : Rq), s.winOn W.RTE = true ∧ s.busy W.RTE = false ∧ s.rte.old.isSome = true ∧ s.chgSrc % 16 = 0
      ∧ inSram s.chgSrc = true ∧ inSram (s.chgSrc + 80 * s.get F.RTE_CHGCOUNT_COUNT - 1) = true ∧ 0 < s.get F.RTE_CHGCOUNT_COUNT
      ∧ s.get F.RTE_CHGCOUNT_COUNT ≤ 4096 ∧ s.ns + 1000000 ≤ s.commitAt) ∧
    (∃ (s : State) (rq : Rq), s.winOn W.RTE = true ∧ s.busy W.RTE = false ∧ s.commitAt < s.ns + 1000000) ∧
    (∃ (s : State) (n : Nat) (x : KMap (KMap (List Nat))), s.opSt W.RTE = 2 ∧ s.commitAt ≤ s.ns
      ∧ min n 4096 ≤ s.get (F.OPSTAT_PROGRESS W.RTE) ∧ s.get F.RTE_CHGCOUNT_COUNT ≤ s.get (F.OPSTAT_PROGRESS W.RTE)
      ∧ chgAll s.rte.tabs 0 s.rte.stage = .inr x) ∧
    (∃ (s : State) (n : Nat), s.opSt W.RTE = 2 ∧ s.commitAt ≤ s.ns ∧ min n 4096 ≤ s.get (F.OPSTAT_PROGRESS W.RTE)
      ∧ s.get (F.OPSTAT_PROGRESS W.RTE) < s.get F.RTE_CHGCOUNT_COUNT) ∧
    (∃ (s : State), s.rte.old.isSome = true ∧ s.yard.wagons = []) :=
  ⟨⟨(up.sets [(F.RTE_CHGSRCLO_ADDR, 0x10000010), (F.RTE_CHGCOUNT_COUNT, 1), (F.RTE_COMMITNS_NS, 1000000)]),
      { cls := 0, num := 3 }, by decide⟩,
   ⟨{ (up.sets [(F.RTE_CHGSRCLO_ADDR, 0x10000010), (F.RTE_CHGCOUNT_COUNT, 1), (F.RTE_COMMITNS_NS, 1000000)]) with rte := { up.rte with old := some (5, []) } }, { cls := 0, num := 3 }, by decide⟩,
   ⟨(up.sets [(F.RTE_CHGSRCLO_ADDR, 0x10000010), (F.RTE_CHGCOUNT_COUNT, 1), (F.RTE_COMMITNS_NS, 1000000)]).set F.RTE_COMMITNS_NS 999999, { cls := 0, num := 3 }, by decide⟩,
   ⟨{ (((up.sets [(F.RTE_CHGSRCLO_ADDR, 0x10000010), (F.RTE_CHGCOUNT_COUNT, 1), (F.RTE_COMMITNS_NS, 1000000)]).set (F.OPSTAT_STATE W.RTE) 2).set (F.OPSTAT_PROGRESS W.RTE) 1) with rte := { up.rte with stage := [[0 + 4, 5, 0, 0, 0x10, 0, 0, 0, 0, 0, 0, 0, 0, 0, 0, 0, 0, 0, 0, 0]] }, tm := { up.tm with tb := 1000000 * 2 ^ 32 } }, 1, [(4, [(5, [0x10, 0, 0, 0, 0, 0, 0, 0, 0, 0, 0, 0, 0, 0, 0, 0])])], by decide⟩,
   ⟨{ ((up.sets [(F.RTE_CHGSRCLO_ADDR, 0x10000010), (F.RTE_CHGCOUNT_COUNT, 1), (F.RTE_COMMITNS_NS, 1000000)]).set (F.OPSTAT_STATE W.RTE) 2) with tm := { up.tm with tb := 1000000 * 2 ^ 32 } }, 0, by decide⟩,
   ⟨{ (up.sets [(F.RTE_CHGSRCLO_ADDR, 0x10000010), (F.RTE_CHGCOUNT_COUNT, 1), (F.RTE_COMMITNS_NS, 1000000)]) with rte := { up.rte with old := some (5, []) } }, by decide⟩⟩

/-- Every clause of RteAnswers with hypotheses is met. -/
theorem witness_RteAnswers :
    (∃ (s : State) (r : Req) (x : Wagon) (p : Pkt) (l : List Nat), s.enabled W.RTE = true ∧ s.yard.reqs = [r] ∧ r.sec = false ∧ r.op = 1
      ∧ s.inPool r.inH = true ∧ s.inPool r.outH = true ∧ r.inofs + r.inlen ≤ s.frmLen r.inH ∧ s.ram.late = [] ∧ s.ram.ue = []
      ∧ s.rte.old = none ∧ s.rte.lastT = none ∧ s.wag r.wid = some x ∧ x.st = 2 ∧ r.slot < 8 ∧ bitOf x.decl r.slot = true
      ∧ bitOf x.arr r.slot = false ∧ bitsOf x.ctype (4 * r.slot) 4 = 4 ∧ x.cpl.length = 8 ∧ pktOf (s.reqData r) = some p
      ∧ s.vidOf r = none ∧ s.get F.RTE_CFG_ACLCOUNT = 0 ∧ s.get F.RTE_CFG_ACLDEF = 0 ∧ hostOf s.rte.tabs p.v4 (ofBE p.dst) = some l
      ∧ bitOf (l.getD 4 0) 2 = true ∧ 2 ≤ p.hop ∧ r.outofs + 32 ≤ s.outCap r.outH) ∧
    (∃ (s : State) (r : Req) (x : Wagon) (p : Pkt), s.enabled W.RTE = true ∧ s.yard.reqs = [r] ∧ r.sec = false ∧ r.op = 1
      ∧ s.inPool r.inH = true ∧ s.inPool r.outH = true ∧ r.inofs + r.inlen ≤ s.frmLen r.inH ∧ s.ram.late = [] ∧ s.ram.ue = []
      ∧ s.rte.old = none ∧ s.rte.lastT = none ∧ s.wag r.wid = some x ∧ x.st = 2 ∧ r.slot < 8 ∧ bitOf x.decl r.slot = true
      ∧ bitOf x.arr r.slot = false ∧ bitsOf x.ctype (4 * r.slot) 4 = 4 ∧ x.cpl.length = 8 ∧ pktOf (s.reqData r) = some p
      ∧ s.vidOf r = none ∧ s.get F.RTE_CFG_ACLCOUNT = 0 ∧ s.get F.RTE_CFG_ACLDEF = 0 ∧ hostOf s.rte.tabs p.v4 (ofBE p.dst) = none
      ∧ lpm s.rte.tabs p.v4 (ofBE p.dst) = none) ∧
    (∃ (s : State) (r : Req) (x : Wagon), s.enabled W.RTE = true ∧ s.yard.reqs = [r] ∧ r.sec = false ∧ r.op = 1
      ∧ s.inPool r.inH = true ∧ s.inPool r.outH = true ∧ r.inofs + r.inlen ≤ s.frmLen r.inH ∧ s.ram.late = [] ∧ s.ram.ue = []
      ∧ s.rte.old = none ∧ s.rte.lastT = none ∧ s.wag r.wid = some x ∧ x.st = 2 ∧ r.slot < 8 ∧ bitOf x.decl r.slot = true
      ∧ bitOf x.arr r.slot = false ∧ bitsOf x.ctype (4 * r.slot) 4 = 4 ∧ x.cpl.length = 8 ∧ pktOf (s.reqData r) = none) ∧
    (∃ (s : State) (r : Req) (x : Wagon), s.enabled W.RTE = true ∧ s.yard.reqs = [r] ∧ r.sec = false ∧ r.op = 2
      ∧ s.inPool r.inH = true ∧ s.inPool r.outH = true ∧ r.inofs + r.inlen ≤ s.frmLen r.inH ∧ s.ram.late = [] ∧ s.ram.ue = []
      ∧ s.rte.old = none ∧ s.rte.lastT = none ∧ s.wag r.wid = some x ∧ x.st = 2 ∧ r.slot < 8 ∧ bitOf x.decl r.slot = true
      ∧ bitOf x.arr r.slot = false ∧ bitsOf x.ctype (4 * r.slot) 4 = 4 ∧ x.cpl.length = 8 ∧ (s.reqData r).headD 0 = 0x41
      ∧ r.outofs + r.inlen ≤ s.outCap r.outH + 1) ∧
    (∃ (s : State) (r : Req) (x : Wagon), s.enabled W.RTE = true ∧ s.yard.reqs = [r] ∧ r.sec = false ∧ r.op = 3
      ∧ s.inPool r.inH = true ∧ s.inPool r.outH = true ∧ r.inofs + r.inlen ≤ s.frmLen r.inH ∧ s.ram.late = [] ∧ s.ram.ue = []
      ∧ s.rte.old = none ∧ s.rte.lastT = none ∧ s.wag r.wid = some x ∧ x.st = 2 ∧ r.slot < 8 ∧ bitOf x.decl r.slot = true
      ∧ bitOf x.arr r.slot = false ∧ bitsOf x.ctype (4 * r.slot) 4 = 4 ∧ x.cpl.length = 8 ∧ (s.reqData r).length < 40) ∧
    (∃ (s : State) (r : Req) (x : Wagon) (p : Pkt) (l : List Byte) (c : List Byte × Nat), s.enabled W.RTE = true ∧ s.yard.reqs = [r]
      ∧ r.sec = false ∧ r.op = 3 ∧ s.inPool r.inH = true ∧ s.inPool r.outH = true ∧ r.inofs + r.inlen ≤ s.frmLen r.inH
      ∧ s.ram.late = [] ∧ s.ram.ue = [] ∧ s.rte.old = none ∧ s.rte.lastT = none ∧ s.wag r.wid = some x ∧ x.st = 2 ∧ r.slot < 8
      ∧ bitOf x.decl r.slot = true ∧ bitOf x.arr r.slot = false ∧ bitsOf x.ctype (4 * r.slot) 4 = 4 ∧ x.cpl.length = 8
      ∧ pktOf (s.reqData r) = some p ∧ p.v4 = false ∧ p.total ≤ 2047 ∧ l = (s.reqData r).take p.total
      ∧ c = iphcSeal (rteCtx s.rte.tabs r.tile true) (mac154 (s.peeks (handleAddr r.outH + 64) r.outofs)) l
      ∧ c.1.length + (l.length - c.2) ≤ s.mtu r.tile ∧ r.outofs + c.1.length + (l.length - c.2) ≤ s.outCap r.outH) ∧
    (∃ (s : State) (r : Req) (x : Wagon) (p : Pkt) (l : List Byte) (c : List Byte × Nat), s.enabled W.RTE = true ∧ s.yard.reqs = [r]
      ∧ r.sec = false ∧ r.op = 3 ∧ s.inPool r.inH = true ∧ s.inPool r.outH = true ∧ r.inofs + r.inlen ≤ s.frmLen r.inH
      ∧ s.ram.late = [] ∧ s.ram.ue = [] ∧ s.rte.old = none ∧ s.rte.lastT = none ∧ s.wag r.wid = some x ∧ x.st = 2 ∧ r.slot < 8
      ∧ bitOf x.decl r.slot = true ∧ bitOf x.arr r.slot = false ∧ bitsOf x.ctype (4 * r.slot) 4 = 4 ∧ x.cpl.length = 8
      ∧ pktOf (s.reqData r) = some p ∧ p.v4 = false ∧ p.total ≤ 2047 ∧ l = (s.reqData r).take p.total
      ∧ c = iphcSeal (rteCtx s.rte.tabs r.tile true) (mac154 (s.peeks (handleAddr r.outH + 64) r.outofs)) l
      ∧ s.mtu r.tile < c.1.length + (l.length - c.2) ∧ cuts (s.mtu r.tile) c.1.length c.2 l.length = true) ∧
    (∃ (s : State) (r : Req) (x : Wagon) (p : Pkt) (l : List Byte) (c : List Byte × Nat), s.enabled W.RTE = true ∧ s.yard.reqs = [r]
      ∧ r.sec = false ∧ r.op = 4 ∧ s.inPool r.inH = true ∧ s.inPool r.outH = true ∧ r.inofs + r.inlen ≤ s.frmLen r.inH
      ∧ s.ram.late = [] ∧ s.ram.ue = [] ∧ s.rte.old = none ∧ s.rte.lastT = none ∧ s.wag r.wid = some x ∧ x.st = 2 ∧ r.slot < 8
      ∧ bitOf x.decl r.slot = true ∧ bitOf x.arr r.slot = false ∧ bitsOf x.ctype (4 * r.slot) 4 = 4 ∧ x.cpl.length = 8
      ∧ pktOf (s.reqData r) = some p ∧ p.v4 = false ∧ p.total ≤ 2047 ∧ l = (s.reqData r).take p.total
      ∧ c = iphcSeal (rteCtx s.rte.tabs r.tile true) (mac154 (s.peeks (handleAddr r.outH + 64) r.outofs)) l
      ∧ cuts (s.mtu r.tile) c.1.length c.2 l.length = true ∧ r.fragk = 0
      ∧ r.outofs + 4 + c.1.length + (frag0 (s.mtu r.tile) c.1.length c.2 - c.2) ≤ s.outCap r.outH
      ∧ frag0 (s.mtu r.tile) c.1.length c.2 ≤ l.length) ∧
    (∃ (s : State) (r : Req) (x : Wagon) (l : List Nat), s.enabled W.RTE = true ∧ s.yard.reqs = [r] ∧ r.sec = false ∧ r.op = 5
      ∧ s.inPool r.inH = true ∧ s.inPool r.outH = true ∧ r.inofs + r.inlen ≤ s.frmLen r.inH ∧ s.ram.late = [] ∧ s.ram.ue = []
      ∧ s.rte.old = none ∧ s.rte.lastT = none ∧ s.wag r.wid = some x ∧ x.st = 2 ∧ r.slot < 8 ∧ bitOf x.decl r.slot = true
      ∧ bitOf x.arr r.slot = false ∧ bitsOf x.ctype (4 * r.slot) 4 = 4 ∧ x.cpl.length = 8 ∧ 40 ≤ (s.reqData r).length
      ∧ ((s.reqData r).headD 0).toNat / 16 = 6 ∧ hostOf s.rte.tabs false (ofBE (((s.reqData r).drop 24).take 16)) = some l
      ∧ bitOf (l.getD 6 0) 16 = true ∧ ((rteEnt s.rte.tabs 6 (l.getD 6 0 % 2 ^ 16)).getD []).getD 0 0 % 8 = 1
      ∧ r.outofs + r.inlen ≤ s.outCap r.outH) ∧
    (∃ (s : State) (r : Req) (x : Wagon), s.enabled W.RTE = true ∧ s.yard.reqs = [r] ∧ r.sec = false ∧ r.op = 5
      ∧ s.inPool r.inH = true ∧ s.inPool r.outH = true ∧ r.inofs + r.inlen ≤ s.frmLen r.inH ∧ s.ram.late = [] ∧ s.ram.ue = []
      ∧ s.rte.old = none ∧ s.rte.lastT = none ∧ s.wag r.wid = some x ∧ x.st = 2 ∧ r.slot < 8 ∧ bitOf x.decl r.slot = true
      ∧ bitOf x.arr r.slot = false ∧ bitsOf x.ctype (4 * r.slot) 4 = 4 ∧ x.cpl.length = 8 ∧ 40 ≤ (s.reqData r).length
      ∧ ((s.reqData r).headD 0).toNat / 16 = 6 ∧ hostOf s.rte.tabs false (ofBE (((s.reqData r).drop 24).take 16)) = none) ∧
    (∃ (s : State) (n : Nat) (x : Reasm), s.rte.reasm[n]? = some x ∧ x.since + max 1 (s.get F.RTE_REASM_TIMEOUT) * 1000000000 < s.ns) :=
  ⟨⟨{ ((((up.set (F.CTRL_ENABLE W.RTE) 1)).pokeHdr 1 0 [24 * 1024]).pokeData 1 0 [69, 0, 0, 24, 0, 0, 0, 0, 64, 17, 0, 0, 10, 0, 0, 1, 10, 0, 0, 2, 0, 1, 0, 2]) with yard := { up.yard with wagons := [(5, { wagon0 with decl := 0x81, ctype := 4 * 16 ^ 7 })], reqs := [{ words := [1 + 2 * 16 + 2 * 2 ^ 19, 1, 24, 6], sec := false, cs := 0, wid := 5, slot := 7 }] }, ram := { up.ram with pool := [(1, 0), (6, 0)] }, rte := { up.rte with tabs := [(2, [(2 ^ 128 + 0x0A000002, [0x2000000A, 0, 0, 0, 1 + 2 + 4, 3, 0x40009, 0, 0, 0, 0, 0, 0, 0, 0, 0])])] } }, { words := [1 + 2 * 16 + 2 * 2 ^ 19, 1, 24, 6], sec := false, cs := 0, wid := 5, slot := 7 }, { wagon0 with decl := 0x81, ctype := 4 * 16 ^ 7 }, { v4 := true, src := [10, 0, 0, 1], dst := [10, 0, 0, 2], hop := 64, proto := 17, ports := some [0, 1, 0, 2], first := true, total := 24 }, [0x2000000A, 0, 0, 0, 1 + 2 + 4, 3, 0x40009, 0, 0, 0, 0, 0, 0, 0, 0, 0], by decide⟩,
   ⟨{ ((((up.set (F.CTRL_ENABLE W.RTE) 1)).pokeHdr 1 0 [24 * 1024]).pokeData 1 0 [69, 0, 0, 24, 0, 0, 0, 0, 64, 17, 0, 0, 10, 0, 0, 1, 10, 0, 0, 2, 0, 1, 0, 2]) with yard := { up.yard with wagons := [(5, { wagon0 with decl := 0x81, ctype := 4 * 16 ^ 7 })], reqs := [{ words := [1 + 2 * 16 + 2 * 2 ^ 19, 1, 24, 6], sec := false, cs := 0, wid := 5, slot := 7 }] }, ram := { up.ram with pool := [(1, 0), (6, 0)] }, rte := up.rte }, { words := [1 + 2 * 16 + 2 * 2 ^ 19, 1, 24, 6], sec := false, cs := 0, wid := 5, slot := 7 }, { wagon0 with decl := 0x81, ctype := 4 * 16 ^ 7 }, { v4 := true, src := [10, 0, 0, 1], dst := [10, 0, 0, 2], hop := 64, proto := 17, ports := some [0, 1, 0, 2], first := true, total := 24 }, by decide⟩,
   ⟨{ ((((up.set (F.CTRL_ENABLE W.RTE) 1)).pokeHdr 1 0 [19 * 1024]).pokeData 1 0 [69, 0, 0, 24, 0, 0, 0, 0, 64, 17, 0, 0, 10, 0, 0, 1, 10, 0, 0]) with yard := { up.yard with wagons := [(5, { wagon0 with decl := 0x81, ctype := 4 * 16 ^ 7 })], reqs := [{ words := [1 + 2 * 16 + 2 * 2 ^ 19, 1, 19, 6], sec := false, cs := 0, wid := 5, slot := 7 }] }, ram := { up.ram with pool := [(1, 0), (6, 0)] }, rte := up.rte }, { words := [1 + 2 * 16 + 2 * 2 ^ 19, 1, 19, 6], sec := false, cs := 0, wid := 5, slot := 7 }, { wagon0 with decl := 0x81, ctype := 4 * 16 ^ 7 }, by decide⟩,
   ⟨{ ((((up.set (F.CTRL_ENABLE W.RTE) 1)).pokeHdr 1 0 [41 * 1024]).pokeData 1 0 [65, 96, 0, 0, 0, 0, 0, 17, 64, 253, 0, 0, 0, 0, 0, 0, 0, 0, 0, 0, 0, 0, 0, 0, 1, 253, 0, 0, 0, 0, 0, 0, 0, 0, 0, 0, 0, 0, 0, 0, 2]) with yard := { up.yard with wagons := [(5, { wagon0 with decl := 0x81, ctype := 4 * 16 ^ 7 })], reqs := [{ words := [2 + 2 * 16 + 2 * 2 ^ 19, 1, 41, 6], sec := false, cs := 0, wid := 5, slot := 7 }] }, ram := { up.ram with pool := [(1, 0), (6, 0)] }, rte := up.rte }, { words := [2 + 2 * 16 + 2 * 2 ^ 19, 1, 41, 6], sec := false, cs := 0, wid := 5, slot := 7 }, { wagon0 with decl := 0x81, ctype := 4 * 16 ^ 7 }, by decide⟩,
   ⟨{ ((((up.set (F.CTRL_ENABLE W.RTE) 1)).pokeHdr 1 0 [39 * 1024]).pokeData 1 0 [96, 0, 0, 0, 0, 0, 17, 64, 253, 0, 0, 0, 0, 0, 0, 0, 0, 0, 0, 0, 0, 0, 0, 1, 253, 0, 0, 0, 0, 0, 0, 0, 0, 0, 0, 0, 0, 0, 0]) with yard := { up.yard with wagons := [(5, { wagon0 with decl := 0x81, ctype := 4 * 16 ^ 7 })], reqs := [{ words := [3 + 2 * 16 + 2 * 2 ^ 19, 1, 39, 6], sec := false, cs := 0, wid := 5, slot := 7 }] }, ram := { up.ram with pool := [(1, 0), (6, 0)] }, rte := up.rte }, { words := [3 + 2 * 16 + 2 * 2 ^ 19, 1, 39, 6], sec := false, cs := 0, wid := 5, slot := 7 }, { wagon0 with decl := 0x81, ctype := 4 * 16 ^ 7 }, by decide⟩,
   ⟨{ ((((up.set (F.CTRL_ENABLE W.RTE) 1)).pokeHdr 1 0 [40 * 1024]).pokeData 1 0 [96, 0, 0, 0, 0, 0, 17, 64, 253, 0, 0, 0, 0, 0, 0, 0, 0, 0, 0, 0, 0, 0, 0, 1, 253, 0, 0, 0, 0, 0, 0, 0, 0, 0, 0, 0, 0, 0, 0, 2]) with yard := { up.yard with wagons := [(5, { wagon0 with decl := 0x81, ctype := 4 * 16 ^ 7 })], reqs := [{ words := [3 + 2 * 16 + 2 * 2 ^ 19, 1, 40, 6], sec := false, cs := 0, wid := 5, slot := 7 }] }, ram := { up.ram with pool := [(1, 0), (6, 0)] }, rte := up.rte }, { words := [3 + 2 * 16 + 2 * 2 ^ 19, 1, 40, 6], sec := false, cs := 0, wid := 5, slot := 7 }, { wagon0 with decl := 0x81, ctype := 4 * 16 ^ 7 }, (pktOf [96, 0, 0, 0, 0, 0, 17, 64, 253, 0, 0, 0, 0, 0, 0, 0, 0, 0, 0, 0, 0, 0, 0, 1, 253, 0, 0, 0, 0, 0, 0, 0, 0, 0, 0, 0, 0, 0, 0, 2]).getD { v4 := true, src := [], dst := [], hop := 0, proto := 0, ports := none, first := true, total := 0 }, [96, 0, 0, 0, 0, 0, 17, 64, 253, 0, 0, 0, 0, 0, 0, 0, 0, 0, 0, 0, 0, 0, 0, 1, 253, 0, 0, 0, 0, 0, 0, 0, 0, 0, 0, 0, 0, 0, 0, 2], iphcSeal [] (mac154 []) [96, 0, 0, 0, 0, 0, 17, 64, 253, 0, 0, 0, 0, 0, 0, 0, 0, 0, 0, 0, 0, 0, 0, 1, 253, 0, 0, 0, 0, 0, 0, 0, 0, 0, 0, 0, 0, 0, 0, 2], by decide⟩,
   ⟨{ ((((up.set (F.CTRL_ENABLE W.RTE) 1)).pokeHdr 1 0 [140 * 1024]).pokeData 1 0 [96, 0, 0, 0, 0, 100, 17, 64, 253, 0, 0, 0, 0, 0, 0, 0, 0, 0, 0, 0, 0, 0, 0, 1, 253, 0, 0, 0, 0, 0, 0, 0, 0, 0, 0, 0, 0, 0, 0, 2, 7, 7, 7, 7, 7, 7, 7, 7, 7, 7, 7, 7, 7, 7, 7, 7, 7, 7, 7, 7, 7, 7, 7, 7, 7, 7, 7, 7, 7, 7, 7, 7, 7, 7, 7, 7, 7, 7, 7, 7, 7, 7, 7, 7, 7, 7, 7, 7, 7, 7, 7, 7, 7, 7, 7, 7, 7, 7, 7, 7, 7, 7, 7, 7, 7, 7, 7, 7, 7, 7, 7, 7, 7, 7, 7, 7, 7, 7, 7, 7, 7, 7, 7, 7, 7, 7, 7, 7, 7, 7, 7, 7, 7, 7, 7, 7, 7, 7, 7, 7]) with yard := { up.yard with wagons := [(5, { wagon0 with decl := 0x81, ctype := 4 * 16 ^ 7 })], reqs := [{ words := [3 + 2 * 16 + 2 * 2 ^ 19, 1, 140, 6], sec := false, cs := 0, wid := 5, slot := 7 }] }, ram := { up.ram with pool := [(1, 0), (6, 0)] }, rte := up.rte }, { words := [3 + 2 * 16 + 2 * 2 ^ 19, 1, 140, 6], sec := false, cs := 0, wid := 5, slot := 7 }, { wagon0 with decl := 0x81, ctype := 4 * 16 ^ 7 }, (pktOf [96, 0, 0, 0, 0, 100, 17, 64, 253, 0, 0, 0, 0, 0, 0, 0, 0, 0, 0, 0, 0, 0, 0, 1, 253, 0, 0, 0, 0, 0, 0, 0, 0, 0, 0, 0, 0, 0, 0, 2, 7, 7, 7, 7, 7, 7, 7, 7, 7, 7, 7, 7, 7, 7, 7, 7, 7, 7, 7, 7, 7, 7, 7, 7, 7, 7, 7, 7, 7, 7, 7, 7, 7, 7, 7, 7, 7, 7, 7, 7, 7, 7, 7, 7, 7, 7, 7, 7, 7, 7, 7, 7, 7, 7, 7, 7, 7, 7, 7, 7, 7, 7, 7, 7, 7, 7, 7, 7, 7, 7, 7, 7, 7, 7, 7, 7, 7, 7, 7, 7, 7, 7, 7, 7, 7, 7, 7, 7, 7, 7, 7, 7, 7, 7, 7, 7, 7, 7, 7, 7]).getD { v4 := true, src := [], dst := [], hop := 0, proto := 0, ports := none, first := true, total := 0 }, [96, 0, 0, 0, 0, 100, 17, 64, 253, 0, 0, 0, 0, 0, 0, 0, 0, 0, 0, 0, 0, 0, 0, 1, 253, 0, 0, 0, 0, 0, 0, 0, 0, 0, 0, 0, 0, 0, 0, 2, 7, 7, 7, 7, 7, 7, 7, 7, 7, 7, 7, 7, 7, 7, 7, 7, 7, 7, 7, 7, 7, 7, 7, 7, 7, 7, 7, 7, 7, 7, 7, 7, 7, 7, 7, 7, 7, 7, 7, 7, 7, 7, 7, 7, 7, 7, 7, 7, 7, 7, 7, 7, 7, 7, 7, 7, 7, 7, 7, 7, 7, 7, 7, 7, 7, 7, 7, 7, 7, 7, 7, 7, 7, 7, 7, 7, 7, 7, 7, 7, 7, 7, 7, 7, 7, 7, 7, 7, 7, 7, 7, 7, 7, 7, 7, 7, 7, 7, 7, 7], iphcSeal [] (mac154 []) [96, 0, 0, 0, 0, 100, 17, 64, 253, 0, 0, 0, 0, 0, 0, 0, 0, 0, 0, 0, 0, 0, 0, 1, 253, 0, 0, 0, 0, 0, 0, 0, 0, 0, 0, 0, 0, 0, 0, 2, 7, 7, 7, 7, 7, 7, 7, 7, 7, 7, 7, 7, 7, 7, 7, 7, 7, 7, 7, 7, 7, 7, 7, 7, 7, 7, 7, 7, 7, 7, 7, 7, 7, 7, 7, 7, 7, 7, 7, 7, 7, 7, 7, 7, 7, 7, 7, 7, 7, 7, 7, 7, 7, 7, 7, 7, 7, 7, 7, 7, 7, 7, 7, 7, 7, 7, 7, 7, 7, 7, 7, 7, 7, 7, 7, 7, 7, 7, 7, 7, 7, 7, 7, 7, 7, 7, 7, 7, 7, 7, 7, 7, 7, 7, 7, 7, 7, 7, 7, 7], by decide⟩,
   ⟨{ ((((up.set (F.CTRL_ENABLE W.RTE) 1)).pokeHdr 1 0 [140 * 1024]).pokeData 1 0 [96, 0, 0, 0, 0, 100, 17, 64, 253, 0, 0, 0, 0, 0, 0, 0, 0, 0, 0, 0, 0, 0, 0, 1, 253, 0, 0, 0, 0, 0, 0, 0, 0, 0, 0, 0, 0, 0, 0, 2, 7, 7, 7, 7, 7, 7, 7, 7, 7, 7, 7, 7, 7, 7, 7, 7, 7, 7, 7, 7, 7, 7, 7, 7, 7, 7, 7, 7, 7, 7, 7, 7, 7, 7, 7, 7, 7, 7, 7, 7, 7, 7, 7, 7, 7, 7, 7, 7, 7, 7, 7, 7, 7, 7, 7, 7, 7, 7, 7, 7, 7, 7, 7, 7, 7, 7, 7, 7, 7, 7, 7, 7, 7, 7, 7, 7, 7, 7, 7, 7, 7, 7, 7, 7, 7, 7, 7, 7, 7, 7, 7, 7, 7, 7, 7, 7, 7, 7, 7, 7]) with yard := { up.yard with wagons := [(5, { wagon0 with decl := 0x81, ctype := 4 * 16 ^ 7 })], reqs := [{ words := [4 + 2 * 16 + 2 * 2 ^ 19, 1, 140, 6], sec := false, cs := 0, wid := 5, slot := 7 }] }, ram := { up.ram with pool := [(1, 0), (6, 0)] }, rte := up.rte }, { words := [4 + 2 * 16 + 2 * 2 ^ 19, 1, 140, 6], sec := false, cs := 0, wid := 5, slot := 7 }, { wagon0 with decl := 0x81, ctype := 4 * 16 ^ 7 }, (pktOf [96, 0, 0, 0, 0, 100, 17, 64, 253, 0, 0, 0, 0, 0, 0, 0, 0, 0, 0, 0, 0, 0, 0, 1, 253, 0, 0, 0, 0, 0, 0, 0, 0, 0, 0, 0, 0, 0, 0, 2, 7, 7, 7, 7, 7, 7, 7, 7, 7, 7, 7, 7, 7, 7, 7, 7, 7, 7, 7, 7, 7, 7, 7, 7, 7, 7, 7, 7, 7, 7, 7, 7, 7, 7, 7, 7, 7, 7, 7, 7, 7, 7, 7, 7, 7, 7, 7, 7, 7, 7, 7, 7, 7, 7, 7, 7, 7, 7, 7, 7, 7, 7, 7, 7, 7, 7, 7, 7, 7, 7, 7, 7, 7, 7, 7, 7, 7, 7, 7, 7, 7, 7, 7, 7, 7, 7, 7, 7, 7, 7, 7, 7, 7, 7, 7, 7, 7, 7, 7, 7]).getD { v4 := true, src := [], dst := [], hop := 0, proto := 0, ports := none, first := true, total := 0 }, [96, 0, 0, 0, 0, 100, 17, 64, 253, 0, 0, 0, 0, 0, 0, 0, 0, 0, 0, 0, 0, 0, 0, 1, 253, 0, 0, 0, 0, 0, 0, 0, 0, 0, 0, 0, 0, 0, 0, 2, 7, 7, 7, 7, 7, 7, 7, 7, 7, 7, 7, 7, 7, 7, 7, 7, 7, 7, 7, 7, 7, 7, 7, 7, 7, 7, 7, 7, 7, 7, 7, 7, 7, 7, 7, 7, 7, 7, 7, 7, 7, 7, 7, 7, 7, 7, 7, 7, 7, 7, 7, 7, 7, 7, 7, 7, 7, 7, 7, 7, 7, 7, 7, 7, 7, 7, 7, 7, 7, 7, 7, 7, 7, 7, 7, 7, 7, 7, 7, 7, 7, 7, 7, 7, 7, 7, 7, 7, 7, 7, 7, 7, 7, 7, 7, 7, 7, 7, 7, 7], iphcSeal [] (mac154 []) [96, 0, 0, 0, 0, 100, 17, 64, 253, 0, 0, 0, 0, 0, 0, 0, 0, 0, 0, 0, 0, 0, 0, 1, 253, 0, 0, 0, 0, 0, 0, 0, 0, 0, 0, 0, 0, 0, 0, 2, 7, 7, 7, 7, 7, 7, 7, 7, 7, 7, 7, 7, 7, 7, 7, 7, 7, 7, 7, 7, 7, 7, 7, 7, 7, 7, 7, 7, 7, 7, 7, 7, 7, 7, 7, 7, 7, 7, 7, 7, 7, 7, 7, 7, 7, 7, 7, 7, 7, 7, 7, 7, 7, 7, 7, 7, 7, 7, 7, 7, 7, 7, 7, 7, 7, 7, 7, 7, 7, 7, 7, 7, 7, 7, 7, 7, 7, 7, 7, 7, 7, 7, 7, 7, 7, 7, 7, 7, 7, 7, 7, 7, 7, 7, 7, 7, 7, 7, 7, 7], by decide⟩,
   ⟨{ ((((up.set (F.CTRL_ENABLE W.RTE) 1)).pokeHdr 1 0 [40 * 1024]).pokeData 1 0 [96, 0, 0, 0, 0, 0, 17, 64, 253, 0, 0, 0, 0, 0, 0, 0, 0, 0, 0, 0, 0, 0, 0, 1, 253, 0, 0, 0, 0, 0, 0, 0, 0, 0, 0, 0, 0, 0, 0, 2]) with yard := { up.yard with wagons := [(5, { wagon0 with decl := 0x81, ctype := 4 * 16 ^ 7 })], reqs := [{ words := [5 + 2 * 16 + 2 * 2 ^ 19, 1, 40, 6], sec := false, cs := 0, wid := 5, slot := 7 }] }, ram := { up.ram with pool := [(1, 0), (6, 0)] }, rte := { up.rte with tabs := [(2, [(0xfd000000000000000000000000000002, [0, 0, 0, 0, 1, 0, 0x10009])]), (6, [(9, [1, 0, 5, 6])])] } }, { words := [5 + 2 * 16 + 2 * 2 ^ 19, 1, 40, 6], sec := false, cs := 0, wid := 5, slot := 7 }, { wagon0 with decl := 0x81, ctype := 4 * 16 ^ 7 }, [0, 0, 0, 0, 1, 0, 0x10009], by decide⟩,
   ⟨{ ((((up.set (F.CTRL_ENABLE W.RTE) 1)).pokeHdr 1 0 [40 * 1024]).pokeData 1 0 [96, 0, 0, 0, 0, 0, 17, 64, 253, 0, 0, 0, 0, 0, 0, 0, 0, 0, 0, 0, 0, 0, 0, 1, 253, 0, 0, 0, 0, 0, 0, 0, 0, 0, 0, 0, 0, 0, 0, 2]) with yard := { up.yard with wagons := [(5, { wagon0 with decl := 0x81, ctype := 4 * 16 ^ 7 })], reqs := [{ words := [5 + 2 * 16 + 2 * 2 ^ 19, 1, 40, 6], sec := false, cs := 0, wid := 5, slot := 7 }] }, ram := { up.ram with pool := [(1, 0), (6, 0)] }, rte := up.rte }, { words := [5 + 2 * 16 + 2 * 2 ^ 19, 1, 40, 6], sec := false, cs := 0, wid := 5, slot := 7 }, { wagon0 with decl := 0x81, ctype := 4 * 16 ^ 7 }, by decide⟩,
   ⟨{ up with rte := { up.rte with reasm := [{ tile := 1, src := (1, 2), size := 3, tag := 4, since := 0, held := [], sum := none }] }, tm := { up.tm with tb := 61000000000 * 2 ^ 32 } }, 0, { tile := 1, src := (1, 2), size := 3, tag := 4, since := 0, held := [], sum := none }, by decide⟩⟩

/-- Every clause of Watches with hypotheses is met. -/
theorem witness_Watches :
    (∃ (s : State) (n : Nat), n < 16 ∧ (s.watch n).raw = true ∧ s.watchInd n = false ∧ s.on (F.RTE_WATCH_UP n) = true) ∧
    (∃ (s : State) (n : Nat), n < 16 ∧ (s.watch n).raw = false ∧ s.watchInd n = true) ∧
    (∃ (s : State) (n : Nat), n < 16 ∧ (s.watch n).raw = true ∧ s.on (F.RTE_WATCH_UP n) = false ∧ s.on (F.RTE_WATCH_REVERT n) = true
      ∧ (s.watch n).since + s.get (F.RTE_WATCH_HOLD n) * 10000000 ≤ s.ns) ∧
    (∃ (s : State) (n : Nat), ((s.watch n).raw = false ∨ s.on (F.RTE_WATCH_REVERT n) = false)) ∧
    (∃ (s : State) (rq : Rq) (n : Nat) (v : Word), s.winOn W.RTE = true ∧ (rq.cls = 2 → s.dbgLevel = 2) ∧ n < 16 ∧ v.toNat = 2 ^ 4
      ∧ s.get (F.RTE_WATCH_KIND n) = 0 ∧ s.on (F.RTE_WATCH_FORCEDOWN n) = false ∧ (s.watch n).raw = true
      ∧ s.on (F.RTE_WATCH_UP n) = false) :=
  ⟨⟨{ (up.sets [(F.RTE_WATCH_KIND 15, 1), (F.RTE_WATCH_TARGET 15, 7), (F.RTE_WATCH_UP 15, 1)]) with rte := { up.rte with watch := [(15, { raw := true, since := 0, prev := true, chg := 0 })] } }, 15, by decide⟩,
   ⟨{ (up.sets [(F.RTE_WATCH_UP 15, 0)]) with rte := { up.rte with watch := [(15, { raw := false, since := 0, prev := true, chg := 0 })] } }, 15, by decide⟩,
   ⟨{ (up.sets [(F.RTE_WATCH_HOLD 15, 0), (F.RTE_WATCH_UP 15, 0)]) with rte := { up.rte with watch := [(15, { raw := true, since := 0, prev := true, chg := 0 })] } }, 15, by decide⟩,
   ⟨{ (up.sets [(F.RTE_WATCH_HOLD 15, 0), (F.RTE_WATCH_UP 15, 0)]) with rte := { up.rte with watch := [(15, { raw := false, since := 0, prev := true, chg := 0 })] } }, 15, by decide⟩,
   ⟨{ (up.sets [(F.RTE_WATCH_UP 15, 0)]) with rte := { up.rte with watch := [(15, { raw := true, since := 0, prev := true, chg := 0 })] } }, { cls := 0, num := 3 }, 15, 0x10#32, by decide⟩⟩

/-- Every clause of FrameStarts with hypotheses is met. -/
theorem witness_FrameStarts :
    (∃ (s : State) (n : Nat) (c : Nat) (e : SEnt), n < 8 ∧ (s.shpOf n).tx = none ∧ s.canStart n = true ∧ (s.shpOf n).timed = []
      ∧ (s.emacOf n).want = none ∧ (s.shpOf n).q = [(c, [e])] ∧ c < 8 ∧ s.gateOpen n c = true ∧ s.paused n c = false
      ∧ s.on (F.SHP_TLCTL_RUNNING n) = false ∧ (s.shpOf n).start = none ∧ s.txBad n e.out.handle = 0 ∧ (s.shpCfg n c).1 = 0) ∧
    (∃ (s : State) (n : Nat) (x : STx), n < 8 ∧ (s.shpOf n).tx = some x ∧ x.ent = none ∧ x.beg + s.air16 n x.len ≤ s.el
      ∧ s.on (F.EMAC_CFG_TXEN n) = false ∧ s.on (F.LANE_CTRL2_EIDLE n) = false) ∧
    (∃ (s : State) (n : Nat) (x : STx), (s.shpOf n).tx = some x ∧ s.el < x.beg + s.air16 n x.len) ∧
    (∃ (s : State) (n : Nat) (c : Nat) (e : SEnt), n < 8 ∧ (s.shpOf n).tx = none ∧ 0 ≤ (s.portSync n).credit n c ∧ s.canStart n = true
      ∧ (s.shpOf n).timed = [] ∧ (s.emacOf n).want = none ∧ (s.shpOf n).q = [(c, [e])] ∧ c < 8 ∧ s.gateOpen n c = true
      ∧ s.paused n c = false ∧ s.on (F.SHP_TLCTL_RUNNING n) = false ∧ (s.shpOf n).start = none ∧ s.txBad n e.out.handle = 0) ∧
    (∃ (s : State) (n : Nat), n < 8 ∧ s.winOn (W.SHP n) = true ∧ (s.shpOf n).dirty = true ∧ (s.shpOf n).wrote ≠ some s.tm.mono
      ∧ s.slopesFit n (s.shpRegs n) = true ∧ s.on (F.EMAC_CFG_TXEN n) = false) ∧
    (∃ (s : State) (n : Nat), n < 8 ∧ s.winOn (W.SHP n) = true ∧ (s.shpOf n).dirty = true ∧ (s.shpOf n).wrote ≠ some s.tm.mono
      ∧ s.slopesFit n (s.shpRegs n) = false ∧ s.on (F.EMAC_CFG_TXEN n) = false) :=
  ⟨⟨(((up.sets [(F.CTRL_ENABLE (W.SHP 7), 1), (F.CTRL_ENABLE (W.EMAC 7), 1), (F.EMAC_LINK_UP 7, 1), (F.SHP_PORTRATE_RATE 7, 1000000)]).pokeHdr 1 0 [64 * 1024])).setShp 7 { shp0 with q := [(5, [{ out := { handle := 1, dest := 0, queue := 47, launch := 0, timed := false, compl := false, keep := false, ctrain := 0 }, miss := false, at' := 0 }])] }, 7, 5, { out := { handle := 1, dest := 0, queue := 47, launch := 0, timed := false, compl := false, keep := false, ctrain := 0 }, miss := false, at' := 0 }, by decide⟩,
   ⟨(((up.sets [(F.CTRL_ENABLE (W.SHP 7), 1), (F.CTRL_ENABLE (W.EMAC 7), 1), (F.EMAC_LINK_UP 7, 1), (F.SHP_PORTRATE_RATE 7, 1000000)]).pokeHdr 1 0 [64 * 1024]).set (F.EMAC_CFG_TXEN 7) 0).setShp 7 { shp0 with tx := some { ent := none, cls := 0, beg := 0, len := 0, data := [], stamp := 0 } }, 7, { ent := none, cls := 0, beg := 0, len := 0, data := [], stamp := 0 }, by decide⟩,
   ⟨(((up.sets [(F.CTRL_ENABLE (W.SHP 7), 1), (F.CTRL_ENABLE (W.EMAC 7), 1), (F.EMAC_LINK_UP 7, 1), (F.SHP_PORTRATE_RATE 7, 1000000)]).pokeHdr 1 0 [64 * 1024])).setShp 7 { shp0 with tx := some { ent := none, cls := 0, beg := 0, len := 84, data := [], stamp := 0 } }, 7, { ent := none, cls := 0, beg := 0, len := 84, data := [], stamp := 0 }, by decide⟩,
   ⟨(((up.sets [(F.CTRL_ENABLE (W.SHP 7), 1), (F.CTRL_ENABLE (W.EMAC 7), 1), (F.EMAC_LINK_UP 7, 1), (F.SHP_PORTRATE_RATE 7, 1000000)]).pokeHdr 1 0 [64 * 1024])).setShp 7 { shp0 with cfg := List.replicate 8 (1, 20, 256, 1000), q := [(5, [{ out := { handle := 1, dest := 0, queue := 47, launch := 0, timed := false, compl := false, keep := false, ctrain := 0 }, miss := false, at' := 0 }])] }, 7, 5, { out := { handle := 1, dest := 0, queue := 47, launch := 0, timed := false, compl := false, keep := false, ctrain := 0 }, miss := false, at' := 0 }, by decide⟩,
   ⟨(((up.sets [(F.CTRL_ENABLE (W.SHP 7), 1), (F.CTRL_ENABLE (W.EMAC 7), 1), (F.EMAC_LINK_UP 7, 1), (F.SHP_PORTRATE_RATE 7, 1000000)]).pokeHdr 1 0 [64 * 1024]).sets [(F.EMAC_CFG_TXEN 7, 0), (F.SHP_CLASS_MODE 7 3, 1), (F.SHP_IDLE_IDLESLOPE 7 3, 1000000), (F.SHP_TLCTL_SLOPEBAD 7, 1)]).setShp 7 { shp0 with dirty := true }, 7, by decide⟩,
   ⟨(((up.sets [(F.CTRL_ENABLE (W.SHP 7), 1), (F.CTRL_ENABLE (W.EMAC 7), 1), (F.EMAC_LINK_UP 7, 1), (F.SHP_PORTRATE_RATE 7, 1000000)]).pokeHdr 1 0 [64 * 1024]).sets [(F.EMAC_CFG_TXEN 7, 0), (F.SHP_CLASS_MODE 7 3, 1), (F.SHP_IDLE_IDLESLOPE 7 3, 1000001)]).setShp 7 { shp0 with dirty := true }, 7, by decide⟩⟩

/-- Every clause of TurnLists with hypotheses is met. -/
theorem witness_TurnLists :
    (∃ (s : State) (rq : Rq) (n : Nat) (v : Word), n < 8 ∧ s.winOn (W.SHP n) = true ∧ (rq.cls = 2 → s.dbgLevel = 2) ∧ v.toNat = 1
      ∧ s.on (F.SHP_TLCTL_EN n) = false ∧ s.tlCause n (s.get (F.SHP_TLCTL_ACTIVE n)) = 0) ∧
    (∃ (s : State) (rq : Rq) (n : Nat) (v : Word) (c : Nat), n < 8 ∧ s.winOn (W.SHP n) = true ∧ (rq.cls = 2 → s.dbgLevel = 2)
      ∧ v.toNat = 1 ∧ s.on (F.SHP_TLCTL_EN n) = false ∧ s.tlCause n (s.get (F.SHP_TLCTL_ACTIVE n)) = c ∧ c ≠ 0) ∧
    (∃ (s : State) (rq : Rq) (n : Nat) (v : Word), n < 8 ∧ s.winOn (W.SHP n) = true ∧ (rq.cls = 2 → s.dbgLevel = 2) ∧ v.toNat = 0
      ∧ s.on (F.SHP_TLCTL_EN n) = true ∧ s.on (F.EMAC_CFG_TXEN n) = false) ∧
    (∃ (s : State) (rq : Rq) (n : Nat) (v : Word), n < 8 ∧ s.winOn (W.SHP n) = true ∧ (rq.cls = 2 → s.dbgLevel = 2) ∧ v.toNat = 4
      ∧ s.on (F.SHP_TLCTL_EN n) = false ∧ s.on (F.SHP_TLCTL_SWPEND n) = false ∧ s.tlCause n (1 - s.get (F.SHP_TLCTL_ACTIVE n)) = 0) ∧
    (∃ (s : State) (rq : Rq) (n : Nat) (v : Word), n < 8 ∧ s.winOn (W.SHP n) = true ∧ (rq.cls = 2 → s.dbgLevel = 2) ∧ v.toNat = 5
      ∧ s.on (F.SHP_TLCTL_EN n) = true ∧ s.on (F.SHP_TLCTL_SWPEND n) = false ∧ s.tlCause n (1 - s.get (F.SHP_TLCTL_ACTIVE n)) = 0) ∧
    (∃ (s : State) (rq : Rq) (n : Nat) (v : Word), n < 8 ∧ s.winOn (W.SHP n) = true ∧ (rq.cls = 2 → s.dbgLevel = 2) ∧ v.toNat = 5
      ∧ s.on (F.SHP_TLCTL_EN n) = true ∧ s.on (F.SHP_TLCTL_SWPEND n) = true) ∧
    (∃ (s : State) (n : Nat) (a : Nat) (c : Nat), n < 8 ∧ (s.shpOf n).swit = none ∧ (s.shpOf n).start = some (a, c) ∧ a ≤ s.ns
      ∧ s.on (F.EMAC_CFG_TXEN n) = false) ∧
    (∃ (s : State) (n : Nat) (a : Nat) (c : Nat), n < 8 ∧ (s.shpOf n).swit = some (a, c) ∧ a ≤ s.ns ∧ c < 2
      ∧ s.on (F.EMAC_CFG_TXEN n) = false) ∧
    (∃ (s : State) (n : Nat), n < 8 ∧ s.on (F.SHP_TLCTL_RUNNING n) = true ∧ s.on (F.EMAC_CFG_TXEN n) = false) ∧
    (∃ (s : State) (n : Nat) (h : Nat) (b : Bool) (e : SEnt), n < 8 ∧ (s.shpOf n).timed = [e] ∧ e.out.handle = h ∧ e.at' ≤ s.ns
      ∧ s.ns ≤ e.at' + 8 ∧ s.canStart n = true ∧ (s.shpOf n).q = [] ∧ (s.emacOf n).want = none ∧ s.gateOpen n (outCls e.out) = true
      ∧ s.paused n (outCls e.out) = false ∧ s.txBad n h = 0) ∧
    (∃ (s : State) (n : Nat) (h : Nat) (b : Bool) (e : SEnt), n < 8 ∧ (s.shpOf n).timed = [e] ∧ e.out.handle = h ∧ e.at' + 8 < s.ns
      ∧ e.out.compl = false ∧ (s.shpOf n).q = [] ∧ (s.emacOf n).want = none) :=
  ⟨⟨(up.sets [(F.SHP_COUNT_COUNT 7 0, 1), (F.SHP_CYCLE_CYCLE 7 0, 1000), (F.SHP_TURN_INTERVAL 7 0 0, 1000), (F.SHP_COUNT_COUNT 7 1, 1), (F.SHP_CYCLE_CYCLE 7 1, 1000000000), (F.SHP_TURN_INTERVAL 7 1 0, 1), (F.SHP_TURN_GATES 7 1 0, 0x81)]), { cls := 0, num := 3 }, 7, 1#32, by decide⟩,
   ⟨(up.sets [(F.SHP_COUNT_COUNT 7 0, 1), (F.SHP_CYCLE_CYCLE 7 0, 1000), (F.SHP_TURN_INTERVAL 7 0 0, 1000), (F.SHP_COUNT_COUNT 7 1, 1), (F.SHP_CYCLE_CYCLE 7 1, 1000000000), (F.SHP_TURN_INTERVAL 7 1 0, 1), (F.SHP_TURN_GATES 7 1 0, 0x81)]).set (F.SHP_TURN_INTERVAL 7 0 0) 0, { cls := 0, num := 3 }, 7, 1#32, 3, by decide⟩,
   ⟨(up.sets [(F.SHP_COUNT_COUNT 7 0, 1), (F.SHP_CYCLE_CYCLE 7 0, 1000), (F.SHP_TURN_INTERVAL 7 0 0, 1000), (F.SHP_COUNT_COUNT 7 1, 1), (F.SHP_CYCLE_CYCLE 7 1, 1000000000), (F.SHP_TURN_INTERVAL 7 1 0, 1), (F.SHP_TURN_GATES 7 1 0, 0x81)]).sets [(F.SHP_TLCTL_EN 7, 1), (F.SHP_TLCTL_RUNNING 7, 1), (F.SHP_TLSTAT_GATES 7, 1), (F.EMAC_CFG_TXEN 7, 0)], { cls := 0, num := 3 }, 7, 0#32, by decide⟩,
   ⟨(up.sets [(F.SHP_COUNT_COUNT 7 0, 1), (F.SHP_CYCLE_CYCLE 7 0, 1000), (F.SHP_TURN_INTERVAL 7 0 0, 1000), (F.SHP_COUNT_COUNT 7 1, 1), (F.SHP_CYCLE_CYCLE 7 1, 1000000000), (F.SHP_TURN_INTERVAL 7 1 0, 1), (F.SHP_TURN_GATES 7 1 0, 0x81)]), { cls := 0, num := 3 }, 7, 4#32, by decide⟩,
   ⟨(up.sets [(F.SHP_COUNT_COUNT 7 0, 1), (F.SHP_CYCLE_CYCLE 7 0, 1000), (F.SHP_TURN_INTERVAL 7 0 0, 1000), (F.SHP_COUNT_COUNT 7 1, 1), (F.SHP_CYCLE_CYCLE 7 1, 1000000000), (F.SHP_TURN_INTERVAL 7 1 0, 1), (F.SHP_TURN_GATES 7 1 0, 0x81)]).set (F.SHP_TLCTL_EN 7) 1, { cls := 0, num := 3 }, 7, 5#32, by decide⟩,
   ⟨(up.sets [(F.SHP_COUNT_COUNT 7 0, 1), (F.SHP_CYCLE_CYCLE 7 0, 1000), (F.SHP_TURN_INTERVAL 7 0 0, 1000), (F.SHP_COUNT_COUNT 7 1, 1), (F.SHP_CYCLE_CYCLE 7 1, 1000000000), (F.SHP_TURN_INTERVAL 7 1 0, 1), (F.SHP_TURN_GATES 7 1 0, 0x81)]).sets [(F.SHP_TLCTL_EN 7, 1), (F.SHP_TLCTL_SWPEND 7, 1)], { cls := 0, num := 3 }, 7, 5#32, by decide⟩,
   ⟨((up.sets [(F.SHP_COUNT_COUNT 7 0, 1), (F.SHP_CYCLE_CYCLE 7 0, 1000), (F.SHP_TURN_INTERVAL 7 0 0, 1000), (F.SHP_COUNT_COUNT 7 1, 1), (F.SHP_CYCLE_CYCLE 7 1, 1000000000), (F.SHP_TURN_INTERVAL 7 1 0, 1), (F.SHP_TURN_GATES 7 1 0, 0x81)]).sets [(F.EMAC_CFG_TXEN 7, 0), (F.SHP_TLCTL_ACTIVE 7, 1)]).setShp 7 { shp0 with start := some (0, 1) }, 7, 0, 1, by decide⟩,
   ⟨((up.sets [(F.SHP_COUNT_COUNT 7 0, 1), (F.SHP_CYCLE_CYCLE 7 0, 1000), (F.SHP_TURN_INTERVAL 7 0 0, 1000), (F.SHP_COUNT_COUNT 7 1, 1), (F.SHP_CYCLE_CYCLE 7 1, 1000000000), (F.SHP_TURN_INTERVAL 7 1 0, 1), (F.SHP_TURN_GATES 7 1 0, 0x81)]).set (F.EMAC_CFG_TXEN 7) 0).setShp 7 { shp0 with swit := some (0, 1) }, 7, 0, 1, by decide⟩,
   ⟨(up.sets [(F.SHP_COUNT_COUNT 7 0, 1), (F.SHP_CYCLE_CYCLE 7 0, 1000), (F.SHP_TURN_INTERVAL 7 0 0, 1000), (F.SHP_COUNT_COUNT 7 1, 1), (F.SHP_CYCLE_CYCLE 7 1, 1000000000), (F.SHP_TURN_INTERVAL 7 1 0, 1), (F.SHP_TURN_GATES 7 1 0, 0x81)]).sets [(F.SHP_TLCTL_RUNNING 7, 1), (F.SHP_TLCTL_ACTIVE 7, 1), (F.EMAC_CFG_TXEN 7, 0)], 7, by decide⟩,
   ⟨{ ((((up.sets [(F.CTRL_ENABLE (W.SHP 7), 1), (F.CTRL_ENABLE (W.EMAC 7), 1), (F.EMAC_LINK_UP 7, 1), (F.SHP_PORTRATE_RATE 7, 1000000)]).pokeHdr 1 0 [64 * 1024])).setShp 7 { shp0 with timed := [{ out := { handle := 1, dest := 0, queue := 47, launch := 0, timed := true, compl := false, keep := false, ctrain := 0 }, miss := false, at' := 1000000 }] }) with tm := { up.tm with tb := 1000008 * 2 ^ 32 } }, 7, 1, true, { out := { handle := 1, dest := 0, queue := 47, launch := 0, timed := true, compl := false, keep := false, ctrain := 0 }, miss := false, at' := 1000000 }, by decide⟩,
   ⟨{ ((((up.sets [(F.CTRL_ENABLE (W.SHP 7), 1), (F.CTRL_ENABLE (W.EMAC 7), 1), (F.EMAC_LINK_UP 7, 1), (F.SHP_PORTRATE_RATE 7, 1000000)]).pokeHdr 1 0 [64 * 1024])).setShp 7 { shp0 with timed := [{ out := { handle := 1, dest := 0, queue := 47, launch := 0, timed := true, compl := false, keep := false, ctrain := 0 }, miss := false, at' := 1000000 }] }) with tm := { up.tm with tb := 1000009 * 2 ^ 32 } }, 7, 1, true, { out := { handle := 1, dest := 0, queue := 47, launch := 0, timed := true, compl := false, keep := false, ctrain := 0 }, miss := false, at' := 1000000 }, by decide⟩⟩

/-- Every clause of LaneStates with hypotheses is met. -/
theorem witness_LaneStates :
    (∃ (s : State) (n : Nat), n < 8 ∧ s.laneSt n = 1 ∧ isKr (s.laneMode n) = true ∧ s.on (F.LANE_MODE_AN n) = true) ∧
    (∃ (s : State) (n : Nat), n < 8 ∧ s.laneSt n = 1 ∧ isKr (s.laneMode n) = false) ∧
    (∃ (s : State) (n : Nat) (c : Nat) (p : Nat) (b : Bool), n < 8 ∧ s.laneSt n = 2 ∧ c < 3 ∧ p < 4) ∧
    (∃ (s : State) (n : Nat) (c : Nat) (p : Nat) (b : Bool), n < 8 ∧ s.laneSt n = 2) ∧
    (∃ (s : State) (n : Nat) (a : Nat) (b : Nat) (c : Nat), n < 8 ∧ s.laneSt n = 3 ∧ a < 16 ∧ b < 64 ∧ c < 32) ∧
    (∃ (s : State) (n : Nat), n < 8 ∧ s.laneSt n = 3) ∧
    (∃ (s : State) (n : Nat), n < 8 ∧ s.laneSt n = 4 ∧ s.laneMode n = 1) ∧
    (∃ (s : State) (n : Nat), n < 8 ∧ s.laneSt n = 4 ∧ 3 ≤ s.laneMode n) ∧
    (∃ (s : State) (n : Nat), n < 8 ∧ s.laneSt n = 4) ∧
    (∃ (s : State) (n : Nat) (a : Nat) (c : Nat), n < 8 ∧ s.laneSt n = 5 ∧ c < 4) ∧
    (∃ (s : State) (n : Nat), n < 8 ∧ s.laneSt n = 6) ∧
    (∃ (s : State) (rq : Rq) (n : Nat) (v : Word), n < 8 ∧ s.winOn (W.LANE n) = true ∧ (rq.cls = 2 → s.dbgLevel = 2)
      ∧ v.toNat = 2 + s.get (F.LANE_CTRL2_EIDLE n) ∧ s.get (F.LANE_CTRL2_EIDLE n) < 2 ∧ s.laneSt n = 6 ∧ isKr (s.laneMode n) = true
      ∧ s.on (F.LANE_MODE_AN n) = false) ∧
    (∃ (s : State) (rq : Rq) (n : Nat) (v : Word), n < 8 ∧ s.winOn (W.LANE n) = true ∧ (rq.cls = 2 → s.dbgLevel = 2) ∧ v.toNat = 1
      ∧ s.on (F.LANE_CTRL2_EIDLE n) = false ∧ (s.shpOf n).tx = none) ∧
    (∃ (s : State) (rq : Rq) (n : Nat) (v : Word), n < 8 ∧ s.winOn (W.LANE n) = true ∧ (rq.cls = 2 → s.dbgLevel = 2) ∧ v.toNat = 0
      ∧ s.on (F.LANE_CTRL2_EIDLE n) = true ∧ s.laneSt n ≠ 0 ∧ s.on (F.EMAC_CFG_TXEN n) = false) :=
  ⟨⟨up.sets [(F.LANE_STAT_STATE 7, 1), (F.LANE_MODE_MODE 7, 6)], 7, by decide⟩,
   ⟨up.sets [(F.LANE_STAT_STATE 7, 1), (F.LANE_MODE_MODE 7, 2)], 7, by decide⟩,
   ⟨up.sets [(F.LANE_STAT_STATE 7, 2), (F.LANE_MODE_MODE 7, 6)], 7, 2, 3, true, by decide⟩,
   ⟨up.sets [(F.LANE_STAT_STATE 7, 2), (F.LANE_MODE_MODE 7, 6)], 7, 2, 3, true, by decide⟩,
   ⟨up.sets [(F.LANE_STAT_STATE 7, 3), (F.LANE_MODE_MODE 7, 6)], 7, 15, 63, 31, by decide⟩,
   ⟨up.sets [(F.LANE_STAT_STATE 7, 3), (F.LANE_MODE_MODE 7, 6)], 7, by decide⟩,
   ⟨up.sets [(F.LANE_STAT_STATE 7, 4), (F.LANE_MODE_MODE 7, 1)], 7, by decide⟩,
   ⟨up.sets [(F.LANE_STAT_STATE 7, 4), (F.LANE_MODE_MODE 7, 3)], 7, by decide⟩,
   ⟨up.sets [(F.LANE_STAT_STATE 7, 4), (F.LANE_MODE_MODE 7, 6)], 7, by decide⟩,
   ⟨up.sets [(F.LANE_STAT_STATE 7, 5), (F.LANE_MODE_MODE 7, 1)], 7, 1, 3, by decide⟩,
   ⟨up.sets [(F.LANE_STAT_STATE 7, 6), (F.LANE_MODE_MODE 7, 6)], 7, by decide⟩,
   ⟨up.sets [(F.LANE_STAT_STATE 7, 6), (F.LANE_MODE_MODE 7, 6), (F.LANE_MODE_AN 7, 0), (F.LANE_STAT_WORDLOCK 7, 1)],
      { cls := 0, num := 3 }, 7, 2#32, by decide⟩,
   ⟨up.sets [(F.LANE_STAT_STATE 7, 6), (F.LANE_MODE_MODE 7, 6)], { cls := 0, num := 3 }, 7, 1#32, by decide⟩,
   ⟨up.sets [(F.LANE_STAT_STATE 7, 6), (F.LANE_MODE_MODE 7, 6), (F.LANE_CTRL2_EIDLE 7, 1), (F.LANE_STAT_IDLE 7, 1), (F.EMAC_CFG_TXEN 7, 0)], { cls := 0, num := 3 }, 7, 0#32, by decide⟩⟩

/-- Every clause of LinksAndReception with hypotheses is met. -/
theorem witness_LinksAndReception :
    (∃ (s : State) (n : Nat) (a : Bool) (b : Bool), n < 8 ∧ s.on (F.EMAC_LINK_UP n) = true ∧ (s.shpOf n).tx = none
      ∧ (s.emacOf n).rx = none ∧ (s.shpOf n).q = [] ∧ (s.shpOf n).timed = []) ∧
    (∃ (s : State) (n : Nat), n < 8 ∧ s.on (F.EMAC_LINK_UP n) = false ∧ s.laneSt n = 6 ∧ s.laneMode n = 5 ∧ s.winOn (W.EMAC n) = true
      ∧ s.on (F.EMAC_CFG_TXEN n) = false) ∧
    (∃ (s : State) (n : Nat), n < 8 ∧ s.enabled (W.EMAC n) = true ∧ s.on (F.EMAC_CFG_RXEN n) = true ∧ s.on (F.EMAC_LINK_UP n) = true
      ∧ (s.emacOf n).rx = none ∧ 0 < s.bufFree (classFor (s.get (F.EMAC_MAXLEN_MAXLEN n)))
      ∧ kget s.ram.pool (s.bufHandle (classFor (s.get (F.EMAC_MAXLEN_MAXLEN n))) 0) = none ∧ s.enabled W.YARD = true
      ∧ s.resvAll < s.slotsFree ∧ s.trainRoom (s.origTrain (11 + n)) = true) ∧
    (∃ (s : State) (n : Nat), n < 8 ∧ s.enabled (W.EMAC n) = true ∧ s.on (F.EMAC_CFG_RXEN n) = true ∧ s.on (F.EMAC_LINK_UP n) = true
      ∧ (s.emacOf n).rx = none ∧ (∀ k ∈ List.range 4, s.bufFree k = 0)) ∧
    (∃ (s : State) (n : Nat) (l : List Byte) (h : Nat) (x : Nat) (q : Nat), n < 8 ∧ (s.emacOf n).rx = some (h, x, q) ∧ l.length ≤ 63
      ∧ s.bufAimed h = false) ∧
    (∃ (s : State) (n : Nat) (l : List Byte) (h : Nat) (x : Nat) (q : Nat), n < 8 ∧ (s.emacOf n).rx = some (h, x, q)
      ∧ s.bufAimed h = false) ∧
    (∃ (s : State) (n : Nat) (l : List Byte) (h : Nat) (x : Nat) (q : Nat), n < 8 ∧ (s.emacOf n).rx = some (h, x, q) ∧ 64 ≤ l.length
      ∧ l.length ≤ s.get (F.EMAC_MAXLEN_MAXLEN n) ∧ ofLE (l.drop (l.length - 4)) = crc32 (l.take (l.length - 4))
      ∧ ofBE ((l.drop 12).take 2) ≠ 0x8808 ∧ s.ethFilter n (l.take 6) = true ∧ bitOf (s.get F.SEC_MACSEC_EN) n = false
      ∧ s.yard.wagons = [] ∧ s.yard.reqs = []) :=
  ⟨⟨(up.sets [(F.CTRL_ENABLE (W.SHP 7), 1), (F.CTRL_ENABLE (W.EMAC 7), 1), (F.EMAC_LINK_UP 7, 1), (F.SHP_PORTRATE_RATE 7, 1000000), (F.LANE_STAT_STATE 7, 6), (F.LANE_MODE_MODE 7, 6)]).setEmac 7 { emac0 with speed := 2, pause := [(7, 5)] }, 7, true, false, by decide⟩,
   ⟨(up.sets [(F.CTRL_ENABLE (W.SHP 7), 1), (F.CTRL_ENABLE (W.EMAC 7), 1), (F.EMAC_LINK_UP 7, 1), (F.SHP_PORTRATE_RATE 7, 1000000), (F.LANE_STAT_STATE 7, 6), (F.LANE_MODE_MODE 7, 6), (F.EMAC_LINK_UP 7, 0), (F.LANE_MODE_MODE 7, 5), (F.EMAC_CFG_TXEN 7, 0)]).setEmac 7 { emac0 with speed := 2 }, 7, by decide⟩,
   ⟨(((up.sets [(F.CTRL_ENABLE (W.SHP 7), 1), (F.CTRL_ENABLE (W.EMAC 7), 1), (F.EMAC_LINK_UP 7, 1), (F.SHP_PORTRATE_RATE 7, 1000000), (F.LANE_STAT_STATE 7, 6), (F.LANE_MODE_MODE 7, 6)]).setEmac 7 { emac0 with speed := 2 }).set (F.CTRL_ENABLE W.YARD) 1), 7, by decide⟩,
   ⟨(fun s => { s with ram := { s.ram with counts := [0, 0, 0, 0] } }) ((up.sets [(F.CTRL_ENABLE (W.SHP 7), 1), (F.CTRL_ENABLE (W.EMAC 7), 1), (F.EMAC_LINK_UP 7, 1), (F.SHP_PORTRATE_RATE 7, 1000000), (F.LANE_STAT_STATE 7, 6), (F.LANE_MODE_MODE 7, 6)]).setEmac 7 { emac0 with speed := 2 }), 7, by decide⟩,
   ⟨(fun s => { s with ram := { s.ram with pool := [(7, 1)] } }) ((up.sets [(F.CTRL_ENABLE (W.SHP 7), 1), (F.CTRL_ENABLE (W.EMAC 7), 1), (F.EMAC_LINK_UP 7, 1), (F.SHP_PORTRATE_RATE 7, 1000000), (F.LANE_STAT_STATE 7, 6), (F.LANE_MODE_MODE 7, 6)]).setEmac 7 { emac0 with speed := 2, rx := some (7, 0, 0) }), 7, [1, 2, 3], 7, 0, 0, by decide⟩,
   ⟨(fun s => { s with ram := { s.ram with pool := [(7, 1)] } }) ((up.sets [(F.CTRL_ENABLE (W.SHP 7), 1), (F.CTRL_ENABLE (W.EMAC 7), 1), (F.EMAC_LINK_UP 7, 1), (F.SHP_PORTRATE_RATE 7, 1000000), (F.LANE_STAT_STATE 7, 6), (F.LANE_MODE_MODE 7, 6)]).setEmac 7 { emac0 with speed := 2, rx := some (7, 0, 0) }), 7, [1, 2, 3], 7, 0, 0, by decide⟩,
   ⟨(fun s => { s with ram := { s.ram with pool := [(1, 0)] } }) ((up.sets [(F.CTRL_ENABLE (W.SHP 7), 1), (F.CTRL_ENABLE (W.EMAC 7), 1), (F.EMAC_LINK_UP 7, 1), (F.SHP_PORTRATE_RATE 7, 1000000), (F.LANE_STAT_STATE 7, 6), (F.LANE_MODE_MODE 7, 6)]).setEmac 7 { emac0 with speed := 2, rx := some (1, 0, 0) }), 7, withFcs (List.replicate 6 0xFF ++ List.replicate 54 1), 1, 0, 0, by decide⟩⟩

/-- Every clause of FlowControlAndLpi with hypotheses is met. -/
theorem witness_FlowControlAndLpi :
    (∃ (s : State) (n : Nat) (c : Nat) (x : Nat), n < 8 ∧ c < 8 ∧ kget (s.emacOf n).pause c = some x ∧ x ≤ s.el
      ∧ s.get (F.EMAC_CFG_FCMODE n) = 2 ∧ s.on (F.EMAC_CFG_TXEN n) = false) ∧
    (∃ (s : State) (rq : Rq) (n : Nat) (v : Word), n < 8 ∧ s.winOn (W.EMAC n) = true ∧ (rq.cls = 2 → s.dbgLevel = 2)
      ∧ v.toNat / 2 ^ 24 = 1 ∧ s.get (F.EMAC_CFG_FCMODE n) = 1 ∧ s.on (F.EMAC_CFG_TXEN n) = false) ∧
    (∃ (s : State) (rq : Rq) (n : Nat) (v : Word), n < 8 ∧ s.winOn (W.EMAC n) = true ∧ (rq.cls = 2 → s.dbgLevel = 2)
      ∧ v.toNat / 2 ^ 24 = 1 ∧ s.get (F.EMAC_CFG_FCMODE n) = 0 ∧ s.on (F.ERRINFO_VALID (W.EMAC n)) = false) ∧
    (∃ (s : State) (n : Nat) (a : Nat) (b : Nat) (x : Nat), n < 8 ∧ (s.emacOf n).sent = some (a, b, x)
      ∧ s.on (F.EMAC_TXPAUSE_HOLD n) = true ∧ 0 < a ∧ (s.emacOf n).want = none ∧ x * 65536 + s.quanta16 n a / 2 ≤ s.el
      ∧ s.on (F.EMAC_CFG_TXEN n) = false) ∧
    (∃ (s : State) (n : Nat), n < 8 ∧ s.enabled (W.EMAC n) = true ∧ s.on (F.EMAC_CFG_EEE n) = true ∧ s.lpiMode n = true
      ∧ s.on (F.EMAC_LINK_UP n) = true ∧ s.on (F.EMAC_LINK_TXLPI n) = false ∧ s.lpiQuiet n = true
      ∧ (s.emacOf n).busyAt + max 1 (s.get (F.EMAC_EEE_IDLE n)) * 1000 ≤ s.tm.mono) ∧
    (∃ (s : State) (n : Nat), n < 8 ∧ s.tm.mono < (s.emacOf n).busyAt + max 1 (s.get (F.EMAC_EEE_IDLE n)) * 1000 ∧ s.lpiQuiet n = true) ∧
    (∃ (s : State) (n : Nat), n < 8 ∧ s.on (F.EMAC_LINK_TXLPI n) = true ∧ s.lpiQuiet n = false) ∧
    (∃ (s : State) (n : Nat) (b : Bool), n < 8 ∧ s.on (F.EMAC_LINK_UP n) = true) :=
  ⟨⟨(up.sets [(F.CTRL_ENABLE (W.SHP 7), 1), (F.CTRL_ENABLE (W.EMAC 7), 1), (F.EMAC_LINK_UP 7, 1), (F.SHP_PORTRATE_RATE 7, 1000000), (F.LANE_STAT_STATE 7, 6), (F.LANE_MODE_MODE 7, 6), (F.EMAC_CFG_FCMODE 7, 2), (F.EMAC_CFG_TXEN 7, 0), (F.EMAC_PAUSESTAT_PAUSED 7, 0x88)]).setEmac 7 { emac0 with speed := 2, pause := [(3, 0), (7, 99)] }, 7, 3, 0, by decide⟩,
   ⟨(up.sets [(F.CTRL_ENABLE (W.SHP 7), 1), (F.CTRL_ENABLE (W.EMAC 7), 1), (F.EMAC_LINK_UP 7, 1), (F.SHP_PORTRATE_RATE 7, 1000000), (F.LANE_STAT_STATE 7, 6), (F.LANE_MODE_MODE 7, 6), (F.EMAC_CFG_FCMODE 7, 1), (F.EMAC_CFG_TXEN 7, 0)]).setEmac 7 { emac0 with speed := 2 }, { cls := 0, num := 3 }, 7, 0x0180FFFF#32, by decide⟩,
   ⟨(up.sets [(F.CTRL_ENABLE (W.SHP 7), 1), (F.CTRL_ENABLE (W.EMAC 7), 1), (F.EMAC_LINK_UP 7, 1), (F.SHP_PORTRATE_RATE 7, 1000000), (F.LANE_STAT_STATE 7, 6), (F.LANE_MODE_MODE 7, 6)]).setEmac 7 { emac0 with speed := 2 }, { cls := 0, num := 3 }, 7, 0x0180FFFF#32, by decide⟩,
   ⟨{ ((up.sets [(F.CTRL_ENABLE (W.SHP 7), 1), (F.CTRL_ENABLE (W.EMAC 7), 1), (F.EMAC_LINK_UP 7, 1), (F.SHP_PORTRATE_RATE 7, 1000000), (F.LANE_STAT_STATE 7, 6), (F.LANE_MODE_MODE 7, 6), (F.EMAC_TXPAUSE_HOLD 7, 1), (F.EMAC_CFG_TXEN 7, 0)]).setEmac 7 { emac0 with speed := 2, sent := some (2, 1, 0) }) with tm := { up.tm with mono := 1000000 } }, 7, 2, 1, 0, by decide⟩,
   ⟨{ ((up.sets [(F.CTRL_ENABLE (W.SHP 7), 1), (F.CTRL_ENABLE (W.EMAC 7), 1), (F.EMAC_LINK_UP 7, 1), (F.SHP_PORTRATE_RATE 7, 1000000), (F.LANE_STAT_STATE 7, 6), (F.LANE_MODE_MODE 7, 6), (F.EMAC_CFG_EEE 7, 1)]).setEmac 7 { emac0 with speed := 2 }) with tm := { up.tm with mono := 100000 } }, 7, by decide⟩,
   ⟨{ ((up.sets [(F.CTRL_ENABLE (W.SHP 7), 1), (F.CTRL_ENABLE (W.EMAC 7), 1), (F.EMAC_LINK_UP 7, 1), (F.SHP_PORTRATE_RATE 7, 1000000), (F.LANE_STAT_STATE 7, 6), (F.LANE_MODE_MODE 7, 6), (F.EMAC_CFG_EEE 7, 1)]).setEmac 7 { emac0 with speed := 2 }) with tm := { up.tm with mono := 99999 } }, 7, by decide⟩,
   ⟨(up.sets [(F.CTRL_ENABLE (W.SHP 7), 1), (F.CTRL_ENABLE (W.EMAC 7), 1), (F.EMAC_LINK_UP 7, 1), (F.SHP_PORTRATE_RATE 7, 1000000), (F.LANE_STAT_STATE 7, 6), (F.LANE_MODE_MODE 7, 6), (F.EMAC_LINK_TXLPI 7, 1)]).setEmac 7 { emac0 with speed := 2, want := some (5, 0) }, 7, by decide⟩,
   ⟨(up.sets [(F.CTRL_ENABLE (W.SHP 7), 1), (F.CTRL_ENABLE (W.EMAC 7), 1), (F.EMAC_LINK_UP 7, 1), (F.SHP_PORTRATE_RATE 7, 1000000), (F.LANE_STAT_STATE 7, 6), (F.LANE_MODE_MODE 7, 6)]).setEmac 7 { emac0 with speed := 2 }, 7, true, by decide⟩⟩

/-- Every clause of PairStates with hypotheses is met. -/
theorem witness_PairStates :
    (∃ (s : State) (a : Nat) (b : Nat) (c : Nat) (d : Nat), s.cplUp = true ∧ s.cpl = 1 ∧ b = s.get F.CPL_ROLE_PAIRID ∧ d = s.cplLanes
      ∧ s.get F.CPL_ROLE_ROLE = 1 ∧ a < s.get F.CPL_ROLE_SENIORITY ∧ (c = 1 ∨ c = 2)) ∧
    (∃ (s : State) (a : Nat) (b : Nat) (c : Nat) (d : Nat), s.cplUp = true ∧ s.cpl = 1 ∧ b = s.get F.CPL_ROLE_PAIRID ∧ d = s.cplLanes
      ∧ s.get F.CPL_ROLE_ROLE = 1 ∧ s.get F.CPL_ROLE_SENIORITY < a ∧ a < 16 ∧ c = 1) ∧
    (∃ (s : State) (a : Nat) (b : Nat) (c : Nat) (d : Nat), s.cplUp = true ∧ s.cpl = 1 ∧ b ≠ s.get F.CPL_ROLE_PAIRID) ∧
    (∃ (s : State) (a : Nat), 2 ≤ s.cpl ∧ s.cplUp = true ∧ a < 16) ∧
    (∃ (s : State), s.cpl = 3 ∧ s.get F.CPL_STAT_HBMISS = 4 ∧ s.mlc.lent = []) ∧
    (∃ (s : State), s.cpl = 5 ∧ 4 ≤ s.get F.CPL_STAT_HBMISS ∧ s.life = 2) ∧
    (∃ (s : State), s.cpl = 5 ∧ s.hbLost = false ∧ s.life ≠ 1) ∧
    (∃ (s : State), s.cpl = 6 ∧ s.hbLost = true ∧ s.life ≠ 2) ∧
    (∃ (s : State), (s.cpl = 5 ∨ s.cpl = 6)) ∧
    (∃ (s : State) (rq : Rq) (v : Word), s.winOn W.CPL = true ∧ (rq.cls = 2 → s.dbgLevel = 2) ∧ v.toNat = 1 ∧ s.cpl = 3
      ∧ s.mlc.lent = []) ∧
    (∃ (s : State) (rq : Rq) (v : Word), s.winOn W.CPL = true ∧ (rq.cls = 2 → s.dbgLevel = 2) ∧ v.toNat = 2 ∧ (s.cpl = 5 ∨ s.cpl = 6)) ∧
    (∃ (s : State) (a : Nat) (b : Nat), s.cpl = 7 ∧ b = s.get F.CPL_ROLE_PAIRID ∧ s.get F.CPL_PAIRIE_OFS ≠ 0) ∧
    (∃ (s : State) (n : Nat), s.cpl = 7 ∧ n % 16 ≠ s.get F.CPL_STAT_PSEN ∧ s.get F.CPL_PAIRIE_OFS ≠ 0 ∧ 2 ≤ s.get F.CPL_WATCH_MISSES) ∧
    (∃ (s : State) (n : Nat), s.cpl = 7 ∧ n % 16 = s.get F.CPL_STAT_PSEN) :=
  ⟨⟨{ (up.sets [(F.CTRL_ENABLE W.CPL, 1), (F.CPL_STAT_STATE, 1), (F.CPL_STAT_ACTIVE, 3), (F.CPL_STAT_HB, 1), (F.CPL_ROLE_ROLE, 1), (F.CPL_ROLE_SENIORITY, 15), (F.CPL_ROLE_PAIRID, 9), (F.CPL_CFG_LANES, 3)]) with pair := up.pair }, 14, 9, 1, 3, by decide⟩,
   ⟨{ (up.sets [(F.CTRL_ENABLE W.CPL, 1), (F.CPL_STAT_STATE, 1), (F.CPL_STAT_ACTIVE, 3), (F.CPL_STAT_HB, 1), (F.CPL_ROLE_ROLE, 1), (F.CPL_ROLE_SENIORITY, 14), (F.CPL_ROLE_PAIRID, 9), (F.CPL_CFG_LANES, 3)]) with pair := up.pair }, 15, 9, 1, 3, by decide⟩,
   ⟨{ (up.sets [(F.CTRL_ENABLE W.CPL, 1), (F.CPL_STAT_STATE, 1), (F.CPL_STAT_ACTIVE, 3), (F.CPL_STAT_HB, 1)]) with pair := up.pair },
      15, 9, 1, 3, by decide⟩,
   ⟨{ (up.sets [(F.CTRL_ENABLE W.CPL, 1), (F.CPL_STAT_STATE, 3), (F.CPL_STAT_ACTIVE, 3), (F.CPL_STAT_HB, 1), (F.CPL_STAT_HBMISS, 4)]) with pair := up.pair }, 15, by decide⟩,
   ⟨{ (up.sets [(F.CTRL_ENABLE W.CPL, 1), (F.CPL_STAT_STATE, 3), (F.CPL_STAT_ACTIVE, 3), (F.CPL_STAT_HB, 1), (F.CPL_STAT_HBMISS, 4)]) with pair := up.pair }, by decide⟩,
   ⟨{ (up.sets [(F.CTRL_ENABLE W.CPL, 1), (F.CPL_STAT_STATE, 5), (F.CPL_STAT_ACTIVE, 3), (F.CPL_STAT_HB, 1), (F.CPL_STAT_HBMISS, 4), (F.CPL_STAT_LIFE, 2)]) with pair := up.pair }, by decide⟩,
   ⟨{ (up.sets [(F.CTRL_ENABLE W.CPL, 1), (F.CPL_STAT_STATE, 5), (F.CPL_STAT_ACTIVE, 3), (F.CPL_STAT_HB, 1), (F.CPL_STAT_LIFE, 0)]) with pair := up.pair }, by decide⟩,
   ⟨{ (up.sets [(F.CTRL_ENABLE W.CPL, 1), (F.CPL_STAT_STATE, 6), (F.CPL_STAT_ACTIVE, 3), (F.CPL_STAT_HB, 1), (F.CPL_STAT_HBMISS, 5)]) with pair := up.pair }, by decide⟩,
   ⟨{ (up.sets [(F.CTRL_ENABLE W.CPL, 1), (F.CPL_STAT_STATE, 6), (F.CPL_STAT_ACTIVE, 3), (F.CPL_STAT_HB, 1)]) with pair := up.pair },
      by decide⟩,
   ⟨{ (up.sets [(F.CTRL_ENABLE W.CPL, 1), (F.CPL_STAT_STATE, 3), (F.CPL_STAT_ACTIVE, 3), (F.CPL_STAT_HB, 1)]) with pair := up.pair },
      { cls := 0, num := 3 }, 1#32, by decide⟩,
   ⟨{ (up.sets [(F.CTRL_ENABLE W.CPL, 1), (F.CPL_STAT_STATE, 5), (F.CPL_STAT_ACTIVE, 3), (F.CPL_STAT_HB, 1)]) with pair := up.pair },
      { cls := 0, num := 3 }, 2#32, by decide⟩,
   ⟨{ (up.sets [(F.CTRL_ENABLE W.CPL, 1), (F.CPL_STAT_STATE, 7), (F.CPL_STAT_ACTIVE, 3), (F.CPL_STAT_HB, 1), (F.CPL_PAIRIE_OFS, 20), (F.CPL_WATCH_MISSES, 2)]) with pair := up.pair }, 3, 0, by decide⟩,
   ⟨{ (up.sets [(F.CTRL_ENABLE W.CPL, 1), (F.CPL_STAT_STATE, 7), (F.CPL_STAT_ACTIVE, 3), (F.CPL_STAT_HB, 1), (F.CPL_PAIRIE_OFS, 20), (F.CPL_WATCH_MISSES, 2)]) with pair := up.pair }, 15, by decide⟩,
   ⟨{ (up.sets [(F.CTRL_ENABLE W.CPL, 1), (F.CPL_STAT_STATE, 7), (F.CPL_STAT_ACTIVE, 3), (F.CPL_STAT_HB, 1), (F.CPL_PAIRIE_OFS, 20), (F.CPL_WATCH_MISSES, 2), (F.CPL_STAT_PSEN, 15)]) with pair := up.pair }, 15, by decide⟩⟩

/-- Every clause of BondAndMirror with hypotheses is met. -/
theorem witness_BondAndMirror :
    (∃ (s : State), s.cpl ≠ 0 ∧ s.cplUp = true ∧ s.pair.q = []) ∧
    (∃ (s : State) (q : Out × Bool), s.cpl ≠ 0 ∧ s.cplUp = true ∧ s.pair.q = [q] ∧ q.1.compl = false
      ∧ s.frmLen q.1.handle ≤ s.cplBudget) ∧
    (∃ (s : State) (n : Nat), s.cpl ≠ 0 ∧ n = 5 ∧ s.get F.CPL_STAT_ACTIVE = 1 ∧ s.laneHere 2 = true ∧ bitOf s.pair.gone 2 = false) ∧
    (∃ (s : State) (k : Nat) (a : Nat) (b : Nat), k < 4 ∧ bitOf (s.get F.CPL_STAT_ACTIVE) k = true ∧ s.get F.CPL_STAT_ACTIVE ≠ 2 ^ k
      ∧ bitOf s.pair.gone k = false) ∧
    (∃ (s : State) (k : Nat), s.cpl ≠ 0 ∧ k < 4 ∧ bitOf (s.get F.CPL_STAT_ACTIVE) k = false ∧ bitOf s.pair.gone k = true
      ∧ bitOf s.pair.map k = true ∧ s.laneHere k = true) ∧
    (∃ (s : State) (l : List Byte), s.enabled W.CPL = true ∧ s.ram.ue = [] ∧ s.cplUp = true ∧ 0 < s.bufFree (classFor l.length)
      ∧ kget s.ram.pool (s.bufHandle (classFor l.length) 0) = none ∧ s.enabled W.YARD = true ∧ s.yard.wagons = []
      ∧ s.resvAll < s.slotsFree ∧ s.trainRoom (s.origTrain 19) = true) ∧
    (∃ (s : State) (m : Mir), s.cpl = 4) ∧
    (∃ (s : State) (i : Nat) (n : Nat), s.cpl = 5 ∧ i < 262144 ∧ n < 2 ^ 32 ∧ s.ram.ue = [] ∧ s.mirrorOf (shadowAt i) = none) ∧
    (∃ (s : State), s.cpl = 4 ∧ s.pair.mq = []) ∧
    (∃ (s : State) (l : List Mir), s.cpl = 2) ∧
    (∃ (s : State) (x : LeadTime) (o : Int), (s.cpl = 4 ∨ s.cpl = 5) ∧ o = (((x.t2 : Int) - x.t1) - ((x.t4 : Int) - x.t3)) / 2
      ∧ -2 ^ 31 ≤ o / 16384 ∧ o / 16384 < 2 ^ 31) ∧
    (∃ (s : State) (c : Carr), s.cpl = 3 ∧ s.mlc.lent = [c] ∧ s.mlc.tries = []) ∧
    (∃ (s : State) (c : Carr), s.cpl = 3 ∧ s.mlc.lent = [c] ∧ s.mlc.tries = []) ∧
    (∃ (s : State) (c : Carr) (d : Carr), s.cpl = 5 ∧ s.enabled W.MPHY = true ∧ s.enabled (W.RFE 3) = true
      ∧ s.retired (0x1000 + c.port) = false ∧ psduOk c.mode c.psdu.length = true ∧ modeOk c.mode = true
      ∧ (modeFam c.mode = 2 ↔ 22 ≤ c.port) ∧ d = { c with dur := preNs c.mode c.pre + airNs c.mode c.psdu.length }
      ∧ carrFull d (s.portCarr c.port) = false ∧ (s.txCheck 3 (carrPath c.port) (s.carrCmd d)).1 = 0
      ∧ s.carrExcess d ≤ 4 * s.get F.MPHY_TXCFG_MAXRED
      ∧ s.limCheck { id := c.id, port := c.port, lo := c.freq - s.modeBw c.mode / 2, hi := c.freq + (s.modeBw c.mode + 1) / 2, frm := c.at', til := c.at' + d.dur, ack := decide (c.cls = 1), cls := 0 } = 0) ∧
    (∃ (s : State) (c : Carr), s.cpl = 5 ∧ s.enabled W.MPHY = false) :=
  ⟨⟨{ (up.sets [(F.CTRL_ENABLE W.CPL, 1), (F.CPL_STAT_STATE, 3), (F.CPL_STAT_ACTIVE, 3), (F.CPL_STAT_HB, 1)]) with pair := up.pair },
      by decide⟩,
   ⟨{ (up.sets [(F.CTRL_ENABLE W.CPL, 1), (F.CPL_STAT_STATE, 3), (F.CPL_STAT_ACTIVE, 3), (F.CPL_STAT_HB, 1)]) with pair := { up.pair with q := [({ handle := 7, dest := 4, queue := 0, launch := 0, timed := false, compl := false, keep := false, ctrain := 0 }, false)] } }, ({ handle := 7, dest := 4, queue := 0, launch := 0, timed := false, compl := false, keep := false, ctrain := 0 }, false), by decide⟩,
   ⟨{ (up.sets [(F.CTRL_ENABLE W.CPL, 1), (F.CPL_STAT_STATE, 3), (F.CPL_STAT_ACTIVE, 3), (F.CPL_STAT_HB, 1), (F.CPL_STAT_ACTIVE, 1), (F.CPL_CFG_LANES, 15), (F.LANE_STAT_STATE 6, 6), (F.LANE_STAT_WORDLOCK 6, 1), (F.LANE_MODE_MODE 6, 10)]) with pair := up.pair }, 5, by decide⟩,
   ⟨{ (up.sets [(F.CTRL_ENABLE W.CPL, 1), (F.CPL_STAT_STATE, 3), (F.CPL_STAT_ACTIVE, 3), (F.CPL_STAT_HB, 1)]) with pair := up.pair },
      1, 5, 6, by decide⟩,
   ⟨{ (up.sets [(F.CTRL_ENABLE W.CPL, 1), (F.CPL_STAT_STATE, 3), (F.CPL_STAT_ACTIVE, 3), (F.CPL_STAT_HB, 1), (F.CPL_CFG_LANES, 15), (F.LANE_STAT_STATE 7, 6), (F.LANE_STAT_WORDLOCK 7, 1), (F.LANE_MODE_MODE 7, 9)]) with pair := { up.pair with gone := 8, map := 11 } }, 3, by decide⟩,
   ⟨(({ (up.sets [(F.CTRL_ENABLE W.CPL, 1), (F.CPL_STAT_STATE, 3), (F.CPL_STAT_ACTIVE, 3), (F.CPL_STAT_HB, 1)]) with pair := up.pair }).set (F.CTRL_ENABLE W.YARD) 1), [1, 2, 3], by decide⟩,
   ⟨{ (up.sets [(F.CTRL_ENABLE W.CPL, 1), (F.CPL_STAT_STATE, 4), (F.CPL_STAT_ACTIVE, 3), (F.CPL_STAT_HB, 1)]) with pair := up.pair },
      .map 7 65535 9, by decide⟩,
   ⟨{ (up.sets [(F.CTRL_ENABLE W.CPL, 1), (F.CPL_STAT_STATE, 5), (F.CPL_STAT_ACTIVE, 3), (F.CPL_STAT_HB, 1)]) with pair := up.pair },
      262143, 0xFFFFFFFE, by decide⟩,
   ⟨{ (up.sets [(F.CTRL_ENABLE W.CPL, 1), (F.CPL_STAT_STATE, 4), (F.CPL_STAT_ACTIVE, 3), (F.CPL_STAT_HB, 1)]) with pair := up.pair },
      by decide⟩,
   ⟨{ (up.sets [(F.CTRL_ENABLE W.CPL, 1), (F.CPL_STAT_STATE, 2), (F.CPL_STAT_ACTIVE, 3), (F.CPL_STAT_HB, 1)]) with pair := up.pair },
      [], by decide⟩,
   ⟨{ (up.sets [(F.CTRL_ENABLE W.CPL, 1), (F.CPL_STAT_STATE, 5), (F.CPL_STAT_ACTIVE, 3), (F.CPL_STAT_HB, 1)]) with pair := up.pair, tm := { up.tm with tb := 1000 * 2 ^ 32 } }, { t1 := 1000 * 65536, t2 := 1600 * 65536, t3 := 2000 * 65536, t4 := 2400 * 65536, incr := 2 ^ 34 + 5, slew := 0, step := none, st := 2, unc := 10 }, 100 * 65536, by decide⟩,
   ⟨{ (up.sets [(F.CTRL_ENABLE W.CPL, 1), (F.CPL_STAT_STATE, 3), (F.CPL_STAT_ACTIVE, 3), (F.CPL_STAT_HB, 1)]) with pair := up.pair, mlc := { up.mlc with lent := [{ id := 3, tile := 2, port := 20, freq := 868300, mode := 0, power := 40, at' := 5000000, dur := 4000000, act := 1, cls := 0, psdu := [1, 2, 3, 4], wag := none }] } }, { id := 3, tile := 2, port := 20, freq := 868300, mode := 0, power := 40, at' := 5000000, dur := 4000000, act := 1, cls := 0, psdu := [1, 2, 3, 4], wag := none }, by decide⟩,
   ⟨{ (up.sets [(F.CTRL_ENABLE W.CPL, 1), (F.CPL_STAT_STATE, 3), (F.CPL_STAT_ACTIVE, 3), (F.CPL_STAT_HB, 1)]) with pair := up.pair, mlc := { up.mlc with lent := [{ id := 3, tile := 2, port := 20, freq := 868300, mode := 0, power := 40, at' := 5000000, dur := 4000000, act := 1, cls := 0, psdu := [1, 2, 3, 4], wag := none }] } }, { id := 3, tile := 2, port := 20, freq := 868300, mode := 0, power := 40, at' := 5000000, dur := 4000000, act := 1, cls := 0, psdu := [1, 2, 3, 4], wag := none }, by decide⟩,
   ⟨upAir.set F.CPL_STAT_STATE 5,
      { id := 3, tile := 2, port := 21, freq := 868300, mode := 0, power := 40, at' := 5000000, dur := 4000000, act := 1, cls := 0, psdu := [1, 2, 3, 4, 5], wag := none }, { id := 3, tile := 2, port := 21, freq := 868300, mode := 0, power := 40, at' := 5000000, dur := (preNs 0 8 + airNs 0 5), act := 1, cls := 0, psdu := [1, 2, 3, 4, 5], wag := none }, by decide⟩,
   ⟨{ (up.sets [(F.CTRL_ENABLE W.CPL, 1), (F.CPL_STAT_STATE, 5), (F.CPL_STAT_ACTIVE, 3), (F.CPL_STAT_HB, 1)]) with pair := up.pair },
      { id := 3, tile := 2, port := 20, freq := 868300, mode := 0, power := 40, at' := 5000000, dur := 4000000, act := 1, cls := 0, psdu := [1, 2, 3, 4], wag := none }, by decide⟩⟩

/-- Every clause of StoreAndLimiter with hypotheses is met. -/
theorem witness_StoreAndLimiter :
    (∃ (s : State) (rq : Rq), s.winOn W.NVS = true ∧ s.busy W.NVS = false ∧ s.get F.NVS_OPSEL_OP = 0
      ∧ s.nvsBarred (s.get F.NVS_DST_OFS) (64 * s.get F.NVS_ROWS_ROWS) = false ∧ s.nvsSrc % 64 = 0 ∧ inDram s.nvsSrc = true
      ∧ inDram (s.nvsSrc + 64 * s.get F.NVS_ROWS_ROWS - 1) = true ∧ 0 < s.get F.NVS_ROWS_ROWS ∧ s.get F.NVS_DST_OFS % 64 = 0
      ∧ s.get F.NVS_DST_OFS + 64 * s.get F.NVS_ROWS_ROWS ≤ 0x2000000) ∧
    (∃ (s : State) (rq : Rq), s.winOn W.NVS = true ∧ s.busy W.NVS = false ∧ s.get F.NVS_OPSEL_OP = 0 ∧ s.get F.NVS_ROWS_ROWS = 0) ∧
    (∃ (s : State) (rq : Rq), s.winOn W.NVS = true ∧ s.busy W.NVS = false ∧ s.get F.NVS_OPSEL_OP = 0 ∧ 0x60000 ≤ s.get F.NVS_DST_OFS
      ∧ s.get F.NVS_DST_OFS < 0x70000 ∧ s.nvsSrc % 64 = 0 ∧ inDram s.nvsSrc = true
      ∧ inDram (s.nvsSrc + 64 * s.get F.NVS_ROWS_ROWS - 1) = true ∧ 0 < s.get F.NVS_ROWS_ROWS ∧ s.get F.NVS_DST_OFS % 64 = 0
      ∧ s.get F.NVS_DST_OFS + 64 * s.get F.NVS_ROWS_ROWS ≤ 0x2000000) ∧
    (∃ (s : State) (rq : Rq), s.winOn W.NVS = true ∧ s.busy W.NVS = false ∧ s.get F.NVS_OPSEL_OP = 1 ∧ s.get F.NVS_OPSEL_SLOT < 7) ∧
    (∃ (s : State) (rq : Rq), s.winOn W.NVS = true ∧ s.busy W.NVS = false ∧ s.get F.NVS_OPSEL_OP = 1 ∧ s.get F.NVS_OPSEL_SLOT = 7) ∧
    (∃ (s : State) (rq : Rq), s.winOn W.SEC = true ∧ s.busy W.SEC = false ∧ s.enrSrc % 64 = 0 ∧ inDram s.enrSrc = true
      ∧ inDram (s.enrSrc + 255) = true) ∧
    (∃ (s : State) (n : Nat) (g : RegImage) (x : MeterImg) (l : List (Nat × Nat)), s.lim.img = some g ∧ g.meters[n]? = some x
      ∧ kget s.lim.buckets n = some l) ∧
    (∃ (s : State), s.live = true) ∧
    (∃ (s : State), s.live = true ∧ s.ram.ue = [] ∧ s.lim.row < 4) :=
  ⟨⟨(up.sets [(F.NVS_SRCHI_ADDR, 0x80), (F.NVS_SRCLO_ADDR, 64), (F.NVS_ROWS_ROWS, 2), (F.NVS_DST_OFS, 0x180000)]),
      { cls := 0, num := 3 }, by decide⟩,
   ⟨(up.sets [(F.NVS_SRCHI_ADDR, 0x80), (F.NVS_SRCLO_ADDR, 64), (F.NVS_ROWS_ROWS, 2), (F.NVS_DST_OFS, 0x180000)]).set F.NVS_ROWS_ROWS 0, { cls := 0, num := 3 }, by decide⟩,
   ⟨(up.sets [(F.NVS_SRCHI_ADDR, 0x80), (F.NVS_SRCLO_ADDR, 64), (F.NVS_ROWS_ROWS, 2), (F.NVS_DST_OFS, 0x180000)]).set F.NVS_DST_OFS 0x6FFC0, { cls := 0, num := 3 }, by decide⟩,
   ⟨(up.sets [(F.NVS_SRCHI_ADDR, 0x80), (F.NVS_SRCLO_ADDR, 64), (F.NVS_ROWS_ROWS, 2), (F.NVS_DST_OFS, 0x180000)]).sets [(F.NVS_OPSEL_OP, 1), (F.NVS_OPSEL_SLOT, 6)], { cls := 0, num := 3 }, by decide⟩,
   ⟨(up.sets [(F.NVS_SRCHI_ADDR, 0x80), (F.NVS_SRCLO_ADDR, 64), (F.NVS_ROWS_ROWS, 2), (F.NVS_DST_OFS, 0x180000)]).sets [(F.NVS_OPSEL_OP, 1), (F.NVS_OPSEL_SLOT, 7)], { cls := 0, num := 3 }, by decide⟩,
   ⟨up.set F.SEC_ENRSRCHI_ADDR 0x83, { cls := 0, num := 3 }, by decide⟩,
   ⟨{ up with lim := { up.lim with img := some { img with meters := [{ lo := 868000, hi := 868600, window := 3600, limit := 36000 }] }, buckets := [(0, [(5000000000, 7), (0, 9)])] }, tm := { up.tm with tb := 3600000000000 * 2 ^ 32 } }, 0, { img with meters := [{ lo := 868000, hi := 868600, window := 3600, limit := 36000 }] }, { lo := 868000, hi := 868600, window := 3600, limit := 36000 }, [(5000000000, 7), (0, 9)], by decide⟩,
   ⟨up, by decide⟩,
   ⟨{ up with lim := { up.lim with seq := 0xFFFFFFFF, row := 3, ver := 0x12345 } }, by decide⟩⟩

/-- Every clause of SecRequests with hypotheses is met. -/
theorem witness_SecRequests :
    (∃ (s : State) (r : Req) (x : Wagon) (k : KeyS), s.enabled W.SEC = true ∧ s.yard.reqs = [r] ∧ r.sec = true ∧ r.op = 1
      ∧ s.inPool r.inH = true ∧ s.inPool r.secOut = true ∧ s.ram.late = [] ∧ s.ram.ue = [] ∧ s.wag r.wid = some x ∧ x.st = 2
      ∧ r.slot < 8 ∧ bitOf x.decl r.slot = true ∧ bitOf x.arr r.slot = false ∧ bitsOf x.ctype (4 * r.slot) 4 = 2 ∧ x.cpl.length = 8
      ∧ kget s.keys r.key = some k ∧ k.use = 1) ∧
    (∃ (s : State) (r : Req) (x : Wagon) (k : KeyS), s.enabled W.SEC = true ∧ s.yard.reqs = [r] ∧ r.sec = true ∧ r.op = 3
      ∧ s.inPool r.inH = true ∧ s.inPool r.secOut = true ∧ s.ram.late = [] ∧ s.ram.ue = [] ∧ s.wag r.wid = some x ∧ x.st = 2
      ∧ r.slot < 8 ∧ bitOf x.decl r.slot = true ∧ bitOf x.arr r.slot = false ∧ bitsOf x.ctype (4 * r.slot) 4 = 2 ∧ x.cpl.length = 8
      ∧ kget s.keys r.key = some k ∧ k.use = 2) ∧
    (∃ (s : State) (r : Req) (x : Wagon) (k : KeyS), s.enabled W.SEC = true ∧ s.yard.reqs = [r] ∧ r.sec = true ∧ r.op = 5
      ∧ s.inPool r.inH = true ∧ s.inPool r.secOut = true ∧ s.ram.late = [] ∧ s.ram.ue = [] ∧ s.wag r.wid = some x ∧ x.st = 2
      ∧ r.slot < 8 ∧ bitOf x.decl r.slot = true ∧ bitOf x.arr r.slot = false ∧ bitsOf x.ctype (4 * r.slot) 4 = 2 ∧ x.cpl.length = 8
      ∧ kget s.keys r.key = some k ∧ (k.use = 3 ∨ k.use = 4)) ∧
    (∃ (s : State) (r : Req) (x : Wagon) (k : KeyS), s.enabled W.SEC = true ∧ s.yard.reqs = [r] ∧ r.sec = true ∧ r.op = 2
      ∧ s.inPool r.inH = true ∧ s.inPool r.secOut = true ∧ s.ram.late = [] ∧ s.ram.ue = [] ∧ s.wag r.wid = some x ∧ x.st = 2
      ∧ r.slot < 8 ∧ bitOf x.decl r.slot = true ∧ bitOf x.arr r.slot = false ∧ bitsOf x.ctype (4 * r.slot) 4 = 2 ∧ x.cpl.length = 8
      ∧ kget s.keys r.key = some k ∧ k.use = 1 ∧ k.paired = false ∧ k.exh = false ∧ k.cnt < 0xFFFFFFFF) ∧
    (∃ (s : State) (r : Req) (x : Wagon) (k : KeyS), s.enabled W.SEC = true ∧ s.yard.reqs = [r] ∧ r.sec = true ∧ r.op = 4
      ∧ s.inPool r.inH = true ∧ s.inPool r.secOut = true ∧ s.ram.late = [] ∧ s.ram.ue = [] ∧ s.wag r.wid = some x ∧ x.st = 2
      ∧ r.slot < 8 ∧ bitOf x.decl r.slot = true ∧ bitOf x.arr r.slot = false ∧ bitsOf x.ctype (4 * r.slot) 4 = 2 ∧ x.cpl.length = 8
      ∧ kget s.keys r.key = some k ∧ k.use = 2 ∧ k.paired = false ∧ k.exh = false ∧ k.cnt < 0xFFFFFFFF) ∧
    (∃ (s : State) (r : Req) (x : Wagon) (k : KeyS), s.enabled W.SEC = true ∧ s.yard.reqs = [r] ∧ r.sec = true ∧ r.op = 6
      ∧ s.inPool r.inH = true ∧ s.inPool r.secOut = true ∧ s.ram.late = [] ∧ s.ram.ue = [] ∧ s.wag r.wid = some x ∧ x.st = 2
      ∧ r.slot < 8 ∧ bitOf x.decl r.slot = true ∧ bitOf x.arr r.slot = false ∧ bitsOf x.ctype (4 * r.slot) 4 = 2 ∧ x.cpl.length = 8
      ∧ kget s.keys r.key = some k ∧ (k.use = 3 ∨ k.use = 4) ∧ k.paired = false ∧ k.exh = false ∧ k.cnt < 0xFFFFFFFF) ∧
    (∃ (s : State) (r : Req) (x : Wagon) (k : KeyS), s.enabled W.SEC = true ∧ s.yard.reqs = [r] ∧ r.sec = true ∧ r.op = 2
      ∧ s.inPool r.inH = true ∧ s.inPool r.secOut = true ∧ s.ram.late = [] ∧ s.ram.ue = [] ∧ s.wag r.wid = some x ∧ x.st = 2
      ∧ r.slot < 8 ∧ bitOf x.decl r.slot = true ∧ bitOf x.arr r.slot = false ∧ bitsOf x.ctype (4 * r.slot) 4 = 2 ∧ x.cpl.length = 8
      ∧ kget s.keys r.key = some k ∧ k.use = 1 ∧ k.paired = false ∧ k.exh = true) ∧
    (∃ (s : State) (r : Req) (x : Wagon) (k : KeyS), s.enabled W.SEC = true ∧ s.yard.reqs = [r] ∧ r.sec = true ∧ r.op = 4
      ∧ s.inPool r.inH = true ∧ s.inPool r.secOut = true ∧ s.ram.late = [] ∧ s.ram.ue = [] ∧ s.wag r.wid = some x ∧ x.st = 2
      ∧ r.slot < 8 ∧ bitOf x.decl r.slot = true ∧ bitOf x.arr r.slot = false ∧ bitsOf x.ctype (4 * r.slot) 4 = 2 ∧ x.cpl.length = 8
      ∧ kget s.keys r.key = some k ∧ k.use = 2 ∧ k.paired = false ∧ k.exh = true) ∧
    (∃ (s : State) (r : Req) (x : Wagon) (k : KeyS), s.enabled W.SEC = true ∧ s.yard.reqs = [r] ∧ r.sec = true ∧ r.op = 6
      ∧ s.inPool r.inH = true ∧ s.inPool r.secOut = true ∧ s.ram.late = [] ∧ s.ram.ue = [] ∧ s.wag r.wid = some x ∧ x.st = 2
      ∧ r.slot < 8 ∧ bitOf x.decl r.slot = true ∧ bitOf x.arr r.slot = false ∧ bitsOf x.ctype (4 * r.slot) 4 = 2 ∧ x.cpl.length = 8
      ∧ kget s.keys r.key = some k ∧ (k.use = 3 ∨ k.use = 4) ∧ k.paired = false ∧ k.exh = true) ∧
    (∃ (s : State) (r : Req) (x : Wagon), s.enabled W.SEC = true ∧ s.yard.reqs = [r] ∧ r.sec = true ∧ r.op = 3 ∧ s.inPool r.inH = true
      ∧ s.inPool r.secOut = true ∧ s.ram.late = [] ∧ s.ram.ue = [] ∧ s.wag r.wid = some x ∧ x.st = 2 ∧ r.slot < 8
      ∧ bitOf x.decl r.slot = true ∧ bitOf x.arr r.slot = false ∧ bitsOf x.ctype (4 * r.slot) 4 = 2 ∧ x.cpl.length = 8
      ∧ kget s.keys r.key = none) :=
  ⟨⟨{ (((up.set (F.CTRL_ENABLE W.SEC) 1).pokeHdr 1 0 [5 * 1024]).pokeData 1 0 [9, 8, 7, 6, 5]) with keys := [(9, { use := 1, paired := false, exh := false, cnt := 41, val := [1, 2], limit := 0 })], yard := { up.yard with wagons := [(5, { wagon0 with decl := 0x81, ctype := 2 * 16 ^ 7 })], reqs := [{ words := [1 + 9 * 16 + 2 * 2 ^ 16, 1, 6], sec := true, cs := 0, wid := 5, slot := 7 }] }, ram := { up.ram with pool := [(1, 0), (6, 0)] } }, { words := [1 + 9 * 16 + 2 * 2 ^ 16, 1, 6], sec := true, cs := 0, wid := 5, slot := 7 }, { wagon0 with decl := 0x81, ctype := 2 * 16 ^ 7 }, { use := 1, paired := false, exh := false, cnt := 41, val := [1, 2], limit := 0 }, by decide⟩,
   ⟨{ (((up.set (F.CTRL_ENABLE W.SEC) 1).pokeHdr 1 0 [5 * 1024]).pokeData 1 0 [9, 8, 7, 6, 5]) with keys := [(9, { use := 2, paired := false, exh := false, cnt := 41, val := [1, 2], limit := 0 })], yard := { up.yard with wagons := [(5, { wagon0 with decl := 0x81, ctype := 2 * 16 ^ 7 })], reqs := [{ words := [3 + 9 * 16 + 2 * 2 ^ 16, 1, 6], sec := true, cs := 0, wid := 5, slot := 7 }] }, ram := { up.ram with pool := [(1, 0), (6, 0)] } }, { words := [3 + 9 * 16 + 2 * 2 ^ 16, 1, 6], sec := true, cs := 0, wid := 5, slot := 7 }, { wagon0 with decl := 0x81, ctype := 2 * 16 ^ 7 }, { use := 2, paired := false, exh := false, cnt := 41, val := [1, 2], limit := 0 }, by decide⟩,
   ⟨{ (((up.set (F.CTRL_ENABLE W.SEC) 1).pokeHdr 1 0 [5 * 1024]).pokeData 1 0 [9, 8, 7, 6, 5]) with keys := [(9, { use := 3, paired := false, exh := false, cnt := 41, val := [1, 2], limit := 0 })], yard := { up.yard with wagons := [(5, { wagon0 with decl := 0x81, ctype := 2 * 16 ^ 7 })], reqs := [{ words := [5 + 9 * 16 + 2 * 2 ^ 16, 1, 6], sec := true, cs := 0, wid := 5, slot := 7 }] }, ram := { up.ram with pool := [(1, 0), (6, 0)] } }, { words := [5 + 9 * 16 + 2 * 2 ^ 16, 1, 6], sec := true, cs := 0, wid := 5, slot := 7 }, { wagon0 with decl := 0x81, ctype := 2 * 16 ^ 7 }, { use := 3, paired := false, exh := false, cnt := 41, val := [1, 2], limit := 0 }, by decide⟩,
   ⟨{ (((up.set (F.CTRL_ENABLE W.SEC) 1).pokeHdr 1 0 [5 * 1024]).pokeData 1 0 [9, 8, 7, 6, 5]) with keys := [(9, { use := 1, paired := false, exh := false, cnt := 41, val := [1, 2], limit := 0 })], yard := { up.yard with wagons := [(5, { wagon0 with decl := 0x81, ctype := 2 * 16 ^ 7 })], reqs := [{ words := [2 + 9 * 16 + 2 * 2 ^ 16, 1, 6], sec := true, cs := 0, wid := 5, slot := 7 }] }, ram := { up.ram with pool := [(1, 0), (6, 0)] } }, { words := [2 + 9 * 16 + 2 * 2 ^ 16, 1, 6], sec := true, cs := 0, wid := 5, slot := 7 }, { wagon0 with decl := 0x81, ctype := 2 * 16 ^ 7 }, { use := 1, paired := false, exh := false, cnt := 41, val := [1, 2], limit := 0 }, by decide⟩,
   ⟨{ (((up.set (F.CTRL_ENABLE W.SEC) 1).pokeHdr 1 0 [5 * 1024]).pokeData 1 0 [9, 8, 7, 6, 5]) with keys := [(9, { use := 2, paired := false, exh := false, cnt := 41, val := [1, 2], limit := 0 })], yard := { up.yard with wagons := [(5, { wagon0 with decl := 0x81, ctype := 2 * 16 ^ 7 })], reqs := [{ words := [4 + 9 * 16 + 2 * 2 ^ 16, 1, 6], sec := true, cs := 0, wid := 5, slot := 7 }] }, ram := { up.ram with pool := [(1, 0), (6, 0)] } }, { words := [4 + 9 * 16 + 2 * 2 ^ 16, 1, 6], sec := true, cs := 0, wid := 5, slot := 7 }, { wagon0 with decl := 0x81, ctype := 2 * 16 ^ 7 }, { use := 2, paired := false, exh := false, cnt := 41, val := [1, 2], limit := 0 }, by decide⟩,
   ⟨{ (((up.set (F.CTRL_ENABLE W.SEC) 1).pokeHdr 1 0 [5 * 1024]).pokeData 1 0 [9, 8, 7, 6, 5]) with keys := [(9, { use := 3, paired := false, exh := false, cnt := 41, val := [1, 2], limit := 0 })], yard := { up.yard with wagons := [(5, { wagon0 with decl := 0x81, ctype := 2 * 16 ^ 7 })], reqs := [{ words := [6 + 9 * 16 + 2 * 2 ^ 16, 1, 6], sec := true, cs := 0, wid := 5, slot := 7 }] }, ram := { up.ram with pool := [(1, 0), (6, 0)] } }, { words := [6 + 9 * 16 + 2 * 2 ^ 16, 1, 6], sec := true, cs := 0, wid := 5, slot := 7 }, { wagon0 with decl := 0x81, ctype := 2 * 16 ^ 7 }, { use := 3, paired := false, exh := false, cnt := 41, val := [1, 2], limit := 0 }, by decide⟩,
   ⟨{ (((up.set (F.CTRL_ENABLE W.SEC) 1).pokeHdr 1 0 [5 * 1024]).pokeData 1 0 [9, 8, 7, 6, 5]) with keys := [(9, { use := 1, paired := false, exh := true, cnt := 41, val := [1, 2], limit := 0 })], yard := { up.yard with wagons := [(5, { wagon0 with decl := 0x81, ctype := 2 * 16 ^ 7 })], reqs := [{ words := [2 + 9 * 16 + 2 * 2 ^ 16, 1, 6], sec := true, cs := 0, wid := 5, slot := 7 }] }, ram := { up.ram with pool := [(1, 0), (6, 0)] } }, { words := [2 + 9 * 16 + 2 * 2 ^ 16, 1, 6], sec := true, cs := 0, wid := 5, slot := 7 }, { wagon0 with decl := 0x81, ctype := 2 * 16 ^ 7 }, { use := 1, paired := false, exh := true, cnt := 41, val := [1, 2], limit := 0 }, by decide⟩,
   ⟨{ (((up.set (F.CTRL_ENABLE W.SEC) 1).pokeHdr 1 0 [5 * 1024]).pokeData 1 0 [9, 8, 7, 6, 5]) with keys := [(9, { use := 2, paired := false, exh := true, cnt := 41, val := [1, 2], limit := 0 })], yard := { up.yard with wagons := [(5, { wagon0 with decl := 0x81, ctype := 2 * 16 ^ 7 })], reqs := [{ words := [4 + 9 * 16 + 2 * 2 ^ 16, 1, 6], sec := true, cs := 0, wid := 5, slot := 7 }] }, ram := { up.ram with pool := [(1, 0), (6, 0)] } }, { words := [4 + 9 * 16 + 2 * 2 ^ 16, 1, 6], sec := true, cs := 0, wid := 5, slot := 7 }, { wagon0 with decl := 0x81, ctype := 2 * 16 ^ 7 }, { use := 2, paired := false, exh := true, cnt := 41, val := [1, 2], limit := 0 }, by decide⟩,
   ⟨{ (((up.set (F.CTRL_ENABLE W.SEC) 1).pokeHdr 1 0 [5 * 1024]).pokeData 1 0 [9, 8, 7, 6, 5]) with keys := [(9, { use := 3, paired := false, exh := true, cnt := 41, val := [1, 2], limit := 0 })], yard := { up.yard with wagons := [(5, { wagon0 with decl := 0x81, ctype := 2 * 16 ^ 7 })], reqs := [{ words := [6 + 9 * 16 + 2 * 2 ^ 16, 1, 6], sec := true, cs := 0, wid := 5, slot := 7 }] }, ram := { up.ram with pool := [(1, 0), (6, 0)] } }, { words := [6 + 9 * 16 + 2 * 2 ^ 16, 1, 6], sec := true, cs := 0, wid := 5, slot := 7 }, { wagon0 with decl := 0x81, ctype := 2 * 16 ^ 7 }, { use := 3, paired := false, exh := true, cnt := 41, val := [1, 2], limit := 0 }, by decide⟩,
   ⟨{ (((up.set (F.CTRL_ENABLE W.SEC) 1).pokeHdr 1 0 [5 * 1024]).pokeData 1 0 [9, 8, 7, 6, 5]) with keys := [], yard := { up.yard with wagons := [(5, { wagon0 with decl := 0x81, ctype := 2 * 16 ^ 7 })], reqs := [{ words := [3 + 9 * 16 + 2 * 2 ^ 16, 1, 6], sec := true, cs := 0, wid := 5, slot := 7 }] }, ram := { up.ram with pool := [(1, 0), (6, 0)] } }, { words := [3 + 9 * 16 + 2 * 2 ^ 16, 1, 6], sec := true, cs := 0, wid := 5, slot := 7 }, { wagon0 with decl := 0x81, ctype := 2 * 16 ^ 7 }, by decide⟩⟩

/-- Every clause of ClusterAndMemory with hypotheses is met. -/
theorem witness_ClusterAndMemory :
    (∃ (s : State) (rq : Rq) (v : Word), s.winOn W.APC = true ∧ (rq.cls = 2 → s.dbgLevel = 2)
      ∧ (∀ h ∈ List.range 8, (s.hart h).rhr = false)) ∧
    (∃ (s : State) (h : Nat) (n : Nat) (v : Word), s.live = true ∧ s.domSt 15 = 2 ∧ h < 8 ∧ n < 8 ∧ s.apc.msip.length = 8) ∧
    (∃ (s : State) (c : Nat) (n : Nat), s.live = true ∧ s.domSt 15 = 2 ∧ c < 16 ∧ s.apc.plicPend = [n]
      ∧ bitOf (s.plicEn c (n / 32)) (n % 32) = true ∧ 0 < s.plicPrio n) ∧
    (∃ (s : State) (c : Nat), s.live = true ∧ s.domSt 15 = 2 ∧ c < 16 ∧ s.apc.plicPend = []) ∧
    (∃ (s : State) (c : Nat) (n : Nat), s.live = true ∧ s.domSt 15 = 2 ∧ c < 16 ∧ kget s.apc.plicSvc n = some c ∧ 0 < n
      ∧ s.evOut (n - 1) ≠ 0 ∧ s.apc.plicPend = []) ∧
    (∃ (s : State) (c : Nat) (n : Nat), kget s.apc.plicSvc n ≠ some c) ∧
    (∃ (s : State) (rq : Rq) (a : Nat) (n : Nat) (v : Nat), s.live = true ∧ s.domSt 16 = 2 ∧ (inSram a = true ∨ inDram a = true)
      ∧ n ∈ [1, 2, 4, 8] ∧ a % n = 0 ∧ rq.cls ≠ 2 ∧ s.ram.ue = []) ∧
    (∃ (s : State) (rq : Rq) (a : Nat) (n : Nat) (v : Nat), s.live = true ∧ s.domSt 16 = 2 ∧ (inSram a = true ∨ inDram a = true)
      ∧ n ∈ [1, 2, 4, 8] ∧ a % n = 0 ∧ rq.cls ≠ 2 ∧ s.ram.ue = [] ∧ inBoard a = false ∧ inMap a = false ∧ v < 2 ^ (8 * n)) ∧
    (∃ (s : State) (rq : Rq) (a : Nat) (n : Nat) (v : Nat) (w : Bool) (u : Upset), s.live = true ∧ inSram a = true ∧ n ∈ [1, 2, 4, 8]
      ∧ a % n ≠ 0 ∧ rq.cls ≠ 2 ∧ rq.cls ≠ 1 ∧ s.domSt 16 = 2) ∧
    (∃ (s : State), s.live = true ∧ s.domSt 16 = 2 ∧ s.get F.MEM_SCRUB_SRAMS ≠ 0 ∧ s.ram.ue = []) ∧
    (∃ (s : State), s.live = true ∧ s.domSt 16 = 2 ∧ s.get F.MEM_SCRUB_DRAMH ≠ 0 ∧ s.ram.ue = []) ∧
    (∃ (s : State) (rq : Rq) (v : Word), s.winOn W.MEM = true ∧ (rq.cls = 2 → s.dbgLevel = 2) ∧ 0 < v.toNat % 2 ^ 14
      ∧ 0 < s.bufFree (classFor (v.toNat % 2 ^ 14)) ∧ kget s.ram.pool (s.bufHandle (classFor (v.toNat % 2 ^ 14)) 0) = none) ∧
    (∃ (s : State) (rq : Rq) (v : Word) (n : Nat), s.winOn W.MEM = true ∧ (rq.cls = 2 → s.dbgLevel = 2)
      ∧ kget s.ram.pool (v.toNat % 2 ^ 20) = some n ∧ s.bufAimed (v.toNat % 2 ^ 20) = false) ∧
    (∃ (s : State) (rq : Rq) (v : Word), s.winOn W.MEM = true ∧ (rq.cls = 2 → s.dbgLevel = 2)
      ∧ kget s.ram.pool (v.toNat % 2 ^ 20) = none) ∧
    (∃ (s : State) (rq : Rq) (n : Nat), n < 4 ∧ s.winOn (W.CHK n) = true ∧ s.busy (W.CHK n) = false ∧ s.on (F.CHK_CFG_CONT n) = false
      ∧ 1 ≤ s.chkW n ∧ s.chkW n ≤ 64 ∧ 0 < s.get (F.CHK_LEN_LEN n) ∧ inDram (s.chkAddr n) = true
      ∧ inDram (s.chkAddr n + s.get (F.CHK_LEN_LEN n) - 1) = true) :=
  ⟨⟨up.sets [(F.APC_ENTRYLO_ADDR, 0x1000), (F.APC_ENTRYHI_ADDR, 0x80)], { cls := 0, num := 3 }, 0x83#32, by decide⟩,
   ⟨up, 7, 0, 0xFFFFFFFF#32, by decide⟩,
   ⟨{ up with apc := { up.apc with plicPend := [83], prio := [(83, 1)], enab := [(62, 2 ^ 19)] } }, 15, 83, by decide⟩,
   ⟨up, 15, by decide⟩,
   ⟨{ ((up.set (F.EV_MASK 4) 2).set (F.EV_RAW 4 1) 1) with apc := { up.apc with plicSvc := [(5, 15)] } }, 15, 5, by decide⟩,
   ⟨up, 15, 5, by decide⟩,
   ⟨up.pokeN 0x13FFFFF8 8 0x123456789ABCDEF0, { cls := 0, num := 3 }, 0x13FFFFF8, 8, 0, by decide⟩,
   ⟨up, { cls := 0, num := 3 }, 0x83FFFFFFFC, 4, 0xFFFFFFFF, by decide⟩,
   ⟨up, { cls := 0, num := 3 }, 0x10000001, 2, 0, true, .double, by decide⟩,
   ⟨{ (up.set F.MEM_SCRUB_SRAMS 1) with ram := { up.ram with scrubS := 0x7FFFFF } }, by decide⟩,
   ⟨{ (up.set F.MEM_SCRUB_DRAMH 1) with ram := { up.ram with scrubD := 0x7FFFFFFF } }, by decide⟩,
   ⟨up, { cls := 0, num := 3 }, 16383#32, by decide⟩,
   ⟨{ up with ram := { up.ram with pool := [(1, 0), (6, 0)] } }, { cls := 0, num := 3 }, 6#32, 0, by decide⟩,
   ⟨up, { cls := 0, num := 3 }, 6#32, by decide⟩,
   ⟨up.sets [(F.CHK_CFG_WIDTH 3, 64), (F.CHK_LEN_LEN 3, 9), (F.CHK_ADDRHI_ADDR 3, 0x80), (F.CHK_INITHI_INIT 3, 0xFFFFFFFF), (F.CHK_INITLO_INIT 3, 0xFFFFFFFF)], { cls := 0, num := 3 }, 3, by decide⟩⟩

/-- Every clause of PowerStates with hypotheses is met. -/
theorem witness_PowerStates :
    (∃ (s : State) (rq : Rq) (v : Word) (n : Nat) (w : Nat), s.winOn W.PWR = true ∧ (rq.cls = 2 → s.dbgLevel = 2)
      ∧ s.env.phase = .software ∧ v.toNat = 8 + n ∧ n = s.dev ∧ s.pwr.change = none) ∧
    (∃ (s : State) (rq : Rq) (v : Word) (n : Nat) (w : Nat), s.winOn W.PWR = true ∧ (rq.cls = 2 → s.dbgLevel = 2)
      ∧ s.env.phase = .software ∧ v.toNat = 8 + n ∧ n = 1 ∧ s.dev = 0 ∧ s.pwr.change = none) ∧
    (∃ (s : State) (rq : Rq) (v : Word) (n : Nat) (w : Nat), s.winOn W.PWR = true ∧ (rq.cls = 2 → s.dbgLevel = 2)
      ∧ s.env.phase = .software ∧ v.toNat = 8 + n ∧ n = 0 ∧ s.dev = 1 ∧ s.pwr.change = none ∧ s.get F.PINS_SUPPLY_SOURCE = 2) ∧
    (∃ (s : State) (rq : Rq) (v : Word) (n : Nat) (w : Nat), s.winOn W.PWR = true ∧ (rq.cls = 2 → s.dbgLevel = 2)
      ∧ s.env.phase = .software ∧ v.toNat = 8 + n ∧ (n = 2 ∨ n = 3) ∧ s.dev = 1 ∧ s.pwr.change = none ∧ s.cpl ≠ 0) ∧
    (∃ (s : State) (rq : Rq) (v : Word) (n : Nat) (w : Nat), s.winOn W.PWR = true ∧ (rq.cls = 2 → s.dbgLevel = 2)
      ∧ s.env.phase = .software ∧ v.toNat = 8 + n ∧ n < 4 ∧ s.pwr.change.isSome = true ∧ s.pwr.pend = none) ∧
    (∃ (s : State) (w : Nat), s.pwr.change = some 1 ∧ s.pwr.final = 1 ∧ s.pwr.forced = false ∧ s.pwr.pend = none ∧ s.dev = 0) ∧
    (∃ (s : State) (w : Nat), s.pwr.change = none) ∧
    (∃ (s : State) (n : Nat) (a : Nat), s.live = true ∧ s.env.phase = .software ∧ s.dev = 2 ∧ s.pwr.change = none ∧ n = 6
      ∧ s.on F.PWR_WAKEMASK_INTR = true ∧ s.intrWake = true) ∧
    (∃ (s : State) (n : Nat) (a : Nat), s.live = true ∧ s.env.phase = .software ∧ s.dev = 3 ∧ s.pwr.change = none ∧ n = 1
      ∧ s.on F.PWR_WAKEMASK_MAINSRET = true ∧ s.env.path = .onMains) ∧
    (∃ (s : State) (n : Nat) (a : Nat), s.dev = 3 ∧ n = 6 ∧ s.pwr.change = none) ∧
    (∃ (s : State) (a : Nat), s.live = true ∧ s.env.phase = .software ∧ s.dev = 3 ∧ s.on F.PWR_WAKEMASK_ALARM = true
      ∧ s.get F.PWR_ALARM_MS ≠ 0 ∧ s.get F.PWR_ALARM_MS * 1000000 * 65536 ≤ s.slpElapsed a) ∧
    (∃ (s : State) (rq : Rq) (v : Word), s.winOn W.PWR = true ∧ (rq.cls = 2 → s.dbgLevel = 2) ∧ s.pwr.capState = 0 ∧ v.toNat < 16
      ∧ s.pwr.fabTo = none ∧ s.pwr.cluTo = none ∧ s.get F.PWR_PERFSTAT_FABRIC ≠ v.toNat % 4 ∧ v.toNat % 4 < 4
      ∧ s.get F.PWR_PERFSTAT_CLUSTER = v.toNat / 4 ∧ v.toNat / 4 < 3) ∧
    (∃ (s : State) (n : Nat), s.live = true ∧ s.pwr.fabTo = some n ∧ n = s.perfWant.1 ∧ n < 4) ∧
    (∃ (s : State) (n : Nat), s.live = true ∧ s.pwr.cluTo = some n ∧ n = s.perfWant.2 ∧ n < 4 ∧ s.pwr.capState < 2) :=
  ⟨⟨up, { cls := 0, num := 3 }, 8#32, 0, 0, by decide⟩,
   ⟨up, { cls := 0, num := 3 }, 9#32, 1, 0, by decide⟩,
   ⟨{ (up.sets [(F.PWR_STATUS_STATE, 1), (F.PINS_SUPPLY_SOURCE, 2)]) with pwr := { up.pwr with capState := 1 } },
      { cls := 0, num := 3 }, 8#32, 0, 0, by decide⟩,
   ⟨{ (up.sets [(F.PWR_STATUS_STATE, 1), (F.CPL_STAT_STATE, 7)]) with pwr := { up.pwr with capState := 1 } },
      { cls := 0, num := 3 }, 11#32, 3, 0, by decide⟩,
   ⟨{ (up.sets [(F.PWR_STATUS_STATE, 0), (F.PWR_STATUS_CHANGING, 1)]) with pwr := { up.pwr with capState := 0, change := some 1, final := 1 } }, { cls := 0, num := 3 }, 11#32, 3, 0, by decide⟩,
   ⟨{ up with pwr := { up.pwr with change := some 1, final := 1, capState := 1 } }, 0, by decide⟩,
   ⟨up, 0, by decide⟩,
   ⟨{ (up.sets [(F.PWR_STATUS_STATE, 2), (F.PWR_STATECFG_WAKETO, 1)]) with pwr := { up.pwr with capState := 2 } }, 6, 0, by decide⟩,
   ⟨{ (up.sets [(F.PWR_STATUS_STATE, 3)]) with pwr := { up.pwr with capState := 3 } }, 1, 65536, by decide⟩,
   ⟨{ (up.sets [(F.PWR_STATUS_STATE, 3)]) with pwr := { up.pwr with capState := 3 } }, 6, 65536, by decide⟩,
   ⟨{ (up.sets [(F.PWR_STATUS_STATE, 3), (F.PWR_ALARM_MS, 1)]) with pwr := { up.pwr with capState := 3 } }, 100000, by decide⟩,
   ⟨up, { cls := 0, num := 3 }, 3#32, by decide⟩,
   ⟨{ (up.set F.PWR_PERFREQ_FABRIC 3) with pwr := { up.pwr with fabTo := some 3 } }, 3, by decide⟩,
   ⟨{ (up.set F.PWR_PERFREQ_CLUSTER 2) with pwr := { up.pwr with cluTo := some 2 } }, 2, by decide⟩⟩

/-- Every clause of FaultEvents with hypotheses is met. -/
theorem witness_FaultEvents :
    (∃ (s : State) (n : Nat) (a : Nat) (b : Bool), n / 256 = 0x21 ∧ n % 256 ≤ 47 ∧ s.retired n = false
      ∧ (inWin (s.ledger n).times s.ns s.fltWindow).length + 1 < max 2 (s.get F.FLT_CFG_THRESH)) ∧
    (∃ (s : State) (n : Nat) (a : Nat) (b : Bool), n / 256 = 0x21 ∧ n % 256 ≤ 47 ∧ s.retired n = false
      ∧ max 2 (s.get F.FLT_CFG_THRESH) ≤ (inWin (s.ledger n).times s.ns s.fltWindow).length + 1) ∧
    (∃ (s : State) (n : Nat) (a : Nat), n / 256 = 0x10 ∧ n % 256 ≤ 25 ∧ s.retired n = false) ∧
    (∃ (s : State) (n : Nat) (a : Nat) (b : Bool), n / 256 = 0x10 ∧ 25 < n % 256) ∧
    (∃ (s : State) (rq : Rq) (v : Word), s.winOn W.FLT = true ∧ (rq.cls = 2 → s.dbgLevel = 2) ∧ v.toNat = 2
      ∧ s.get F.FLT_RESSEL_CODE / 256 = 0x10 ∧ s.get F.FLT_RESSEL_CODE % 256 ≤ 25) ∧
    (∃ (s : State) (rq : Rq) (v : Word), s.winOn W.FLT = true ∧ (rq.cls = 2 → s.dbgLevel = 2) ∧ v.toNat = 1
      ∧ s.on (F.LOCK_OPEN W.FLT) = true) ∧
    (∃ (s : State) (rq : Rq) (v : Word), s.winOn W.FLT = true ∧ (rq.cls = 2 → s.dbgLevel = 2) ∧ v.toNat = 1
      ∧ s.on (F.LOCK_OPEN W.FLT) = false) ∧
    (∃ (s : State) (n : Nat), s.live = true ∧ n < 256) ∧
    (∃ (s : State), s.live = true) ∧
    (∃ (s : State), s.live = true) ∧
    (∃ (s : State), s.env.phase = .stopped) ∧
    (∃ (s : State) (e : Nat) (w : Nat) (x : Wagon), e < 48 ∧ s.running e = some (w, x) ∧ x.st = 4) ∧
    (∃ (s : State) (e : Nat) (w : Nat) (x : Wagon), e < 48 ∧ s.running e = some (w, x) ∧ x.st = 4) :=
  ⟨⟨up, 0x212F, 0, false, by decide⟩,
   ⟨up.setLedger 0x212F { times := [0, 0, 0, 0, 0, 0, 0, 0, 0], retired := false }, 0x212F, 0, false, by decide⟩,
   ⟨up, 0x1019, 0, by decide⟩,
   ⟨up, 0x101A, 0, true, by decide⟩,
   ⟨(up.setLedger 0x1019 { times := [1], retired := true }).set F.FLT_RESSEL_CODE 0x1019, { cls := 0, num := 3 }, 2#32, by decide⟩,
   ⟨up.set (F.LOCK_OPEN W.FLT) 1, { cls := 0, num := 3 }, 1#32, by decide⟩,
   ⟨up, { cls := 0, num := 3 }, 1#32, by decide⟩,
   ⟨up, 255, by decide⟩,
   ⟨up, by decide⟩,
   ⟨up, by decide⟩,
   ⟨{ (up.set F.FLT_STOPINFO_CAUSE 3) with env := { up.env with phase := .stopped } }, by decide⟩,
   ⟨{ up with yard := { up.yard with wagons := [(5, { wagon0 with st := 4 })], engs := [(47, { eng0 with wag := some 5 })] } },
      47, 5, { wagon0 with st := 4 }, by decide⟩,
   ⟨{ up with yard := { up.yard with wagons := [(5, { wagon0 with st := 4, seq := 1 })], engs := [(47, { eng0 with wag := some 5 })] } }, 47, 5, { wagon0 with st := 4, seq := 1 }, by decide⟩⟩

/-- Every clause of DebugAccess with hypotheses is met. -/
theorem witness_DebugAccess :
    (∃ (s : State) (v : Word), s.live = true) ∧
    (∃ (s : State) (v : Word), s.live = true) ∧
    (∃ (s : State) (n : Nat) (v : Word), s.live = true ∧ s.dbg.active = true ∧ s.dbgLevel = 2 ∧ 4 ≤ n ∧ n ≤ 7 ∧ s.dbg.auto = 0
      ∧ s.dbg.data.length = 4) ∧
    (∃ (s : State) (n : Nat) (v : Word), s.live = true ∧ s.dbgLevel = 0) ∧
    (∃ (s : State) (h : Nat), s.live = true ∧ s.dbg.active = true ∧ s.dbgLevel = 2 ∧ h < 56 ∧ s.hartAvail h = true ∧ s.halted h = false) ∧
    (∃ (s : State) (h : Nat), s.dbgLevel ≠ 2) ∧
    (∃ (s : State) (h : Nat), s.live = true ∧ s.dbg.active = true ∧ s.dbgLevel = 2 ∧ h < 56 ∧ s.hartAvail h = true ∧ s.halted h = true
      ∧ (s.hart h).step = false) ∧
    (∃ (s : State) (h : Nat), s.live = true ∧ s.dbg.active = true ∧ s.dbgLevel = 2 ∧ h < 8 ∧ s.hartAvail h = true ∧ s.halted h = true
      ∧ (s.hart h).step = true) ∧
    (∃ (s : State) (h : Nat) (w : Nat) (x : Wagon), 8 ≤ h ∧ h < 56 ∧ s.hartAvail h = true ∧ s.running (h - 8) = some (w, x)
      ∧ (s.hart h).ebreakm = true) ∧
    (∃ (s : State) (h : Nat) (w : Nat) (x : Wagon), 8 ≤ h ∧ h < 56 ∧ s.hartAvail h = true ∧ s.running (h - 8) = some (w, x)
      ∧ (s.hart h).ebreakm = false) ∧
    (∃ (s : State) (v : Word) (h : Nat), s.live = true ∧ s.dbg.active = true ∧ s.dbgLevel = 2 ∧ s.dbg.cmderr = 0 ∧ s.dbg.sel = h
      ∧ s.hartAvail h = true ∧ s.halted h = true ∧ v.toNat = 0x002207B0 ∧ s.dbg.data.length = 4) ∧
    (∃ (s : State) (v : Word), s.live = true ∧ s.dbg.active = true ∧ s.dbgLevel = 2 ∧ s.dbg.cmderr = 0 ∧ s.halted s.dbg.sel = false) :=
  ⟨⟨up, 0xFFFFFFFF#32, by decide⟩,
   ⟨up.set F.DBG_MAPDATA_DATA 0xFFFFFFFF, 0#32, by decide⟩,
   ⟨{ up with dbg := { up.dbg with active := true } }, 7, 0xFFFFFFFF#32, by decide⟩,
   ⟨{ up with nvs := { up.nvs with rootSet := true } }, 17, 0#32, by decide⟩,
   ⟨{ (up.set F.APC_HARTSTAT_RUN 0x80) with dbg := { up.dbg with active := true } }, 7, by decide⟩,
   ⟨{ up with dbg := { up.dbg with active := true }, nvs := { up.nvs with rootSet := true } }, 7, by decide⟩,
   ⟨{ (up.set F.APC_HARTSTAT_RUN 0x80) with dbg := { up.dbg with active := true, harts := [(7, { hart0 with halted := true })] } },
      7, by decide⟩,
   ⟨{ (up.set F.APC_HARTSTAT_RUN 0x80) with dbg := { up.dbg with active := true, harts := [(7, { hart0 with halted := true, step := true })] } }, 7, by decide⟩,
   ⟨{ up with yard := { up.yard with wagons := [(5, { wagon0 with st := 4 })], engs := [(47, { eng0 with wag := some 5 })] }, dbg := { up.dbg with harts := [(55, { hart0 with ebreakm := true })] } }, 55, 5, { wagon0 with st := 4 }, by decide⟩,
   ⟨{ up with yard := { up.yard with wagons := [(5, { wagon0 with st := 4 })], engs := [(47, { eng0 with wag := some 5 })] } },
      55, 5, { wagon0 with st := 4 }, by decide⟩,
   ⟨{ (up.set F.APC_HARTSTAT_RUN 0x80) with dbg := { up.dbg with active := true, sel := 7, harts := [(7, { hart0 with halted := true })] } }, 0x002207B0#32, 7, by decide⟩,
   ⟨{ up with dbg := { up.dbg with active := true } }, 0x002207B0#32, by decide⟩⟩

/-- Every clause of DebugMemoryAndTokens with hypotheses is met. -/
theorem witness_DebugMemoryAndTokens :
    (∃ (s : State) (rq : Rq) (v : Word) (a : Nat), s.winOn W.DBG = true ∧ rq.cls ≠ 2 ∧ v.toNat = 5 ∧ s.dbgLevel = 2
      ∧ s.get F.DBG_MAPADDRLO_ADDR + s.get F.DBG_MAPADDRHI_ADDR * 2 ^ 32 = a ∧ a % 4 = 0 ∧ a < 0xFFFFFFFFFC
      ∧ (inSram a = true ∨ inDram a = true) ∧ s.domSt 16 = 2 ∧ s.ram.ue = []) ∧
    (∃ (s : State) (rq : Rq) (v : Word) (a : Nat), s.winOn W.DBG = true ∧ rq.cls ≠ 2 ∧ v.toNat = 6 ∧ s.dbgLevel = 2
      ∧ inBoard a = false ∧ inMap a = false ∧ s.get F.DBG_MAPADDRLO_ADDR + s.get F.DBG_MAPADDRHI_ADDR * 2 ^ 32 = a ∧ a % 4 = 0
      ∧ a < 0xFFFFFFFFFC ∧ (inSram a = true ∨ inDram a = true) ∧ s.domSt 16 = 2 ∧ s.ram.ue = []) ∧
    (∃ (s : State) (rq : Rq) (v : Word), s.winOn W.DBG = true ∧ rq.cls ≠ 2 ∧ v.toNat = 1 ∧ s.dbgLevel = 0
      ∧ inSram (s.get F.DBG_MAPADDRLO_ADDR) = true ∧ s.get F.DBG_MAPADDRHI_ADDR = 0) ∧
    (∃ (s : State) (rq : Rq) (v : Word), s.winOn W.DBG = true ∧ s.dbg.token.length < 56) ∧
    (∃ (s : State) (rq : Rq) (v : Word), s.winOn W.DBG = true ∧ v.toNat = 4) ∧
    (∃ (s : State) (c : TokenChk), s.live = true ∧ s.dbg.checks = [c] ∧ (c.bad = true ∨ s.nvs.rootSet = false)) ∧
    (∃ (s : State) (c : TokenChk), s.live = true ∧ s.dbg.checks = [c]) ∧
    (∃ (s : State) (rq : Rq) (v : Word) (n : Nat) (w : Nat) (x : Wagon), s.winOn W.DBG = true ∧ (rq.cls = 2 → s.dbgLevel = 2)
      ∧ v.toNat = 64 + n ∧ n < 48 ∧ (s.eng n).halted = true ∧ (s.eng n).wag = some w ∧ s.wag w = some x ∧ x.st = 4) :=
  ⟨⟨(up.sets [(F.DBG_MAPADDRLO_ADDR, 0xFFFFFFFC), (F.DBG_MAPADDRHI_ADDR, 0x83)]).pokeN 0x83FFFFFFFC 4 0x89ABCDEF,
      { cls := 0, num := 3 }, 5#32, 0x83FFFFFFFC, by decide⟩,
   ⟨up.sets [(F.DBG_MAPADDRLO_ADDR, 0x10000000), (F.DBG_MAPDATA_DATA, 0xFFFFFFFF)], { cls := 0, num := 3 }, 6#32, 0x10000000, by decide⟩,
   ⟨{ (up.set F.DBG_MAPADDRLO_ADDR 0x10000000) with nvs := { up.nvs with rootSet := true } }, { cls := 0, num := 3 }, 1#32, by decide⟩,
   ⟨up, { cls := 0, num := 3 }, 0xFFFFFFFF#32, by decide⟩,
   ⟨up, { cls := 0, num := 3 }, 4#32, by decide⟩,
   ⟨{ up with dbg := { up.dbg with checks := [{ words := [1], bad := true, chal := 9 }] } },
      { words := [1], bad := true, chal := 9 }, by decide⟩,
   ⟨{ up with dbg := { up.dbg with checks := [{ words := [1], bad := true, chal := 9 }] } },
      { words := [1], bad := true, chal := 9 }, by decide⟩,
   ⟨{ up with yard := { up.yard with wagons := [(5, { wagon0 with st := 4 })], engs := [(47, { eng0 with wag := some 5, halted := true })] } }, { cls := 0, num := 3 }, 111#32, 47, 5, { wagon0 with st := 4 }, by decide⟩⟩

end Sys2Proof.Tests
end

section
/-!
Reserved offsets, R56: no table, no multi-word register and no effect of a block stands at an offset that `regAt` does not find, so
that a word access there answers 0 and leaves the rest of the state.
-/

namespace Sys2Proof.Machine

/-! Where registers stand -/

/-- A run of `n` registers `st` octets apart from offset `b`, in each of the `m` windows from `w₀` on. -/
theorem regAt_ne_none_of_run (w₀ m b st n : Nat) (hd : ∀ i < m, ∀ k < n, (regAt (w₀ + i) (b + st * k)).isSome = true) {w off : Nat}
    (hw : w₀ ≤ w ∧ w < w₀ + m) (ho : b ≤ off ∧ off < b + st * n ∧ (off - b) % st = 0) : regAt w off ≠ none := by
  obtain ⟨hb, hn, hs⟩ := ho
  have hk : (off - b) / st < n := Nat.div_lt_of_lt_mul (by omega)
  have hoff : off = b + st * ((off - b) / st) := by
    rw [Nat.mul_div_cancel' (Nat.dvd_of_mod_eq_zero hs)]
    omega
  have hwin : w = w₀ + (w - w₀) := by omega
  rw [hwin, hoff]
  exact Option.isSome_iff_ne_none.mp (hd _ (by omega) _ hk)

/-- A multi-word register of R75 has its words in the tables. -/
theorem multiOf_of_reserved {w off : Nat} (h4 : off % 4 = 0) (h : regAt w off = none) : multiOf w off = none := by
  refine Option.eq_none_iff_forall_ne_some.mpr fun x hm => absurd h ?_
  simp only [multiOf] at hm
  split_ifs at hm with hw ho ho ho hw ho hw ho hw ho hw ho hw ho ho hw ho ho
  · exact regAt_ne_none_of_run 2 1 0x40 4 4 (by decide) (by rw [hw]; decide) (by omega)
  · exact regAt_ne_none_of_run 2 1 0x50 4 2 (by decide) (by rw [hw]; decide) (by omega)
  · exact regAt_ne_none_of_run 2 1 0xA0 4 4 (by decide) (by rw [hw]; decide) (by omega)
  · exact regAt_ne_none_of_run 1 1 0x80 4 24 (by decide) (by rw [hw]; decide) (by omega)
  · exact regAt_ne_none_of_run 0x14 1 0xA0 4 2 (by decide) (by rw [hw]; decide) (by omega)
  · obtain ⟨hlo, hhi, hl | hh⟩ := ho
    · exact regAt_ne_none_of_run 0x15 1 0x128 128 8 (by decide) (by rw [hw]; decide) (by omega)
    · exact regAt_ne_none_of_run 0x15 1 0x12C 128 8 (by decide) (by rw [hw]; decide) (by omega)
  · exact regAt_ne_none_of_run 0x1C 3 0x100 4 34 (by decide) (by omega) (by omega)
  · exact regAt_ne_none_of_run 0x38 8 0x48 4 2 (by decide) (by omega) (by omega)
  · exact regAt_ne_none_of_run 0x38 8 0x180 4 8 (by decide) (by omega) (by omega)
  · by_cases hlo : off < 0x68
    · exact regAt_ne_none_of_run 8 4 0x48 4 8 (by decide) (by omega) (by omega)
    · exact regAt_ne_none_of_run 8 4 0x70 4 2 (by decide) (by omega) (by omega)
  · exact regAt_ne_none_of_run 8 4 0x78 4 2 (by decide) (by omega) (by omega)

/-- A register whose reads find their value outside is in the tables. -/
theorem freeRead_of_reserved {w off : Nat} (h : regAt w off = none) : freeRead w off = false := by
  by_contra hf
  simp only [freeRead, Bool.not_eq_false, Bool.or_eq_true, Bool.and_eq_true, beq_iff_eq] at hf
  obtain ((⟨rfl, rfl⟩ | ⟨rfl, rfl⟩) | ⟨rfl, rfl⟩) | ⟨rfl, rfl⟩ := hf
  all_goals exact absurd h (by decide)

/-! Reads -/

theorem State.hdrRead_of_reserved (s : State) (rq : Rq) (w : Nat) {off : Nat} (ho : 0x34 ≤ off) : s.hdrRead rq w off = 0 := by
  unfold State.hdrRead
  split
  case h_11 => rfl
  all_goals omega

theorem State.regWord_of_reserved (s : State) (rq : Rq) {w off : Nat} (ho : 0x34 ≤ off) (h : regAt w off = none) :
    s.regWord rq w off = 0 := by
  simp only [State.regWord, h, s.hdrRead_of_reserved rq w ho, ite_self]

theorem State.rcClear_of_reserved (s : State) {w off : Nat} (lo n : Nat) (h : regAt w off = none) : s.rcClear w off lo n = s := by
  simp only [State.rcClear, h]

/-- A read of a reserved offset answers 0 and latches, clears and draws nothing. -/
theorem State.regRead_of_reserved (s : State) (rq : Rq) {w off : Nat} (lo n : Nat) (ho : 0x34 ≤ off) (h4 : off % 4 = 0)
    (h : regAt w off = none) : s.regRead rq w off lo n = s.answer 0 := by
  have hop : off ≠ 0x24 := by omega
  simp [State.regRead, multiOf_of_reserved h4 h, freeRead_of_reserved h, s.regWord_of_reserved rq ho h, s.rcClear_of_reserved lo n h, hop]

/-! Writes -/

theorem State.tabWrite_of_reserved (s : State) (rq : Rq) {w off : Nat} (v : Nat) (h : regAt w off = none) : s.tabWrite rq w off v = s := by
  simp only [State.tabWrite, h]

theorem State.hookTime_of_reserved (s o : State) {off : Nat} (v : Nat) (h : regAt W.TIME off = none) : s.hookTime o off v = s := by
  unfold State.hookTime
  split
  case h_9 => rfl
  all_goals exact absurd h (by decide)

theorem State.hookPwr_of_reserved (s o : State) {w off : Nat} (v wake : Nat) (h : regAt w off = none) :
    s.hookPwr o w off v wake = s := by
  simp only [State.hookPwr, Bool.and_eq_true, decide_eq_true_eq]
  split
  next hw =>
    subst hw
    split
    case h_4 => rfl
    all_goals exact absurd h (by decide)
  split
  next hc =>
    obtain ⟨rfl, rfl⟩ := hc
    exact absurd h (by decide)
  split
  next hc =>
    obtain ⟨⟨rfl, rfl⟩, -⟩ := hc
    exact absurd h (by decide)
  rfl

theorem State.restGo_of_no_path (s : State) {r p : Nat} (hp : pathsOf r ≤ p) : s.restGo r p = s := by
  simp [State.restGo, Nat.not_lt.mpr hp]

/-- Of the path registers a front end other than RFE_M lacks those of paths 1 and 2, whose REST a write would start; it lacks the paths
too (R122). -/
theorem State.hookRfe_of_reserved (s : State) {r off : Nat} (v : Nat) (hr : r < 4) (h4 : off % 4 = 0) (h : regAt (0x10 + r) off = none) :
    s.hookRfe r off v = s := by
  simp only [State.hookRfe, Bool.and_eq_true, decide_eq_true_eq]
  split
  next hc =>
    have hp0 : off ≠ 0x40 := by
      rintro rfl
      exact absurd h (regAt_ne_none_of_run 0x10 4 0x40 4 1 (by decide) (by omega) (by decide))
    have hM : r ≠ 3 := by
      rintro rfl
      exact absurd h (regAt_ne_none_of_run 0x13 1 0x40 4 3 (by decide) (by decide) (by omega))
    apply State.restGo_of_no_path
    rw [pathsOf, if_neg hM]
    omega
  split
  next hc =>
    obtain ⟨rfl, rfl⟩ := hc
    exact absurd h (by decide)
  split
  next hc =>
    obtain ⟨⟨rfl, rfl⟩, -⟩ := hc
    exact absurd h (by decide)
  rfl

theorem State.hookMesh_of_reserved (s o : State) (rq : Rq) {w off : Nat} (v : Nat) (h4 : off % 4 = 0) (h : regAt w off = none) :
    s.hookMesh o rq w off v = s := by
  simp only [State.hookMesh, Bool.and_eq_true, decide_eq_true_eq]
  split
  next hw =>
    subst hw
    split
    next hc =>
      obtain ⟨rfl, -⟩ := hc
      exact absurd h (by decide)
    split
    next hc =>
      obtain ⟨rfl, -⟩ := hc
      exact absurd h (by decide)
    rfl
  split
  next hw =>
    subst hw
    split
    next hc =>
      have hctl : off % 128 ≠ 0 := fun hm => regAt_ne_none_of_run 0x15 1 0x100 128 8 (by decide) (by decide) (by omega) h
      have hseed : off % 128 ≠ 0x44 := fun hm => regAt_ne_none_of_run 0x15 1 0x144 128 8 (by decide) (by decide) (by omega) h
      simp only [hctl, hseed, if_false]
    split
    next hc => exact absurd h (regAt_ne_none_of_run 0x15 1 0x1000 32 128 (by decide) (by decide) (by omega))
    rfl
  split
  next hc =>
    obtain ⟨⟨rfl, rfl⟩, -⟩ := hc
    exact absurd h (by decide)
  rfl

theorem State.hookWlan_of_reserved (s : State) (rq : Rq) {w off : Nat} (v : Nat) (h4 : off % 4 = 0) (h : regAt w off = none) :
    s.hookWlan rq w off v = s := by
  simp only [State.hookWlan, Bool.and_eq_true, decide_eq_true_eq]
  split
  next hw =>
    have hcommit : off ≠ 0x44 := fun ho => regAt_ne_none_of_run 0x18 3 0x44 4 1 (by decide) (by omega) (by omega) h
    have heq : off ≠ 0x54 := fun ho => regAt_ne_none_of_run 0x18 3 0x54 4 1 (by decide) (by omega) (by omega) h
    simp [hcommit, heq]
  split
  next hw =>
    split
    next hc => exact absurd h (regAt_ne_none_of_run 0x1C 3 0x50 4 4 (by decide) (by omega) (by omega))
    rfl
  split
  next hc =>
    obtain ⟨⟨rfl, rfl⟩, -⟩ := hc
    exact absurd h (by decide)
  rfl

theorem State.hookYard_of_reserved (s : State) (rq : Rq) {w off : Nat} (v : Nat) (h4 : off % 4 = 0) (h : regAt w off = none) :
    s.hookYard rq w off v = s := by
  simp only [State.hookYard, Bool.and_eq_true, decide_eq_true_eq]
  split
  next hw =>
    subst hw
    split
    case h_4 => rfl
    all_goals exact absurd h (by decide)
  split
  next hc =>
    obtain ⟨⟨rfl, hlo⟩, hhi⟩ := hc
    exact absurd h (regAt_ne_none_of_run 0x28 1 0x100 4 16 (by decide) (by decide) (by omega))
  rfl

theorem State.hookNet_of_reserved (s o : State) (rq : Rq) {w off : Nat} (v : Nat) (h4 : off % 4 = 0) (h : regAt w off = none) :
    s.hookNet o rq w off v = s := by
  simp only [State.hookNet, Bool.and_eq_true, decide_eq_true_eq]
  split
  next hw =>
    have hctl : off ≠ 0x44 := fun ho => regAt_ne_none_of_run 0x30 8 0x44 4 1 (by decide) (by omega) (by omega) h
    exact if_pos hctl
  split
  next hw =>
    have hcfg : off ≠ 0x40 := fun ho => regAt_ne_none_of_run 0x38 8 0x40 4 1 (by decide) (by omega) (by omega) h
    have hpause : off ≠ 0x70 := fun ho => regAt_ne_none_of_run 0x38 8 0x70 4 1 (by decide) (by omega) (by omega) h
    simp [hcfg, hpause]
  split
  next hw =>
    have hcls : ¬(0x40 ≤ off ∧ off < 0x80) := fun ho => regAt_ne_none_of_run 0x40 8 0x40 4 16 (by decide) (by omega) (by omega) h
    have htl : off ≠ 0xC0 := fun ho => regAt_ne_none_of_run 0x40 8 0xC0 4 1 (by decide) (by omega) (by omega) h
    simp [hcls, htl, h]
  split
  next hc =>
    obtain ⟨rfl, rfl⟩ := hc
    exact absurd h (by decide)
  rfl

theorem State.hookCore_of_reserved (s : State) (rq : Rq) {w off : Nat} (v : Nat) (hw : w = W.APC ∨ w = W.MEM) (h4 : off % 4 = 0)
    (h : regAt w off = none) : s.hookCore rq w off v = s := by
  obtain rfl | rfl := hw
  · have hrel : off ≠ 0x48 := fun ho => absurd h (by rw [ho]; decide)
    simp [State.hookCore, hrel]
  · have halloc : off ≠ 0x60 := fun ho => absurd h (by rw [ho]; decide)
    have hfree : off ≠ 0x68 := fun ho => absurd h (by rw [ho]; decide)
    have hmirror : ¬(0x80 ≤ off ∧ off < 0x90) := fun ho => regAt_ne_none_of_run 0x51 1 0x80 4 4 (by decide) (by decide) (by omega) h
    have happ : W.MEM ≠ W.APC := by decide
    simp [State.hookCore, halloc, hfree, hmirror, happ]

/-- A write to a reserved offset starts nothing in any block. -/
theorem State.hook_of_reserved (s o : State) (rq : Rq) {w off : Nat} (v wake : Nat) (h4 : off % 4 = 0) (h : regAt w off = none) :
    s.hook o rq w off v wake = s := by
  simp only [State.hook, Bool.and_eq_true, Bool.or_eq_true, decide_eq_true_eq]
  split
  next hw => exact s.hookTime_of_reserved o v (hw ▸ h)
  split
  next => exact s.hookPwr_of_reserved o v wake h
  split
  next hw => exact s.hookRfe_of_reserved v (by omega) h4 (by rwa [Nat.add_sub_cancel' hw.1])
  split
  next => exact s.hookMesh_of_reserved o rq v h4 h
  split
  next => exact s.hookWlan_of_reserved rq v h4 h
  split
  next => exact s.hookYard_of_reserved rq v h4 h
  split
  next => exact s.hookNet_of_reserved o rq v h4 h
  split
  next hw => exact s.hookCore_of_reserved rq v hw h4 h
  rfl

/-- The tables behind an index register are reached through registers of the tables. -/
theorem State.blockWrite_of_reserved (s : State) (rq : Rq) {w off : Nat} (v wake : Nat) (h4 : off % 4 = 0) (h : regAt w off = none) :
    s.blockWrite rq w off v wake = s := by
  simp only [State.blockWrite, multiOf_of_reserved h4 h, s.tabWrite_of_reserved rq v h, s.hook_of_reserved s rq v wake h4 h,
    Bool.and_eq_true, Bool.or_eq_true, decide_eq_true_eq]
  split
  next hc => exact absurd h (regAt_ne_none_of_run 0x10 4 0x74 4 4 (by decide) (by omega) (by omega))
  split
  next hc => exact absurd h (by rw [hc.1, hc.2]; decide)
  split
  next hc => exact absurd h (regAt_ne_none_of_run 0x1A 1 0x64 4 4 (by decide) (by omega) (by omega))
  split
  next hc =>
    obtain ⟨⟨rfl, hlo⟩, hhi⟩ := hc
    exact absurd h (regAt_ne_none_of_run 0x1F 1 0x84 4 5 (by decide) (by decide) (by omega))
  split
  next hc =>
    obtain ⟨rfl, rfl | rfl⟩ := hc
    all_goals exact absurd h (by decide)
  split
  next hc => exact absurd h (by rw [hc.1, hc.2]; decide)
  split
  next hc => exact absurd h (by rw [hc.1, hc.2]; decide)
  rfl

theorem State.hdrWrite_of_reserved (s : State) (rq : Rq) {w off : Nat} (v : Nat) (ho : 0x34 ≤ off) (h : regAt w off = none) :
    s.hdrWrite rq w off v = s := by
  unfold State.hdrWrite
  split
  case h_8 => exact s.tabWrite_of_reserved rq v h
  all_goals omega

theorem State.wordWrite_of_reserved (s : State) (rq : Rq) {w off : Nat} (v wake : Nat) (ho : 0x34 ≤ off) (h4 : off % 4 = 0)
    (h : regAt w off = none) : s.wordWrite rq w off v wake = s := by
  rw [State.wordWrite, s.hdrWrite_of_reserved rq v ho h, s.blockWrite_of_reserved rq v wake h4 h, ite_self]

theorem State.dbgWrite_of_reserved (s : State) (rq : Rq) {off : Nat} (v : Nat) (h : regAt W.DBG off = none) :
    s.dbgWrite rq off v = s := by
  simp only [State.dbgWrite, s.tabWrite_of_reserved rq v h]
  split
  case h_4 => rfl
  all_goals exact absurd h (by decide)

/-- A write to a reserved offset of a live window leaves the state as it is. -/
theorem State.regWrite_of_reserved (s : State) (rq : Rq) {w off : Nat} (v : Nat) (ho : 0x34 ≤ off) (h4 : off % 4 = 0)
    (h : regAt w off = none) : s.regWrite rq w off v = s := by
  simp only [State.regWrite, State.coreWrite, Bool.and_eq_true, decide_eq_true_eq]
  split
  next hc => exact absurd h (by rw [hc.1, hc.2]; decide)
  split
  next hc => exact s.dbgWrite_of_reserved rq v (hc.1 ▸ h)
  exact s.wordWrite_of_reserved rq v 0 ho h4 h

/-! Accesses -/

theorem winOk_lt {w : Nat} (h : winOk w = true) : w < 0x53 := by
  simp only [winOk, Bool.or_eq_true, Bool.and_eq_true, decide_eq_true_eq, beq_iff_eq] at h
  omega

theorem inRegs_regAddr {w off : Nat} (ho : off < 65536) : inRegs (regAddr w off) = true := by
  have hw : w % 4096 < 4096 := Nat.mod_lt _ (by decide)
  have ha : 0x40000000 ≤ regAddr w off ∧ regAddr w off < 0x50000000 := by
    unfold regAddr
    omega
  simp [inRegs, ha]

theorem regWin_regAddr {w off : Nat} (hw : w < 0x1000) (ho : off < 65536) : regWin (regAddr w off) = w := by
  unfold regWin regAddr
  omega

theorem regAddr_mod {w off : Nat} (ho : off < 65536) : regAddr w off % 65536 = off := by
  unfold regAddr
  omega

/-- The page header answers in every window of a running die; the registers of a block answer while it is on, R70. -/
theorem State.darkAt_regAddr_eq_none (s : State) (rq : Rq) {w off : Nat} (wr : Bool) (hw : winOk w = true) (ho : off < 65536)
    (hon : off < 0x40 ∨ s.winOn w = true) : s.darkAt rq (regAddr w off) wr = none := by
  have hlt : w < 0x1000 := lt_trans (winOk_lt hw) (by decide)
  obtain h | h := hon <;>
    simp [State.darkAt, inRegs_regAddr ho, regWin_regAddr hlt ho, regAddr_mod ho, hw, h, Nat.not_le.mpr]

@[simp] theorem State.engAns_answer (s : State) (rq : Rq) (v : Nat) : (s.answer v).engAns rq = s.answer v := by
  simp [State.engAns, State.answer]

/-- A word access to a live register reads or writes the register at its window and offset. -/
theorem State.regAcc_word (s : State) (f : State → Rq → Nat → Nat → Nat → State) (rq : Rq) {w off : Nat} (wr : Bool) (v : Nat)
    (hw : w < 0x1000) (ho : off < 65536) (h4 : off % 4 = 0) : s.regAcc f rq (regAddr w off) 4 wr v =
      if wr then (f s rq w off (v % 2 ^ 32)).answer 0 else s.regRead rq w off 0 32 := by
  have ha : regAddr w off % 4 = 0 := by
    simp only [regAddr]
    omega
  simp [State.regAcc, ha, regWin_regAddr hw ho, regAddr_mod ho]

/-- A word access to a reserved offset answers 0 and does nothing else, whether or not the requester may make it. -/
theorem State.access_of_reserved (s : State) (rq : Rq) {w off : Nat} (wr : Bool) (v : Nat) (u : Upset) (hw : winOk w = true)
    (hon : (0x34 ≤ off ∧ off < 0x40 ∧ s.live = true) ∨ (0x40 ≤ off ∧ s.winOn w = true)) (h4 : off % 4 = 0) (ho : off < 65536)
    (h : regAt w off = none) : s.access rq (regAddr w off) 4 wr v u = s.answer 0 := by
  have hlo : 0x34 ≤ off := by omega
  have hlt : w < 0x1000 := lt_trans (winOk_lt hw) (by decide)
  have hlive : s.live = true := hon.elim (fun hh => hh.2.2) fun hb => (Bool.and_eq_true_iff.mp hb.2).1
  have hdark : s.darkAt rq (regAddr w off) wr = none :=
    s.darkAt_regAddr_eq_none rq wr hw ho (hon.imp (fun hh => hh.2.1) fun hb => hb.2)
  have hraw : s.accRaw State.regWrite rq (regAddr w off) 4 wr v u = s.answer 0 := by
    simp only [State.accRaw, hdark, inRegs_regAddr ho, if_true, s.regAcc_word _ rq wr v hlt ho h4,
      s.regWrite_of_reserved rq _ hlo h4 h, s.regRead_of_reserved rq 0 32 hlo h4 h, ite_self]
  simp [State.access, State.accessBy, hlive, hraw]

/-- Settles O6: either access ends in `s.answer 0`, which touches the bus alone. -/
theorem reservedOffsets : Obligations.ReservedOffsets := by
  unfold Obligations.ReservedOffsets
  refine ⟨fun s rq w off hw hon h4 ho h => ?_, fun s rq w off v hw hon h4 ho h => ?_⟩
  · have hr : exec (.rcRead rq (regAddr w off)) s = .next (s.answer 0) :=
      congrArg Host.Outcome.next (s.access_of_reserved rq false 0 .none hw hon h4 ho h)
    exact ⟨s.answer 0, hr, rfl, rfl, rfl, s.keeps_refl [], rfl⟩
  · have hr : exec (.regWrite rq (regAddr w off) v) s = .next (s.answer 0) :=
      congrArg Host.Outcome.next (s.access_of_reserved rq true v.toNat .none hw hon h4 ho h)
    exact ⟨s.answer 0, hr, rfl, rfl, s.keeps_refl [], rfl⟩

end Sys2Proof.Machine
end

section
/-!
Die stops, R376, R377: the operations that end touch registers and interrupt gateways alone, the islands that go dark hold neither the
settings store, the ledger, PWR's record nor memory, and no write after FLT_STOPINFO's own reaches it.
-/

namespace Sys2Proof.Machine

/-! Changes of registers and interrupt gateways alone -/

/-- t is s but for its registers and APC's record of the interrupt gateways. -/
def State.RegsOnly (s t : State) : Prop := ∃ regs' apc', t = { s with regs := regs', apc := apc' }

theorem State.RegsOnly.refl (s : State) : s.RegsOnly s := ⟨_, _, rfl⟩

theorem State.RegsOnly.trans {s t u : State} (hst : s.RegsOnly t) (htu : t.RegsOnly u) : s.RegsOnly u := by
  obtain ⟨_, _, rfl⟩ := hst
  obtain ⟨_, _, rfl⟩ := htu
  exact ⟨_, _, rfl⟩

theorem State.RegsOnly.env {s t : State} (h : s.RegsOnly t) : t.env = s.env := by obtain ⟨_, _, rfl⟩ := h; rfl
theorem State.RegsOnly.nvs {s t : State} (h : s.RegsOnly t) : t.nvs = s.nvs := by obtain ⟨_, _, rfl⟩ := h; rfl
theorem State.RegsOnly.flt {s t : State} (h : s.RegsOnly t) : t.flt = s.flt := by obtain ⟨_, _, rfl⟩ := h; rfl
theorem State.RegsOnly.pwr {s t : State} (h : s.RegsOnly t) : t.pwr = s.pwr := by obtain ⟨_, _, rfl⟩ := h; rfl
theorem State.RegsOnly.mem {s t : State} (h : s.RegsOnly t) : t.mem = s.mem := by obtain ⟨_, _, rfl⟩ := h; rfl

theorem State.set_regsOnly (s : State) (f : Fld) (v : Nat) : s.RegsOnly (s.set f v) := ⟨_, _, rfl⟩

theorem State.sets_regsOnly (s : State) (l : List (Fld × Nat)) : s.RegsOnly (s.sets l) :=
  List.foldlRecOn l _ (.refl s) fun t ht e _ => ht.trans (t.set_regsOnly e.1 e.2)

theorem State.plicSample_regsOnly (s : State) (w : Nat) (level : Bool) : s.RegsOnly (s.plicSample w level) := by
  unfold State.plicSample
  split
  · exact ⟨_, _, rfl⟩
  · exact .refl s

theorem State.raise_regsOnly (s : State) (w b : Nat) : s.RegsOnly (s.raise w b) :=
  (s.set_regsOnly _ _).trans (State.plicSample_regsOnly _ _ _)

theorem State.opFinish_regsOnly (s : State) (w st cause : Nat) : s.RegsOnly (s.opFinish w st cause) :=
  ((s.set_regsOnly _ _).trans (State.set_regsOnly _ _ _)).trans (State.raise_regsOnly _ _ _)

theorem State.opKill_regsOnly (s : State) (w : Nat) : s.RegsOnly (s.opKill w) := by
  unfold State.opKill
  split
  · exact s.opFinish_regsOnly w 5 2
  · exact .refl s

/-! The die off -/

/-- The lanes in electrical idle. -/
def State.allLanesIdle (s : State) : State := (List.range 8).foldl (fun t n => t.set (F.LANE_STAT_IDLE n) 1) s

theorem State.allLanesIdle_regsOnly (s : State) : s.RegsOnly s.allLanesIdle :=
  List.foldlRecOn _ _ (.refl s) fun t ht _ _ => ht.trans (t.set_regsOnly _ _)

theorem State.get_allLanesIdle_ne (s : State) {f : Fld} (h : ∀ n ∈ List.range 8, f.key ≠ (F.LANE_STAT_IDLE n).key) :
    s.allLanesIdle.get f = s.get f :=
  List.foldlRecOn (motive := fun t : State => t.get f = s.get f) _ _ rfl fun t ht n hn => (t.get_set_ne 1 (h n hn)).trans ht

/-- The die going off is a change of fields other than the registers, and then the lanes' IDLE. -/
theorem State.dieOff_eq_allLanesIdle (s : State) (p : Phase) (life : Nat) :
    ∃ t : State, s.dieOff p life = t.allLanesIdle ∧ (∀ f, t.get f = s.get f) ∧ t.env = { s.env with phase := p, lifeOut := life }
      ∧ t.nvs = s.nvs ∧ t.flt = s.flt ∧ t.pwr = s.pwr ∧ t.mem = s.mem :=
  ⟨_, rfl, fun _ => rfl, rfl, rfl, rfl, rfl, rfl⟩

@[simp] theorem State.dieOff_env (s : State) (p : Phase) (life : Nat) :
    (s.dieOff p life).env = { s.env with phase := p, lifeOut := life } := by
  obtain ⟨t, ht, -, henv, -⟩ := s.dieOff_eq_allLanesIdle p life
  rw [ht, t.allLanesIdle_regsOnly.env, henv]

/-- The die going off changes neither the settings store, the ledger, PWR's record nor memory. -/
theorem State.dieOff_frame (s : State) (p : Phase) (life : Nat) :
    (s.dieOff p life).nvs = s.nvs ∧ (s.dieOff p life).flt = s.flt ∧ (s.dieOff p life).pwr = s.pwr
      ∧ (s.dieOff p life).mem = s.mem := by
  obtain ⟨t, ht, -, -, hnvs, hflt, hpwr, hmem⟩ := s.dieOff_eq_allLanesIdle p life
  have hr : t.RegsOnly (s.dieOff p life) := ht ▸ t.allLanesIdle_regsOnly
  exact ⟨hr.nvs.trans hnvs, hr.flt.trans hflt, hr.pwr.trans hpwr, hr.mem.trans hmem⟩

/-- The die going off writes no register but the lanes' IDLE. -/
theorem State.get_dieOff_ne (s : State) (p : Phase) (life : Nat) {f : Fld}
    (h : ∀ n ∈ List.range 8, f.key ≠ (F.LANE_STAT_IDLE n).key) : (s.dieOff p life).get f = s.get f := by
  obtain ⟨t, ht, hget, -⟩ := s.dieOff_eq_allLanesIdle p life
  rw [ht, t.get_allLanesIdle_ne h, hget]

/-! The die stopped -/

/-- The first half of a die stop: the operations ended and FLT_STOPINFO written. -/
def State.stopNoted (s : State) (cause cls : Nat) : State :=
  (((List.range 83).filter winOk).foldl (fun t w => t.opKill w) s).sets
    [(F.FLT_STOPINFO_CAUSE, cause), (F.FLT_STOPINFO_CLASS, cls), (F.FLT_STOPINFO_VALID, 1)]

theorem State.stopNoted_regsOnly (s : State) (cause cls : Nat) : s.RegsOnly (s.stopNoted cause cls) :=
  State.RegsOnly.trans (List.foldlRecOn _ _ (.refl s) fun t ht w _ => ht.trans (t.opKill_regsOnly w)) (State.sets_regsOnly _ _)

theorem State.get_stopNoted_cause (s : State) {cause : Nat} (cls : Nat) (hc : cause < 16) :
    (s.stopNoted cause cls).get F.FLT_STOPINFO_CAUSE = cause := by
  simp only [State.stopNoted, State.sets, List.foldl_cons, List.foldl_nil]
  rw [State.get_set_ne _ _ (by decide), State.get_set_ne _ _ (by decide), State.get_set_same]
  exact Nat.mod_eq_of_lt hc

theorem State.get_stopNoted_class (s : State) (cause : Nat) {cls : Nat} (hn : cls < 256) :
    (s.stopNoted cause cls).get F.FLT_STOPINFO_CLASS = cls := by
  simp only [State.stopNoted, State.sets, List.foldl_cons, List.foldl_nil]
  rw [State.get_set_ne _ _ (by decide), State.get_set_same]
  exact Nat.mod_eq_of_lt hn

theorem State.get_stopNoted_valid (s : State) (cause cls : Nat) : (s.stopNoted cause cls).get F.FLT_STOPINFO_VALID = 1 :=
  State.get_set_same _ _ _

/-- A running die notes the stop and goes off; the kind of its next start is all that changes after that. -/
theorem State.dieStop_of_live {s : State} (hl : s.live = true) (cause cls : Nat) :
    ∃ (t : State) (k : Nat), t = (s.stopNoted cause cls).dieOff .stopped 2
      ∧ s.dieStop cause cls = { t with env := { t.env with startKind := k } } := by
  unfold State.dieStop
  rw [hl]
  exact ⟨_, _, rfl, rfl⟩

/-- Stopping a running die leaves it Stopped with LIFE_OUT held high, R377. -/
theorem State.dieStop_env {s : State} (hl : s.live = true) (cause cls : Nat) :
    (s.dieStop cause cls).env.phase = .stopped ∧ (s.dieStop cause cls).env.lifeOut = 2 := by
  obtain ⟨t, k, ht, hk⟩ := State.dieStop_of_live hl cause cls
  simp [hk, ht]

/-- FLT_STOPINFO of a die that stops has the cause and the class, whatever it had before (log entry 108). -/
theorem State.dieStop_stopinfo {s : State} (hl : s.live = true) {cause cls : Nat} (hc : cause < 16) (hn : cls < 256) :
    (s.dieStop cause cls).get F.FLT_STOPINFO_CAUSE = cause ∧ (s.dieStop cause cls).get F.FLT_STOPINFO_CLASS = cls
      ∧ (s.dieStop cause cls).get F.FLT_STOPINFO_VALID = 1 := by
  obtain ⟨t, k, ht, hk⟩ := State.dieStop_of_live hl cause cls
  have hget (f : Fld) (hf : ∀ n ∈ List.range 8, f.key ≠ (F.LANE_STAT_IDLE n).key) :
      (s.dieStop cause cls).get f = (s.stopNoted cause cls).get f :=
    calc (s.dieStop cause cls).get f = t.get f := State.get_congr (by rw [hk]) (by rw [hk]) f
      _ = (s.stopNoted cause cls).get f := by rw [ht, State.get_dieOff_ne _ _ _ hf]
  rw [hget _ (by decide), hget _ (by decide), hget _ (by decide)]
  exact ⟨s.get_stopNoted_cause cls hc, s.get_stopNoted_class cause hn, s.get_stopNoted_valid cause cls⟩

/-- A die stop changes neither the settings store, the ledger, PWR's record nor memory. -/
theorem State.dieStop_frame {s : State} (hl : s.live = true) (cause cls : Nat) :
    (s.dieStop cause cls).nvs = s.nvs ∧ (s.dieStop cause cls).flt = s.flt ∧ (s.dieStop cause cls).pwr = s.pwr
      ∧ (s.dieStop cause cls).mem = s.mem := by
  obtain ⟨t, k, ht, hk⟩ := State.dieStop_of_live hl cause cls
  obtain ⟨hnvs, hflt, hpwr, hmem⟩ := (s.stopNoted cause cls).dieOff_frame .stopped 2
  have hs : s.RegsOnly (s.stopNoted cause cls) := s.stopNoted_regsOnly cause cls
  simp only [hk, ht, hnvs, hflt, hpwr, hmem]
  exact ⟨hs.nvs, hs.flt, hs.pwr, hs.mem⟩

/-- Settles O7: the command is a die stop with cause 1 and the class of the block. -/
theorem handshakeStallStops : Obligations.HandshakeStallStops := by
  unfold Obligations.HandshakeStallStops
  intro s n hl hn
  obtain ⟨hphase, hlife⟩ := State.dieStop_env hl 1 n
  obtain ⟨hcause, hclass, hvalid⟩ := State.dieStop_stopinfo hl (by decide : 1 < 16) hn
  have hon : (s.dieStop 1 n).on F.FLT_STOPINFO_VALID = true := by simp [State.on, hvalid]
  exact ⟨s.dieStop 1 n, rfl, hphase, hlife, hcause, hclass, hon, State.dieStop_frame hl 1 n⟩

end Sys2Proof.Machine
end

section
/-!
The trap that loses its event, R247, R395. A trap makes its wagon Done, and the release stage hands on what waited behind it; a ring
entry written over an uncorrectable word has FLT write the entry of its page table that holds the page. The number of that entry comes
from the table itself, so that a state whose table lists a number twice, far beyond FLT's sixteen, has FLT write the coach's EV_RAW.
-/

namespace Sys2Proof.Machine

/-- Fields of one key and one reset value read the same. -/
theorem State.get_eq_of_key_eq (s : State) {f g : Fld} (hk : f.key = g.key) (hr : f.rst = g.rst) : s.get f = s.get g := by
  unfold State.get State.base
  rw [hk, hr]

/-- The number of an entry whose FLT_PAGE would stand at EV_RAW of coach 0. -/
def strayEntry : Nat := ((W.ENG 0 - W.FLT) * 65536 + 0x10 - 0x80) / 4

/-- EXCEPT, bit 0 of EV_RAW, has the key of PAGE of the stray entry. -/
theorem State.ev_engExcept_eq_on_strayPage (s : State) :
    s.ev (W.ENG 0) E.ENG_EXCEPT = s.on (F.FLT_PAGE_PAGE strayEntry) := by
  have hget : s.get (F.EV_RAW (W.ENG 0) E.ENG_EXCEPT) = s.get (F.FLT_PAGE_PAGE strayEntry) :=
    s.get_eq_of_key_eq (by decide) (by decide)
  rw [State.ev, State.on, State.on, hget]

/-- The wagon of the engine that traps: place 0 of train 0, dispatched. -/
def trappedWagon : Wagon := { wagon0 with st := 4 }

/-- The wagon behind it on its train: Done, with one output to ring 0. -/
def waitingWagon : Wagon :=
  { wagon0 with st := 5, seq := 1,
                outs := [{ handle := 0, dest := 5, queue := 0, launch := 0, timed := false, compl := false, keep := false, ctrain := 0 }] }

/-- Engine 0 holds the first of two wagons of train 0; ring 0, in use, lies at address 0, in an uncorrectable word; FLT's page table
lists the stray entry for page 1 and again, hidden behind that, for page 0. -/
def strayState : State :=
  { State.reset.set (F.APC_RINGCFG_EN 0) 1 with
    ram := { State.reset.ram with ue := [0] }
    flt := { State.reset.flt with pages := [(strayEntry, 1), (strayEntry, 0)] }
    yard := { State.reset.yard with
      wagons := [(0, trappedWagon), (1, waitingWagon)], trains := [(0, (2, 0))], engs := [(0, { eng0 with wag := some 0 })] } }

/-- The trap releases both wagons, and with the second FLT writes page number 0 in the stray entry. -/
theorem strayPage_engTrap_strayState : (strayState.engTrap 0).get (F.FLT_PAGE_PAGE strayEntry) = 0 := by decide

/-- Refutes O8: its last clause says of every state that EXCEPT stands after the trap. In `strayState` the release that the trap leads
to has FLT clear it. That a table of FLT lists a number twice is what `State.wf` does not rule out. -/
theorem not_engineEbreak : ¬ Obligations.EngineEbreak := by
  unfold Obligations.EngineEbreak
  rintro ⟨-, -, htrap⟩
  obtain ⟨-, t, ht, -, hev⟩ := htrap strayState 0 0 trappedWagon (by decide) (by decide) (by decide) (by decide)
  have hnext : exec (.engineTrap 0) strayState = .next (strayState.engTrap 0) := rfl
  have heq : t = strayState.engTrap 0 := Host.Outcome.next.inj (ht.symm.trans hnext)
  rw [heq, State.ev_engExcept_eq_on_strayPage, State.on, strayPage_engTrap_strayState] at hev
  exact absurd hev (by decide)

end Sys2Proof.Machine
end

section
/-!
What every command keeps, R57, R248, R346: the lemmas of Laws/Keep*.lean for the single commands, put together for `exec` and for `step`.
-/

namespace Sys2Proof.Machine

/-- Every command keeps the canonical form of the state and the queue that waits. -/
theorem exec_ok {qs : List Instr} (c : Instr) {s u : State} (hs : s.Ok qs) (hu : exec c s = .next u) : u.Ok qs := by
  cases c with
  | regWrite rq addr v => exact execRegWrite_ok rq addr v hs hu
  | rcRead rq addr => exact execRcRead_ok rq addr hs hu
  | opstatRead rq win units => exact execOpstatRead_ok rq win units hs hu
  | multiwordLowRead rq addr => exact execMultiwordLowRead_ok rq addr hs hu
  | multiwordHighWrite rq addr v => exact execMultiwordHighWrite_ok rq addr v hs hu
  | subwordAccess rq addr bytes write => exact execSubwordAccess_ok rq addr bytes write hs hu
  | darkAccess rq addr write => exact execDarkAccess_ok rq addr write hs hu
  | sreset rq win => exact execSreset_ok rq win hs hu
  | lockWrite rq win v => exact execLockWrite_ok rq win v hs hu
  | evForce rq win v => exact execEvForce_ok rq win v hs hu
  | ctrlEnableWrite rq win v => exact execCtrlEnableWrite_ok rq win v hs hu
  | domreqWrite rq win v => exact execDomreqWrite_ok rq win v hs hu
  | domainTransitionDone dom => exact execDomainTransitionDone_ok dom hs hu
  | coachDrainTimeout coach => exact execCoachDrainTimeout_ok coach hs hu
  | opAbort rq win units => exact execOpAbort_ok rq win units hs hu
  | opResourceFree win => exact execOpResourceFree_ok win hs hu
  | opEnd win err => exact execOpEnd_ok win err hs hu
  | thermWarn temp => exact execThermWarn_ok temp hs hu
  | warnClear temp => exact execWarnClear_ok temp hs hu
  | thermHold temp => exact execThermHold_ok temp hs hu
  | thermClear temp => exact execThermClear_ok temp hs hu
  | thermalCut temp => exact execThermalCut_ok temp hs hu
  | thermalCutRecover temp => exact execThermalCutRecover_ok temp hs hu
  | mainsGood => exact execMainsGood_ok hs hu
  | mainsLoss => exact execMainsLoss_ok hs hu
  | mainsReturn => exact execMainsReturn_ok hs hu
  | backupGood volts => exact execBackupGood_ok volts hs hu
  | backupLoss volts => exact execBackupLoss_ok volts hs hu
  | bridgeTimerExpire => exact execBridgeTimerExpire_ok hs hu
  | storeExhausted => exact execStoreExhausted_ok hs hu
  | nresetLow => exact execNresetLow_ok hs hu
  | nresetRelease => exact execNresetRelease_ok hs hu
  | bootHandover ms => exact execBootHandover_ok ms hs hu
  | timeTick => exact execTimeTick_ok hs hu
  | ppsOutEnd => exact execPpsOutEnd_ok hs hu
  | timeSlewWrite rq v => exact execTimeSlewWrite_ok rq v hs hu
  | slewEnd => exact execSlewEnd_ok hs hu
  | timeStepWrite rq v => exact execTimeStepWrite_ok rq v hs hu
  | ref10Valid num den => exact execRef10Valid_ok num den hs hu
  | ref10Loss => exact execRef10Loss_ok hs hu
  | ppsInEdge => exact execPpsInEdge_ok hs hu
  | timeMeasWrite rq v => exact execTimeMeasWrite_ok rq v hs hu
  | syncSrcWrite rq v => exact execSyncSrcWrite_ok rq v hs hu
  | syncIvlBoundary => exact execSyncIvlBoundary_ok hs hu
  | sleepCalWindow => exact execSleepCalWindow_ok hs hu
  | launchTimeReached eth unit handle open' => exact execLaunchTimeReached_ok eth unit handle open' hs hu
  | pathTransitionDone r p => exact execPathTransitionDone_ok r p hs hu
  | pathRxCommand r p rx freq width => exact execPathRxCommand_ok r p rx freq width hs hu
  | pathTxCommand r p c rl => exact execPathTxCommand_ok r p c rl hs hu
  | pathTxEnd r p id canc => exact execPathTxEnd_ok r p id canc hs hu
  | pathRxEnd r p => exact execPathRxEnd_ok r p hs hu
  | pathRelease r p => exact execPathRelease_ok r p hs hu
  | preselRetuneDone r p => exact execPreselRetuneDone_ok r p hs hu
  | rfeCalSweep rq r => exact execRfeCalSweep_ok rq r hs hu
  | sweepEntryDone r m => exact execSweepEntryDone_ok r m hs hu
  | rfeSurvey rq r => exact execRfeSurvey_ok rq r hs hu
  | surveyDwellEnd r energy skipped => exact execSurveyDwellEnd_ok r energy skipped hs hu
  | rfeFgCal rq r => exact execRfeFgCal_ok rq r hs hu
  | fgCalEnd r => exact execFgCalEnd_ok r hs hu
  | bgCalStep r idx last m => exact execBgCalStep_ok r idx last m hs hu
  | entryStale r idx => exact execEntryStale_ok r idx hs hu
  | maskMeasure r port excess => exact execMaskMeasure_ok r port excess hs hu
  | cancClear rq v => exact execCancClear_ok rq v hs hu
  | cancSave rq v => exact execCancSave_ok rq v hs hu
  | coexReqInRise prio => exact execCoexReqInRise_ok prio hs hu
  | coexLead r p id reqIn => exact execCoexLead_ok r p id reqIn hs hu
  | coexGrantSample r p id grant => exact execCoexGrantSample_ok r p id grant hs hu
  | windowCommit rq v => exact execWindowCommit_ok rq v hs hu
  | windowApply => exact execWindowApply_ok hs hu
  | listenerAssign l a => exact execListenerAssign_ok l a hs hu
  | listenerWindowOpen l => exact execListenerWindowOpen_ok l hs hu
  | energyDetect l e => exact execEnergyDetect_ok l e hs hu
  | qualifierPass l corr e => exact execQualifierPass_ok l corr e hs hu
  | qualifierFail q => exact execQualifierFail_ok q hs hu
  | sfdMatch l units rssi => exact execSfdMatch_ok l units rssi hs hu
  | sfdwaitExpire w => exact execSfdwaitExpire_ok w hs hu
  | strongerPreamble l corr e es => exact execStrongerPreamble_ok l corr e es hs hu
  | phrEnd l h len fcslen dw => exact execPhrEnd_ok l h len fcslen dw hs hu
  | psduEnd l psdu rep taps => exact execPsduEnd_ok l psdu rep taps hs hu
  | listenerWindowClose l => exact execListenerWindowClose_ok l hs hu
  | eqArm rq v => exact execEqArm_ok rq v hs hu
  | carrierRequest c => exact execCarrierRequest_ok c hs hu
  | carrierLaunch id => exact execCarrierLaunch_ok id hs hu
  | tileEnable rq t v => exact execTileEnable_ok rq t v hs hu
  | tileChecksDone t => exact execTileChecksDone_ok t hs hu
  | tileDisable rq t v => exact execTileDisable_ok rq t v hs hu
  | slotEdge t => exact execSlotEdge_ok t hs hu
  | slotPrepare t => exact execSlotPrepare_ok t hs hu
  | sfSwitch rq t sf v => exact execSfSwitch_ok rq t sf v hs hu
  | boardWriteDiscard rq addr bytes => exact execBoardWriteDiscard_ok rq addr bytes hs hu
  | mlcBoardLoad rq => exact execMlcBoardLoad_ok rq hs hu
  | mlcFrameCheck l lbt => exact execMlcFrameCheck_ok l lbt hs hu
  | txSquare t square lbt => exact execTxSquare_ok t square lbt hs hu
  | sharedSquare t square cca lbt => exact execSharedSquare_ok t square cca lbt hs hu
  | beaconSquare t square lbt => exact execBeaconSquare_ok t square lbt hs hu
  | keepaliveSquare t square fin lbt => exact execKeepaliveSquare_ok t square fin lbt hs hu
  | alloc => exact execAlloc_ok hs hu
  | release => exact execRelease_ok hs hu
  | read => exact execRead_ok hs hu
  | setkey => exact execSetkey_ok hs hu
  | findext => exact execFindext_ok hs hu
  | findshort => exact execFindshort_ok hs hu
  | flushq => exact execFlushq_ok hs hu
  | setsw => exact execSetsw_ok hs hu
  | holdoffExpire rec' => exact execHoldoffExpire_ok rec' hs hu
  | frameAttribute => exact execFrameAttribute_ok hs hu
  | mapWriteDiscard rq addr bytes => exact execMapWriteDiscard_ok rq addr bytes hs hu
  | downlinkExpire handle => exact execDownlinkExpire_ok handle hs hu
  | rebuildCopy0 rq => exact execRebuildCopy0_ok rq hs hu
  | rebuildCopy1 rq => exact execRebuildCopy1_ok rq hs hu
  | rebuildRestore rq => exact execRebuildRestore_ok rq hs hu
  | wlanLstfDetect r power => exact execWlanLstfDetect_ok r power hs hu
  | wlanLltfConfirm r => exact execWlanLltfConfirm_ok r hs hu
  | wlanLltfTimeout r => exact execWlanLltfTimeout_ok r hs hu
  | wlanLsigEnd r ok nonHt dur n => exact execWlanLsigEnd_ok r ok nonHt dur n hs hu
  | wlanSigEnd r fmt g mine tb dur n => exact execWlanSigEnd_ok r fmt g mine tb dur n hs hu
  | wlanPsduEnd r l eq resp => exact execWlanPsduEnd_ok r l eq resp hs hu
  | wlanRestart r power => exact execWlanRestart_ok r power hs hu
  | grantExpire idx => exact execGrantExpire_ok idx hs hu
  | wlanEqArm rq r v => exact execWlanEqArm_ok rq r v hs hu
  | channelCommit rq r v => exact execChannelCommit_ok rq r v hs hu
  | channelApply r => exact execChannelApply_ok r hs hu
  | staAdd => exact execStaAdd_ok hs hu
  | staDel => exact execStaDel_ok hs hu
  | staSetlink => exact execStaSetlink_ok hs hu
  | staSetmap => exact execStaSetmap_ok hs hu
  | staFlush => exact execStaFlush_ok hs hu
  | tsfEpochWrite rq reg v => exact execTsfEpochWrite_ok rq reg v hs hu
  | tbtt r bss => exact execTbtt_ok r bss hs hu
  | mldFrameExpire handle => exact execMldFrameExpire_ok handle hs hu
  | planRevise r ac inp => exact execPlanRevise_ok r ac inp hs hu
  | txopWin r acs o => exact execTxopWin_ok r acs o hs hu
  | twtValidWrite rq v => exact execTwtValidWrite_ok rq v hs hu
  | twtSpStart a => exact execTwtSpStart_ok a hs hu
  | swCreate rq v => exact execSwCreate_ok rq v hs hu
  | swCoupling rq v => exact execSwCoupling_ok rq v hs hu
  | couplingArrive wid slot typ val snap => exact execCouplingArrive_ok wid slot typ val snap hs hu
  | dispatch e => exact execDispatch_ok e hs hu
  | wend e void => exact execWend_ok e void hs hu
  | wemit e o => exact execWemit_ok e o hs hu
  | wnew e t => exact execWnew_ok e t hs hu
  | wcpl e wid slot typ val => exact execWcpl_ok e wid slot typ val hs hu
  | wreq e sec req wid slot => exact execWreq_ok e sec req wid slot hs hu
  | whand e wid => exact execWhand_ok e wid hs hu
  | wbuf e len => exact execWbuf_ok e len hs hu
  | engineTrap e => exact execEngineTrap_ok e hs hu
  | wagonDeadline wid => exact execWagonDeadline_ok wid hs hu
  | wagonAbandon wid => exact execWagonAbandon_ok wid hs hu
  | programLoad rq coach => exact execProgramLoad_ok rq coach hs hu
  | pbArm rq v => exact execPbArm_ok rq v hs hu
  | pbSwitch => exact execPbSwitch_ok hs hu
  | histWindow => exact execHistWindow_ok hs hu
  | eloadWindow retired => exact execEloadWindow_ok retired hs hu
  | rteCommit rq => exact execRteCommit_ok rq hs hu
  | rteCommitApply units => exact execRteCommitApply_ok units hs hu
  | oldSetRelease => exact execOldSetRelease_ok hs hu
  | lookup => exact execLookup_ok hs hu
  | decomp => exact execDecomp_ok hs hu
  | comp => exact execComp_ok hs hu
  | frag => exact execFrag_ok hs hu
  | srhins => exact execSrhins_ok hs hu
  | reasmExpire idx => exact execReasmExpire_ok idx hs hu
  | watchChange w => exact execWatchChange_ok w hs hu
  | watchHoldExpire w => exact execWatchHoldExpire_ok w hs hu
  | watchRestore rq w v => exact execWatchRestore_ok rq w v hs hu
  | frameBoundary n => exact execFrameBoundary_ok n hs hu
  | creditRefill n => exact execCreditRefill_ok n hs hu
  | tlEnable rq n v => exact execTlEnable_ok rq n v hs hu
  | tlDisable rq n v => exact execTlDisable_ok rq n v hs hu
  | tlSwitch rq n v => exact execTlSwitch_ok rq n v hs hu
  | tlStart n => exact execTlStart_ok n hs hu
  | tlEntryBoundary n => exact execTlEntryBoundary_ok n hs hu
  | signalDetect n => exact execSignalDetect_ok n hs hu
  | anComplete n common fec pause eee => exact execAnComplete_ok n common fec pause eee hs hu
  | trainComplete n pre main post => exact execTrainComplete_ok n pre main post hs hu
  | trainTimeout n => exact execTrainTimeout_ok n hs hu
  | wordLock n => exact execWordLock_ok n hs hu
  | lockTimeout n => exact execLockTimeout_ok n hs hu
  | exchangeComplete n speed pause => exact execExchangeComplete_ok n speed pause hs hu
  | lockLoss n => exact execLockLoss_ok n hs hu
  | laneRetrain rq n v => exact execLaneRetrain_ok rq n v hs hu
  | eidleWrite rq n v => exact execEidleWrite_ok rq n v hs hu
  | linkDown n loc rem => exact execLinkDown_ok n loc rem hs hu
  | linkUp n => exact execLinkUp_ok n hs hu
  | ethRxStart n => exact execEthRxStart_ok n hs hu
  | ethRxEnd n data code => exact execEthRxEnd_ok n data code hs hu
  | pauseTimerExpire n c => exact execPauseTimerExpire_ok n c hs hu
  | txpauseSend rq n v => exact execTxpauseSend_ok rq n v hs hu
  | pauseRepeat n => exact execPauseRepeat_ok n hs hu
  | lpiEnter n => exact execLpiEnter_ok n hs hu
  | lpiExit n => exact execLpiExit_ok n hs hu
  | hello sen pairid role lanes => exact execHello_ok sen pairid role lanes hs hu
  | heartbeatSend => exact execHeartbeatSend_ok hs hu
  | heartbeatReceive sen acks => exact execHeartbeatReceive_ok sen acks hs hu
  | heartbeatMiss => exact execHeartbeatMiss_ok hs hu
  | lifeInReading reading => exact execLifeInReading_ok reading hs hu
  | alignmentMarker lanes => exact execAlignmentMarker_ok lanes hs hu
  | couplerLaneDrop k resent lost => exact execCouplerLaneDrop_ok k resent lost hs hu
  | couplerLaneJoin k => exact execCouplerLaneJoin_ok k hs hu
  | cplDataReceive frame => exact execCplDataReceive_ok frame hs hu
  | syncComplete copy => exact execSyncComplete_ok copy hs hu
  | mirrorUpdate m => exact execMirrorUpdate_ok m hs hu
  | cplTimeCorrect t => exact execCplTimeCorrect_ok t hs hu
  | releaseReceive => exact execReleaseReceive_ok hs hu
  | cplHandover rq v => exact execCplHandover_ok rq v hs hu
  | cplResync rq v => exact execCplResync_ok rq v hs hu
  | cplEbHeard sen pairid role => exact execCplEbHeard_ok sen pairid role hs hu
  | cplEbMiss b => exact execCplEbMiss_ok b hs hu
  | lentCarrierRequest c answer => exact execLentCarrierRequest_ok c answer hs hu
  | nvsProgram rq => exact execNvsProgram_ok rq hs hu
  | nvsActivate rq => exact execNvsActivate_ok rq hs hu
  | secEnrol rq => exact execSecEnrol_ok rq hs hu
  | ccmDecrypt => exact execCcmDecrypt_ok hs hu
  | ccmEncrypt => exact execCcmEncrypt_ok hs hu
  | gcmpDecrypt => exact execGcmpDecrypt_ok hs hu
  | gcmpEncrypt => exact execGcmpEncrypt_ok hs hu
  | macsecDecrypt => exact execMacsecDecrypt_ok hs hu
  | macsecEncrypt => exact execMacsecEncrypt_ok hs hu
  | meterBucketAge meter => exact execMeterBucketAge_ok meter hs hu
  | limSnapshot ok => exact execLimSnapshot_ok ok hs hu
  | hartRelease rq v => exact execHartRelease_ok rq v hs hu
  | msipWrite hart by' v => exact execMsipWrite_ok hart by' v hs hu
  | plicClaim ctx => exact execPlicClaim_ok ctx hs hu
  | plicComplete ctx src => exact execPlicComplete_ok ctx src hs hu
  | memAccess rq addr bytes write v upset => exact execMemAccess_ok rq addr bytes write v upset hs hu
  | scrub dram upset => exact execScrub_ok dram upset hs hu
  | memAlloc rq v => exact execMemAlloc_ok rq v hs hu
  | memFree rq v => exact execMemFree_ok rq v hs hu
  | chkScan rq unit => exact execChkScan_ok rq unit hs hu
  | stateRequest rq v wake => exact execStateRequest_ok rq v wake hs hu
  | stateChangeDone wake => exact execStateChangeDone_ok wake hs hu
  | dormantAlarm edges => exact execDormantAlarm_ok edges hs hu
  | wakeSource src edges => exact execWakeSource_ok src edges hs hu
  | perfRequest rq v => exact execPerfRequest_ok rq v hs hu
  | perfSwitchDone cluster => exact execPerfSwitchDone_ok cluster hs hu
  | faultEvent code page hard => exact execFaultEvent_ok code page hard hs hu
  | fltRestore rq v => exact execFltRestore_ok rq v hs hu
  | fltStop rq v => exact execFltStop_ok rq v hs hu
  | handshakeStall cls => exact execHandshakeStall_ok cls hs hu
  | railFault => exact execRailFault_ok hs hu
  | tickLockLost => exact execTickLockLost_ok hs hu
  | stopholdExpire => exact execStopholdExpire_ok hs hu
  | engineStall e => exact execEngineStall_ok e hs hu
  | engineRunmax e => exact execEngineRunmax_ok e hs hu
  | tapReset => exact execTapReset_ok hs hu
  | dbgiAccess op off v => exact execDbgiAccess_ok op off v hs hu
  | dmiAccess op addr v => exact execDmiAccess_ok op addr v hs hu
  | haltRequest h => exact execHaltRequest_ok h hs hu
  | resumeRequest h => exact execResumeRequest_ok h hs hu
  | singleStep h ins => exact execSingleStep_ok h ins hs hu
  | ebreak h => exact execEbreak_ok h hs hu
  | abstractCommand v => exact execAbstractCommand_ok v hs hu
  | mapRead rq v => exact execMapRead_ok rq v hs hu
  | mapWrite rq v => exact execMapWrite_ok rq v hs hu
  | tokenWordWrite rq v => exact execTokenWordWrite_ok rq v hs hu
  | tokenVerify rq v => exact execTokenVerify_ok rq v hs hu
  | tokenCheckDone => exact execTokenCheckDone_ok hs hu
  | engineYield rq v => exact execEngineYield_ok rq v hs hu
  | twtSpEnd a => exact execTwtSpEnd_ok a hs hu
  | creditReachesZero n c => exact execCreditReachesZero_ok n c hs hu
  | coexPrioRise => exact execCoexPrioRise_ok hs hu
  | rxLpiChange n on => exact execRxLpiChange_ok n on hs hu

/-- A well-formed state is in canonical form, with whatever queue it has. -/
theorem State.wf_iff_ok (s : State) : s.wf = true ↔ s.Ok s.pending := by
  simp only [State.wf, Bool.and_eq_true]
  exact ⟨fun ⟨⟨hregs, hmem⟩, hprog⟩ => ⟨hregs, hmem, hprog, rfl⟩, fun h => ⟨⟨h.regs, h.mem⟩, h.prog⟩⟩

/-- A command in a well-formed state leaves it well formed and the queue as it is. -/
theorem exec_keeps_wf {c : Instr} {s t : State} (hs : s.wf = true) (ht : exec c s = .next t) : t.wf = true ∧ t.pending = s.pending := by
  have hok : t.Ok s.pending := exec_ok c (s.wf_iff_ok.mp hs) ht
  exact ⟨t.wf_iff_ok.mpr (hok.queue.symm ▸ hok), hok.queue⟩

/-- A step with a command waiting runs that command with the rest of the queue. -/
theorem step_of_pending {s : State} {c : Instr} {rest : List Instr} (h : s.pending = c :: rest) :
    step s = exec c { s with pending := rest } := by simp only [step, h]

/-- A step with an empty queue answers the state as it is. -/
theorem step_of_idle {s : State} (h : s.pending = []) : step s = .next s := by simp only [step, h]

/-- Settles O3: a step idles, or it is a command that runs in a state which differs in its queue alone. -/
theorem stepKeepsWellFormed : Obligations.StepKeepsWellFormed := by
  unfold Obligations.StepKeepsWellFormed
  intro s t hs ht
  cases hq : s.pending with
  | nil =>
    rw [step_of_idle hq] at ht
    exact Host.Outcome.next.inj ht ▸ hs
  | cons c rest =>
    rw [step_of_pending hq] at ht
    have hrest : State.wf { s with pending := rest } = true := hs
    exact (exec_keeps_wf hrest ht).1

/-- Settles O4: the queue is part of what every command keeps. -/
theorem commandsLeaveTheQueue : Obligations.CommandsLeaveTheQueue := by
  unfold Obligations.CommandsLeaveTheQueue
  exact fun c s t hs ht => (exec_keeps_wf hs ht).2

/-- Settles O1: the two branches of `step`. -/
theorem stepRunsFrontCommand : Obligations.StepRunsFrontCommand := by
  unfold Obligations.StepRunsFrontCommand
  exact ⟨fun s c rest h => step_of_pending h, fun s h => step_of_idle h⟩

/-- Settles O2: the reset state is a literal, and its registers, but for MAINS_OK, are at their reset values. -/
theorem resetStateAtRest : Obligations.ResetStateAtRest := by
  unfold Obligations.ResetStateAtRest
  refine ⟨by decide, rfl, rfl, ?_⟩
  decide

/-- Settles O5. -/
theorem noCommandStops : Obligations.NoCommandStops := by
  unfold Obligations.NoCommandStops
  intro c s
  cases c <;> exact ⟨_, rfl⟩

end Sys2Proof.Machine
end

section
/-!
Refutations by concrete states. Three of them hold a value that no command stores and that `State.wf` does not rule out: a field
wider than its bits, and a register set of the settings store that gives a value to an event.
-/

namespace Sys2Proof.Machine

/-- The one next state of a command has what the command is said to complete with. -/
theorem completes.of_exec {c : Instr} {s u : State} {p : State → Prop} (h : completes c s p) (hu : exec c s = .next u) : p u := by
  obtain ⟨t, ht, hp⟩ := h
  exact Host.Outcome.next.inj (hu.symm.trans ht) ▸ hp

/-- Counter 0 of MPHY holds in COUNT, which has 31 bits, the value 2^31. -/
def wideCounterState : State := { State.reset with regs := [((mkF W.MPHY 0xC0 0 31 0).key, 2 ^ 31)] }

/-- Refutes O12: a read answers the bits of a field, and its last clause says that it answers the value, which in `wideCounterState`
does not fit. -/
theorem not_registerAccess : ¬ Obligations.RegisterAccess := by
  unfold Obligations.RegisterAccess
  rintro ⟨-, -, hrc⟩
  have h := (hrc wideCounterState ⟨0, 0⟩ 0 (by decide) (by decide) (by decide)).of_exec rfl
  exact absurd h.1 (by decide)

/-- The settings store gives event 1 of SYS the value 1. -/
def storedEventState : State := { State.reset with nv := [((F.EV_RAW W.SYS 1).key, 1)] }

/-- Refutes O16: SRESET puts the events at what the settings store has for them, and in `storedEventState` that is 1. -/
theorem not_sresetOfABlock : ¬ Obligations.SresetOfABlock := by
  unfold Obligations.SresetOfABlock
  rintro ⟨-, hreset⟩
  have h := (hreset storedEventState ⟨0, 0⟩ W.SYS (by decide) (by decide)).of_exec rfl
  exact absurd (h.1 1 (by decide)) (by decide)

/-- The path of the mesh ports is on its way to Tx and has nothing to send. -/
def nothingToSendState : State :=
  State.reset.setPath 3 1 { State.reset.path 3 1 with nxt := some 4 }

/-- Refutes O22: a path that moves to Tx arrives there when a transmission is due, and in `nothingToSendState` none is. -/
theorem not_pathStates : ¬ Obligations.PathStates := by
  unfold Obligations.PathStates
  rintro ⟨-, -, -, -, hdone, -⟩
  have h := (hdone nothingToSendState 3 1 4 (by decide) (by decide) (by decide) (by decide)).of_exec rfl
  exact absurd h.1 (by decide)

/-- A transmission on port 20, a mesh port. -/
def meshPortCmd : TxCmd := { id := 0, port := 20, freq := 0, bw := 0, width := 0, timed := false, at' := 0, dur := 0, act := 0 }

/-- Refutes O23: path 0 of RFE_A has no command for a port of another path, and the first clause speaks of every port. -/
theorem not_transmitCommands : ¬ Obligations.TransmitCommands := by
  unfold Obligations.TransmitCommands
  rintro ⟨hbusy, -⟩
  have h := (hbusy State.reset 0 0 meshPortCmd (by decide) (by decide)).of_exec rfl
  exact absurd h.1 (by decide)

/-- A survey of RFE_A at its first entry, whose record lies in a word with an uncorrectable error. -/
def surveyErrorState : State :=
  { State.reset.sets [(F.OPSTAT_STATE (W.RFE 0), 2), (F.RFE_OPSEL_OP 0, 1), (F.RFE_SURVADDR_ADDR 0, 0x13000000)] with
    rfe := { State.reset.rfe with surv := [(0, (0, 0))] }
    ram := { State.reset.ram with ue := [0x13000000] } }

/-- Refutes O24: a record is half of a memory word, and a write of half of a word with an uncorrectable error takes no effect (R347). -/
theorem not_calibrationOperations : ¬ Obligations.CalibrationOperations := by
  unfold Obligations.CalibrationOperations
  rintro ⟨-, -, -, -, -, -, hdwell, -⟩
  have h := (hdwell surveyErrorState 0 0 (by decide) (by decide) (by decide) (by decide) (by decide) (by decide) (by decide)).of_exec rfl
  obtain ⟨-, -, -, hpeek, -⟩ := h
  exact absurd hpeek (by decide)

/-- Entry 0 of RFE_A is valid and stale, its path in Ready, and TEMP, which has 12 bits, holds the value 4096. -/
def wideTempState : State :=
  { State.reset.sets [(F.RFE_BGCAL_EN 0, 1), (F.RFE_PATHSTAT_STATE 0 0, 2)] with
    regs := (F.PINS_BASETEMP_TEMP.key, 4096) :: (State.reset.sets [(F.RFE_BGCAL_EN 0, 1), (F.RFE_PATHSTAT_STATE 0 0, 2)]).regs
    rfe := { State.reset.rfe with cal := [(0, 2 ^ 26 + 2 ^ 27)] } }

/-- A calibration that found its values. -/
def goodCal : CalMeas := { result := 0, gain := 0, presel := 0, txpwr := 0, dpdset := 0 }

/-- Refutes O25: the entry keeps the 12 bits of TEMP, and in `wideTempState` TEMP holds more. -/
theorem not_calibrationUpkeep : ¬ Obligations.CalibrationUpkeep := by
  unfold Obligations.CalibrationUpkeep
  rintro ⟨hstep, -⟩
  have h := (hstep wideTempState 0 0 goodCal (by decide) (by decide) (by decide) (by decide) (by decide) (by decide) (by decide)
    (by decide)).of_exec rfl
  obtain ⟨-, -, -, htemp, -⟩ := h
  exact absurd htemp (by decide)

/-- A class with one buffer, which is free, gives that buffer, whatever the free value that picks is. -/
theorem State.bufAlloc_of_single {s : State} {n k : Nat}
    (hk : ((List.range 4).find? fun k => classFor n ≤ k && 0 < s.bufFree k) = some k) (hone : s.bufCount k = 1)
    (hfree : kget s.ram.pool (s.bufHandle k 0) = none) :
    s.bufAlloc n = (some (s.bufHandle k 0),
      ({ s.fresh.2 with ram := { s.fresh.2.ram with pool := kset s.ram.pool (s.bufHandle k 0) k } }).pokeN
        (handleAddr (s.bufHandle k 0) + 4) 4 k) := by
  have hpick : s.pick (fun j => (kget s.ram.pool (s.bufHandle k j)).isNone) (s.bufCount k) 0 = (some 0, s.fresh.2) := by
    simp [State.pick, hone, Nat.mod_one, hfree]
  simp only [State.bufAlloc, hk, hpick]
  rfl

/-- An O-QPSK assignment. -/
def oqpskAsn : Asn := { tile := 0, freq := 0, mode := 128, opn := 0, cls := 1, square := 0, asn := 0 }

/-- Listener 0 has found the preamble; the one buffer of class 0 has its header in a word with an uncorrectable error. -/
def sfdErrorState : State :=
  { State.reset.set (F.CTRL_ENABLE W.YARD) 1 with
    ram := { State.reset.ram with counts := [1, 0, 0, 0], ue := [0x10000040] }
    mphy := { State.reset.mphy with lis := [(0, { lis0 with st := 4, cur := some oqpskAsn })] } }

/-- `sfdErrorState` with the buffer allocated. -/
def sfdErrorTaken : State :=
  ({ sfdErrorState with free := 1, ram := { sfdErrorState.ram with pool := [(1, 0)] } }).pokeN 0x10000044 4 0

/-- The SFD takes the one buffer. -/
theorem sfdErrorState_bufAlloc : sfdErrorState.bufAlloc 127 = (some 1, sfdErrorTaken) :=
  State.bufAlloc_of_single (k := 0) (by decide) (by decide) (by decide)

/-- What the SFD of a listener leaves when it gets a buffer and a slot. -/
theorem State.lisSfd_of_alloc {s v u : State} {l units h : Nat} {rssi : Int} {a : Asn} (hst : (s.lis l).st = 4)
    (hcur : (s.lis l).cur = some a) (hears : s.hears l = true) (hu : units ≤ s.sfdWait (modeFam a.mode))
    (halloc : s.bufAlloc (psduMax a.mode) = (some h, v)) (hslot : v.resvSlot a.tile = some u) :
    s.lisSfd l units rssi = u.setLis l { s.lis l with st := 5, rssi := rssi, nf := s.lisFloor l, stamp := s.meshStamp a.mode,
                                                      incr := s.tm.incr, buf := some h, trn := s.origTrain a.tile } := by
  have hwait : ¬ s.sfdWait (modeFam a.mode) < units := Nat.not_lt.mpr hu
  simp only [State.lisSfd, hcur, hst, hears, hwait, halloc, hslot]
  rfl

/-- `sfdErrorTaken` with the slot of the frame's wagon reserved. -/
def sfdErrorSlot : State := { sfdErrorTaken with yard := { sfdErrorTaken.yard with resv := [(0, 1)] } }

/-- `sfdErrorState` after the SFD. -/
def sfdErrorAfter : State :=
  sfdErrorSlot.setLis 0 { sfdErrorState.lis 0 with st := 5, rssi := 0, nf := sfdErrorState.lisFloor 0,
                                                   stamp := sfdErrorState.meshStamp oqpskAsn.mode, incr := sfdErrorState.tm.incr,
                                                   buf := some 1, trn := sfdErrorState.origTrain oqpskAsn.tile }

theorem sfdErrorState_lisSfd : sfdErrorState.lisSfd 0 0 0 = sfdErrorAfter :=
  State.lisSfd_of_alloc (a := oqpskAsn) (by decide) (by decide) (by decide) (by decide) sfdErrorState_bufAlloc (by decide)

/-- Refutes O28: the SFD writes the header of the buffer it takes, and where that meets an uncorrectable error MEM counts it (R347). -/
theorem not_listenerFrames : ¬ Obligations.ListenerFrames := by
  unfold Obligations.ListenerFrames
  rintro ⟨-, hsfd, -⟩
  have hnext : exec (.sfdMatch 0 0 0) sfdErrorState = .next (sfdErrorAfter.lisThen 0) :=
    congrArg (fun t : State => Host.Outcome.next (t.lisThen 0)) sfdErrorState_lisSfd
  have h := (hsfd sfdErrorState 0 0 0 oqpskAsn (by decide) (by decide) (by decide) (by decide) (by decide) (by decide) (by decide)
    (by decide) (by decide) (by decide) (by decide)).of_exec hnext
  obtain ⟨-, -, -, -, -, hkeep⟩ := h
  have hue := hkeep (F.EV_RAW W.MEM E.MEM_UE) (by simp)
  exact absurd hue (by decide)

end Sys2Proof.Machine
end


section
/-!
Refutations by concrete states that meet every premise of a clause and have something in progress that the clause does not speak of.
-/

namespace Sys2Proof.Machine

/-- Path 2 of RFE_M has accepted a transmission, and MLC has the attempt it belongs to. -/
def grantAttemptState : State :=
  let s := (State.reset.set (F.RFE_COEXCFG_EN 3) 1).setPath 3 2 { State.reset.path 3 2 with txs := [{ meshPortCmd with port := 22 }] }
  s.setMlc { s.mlc with tries := [{ tile := 0, what := 0, q := none, id := 0, stamp := 0, lis := none, seq := none, own := none }] }

/-- Refutes O26: MLC counts the refusal of the carrier of an attempt, and the last clause has no place for that counter. -/
theorem not_coexistenceWires : ¬ Obligations.CoexistenceWires := by
  unfold Obligations.CoexistenceWires
  rintro ⟨-, -, -, -, -, hgrant⟩
  have h := (hgrant grantAttemptState 3 2 0 { meshPortCmd with port := 22 } (by decide) (by decide) (by decide) (by decide) (by decide)
    (by decide) (by decide)).of_exec rfl
  obtain ⟨-, -, -, -, hkeep, -⟩ := h
  exact absurd (hkeep (mkF W.MLC (0x80 + 4 * 9) 0 31 0) (by decide)) (by decide)

/-- A mesh carrier on port 20. -/
def meshCarr : Carr :=
  { id := 0, tile := 0, port := 20, freq := 0, mode := 0, power := 0, at' := 0, dur := 0, act := 0, cls := 0, psdu := [], wag := none }

/-- A carrier that its launch time has passed, and one of the same number on the air. -/
def lateTwinState : State :=
  { State.reset with tm := { State.reset.tm with tb := 51 * 2 ^ 32 }
                     mphy := { State.reset.mphy with waiting := [meshCarr], active := [meshCarr] } }

/-- Refutes O29: a carrier that does not launch is dropped by its number, wherever the number stands. -/
theorem not_windowsAndCarriers : ¬ Obligations.WindowsAndCarriers := by
  unfold Obligations.WindowsAndCarriers
  rintro ⟨-, -, -, -, -, -, -, -, hlate, -⟩
  have h := (hlate lateTwinState 0 meshCarr (by decide) (by decide) (by decide) (by decide)).of_exec rfl
  exact absurd h.2 (by decide)

end Sys2Proof.Machine
end


section
/-!
Refutations by concrete states: a counter at its limit, a frame on the air, and a frame buffer whose header lies in a bad memory word.
-/

namespace Sys2Proof.Machine

/-- A frame that wants no completion, queued at time 0. -/
def oldEntry : QEnt :=
  { out := ⟨7, 0, 0, 0, false, false, false, 0, 0⟩, miss := false, since := 0, retries := 0, rec' := none, promo := false }

/-- A second has passed, TTL is a second, and the counter of the frames expired has one step left to its limit. -/
def lastExpiryState : State :=
  { State.reset.sets [(F.MNODE_DLCFG_TTL, 1), (mkF W.MNODE 0x124 0 31 0, 2 ^ 31 - 2)] with
    mn := { State.reset.mn with q := [(0, [oldEntry])] }
    tm := { State.reset.tm with tb := 1000000000 * 2 ^ 32 } }

/-- Refutes O34: the step that takes a counter to its limit sets OVF and CNTSAT, which the clause on an expired frame does not list. -/
theorem not_nodeUpkeep : ¬ Obligations.NodeUpkeep := by
  unfold Obligations.NodeUpkeep
  rintro ⟨-, -, hexpire, -⟩
  have h := (hexpire lastExpiryState 7 0 oldEntry (by decide) (by decide) (by decide) (by decide) (by decide) (by decide) (by decide)
    (by decide)).of_exec rfl
  obtain ⟨-, -, -, hkeep⟩ := h
  exact absurd (hkeep (mkF W.MNODE 0x124 31 1 0) (by decide)) (by decide)

/-- A frame queued in MLD at time 0. -/
def oldWlanEntry : WEnt :=
  { out := ⟨7, 0, 0, 0, false, false, false, 0, 0⟩, miss := false, dl := 0, since := 0, retries := 0, sta := 0, tid := 0 }

/-- The frame has waited longer than TTL, and radio 0 is sending it. -/
def frameOnAirState : State :=
  { State.reset.set F.MLD_QCFG_TTL 1 with
    wl := { State.reset.wl with
      q := [(0, [oldWlanEntry])]
      tx := [{ id := 0, radio := 0, kind := 5, fmt := 0, users := [⟨0, 0, 0, 0, 0, [7]⟩], acked := [], stamp := 0, data := [], pow := []
               nav := 0 }] }
    tm := { State.reset.tm with tb := 1000000000 * 2 ^ 32 } }

/-- Refutes O39: a frame on the air does not expire. -/
theorem not_wlanTimeAndTwt : ¬ Obligations.WlanTimeAndTwt := by
  unfold Obligations.WlanTimeAndTwt
  rintro ⟨-, -, -, -, -, hexpire, -⟩
  have h := (hexpire frameOnAirState 7 0 oldWlanEntry (by decide) (by decide) (by decide) (by decide) (by decide) (by decide)).of_exec rfl
  exact absurd h.1 (by decide)

/-- The features of a PPDU that every radio receives. -/
def plainSig : Sig :=
  { ok := true, mcs := 0, nss := 1, dcm := false, ldpc := false, stbc := false, punc := 0, tones := 0, random := false, shared := false }

/-- Radio 0 reads the SIG of a PPDU; the one buffer of class 0 has its header in a word with an uncorrectable error. -/
def sigErrorState : State :=
  { State.reset.set (F.CTRL_ENABLE W.YARD) 1 with
    ram := { State.reset.ram with counts := [1, 0, 0, 0], ue := [0x10000040] }
    wl := { State.reset.wl with rx := [(0, { State.reset.wrx 0 with st := 3 })] } }

/-- `sigErrorState` with the format of the PPDU kept. -/
def sigErrorFmt : State := sigErrorState.setWrx 0 { sigErrorState.wrx 0 with fmt := 0, tb := true }

/-- `sigErrorFmt` with the buffer allocated. -/
def sigErrorTaken : State :=
  ({ sigErrorFmt with free := 1, ram := { sigErrorFmt.ram with pool := [(1, 0)] } }).pokeN 0x10000044 4 0

/-- The SIG takes the one buffer. -/
theorem sigErrorFmt_bufAlloc : sigErrorFmt.bufAlloc 0 = (some 1, sigErrorTaken) :=
  State.bufAlloc_of_single (k := 0) (by decide) (by decide) (by decide)

/-- `sigErrorTaken` with the slot of the frame's wagon reserved. -/
def sigErrorSlot : State := { sigErrorTaken with yard := { sigErrorTaken.yard with resv := [(8, 1)] } }

/-- `sigErrorState` after the SIG. -/
def sigErrorAfter : State :=
  sigErrorSlot.setWrx 0 { sigErrorSlot.wrx 0 with st := 4, buf := some 1, trn := sigErrorTaken.origTrain 8 }

/-- What the commit point leaves when it gets a buffer and a slot. -/
theorem State.wCommit_of_alloc {s v u : State} {r n h : Nat} (halloc : s.bufAlloc n = (some h, v)) (hslot : v.resvSlot (8 + r) = some u) :
    s.wCommit r n = u.setWrx r { u.wrx r with st := 4, buf := some h, trn := v.origTrain (8 + r) } := by
  simp only [State.wCommit, halloc, hslot]

theorem sigErrorState_wSig : sigErrorState.wSig 0 0 plainSig true true 0 0 = sigErrorAfter :=
  show sigErrorFmt.wCommit 0 0 = sigErrorAfter from
    State.wCommit_of_alloc (u := sigErrorSlot) sigErrorFmt_bufAlloc (by decide)

/-- Refutes O36: the commit point writes the header of the buffer it takes, and where that meets an uncorrectable error MEM counts it
(R347). -/
theorem not_wlanReceiver : ¬ Obligations.WlanReceiver := by
  unfold Obligations.WlanReceiver
  rintro ⟨-, -, -, -, -, -, -, -, hcommit, -⟩
  have hnext : exec (.wlanSigEnd 0 0 plainSig true true 0 0) sigErrorState = .next sigErrorAfter :=
    congrArg Host.Outcome.next sigErrorState_wSig
  have h := (hcommit sigErrorState 0 0 plainSig 0 0 (by decide) (by decide) (by decide) (by decide) (by decide) (by decide) (by decide)
    (by decide) (by decide) (by decide)).of_exec hnext
  obtain ⟨-, -, -, -, hkeep⟩ := h
  have hue := hkeep (F.EV_RAW W.MEM E.MEM_UE) (by simp)
  exact absurd hue (by decide)

end Sys2Proof.Machine
end


section
/-!
Refutations by concrete states: two copies of the node records that overlap, with all records lost but one.
-/

namespace Sys2Proof.Machine

/-- A pick whose predicate holds of the lowest candidate alone takes that candidate, whatever the free value is. -/
theorem State.pick_of_only_lowest {s : State} {p : Nat → Bool} {n lo : Nat} (hn : 0 < n) (hlo : p lo = true)
    (hrest : ∀ i, i < n → i ≠ 0 → p (lo + i) = false) : s.pick p n lo = (some lo, s.fresh.2) := by
  have hlt := Nat.mod_lt s.fresh.1 hn
  by_cases hc : s.fresh.1 % n = 0
  · simp [State.pick, hc, hlo]
  · obtain ⟨m, rfl⟩ : ∃ m, n = m + 1 := ⟨n - 1, by omega⟩
    simp [State.pick, hrest _ hlt hc, firstFrom, hlo]

/-- What ALLOC of an unknown EXT without an address of its own leaves when it gets a record and an address. -/
theorem State.mnAlloc_of_pick {s v : State} {args : List Nat} {i sh : Nat}
    (hnew : kget s.mn.idx (args.getD 0 0 + args.getD 1 0 * 2 ^ 32) = none) (hany : bitOf (args.getD 2 0) 3 = false)
    (hpick : s.pick (fun i => s.recState i == 0 && !s.mn.lost.contains i) 262144 0 = (some i, v))
    (haddr : v.nextAddr (bitsOf (args.getD 2 0) 0 3) = some sh) :
    s.mnAlloc args =
      let ext := args.getD 0 0 + args.getD 1 0 * 2 ^ 32
      let g := args.getD 2 0
      let u := v.recFresh i (v.newRec ext (bitsOf g 0 3) (bitsOf g 4 12) (bitsOf g 16 12) (bitsOf g 28 4) sh)
      let u := (u.setPfc i 0 false).setMap (bitsOf g 0 3) sh (mapWord i (bitsOf g 4 12) false true)
      let u := u.setMn { u.mn with idx := kset u.mn.idx ext i, used := u.mn.used + 1, last := kset u.mn.last (bitsOf g 0 3) sh }
      (u.mnShow i).mnDone 0 := by
  simp only [State.mnAlloc, hnew, hany, hpick, haddr, Bool.false_and, Bool.false_eq_true, if_false]

/-- The second copy of the records starts 8 octets after the first, ALLOC of EXT 0x1234 waits, and record 0 alone is not lost. -/
def overlappingCopiesState : State :=
  { State.reset.sets [(F.MNODE_TBL1HI_ADDR, 128), (F.MNODE_TBL1LO_ADDR, 8)] with
    mn := { State.reset.mn with cmd := some (1, [0x1234, 0, 0, 0]), lost := (List.range 262143).map (· + 1) } }

/-- All records but record 0 are lost. -/
theorem overlappingCopiesState_lost (i : Nat) : overlappingCopiesState.mn.lost.contains i = decide (1 ≤ i ∧ i < 262144) := by
  have hmem : i ∈ overlappingCopiesState.mn.lost ↔ 1 ≤ i ∧ i < 262144 := by
    simp only [overlappingCopiesState, List.mem_map, List.mem_range]
    constructor
    · rintro ⟨j, hj, rfl⟩; omega
    · rintro ⟨h1, h2⟩; exact ⟨i - 1, by omega, by omega⟩
  rw [List.contains_eq_mem, decide_eq_decide]
  exact hmem

/-- Record 0 is the one that ALLOC can take. -/
theorem overlappingCopiesState_pick :
    overlappingCopiesState.pick (fun i => overlappingCopiesState.recState i == 0 && !overlappingCopiesState.mn.lost.contains i) 262144 0
      = (some 0, overlappingCopiesState.fresh.2) := by
  refine State.pick_of_only_lowest (by decide) ?_ fun i hi h0 => ?_
  · have hstate : overlappingCopiesState.recState 0 = 0 := by decide
    simp only [overlappingCopiesState_lost, hstate]
    decide
  · have hin : 1 ≤ 0 + i ∧ 0 + i < 262144 := by omega
    simp only [overlappingCopiesState_lost, hin, and_self, decide_true, Bool.not_true, Bool.and_false]

/-- A Tile that has assigned no address yet assigns address 0 when that is free. -/
theorem State.nextAddr_of_first {s : State} {t : Nat} (hnone : kget s.mn.last t = none) (hfree : s.addrFree t 0 = true) :
    s.nextAddr t = some 0 := by
  simp [State.nextAddr, hnone, List.range_succ_eq_map (n := 65533), hfree]

/-- A command that is in progress runs. -/
theorem State.mnRun_of_cmd {s : State} {op : Nat} {args : List Nat} {f : State → List Nat → State} (hcmd : s.mn.cmd = some (op, args))
    (hon : s.winOn W.MNODE = true) : s.mnRun op f = f s args := by
  simp only [State.mnRun, hcmd, hon, decide_true, Bool.and_self, if_true]

/-- `overlappingCopiesState` after ALLOC. -/
def overlappingCopiesAfter : State :=
  let u := overlappingCopiesState.fresh.2
  let u := (u.recFresh 0 (u.newRec 0x1234 0 0 0 0 0)).setPfc 0 0 false
  let u := u.setMap 0 0 (mapWord 0 0 false true)
  let u := u.setMn { u.mn with idx := kset u.mn.idx 0x1234 0, used := u.mn.used + 1, last := kset u.mn.last 0 0 }
  (u.mnShow 0).mnDone 0

theorem overlappingCopiesState_mnAlloc : overlappingCopiesState.mnAlloc [0x1234, 0, 0, 0] = overlappingCopiesAfter :=
  State.mnAlloc_of_pick rfl (by decide) overlappingCopiesState_pick (State.nextAddr_of_first (by decide) (by decide))

/-- Refutes O33: where the copies overlap, the record that ALLOC returns is not the one it wrote. -/
theorem not_nodeCommands : ¬ Obligations.NodeCommands := by
  unfold Obligations.NodeCommands
  rintro ⟨-, halloc, -⟩
  have hnext : exec .alloc overlappingCopiesState = .next overlappingCopiesAfter :=
    congrArg Host.Outcome.next ((State.mnRun_of_cmd rfl (by decide)).trans overlappingCopiesState_mnAlloc)
  have h := (halloc overlappingCopiesState [0x1234, 0, 0, 0] 0 0 (by decide) rfl (by decide) (by decide) (by decide) (by decide)
    (by decide) (by rw [overlappingCopiesState_lost]; decide) (by decide) (by decide)).of_exec hnext
  obtain ⟨-, -, -, -, -, -, -, -, hlast, -⟩ := h
  exact absurd hlast (by decide +kernel)

end Sys2Proof.Machine
end


section
/-!
Refutations by concrete states: islands that have reserved more slots than the yard has free, fields that hold a value wider than
their bits, and a frame buffer whose header lies in a bad memory word.
-/

namespace Sys2Proof.Machine

/-- Islands have reserved every slot of the yard for train 5, and the yard, enabled, holds a template of zeros. -/
def reservedYardState : State :=
  { State.reset.set (F.CTRL_ENABLE W.YARD) 1 with yard := { State.reset.yard with resv := [(5, 65536)] } }

/-- Refutes O41: a software creation leaves the slots that islands have reserved, and its clause says nothing of them. -/
theorem not_wagonsMadeAndTaken : ¬ Obligations.WagonsMadeAndTaken := by
  unfold Obligations.WagonsMadeAndTaken
  rintro ⟨hcreate, -⟩
  have h := (hcreate reservedYardState ⟨0, 0⟩ 0x10000000 (by decide) (by decide) (by decide) (by decide) (by decide) (by decide)
    (by decide) (by decide) (by decide)).of_exec rfl
  exact absurd h.1 (by decide)

/-- `reservedYardState` with a wagon that engine 0 runs. -/
def reservedYardRunning : State :=
  { reservedYardState with
    yard := { reservedYardState.yard with wagons := [(0, { wagon0 with st := 4 })], engs := [(0, { eng0 with wag := some 0 })] } }

/-- A template of zeros. -/
def zeroTmpl : Tmpl :=
  { train := 0, prog := 0, ecls := 0, placewait := false, deadline := 0, decl := 0, arr := 0, ctype := 0, user := 0, cpl := [] }

/-- Refutes O42: WNEW leaves the slots that islands have reserved, and its clause says nothing of them. -/
theorem not_wagonExtensions : ¬ Obligations.WagonExtensions := by
  unfold Obligations.WagonExtensions
  rintro ⟨-, -, -, -, -, hnew, -⟩
  have h := (hnew reservedYardRunning 0 zeroTmpl 0 { wagon0 with st := 4 } (by decide) (by decide) (by decide) (by decide) (by decide)
    (by decide) (by decide) (by decide)).of_exec rfl
  exact absurd h.1 (by decide)

/-- The switch of the program banks is due, to a TARGET, which has 1 bit, that holds the value 2. -/
def wideTargetState : State :=
  { State.reset.set F.YARD_PBCTL_ARMED 1 with regs := (F.YARD_PBCTL_TARGET.key, 2) :: (State.reset.set F.YARD_PBCTL_ARMED 1).regs }

/-- Refutes O43: CUR takes the bit of TARGET that it has room for. -/
theorem not_wagonUpkeep : ¬ Obligations.WagonUpkeep := by
  unfold Obligations.WagonUpkeep
  rintro ⟨-, -, -, -, -, -, hswitch, -⟩
  have h := (hswitch wideTargetState (by decide) (by decide)).of_exec rfl
  exact absurd h.1 (by decide)

/-- A switch is armed on port 0, and EN, which has 1 bit, holds the value 2. -/
def wideEnableState : State :=
  { State.reset.set (F.SHP_TLCTL_SWPEND 0) 1 with
    regs := ((F.SHP_TLCTL_EN 0).key, 2) :: (State.reset.set (F.SHP_TLCTL_SWPEND 0) 1).regs }

/-- Refutes O48: a write of 5 to TLCTL puts EN at 1, which the clause on an armed switch does not list. -/
theorem not_turnLists : ¬ Obligations.TurnLists := by
  unfold Obligations.TurnLists
  rintro ⟨-, -, -, -, -, hbusy, -⟩
  have h := (hbusy wideEnableState ⟨0, 0⟩ 0 5 (by decide) (by decide) (by decide) (by decide) (by decide) (by decide)).of_exec rfl
  obtain ⟨-, -, hkeep, -⟩ := h
  exact absurd (hkeep (F.SHP_TLCTL_EN 0) (by decide)) (by decide)

/-- A Lead in Linking with one lane, whose SENIORITY, which has 4 bits, holds the value 17. -/
def wideSeniorityState : State :=
  { State.reset.sets [(F.CPL_STAT_ACTIVE, 1), (F.CPL_STAT_STATE, 1), (F.CPL_ROLE_ROLE, 1)] with
    regs := (F.CPL_ROLE_SENIORITY.key, 17)
      :: (State.reset.sets [(F.CPL_STAT_ACTIVE, 1), (F.CPL_STAT_STATE, 1), (F.CPL_ROLE_ROLE, 1)]).regs }

/-- Refutes O52: PSEN takes the bits of a seniority that it has room for. -/
theorem not_pairStates : ¬ Obligations.PairStates := by
  unfold Obligations.PairStates
  rintro ⟨hhello, -⟩
  have h := (hhello wideSeniorityState 16 (wideSeniorityState.get F.CPL_ROLE_PAIRID) 1 wideSeniorityState.cplLanes (by decide) (by decide)
    rfl rfl (by decide) (by decide) (by decide)).of_exec rfl
  obtain ⟨-, -, -, hpsen, -⟩ := h
  exact absurd hpsen (by decide)

/-- ACTIVE, which has 4 bits, holds the value 17. -/
def wideActiveState : State := { State.reset with regs := [(F.CPL_STAT_ACTIVE.key, 17)] }

/-- Refutes O53: ACTIVE keeps the lanes that it has bits for. -/
theorem not_bondAndMirror : ¬ Obligations.BondAndMirror := by
  unfold Obligations.BondAndMirror
  rintro ⟨-, -, -, hdrop, -⟩
  have h := (hdrop wideActiveState 0 0 0 (by decide) (by decide) (by decide) (by decide)).of_exec rfl
  exact absurd h.1 (by decide)

/-- Port 0 can receive; the one buffer of class 0 has its header in a word with an uncorrectable error. -/
def rxErrorState : State :=
  { State.reset.sets [(F.CTRL_ENABLE W.YARD, 1), (F.CTRL_ENABLE (W.EMAC 0), 1), (F.EMAC_CFG_RXEN 0, 1), (F.EMAC_LINK_UP 0, 1),
      (F.EMAC_MAXLEN_MAXLEN 0, 64)] with
    ram := { State.reset.ram with counts := [1, 0, 0, 0], ue := [0x10000040] } }

/-- `rxErrorState` with the buffer allocated. -/
def rxErrorTaken : State :=
  ({ rxErrorState with free := 1, ram := { rxErrorState.ram with pool := [(1, 0)] } }).pokeN 0x10000044 4 0

/-- The start of a frame takes the one buffer. -/
theorem rxErrorState_bufAlloc : rxErrorState.bufAlloc (rxErrorState.get (F.EMAC_MAXLEN_MAXLEN 0)) = (some 1, rxErrorTaken) :=
  State.bufAlloc_of_single (k := 0) (by decide) (by decide) (by decide)

/-- `rxErrorTaken` with the slot of the frame's wagon reserved. -/
def rxErrorSlot : State := { rxErrorTaken with yard := { rxErrorTaken.yard with resv := [(11, 1)] } }

/-- What the start of a frame leaves when it gets a buffer and a slot. -/
theorem State.ethStart_of_alloc {s v u : State} {n h : Nat} (hon : s.enabled (W.EMAC n) = true) (hrx : s.on (F.EMAC_CFG_RXEN n) = true)
    (hup : s.on (F.EMAC_LINK_UP n) = true) (hidle : (s.emacOf n).rx = none)
    (halloc : s.bufAlloc (s.get (F.EMAC_MAXLEN_MAXLEN n)) = (some h, v)) (hslot : v.resvSlot (11 + n) = some u) :
    s.ethStart n = u.setEmac n { u.emacOf n with rx := some (h, s.ethStamp n, v.origTrain (11 + n)) } := by
  simp only [State.ethStart, hon, hrx, hup, hidle, halloc, hslot]
  rfl

/-- `rxErrorState` after the start of the frame. -/
def rxErrorAfter : State :=
  rxErrorSlot.setEmac 0 { rxErrorSlot.emacOf 0 with rx := some (1, rxErrorState.ethStamp 0, rxErrorTaken.origTrain 11) }

/-- Refutes O50: the start of a frame writes the header of the buffer it takes, and where that meets an uncorrectable error MEM counts it
(R347). -/
theorem not_linksAndReception : ¬ Obligations.LinksAndReception := by
  unfold Obligations.LinksAndReception
  rintro ⟨-, -, hstart, -⟩
  have hnext : exec (.ethRxStart 0) rxErrorState = .next rxErrorAfter :=
    congrArg Host.Outcome.next (State.ethStart_of_alloc (u := rxErrorSlot) (by decide) (by decide) (by decide) (by decide)
      rxErrorState_bufAlloc (by decide))
  have h := (hstart rxErrorState 0 (by decide) (by decide) (by decide) (by decide) (by decide) (by decide) (by decide) (by decide)
    (by decide) (by decide)).of_exec hnext
  obtain ⟨-, -, -, hkeep⟩ := h
  have hue := hkeep (F.EV_RAW W.MEM E.MEM_UE) (by simp)
  exact absurd hue (by decide)

end Sys2Proof.Machine
end


section
/-!
Refutations by concrete states: a device state wider than its bits, a wagon that is released behind one that traps, and a frame buffer
whose header lies in a bad memory word.
-/

namespace Sys2Proof.Machine

/-- The device state, which has 3 bits, holds the value 16. -/
def wideDeviceState : State :=
  { State.reset with regs := [(F.PWR_STATUS_STATE.key, 16)], env := { State.reset.env with phase := .software } }

/-- Refutes O57: a write of 8 plus the state asks for state 0, which is not the one in force in `wideDeviceState`. -/
theorem not_powerStates : ¬ Obligations.PowerStates := by
  unfold Obligations.PowerStates
  rintro ⟨hsame, -⟩
  have h := (hsame wideDeviceState ⟨0, 0⟩ 24 16 0 (by decide) (by decide) (by decide) (by decide) (by decide) (by decide)).of_exec rfl
  obtain ⟨hpwr, -⟩ := h
  exact absurd hpwr (by decide)

/-- An output for ring 0 of the application cluster. -/
def ringOut : Out := ⟨1, 5, 0, 0, false, false, false, 0, 0⟩

/-- Engine 0 runs the wagon at the head of a train; the next wagon of the train is Done and has an output for ring 0. -/
def doneBehindState : State :=
  { State.reset.sets [(F.APC_RINGCFG_EN 0, 1), (F.APC_RINGBASEHI_ADDR 0, 128)] with
    yard := { State.reset.yard with
      wagons := [(0, { wagon0 with st := 4 }), (1, { wagon0 with st := 5, seq := 1, outs := [ringOut] })]
      trains := [(0, (2, 0))]
      engs := [(0, { eng0 with wag := some 0 })] } }

/-- Refutes O58: a wagon that ends may release the next of its train, and an output of that one is written to memory. -/
theorem not_faultEvents : ¬ Obligations.FaultEvents := by
  unfold Obligations.FaultEvents
  rintro ⟨-, -, -, -, -, -, -, -, -, -, -, -, hrunmax⟩
  have h := (hrunmax doneBehindState 0 0 { wagon0 with st := 4 } (by decide) (by decide) (by decide)).of_exec rfl
  obtain ⟨-, -, -, -, hmem⟩ := h
  exact absurd hmem (by decide)

/-- Refutes O59: a wagon that traps may release the next of its train, and an output of that one is written to memory. -/
theorem not_debugAccess : ¬ Obligations.DebugAccess := by
  unfold Obligations.DebugAccess
  rintro ⟨-, -, -, -, -, -, -, -, -, -, htrap, -⟩
  have h := (htrap doneBehindState 8 0 { wagon0 with st := 4 } (by decide) (by decide) (by decide) (by decide) (by decide)).of_exec rfl
  obtain ⟨-, -, hmem⟩ := h
  exact absurd hmem (by decide)

/-- The one buffer of class 0 has its header in a word with an uncorrectable error. -/
def allocErrorState : State := { State.reset with ram := { State.reset.ram with counts := [1, 0, 0, 0], ue := [0x10000040] } }

/-- `allocErrorState` with the buffer allocated. -/
def allocErrorTaken : State :=
  ({ allocErrorState with free := 1, ram := { allocErrorState.ram with pool := [(1, 0)] } }).pokeN 0x10000044 4 0

/-- The allocation takes the one buffer. -/
theorem allocErrorState_bufAlloc : allocErrorState.bufAlloc 1 = (some 1, allocErrorTaken) :=
  State.bufAlloc_of_single (k := 0) (by decide) (by decide) (by decide)

/-- `allocErrorState` after the allocation. -/
def allocErrorAfter : State := { allocErrorTaken with ram := { allocErrorTaken.ram with res := [(0, 1)] } }

theorem allocErrorState_memAllocOp : allocErrorState.memAllocOp ⟨0, 0⟩ 1 = allocErrorAfter := by
  simp only [State.memAllocOp, allocErrorState_bufAlloc]
  rfl

/-- A write of 1 to MEM_ALLOC asks for a buffer for one octet. -/
theorem allocErrorState_put : allocErrorState.put ⟨0, 0⟩ W.MEM 0x60 1 = (allocErrorState.memAllocOp ⟨0, 0⟩ 1).answer 0 := rfl

/-- Refutes O56: an allocation writes the header of the buffer it takes, and where that meets an uncorrectable error MEM counts it (R347). -/
theorem not_clusterAndMemory : ¬ Obligations.ClusterAndMemory := by
  unfold Obligations.ClusterAndMemory
  rintro ⟨-, -, -, -, -, -, -, -, -, -, -, halloc, -⟩
  have hnext : exec (.memAlloc ⟨0, 0⟩ 1) allocErrorState = .next (allocErrorAfter.answer 0) :=
    congrArg Host.Outcome.next (allocErrorState_put.trans (congrArg (State.answer · 0) allocErrorState_memAllocOp))
  have h := (halloc allocErrorState ⟨0, 0⟩ 1 (by decide) (by decide) (by decide) (by decide) (by decide)).of_exec hnext
  obtain ⟨-, -, -, hkeep⟩ := h
  have hue := hkeep (F.EV_RAW W.MEM E.MEM_UE) (by simp)
  exact absurd hue (by decide)

end Sys2Proof.Machine
end


section
/-!
A refutation by a concrete state: the path of the 2.4 GHz mesh ports told to use an aerial that it does not have.
-/

namespace Sys2Proof.Machine

/-- The first that holds lies in the range searched. -/
theorem firstFrom_lt {p : Nat → Bool} {n lo k : Nat} (h : firstFrom p n lo = some k) : k < lo + n := by
  induction n generalizing lo with
  | zero => simp [firstFrom] at h
  | succ n ih =>
    simp only [firstFrom] at h
    split at h
    · simp only [Option.some.injEq] at h; omega
    · have := ih h; omega

/-- The power check asks for no more than 100 dB. -/
theorem State.carrExcess_le (s : State) (c : Carr) : s.carrExcess c ≤ 400 := by
  simp only [State.carrExcess]
  generalize hk : firstFrom _ 400 0 = k
  cases k with
  | none => simp
  | some k => have := firstFrom_lt hk; simp only [Option.getD_some]; omega

/-- With nothing on a port there is room for a carrier. -/
theorem carrFull_nil (c : Carr) : carrFull c [] = false := by simp [carrFull, onAir]

/-- A carrier with the air time that its mode and its octets give. -/
def carrTimed (c : Carr) : Carr := { c with dur := preNs c.mode c.pre + airNs c.mode c.psdu.length }

/-- A carrier that passes every check of R141 is accepted. -/
theorem State.carrReq_fst_of_accept {s : State} {c : Carr} (hlive : s.livePort c = c) (hmphy : s.enabled W.MPHY = true)
    (hrfe : s.enabled (W.RFE 3) = true) (hport : s.retired (0x1000 + c.port) = false) (hlen : psduOk c.mode c.psdu.length = true)
    (hmode : modeOk c.mode = true) (hfam : ((modeFam c.mode == 2) != decide (22 ≤ c.port)) = false) (hnone : s.portCarr c.port = [])
    (hcheck : (s.txCheck 3 (carrPath c.port) (s.carrCmd (carrTimed c))).1 = 0) (hred : 100 ≤ s.get F.MPHY_TXCFG_MAXRED)
    (hlim : s.limCheck { id := c.id, port := c.port, lo := c.freq - s.modeBw c.mode / 2, hi := c.freq + (s.modeBw c.mode + 1) / 2,
                         frm := c.at', til := c.at' + (carrTimed c).dur, ack := c.cls == 1, cls := 0 } = 0) :
    (s.carrReq c).1 = 0 := by
  have hexc : ¬ 4 * s.get F.MPHY_TXCFG_MAXRED < s.carrExcess (carrTimed c) := by
    have := s.carrExcess_le (carrTimed c)
    omega
  simp only [carrTimed] at hcheck hexc hlim
  simp only [State.carrReq, hlive, hmphy, hrfe, hport, hlen, hmode, hfam, hnone, carrFull_nil, hcheck, hexc, State.limAdmit, hlim, Bool.not_true,
    Bool.or_self, Bool.false_eq_true, if_false, ne_eq, not_true_eq_false]

/-- A state with the number, the whitening and the power of a carrier drawn. -/
def State.meshDrawn (s : State) : State := s.carrId.2.fresh.2.fresh.2

/-- The carrier that MLC requests. -/
def State.meshCarrier (s : State) (port freq mode at' cls : Nat) (four : Bool) (psdu : List Byte) : Carr :=
  { id := s.carrId.1, tile := 0, port := port, freq := freq, mode := mode, power := -40 + (s.carrId.2.fresh.2.fresh.1 % 161 : Nat),
    at' := at', dur := preNs mode preDef + airNs mode psdu.length, act := if cls = 0 then 1 else 0, cls := cls, psdu := psdu, wag := none,
    whiten := s.carrId.2.fresh.1 % 2 == 1, fcs4 := four, pre := preDef }

/-- An answer of status 0 is passed on with that status. -/
theorem fst_of_status_zero {q : Nat × State} (h : q.1 = 0) (f : State → State) : (if q.1 = 0 then (0, f q.2) else (q.1, q.2)).1 = 0 := by
  rw [if_pos h]

/-- A request for a port that is not lent has the status that MPHY gives its carrier. -/
theorem State.meshSend_fst_of_accept {s : State} {port freq mode at' cls : Nat} {four : Bool} {psdu : List Byte} {r : Nat → Nat → Try}
    (hlent : s.lentPort port = false) (hreq : (s.meshDrawn.carrReq (s.meshCarrier port freq mode at' cls four psdu)).1 = 0) :
    (s.meshSend port freq mode at' cls four psdu r).1 = 0 := by
  have hq : (if s.lentPort port then (0, s.meshDrawn.setMlc { s.meshDrawn.mlc with
      lent := s.meshDrawn.mlc.lent ++ [s.meshCarrier port freq mode at' cls four psdu] })
      else s.meshDrawn.carrReq (s.meshCarrier port freq mode at' cls four psdu)).1 = 0 := by
    rw [hlent]
    exact hreq
  exact fst_of_status_zero hq fun u => u.setMlc { u.mlc with tries := u.mlc.tries ++ [r s.carrId.1 (s.meshDepart mode at')] }

/-- Tile 0 has a transmit square planned for the head of a queue, in a slot far ahead; DIVPREF, which has 1 bit, holds the value 2. -/
def wideAerialState : State :=
  let s := State.reset.sets [(F.CTRL_ENABLE W.MLC, 1), (F.CTRL_ENABLE W.MPHY, 1), (F.CTRL_ENABLE (W.RFE 3), 1), (F.MLC_TILE_CTL_BAND 0, 1),
    (F.MLC_TILE_CH0_CH0 0, 2450000), (F.MLC_TILE_SPACING_SPACING 0, 0), (F.MLC_TPL3_MODE 0 0, 128), (F.RFE_PATHSTAT_STATE 3 2, 2)]
  { s with
    regs := ((F.RFE_PATHCFG_DIVPREF 3 2).key, 2) :: (F.MPHY_TXCFG_MAXRED.key, 100) :: s.regs
    mem := [(0x10000041, 0x14), (0x13800003, 0x08)]
    rfe := { s.rfe with cal := [(3 * 256 * 4, 2450000 + 2 * 2 ^ 24 + 2 ^ 26)] }
    mn := { s.mn with q := [(0, [{ oldEntry with out := { oldEntry.out with handle := 1 } }])] }
    mlc := { s.mlc with plan := [(0, 1000000, 0)] }
    lim := { s.lim with
      img := some { region := 0, ports := List.replicate 25 ⟨0, 0, [(0, 10000000)]⟩, eirp := [], bw := [], removed := [], meters := []
                    lbt := [], cut := none, ed := [], lpi := none, sp := none } } }

/-- `wideAerialState` with the square taken from the plan. -/
def wideAerialTaken : State := { wideAerialState with mlc := { wideAerialState.mlc with plan := [] } }

/-- The carrier of the square is accepted, on a port 24. -/
theorem wideAerialTaken_carrReq :
    (wideAerialTaken.meshDrawn.carrReq (wideAerialTaken.meshCarrier 24 2450000 128 25000002000000 0 false [0, 0, 0, 0, 0])).1 = 0 :=
  State.carrReq_fst_of_accept rfl (by decide) (by decide) (by decide) (by decide) (by decide) (by decide) (by decide) (by decide +kernel)
    (by decide) (by decide)

/-- The frame at the head of the queue. -/
def aerialEntry : QEnt := { oldEntry with out := { oldEntry.out with handle := 1 } }

theorem wideAerialState_hopFreq :
    wideAerialState.hopFreq 0 (wideAerialState.asnOf 0 1000000) (wideAerialState.square 0).choff = 2450000 := by decide

theorem wideAerialState_meshPort : wideAerialState.meshPort 0 2450000 none = 24 := by decide

theorem wideAerialState_mode : wideAerialState.get (F.MLC_TPL3_MODE 0 (wideAerialState.square 0).tpl) = 128 := by decide

theorem wideAerialState_launch : wideAerialState.edgeNs 0 1000000
    + wideAerialState.get (F.MLC_TPL0_TXOFFSET 0 (wideAerialState.square 0).tpl) * 1000 = 25000002000000 := by decide

theorem wideAerialState_frame : wideAerialState.frame aerialEntry.out.handle = [0, 0, 0, 0, 0] := by decide

theorem modeFam_128 : (modeFam 128 != 2) = false := by decide

/-- Refutes O32: a carrier names a port below 24, and in `wideAerialState` the port of the square is 24. -/
theorem not_squaresAndFrames : ¬ Obligations.SquaresAndFrames := by
  unfold Obligations.SquaresAndFrames
  rintro ⟨htx, -⟩
  have h := htx wideAerialState 0 0 1000000 aerialEntry [] (by decide) (by decide) (by decide) (by decide) (by decide) (by decide)
    (by decide) (by decide)
  simp only [wideAerialState_hopFreq, wideAerialState_meshPort, wideAerialState_mode, wideAerialState_launch, wideAerialState_frame,
    modeFam_128] at h
  obtain ⟨t, -, -, -, hsent, -⟩ := h (State.meshSend_fst_of_accept (s := wideAerialTaken) (by decide) wideAerialTaken_carrReq)
  obtain ⟨c, -, hc⟩ := List.any_eq_true.mp hsent
  simp only [Bool.and_eq_true, beq_iff_eq] at hc
  omega

end Sys2Proof.Machine
end


section
/-!
A refutation by a concrete state: a timed frame whose launch lies in the TXOP that takes the plan.
-/

namespace Sys2Proof.Machine

/-- A plan step without users that takes 1 ms. -/
def emptyStep : WStep := { kind := 0, fmt := 0, users := [], ru := 0, air := 0, dur := 1000000 }

/-- Radio 1 may contend, a plan of one step stands, and a timed frame waits to be launched 0.5 ms ahead. -/
def timedWaitsState : State :=
  let s := State.reset.sets [(F.CTRL_ENABLE (W.WMAC 1), 1), (F.CTRL_ENABLE (W.WPHY 1), 1), (F.CTRL_ENABLE (W.RFE 1), 1),
    (F.WPHY_CHANCUR_CHAN 1, 36), (F.RFE_PATHSTAT_STATE 1 0, 4), (F.WMAC_EDCA_TXOPLIM 1 0, 0), (F.MLD_PLANCFG_BCSYNC, 0)]
  { s with
    rfe := { s.rfe with cal := [(256 * 4, 5180000 + 2 ^ 26)] }
    tm := { s.tm with tb := 1000000 * 2 ^ 32 }
    wl := { s.wl with
      plans := [(4, { at' := 0, steps := [emptyStep] })]
      timed := [(1, { oldWlanEntry with out := { oldWlanEntry.out with launch := 1500000 } })] }
    lim := { s.lim with
      img := some { region := 0, ports := List.replicate 25 ⟨0, 0, [(0, 10000000)]⟩, eirp := [], bw := [], removed := [], meters := []
                    lbt := [], cut := none, ed := [], lpi := none, sp := none } } }

/-- Refutes O40: in `timedWaitsState` the radio that takes the plan also gives the timed frame to its path. -/
theorem not_plansAndTxops : ¬ Obligations.PlansAndTxops := by
  unfold Obligations.PlansAndTxops
  rintro ⟨-, -, -, -, hwin, -⟩
  have h := (hwin timedWaitsState 1 0 ⟨[], [], [], []⟩ 0 emptyStep (by decide) (by decide) (by decide +kernel) (by decide)
    (by decide +kernel) (by decide) (by decide) (by decide) (by decide) (by decide) (by decide) (by decide +kernel)).of_exec rfl
  obtain ⟨-, -, htx, -⟩ := h
  exact absurd htx (by decide +kernel)

end Sys2Proof.Machine
end


section
/-!
Operations of a window, R67, as changes of registers: what a START that runs, and an end, write and what they leave; counters that
saturate. Rules that many statements use.
-/

namespace Sys2Proof.Machine

/-! Runs of register writes -/

theorem State.keeps_trans {s t u : State} {l : List Fld} (h : s.keeps t l) (h' : t.keeps u l) : s.keeps u l :=
  fun f hf => (h' f hf).trans (h f hf)

theorem State.keeps_mono {s t : State} {l m : List Fld} (h : s.keeps t l) (hlm : ∀ f ∈ l, f ∈ m) : s.keeps t m :=
  fun f hf => h f fun g hg => hf g (hlm g hg)

theorem State.keeps_sets {s t : State} {l : List Fld} {m : List (Fld × Nat)} (hm : ∀ e ∈ m, e.1 ∈ l) (h : s.keeps t l) :
    s.keeps (t.sets m) l :=
  fun f hf => (t.get_sets_ne m fun e he => hf e.1 (hm e he)).trans (h f hf)

/-- A counter that saturates writes its count and its overflow and may raise its event. -/
theorem State.keeps_satAdd {s t : State} {l : List Fld} {cnt ovf : Fld} {w ev n : Nat} (hcnt : cnt ∈ l) (hovf : ovf ∈ l)
    (hev : F.EV_RAW w ev ∈ l) (h : s.keeps t l) : s.keeps (t.satAdd cnt ovf w ev n) l := by
  unfold State.satAdd
  dsimp only
  split_ifs
  · exact State.keeps_set hcnt h
  · exact h
  · exact State.keeps_raise hev (State.keeps_set hovf (State.keeps_set hcnt h))

theorem State.keeps_bump {s t : State} {l : List Fld} {w off ev : Nat} (hcnt : mkF w off 0 31 0 ∈ l) (hovf : mkF w off 31 1 0 ∈ l)
    (hev : F.EV_RAW w ev ∈ l) (h : s.keeps t l) : s.keeps (t.bump w off ev) l :=
  State.keeps_satAdd hcnt hovf hev h

theorem State.raiseIf_regsOnly (s : State) (c : Bool) (w b : Nat) : s.RegsOnly (s.raiseIf c w b) := by
  unfold State.raiseIf
  split
  · exact s.raise_regsOnly w b
  · exact .refl s

theorem State.satAdd_regsOnly (s : State) (cnt ovf : Fld) (w ev n : Nat) : s.RegsOnly (s.satAdd cnt ovf w ev n) := by
  unfold State.satAdd
  dsimp only
  split_ifs
  · exact s.set_regsOnly _ _
  · exact .refl s
  · exact ((s.set_regsOnly _ _).trans (State.set_regsOnly _ _ _)).trans (State.raise_regsOnly _ _ _)

theorem State.bump_regsOnly (s : State) (w off ev : Nat) : s.RegsOnly (s.bump w off ev) := s.satAdd_regsOnly _ _ _ _ _

theorem State.RegsOnly.mn {s t : State} (h : s.RegsOnly t) : t.mn = s.mn := by obtain ⟨_, _, rfl⟩ := h; rfl
theorem State.RegsOnly.wl {s t : State} (h : s.RegsOnly t) : t.wl = s.wl := by obtain ⟨_, _, rfl⟩ := h; rfl
theorem State.RegsOnly.yard {s t : State} (h : s.RegsOnly t) : t.yard = s.yard := by obtain ⟨_, _, rfl⟩ := h; rfl
theorem State.RegsOnly.rte {s t : State} (h : s.RegsOnly t) : t.rte = s.rte := by obtain ⟨_, _, rfl⟩ := h; rfl
theorem State.RegsOnly.keys {s t : State} (h : s.RegsOnly t) : t.keys = s.keys := by obtain ⟨_, _, rfl⟩ := h; rfl
theorem State.RegsOnly.lim {s t : State} (h : s.RegsOnly t) : t.lim = s.lim := by obtain ⟨_, _, rfl⟩ := h; rfl
theorem State.RegsOnly.ram {s t : State} (h : s.RegsOnly t) : t.ram = s.ram := by obtain ⟨_, _, rfl⟩ := h; rfl
theorem State.RegsOnly.emac {s t : State} (h : s.RegsOnly t) : t.emac = s.emac := by obtain ⟨_, _, rfl⟩ := h; rfl
theorem State.RegsOnly.shp {s t : State} (h : s.RegsOnly t) : t.shp = s.shp := by obtain ⟨_, _, rfl⟩ := h; rfl
theorem State.RegsOnly.tm {s t : State} (h : s.RegsOnly t) : t.tm = s.tm := by obtain ⟨_, _, rfl⟩ := h; rfl
theorem State.RegsOnly.dbg {s t : State} (h : s.RegsOnly t) : t.dbg = s.dbg := by obtain ⟨_, _, rfl⟩ := h; rfl
theorem State.RegsOnly.doms {s t : State} (h : s.RegsOnly t) : t.doms = s.doms := by obtain ⟨_, _, rfl⟩ := h; rfl
theorem State.RegsOnly.pair {s t : State} (h : s.RegsOnly t) : t.pair = s.pair := by obtain ⟨_, _, rfl⟩ := h; rfl
theorem State.RegsOnly.rfe {s t : State} (h : s.RegsOnly t) : t.rfe = s.rfe := by obtain ⟨_, _, rfl⟩ := h; rfl

/-! Operations -/

/-- The registers of an operation that a START has begun. -/
def State.opBegun (s : State) (w : Nat) : State := ((s.opUnits w 0 0).set (F.OPSTAT_CAUSE w) 0).set (F.OPSTAT_STATE w) 2

/-- A START with good parameters in a window that is on and not busy runs. -/
theorem State.opStart_of_valid {s : State} (rq : Rq) {w : Nat} (hon : s.winOn w = true) (hidle : s.busy w = false) :
    s.opStart rq w true true = s.opBegun w := by
  simp [State.opStart, State.opBegun, hon, hidle]

/-- A START with bad parameters in a window that is on and not busy fails with cause 3. -/
theorem State.opStart_of_invalid {s : State} (rq : Rq) {w : Nat} (isFree : Bool) (hon : s.winOn w = true) (hidle : s.busy w = false) :
    s.opStart rq w false isFree = s.opFail w 3 := by
  simp [State.opStart, hon, hidle]

/-- The registers that a START changes. -/
def opRegs (w : Nat) : List Fld := [F.OPSTAT_STATE w, F.OPSTAT_CAUSE w, F.OPSTAT_PROGRESS w, F.OPPART w]

theorem State.opBegun_regsOnly (s : State) (w : Nat) : s.RegsOnly (s.opBegun w) :=
  (((s.set_regsOnly _ _).trans (State.set_regsOnly _ _ _)).trans (State.set_regsOnly _ _ _)).trans (State.set_regsOnly _ _ _)

theorem State.keeps_opBegun (s : State) (w : Nat) : s.keeps (s.opBegun w) (opRegs w) :=
  State.keeps_set (by simp [opRegs]) <| State.keeps_set (by simp [opRegs]) <| State.keeps_set (by simp [opRegs]) <| State.keeps_set (by simp [opRegs])
    (s.keeps_refl _)

@[simp] theorem State.opBegun_opSt (s : State) (w : Nat) : (s.opBegun w).opSt w = 2 := State.get_set_same _ _ _

@[simp] theorem State.opBegun_cause (s : State) (w : Nat) : (s.opBegun w).get (F.OPSTAT_CAUSE w) = 0 := by
  rw [State.opBegun, State.get_set_ne _ _ (by simp [F.OPSTAT_CAUSE, F.OPSTAT_STATE, mkF]), State.get_set_same]
  rfl

@[simp] theorem State.opBegun_part (s : State) (w : Nat) : (s.opBegun w).get (F.OPPART w) = 0 := by
  rw [State.opBegun, State.get_set_ne _ _ (by simp [F.OPPART, F.OPSTAT_STATE, mkF]),
    State.get_set_ne _ _ (by simp [F.OPPART, F.OPSTAT_CAUSE, mkF]; omega), State.opUnits, State.get_set_same]
  rfl

@[simp] theorem State.opBegun_progress (s : State) (w : Nat) : (s.opBegun w).get (F.OPSTAT_PROGRESS w) = 0 := by
  rw [State.opBegun, State.get_set_ne _ _ (by simp [F.OPSTAT_PROGRESS, F.OPSTAT_STATE, mkF]),
    State.get_set_ne _ _ (by simp [F.OPSTAT_PROGRESS, F.OPSTAT_CAUSE, mkF]), State.opUnits,
    State.get_set_ne _ _ (by simp [F.OPSTAT_PROGRESS, F.OPPART, mkF]; omega), State.get_set_same]
  rfl

/-- The event of an operation's end is another register than OPSTAT. -/
theorem opstat_key_ne_event (w b lo : Nat) (hb : b < 32) : (w * 65536 + 0x24) * 32 + lo ≠ (w * 65536 + 0x10) * 32 + b := by omega

theorem State.opFinish_opSt (s : State) (w cause : Nat) {st : Nat} (hst : st < 16) : (s.opFinish w st cause).opSt w = st := by
  rw [State.opSt, State.opFinish, State.get_raise_ne _ _ _ (opstat_key_ne_event w 31 0 (by decide)),
    State.get_set_ne _ _ (by simp [F.OPSTAT_CAUSE, F.OPSTAT_STATE, mkF]), State.get_set_same]
  exact Nat.mod_eq_of_lt hst

theorem State.opFinish_cause (s : State) (w st : Nat) {cause : Nat} (hc : cause < 16) :
    (s.opFinish w st cause).get (F.OPSTAT_CAUSE w) = cause := by
  rw [State.opFinish, State.get_raise_ne _ _ _ (opstat_key_ne_event w 31 4 (by decide)), State.get_set_same]
  exact Nat.mod_eq_of_lt hc

@[simp] theorem State.opFinish_ev (s : State) (w st cause : Nat) : (s.opFinish w st cause).ev w 31 = true := State.ev_raise _ _ _

theorem State.keeps_opFinish {s t : State} {l : List Fld} {w st cause : Nat} (hst : F.OPSTAT_STATE w ∈ l) (hc : F.OPSTAT_CAUSE w ∈ l)
    (hev : F.EV_RAW w 31 ∈ l) (h : s.keeps t l) : s.keeps (t.opFinish w st cause) l :=
  State.keeps_raise hev <| State.keeps_set hc <| State.keeps_set hst h

end Sys2Proof.Machine
end


section
/-!
START of a rebuild, R191.
-/

namespace Sys2Proof.Machine

theorem inDram_iff {a : Nat} : inDram a = true ↔ 0x8000000000 ≤ a ∧ a < 0x8400000000 := by
  simp [inDram]

/-- A range of DRAM ends in DRAM. -/
theorem inDram_end {a n : Nat} (ha : inDram a = true) (hn : 0 < n) (hend : a + n ≤ 0x8400000000) : inDram (a + n - 1) = true := by
  obtain ⟨hlo, -⟩ := inDram_iff.mp ha
  have hge : 0x8000000000 ≤ a + n - 1 := by omega
  have hlt : a + n - 1 < 0x8400000000 := by omega
  exact inDram_iff.mpr ⟨hge, hlt⟩

/-- START of a rebuild of mode 0 or 1 runs. -/
theorem State.rebStart_of_copy {s : State} (rq : Rq) {m : Nat} (hon : s.winOn W.MNODE = true) (hidle : s.busy W.MNODE = false)
    (hmode : s.get F.MNODE_REBCFG_MODE = m) (hm : m < 2) : s.rebStart rq m = s.opBegun W.MNODE := by
  have hm2 : m ≠ 2 := by omega
  simp only [State.rebStart, hmode, hm, hm2, decide_true, decide_false, Bool.true_or, Bool.and_false, State.opStart_of_valid rq hon hidle,
    ne_eq, not_true_eq_false, if_false, Bool.false_eq_true]

/-- A window that is not busy has no operation running. -/
theorem State.opSt_ne_two {s : State} {w : Nat} (hidle : s.busy w = false) : s.opSt w ≠ 2 := by
  simp only [State.busy, Bool.or_eq_false_iff, beq_eq_false_iff_ne] at hidle
  exact hidle.2

/-- START of a rebuild of mode 2 whose image is not aligned fails with cause 3. -/
theorem State.rebStart_of_bad_image {s : State} (rq : Rq) (hon : s.winOn W.MNODE = true) (hidle : s.busy W.MNODE = false)
    (hmode : s.get F.MNODE_REBCFG_MODE = 2) (hal : s.rebSrc % 64 ≠ 0) : s.rebStart rq 2 = s.opFail W.MNODE 3 := by
  have hok : (decide (2 < 2) || (s.rebSrc % 64 == 0 && inDram s.rebSrc && inDram (s.rebSrc + 64 * 262144 - 1))) = false := by
    simp only [beq_false_of_ne hal, Bool.false_and, Bool.or_false]
    rfl
  have hst : (s.opFail W.MNODE 3).opSt W.MNODE = 4 := State.opFinish_opSt _ _ _ (by decide)
  simp only [State.rebStart, hmode, hok, State.opStart_of_invalid rq true hon hidle, hst]
  rfl

/-- START of a rebuild of mode 2 with a good image goes by the Tiles and, where none is enabled, ends the frames of the queues. -/
theorem State.rebStart_of_image {s : State} (rq : Rq) (hon : s.winOn W.MNODE = true) (hidle : s.busy W.MNODE = false)
    (hmode : s.get F.MNODE_REBCFG_MODE = 2) (hal : s.rebSrc % 64 = 0) (hdram : inDram s.rebSrc = true)
    (hend : s.rebSrc + 64 * 262144 ≤ 0x8400000000) :
    s.rebStart rq 2 = if (List.range 8).any fun i => s.on (F.MLC_TILE_CTL_EN i) then (s.opBegun W.MNODE).opFail W.MNODE 9
      else ((s.mn.q.flatMap fun e => e.2) ++ s.mn.sq.flatMap fun e => e.2).foldl (fun t e => t.qEnd e.out.handle 8 none)
        (s.opBegun W.MNODE) := by
  have hok : (decide (2 < 2) || (s.rebSrc % 64 == 0 && inDram s.rebSrc && inDram (s.rebSrc + 64 * 262144 - 1))) = true := by
    rw [hal, hdram, inDram_end hdram (by decide) hend]
    rfl
  simp only [State.rebStart, hmode, hok, State.opStart_of_valid rq hon hidle, (s.opBegun_regsOnly W.MNODE).mn, State.opBegun_opSt,
    bne_iff_ne.mpr (State.opSt_ne_two hidle)]
  rfl

/-- Settles O35: a copy runs; a restore runs, or fails with cause 9 while a Tile is enabled and with cause 3 when its image is not aligned. -/
theorem nodeRebuilds : Obligations.NodeRebuilds := by
  unfold Obligations.NodeRebuilds
  refine ⟨fun s rq hon hidle hmode => ⟨_, rfl, ?_⟩, fun s rq hon hidle hmode => ⟨_, rfl, ?_⟩,
    fun s rq hon hidle hmode hal hdram hend hen hq hsq => ⟨_, rfl, ?_⟩, fun s rq n hon hidle hmode hal hdram hend hn hen => ⟨_, rfl, ?_⟩,
    fun s rq hon hidle hmode hal => ⟨_, rfl, ?_⟩⟩
  · rw [s.rebStart_of_copy rq hon hidle hmode (by decide)]
    exact ⟨by simp, by simp, by simp, (s.opBegun_regsOnly _).mn, s.keeps_opBegun _, (s.opBegun_regsOnly _).mem⟩
  · rw [s.rebStart_of_copy rq hon hidle hmode (by decide)]
    exact ⟨by simp, by simp, by simp, (s.opBegun_regsOnly _).mn, s.keeps_opBegun _, (s.opBegun_regsOnly _).mem⟩
  · rw [s.rebStart_of_image rq hon hidle hmode hal hdram hend, if_neg (by simpa using hen), hq, hsq]
    exact ⟨by simp, by simp, by simp, (s.opBegun_regsOnly _).mn, s.keeps_opBegun _, (s.opBegun_regsOnly _).mem⟩
  · have hany : ((List.range 8).any fun i => s.on (F.MLC_TILE_CTL_EN i)) = true := List.any_eq_true.mpr ⟨n, List.mem_range.mpr hn, hen⟩
    rw [s.rebStart_of_image rq hon hidle hmode hal hdram hend, if_pos hany]
    exact ⟨State.opFinish_opSt _ _ _ (by decide), State.opFinish_cause _ _ _ (by decide),
      ((s.opBegun_regsOnly _).trans (State.opFinish_regsOnly _ _ _ _)).mn, State.opFinish_ev _ _ _ _,
      State.keeps_opFinish (by simp) (by simp) (by simp) (State.keeps_mono (s.keeps_opBegun _) (by simp [opRegs])),
      ((s.opBegun_regsOnly _).trans (State.opFinish_regsOnly _ _ _ _)).mem⟩
  · rw [s.rebStart_of_bad_image rq hon hidle hmode hal]
    exact ⟨State.opFinish_opSt _ _ _ (by decide), State.opFinish_cause _ _ _ (by decide),
      State.keeps_opFinish (by simp) (by simp) (by simp) (s.keeps_refl _), (s.opFinish_regsOnly _ _ _).mem⟩

end Sys2Proof.Machine
end


section
/-!
Memory without uncorrectable words, R347: octets written read back, the others stay.
-/

namespace Sys2Proof.Machine

@[simp] theorem length_toLE (n v : Nat) : (toLE n v).length = n := by
  induction n generalizing v with
  | zero => rfl
  | succ n ih => simp [toLE, ih]

/-- The octets of a number give it back modulo what they can hold. -/
theorem ofLE_toLE (n v : Nat) : ofLE (toLE n v) = v % 256 ^ n := by
  induction n generalizing v with
  | zero => simp [toLE, ofLE, Nat.mod_one]
  | succ n ih =>
    simp only [toLE, ofLE, ih, BitVec.toNat_ofNat]
    rw [show 2 ^ 8 = 256 from rfl, pow_succ', ← Nat.mod_mul]

theorem ofLE_toLE_word {v : Nat} (h : v < 2 ^ 32) : ofLE (toLE 4 v) = v := by
  rw [ofLE_toLE, show 256 ^ 4 = 2 ^ 32 from rfl, Nat.mod_eq_of_lt h]

@[simp] theorem length_peeks (s : State) (a n : Nat) : (s.peeks a n).length = n := by simp [State.peeks]

/-- The state with octets written to one place of memory. -/
def State.withOctets (s : State) (a : Nat) (l : List Byte) : State := { s with mem := memPuts s.mem a l }

theorem State.ueIn_nil {s : State} (hue : s.ram.ue = []) (a n : Nat) : s.ueIn a n = false := by
  simp [State.ueIn, hue]

theorem State.pokeOne_of_good {s : State} (hue : s.ram.ue = []) (a : Nat) (l : List Byte) : s.pokeOne a l = s.withOctets a l := by
  simp [State.pokeOne, State.ueIn_nil hue, State.withOctets]

/-- Mirror windows lie in DRAM, R348. -/
theorem State.mirrorOf_of_lt (s : State) {a : Nat} (ha : a < 0x8000000000) : s.mirrorOf a = none := by
  simp only [State.mirrorOf, List.find?_eq_none, Bool.and_eq_true, decide_eq_true_eq, not_and]
  intro w _ _ hge
  omega

/-- A write below DRAM goes to one place. -/
theorem State.poke_of_good {s : State} (hue : s.ram.ue = []) {a : Nat} (ha : a < 0x8000000000) (l : List Byte) :
    s.poke a l = s.withOctets a l := by
  rw [State.poke, s.mirrorOf_of_lt ha]
  exact s.pokeOne_of_good hue a l

theorem State.peek_withOctets_in (s : State) (a : Nat) {l : List Byte} {i : Nat} (h : i < l.length) :
    (s.withOctets a l).peek (a + i) = l.getD i 0 := memGet_memPuts_in l s.mem h

theorem State.peek_withOctets_out (s : State) {a c : Nat} {l : List Byte} (h : c < a ∨ a + l.length ≤ c) :
    (s.withOctets a l).peek c = s.peek c := memGet_memPuts_out l s.mem h

/-- Octets written read back as a list. -/
theorem State.peeks_withOctets (s : State) (a : Nat) {l : List Byte} {i n : Nat} (h : i + n ≤ l.length) :
    (s.withOctets a l).peeks (a + i) n = (l.drop i).take n := by
  refine List.ext_getElem (by simp; omega) fun j hj hj' => ?_
  have hlt : i + j < l.length := by simp at hj; omega
  simp only [State.peeks, List.getElem_map, List.getElem_range, Nat.add_assoc, s.peek_withOctets_in a hlt, List.getElem_take,
    List.getElem_drop]
  simp [hlt]

theorem State.memBut_withOctets (s : State) (a : Nat) (l : List Byte) : s.memBut (s.withOctets a l) [(a, l.length)] :=
  fun c hc => s.peek_withOctets_out (hc (a, l.length) (by simp))

theorem kget_kmod {α : Type} (m : List (Nat × α)) (k : Nat) (f : α → α) : kget (kmod m k f) k = (kget m k).map f := by
  induction m with
  | nil => rfl
  | cons e t ih =>
    obtain ⟨j, a⟩ := e
    simp only [kmod, List.map_cons, kget] at ih ⊢
    by_cases h : j = k <;> simp [h, ih]

end Sys2Proof.Machine
end

section
/-!
The operations of NVS and SEC, and LIM's meters and snapshot rows: R321, R324, R328, R334, R335.
-/

namespace Sys2Proof.Machine

/-- START of NVS with good parameters whose target may be written runs. -/
theorem State.nvsStart_of_valid {s : State} (rq : Rq) (hon : s.winOn W.NVS = true) (hidle : s.busy W.NVS = false)
    (hvalid : s.nvsValid = true)
    (hbar : s.get F.NVS_OPSEL_OP = 0 → s.nvsBarred (s.get F.NVS_DST_OFS) (64 * s.get F.NVS_ROWS_ROWS) = false) :
    s.nvsStart rq = s.opBegun W.NVS := by
  have hno : (decide (s.get F.NVS_OPSEL_OP = 0) && s.nvsBarred (s.get F.NVS_DST_OFS) (64 * s.get F.NVS_ROWS_ROWS)) = false := by
    by_cases h : s.get F.NVS_OPSEL_OP = 0
    · rw [hbar h, Bool.and_false]
    · simp [h]
  rw [State.nvsStart, hvalid]
  rw [State.opStart_of_valid (w := 0x04) rq hon hidle, Bool.and_assoc, hno, Bool.and_false]
  rfl

/-- START of NVS with bad parameters fails with cause 3. -/
theorem State.nvsStart_of_invalid {s : State} (rq : Rq) (hon : s.winOn W.NVS = true) (hidle : s.busy W.NVS = false)
    (hvalid : s.nvsValid = false) : s.nvsStart rq = s.opFail W.NVS 3 := by
  have hst : (s.opFail 0x04 3).opSt 0x04 = 4 := State.opFinish_opSt _ _ _ (by decide)
  rw [State.nvsStart, hvalid]
  rw [State.opStart_of_invalid (w := 0x04) rq true hon hidle, hst]
  rfl

/-- START of a program of a target that NVS may not write fails with cause 8. -/
theorem State.nvsStart_of_barred {s : State} (rq : Rq) (hon : s.winOn W.NVS = true) (hidle : s.busy W.NVS = false)
    (hop : s.get F.NVS_OPSEL_OP = 0) (hvalid : s.nvsValid = true)
    (hbar : s.nvsBarred (s.get F.NVS_DST_OFS) (64 * s.get F.NVS_ROWS_ROWS) = true) :
    s.nvsStart rq = (s.opBegun W.NVS).opFail W.NVS 8 := by
  rw [State.nvsStart, hvalid]
  rw [State.opStart_of_valid (w := 0x04) rq hon hidle, State.opBegun_opSt, bne_iff_ne.mpr (State.opSt_ne_two (w := 0x04) hidle), hop, hbar]
  rfl

/-- A range whose first and last octet lie in DRAM lies in memory. -/
theorem inMem_of_last {a n : Nat} (ha : inDram a = true) (hend : inDram (a + n) = true) : inMem a (n + 1) = true := by
  simp [inMem, ha, hend]

/-- A program with its source in DRAM and its rows in the store is in range. -/
theorem State.nvsValid_of_program {s : State} (hop : s.get F.NVS_OPSEL_OP = 0) (hal : s.nvsSrc % 64 = 0) (hsrc : inDram s.nvsSrc = true)
    (hend : inDram (s.nvsSrc + 64 * s.get F.NVS_ROWS_ROWS - 1) = true) (hrows : 0 < s.get F.NVS_ROWS_ROWS)
    (hdst : s.get F.NVS_DST_OFS % 64 = 0) (hlen : s.get F.NVS_DST_OFS + 64 * s.get F.NVS_ROWS_ROWS ≤ 0x2000000) : s.nvsValid = true := by
  simp only [State.nvsValid, hop, hal, inMem, hsrc, hend, hrows, hdst, hlen, Bool.and_self, Bool.or_true, decide_true, beq_self_eq_true]

/-- The words of a row as octets. -/
def State.snapBody (s : State) (seq kind : Nat) : List Byte := (s.snapWords seq kind).flatMap fun w => toLE 4 w

/-- A row that LIM writes: its 15 words and their CRC. -/
def State.snapOctets (s : State) (seq kind : Nat) : List Byte := s.snapBody seq kind ++ toLE 4 (crc32 (s.snapBody seq kind))

@[simp] theorem State.length_snapBody (s : State) (seq kind : Nat) : (s.snapBody seq kind).length = 60 := by
  simp [State.snapBody, State.snapWords, List.length_flatMap, Function.comp_def]

@[simp] theorem State.length_snapOctets (s : State) (seq kind : Nat) : (s.snapOctets seq kind).length = 64 := by
  simp [State.snapOctets]

theorem State.snapOctets_seq (s : State) (seq kind : Nat) : ((s.snapOctets seq kind).drop 0).take 4 = toLE 4 seq := by
  simp [State.snapOctets, State.snapBody, State.snapWords]

theorem State.snapOctets_kind (s : State) (seq kind : Nat) :
    ((s.snapOctets seq kind).drop 4).take 4 = toLE 4 (kind + s.lim.ver % 65536 * 65536) := by
  simp [State.snapOctets, State.snapBody, State.snapWords]

theorem State.snapOctets_body (s : State) (seq kind : Nat) : ((s.snapOctets seq kind).drop 0).take 60 = s.snapBody seq kind := by
  simp [State.snapOctets]

theorem State.snapOctets_crc (s : State) (seq kind : Nat) :
    ((s.snapOctets seq kind).drop 60).take 4 = toLE 4 (crc32 (s.snapBody seq kind)) := by
  simp [State.snapOctets]

/-- A snapshot that is written. -/
theorem State.limSnap_of_written {s : State} (hue : s.ram.ue = []) (hrow : s.lim.row < 4) (kind : Nat) :
    s.limSnap kind true = { s.withOctets (snapRow s.lim.row) (s.snapOctets ((s.lim.seq + 1) % 2 ^ 32) kind) with
      lim := { s.lim with seq := (s.lim.seq + 1) % 2 ^ 32, row := (s.lim.row + 1) % 4 } } := by
  have hlt : snapRow s.lim.row < 0x8000000000 := by
    simp only [snapRow]
    omega
  have hpoke := State.poke_of_good hue hlt (s.snapOctets ((s.lim.seq + 1) % 2 ^ 32) kind)
  simp only [State.snapOctets, State.snapBody] at hpoke ⊢
  simp only [State.limSnap, hpoke]
  rfl

theorem crcSteps_lt (n : Nat) {r : Nat} (h : r < 2 ^ 32) : crcSteps n r < 2 ^ 32 := by
  induction n generalizing r with
  | zero => exact h
  | succ n ih =>
    have hhalf : r / 2 < 2 ^ 32 := by omega
    refine ih ?_
    split
    · exact Nat.xor_lt_two_pow hhalf (by decide)
    · exact hhalf

/-- A CRC-32 is a word. -/
theorem crc32_lt (l : List Byte) : crc32 l < 2 ^ 32 :=
  Nat.xor_lt_two_pow
    (List.foldlRecOn (motive := fun r => r < 2 ^ 32) l _ (by decide) fun _ hr b _ =>
      crcSteps_lt 8 (Nat.xor_lt_two_pow hr (by have := b.isLt; omega)))
    (by decide)

/-- Settles O54: the STARTs run or fail as R67 says, a meter drops its old buckets, and a row is written as R335 lays it out. -/
theorem storeAndLimiter : Obligations.StoreAndLimiter := by
  unfold Obligations.StoreAndLimiter
  refine ⟨fun s rq hon hidle hop hbar hal hsrc hend hrows hdst hlen => ⟨_, rfl, ?_⟩, fun s rq hon hidle hop hrows => ⟨_, rfl, ?_⟩,
    fun s rq hon hidle hop hlo hhi hal hsrc hend hrows hdst hlen => ⟨_, rfl, ?_⟩, fun s rq hon hidle hop hslot => ⟨_, rfl, ?_⟩,
    fun s rq hon hidle hop hslot => ⟨_, rfl, ?_⟩, fun s rq hon hidle hal hsrc hend => ⟨_, rfl, ?_⟩,
    fun s n g x l himg hx hl => ⟨_, rfl, ?_⟩, fun s hlive => ⟨_, rfl, ?_⟩, fun s hlive hue hrow => ⟨_, rfl, ?_⟩⟩
  · rw [if_pos hop, State.nvsStart_of_valid rq hon hidle (State.nvsValid_of_program hop hal hsrc hend hrows hdst hlen) fun _ => hbar]
    exact ⟨by simp, by simp, by simp, by simp, s.keeps_opBegun _, (s.opBegun_regsOnly _).mem⟩
  · rw [if_pos hop, State.nvsStart_of_invalid rq hon hidle (by simp [State.nvsValid, hop, hrows])]
    exact ⟨State.opFinish_opSt _ _ _ (by decide), State.opFinish_cause _ _ _ (by decide), State.opFinish_ev _ _ _ _,
      State.keeps_opFinish (by simp) (by simp) (by simp) (s.keeps_refl _), (s.opFinish_regsOnly _ _ _).mem⟩
  · have hbar : s.nvsBarred (s.get F.NVS_DST_OFS) (64 * s.get F.NVS_ROWS_ROWS) = true := by
      have : rangesMeet (s.get F.NVS_DST_OFS) (64 * s.get F.NVS_ROWS_ROWS) 0x20000 0x50000 = true := by
        simp [rangesMeet]
        omega
      simp [State.nvsBarred, this]
    rw [if_pos hop, State.nvsStart_of_barred rq hon hidle hop (State.nvsValid_of_program hop hal hsrc hend hrows hdst hlen) hbar]
    exact ⟨State.opFinish_opSt _ _ _ (by decide), State.opFinish_cause _ _ _ (by decide), State.opFinish_ev _ _ _ _,
      State.keeps_opFinish (by simp) (by simp) (by simp) (State.keeps_mono (s.keeps_opBegun _) (by simp [opRegs])),
      ((s.opBegun_regsOnly _).trans (State.opFinish_regsOnly _ _ _ _)).mem⟩
  · have hvalid : s.nvsValid = true := by simp [State.nvsValid, hop, hslot]
    rw [if_pos hop, State.nvsStart_of_valid rq hon hidle hvalid fun h => absurd (hop.symm.trans h) (by decide)]
    exact ⟨by simp, by simp, by simp, by simp, s.keeps_opBegun _, (s.opBegun_regsOnly _).mem⟩
  · rw [if_pos hop, State.nvsStart_of_invalid rq hon hidle (by simp [State.nvsValid, hop, hslot])]
    exact ⟨State.opFinish_opSt _ _ _ (by decide), State.opFinish_cause _ _ _ (by decide), State.opFinish_ev _ _ _ _,
      State.keeps_opFinish (by simp) (by simp) (by simp) (s.keeps_refl _), (s.opFinish_regsOnly _ _ _).mem⟩
  · have hvalid : (s.enrSrc % 64 == 0 && inMem s.enrSrc 256) = true := by
      simp [hal, inMem_of_last hsrc hend]
    rw [State.enrStart, hvalid, State.opStart_of_valid rq hon hidle]
    exact ⟨by simp, by simp, by simp, by simp, (s.opBegun_regsOnly _).keys, s.keeps_opBegun _, (s.opBegun_regsOnly _).mem⟩
  · have hage : kget (s.meterAge n).lim.buckets n = some (l.filter fun e => s.ns < e.1 + x.window * 1000000000) := by
      simp [State.meterAge, himg, hx, kget_kmod, hl]
    have hframe : s.keeps (s.meterAge n) [] ∧ (s.meterAge n).mem = s.mem := by
      simp only [State.meterAge, himg, hx, and_true]
      exact fun _ _ => rfl
    exact ⟨hage, by rw [State.meterUse, hage]; rfl, hframe⟩
  · rw [if_pos hlive]
    have hr : s.RegsOnly (s.limSnap (if s.env.path = .bridging then 1 else 0) false) :=
      (s.bump_regsOnly _ _ _).trans (State.raise_regsOnly _ _ _)
    exact ⟨hr.lim, State.ev_raise _ _ _,
      State.keeps_raise (by decide) (State.keeps_bump (by decide) (by decide) (by decide) (s.keeps_refl _)), hr.mem⟩
  · rw [if_pos hlive, s.limSnap_of_written hue hrow]
    generalize hk : (if s.env.path = .bridging then 1 else 0) = kind
    have hkind : kind ≤ 1 := by
      rw [← hk]
      split <;> decide
    generalize hseq : (s.lim.seq + 1) % 2 ^ 32 = seq
    have hlt : seq < 2 ^ 32 := hseq ▸ Nat.mod_lt _ (by decide)
    have hpeeks (i n : Nat) (h : i + n ≤ 64) := s.peeks_withOctets (snapRow s.lim.row) (l := s.snapOctets seq kind) (by simpa using h)
    refine ⟨rfl, rfl, ?_, ?_, ?_, fun _ _ => rfl, ?_⟩
    · exact (congrArg ofLE (hpeeks 0 4 (by decide))).trans ((congrArg ofLE (s.snapOctets_seq seq kind)).trans (ofLE_toLE_word hlt))
    · exact (congrArg ofLE (hpeeks 4 4 (by decide))).trans ((congrArg ofLE (s.snapOctets_kind seq kind)).trans (ofLE_toLE_word (by omega)))
    · have hbody := (hpeeks 0 60 (by decide)).trans (s.snapOctets_body seq kind)
      have hcrc := (congrArg ofLE (hpeeks 60 4 (by decide))).trans
        ((congrArg ofLE (s.snapOctets_crc seq kind)).trans (ofLE_toLE_word (crc32_lt _)))
      exact hcrc.trans (congrArg crc32 hbody.symm)
    · have := s.memBut_withOctets (snapRow s.lim.row) (s.snapOctets seq kind)
      rw [State.length_snapOctets] at this
      exact this

end Sys2Proof.Machine
end


section
/-!
The station commands of MLD, R216.
-/

namespace Sys2Proof.Machine

/-- The registers that the end of a station command changes. -/
def staRegs : List Fld := [F.MLD_STACMD_CBUSY, F.MLD_STACMD_RESULT, F.MLD_STACMD_INDEX, F.EV_RAW W.MLD E.MLD_CMDDONE]

/-- A station command in progress runs while MLD's domain is on. -/
theorem State.staRun_of_cmd {s : State} {op : Nat} {l : List Nat} (f : State → List Nat → State) (hon : s.winOn W.MLD = true)
    (hcmd : s.wl.cmd = some (op, l)) : s.staRun op f = f s l := by
  simp [State.staRun, hcmd, hon]

theorem State.staDone_wl (s : State) (result : Nat) : (s.staDone result).wl = { s.wl with cmd := none } := by
  simp [State.staDone, State.setWl]

@[simp] theorem State.staDone_mem (s : State) (result : Nat) : (s.staDone result).mem = s.mem := by
  simp [State.staDone, State.setWl]

theorem State.staDone_result (s : State) {result : Nat} (hr : result < 16) : (s.staDone result).get F.MLD_STACMD_RESULT = result := by
  rw [State.staDone, State.get_raise_ne _ _ _ (by decide), State.get_set_same]
  exact Nat.mod_eq_of_lt hr

theorem State.staDone_cbusy (s : State) (result : Nat) : (s.staDone result).on F.MLD_STACMD_CBUSY = false := by
  rw [State.on, State.staDone, State.get_raise_ne _ _ _ (by decide), State.get_set_ne _ _ (by decide), State.get_set_same]
  rfl

theorem State.staDone_ev (s : State) (result : Nat) : (s.staDone result).ev W.MLD E.MLD_CMDDONE = true := State.ev_raise _ _ _

theorem State.staDone_index (s : State) (result : Nat) : (s.staDone result).get F.MLD_STACMD_INDEX = s.get F.MLD_STACMD_INDEX := by
  rw [State.staDone, State.get_raise_ne _ _ _ (by decide), State.get_set_ne _ _ (by decide), State.get_set_ne _ _ (by decide)]
  rfl

theorem State.keeps_staDone {s t : State} {l : List Fld} {result : Nat} (hl : ∀ f ∈ staRegs, f ∈ l) (h : s.keeps t l) :
    s.keeps (t.staDone result) l :=
  State.keeps_raise (hl _ (by simp [staRegs])) <| State.keeps_set (hl _ (by simp [staRegs])) <|
    State.keeps_set (hl _ (by simp [staRegs])) <| State.keeps_congr (t := t) rfl rfl h

/-- How a station command that leaves the registers and memory alone ends. -/
theorem State.staDone_ends {s t : State} (result : Nat) (hr : result < 16) (hkeep : s.keeps t staRegs) (hmem : t.mem = s.mem) :
    (t.staDone result).wl.cmd = none ∧ (t.staDone result).on F.MLD_STACMD_CBUSY = false
      ∧ (t.staDone result).ev W.MLD E.MLD_CMDDONE = true ∧ (t.staDone result).get F.MLD_STACMD_RESULT = result
      ∧ (t.staDone result).wl.sta = t.wl.sta ∧ s.keeps (t.staDone result) staRegs ∧ (t.staDone result).mem = s.mem :=
  ⟨by rw [t.staDone_wl], t.staDone_cbusy _, t.staDone_ev _, t.staDone_result hr, by rw [t.staDone_wl], State.keeps_staDone (fun _ h => h) hkeep,
    (t.staDone_mem _).trans hmem⟩

/-- A pick among values that all pass draws one value. -/
theorem State.pick_of_all (s : State) {p : Nat → Bool} {n lo : Nat} (hp : ∀ i, p i = true) :
    s.pick p n lo = (some (lo + s.fresh.1 % n), s.fresh.2) := by
  simp [State.pick, hp]

/-- The entry that ADD makes, with the delays of an EMLSR peer as drawn (log entry 62). -/
def State.staNew (s : State) (l : List Nat) : StaS :=
  let x : StaS := { addr := l.getD 0 0 + l.getD 1 0 % 65536 * 2 ^ 32, aid := bitsOf (l.getD 1 0) 16 11,
                    links := [(bitsOf (l.getD 2 0) 0 2, (l.getD 0 0 + l.getD 1 0 % 65536 * 2 ^ 32, bitsOf (l.getD 2 0) 2 4))],
                    train := bitsOf (l.getD 2 0) 6 12, mld := bitOf (l.getD 2 0) 18, twtmem := bitOf (l.getD 2 0) 19,
                    emlsr := bitOf (l.getD 2 0) 20, caps := l.getD 3 0 % 2 ^ 12, map := none, snr := [], fed := [], adj := [], good := [],
                    bsr := [], ps := false }
  if bitOf (l.getD 2 0) 20 then
    { x with pad := s.fresh.2.fresh.1 % 256001, tran := s.fresh.2.fresh.2.fresh.1 % 256001 }
  else x

/-- The state with what ADD draws drawn. -/
def State.staDrawn (s : State) (l : List Nat) : State :=
  if bitOf (l.getD 2 0) 20 then s.fresh.2.fresh.2.fresh.2 else s.fresh.2

theorem State.staDrawn_frame (s : State) (l : List Nat) :
    (∀ f, (s.staDrawn l).get f = s.get f) ∧ (s.staDrawn l).wl = s.wl ∧ (s.staDrawn l).mem = s.mem := by
  unfold State.staDrawn
  split <;> exact ⟨fun _ => rfl, rfl, rfl⟩

theorem State.staNew_addr (s : State) (l : List Nat) : (s.staNew l).addr = l.getD 0 0 + l.getD 1 0 % 65536 * 2 ^ 32 := by
  unfold State.staNew
  dsimp only
  split <;> rfl

theorem State.staNew_aid (s : State) (l : List Nat) : (s.staNew l).aid = bitsOf (l.getD 1 0) 16 11 := by
  unfold State.staNew
  dsimp only
  split <;> rfl

theorem State.staNew_links (s : State) (l : List Nat) :
    (s.staNew l).links = [(bitsOf (l.getD 2 0) 0 2, ((s.staNew l).addr, bitsOf (l.getD 2 0) 2 4))] := by
  unfold State.staNew
  dsimp only
  split <;> rfl

/-- The arguments of an ADD that R216 allows: an AID of 1 to 2006 and a link of three. -/
theorem staArgs_good {aid link : Nat} (haid : 0 < aid) (hmax : aid ≤ 2006) (hlink : link ≠ 3) :
    ¬ (decide (aid = 0) || decide (2006 < aid) || decide (link = 3)) = true := by
  simp only [Bool.or_eq_true, decide_eq_true_eq]
  omega

/-- ADD to an empty table makes an entry at a free index. -/
theorem State.staAdd_of_empty {s : State} {l : List Nat} (haid : 0 < bitsOf (l.getD 1 0) 16 11) (hmax : bitsOf (l.getD 1 0) 16 11 ≤ 2006)
    (hlink : bitsOf (l.getD 2 0) 0 2 ≠ 3) (hsta : s.wl.sta = []) :
    ∃ i < 1024, s.staAdd l = (((s.staDrawn l).setWl { (s.staDrawn l).wl with sta := [(i, s.staNew l)] }).set F.MLD_STACMD_INDEX i).staDone 0 := by
  have hpick : s.pick (fun i => (kget s.wl.sta i).isNone) 1024 0 = (some (0 + s.fresh.1 % 1024), s.fresh.2) :=
    s.pick_of_all fun i => by simp [hsta, kget]
  have hlt : 0 + s.fresh.1 % 1024 < 1024 := by omega
  refine ⟨_, hlt, ?_⟩
  simp only [State.staAdd, hpick]
  rw [if_neg (staArgs_good haid hmax hlink), if_neg (by simp [hsta]), if_neg (by simp [hsta]), if_neg (by simp [State.linksOf, hsta])]
  unfold State.staDrawn State.staNew
  split
  · have hw : s.fresh.2.fresh.2.fresh.2.wl = s.wl := rfl
    simp only [hw, hsta, kset]
  · have hw : s.fresh.2.wl = s.wl := rfl
    simp only [hw, hsta, kset]

/-- ADD of an AID in use is EXISTS. -/
theorem State.staAdd_of_used {s : State} {l : List Nat} {e : Nat × StaS} (haid : 0 < bitsOf (l.getD 1 0) 16 11)
    (hmax : bitsOf (l.getD 1 0) 16 11 ≤ 2006) (hlink : bitsOf (l.getD 2 0) 0 2 ≠ 3) (he : e ∈ s.wl.sta)
    (hsame : e.2.aid = bitsOf (l.getD 1 0) 16 11) : s.staAdd l = s.staDone 1 := by
  have hany : (s.wl.sta.any fun e => e.2.addr == l.getD 0 0 + l.getD 1 0 % 65536 * 2 ^ 32 || e.2.aid == bitsOf (l.getD 1 0) 16 11) = true :=
    List.any_eq_true.mpr ⟨e, he, by simp [hsame]⟩
  simp only [State.staAdd, hany]
  rw [if_neg (staArgs_good haid hmax hlink)]
  rfl

/-- FLUSH and DEL find nothing to drop in empty queues. -/
theorem State.staFlushQ_of_empty {s : State} (hq : s.wl.q = []) (e : Nat) : s.staFlushQ e = s := by
  have hnone : (List.range 16).flatMap (fun t => s.wq e t) = [] := by simp [State.wq, hq, kget]
  simp only [State.staFlushQ, hnone, List.foldl_nil]

/-- The only frame queued is found by its handle. -/
theorem State.wFind_of_single {s : State} {k : Nat} {e : WEnt} (hq : s.wl.q = [(k, [e])]) : s.wFind e.out.handle = some e := by
  simp [State.wFind, hq]

theorem State.bufRelease_frame (s : State) (h : Nat) :
    (s.bufRelease h).wl = s.wl ∧ (s.bufRelease h).mem = s.mem ∧ ∀ l, s.keeps (s.bufRelease h) l := by
  unfold State.bufRelease
  split <;> exact ⟨rfl, rfl, fun _ _ _ => rfl⟩

/-- The end of the only frame queued, with no completion asked for, empties the queues and leaves the registers. -/
theorem State.wEnd_of_single {s : State} {k : Nat} {e : WEnt} (hq : s.wl.q = [(k, [e])]) (hgrp : s.wl.grp = []) (hcompl : e.out.compl = false)
    (status : Nat) :
    (s.wEnd e.out.handle status none).wl = { s.wl with q := [], grp := [] } ∧ (s.wEnd e.out.handle status none).mem = s.mem
      ∧ ∀ l, s.keeps (s.wEnd e.out.handle status none) l := by
  have hdrop : s.wDrop e.out.handle = s.setWl { s.wl with q := [], grp := [] } := by simp [State.wDrop, hq, hgrp]
  have hend : s.wEnd e.out.handle status none = (s.setWl { s.wl with q := [], grp := [] }).bufRelease e.out.handle := by
    simp [State.wEnd, State.wFind_of_single hq, hdrop, State.outDone, hcompl]
  obtain ⟨hwl, hmem, hkeep⟩ := (s.setWl { s.wl with q := [], grp := [] }).bufRelease_frame e.out.handle
  rw [hend]
  exact ⟨hwl, hmem, fun l => State.keeps_trans (fun _ _ => rfl) (hkeep l)⟩

/-- The queues of an entry hold the frames of its 16 TIDs. -/
theorem State.wq_of_single {s : State} {i n : Nat} {e : WEnt} (hq : s.wl.q = [(16 * i + n, [e])]) (hn : n < 16) :
    (List.range 16).flatMap (fun t => s.wq i t) = [e] := by
  have hwq (t : Nat) : s.wq i t = if t = n then [e] else [] := by
    have hkey : 16 * i + n = 16 * i + t ↔ t = n := by omega
    simp only [State.wq, hq, kget, hkey]
    split <;> rfl
  simp only [hwq]
  interval_cases n <;> rfl

/-- The registers that a drop of a frame of an entry that is gone may change. -/
def mldCntRegs : List Fld := [mkF W.MLD 0x10C 0 31 0, mkF W.MLD 0x10C 31 1 0, F.EV_RAW W.MLD E.MLD_CNTSAT]

/-- FLUSH of an entry whose one frame is the only one queued. -/
theorem State.staFlushQ_of_single {s : State} {i n : Nat} {e : WEnt} (hq : s.wl.q = [(16 * i + n, [e])]) (hn : n < 16)
    (hgrp : s.wl.grp = []) (hcompl : e.out.compl = false) :
    (s.staFlushQ i).wl.q = [] ∧ (s.staFlushQ i).wl.sta = s.wl.sta ∧ (s.staFlushQ i).mem = s.mem ∧ s.keeps (s.staFlushQ i) mldCntRegs := by
  have hcnt : s.RegsOnly (s.mldCnt 3) := s.bump_regsOnly _ _ _
  have hflush : s.staFlushQ i = (s.mldCnt 3).wEnd e.out.handle 8 none := by
    rw [State.staFlushQ, State.wq_of_single hq hn]
    rfl
  obtain ⟨hwl, hmem, hkeep⟩ := State.wEnd_of_single (s := s.mldCnt 3) (by rw [hcnt.wl]; exact hq) (by rw [hcnt.wl]; exact hgrp) hcompl 8
  rw [hflush, hwl, hmem, hcnt.wl, hcnt.mem]
  exact ⟨rfl, rfl, rfl, State.keeps_trans (State.keeps_bump (by decide) (by decide) (by decide) (s.keeps_refl _)) (hkeep _)⟩

/-- The state with an entry of the table stored. -/
def State.setSta (s : State) (i : Nat) (x : StaS) : State := s.setWl { s.wl with sta := kset s.wl.sta i x }

@[simp] theorem State.setSta_sta (s : State) (i : Nat) (x : StaS) : (s.setSta i x).wl.sta = kset s.wl.sta i x := rfl

/-- The entry with the link that SETLINK adds. -/
def StaS.withLink (x : StaS) (l : List Nat) : StaS :=
  { x with links := kset x.links (bitsOf (l.getD 2 0) 16 2) (l.getD 1 0 + l.getD 2 0 % 65536 * 2 ^ 32, bitsOf (l.getD 2 0) 18 4) }

/-- SETLINK of a link that an MLD does not have yet. -/
theorem State.staSetlink_of_new {s : State} {l : List Nat} {x : StaS} (hx : kget s.wl.sta (l.getD 0 0 % 1024) = some x) (hmld : x.mld = true)
    (hlink : bitsOf (l.getD 2 0) 16 2 ≠ 3) (hnone : kget x.links (bitsOf (l.getD 2 0) 16 2) = none)
    (hroom : s.linksOf (bitsOf (l.getD 2 0) 16 2) < 512) :
    s.staSetlink l = (s.setSta (l.getD 0 0 % 1024) (x.withLink l)).staDone 0 := by
  have hgo : ¬ (!x.mld || decide (bitsOf (l.getD 2 0) 16 2 = 3) || (kget x.links (bitsOf (l.getD 2 0) 16 2)).isSome) = true := by
    rw [hmld, hnone, decide_eq_false hlink]
    decide
  simp only [State.staSetlink, hx]
  rw [if_neg hgo, if_neg (Nat.not_le.mpr hroom)]
  rfl

/-- The state without an entry of the table that has no frames and no agreements. -/
def State.staGone (s : State) (i : Nat) : State :=
  s.setWl { s.wl with
    sta := kdel s.wl.sta i, timed := [],
    tx := s.wl.tx.map (fun x => { x with users := x.users.filter fun u => u.sta != i }),
    plans := s.wl.plans.map fun p => (p.1, { p.2 with steps := p.2.steps.map fun x => { x with users := x.users.filter fun u => u.sta != i } }) }

/-- DEL of an entry that has no frames and no agreements. -/
theorem State.staDel_of_unused {s : State} {l : List Nat} {x : StaS} (hx : kget s.wl.sta (l.getD 0 0 % 1024) = some x) (hq : s.wl.q = [])
    (htimed : s.wl.timed = []) (htwt : s.wl.twt = []) : s.staDel l = (s.staGone (l.getD 0 0 % 1024)).staDone 0 := by
  simp only [State.staDel, hx, Option.isNone_some, Bool.false_eq_true, if_false, State.staFlushQ_of_empty hq, htimed, htwt, List.filter_nil,
    List.foldl_nil, State.setWl, State.staGone]

/-- Settles O38: every command leaves its registers as `staDone` does and changes the table as R216 says. -/
theorem stationCommands : Obligations.StationCommands := by
  unfold Obligations.StationCommands
  refine ⟨fun s l hon hcmd haid hmax hlink hsta => ⟨_, rfl, ?_⟩, fun s l i x hon hcmd haid hmax hlink hin hsame => ⟨_, rfl, ?_⟩,
    fun s l hon hcmd haid => ⟨_, rfl, ?_⟩, fun s l x hon hcmd hx hq htimed htwt => ⟨_, rfl, ?_⟩, fun s l hon hcmd hx => ⟨_, rfl, ?_⟩,
    fun s l x hon hcmd hx hmld hlink hnone hroom => ⟨_, rfl, ?_⟩, fun s l x hon hcmd hx hsome => ⟨_, rfl, ?_⟩,
    fun s l x hon hcmd hx hmap => ⟨_, rfl, ?_⟩, fun s l n e hon hcmd hq hn hgrp hcompl => ⟨_, rfl, ?_⟩,
    fun s l hon hcmd hq => ⟨_, rfl, ?_⟩⟩ <;> rw [s.staRun_of_cmd _ hon hcmd]
  · obtain ⟨i, hi, hadd⟩ := State.staAdd_of_empty haid hmax hlink hsta
    obtain ⟨hget, hwl, hmem⟩ := s.staDrawn_frame l
    rw [hadd]
    obtain ⟨hend, hbusy, hev, hres, -, hkeep, hmem⟩ := State.staDone_ends (s := s)
      (t := ((s.staDrawn l).setWl { (s.staDrawn l).wl with sta := [(i, s.staNew l)] }).set F.MLD_STACMD_INDEX i) 0 (by decide)
      (State.keeps_set (by simp [staRegs]) fun f _ => hget f) hmem
    refine ⟨hend, hbusy, hev, hres, ⟨(i, s.staNew l), ?_, ?_, s.staNew_addr l, s.staNew_aid l, s.staNew_links l⟩, ?_, hkeep, hmem⟩
    · simp [State.staDone_wl, State.setWl]
    · rw [State.staDone_index, State.get_set_same]
      exact (Nat.mod_eq_of_lt hi).symm
    · simp [State.staDone_wl, State.setWl]
  · rw [State.staAdd_of_used haid hmax hlink hin hsame]
    exact State.staDone_ends 1 (by decide) (s.keeps_refl _) rfl
  · have hadd : s.staAdd l = s.staDone 5 := by
      simp only [State.staAdd, haid]
      rfl
    rw [hadd]
    exact State.staDone_ends 5 (by decide) (s.keeps_refl _) rfl
  · obtain ⟨hend, hbusy, hev, hres, hsta, hkeep, hmem⟩ := State.staDone_ends (s := s) (t := s.staGone (l.getD 0 0 % 1024)) 0 (by decide)
      (fun _ _ => rfl) rfl
    rw [State.staDel_of_unused hx hq htimed htwt]
    exact ⟨hend, hbusy, hev, hres, by rw [hsta]; exact kget_kdel_same _ _, hkeep, hmem⟩
  · have hdel : s.staDel l = s.staDone 7 := by simp only [State.staDel, hx]; rfl
    rw [hdel]
    exact State.staDone_ends 7 (by decide) (s.keeps_refl _) rfl
  · have hset := State.staSetlink_of_new hx hmld hlink hnone hroom
    obtain ⟨hend, hbusy, hev, hres, hsta, hkeep, hmem⟩ := State.staDone_ends (s := s)
      (t := s.setSta (l.getD 0 0 % 1024) (x.withLink l)) 0 (by decide) (fun _ _ => rfl) rfl
    rw [hset]
    exact ⟨hend, hbusy, hev, hres, by rw [hsta, s.setSta_sta, kget_kset_same]; rfl, hkeep, hmem⟩
  · have hset : s.staSetlink l = s.staDone 5 := by
      simp only [State.staSetlink, hx, hsome, Bool.or_true, if_true]
    rw [hset]
    exact State.staDone_ends 5 (by decide) (s.keeps_refl _) rfl
  · have hset : s.staSetmap l = (s.setSta (l.getD 0 0 % 1024) { x with map := some (l.getD 1 0 % 2 ^ 24) }).staDone 0 := by
      have hall : ((List.range 8).all fun t => (List.range 3).any fun r =>
          bitOf (l.getD 1 0 % 2 ^ 24) (3 * t + r) && (kget x.links r).isSome) = true :=
        List.all_eq_true.mpr fun n hn => List.any_eq_true.mpr <| (hmap n hn).imp fun r hr => ⟨hr.1, Bool.and_eq_true_iff.mpr hr.2⟩
      simp only [State.staSetmap, hx, hall, if_true]
      rfl
    obtain ⟨hend, hbusy, hev, hres, hsta, hkeep, hmem⟩ := State.staDone_ends (s := s)
      (t := s.setSta (l.getD 0 0 % 1024) { x with map := some (l.getD 1 0 % 2 ^ 24) }) 0 (by decide) (fun _ _ => rfl) rfl
    rw [hset]
    exact ⟨hend, hbusy, hev, hres, by rw [hsta, s.setSta_sta, kget_kset_same]; rfl, hkeep, hmem⟩
  · obtain ⟨hq', hsta', hmem', hkeep'⟩ := State.staFlushQ_of_single hq hn hgrp hcompl
    refine ⟨?_, State.staDone_cbusy _ _, State.staDone_ev _ _, State.staDone_result _ (by decide), ?_, ?_, ?_, ?_⟩
    · rw [State.staDone_wl]
    · rw [State.staDone_wl, hq']
    · rw [State.staDone_wl, hsta']
    · exact State.keeps_staDone (by simp [staRegs]) (State.keeps_mono hkeep' (by simp [mldCntRegs]))
    · rw [State.staDone_mem, hmem']
  · rw [State.staFlushQ_of_empty hq]
    exact State.staDone_ends 0 (by decide) (s.keeps_refl _) rfl

end Sys2Proof.Machine
end


section
/-!
Table changes of RTE, R259, R260: a commit that starts, waits, is applied or fails, and the old set that goes.
-/

namespace Sys2Proof.Machine

/-- The registers of an operation that waits for its resource. -/
def State.opQueued (s : State) (w : Nat) : State := ((s.opUnits w 0 0).set (F.OPSTAT_CAUSE w) 0).set (F.OPSTAT_STATE w) 1

theorem State.opStart_of_waiting {s : State} (rq : Rq) {w : Nat} (hon : s.winOn w = true) (hidle : s.busy w = false) :
    s.opStart rq w true false = s.opQueued w := by
  simp [State.opStart, State.opQueued, hon, hidle]

@[simp] theorem State.opQueued_opSt (s : State) (w : Nat) : (s.opQueued w).opSt w = 1 := State.get_set_same _ _ _

theorem State.keeps_opQueued (s : State) (w : Nat) : s.keeps (s.opQueued w) (opRegs w) :=
  State.keeps_set (by simp [opRegs]) <| State.keeps_set (by simp [opRegs]) <| State.keeps_set (by simp [opRegs]) <|
    State.keeps_set (by simp [opRegs]) (s.keeps_refl _)

theorem State.opQueued_regsOnly (s : State) (w : Nat) : s.RegsOnly (s.opQueued w) :=
  (((s.set_regsOnly _ _).trans (State.set_regsOnly _ _ _)).trans (State.set_regsOnly _ _ _)).trans (State.set_regsOnly _ _ _)

/-- The parameters of a commit that R259 allows. -/
def State.commitOk (s : State) : Bool :=
  decide (0 < s.get F.RTE_CHGCOUNT_COUNT) && decide (s.get F.RTE_CHGCOUNT_COUNT ≤ 4096) && s.chgSrc % 16 == 0
    && ((inSram s.chgSrc && inSram (s.chgSrc + 80 * s.get F.RTE_CHGCOUNT_COUNT - 1))
      || (inDram s.chgSrc && inDram (s.chgSrc + 80 * s.get F.RTE_CHGCOUNT_COUNT - 1)))
    && decide (s.ns + 1000000 ≤ s.commitAt)

/-- START of a commit begins an operation and, where it runs or waits, empties the stage. -/
theorem State.commitStart_eq (s : State) (rq : Rq) :
    s.commitStart rq = if (s.opStart rq W.RTE s.commitOk s.rte.old.isNone).busy W.RTE && !s.busy W.RTE then
        (s.opStart rq W.RTE s.commitOk s.rte.old.isNone).setRte { (s.opStart rq W.RTE s.commitOk s.rte.old.isNone).rte with stage := [] }
      else s.opStart rq W.RTE s.commitOk s.rte.old.isNone := rfl

theorem State.commitOk_of_sram {s : State} (hal : s.chgSrc % 16 = 0) (hsrc : inSram s.chgSrc = true)
    (hend : inSram (s.chgSrc + 80 * s.get F.RTE_CHGCOUNT_COUNT - 1) = true) (hpos : 0 < s.get F.RTE_CHGCOUNT_COUNT)
    (hmax : s.get F.RTE_CHGCOUNT_COUNT ≤ 4096) (hat : s.ns + 1000000 ≤ s.commitAt) : s.commitOk = true := by
  rw [State.commitOk, hal, hsrc, hend, decide_eq_true hpos, decide_eq_true hmax, decide_eq_true hat]
  rfl

/-- A commit with good parameters runs when no old set is kept. -/
theorem State.commitStart_of_free {s : State} (rq : Rq) (hon : s.winOn W.RTE = true) (hidle : s.busy W.RTE = false) (hok : s.commitOk = true)
    (hold : s.rte.old = none) : s.commitStart rq = (s.opBegun W.RTE).setRte { s.rte with stage := [] } := by
  have hbusy : (s.opBegun W.RTE).busy W.RTE = true := by simp [State.busy]
  rw [State.commitStart_eq, hok, hold, Option.isNone_none, State.opStart_of_valid rq hon hidle, hidle, hbusy, (s.opBegun_regsOnly W.RTE).rte]
  rfl

/-- A commit with good parameters waits while the old set is kept. -/
theorem State.commitStart_of_kept {s : State} (rq : Rq) (hon : s.winOn W.RTE = true) (hidle : s.busy W.RTE = false) (hok : s.commitOk = true)
    (hold : s.rte.old.isSome = true) : s.commitStart rq = (s.opQueued W.RTE).setRte { s.rte with stage := [] } := by
  have hbusy : (s.opQueued W.RTE).busy W.RTE = true := by simp [State.busy]
  have hnone : s.rte.old.isNone = false := by simpa using hold
  rw [State.commitStart_eq, hok, hnone, State.opStart_of_waiting rq hon hidle, hidle, hbusy, (s.opQueued_regsOnly W.RTE).rte]
  rfl

/-- A commit less than 1 ms ahead fails with cause 3. -/
theorem State.commitStart_of_late {s : State} (rq : Rq) (hon : s.winOn W.RTE = true) (hidle : s.busy W.RTE = false)
    (hat : s.commitAt < s.ns + 1000000) : s.commitStart rq = s.opFail W.RTE 3 := by
  have hok : s.commitOk = false := by
    rw [State.commitOk, decide_eq_false (Nat.not_le.mpr hat), Bool.and_false]
  have hst : (s.opFail W.RTE 3).opSt W.RTE = 4 := State.opFinish_opSt _ _ _ (by decide)
  have hbusy : (s.opFail W.RTE 3).busy W.RTE = false := by simp [State.busy, hst]
  rw [State.commitStart_eq, hok, State.opStart_of_invalid rq _ hon hidle, hbusy]
  rfl

/-- COMMITAT with no more to stage by then: the list fails with cause 7, or is applied. -/
theorem State.commitApply_of_staged {s : State} {n : Nat} (hst : s.opSt W.RTE = 2) (hat : s.commitAt ≤ s.ns)
    (hn : min n 4096 ≤ s.get (F.OPSTAT_PROGRESS W.RTE)) :
    s.commitApply n = if s.get (F.OPSTAT_PROGRESS W.RTE) < s.get F.RTE_CHGCOUNT_COUNT then s.opFail W.RTE 7
      else match chgAll s.rte.tabs 0 s.rte.stage with
        | .inl e => (s.set (F.OPPART W.RTE) e.2).opFail W.RTE e.1
        | .inr t => ((s.setRte { s.rte with old := some (s.commitAt % wMod, s.rte.tabs), tabs := t, stage := [] }).useShow).opDone W.RTE := by
  have hgo : (decide (s.opSt W.RTE ≠ 2) || decide (s.ns < s.commitAt)) = false := by
    rw [hst, decide_eq_false (Nat.not_lt.mpr hat)]
    rfl
  rw [State.commitApply, hgo, Nat.sub_eq_zero_of_le hn]
  simp only [State.stageTo, hst, Bool.false_eq_true, if_false, ne_eq, not_true_eq_false]
  rfl

theorem State.useShow_regsOnly (s : State) : s.RegsOnly s.useShow :=
  List.foldlRecOn _ _ (.refl s) fun t ht _ _ => ht.trans (t.set_regsOnly _ _)

theorem State.keeps_useShow {s t : State} {l : List Fld} (hl : ∀ k ∈ List.range 3, F.RTE_USE_USED k ∈ l) (h : s.keeps t l) :
    s.keeps t.useShow l :=
  List.foldlRecOn (motive := fun u => s.keeps u l) _ _ h fun _ hu k hk => State.keeps_set (hl k hk) hu

/-- Settles O44: each command is one of the outcomes above. -/
theorem rteCommits : Obligations.RteCommits := by
  unfold Obligations.RteCommits
  refine ⟨fun s rq hon hidle hold hal hsrc hend hpos hmax hat => ⟨_, rfl, ?_⟩, fun s rq hon hidle hold hal hsrc hend hpos hmax hat => ⟨_, rfl, ?_⟩,
    fun s rq hon hidle hat => ⟨_, rfl, ?_⟩, fun s n x hst hat hn hcount hall => ⟨_, rfl, ?_⟩, fun s n hst hat hn hcount => ⟨_, rfl, ?_⟩,
    fun s hold hwag => ⟨_, rfl, ?_⟩⟩
  · rw [State.commitStart_of_free rq hon hidle (State.commitOk_of_sram hal hsrc hend hpos hmax hat) hold]
    exact ⟨s.opBegun_opSt W.RTE, s.opBegun_progress W.RTE, rfl, rfl, s.keeps_opBegun W.RTE, (s.opBegun_regsOnly W.RTE).mem⟩
  · rw [State.commitStart_of_kept rq hon hidle (State.commitOk_of_sram hal hsrc hend hpos hmax hat) hold]
    exact ⟨s.opQueued_opSt W.RTE, s.keeps_opQueued W.RTE, (s.opQueued_regsOnly W.RTE).mem⟩
  · rw [State.commitStart_of_late rq hon hidle hat]
    exact ⟨State.opFinish_opSt _ _ _ (by decide), State.opFinish_cause _ _ _ (by decide), (s.opFinish_regsOnly _ _ _).rte,
      State.keeps_opFinish (by simp) (by simp) (by simp) (s.keeps_refl _), (s.opFinish_regsOnly _ _ _).mem⟩
  · rw [State.commitApply_of_staged hst hat hn, if_neg (Nat.not_lt.mpr hcount), hall]
    have hr := (State.useShow_regsOnly (s.setRte { s.rte with old := some (s.commitAt % wMod, s.rte.tabs), tabs := x, stage := [] })).trans
      (State.opFinish_regsOnly _ W.RTE 3 0)
    refine ⟨State.opFinish_opSt _ _ _ (by decide), congrArg RteS.tabs hr.rte, congrArg RteS.old hr.rte, congrArg RteS.stage hr.rte, ?_, hr.mem⟩
    exact State.keeps_opFinish (by simp) (by simp) (by simp) (State.keeps_useShow (by decide) fun _ _ => rfl)
  · rw [State.commitApply_of_staged hst hat hn, if_pos hcount]
    exact ⟨State.opFinish_opSt _ _ _ (by decide), State.opFinish_cause _ _ _ (by decide), (s.opFinish_regsOnly _ _ _).rte,
      State.keeps_opFinish (by simp) (by simp) (by simp) (s.keeps_refl _), (s.opFinish_regsOnly _ _ _).mem⟩
  · obtain ⟨⟨t, o⟩, ho⟩ := Option.isSome_iff_exists.mp hold
    simp only [ho, hwag, List.any_nil, Bool.not_false, Bool.true_or, if_true, State.oldGone]
    exact ⟨rfl, rfl, fun _ _ => rfl, rfl⟩

end Sys2Proof.Machine
end


section
/-!
Writes of words to the registers of a block that is on: how a write comes to the register's fields and to what it starts.
-/

namespace Sys2Proof.Machine

theorem State.keeps_answer {s t : State} {l : List Fld} (v : Nat) (h : s.keeps t l) : s.keeps (t.answer v) l :=
  State.keeps_congr (t := t) rfl rfl h

/-- The debug port may access a register at level 2. -/
theorem State.dbgMay_regAddr {s : State} {w off : Nat} (wr : Bool) (hlev : s.dbgLevel = 2) : s.dbgMay (regAddr w off) wr = true := by
  have hge : ¬ (0x20020000 ≤ regAddr w off ∧ regAddr w off < 0x20060000) := by
    simp only [regAddr]
    omega
  simp [State.dbgMay, hlev, hge]

/-- A window that is on belongs to a die that runs. -/
theorem State.live_of_winOn {s : State} {w : Nat} (hon : s.winOn w = true) : s.live = true :=
  (Bool.and_eq_true_iff.mp hon).1

/-- A word written to a live register is written to the register at its window and offset, and answered. -/
theorem State.put_eq {s : State} {rq : Rq} {w off : Nat} (v : Word) (hw : winOk w = true) (ho : off < 65536) (h4 : off % 4 = 0)
    (hon : s.winOn w = true) (hdbg : rq.cls = 2 → s.dbgLevel = 2) : s.put rq w off v = (s.regWrite rq w off v.toNat).answer 0 := by
  have hdark : s.darkAt rq (regAddr w off) true = none := s.darkAt_regAddr_eq_none rq true hw ho (.inr hon)
  have hraw : s.accRaw State.regWrite rq (regAddr w off) 4 true v.toNat .none = (s.regWrite rq w off v.toNat).answer 0 := by
    simp only [State.accRaw, hdark, inRegs_regAddr ho, if_true,
      s.regAcc_word _ rq true v.toNat (lt_trans (winOk_lt hw) (by decide)) ho h4, Nat.mod_eq_of_lt v.isLt]
  have hmay : (decide (rq.cls = 2) && !s.dbgMay (regAddr w off) true) = false := by
    by_cases hc : rq.cls = 2
    · simp [State.dbgMay_regAddr true (hdbg hc)]
    · simp [hc]
  simp only [State.put, State.access, State.accessBy, State.live_of_winOn hon, hmay, hraw, State.engAns_answer]
  rfl

/-- The registers that a write treats as words of a table or of a multi-word register. -/
def specialAt (w off : Nat) : Bool :=
  (multiOf w off).isSome || (0x10 ≤ w && w ≤ 0x13 && 0x74 ≤ off && off ≤ 0x80) || (w = W.MPHY && off = 0x74)
    || (w = 0x1A && 0x64 ≤ off && off ≤ 0x70) || (w = W.MLD && 0x84 ≤ off && off ≤ 0x94)
    || (w = W.MLD && (off = 0x60 || off = 0x64)) || (w = W.MLD && off = 0x5C) || (w = W.TIME && off = 0x5C)

/-- Any other register of a block takes the word in its fields, and then starts what it starts. -/
theorem State.blockWrite_of_plain (s : State) (rq : Rq) {w off : Nat} (v wake : Nat) (h : specialAt w off = false) :
    s.blockWrite rq w off v wake = (s.tabWrite rq w off v).hook s rq w off v wake := by
  simp only [specialAt, Bool.or_eq_false_iff, Option.isSome_eq_false_iff, Option.isNone_iff_eq_none] at h
  obtain ⟨⟨⟨⟨⟨⟨⟨hm, hcal⟩, hl⟩, hg⟩, htwt⟩, htsf⟩, he⟩, ht⟩ := h
  simp only [State.blockWrite, hm, hcal, hl, hg, htsf, he, ht, htwt, Bool.false_eq_true, if_false]

/-- A word written to a plain register of a block. -/
theorem State.put_of_plain {s : State} {rq : Rq} {w off : Nat} (v : Word) (hw : winOk w = true) (ho : 0x40 ≤ off ∧ off < 65536)
    (h4 : off % 4 = 0) (hnd : w ≠ W.DBG) (hon : s.winOn w = true) (hdbg : rq.cls = 2 → s.dbgLevel = 2) (hp : specialAt w off = false) :
    s.put rq w off v = ((s.tabWrite rq w off v.toNat).hook s rq w off v.toNat 0).answer 0 := by
  have hlt : ¬ off < 0x40 := by omega
  rw [State.put_eq v hw ho.2 h4 hon hdbg, ← s.blockWrite_of_plain rq v.toNat 0 hp]
  simp only [State.regWrite, State.coreWrite, State.wordWrite, hnd, hlt, decide_false, Bool.false_and, Bool.false_eq_true, if_false]

/-- A field that takes a word stores its bits of it. -/
theorem State.fldWrite_of_rw {s0 : State} (s : State) (rq : Rq) {w off j v : Nat} {f : FldRow} (hacc : f.acc = .rw) (hlock : f.lock = false)
    (hwd : f.wd = false) (hres : s0.fldReserved w off j f (v / 2 ^ f.lo % 2 ^ f.len) v = false) (htake : s0.regTakes w off = true)
    (hring : s0.ringTakes w off j f.lo (v / 2 ^ f.lo % 2 ^ f.len) = true)
    (hsf : s0.sfBars w off j f.lo (v / 2 ^ f.lo % 2 ^ f.len) (s0.get (fldOf w off j f)) = false) :
    s0.fldWrite rq w off j v s f = s.set (fldOf w off j f) (storeAs f.store (v / 2 ^ f.lo % 2 ^ f.len)) := by
  simp [State.fldWrite, hacc, hlock, hwd, hres, htake, hring, hsf]

theorem State.ringTakes_of_ne (s : State) {w : Nat} (off j lo x : Nat) (hw : w ≠ W.APC) : s.ringTakes w off j lo x = true := by
  simp [State.ringTakes, hw]

theorem State.sfBars_of_ne (s : State) {w : Nat} (off j lo x old : Nat) (hw : w ≠ W.MLC) : s.sfBars w off j lo x old = false := by
  simp [State.sfBars, sfBank, hw]

/-- Every instance of a window beyond RFE and WPHY has every field of its registers. -/
theorem fldHere_of_other {w : Nat} (off lo : Nat) (hw : w < 0x10 ∨ 0x13 < w ∧ w < 0x18 ∨ 0x19 < w) : fldHere w off lo = true := by
  have h1 : ¬ (0x10 ≤ w ∧ w ≤ 0x13) := by omega
  have h2 : ¬ (0x10 ≤ w ∧ w ≤ 0x12) := by omega
  have h3 : ¬ (w = 0x18 ∨ w = 0x19) := by omega
  simp only [fldHere, Bool.not_eq_true', Bool.or_eq_false_iff, Bool.and_eq_false_imp, Bool.and_eq_true, decide_eq_true_eq, Bool.or_eq_true,
    beq_iff_eq]
  exact ⟨⟨fun h => absurd h.1 h1, fun h => absurd h h2⟩, fun h => absurd h.1 h3⟩

/-- A word written to a register goes to each of its fields. -/
theorem State.tabWrite_of_row (s : State) (rq : Rq) {w off j v : Nat} {r : RegRow} (hr : regAt w off = some (r, j))
    (hw : w < 0x10 ∨ 0x13 < w ∧ w < 0x18 ∨ 0x19 < w) : s.tabWrite rq w off v = r.flds.foldl (s.fldWrite rq w off j v) s := by
  have hall : r.flds.filter (fun f => fldHere w off f.lo) = r.flds := List.filter_eq_self.mpr fun f _ => fldHere_of_other off f.lo hw
  simp only [State.tabWrite, hr, hall]

end Sys2Proof.Machine
end


section
/-!
The watches of RTE, R270.
-/

namespace Sys2Proof.Machine

theorem State.get_setRte (s : State) (r : RteS) (f : Fld) : (s.setRte r).get f = s.get f := rfl

@[simp] theorem State.watchSet_mem (s : State) (w : Nat) (up : Bool) : (s.watchSet w up).mem = s.mem := by
  simp [State.watchSet, State.setRte]

/-- A watch reported up or down has the event of it. -/
theorem State.watchSet_ev (s : State) (w : Nat) (up : Bool) :
    (s.watchSet w up).ev W.RTE (if up then E.RTE_WATCHUP else E.RTE_WATCHDOWN) = true := State.ev_raise _ _ _

theorem State.watchSet_up (s : State) (w : Nat) (up : Bool) : (s.watchSet w up).get (F.RTE_WATCH_UP w) = b2n up := by
  have hkey : (F.RTE_WATCH_UP w).key ≠ (F.EV_RAW W.RTE (if up then E.RTE_WATCHUP else E.RTE_WATCHDOWN)).key := by
    cases up <;> simp only [F.RTE_WATCH_UP, F.EV_RAW, mkF, W.RTE, E.RTE_WATCHUP, E.RTE_WATCHDOWN, if_true, if_false, Bool.false_eq_true] <;>
      omega
  rw [State.watchSet, State.get_raise_ne _ _ _ hkey, State.get_set_same]
  cases up <;> rfl

theorem State.watchSet_on (s : State) (w : Nat) (up : Bool) : (s.watchSet w up).on (F.RTE_WATCH_UP w) = up := by
  cases up <;> simp [State.on, State.watchSet_up, b2n]

theorem State.watchSet_watch (s : State) (w : Nat) (up : Bool) :
    (s.watchSet w up).watch w = { s.watch w with prev := s.on (F.RTE_WATCH_UP w), chg := s.ns % wMod } := by
  simp [State.watchSet, State.watch, State.setRte]

theorem State.keeps_watchSet {s t : State} {l : List Fld} {w : Nat} {up : Bool} (hup : F.RTE_WATCH_UP w ∈ l)
    (hev : F.EV_RAW W.RTE (if up then E.RTE_WATCHUP else E.RTE_WATCHDOWN) ∈ l) (h : s.keeps t l) : s.keeps (t.watchSet w up) l :=
  State.keeps_raise hev <| State.keeps_set hup <| State.keeps_congr (t := t) rfl rfl h

/-- The state with what a watch's port or station says noted. -/
def State.watchNoted (s : State) (w : Nat) : State :=
  s.setRte { s.rte with watch := kset s.rte.watch w { s.watch w with raw := s.watchInd w, since := s.ns } }

@[simp] theorem State.watchNoted_watch (s : State) (w : Nat) :
    (s.watchNoted w).watch w = { s.watch w with raw := s.watchInd w, since := s.ns } := by
  simp [State.watchNoted, State.watch, State.setRte]

/-- A change is noted, and where it is for the worse the watch is down. -/
theorem State.watchChg_of_change {s : State} {w : Nat} (h : s.watchInd w ≠ (s.watch w).raw) :
    s.watchChg w = if !s.watchInd w && s.on (F.RTE_WATCH_UP w) then (s.watchNoted w).watchSet w false else s.watchNoted w := by
  simp only [State.watchChg, if_neg h]
  rfl

theorem State.watchChg_of_same {s : State} {w : Nat} (h : s.watchInd w = (s.watch w).raw) : s.watchChg w = s := by
  simp only [State.watchChg, if_pos h]

/-- The register of a watch. -/
def watchRow : RegRow := ⟨"RTE_WATCH", 0x100, 4, 16, 4, 1, [⟨0, 2, .rw, .is 0, .within 0 2, false, false⟩,
  ⟨2, 1, .rw, .is 0, .any, false, false⟩, ⟨3, 1, .rw, .is 1, .any, false, false⟩, ⟨4, 1, .w1s, .is 0, .any, false, false⟩,
  ⟨8, 10, .rw, .is 0, .any, false, false⟩, ⟨18, 4, .rw, .is 4, .any, false, false⟩, ⟨22, 1, .ro, .is 1, .any, false, false⟩,
  ⟨24, 8, .rw, .is 100, .any, false, false⟩]⟩

theorem regAt_watch : ∀ n < 16, regAt W.RTE (0x100 + 4 * n) = some (watchRow, n) := by decide

/-- The state with RESTORE alone written to a watch. -/
def State.watchCleared (s : State) (n : Nat) : State :=
  (((((s.set (F.RTE_WATCH_KIND n) 0).set (F.RTE_WATCH_FORCEDOWN n) 0).set (F.RTE_WATCH_REVERT n) 0).set (F.RTE_WATCH_TARGET n) 0).set
    (F.RTE_WATCH_WMISS n) 0).set (F.RTE_WATCH_HOLD n) 0

theorem State.tabWrite_watch (s : State) (rq : Rq) {n : Nat} (hn : n < 16) :
    s.tabWrite rq W.RTE (0x100 + 4 * n) (2 ^ 4) = s.watchCleared n := by
  have htake : s.regTakes W.RTE (0x100 + 4 * n) = true := by
    have h1 : 0x100 + 4 * n ≠ 0x40 := by omega
    have h2 : 0x100 + 4 * n ≠ 0x44 := by omega
    simp [State.regTakes, W.RTE, W.MNODE, h1, h2]
  rw [s.tabWrite_of_row rq (regAt_watch n hn) (by decide)]
  simp +decide [watchRow, State.fldWrite, State.fldReserved, htake, State.ringTakes_of_ne, State.sfBars_of_ne, storeAs]
  rfl

/-- Two fields of a watch's register are the same when they begin at the same bit. -/
theorem watch_key_ne {n lo lo' : Nat} (h : lo ≠ lo') : (0x28 * 65536 + (0x100 + 4 * n)) * 32 + lo ≠ (0x28 * 65536 + (0x100 + 4 * n)) * 32 + lo' := by
  omega

theorem State.watchCleared_regsOnly (s : State) (n : Nat) : s.RegsOnly (s.watchCleared n) :=
  ((((s.set_regsOnly _ _).trans (State.set_regsOnly _ _ _)).trans (State.set_regsOnly _ _ _)).trans (State.set_regsOnly _ _ _)).trans
    ((State.set_regsOnly _ _ _).trans (State.set_regsOnly _ _ _))

theorem State.watchCleared_up (s : State) (n : Nat) : (s.watchCleared n).get (F.RTE_WATCH_UP n) = s.get (F.RTE_WATCH_UP n) := by
  simp only [State.watchCleared]
  iterate 6 rw [State.get_set_ne _ _ (watch_key_ne (by decide))]

/-- A watch of no port that is not forced down is well. -/
theorem State.watchCleared_ind (s : State) (n : Nat) : (s.watchCleared n).watchInd n = true := by
  have hforce : (s.watchCleared n).get (F.RTE_WATCH_FORCEDOWN n) = 0 := by
    simp only [State.watchCleared]
    iterate 4 rw [State.get_set_ne _ _ (watch_key_ne (by decide))]
    rw [State.get_set_same]
    rfl
  have hkind : (s.watchCleared n).get (F.RTE_WATCH_KIND n) = 0 := by
    simp only [State.watchCleared]
    iterate 5 rw [State.get_set_ne _ _ (watch_key_ne (by decide))]
    rw [State.get_set_same]
    rfl
  simp [State.watchInd, State.on, hforce, hkind]

/-- RESTORE of a watch that is well and down reports it up. -/
theorem State.put_restore {s : State} {rq : Rq} {n : Nat} {v : Word} (hon : s.winOn W.RTE = true) (hdbg : rq.cls = 2 → s.dbgLevel = 2)
    (hn : n < 16) (hv : v.toNat = 2 ^ 4) (hraw : (s.watch n).raw = true) (hup : s.on (F.RTE_WATCH_UP n) = false) :
    s.put rq W.RTE (0x100 + 4 * n) v = ((s.watchCleared n).watchSet n true).answer 0 := by
  have hplain : ∀ n < 16, specialAt W.RTE (0x100 + 4 * n) = false := by decide
  have hraw' : ((s.watchCleared n).watch n).raw = true := by
    rw [State.watch, (s.watchCleared_regsOnly n).rte]
    exact hraw
  have hup' : (s.watchCleared n).on (F.RTE_WATCH_UP n) = false := by
    rw [State.on, s.watchCleared_up]
    exact hup
  have hsame : (s.watchCleared n).watchInd n = ((s.watchCleared n).watch n).raw := by rw [s.watchCleared_ind, hraw']
  have hin : 0x100 ≤ 0x100 + 4 * n ∧ 0x100 + 4 * n < 0x140 := by omega
  have hk : (0x100 + 4 * n - 0x100) / 4 = n := by omega
  rw [State.put_of_plain v (by decide) (by omega) (by omega) (by decide) hon hdbg (hplain n hn), hv, s.tabWrite_watch rq hn]
  simp +decide only [State.hook, State.hookYard, hin, hk, State.watchChg_of_same hsame, State.watchBack, hraw', hup']
  rfl

/-- Settles O46: a change for the worse takes a watch down at once; after HOLD, and on RESTORE, one that is well is up. -/
theorem watches : Obligations.Watches := by
  unfold Obligations.Watches
  refine ⟨fun s n hn hraw hind hup => ⟨_, rfl, ?_⟩, fun s n hn hraw hind => ⟨_, rfl, ?_⟩, fun s n hn hraw hup hrev hhold => ⟨_, rfl, ?_⟩,
    fun s n hno => ⟨_, rfl, ?_⟩, fun s rq n v hon hdbg hn hv _ _ hraw hup => ⟨_, rfl, ?_⟩⟩
  · rw [if_pos hn, State.watchChg_of_change (by simp [hraw, hind]), hind, hup]
    exact ⟨State.watchSet_on _ _ false, by simp [State.watchSet_watch, hind], State.watchSet_ev _ _ false,
      State.keeps_watchSet (by simp) (by simp) fun _ _ => rfl, by simp [State.watchNoted, State.setRte]⟩
  · rw [if_pos hn, State.watchChg_of_change (by simp [hraw, hind]), hind]
    exact ⟨rfl, by simp [hind], by simp, fun _ _ => rfl, rfl⟩
  · have hgo : (decide (n < 16) && (s.watch n).raw && !s.on (F.RTE_WATCH_UP n) && s.on (F.RTE_WATCH_REVERT n)
        && decide ((s.watch n).since + s.get (F.RTE_WATCH_HOLD n) * 10000000 ≤ s.ns)) = true := by simp [hn, hraw, hup, hrev, hhold]
    rw [if_pos hgo]
    exact ⟨State.watchSet_on _ _ true, State.watchSet_ev _ _ true, State.keeps_watchSet (by simp) (by simp) (s.keeps_refl _),
      s.watchSet_mem _ _⟩
  · have hno' : ¬ (decide (n < 16) && (s.watch n).raw && !s.on (F.RTE_WATCH_UP n) && s.on (F.RTE_WATCH_REVERT n)
        && decide ((s.watch n).since + s.get (F.RTE_WATCH_HOLD n) * 10000000 ≤ s.ns)) = true := by
      obtain h | h := hno <;> simp [h]
    rw [if_neg hno']
    exact ⟨rfl, rfl⟩
  · rw [Nat.mod_eq_of_lt hn, State.put_restore hon hdbg hn hv hraw hup]
    exact ⟨State.watchSet_on _ _ true, State.watchSet_ev _ _ true, ((s.watchCleared n).watchSet_mem n true).trans (s.watchCleared_regsOnly n).mem⟩

end Sys2Proof.Machine
end


section
/-!
A refutation by a concrete state: a field that is listed with its reset value is no longer listed when the same value is written.
-/

namespace Sys2Proof.Machine

/-- Lane 0 is Active in mode 6, and its EIDLE is listed with the value it resets to. -/
def listedIdleState : State :=
  { State.reset with regs := [((F.LANE_MODE_MODE 0).key, 6), ((F.LANE_MODE_AN 0).key, 0), ((F.LANE_CTRL2_EIDLE 0).key, 0), ((F.LANE_STAT_STATE 0).key, 6)] }

/-- Refutes O49: the write of RETRAIN writes EIDLE its value again, and what reads at its place falls back to the reset value. -/
theorem not_laneStates : ¬ Obligations.LaneStates := by
  unfold Obligations.LaneStates
  rintro ⟨-, -, -, -, -, -, -, -, -, -, -, hretrain, -⟩
  have h := (hretrain listedIdleState ⟨0, 0⟩ 0 2 (by decide) (by decide) (by decide) (by decide) (by decide) (by decide) (by decide)
    (by decide)).of_exec rfl
  obtain ⟨-, -, hkeep, -⟩ := h
  exact absurd (hkeep { F.LANE_CTRL2_EIDLE 0 with rst := 1 } (by decide)) (by decide)

end Sys2Proof.Machine
end


section
/-!
Pause timers, PAUSE frames asked for and low-power idle, R297 to R299.
-/

namespace Sys2Proof.Machine

/-! Bit masks -/

/-- The number whose bit k is p k, for k below n. -/
def maskOf (p : Nat → Bool) (n : Nat) : Nat := (List.range n).foldl (fun a k => if p k then a + 2 ^ k else a) 0

theorem maskOf_succ (p : Nat → Bool) (n : Nat) : maskOf p (n + 1) = if p n then maskOf p n + 2 ^ n else maskOf p n := by
  simp [maskOf, List.range_succ]

theorem maskOf_lt (p : Nat → Bool) (n : Nat) : maskOf p n < 2 ^ n := by
  induction n with
  | zero => simp [maskOf]
  | succ n ih =>
    rw [maskOf_succ, pow_succ]
    split <;> omega

/-- Adding a higher power of two leaves a bit. -/
theorem bitOf_add_pow {v k n : Nat} (h : k < n) : bitOf (v + 2 ^ n) k = bitOf v k := by
  obtain ⟨d, rfl⟩ := Nat.exists_eq_add_of_lt h
  have hmul : 2 ^ (k + d + 1) = 2 ^ k * (2 ^ d * 2) := by ring
  rw [bitOf, bitOf, hmul, Nat.add_mul_div_left _ _ (by positivity), Nat.add_mul_mod_self_right]

theorem bitOf_maskOf (p : Nat → Bool) {n k : Nat} (hk : k < n) : bitOf (maskOf p n) k = p k := by
  induction n with
  | zero => omega
  | succ n ih =>
    rw [maskOf_succ]
    obtain h | rfl := Nat.lt_succ_iff_lt_or_eq.mp hk
    · split
      · rw [bitOf_add_pow h, ih h]
      · exact ih h
    · have hlt := maskOf_lt p k
      split
      next hp =>
        rw [hp, bitOf, Nat.add_div_right _ (by positivity), Nat.div_eq_of_lt hlt]
        rfl
      next hp =>
        rw [Bool.not_eq_true] at hp
        rw [hp, bitOf, Nat.div_eq_of_lt hlt]
        rfl

/-! Bringing a port up to date -/

/-- Bringing a port up to date changes no register and no memory, and of EMAC only the time it was last busy. -/
theorem State.portSync_frame (s : State) (n : Nat) :
    (∀ f, (s.portSync n).get f = s.get f) ∧ (s.portSync n).mem = s.mem ∧ (s.portSync n).tm = s.tm
      ∧ (s.portSync n).doms = s.doms ∧ (s.portSync n).env = s.env
      ∧ ∃ b, (s.portSync n).emacOf n = { s.emacOf n with busyAt := b } ∧ (s.lpiQuiet n = true → b = (s.emacOf n).busyAt) := by
  have hq (t : State) (x : ShpS) : (t.setShp n x).emacOf n = t.emacOf n := rfl
  unfold State.portSync
  by_cases h : s.lpiQuiet n = true
  · simp only [h, if_true]
    exact ⟨fun _ => rfl, rfl, rfl, rfl, rfl, (s.emacOf n).busyAt, rfl, fun _ => rfl⟩
  · simp only [h]
    refine ⟨fun _ => rfl, rfl, rfl, rfl, rfl, s.tm.mono, ?_, fun hh => absurd hh (by simp)⟩
    simp [State.setEmac, State.emacOf, State.shpSync, State.setShp]

/-- A port that may not start a frame starts none. -/
theorem State.shpGo_of_idle {s : State} {n : Nat} (h : s.canStart n = false) : s.shpGo n = s := by
  have hdue : s.timedDue n = s := by simp [State.timedDue, h]
  simp only [State.shpGo, hdue, Nat.add_comm 1, State.shpPick, h]
  rfl

/-- Without TXEN no frame starts. -/
theorem State.canStart_of_txen {s : State} {n : Nat} (h : s.on (F.EMAC_CFG_TXEN n) = false) : s.canStart n = false := by
  simp [State.canStart, h]

/-! The register that asks for a PAUSE frame -/

/-- EMAC_TXPAUSE. -/
def txpauseRow : RegRow := ⟨"EMAC_TXPAUSE", 0x70, 4, 1, 4, 1, [⟨0, 16, .rw, .is 0, .any, false, false⟩,
  ⟨16, 8, .rw, .is 0, .any, false, false⟩, ⟨24, 1, .w1s, .is 0, .any, false, false⟩, ⟨25, 1, .rw, .is 0, .any, false, false⟩,
  ⟨26, 1, .ro, .is 0, .any, false, false⟩]⟩

theorem regAt_txpause : ∀ n < 8, regAt (W.EMAC n) 0x70 = some (txpauseRow, 0) := by decide

/-- The state with the fields of EMAC_TXPAUSE taken from a word. -/
def State.txpauseSet (s : State) (n v : Nat) : State :=
  ((s.set (F.EMAC_TXPAUSE_QUANTA n) (v % 65536)).set (F.EMAC_TXPAUSE_CLASSES n) (v / 65536 % 256)).set (F.EMAC_TXPAUSE_HOLD n)
    (v / 33554432 % 2)

/-- Windows beyond the front ends, the MACs of the radios and the lanes reserve codes by their tables alone. -/
theorem State.fldReserved_of_any (s : State) {w : Nat} (off j : Nat) {f : FldRow} (x v : Nat) (hst : f.store = .any)
    (hw : w < 0x10 ∨ 0x1A < w ∧ w < 0x30 ∨ 0x37 < w) : s.fldReserved w off j f x v = false := by
  have h1 : w ≠ 0x13 := by omega
  have h2 : ¬ (0x10 ≤ w ∧ w ≤ 0x12) := by omega
  have h3 : ¬ (0x18 ≤ w ∧ w ≤ 0x1A) := by omega
  have h4 : w ≠ W.MPHY := by simp only [W.MPHY]; omega
  have h5 : ¬ (0x30 ≤ w ∧ w ≤ 0x37) := by omega
  simp only [Decidable.not_and_iff_or_not] at h2 h3 h5
  simp only [State.fldReserved, hst, beq_eq_decide, h1, h4, decide_false, Bool.false_and, Bool.or_false, Bool.false_or]
  obtain h2 | h2 := h2 <;> obtain h3 | h3 := h3 <;> obtain h5 | h5 := h5 <;>
    simp only [h2, h3, h5, decide_false, Bool.false_and, Bool.and_false, Bool.or_false]

theorem State.regTakes_emac (s : State) {n : Nat} (off : Nat) (hn : n < 8) : s.regTakes (W.EMAC n) off = true := by
  interval_cases n <;> rfl

/-- A read-only field takes no word. -/
theorem State.fldWrite_of_ro (s0 s : State) (rq : Rq) {w off j v : Nat} {f : FldRow} (hacc : f.acc = .ro) :
    s0.fldWrite rq w off j v s f = s := by
  simp [State.fldWrite, hacc]

/-- A command bit that needs no lock stores nothing. -/
theorem State.fldWrite_of_w1s (s0 s : State) (rq : Rq) {w off j v : Nat} {f : FldRow} (hacc : f.acc = .w1s) (hlock : f.lock = false) :
    s0.fldWrite rq w off j v s f = s := by
  simp [State.fldWrite, hacc, hlock]

/-- A field of EMAC takes a word as it is. -/
theorem State.fldWrite_emac (s0 s : State) (rq : Rq) {n off v : Nat} {f : FldRow} (hn : n < 8) (hacc : f.acc = .rw) (hlock : f.lock = false)
    (hwd : f.wd = false) (hst : f.store = .any) :
    s0.fldWrite rq (W.EMAC n) off 0 v s f = s.set (fldOf (W.EMAC n) off 0 f) (v / 2 ^ f.lo % 2 ^ f.len) := by
  have hw : 0x37 < W.EMAC n ∧ W.EMAC n < 0x40 := by simp only [W.EMAC]; omega
  rw [State.fldWrite_of_rw s rq hacc hlock hwd (s0.fldReserved_of_any off 0 _ v hst (by omega)) (s0.regTakes_emac off hn)
    (s0.ringTakes_of_ne off 0 _ _ (by simp only [W.APC]; omega)) (s0.sfBars_of_ne off 0 _ _ _ (by simp only [W.MLC]; omega)), hst]
  rfl

theorem State.tabWrite_txpause (s : State) (rq : Rq) {n : Nat} (v : Nat) (hn : n < 8) :
    s.tabWrite rq (W.EMAC n) 0x70 v = s.txpauseSet n v := by
  have hw : 0x19 < W.EMAC n := by
    simp only [W.EMAC]
    omega
  rw [s.tabWrite_of_row rq (regAt_txpause n hn) (by omega)]
  simp only [txpauseRow, List.foldl_cons, List.foldl_nil, s.fldWrite_emac _ rq hn, State.fldWrite_of_ro, State.fldWrite_of_w1s, pow_zero,
    Nat.div_one]
  rfl

/-- A write of EMAC_TXPAUSE with SEND asks for a frame. -/
theorem State.put_txpause {s : State} {rq : Rq} {n : Nat} {v : Word} (hn : n < 8) (hon : s.winOn (W.EMAC n) = true)
    (hdbg : rq.cls = 2 → s.dbgLevel = 2) (hsend : v.toNat / 2 ^ 24 = 1) :
    s.put rq (W.EMAC n) 0x70 v = ((s.txpauseSet n v.toNat).pauseAsk rq n).answer 0 := by
  have hok : ∀ n < 8, winOk (W.EMAC n) = true ∧ specialAt (W.EMAC n) 0x70 = false ∧ W.EMAC n ≠ W.DBG := by decide
  obtain ⟨hwin, hplain, hnd⟩ := hok n hn
  have hbit : bitOf v.toNat 24 = true := by
    rw [bitOf, hsend]
    rfl
  rw [State.put_of_plain v hwin (by decide) (by decide) hnd hon hdbg hplain, s.tabWrite_txpause rq _ hn]
  congr 1
  interval_cases n <;> simp +decide [State.hook, State.hookNet, hbit, W.EMAC]

/-- The state of a port that asks for a PAUSE frame. -/
def State.pauseWanted (s : State) (n q cls : Nat) : State :=
  ((s.portSync n).setEmac n { (s.portSync n).emacOf n with want := some (q, cls) }).set (F.EMAC_TXPAUSE_PENDING n) 1

theorem State.pauseWanted_frame (s : State) (n q cls : Nat) :
    ((s.pauseWanted n q cls).emacOf n).want = some (q, cls) ∧ (s.pauseWanted n q cls).on (F.EMAC_TXPAUSE_PENDING n) = true
      ∧ s.keeps (s.pauseWanted n q cls) [F.EMAC_TXPAUSE_PENDING n] ∧ (s.pauseWanted n q cls).mem = s.mem := by
  obtain ⟨hget, hmem, -⟩ := s.portSync_frame n
  refine ⟨by simp [State.pauseWanted, State.emacOf, State.setEmac], ?_, ?_, hmem⟩
  · rw [State.on, State.pauseWanted, State.get_set_same]
    rfl
  · exact State.keeps_set (by simp) fun f _ => hget f

/-- A frame asked for waits while TXEN is 0. -/
theorem State.shpGo_pauseWanted {s : State} {n : Nat} (q cls : Nat) (htx : s.on (F.EMAC_CFG_TXEN n) = false) :
    (s.pauseWanted n q cls).shpGo n = s.pauseWanted n q cls := by
  refine State.shpGo_of_idle (State.canStart_of_txen ?_)
  have hkeep := (s.pauseWanted_frame n q cls).2.2.1
  rw [State.on, hkeep _ (by simp only [List.mem_singleton, forall_eq, F.EMAC_CFG_TXEN, F.EMAC_TXPAUSE_PENDING, mkF]; omega)]
  exact htx

theorem State.txpauseSet_regsOnly (s : State) (n v : Nat) : s.RegsOnly (s.txpauseSet n v) :=
  ((s.set_regsOnly _ _).trans (State.set_regsOnly _ _ _)).trans (State.set_regsOnly _ _ _)

theorem State.keeps_txpauseSet (s : State) (n v : Nat) :
    s.keeps (s.txpauseSet n v) [F.EMAC_TXPAUSE_QUANTA n, F.EMAC_TXPAUSE_CLASSES n, F.EMAC_TXPAUSE_HOLD n] :=
  State.keeps_set (by simp) <| State.keeps_set (by simp) <| State.keeps_set (by simp) (s.keeps_refl _)

/-- Two fields of a register of EMAC are the same when they begin at the same bit. -/
theorem emac_key_ne {n off off' lo lo' : Nat} (h : lo < 32) (h' : lo' < 32) (hne : off ≠ off' ∨ lo ≠ lo') :
    ((0x38 + n) * 65536 + off) * 32 + lo ≠ ((0x38 + n) * 65536 + off') * 32 + lo' := by
  omega

theorem State.txpauseSet_quanta (s : State) (n v : Nat) : (s.txpauseSet n v).get (F.EMAC_TXPAUSE_QUANTA n) = v % 65536 := by
  rw [State.txpauseSet, State.get_set_ne _ _ (emac_key_ne (by decide) (by decide) (by decide)),
    State.get_set_ne _ _ (emac_key_ne (by decide) (by decide) (by decide)), State.get_set_same]
  exact Nat.mod_mod _ _

theorem State.txpauseSet_classes (s : State) (n v : Nat) : (s.txpauseSet n v).get (F.EMAC_TXPAUSE_CLASSES n) = v / 65536 % 256 := by
  rw [State.txpauseSet, State.get_set_ne _ _ (emac_key_ne (by decide) (by decide) (by decide)), State.get_set_same]
  exact Nat.mod_mod _ _

/-- EMAC_CFG is another register than EMAC_TXPAUSE. -/
theorem State.txpauseSet_cfg (s : State) (n v : Nat) :
    (s.txpauseSet n v).get (F.EMAC_CFG_FCMODE n) = s.get (F.EMAC_CFG_FCMODE n)
      ∧ (s.txpauseSet n v).on (F.EMAC_CFG_TXEN n) = s.on (F.EMAC_CFG_TXEN n) := by
  have hkeep := s.keeps_txpauseSet n v
  constructor
  · refine hkeep _ ?_
    simp only [List.mem_cons, List.not_mem_nil, or_false, forall_eq_or_imp, forall_eq]
    exact ⟨emac_key_ne (by decide) (by decide) (by decide), emac_key_ne (by decide) (by decide) (by decide),
      emac_key_ne (by decide) (by decide) (by decide)⟩
  · refine congrArg (· != 0) (hkeep _ ?_)
    simp only [List.mem_cons, List.not_mem_nil, or_false, forall_eq_or_imp, forall_eq]
    exact ⟨emac_key_ne (by decide) (by decide) (by decide), emac_key_ne (by decide) (by decide) (by decide),
      emac_key_ne (by decide) (by decide) (by decide)⟩

/-- The first access error of a window is recorded with its cause. -/
theorem State.errRec_of_first {s : State} (rq : Rq) {w : Nat} (off : Nat) {cause : Nat} (hc : cause < 16)
    (hfirst : s.on (F.ERRINFO_VALID w) = false) :
    (s.errRec rq w off cause).get (F.ERRINFO_CAUSE w) = cause ∧ (s.errRec rq w off cause).get (F.ERRINFO_VALID w) = 1
      ∧ s.RegsOnly (s.errRec rq w off cause) := by
  have herr : s.errRec rq w off cause = s.sets [(F.ERRINFO_CAUSE w, cause), (F.ERRINFO_RQCLASS w, rq.cls), (F.ERRINFO_RQNUM w, rq.num),
      (F.ERRINFO_OFFSET w, off / 4), (F.ERRINFO_VALID w, 1)] := by simp [State.errRec, hfirst]
  have hkey {lo lo' : Nat} (h : lo ≠ lo') : (w * 65536 + 0x2C) * 32 + lo ≠ (w * 65536 + 0x2C) * 32 + lo' := by omega
  rw [herr]
  refine ⟨?_, State.get_set_same _ _ _, s.sets_regsOnly _⟩
  simp only [State.sets, List.foldl_cons, List.foldl_nil]
  iterate 4 rw [State.get_set_ne _ _ (hkey (by decide))]
  rw [State.get_set_same]
  exact Nat.mod_eq_of_lt hc

/-- A pause timer of a class that has run out, on a port that may not send. -/
theorem State.pauseLoad_none (s : State) {n c : Nat} (hc : c < 8) :
    kget ((s.pauseLoad n c 0).emacOf n).pause c = none ∧ bitOf ((s.pauseLoad n c 0).get (F.EMAC_PAUSESTAT_PAUSED n)) c = false
      ∧ s.keeps (s.pauseLoad n c 0) [F.EMAC_PAUSESTAT_PAUSED n] ∧ (s.pauseLoad n c 0).mem = s.mem := by
  have hload : s.pauseLoad n c 0 = (s.setEmac n { s.emacOf n with pause := kdel (s.emacOf n).pause c }).set (F.EMAC_PAUSESTAT_PAUSED n)
      (maskOf (fun k => (kget (kdel (s.emacOf n).pause c) k).isSome) 8) := rfl
  rw [hload]
  refine ⟨by simp [State.emacOf, State.setEmac], ?_, State.keeps_set (by simp) fun _ _ => rfl, rfl⟩
  have hlt : maskOf (fun k => (kget (kdel (s.emacOf n).pause c) k).isSome) 8 < 2 ^ 8 := maskOf_lt _ _
  rw [State.get_set_same, show 2 ^ min (F.EMAC_PAUSESTAT_PAUSED n).len 32 = 2 ^ 8 from rfl, Nat.mod_eq_of_lt hlt, bitOf_maskOf _ hc,
    kget_kdel_same]
  rfl

/-- Bringing credits up to date leaves what keeps EMAC from LPI. -/
theorem State.shpSync_lpiQuiet (s : State) (n : Nat) : (s.shpSync n).lpiQuiet n = s.lpiQuiet n := by
  obtain ⟨cr, mark, hshp⟩ : ∃ cr mark, (s.shpSync n).shpOf n = { s.shpOf n with credit := cr, mark := mark } :=
    ⟨_, _, by
      simp only [State.shpSync, State.shpOf, State.setShp, kget_kset_same, Option.getD_some]
      rfl⟩
  simp only [State.lpiQuiet, State.firstT, hshp]
  rfl

/-- LPI is entered when the port has been idle for IDLE, R299. -/
theorem State.lpiIn_of_idle {s : State} {n : Nat} (hen : s.enabled (W.EMAC n) = true) (heee : s.on (F.EMAC_CFG_EEE n) = true)
    (hmode : s.lpiMode n = true) (hup : s.on (F.EMAC_LINK_UP n) = true) (htx : s.on (F.EMAC_LINK_TXLPI n) = false)
    (hquiet : s.lpiQuiet n = true) (hidle : (s.emacOf n).busyAt + max 1 (s.get (F.EMAC_EEE_IDLE n)) * 1000 ≤ s.tm.mono) :
    s.lpiIn n = ((s.shpSync n).set (F.EMAC_LINK_TXLPI n) 1).emacCnt n 12 := by
  have hsync : s.portSync n = s.shpSync n := by simp [State.portSync, hquiet]
  have hgo : ((s.shpSync n).enabled (W.EMAC n) && (s.shpSync n).on (F.EMAC_CFG_EEE n) && (s.shpSync n).lpiMode n
      && (s.shpSync n).on (F.EMAC_LINK_UP n) && !(s.shpSync n).on (F.EMAC_LINK_TXLPI n) && (s.shpSync n).lpiQuiet n
      && decide (((s.shpSync n).emacOf n).busyAt + max 1 ((s.shpSync n).get (F.EMAC_EEE_IDLE n)) * 1000 ≤ (s.shpSync n).tm.mono)) = true := by
    rw [s.shpSync_lpiQuiet n, hquiet, Bool.and_true, Bool.and_eq_true]
    refine ⟨?_, decide_eq_true hidle⟩
    have hother : (s.enabled (W.EMAC n) && s.on (F.EMAC_CFG_EEE n) && s.lpiMode n && s.on (F.EMAC_LINK_UP n) && !s.on (F.EMAC_LINK_TXLPI n))
        = true := by simp [hen, heee, hmode, hup, htx]
    exact hother
  simp only [State.lpiIn, hsync]
  exact if_pos hgo

/-- A counter that saturates changes no field but its count, its overflow and its event. -/
theorem State.get_bump_ne (s : State) {w off ev : Nat} {f : Fld} (hcnt : f.key ≠ (mkF w off 0 31 0).key)
    (hovf : f.key ≠ (mkF w off 31 1 0).key) (hev : f.key ≠ (F.EV_RAW w ev).key) : (s.bump w off ev).get f = s.get f :=
  State.keeps_bump (l := [mkF w off 0 31 0, mkF w off 31 1 0, F.EV_RAW w ev]) (by simp) (by simp) (by simp) (s.keeps_refl _) f
    (by simp [hcnt, hovf, hev])

/-- Settles O51: a port that may not send starts nothing, so each command does what it says and no more. -/
theorem flowControlAndLpi : Obligations.FlowControlAndLpi := by
  unfold Obligations.FlowControlAndLpi
  refine ⟨fun s n c x hn hc hx hle hmode htx => ⟨_, rfl, ?_⟩, fun s rq n v hn hon hdbg hsend hmode htx => ⟨_, rfl, ?_⟩,
    fun s rq n v hn hon hdbg hsend hmode hfirst => ⟨_, rfl, ?_⟩, fun s n a b x hn hsent hhold ha hwant hle htx => ⟨_, rfl, ?_⟩,
    fun s n hn hen heee hmode hup htx hquiet hidle => ⟨_, rfl, ?_⟩, fun s n hn hbusy hquiet => ⟨_, rfl, ?_⟩,
    fun s n hn htx hquiet => ⟨_, rfl, ?_⟩, fun s n b hn hup => ⟨_, rfl, ?_⟩⟩
  · obtain ⟨hget, hmem, -⟩ := s.portSync_frame n
    obtain ⟨hnone, hbit, hkeep, hmem'⟩ := (s.portSync n).pauseLoad_none (n := n) hc
    have htx' : ((s.portSync n).pauseLoad n c 0).on (F.EMAC_CFG_TXEN n) = false := by
      have hne : (F.EMAC_CFG_TXEN n).key ≠ (F.EMAC_PAUSESTAT_PAUSED n).key := emac_key_ne (by decide) (by decide) (by decide)
      rw [State.on, hkeep _ (by simp only [List.mem_singleton, forall_eq]; exact hne), hget]
      exact htx
    have hm1 : s.get (F.EMAC_CFG_FCMODE n) ≠ 1 := by omega
    simp only [if_pos hn, hx, if_pos hle, if_neg hm1, State.shpGo_of_idle (State.canStart_of_txen htx')]
    exact ⟨hnone, hbit, State.keeps_trans (fun f _ => hget f) hkeep, hmem'.trans hmem⟩
  · obtain ⟨hmode', htx'⟩ := s.txpauseSet_cfg n v.toNat
    have hask : (s.txpauseSet n v.toNat).pauseAsk rq n = (s.txpauseSet n v.toNat).pauseWanted n (v.toNat % 65536) (v.toNat / 65536 % 256) := by
      have hne : ¬ (s.txpauseSet n v.toNat).get (F.EMAC_CFG_FCMODE n) = 0 := by omega
      obtain ⟨hget, -⟩ := (s.txpauseSet n v.toNat).portSync_frame n
      rw [State.pauseAsk, if_neg hne, ← State.shpGo_pauseWanted _ _ (htx'.trans htx), State.pauseWanted]
      simp only [hget, State.txpauseSet_quanta, State.txpauseSet_classes]
    rw [Nat.mod_eq_of_lt hn, State.put_txpause hn hon hdbg hsend, hask]
    obtain ⟨hwant, hpend, hkeep, hmem⟩ := (s.txpauseSet n v.toNat).pauseWanted_frame n (v.toNat % 65536) (v.toNat / 65536 % 256)
    exact ⟨hwant, hpend, State.keeps_answer _ (State.keeps_trans (State.keeps_mono (s.keeps_txpauseSet n v.toNat) (by simp))
      (State.keeps_mono hkeep (by simp))), hmem.trans (s.txpauseSet_regsOnly n v.toNat).mem⟩
  · obtain ⟨hmode', -⟩ := s.txpauseSet_cfg n v.toNat
    have hfirst' : (s.txpauseSet n v.toNat).on (F.ERRINFO_VALID (W.EMAC n)) = false := by
      refine (congrArg (· != 0) (s.keeps_txpauseSet n v.toNat _ ?_)).trans hfirst
      simp only [List.mem_cons, List.not_mem_nil, or_false, forall_eq_or_imp, forall_eq]
      exact ⟨emac_key_ne (by decide) (by decide) (by decide), emac_key_ne (by decide) (by decide) (by decide),
        emac_key_ne (by decide) (by decide) (by decide)⟩
    obtain ⟨hcause, hvalid, hr⟩ := State.errRec_of_first rq 0x70 (by decide : 4 < 16) hfirst'
    rw [Nat.mod_eq_of_lt hn, State.put_txpause hn hon hdbg hsend, State.pauseAsk, if_pos (hmode'.trans hmode)]
    have hall := (s.txpauseSet_regsOnly n v.toNat).trans hr
    exact ⟨by rw [State.emacOf, State.emacOf]; exact congrArg (fun e => (kget e n).getD emac0) hall.emac, hcause, hvalid, hall.mem⟩
  · have hgo : (s.on (F.EMAC_TXPAUSE_HOLD n) && decide (0 < a) && (s.emacOf n).want.isNone
        && decide (x * 65536 + s.quanta16 n a / 2 ≤ s.el)) = true := by simp [hhold, ha, hwant, hle]
    have hagain : s.pauseAgain n = s.pauseWanted n a b := by
      simp only [State.pauseAgain, hsent]
      rw [if_pos hgo, ← State.shpGo_pauseWanted a b htx]
      rfl
    rw [if_pos hn, hagain]
    exact s.pauseWanted_frame n a b
  · rw [if_pos hn, State.lpiIn_of_idle hen heee hmode hup htx hquiet hidle]
    have hr := State.bump_regsOnly ((s.shpSync n).set (F.EMAC_LINK_TXLPI n) 1) (W.EMAC n) (0x1C0 + 4 * 12) E.EMAC_CNTSAT
    refine ⟨?_, ?_, hr.mem⟩
    · rw [State.on, State.emacCnt, State.get_bump_ne _ (emac_key_ne (by decide) (by decide) (by decide))
        (emac_key_ne (by decide) (by decide) (by decide)) (emac_key_ne (by decide) (by decide) (by decide)), State.get_set_same]
      rfl
    · exact State.keeps_bump (by simp) (by simp) (by simp) (State.keeps_set (by simp) fun _ _ => rfl)
  · have hsync : s.portSync n = s.shpSync n := by simp [State.portSync, hquiet]
    have hstay : s.lpiIn n = s.shpSync n := by
      have hno : decide (((s.shpSync n).emacOf n).busyAt + max 1 ((s.shpSync n).get (F.EMAC_EEE_IDLE n)) * 1000 ≤ (s.shpSync n).tm.mono) = false :=
        decide_eq_false (Nat.not_le.mpr hbusy)
      simp only [State.lpiIn, hsync, hno, Bool.and_false, Bool.false_eq_true, if_false]
    rw [if_pos hn, hstay]
    exact ⟨rfl, fun _ _ => rfl, rfl⟩
  · obtain ⟨hget, hmem, htm, -⟩ := s.portSync_frame n
    have hout : s.lpiOut n = ((s.portSync n).setEmac n { (s.portSync n).emacOf n with
        wake := (s.portSync n).tm.mono + 1000 * max ((s.portSync n).get (F.EMAC_EEE_TWSYS n))
          (Config.wakeMin ((s.portSync n).get (F.LANE_MODE_MODE n))) }).set (F.EMAC_LINK_TXLPI n) 0 := by
      simp only [State.lpiOut, htx, hquiet]
      rfl
    rw [if_pos hn, hout]
    refine ⟨?_, ?_, State.keeps_set (by simp) fun f _ => hget f, hmem⟩
    · rw [State.on, State.get_set_same]
      rfl
    · simp only [State.emacOf, State.setEmac, State.set_emac, kget_kset_same, Option.getD_some, hget, htm]
      have := Nat.le_max_left (s.get (F.EMAC_EEE_TWSYS n)) (Config.wakeMin (s.get (F.LANE_MODE_MODE n)))
      omega
  · rw [hup, decide_eq_true hn, Bool.and_self, if_pos rfl]
    refine ⟨?_, State.keeps_set (by simp) (s.keeps_refl _), rfl⟩
    rw [State.on, State.get_set_same]
    cases b <;> rfl

end Sys2Proof.Machine
end


section
/-!
A refutation by a concrete state: ENABLE listed with its reset value when DOMREQ 0b11 is written.
-/

namespace Sys2Proof.Machine

/-- SYS's ENABLE is listed with the value it resets to. -/
def listedEnableState : State :=
  { State.reset with regs := [((F.CTRL_ENABLE W.SYS).key, 0)] }

/-- Refutes O14: a write with DOMREQ 0b11 writes ENABLE its value again, and what reads at its place falls back to the reset value. -/
theorem not_lockEventsEnable : ¬ Obligations.LockEventsEnable := by
  unfold Obligations.LockEventsEnable
  rintro ⟨-, -, -, -, hreserved⟩
  have h := (hreserved listedEnableState ⟨0, 0⟩ W.SYS 12 (by decide) (by decide) (by decide) (by decide) (by decide)
    (by decide)).of_exec rfl
  obtain ⟨-, -, -, hkeep, -⟩ := h
  exact absurd (hkeep { F.CTRL_ENABLE W.SYS with rst := 1 } (by decide)) (by decide)

end Sys2Proof.Machine
end


section
/-!
The table of the supply path, R45 and R47.
-/

namespace Sys2Proof.Machine

/-! A level of the supply monitors -/

@[simp] theorem State.supPin_env (s : State) (f : Fld) (v : Bool) (ev : Nat) : (s.supPin f v ev).env = s.env := by simp [State.supPin]
@[simp] theorem State.supPin_mem (s : State) (f : Fld) (v : Bool) (ev : Nat) : (s.supPin f v ev).mem = s.mem := by simp [State.supPin]

theorem State.get_supPin_ne (s : State) {f g : Fld} (v : Bool) {ev : Nat} (hf : g.key ≠ f.key)
    (hev : g.key ≠ (F.EV_RAW W.PINS ev).key) : (s.supPin f v ev).get g = s.get g := by
  have hset : (s.set f (b2n v)).get g = s.get g := s.get_set_ne _ hf
  unfold State.supPin State.raiseIf
  split
  · rwa [State.get_raise_ne _ _ _ hev]
  · exact hset

theorem State.keeps_supPin {s t : State} {l : List Fld} {f : Fld} {v : Bool} {ev : Nat} (hf : f ∈ l)
    (hev : F.EV_RAW W.PINS ev ∈ l) (h : s.keeps t l) : s.keeps (t.supPin f v ev) l :=
  State.keeps_raiseIf hev (State.keeps_set hf h)

/-- A level written reads back. -/
theorem State.on_supPin (s : State) {f : Fld} (v : Bool) {ev : Nat} (hlen : f.len = 1) (hev : f.key ≠ (F.EV_RAW W.PINS ev).key) :
    (s.supPin f v ev).on f = v := by
  have hset : (s.set f (b2n v)).get f = b2n v := by
    rw [State.get_set_same, hlen]
    cases v <;> rfl
  have hget : (s.supPin f v ev).get f = b2n v := by
    unfold State.supPin State.raiseIf
    split
    · rwa [State.get_raise_ne _ _ _ hev]
    · exact hset
  rw [State.on, hget]
  cases v <;> rfl

/-! The path moves -/

@[simp] theorem State.supTo_env (s : State) (p : SupPath) :
    (s.supTo p).env = { s.env with path := p, timer := p == SupPath.bridging } := rfl

@[simp] theorem State.supTo_mem (s : State) (p : SupPath) : (s.supTo p).mem = s.mem := rfl

theorem State.supTo_source (s : State) (p : SupPath) : (s.supTo p).get F.PINS_SUPPLY_SOURCE = p.source := by
  rw [State.supTo, State.get_set_same]
  cases p <;> rfl

theorem State.get_supTo_ne (s : State) (p : SupPath) {f : Fld} (h : f.key ≠ F.PINS_SUPPLY_SOURCE.key) :
    (s.supTo p).get f = s.get f :=
  State.get_set_ne _ _ h

theorem State.keeps_supTo {s t : State} {l : List Fld} {p : SupPath} (hf : F.PINS_SUPPLY_SOURCE ∈ l) (h : s.keeps t l) :
    s.keeps (t.supTo p) l :=
  State.keeps_set hf (State.keeps_congr (t := t) rfl rfl h)

/-- After the hand-over the bridge is a change of the path alone. -/
theorem State.bridge_of_handed {s : State} (h : s.env.phase ≠ .boot) : s.bridge = s.supTo .bridging := by
  have hphase : ((s.supTo .bridging).env.phase ≠ .boot || (s.supTo .bridging).dev = 1) = true := by simp [h]
  exact if_pos hphase

/-! The rows of the table -/

theorem State.mainsLoss_of_backup {s : State} (hpath : s.env.path = .onMains) (hback : s.backupOk = true) :
    s.mainsLoss = (s.supPin F.PINS_SUPPLY_MAINS_OK false E.PINS_MAINS_LOSS).supTo .onBackup := by
  have hback' : (s.supPin F.PINS_SUPPLY_MAINS_OK false E.PINS_MAINS_LOSS).backupOk = true := by
    rwa [State.backupOk, State.on, State.get_supPin_ne _ _ (by decide) (by decide)]
  simp only [State.mainsLoss, State.supPin_env, hpath, hback', if_true]

theorem State.mainsLoss_of_no_backup {s : State} (hpath : s.env.path = .onMains) (hback : s.backupOk = false) (hphase : s.env.phase ≠ .boot) :
    s.mainsLoss = (s.supPin F.PINS_SUPPLY_MAINS_OK false E.PINS_MAINS_LOSS).supTo .bridging := by
  have hback' : (s.supPin F.PINS_SUPPLY_MAINS_OK false E.PINS_MAINS_LOSS).backupOk = false := by
    rwa [State.backupOk, State.on, State.get_supPin_ne _ _ (by decide) (by decide)]
  simp only [State.mainsLoss, State.supPin_env, hpath, hback', Bool.false_eq_true, if_false]
  exact State.bridge_of_handed (by simpa using hphase)

theorem State.mainsGood_of_running {s : State} (hpath : s.env.path = .bridging ∨ s.env.path = .onBackup) :
    s.mainsGood = (s.supPin F.PINS_SUPPLY_MAINS_OK true E.PINS_MAINS_RETURN).supTo .onMains := by
  obtain hpath | hpath := hpath <;> simp only [State.mainsGood, State.supPin_env, hpath]

theorem State.backupGood_of_bridging {s : State} (v : Nat) (hpath : s.env.path = .bridging) :
    s.backupGood v = ((s.set F.PINS_SUPPLY_BATV v).supPin F.PINS_SUPPLY_BACKUP_OK true E.PINS_BACKUP_RETURN).supTo .onBackup := by
  simp only [State.backupGood, State.supPin_env, State.set_env, hpath]

theorem State.backupLoss_of_no_mains {s : State} (v : Nat) (hpath : s.env.path = .onBackup) (hmains : s.mainsOk = false)
    (hphase : s.env.phase ≠ .boot) :
    s.backupLoss v = ((s.set F.PINS_SUPPLY_BATV v).supPin F.PINS_SUPPLY_BACKUP_OK false E.PINS_BACKUP_LOSS).supTo .bridging := by
  have hmains' : ((s.set F.PINS_SUPPLY_BATV v).supPin F.PINS_SUPPLY_BACKUP_OK false E.PINS_BACKUP_LOSS).mainsOk = false := by
    rwa [State.mainsOk, State.on, State.get_supPin_ne _ _ (by decide) (by decide), State.get_set_ne _ _ (by decide)]
  simp only [State.backupLoss, State.supPin_env, State.set_env, hpath, hmains', Bool.false_eq_true, if_true, if_false]
  exact State.bridge_of_handed (by simpa using hphase)

theorem State.keeps_dieOff {s t : State} {l : List Fld} (p : Phase) (life : Nat) (hidle : ∀ n < 8, F.LANE_STAT_IDLE n ∈ l)
    (h : s.keeps t l) : s.keeps (t.dieOff p life) l := fun f hf =>
  (t.get_dieOff_ne p life fun n hn => hf _ (hidle n (List.mem_range.mp hn))).trans (h f hf)

/-- The die going off silences PPS_OUT and every transmitter. -/
theorem State.dieOff_silent (s : State) (p : Phase) (life : Nat) :
    (s.dieOff p life).tm.ppsOut = false ∧ (s.dieOff p life).mphy = State.reset.mphy ∧ (s.dieOff p life).wl = State.reset.wl :=
  ⟨rfl, rfl, rfl⟩

/-- BATV written before a level of the backup reads back. -/
theorem State.batv_supPin_supTo (s : State) {v : Nat} (hv : v < 4096) (ok : Bool) (p : SupPath) {ev : Nat} (hev : ev < 32) :
    (((s.set F.PINS_SUPPLY_BATV v).supPin F.PINS_SUPPLY_BACKUP_OK ok ev).supTo p).get F.PINS_SUPPLY_BATV = v := by
  have hkey : F.PINS_SUPPLY_BATV.key ≠ (F.EV_RAW W.PINS ev).key := by
    simp only [F.PINS_SUPPLY_BATV, F.EV_RAW, mkF, W.PINS]
    omega
  rw [State.get_supTo_ne _ _ (by decide), State.get_supPin_ne _ _ (by decide) hkey, State.get_set_same]
  exact Nat.mod_eq_of_lt hv

/-- Settles O9: each row of the table moves the path, its timer and SOURCE, and a level of the monitors follows its pin. -/
theorem supplyPathTable : Obligations.SupplyPathTable := by
  unfold Obligations.SupplyPathTable
  refine ⟨fun s hpath hback => ⟨_, rfl, ?_⟩, fun s hpath hback hphase => ⟨_, rfl, ?_⟩, fun s hpath => ⟨_, rfl, ?_⟩,
    fun s hpath => ⟨_, rfl, ?_⟩, fun s v hpath hv => ⟨_, rfl, ?_⟩, fun s v hpath hmains hphase hv => ⟨_, rfl, ?_⟩, fun s hpath => ⟨_, rfl, ?_⟩⟩
  · rw [State.mainsLoss_of_backup hpath hback]
    refine ⟨rfl, rfl, ?_, State.supTo_source _ _, State.keeps_supTo (by simp) (State.keeps_supPin (by simp) (by simp) (s.keeps_refl _)), by simp⟩
    rw [State.mainsOk, State.on, State.get_supTo_ne _ _ (by decide)]
    exact State.on_supPin _ _ rfl (by decide)
  · rw [State.mainsLoss_of_no_backup hpath hback hphase]
    refine ⟨rfl, rfl, ?_, State.supTo_source _ _, State.keeps_supTo (by simp) (State.keeps_supPin (by simp) (by simp) (s.keeps_refl _)), by simp⟩
    rw [State.mainsOk, State.on, State.get_supTo_ne _ _ (by decide)]
    exact State.on_supPin _ _ rfl (by decide)
  · rw [State.mainsGood_of_running hpath]
    refine ⟨rfl, rfl, ?_, State.supTo_source _ _, State.keeps_supTo (by simp) (State.keeps_supPin (by simp) (by simp) (s.keeps_refl _)), by simp⟩
    rw [State.mainsOk, State.on, State.get_supTo_ne _ _ (by decide)]
    exact State.on_supPin _ _ rfl (by decide)
  · rw [if_pos hpath]
    exact ⟨rfl, rfl, State.supTo_source _ _, State.keeps_supTo (by simp) (s.keeps_refl _), rfl⟩
  · rw [State.backupGood_of_bridging v hpath]
    refine ⟨rfl, rfl, ?_, State.supTo_source _ _, State.batv_supPin_supTo s hv true .onBackup (by decide),
      State.keeps_supTo (by simp) (State.keeps_supPin (by simp) (by simp) (State.keeps_set (by simp) (s.keeps_refl _))), by simp⟩
    rw [State.backupOk, State.on, State.get_supTo_ne _ _ (by decide)]
    exact State.on_supPin _ _ rfl (by decide)
  · rw [State.backupLoss_of_no_mains v hpath hmains hphase]
    refine ⟨rfl, rfl, ?_, State.supTo_source _ _, State.batv_supPin_supTo s hv false .bridging (by decide),
      State.keeps_supTo (by simp) (State.keeps_supPin (by simp) (by simp) (State.keeps_set (by simp) (s.keeps_refl _))), by simp⟩
    rw [State.backupOk, State.on, State.get_supTo_ne _ _ (by decide)]
    exact State.on_supPin _ _ rfl (by decide)
  · rw [State.storeEnd, if_pos hpath]
    obtain ⟨hpps, hmphy, hwl⟩ := State.dieOff_silent (s.supTo .off) .off 0
    obtain ⟨-, -, -, hmem⟩ := State.dieOff_frame (s.supTo .off) .off 0
    refine ⟨by simp, by simp, by simp [State.live], hpps, by simp [hmphy, State.reset], by simp [hmphy, State.reset],
      by simp [hwl, State.reset], State.keeps_dieOff _ _ (fun n hn => ?_) (State.keeps_supTo (by simp) (s.keeps_refl _)), hmem⟩
    exact List.mem_cons_of_mem _ (List.mem_map_of_mem (List.mem_range.mpr hn))

end Sys2Proof.Machine
end


section
/-!
Accesses of part of a word, and accesses that find nothing live: R57, R70, R71.
-/

namespace Sys2Proof.Machine

@[simp] theorem State.answer_mem (s : State) (v : Nat) : (s.answer v).mem = s.mem := rfl
@[simp] theorem State.get_answer (s : State) (v : Nat) (f : Fld) : (s.answer v).get f = s.get f := rfl
@[simp] theorem State.answerErr_mem (s : State) (rq : Rq) (dark : Bool) : (s.answerErr rq dark).mem = s.mem := rfl
@[simp] theorem State.get_answerErr (s : State) (rq : Rq) (dark : Bool) (f : Fld) : (s.answerErr rq dark).get f = s.get f := rfl

/-! The first error of a window -/

theorem State.errRec_eq_sets {s : State} (rq : Rq) {w : Nat} (off cause : Nat) (hfirst : s.on (F.ERRINFO_VALID w) = false) :
    s.errRec rq w off cause = s.sets [(F.ERRINFO_CAUSE w, cause), (F.ERRINFO_RQCLASS w, rq.cls), (F.ERRINFO_RQNUM w, rq.num),
      (F.ERRINFO_OFFSET w, off / 4), (F.ERRINFO_VALID w, 1)] := by
  simp [State.errRec, hfirst]

/-- The first error records the offset of its word. -/
theorem State.errRec_offset {s : State} (rq : Rq) {w off cause : Nat} (hoff : off < 65536) (hfirst : s.on (F.ERRINFO_VALID w) = false) :
    (s.errRec rq w off cause).get (F.ERRINFO_OFFSET w) = off / 4 := by
  have hne : (F.ERRINFO_OFFSET w).key ≠ (F.ERRINFO_VALID w).key := by
    simp only [F.ERRINFO_OFFSET, F.ERRINFO_VALID, mkF]
    omega
  have hlt : off / 4 < 2 ^ min (F.ERRINFO_OFFSET w).len 32 := by
    have hword : off / 4 < 2 ^ 14 := by omega
    exact hword
  rw [State.errRec_eq_sets rq off cause hfirst]
  simp only [State.sets, List.foldl_cons, List.foldl_nil]
  rw [State.get_set_ne _ _ hne, State.get_set_same, Nat.mod_eq_of_lt hlt]

/-- The registers of a window that an error of it writes. -/
def errRegs (w : Nat) : List Fld := [F.ERRINFO_CAUSE w, F.ERRINFO_RQCLASS w, F.ERRINFO_RQNUM w, F.ERRINFO_OFFSET w, F.ERRINFO_VALID w]

theorem State.keeps_errRec (s : State) (rq : Rq) (w off cause : Nat) : s.keeps (s.errRec rq w off cause) (errRegs w) := by
  unfold State.errRec
  split
  · exact s.keeps_refl _
  · exact State.keeps_sets (by simp [errRegs]) (s.keeps_refl _)

/-- An error of a window leaves its EV_MASK. -/
theorem State.get_errRec_mask (s : State) (rq : Rq) (w off cause : Nat) : (s.errRec rq w off cause).get (F.EV_MASK w) = s.get (F.EV_MASK w) := by
  refine s.keeps_errRec rq w off cause _ fun g hg => ?_
  simp only [errRegs, List.mem_cons, List.not_mem_nil, or_false] at hg
  obtain rfl | rfl | rfl | rfl | rfl := hg <;> simp only [F.EV_MASK, F.ERRINFO_CAUSE, F.ERRINFO_RQCLASS, F.ERRINFO_RQNUM,
    F.ERRINFO_OFFSET, F.ERRINFO_VALID, mkF] <;> omega

/-! An octet or a half of a word of the page header -/

/-- An aligned access of one or two octets is one to the word that holds them. -/
theorem State.regAcc_part (s : State) (f : State → Rq → Nat → Nat → Nat → State) (rq : Rq) {w off n : Nat} (wr : Bool) (v : Nat)
    (hw : w < 0x1000) (ho : off < 65536) (hn : n = 1 ∨ n = 2) (ha : off % n = 0) : s.regAcc f rq (regAddr w off) n wr v =
      if wr then (s.errRec rq w off 2).answer 0 else s.regRead rq w (off / 4 * 4) (8 * (off % 4)) (8 * n) := by
  have haddr : regAddr w off % n = 0 := by
    unfold regAddr
    obtain rfl | rfl := hn <;> omega
  have h8 : n ≠ 8 := by omega
  have h4 : n ≠ 4 := by omega
  simp [State.regAcc, haddr, h8, h4, regWin_regAddr hw ho, regAddr_mod ho]

/-- An access to the page header of a window of a running die is one to its registers. -/
theorem State.access_hdr {s : State} (rq : Rq) {w off n : Nat} (wr : Bool) (v : Nat) (u : Upset) (hlive : s.live = true)
    (hw : winOk w = true) (hdbg : rq.cls = 2 → s.dbgLevel = 2) (hn : n ≠ 0) (ho : off < 0x40) :
    s.access rq (regAddr w off) n wr v u = (s.regAcc State.regWrite rq (regAddr w off) n wr v).engAns rq := by
  have hmay : (decide (rq.cls = 2) && !s.dbgMay (regAddr w off) wr) = false := by
    by_cases hc : rq.cls = 2
    · simp [State.dbgMay_regAddr wr (hdbg hc)]
    · simp [hc]
  have hoff : off < 65536 := by omega
  have hraw : s.accRaw State.regWrite rq (regAddr w off) n wr v u = s.regAcc State.regWrite rq (regAddr w off) n wr v := by
    simp only [State.accRaw, s.darkAt_regAddr_eq_none rq wr hw hoff (.inl ho), inRegs_regAddr hoff, if_true]
  simp [State.access, State.accessBy, hlive, hn, hmay, hraw]

/-- The command of an access to part of EV_MASK is one to the registers of the window. -/
theorem State.execSubword_hdr {s : State} (rq : Rq) {w o n : Nat} (wr : Bool) (hlive : s.live = true) (hw : winOk w = true)
    (hdbg : rq.cls = 2 → s.dbgLevel = 2) (hn : n = 1 ∨ n = 2) (ho : o + n ≤ 4) (ha : o % n = 0) :
    (if inRegs (regAddr w (0x14 + o)) && (n == 1 || n == 2 || regAddr w (0x14 + o) % max 1 n != 0)
      then s.access rq (regAddr w (0x14 + o)) n wr 0 .none else s) =
    (if wr then (s.errRec rq w (0x14 + o) 2).answer 0
      else s.regRead rq w ((0x14 + o) / 4 * 4) (8 * ((0x14 + o) % 4)) (8 * n)).engAns rq := by
  have hoff : 0x14 + o < 65536 := by omega
  have hgo : (inRegs (regAddr w (0x14 + o)) && (n == 1 || n == 2 || regAddr w (0x14 + o) % max 1 n != 0)) = true := by
    obtain rfl | rfl := hn <;> simp [inRegs_regAddr hoff]
  have hal : (0x14 + o) % n = 0 := by obtain rfl | rfl := hn <;> omega
  have hlt : w < 0x1000 := lt_trans (winOk_lt hw) (by decide)
  rw [if_pos hgo, State.access_hdr rq wr 0 .none hlive hw hdbg (by omega) (by omega), State.regAcc_part s _ rq wr 0 hlt hoff hn hal]

theorem regAt_mask : ∀ w < 0x53, regAt w 0x14 = none := by decide

/-- A read of EV_MASK answers its bits and does nothing else. -/
theorem State.regRead_mask (s : State) (rq : Rq) {w : Nat} (lo n : Nat) (hw : winOk w = true) :
    s.regRead rq w 0x14 lo n = s.answer (s.get (F.EV_MASK w) / 2 ^ lo % 2 ^ n) := by
  have hnone := regAt_mask w (winOk_lt hw)
  simp [State.regRead, multiOf_of_reserved (by decide : 0x14 % 4 = 0) hnone, freeRead_of_reserved hnone, State.regWord, State.hdrRead,
    s.rcClear_of_reserved lo n hnone, hnone]

/-! Accesses that find nothing live -/

/-- An access of a requester other than an engine and the debug port that finds nothing live is recorded and answered. -/
theorem State.access_of_dark {s : State} {rq : Rq} {a k : Nat} {wr : Bool} (v : Nat) (u : Upset) (hlive : s.live = true) (heng : rq.cls ≠ 1)
    (hport : rq.cls ≠ 2) (hdark : s.darkAt rq a wr = some k) : s.access rq a 4 wr v u = (s.darkRec rq a k).answerErr rq true := by
  simp [State.access, State.accessBy, hlive, heng, hport, State.accRaw, hdark, State.engAns]

theorem State.darkRec_regsOnly (s : State) (rq : Rq) (a k : Nat) : s.RegsOnly (s.darkRec rq a k) := by
  unfold State.darkRec
  split
  · exact s.set_regsOnly _ _
  · exact s.sets_regsOnly _

theorem State.darkRec_of_first {s : State} (rq : Rq) (a k : Nat) (hfirst : s.on F.PWR_STATUS_DARKACC = false) :
    s.darkRec rq a k = s.sets [(F.PWR_DARKADDR_PAGE, a / 4096), (F.PWR_DARKADDR_RQCLASS, rq.cls), (F.PWR_DARKADDR_KIND, k),
      (F.PWR_STATUS_DARKACC, 1)] := by
  simp [State.darkRec, hfirst]

theorem State.darkRec_of_later {s : State} (rq : Rq) (a k : Nat) (hlater : s.on F.PWR_STATUS_DARKACC = true) :
    s.darkRec rq a k = s.set F.PWR_STATUS_DARKOVF 1 := by
  simp [State.darkRec, hlater]

/-- The registers of PWR that a dark access writes. -/
def darkRegs : List Fld :=
  [F.PWR_DARKADDR_PAGE, F.PWR_DARKADDR_RQCLASS, F.PWR_DARKADDR_KIND, F.PWR_STATUS_DARKACC, F.PWR_STATUS_DARKOVF]

theorem State.keeps_darkRec (s : State) (rq : Rq) (a k : Nat) : s.keeps (s.darkRec rq a k) darkRegs := by
  unfold State.darkRec
  split
  · exact State.keeps_set (by simp [darkRegs]) (s.keeps_refl _)
  · exact State.keeps_sets (by simp [darkRegs]) (s.keeps_refl _)

/-- The policy of bus errors is not in the record of a dark access. -/
theorem State.busErrs_darkRec (s : State) (rq : Rq) (a k : Nat) : (s.darkRec rq a k).busErrs rq = s.busErrs rq := by
  have hk := s.keeps_darkRec rq a k
  unfold State.busErrs State.on
  rw [hk F.SYS_ERRPOL_CORES (by decide), hk F.SYS_ERRPOL_ENGINES (by decide), hk F.SYS_ERRPOL_DEBUG (by decide),
    hk F.SYS_ERRPOL_INTERNAL (by decide)]

/-- The first dark access records its kind and its page. -/
theorem State.darkRec_first_get {s : State} (rq : Rq) {a : Nat} (ha : a < 2 ^ 40) (hfirst : s.on F.PWR_STATUS_DARKACC = false) :
    (s.darkRec rq a 1).get F.PWR_STATUS_DARKACC = 1 ∧ (s.darkRec rq a 1).get F.PWR_DARKADDR_KIND = 1
      ∧ (s.darkRec rq a 1).get F.PWR_DARKADDR_PAGE = a / 4096 := by
  rw [State.darkRec_of_first rq a 1 hfirst]
  simp only [State.sets, List.foldl_cons, List.foldl_nil]
  refine ⟨State.get_set_same _ _ _, ?_, ?_⟩
  · rw [State.get_set_ne _ _ (by decide), State.get_set_same]
    rfl
  · rw [State.get_set_ne _ _ (by decide), State.get_set_ne _ _ (by decide), State.get_set_ne _ _ (by decide), State.get_set_same]
    have hlt : a / 4096 < 2 ^ 28 := by omega
    exact Nat.mod_eq_of_lt hlt

/-- Settles O13: a write of part of a word is an error of its window, a read of one answers its bits, and an access that finds
nothing live is recorded by PWR and answers 0. -/
theorem subwordAndDark : Obligations.SubwordAndDark := by
  unfold Obligations.SubwordAndDark
  refine ⟨fun s rq w o n hlive hw hdbg hn ho ha hfirst => ⟨_, rfl, ?_⟩, fun s rq w o n hlive hw hdbg hn ho ha => ⟨_, rfl, ?_⟩,
    fun s rq a wr hlive heng hport hdark ha hfirst => ⟨_, rfl, ?_⟩, fun s rq a wr hlive heng hport hdark hlater => ⟨_, rfl, ?_⟩⟩
  · rw [State.execSubword_hdr rq true hlive hw hdbg hn ho ha, if_pos rfl, State.engAns_answer]
    obtain ⟨hcause, hvalid, hr⟩ := State.errRec_of_first rq (0x14 + o) (by decide : 2 < 16) hfirst
    have hoff : (s.errRec rq w (0x14 + o) 2).get (F.ERRINFO_OFFSET w) = (0x14 + o) / 4 := State.errRec_offset rq (by omega) hfirst
    exact ⟨hcause, hvalid, hoff.trans (by omega), s.get_errRec_mask rq w _ _, s.keeps_errRec rq w _ _, hr.mem⟩
  · rw [State.execSubword_hdr rq false hlive hw hdbg hn ho ha, if_neg Bool.false_ne_true]
    have hword : (0x14 + o) / 4 * 4 = 0x14 := by omega
    have hoct : (0x14 + o) % 4 = o := by omega
    rw [hword, hoct, s.regRead_mask rq _ _ hw, State.engAns_answer]
    exact ⟨rfl, rfl, fun _ _ => rfl, rfl⟩
  · rw [hdark, Option.isSome_some, if_pos rfl, State.access_of_dark 0 .none hlive heng hport hdark]
    obtain ⟨hacc, hkind, hpage⟩ := State.darkRec_first_get rq ha hfirst
    refine ⟨rfl, s.busErrs_darkRec rq a 1, hacc, hkind, hpage, ?_, (s.darkRec_regsOnly rq a 1).mem⟩
    rw [State.darkRec_of_first rq a 1 hfirst]
    exact State.keeps_sets (by simp) (s.keeps_refl _)
  · rw [hdark, Option.isSome_some, if_pos rfl, State.access_of_dark 0 .none hlive heng hport hdark]
    refine ⟨rfl, s.busErrs_darkRec rq a 0, ?_, ?_, (s.darkRec_regsOnly rq a 0).mem⟩
    · rw [State.get_answerErr, State.darkRec_of_later rq a 0 hlater]
      exact State.get_set_same _ _ _
    · rw [State.darkRec_of_later rq a 0 hlater]
      exact State.keeps_set (by simp) (s.keeps_refl _)

end Sys2Proof.Machine
end


section
/-!
The residency counters of PWR, two words each, R75 and R369.
-/

namespace Sys2Proof.Machine

/-! A word read -/

/-- A word read at a live register. -/
theorem State.access_read {s : State} {rq : Rq} {w off : Nat} (v : Nat) (u : Upset) (hw : winOk w = true) (ho : off < 65536) (h4 : off % 4 = 0)
    (hon : s.live = true ∧ (off < 0x40 ∨ s.winOn w = true)) (hdbg : rq.cls = 2 → s.dbgLevel = 2) :
    s.access rq (regAddr w off) 4 false v u = (s.regRead rq w off 0 32).engAns rq := by
  have hmay : (decide (rq.cls = 2) && !s.dbgMay (regAddr w off) false) = false := by
    by_cases hc : rq.cls = 2
    · simp [State.dbgMay_regAddr false (hdbg hc)]
    · simp [hc]
  have hraw : s.accRaw State.regWrite rq (regAddr w off) 4 false v u = s.regRead rq w off 0 32 := by
    simp only [State.accRaw, s.darkAt_regAddr_eq_none rq false hw ho hon.2, inRegs_regAddr ho, if_true,
      s.regAcc_word _ rq false v (lt_trans (winOk_lt hw) (by decide)) ho h4, Bool.false_eq_true, if_false]
  simp [State.access, State.accessBy, hon.1, hmay, hraw]

/-- No field of a register is cleared by a read of it. -/
def keptByReads (w off : Nat) : Bool :=
  match regAt w off with
  | none => true
  | some (r, _) => r.flds.all fun f => f.acc != .rc

theorem State.rcClear_of_kept (s : State) {w off : Nat} (lo n : Nat) (h : keptByReads w off = true) : s.rcClear w off lo n = s := by
  unfold keptByReads at h
  unfold State.rcClear
  split
  · rfl
  next r j hr =>
    simp only [hr, List.all_eq_true, bne_iff_ne, ne_eq] at h
    exact List.foldlRecOn (motive := fun t => t = s) _ _ rfl fun t ht f hf => by simp [h f hf, ht]

/-! The counters -/

/-- The words of the counters of PWR. -/
theorem multiOf_residency {k : Nat} (hk : k < 12) : multiOf W.PWR (0x80 + 8 * k) = some ([0x80 + 8 * k, 0x84 + 8 * k], true, true)
    ∧ multiOf W.PWR (0x84 + 8 * k) = some ([0x80 + 8 * k, 0x84 + 8 * k], true, true) := by
  interval_cases k <;> exact ⟨rfl, rfl⟩

theorem keptByReads_residency : ∀ k < 12, keptByReads W.PWR (0x80 + 8 * k) = true := by decide

/-- A read of the low word of a counter latches the high word for its requester. -/
theorem State.regRead_residency (s : State) (rq : Rq) {k : Nat} (hk : k < 12) :
    s.regRead rq W.PWR (0x80 + 8 * k) 0 32 =
      (s.latchWords rq W.PWR [0x84 + 8 * k]).answer (s.regWord rq W.PWR (0x80 + 8 * k) / 2 ^ 0 % 2 ^ 32) := by
  have hnot : ([0x84 + 8 * k].contains (0x80 + 8 * k)) = false := by simp
  have hval : s.valLatch rq W.PWR (0x80 + 8 * k) = none := by simp [State.valLatch, W.PWR]
  have hop : ¬ 0x80 + 8 * k = 0x24 := by omega
  have hfree : freeRead W.PWR (0x80 + 8 * k) = false := rfl
  simp only [State.regRead, (multiOf_residency hk).1, hnot, hval, hop, hfree, Bool.false_eq_true, ne_eq, not_true, if_false, Option.isSome_none,
    Option.getD_none, State.rcClear_of_kept _ _ _ (keptByReads_residency k hk)]

/-- What a counter takes when its high word is written: its low word is the one held for the requester, or its own. -/
def State.residencyPair (s : State) (rq : Rq) (k v : Nat) : Nat :=
  ((kget s.held (wordKey rq W.PWR (0x80 + 8 * k))).getD (s.regWord rq W.PWR (0x80 + 8 * k)) + v * 2 ^ 32) * 1000

/-- A write of the high word of a counter stores both words, the low one as it is held for the requester. -/
theorem State.multiWrite_residency (s : State) (rq : Rq) {k : Nat} (v : Nat) (hk : k < 12) :
    s.multiWrite rq W.PWR (0x84 + 8 * k) v [0x80 + 8 * k, 0x84 + 8 * k] =
      { s with
        held := kdel (kdel s.held (wordKey rq W.PWR (0x80 + 8 * k))) (wordKey rq W.PWR (0x84 + 8 * k))
        pwr := { s.pwr with res := lset s.pwr.res k (s.residencyPair rq k v) } } := by
  have htake : s.regTakes W.PWR (0x84 + 8 * k) = true := rfl
  have hne : ¬ 0x80 + 8 * k = 0x84 + 8 * k := by omega
  have hidx : (0x80 + 8 * k - 0x80) / 8 = k := by omega
  have hnt : ¬ W.PWR = W.TIME := by decide
  simp only [State.multiWrite, State.multiStore, State.residencyPair, htake, hne, hnt, hidx, List.getLastD_cons, List.getLastD_nil, List.headD_cons,
    List.foldl_cons, List.foldl_nil, List.map_cons, List.map_nil, List.getD_cons_zero, List.getD_cons_succ, Bool.not_true, Bool.false_eq_true,
    ne_eq, not_true, if_true, if_false]

theorem wordKey_residency_ne (rq : Rq) (k : Nat) : wordKey rq W.PWR (0x80 + 8 * k) ≠ wordKey rq W.PWR (0x84 + 8 * k) := by
  unfold wordKey
  omega

/-- A word written at a counter's high word. -/
theorem State.put_residency {s : State} {rq : Rq} {k : Nat} (v : Word) (hon : s.winOn W.PWR = true) (hdbg : rq.cls = 2 → s.dbgLevel = 2)
    (hk : k < 12) : s.put rq W.PWR (0x84 + 8 * k) v =
      (s.multiWrite rq W.PWR (0x84 + 8 * k) v.toNat [0x80 + 8 * k, 0x84 + 8 * k]).answer 0 := by
  have hnd : ¬ W.PWR = W.DBG := by decide
  have hlt : ¬ 0x84 + 8 * k < 0x40 := by omega
  rw [State.put_eq v (by decide) (by omega) (by omega) hon hdbg]
  simp only [State.regWrite, State.coreWrite, State.wordWrite, State.blockWrite, hnd, hlt, (multiOf_residency hk).2, decide_false, Bool.false_and,
    Bool.false_eq_true, if_false]

theorem regAddr_word {w off : Nat} (h4 : off % 4 = 0) : regAddr w off / 4 * 4 = regAddr w off := by
  unfold regAddr
  omega

/-- Settles O15: the low word read latches the high one, and the high word written stores both. -/
theorem multiwordRegisters : Obligations.MultiwordRegisters := by
  unfold Obligations.MultiwordRegisters
  refine ⟨fun s rq k hon hk hdbg => ⟨_, rfl, ?_⟩, fun s rq k v hon hk _ hdbg => ⟨_, rfl, ?_⟩⟩
  · rw [regAddr_word (by omega), State.access_read 0 .none (by decide) (by omega) (by omega) ⟨State.live_of_winOn hon, .inr hon⟩ hdbg,
      s.regRead_residency rq hk, State.engAns_answer]
    exact ⟨by simp [State.answer], kget_kset_same _ _ _, fun _ _ => rfl, rfl⟩
  · have hput : s.access rq (regAddr W.PWR (0x84 + 8 * k)) 4 true v.toNat .none = s.put rq W.PWR (0x84 + 8 * k) v := rfl
    rw [regAddr_word (by omega), hput, State.put_residency v hon hdbg hk, s.multiWrite_residency rq v.toNat hk]
    refine ⟨rfl, ?_, fun _ _ => rfl, rfl⟩
    exact (kget_kdel_ne _ (wordKey_residency_ne rq k)).trans (kget_kdel_same _ _)

end Sys2Proof.Machine
end


section
/-!
Operations: their status read, their end, and their abort, R66 and R67.
-/

namespace Sys2Proof.Machine

/-- An operation that has reached its units advances no further. -/
theorem State.opAdvance_of_reached {s : State} {w n : Nat} (h : n ≤ s.get (F.OPSTAT_PROGRESS w)) : s.opAdvance w n = s := by
  have hno : ¬ (s.opSt w = 2 ∧ s.get (F.OPSTAT_PROGRESS w) < n) := fun hc => by omega
  unfold State.opAdvance
  cases min n (s.opTotal w) with
  | zero => rfl
  | succ k => simp [State.opRun, hno]

/-! The status read -/

theorem regAt_opstat : ∀ w < 0x53, regAt w 0x24 = none := by decide

theorem State.opLatch_oppart (s : State) (rq : Rq) (w : Nat) :
    (s.opLatch rq w).oppart = kset s.oppart (rqKey rq * 256 + w) (s.get (F.OPPART w)) := by
  unfold State.opLatch
  dsimp only
  split <;> rfl

theorem State.get_opLatch (s : State) (rq : Rq) (w : Nat) (f : Fld) : (s.opLatch rq w).get f = s.get f := by
  unfold State.opLatch
  dsimp only
  split <;> rfl

theorem State.opLatch_mem (s : State) (rq : Rq) (w : Nat) : (s.opLatch rq w).mem = s.mem := by
  unfold State.opLatch
  dsimp only
  split <;> rfl

/-- A read of OPSTAT answers its fields and latches OPPART. -/
theorem State.regRead_opstat (s : State) (rq : Rq) {w : Nat} (hw : winOk w = true) :
    s.regRead rq w 0x24 0 32 = (s.opLatch rq w).answer
      ((s.opSt w + s.get (F.OPSTAT_CAUSE w) * 16 + s.get (F.OPSTAT_PROGRESS w) * 256) % 2 ^ 32) := by
  have hnone := regAt_opstat w (winOk_lt hw)
  simp [State.regRead, multiOf_of_reserved (by decide : 0x24 % 4 = 0) hnone, freeRead_of_reserved hnone, State.regWord, State.hdrRead,
    State.rcClear_of_reserved _ 0 32 hnone, hnone]

/-! ABORT -/

/-- A word written to a register of the page header of a window of a running die. -/
theorem State.put_hdr {s : State} {rq : Rq} {w off : Nat} (v : Word) (hlive : s.live = true) (hw : winOk w = true) (ho : off < 0x40)
    (h4 : off % 4 = 0) (hdbg : rq.cls = 2 → s.dbgLevel = 2) : s.put rq w off v = (s.hdrWrite rq w off v.toNat).answer 0 := by
  have hoff : off < 65536 := by omega
  have hd : ¬ 0x40 ≤ off := by omega
  have hm : ¬ off = 0x5C := by omega
  rw [State.put, State.access_hdr rq true _ .none hlive hw hdbg (by decide) ho,
    s.regAcc_word _ rq true _ (lt_trans (winOk_lt hw) (by decide)) hoff h4, if_pos rfl, Nat.mod_eq_of_lt v.isLt, State.engAns_answer]
  simp only [State.regWrite, State.coreWrite, State.wordWrite, hd, hm, ho, decide_false, Bool.and_false, Bool.false_eq_true, if_false, if_true]

/-- The windows whose operations an abort ends with nothing of their own. -/
def plainOps : List Nat := [W.NVS, 0x08, 0x09, 0x0A, 0x0B, W.MLC, W.MNODE, W.SEC]

theorem State.opAbort_of_plain {s : State} {w : Nat} (hw : w ∈ plainOps) (hbusy : s.busy w = true) : s.opAbort w = s.opFinish w 5 1 := by
  have hops : ∀ w ∈ plainOps, hasOps w = true ∧ ¬ (0x10 ≤ w ∧ w ≤ 0x13) ∧ w ≠ W.RTE := by decide
  obtain ⟨hhas, hrfe, hrte⟩ := hops w hw
  simp [State.opAbort, hhas, hbusy, hrte, hrfe]

theorem winOk_plainOps : ∀ w ∈ plainOps, winOk w = true := by decide

/-! The last unit -/

/-- A foreground calibration that ends is Done. -/
theorem State.fgEnd_done {s : State} {r : Nat} (hst : s.opSt (W.RFE r) = 2) (hop : s.get (F.RFE_OPSEL_OP r) = 2) :
    (s.fgEnd r).opSt (W.RFE r) = 3 ∧ (s.fgEnd r).ev (W.RFE r) 31 = true := by
  have hend : s.fgEnd r = ((s.opUnits (W.RFE r) 1 0).fgLeave r (s.get (F.RFE_OPSEL_PATH r)) true).opDone (W.RFE r) := by
    simp [State.fgEnd, hst, hop]
  rw [hend]
  exact ⟨State.opFinish_opSt _ _ _ (by decide), State.opFinish_ev _ _ _ _⟩

/-- The last unit of an operation of an RFE whose operation is a foreground calibration ends it. -/
theorem State.opLast_fg {s : State} {r : Nat} (hr : r < 4) (hop : s.get (F.RFE_OPSEL_OP r) = 2) : s.opLast (W.RFE r) = s.fgEnd r := by
  have hrfe : ∀ r < 4, (0x10 ≤ W.RFE r && W.RFE r ≤ 0x13) = true ∧ W.RFE r - 0x10 = r := by decide
  obtain ⟨hwin, hidx⟩ := hrfe r hr
  unfold State.opLast
  rw [if_pos hwin, hidx, hop]
  rfl

/-- Settles O17: the status is read with no effect but the latch; an operation ends Aborted, Failed, or Done. -/
theorem operations : Obligations.Operations := by
  unfold Obligations.Operations
  refine ⟨fun s rq w n hlive hw hdbg hn => ⟨_, rfl, ?_⟩, fun s rq w n hw hlive hdbg hbusy hn => ⟨_, rfl, ?_⟩, fun s w hon hrte hst => ⟨_, rfl, ?_⟩,
    fun s w e hon hst h4 h15 => ⟨_, rfl, ?_⟩, fun s r hr hon hst hop => ⟨_, rfl, ?_⟩⟩
  · rw [State.opAdvance_of_reached hn, State.access_read 0 .none hw (by decide) (by decide) ⟨hlive, .inl (by decide)⟩ hdbg,
      s.regRead_opstat rq hw, State.engAns_answer]
    exact ⟨rfl, (congrArg (kget · _) (s.opLatch_oppart rq w)).trans (kget_kset_same _ _ _), fun f _ => s.get_opLatch rq w f, s.opLatch_mem rq w⟩
  · have hwin := winOk_plainOps w hw
    rw [State.opAdvance_of_reached hn, State.put_hdr 2#32 hlive hwin (by decide) (by decide) hdbg]
    have habort : s.hdrWrite rq w 0x20 (2#32).toNat = s.opFinish w 5 1 := State.opAbort_of_plain hw hbusy
    rw [habort]
    exact ⟨State.opFinish_opSt _ _ _ (by decide), State.opFinish_cause _ _ _ (by decide), State.opFinish_ev _ _ _ _,
      State.keeps_opFinish (by simp) (by simp) (by simp) (s.keeps_refl _), (s.opFinish_regsOnly w 5 1).mem⟩
  · rw [if_pos (by simp [hst, hon, hrte])]
    exact ⟨State.get_set_same _ _ _, State.keeps_set (by simp) (s.keeps_refl _), rfl⟩
  · have hne : e ≠ 0 := by omega
    have hgo : ¬ (s.opSt w ≠ 2 || !s.winOn w) = true := by simp [hst, hon]
    rw [if_neg hgo, if_neg hne, if_pos (by simp [h4, h15])]
    exact ⟨State.opFinish_opSt _ _ _ (by decide), State.opFinish_cause _ _ _ (by omega), State.opFinish_ev _ _ _ _,
      State.keeps_opFinish (by simp) (by simp) (by simp) (s.keeps_refl _), (s.opFinish_regsOnly w 4 e).mem⟩
  · have hgo : ¬ (s.opSt (W.RFE r) ≠ 2 || !s.winOn (W.RFE r)) = true := by simp [hst, hon]
    rw [if_neg hgo, if_pos rfl, State.opLast_fg hr hop]
    exact State.fgEnd_done hst hop

end Sys2Proof.Machine
end


section
/-!
A refutation by a concrete state: FAIL listed with its reset value when VERIFY is written.
-/

namespace Sys2Proof.Machine

/-- VERIFY writes the challenge and BUSY. -/
theorem State.get_tokenCheck_ne (s : State) {f : Fld} (h : ∀ g ∈ [F.DBG_CHALLENGELO_CHAL, F.DBG_CHALLENGEHI_CHAL, F.DBG_AUTH_BUSY], f.key ≠ g.key) :
    s.tokenCheck.get f = s.get f :=
  State.get_sets_ne _ _ fun e he => by
    simp only [List.mem_cons, List.not_mem_nil, or_false] at he
    obtain rfl | rfl | rfl := he <;> exact h _ (by simp)

/-- FAIL of DBG_AUTH is listed with the value it resets to. -/
def listedFailState : State := { State.reset with regs := [(F.DBG_AUTH_FAIL.key, 0)] }

theorem put_verify_listedFailState : listedFailState.put ⟨0, 0⟩ W.DBG 0x40 4 =
    ((listedFailState.tabWrite ⟨0, 0⟩ W.DBG 0x40 4).tokenCheck).answer 0 := by
  rw [State.put_eq 4 (by decide) (by decide) (by decide) (by decide) (by decide)]
  rfl

/-- Refutes O60: the write of VERIFY writes FAIL its value again, and what reads at its place falls back to the reset value. -/
theorem not_debugMemoryAndTokens : ¬ Obligations.DebugMemoryAndTokens := by
  unfold Obligations.DebugMemoryAndTokens
  rintro ⟨-, -, -, -, hverify, -⟩
  have h := (hverify listedFailState ⟨0, 0⟩ 4 (by decide) (by decide)).of_exec rfl
  obtain ⟨-, -, -, hkeep, -⟩ := h
  have hfail := hkeep { F.DBG_AUTH_FAIL with rst := 1 } (by decide)
  rw [put_verify_listedFailState, State.get_answer, State.get_tokenCheck_ne _ (by decide)] at hfail
  exact absurd hfail (by decide)

end Sys2Proof.Machine
end


section
/-!
A refutation by a concrete state: EN of a slotframe listed with its reset value when SWITCH is written.
-/

namespace Sys2Proof.Machine

/-- EN of the first slotframe of the first Tile is listed with the value it resets to. -/
def listedSlotframeState : State := { State.reset with regs := [((F.MLC_SFCTL_EN 0 0).key, 0)] }

/-- Refutes O31: the write of SWITCH writes EN its value again, and what reads at its place falls back to the reset value. -/
theorem not_slotframesAndBoard : ¬ Obligations.SlotframesAndBoard := by
  unfold Obligations.SlotframesAndBoard
  rintro ⟨hswitch, -⟩
  have h := (hswitch listedSlotframeState ⟨0, 0⟩ 0 0 4 (by decide) (by decide) (by decide) (by decide) (by decide) (by decide)
    (by decide) (by decide) (by decide)).of_exec rfl
  obtain ⟨-, -, -, hkeep, -⟩ := h
  exact absurd (hkeep { F.MLC_SFCTL_EN 0 0 with rst := 1 } (by decide)) (by decide)

end Sys2Proof.Machine
end


section
/-!
The reference of the timebase, the capture of PPS_IN, and the sleep calibration, R83, R84, R88, R101.
-/

namespace Sys2Proof.Machine

/-- A window of a running die answers while its domain is on. -/
theorem State.winOn_parts {s : State} {w : Nat} (h : s.winOn w = true) : s.live = true ∧ s.domSt (winDom w) = 2 := by
  simpa [State.winOn] using h

@[simp] theorem b2n_false : b2n false = 0 := rfl
@[simp] theorem b2n_true : b2n true = 1 := rfl

/-! The choice of the reference -/

theorem State.refSwitch_of_same {s : State} {b : Bool} (h : s.on F.TIME_REFCTL_ACTIVE = b) : s.refSwitch b = s := by
  simp [State.refSwitch, h]

/-- The increment at a switch of the reference. -/
def State.switchedIncr (s : State) (toExt : Bool) : Nat :=
  if toExt then ratio s.tm.incr s.tm.refDen s.tm.refNum else ratio s.tm.incr s.tm.refNum s.tm.refDen

theorem State.refSwitch_of_change {s : State} {b : Bool} (h : s.on F.TIME_REFCTL_ACTIVE = !b) :
    s.refSwitch b = ((s.setIncr (s.switchedIncr b : Nat)).set F.TIME_REFCTL_ACTIVE (b2n b)).raise W.TIME E.TIME_REFSWITCH := by
  have hne : ¬ s.on F.TIME_REFCTL_ACTIVE = b := by cases b <;> simp [h]
  cases b <;> simp only [State.refSwitch, if_neg hne, State.switchedIncr, if_true, if_false, Bool.false_eq_true]

theorem State.keeps_setIncr {s t : State} {l : List Fld} {v : Int} (hev : F.EV_RAW W.TIME E.TIME_INCRCLAMP ∈ l) (h : s.keeps t l) :
    s.keeps (t.setIncr v) l :=
  State.keeps_raiseIf hev (State.keeps_congr (t := t) rfl rfl h)

@[simp] theorem State.setIncr_mem (s : State) (v : Int) : (s.setIncr v).mem = s.mem := by simp [State.setIncr]

/-- A switch of the reference writes ACTIVE and raises REFSWITCH, and INCRCLAMP where the increment is clamped. -/
theorem State.keeps_refSwitch {s t : State} {l : List Fld} {b : Bool} (hact : F.TIME_REFCTL_ACTIVE ∈ l)
    (hsw : F.EV_RAW W.TIME E.TIME_REFSWITCH ∈ l) (hclamp : F.EV_RAW W.TIME E.TIME_INCRCLAMP ∈ l) (h : s.keeps t l) :
    s.keeps (t.refSwitch b) l := by
  by_cases hb : t.on F.TIME_REFCTL_ACTIVE = b
  · rwa [State.refSwitch_of_same hb]
  · rw [State.refSwitch_of_change (by cases b <;> simpa using hb)]
    exact State.keeps_raise hsw <| State.keeps_set hact <| State.keeps_setIncr hclamp h

@[simp] theorem State.refSwitch_mem (s : State) (b : Bool) : (s.refSwitch b).mem = s.mem := by
  unfold State.refSwitch
  split <;> simp

/-- The reference in use after a switch. -/
theorem State.refSwitch_active (s : State) (b : Bool) : (s.refSwitch b).on F.TIME_REFCTL_ACTIVE = b := by
  by_cases hb : s.on F.TIME_REFCTL_ACTIVE = b
  · rwa [State.refSwitch_of_same hb]
  · rw [State.refSwitch_of_change (by cases b <;> simpa using hb), State.on, State.get_raise_ne _ _ _ (by decide), State.get_set_same]
    cases b <;> rfl

theorem State.get_refSwitch_ne (s : State) (b : Bool) {f : Fld} (hact : f.key ≠ F.TIME_REFCTL_ACTIVE.key)
    (hsw : f.key ≠ (F.EV_RAW W.TIME E.TIME_REFSWITCH).key) (hclamp : f.key ≠ (F.EV_RAW W.TIME E.TIME_INCRCLAMP).key) :
    (s.refSwitch b).get f = s.get f :=
  State.keeps_refSwitch (l := [F.TIME_REFCTL_ACTIVE, F.EV_RAW W.TIME E.TIME_REFSWITCH, F.EV_RAW W.TIME E.TIME_INCRCLAMP]) (by simp) (by simp)
    (by simp) (s.keeps_refl _) f (by simp [hact, hsw, hclamp])

/-! REF10_IN -/

/-- The state with the ratio of a window of REF10_IN noted. -/
def State.refNoted (s : State) (a b : Nat) : State :=
  ({ s with tm := { s.tm with refNum := a, refDen := b } }).set F.TIME_REFCTL_EXTVALID 1

theorem State.get_refNoted_ne (s : State) (a b : Nat) {f : Fld} (h : f.key ≠ F.TIME_REFCTL_EXTVALID.key) : (s.refNoted a b).get f = s.get f :=
  State.get_set_ne _ _ h

theorem State.refNoted_extvalid (s : State) (a b : Nat) : (s.refNoted a b).get F.TIME_REFCTL_EXTVALID = 1 := State.get_set_same _ _ _

theorem State.keeps_refNoted {s : State} {l : List Fld} (a b : Nat) (h : F.TIME_REFCTL_EXTVALID ∈ l) : s.keeps (s.refNoted a b) l :=
  State.keeps_set h (State.keeps_congr (t := s) rfl rfl (s.keeps_refl _))

/-- A window of REF10_IN in a running timebase. -/
theorem State.ref10Valid_eq {s : State} {a b : Nat} (hon : s.winOn W.TIME = true) (ha : a ≠ 0) (hb : b ≠ 0) :
    execRef10Valid a b s = .next (s.refNoted a b).refChoose := by
  obtain ⟨hlive, hdom⟩ := State.winOn_parts hon
  have hgo : (s.live && s.domSt 1 == 2 && a != 0 && b != 0) = true := by
    have hdom' : s.domSt 1 = 2 := hdom
    simp [hlive, hdom', ha, hb]
  simp only [execRef10Valid, if_pos hgo, State.refNoted]

/-- The state with the loss of REF10_IN noted. -/
def State.refLost (s : State) : State := (s.set F.TIME_REFCTL_EXTVALID 0).raise W.TIME E.TIME_REFLOSS

theorem State.refLost_extvalid (s : State) : s.refLost.get F.TIME_REFCTL_EXTVALID = 0 := by
  rw [State.refLost, State.get_raise_ne _ _ _ (by decide), State.get_set_same]
  rfl

theorem State.get_refLost_ne (s : State) {f : Fld} (hv : f.key ≠ F.TIME_REFCTL_EXTVALID.key)
    (hev : f.key ≠ (F.EV_RAW W.TIME E.TIME_REFLOSS).key) : s.refLost.get f = s.get f := by
  rw [State.refLost, State.get_raise_ne _ _ _ hev, State.get_set_ne _ _ hv]

/-- With no valid REF10_IN the TCXO is chosen. -/
theorem State.refLost_refChoose (s : State) : s.refLost.refChoose = s.refLost.refSwitch false := by
  simp [State.refChoose, State.on, s.refLost_extvalid]

/-- REF10_IN lost is not valid, and the TCXO is in use. -/
theorem State.refLost_frame (s : State) : s.refLost.refChoose.get F.TIME_REFCTL_EXTVALID = 0 ∧ s.refLost.refChoose.get F.TIME_REFCTL_ACTIVE = 0
    ∧ s.refLost.refChoose.ev W.TIME E.TIME_REFLOSS = true
    ∧ (s.on F.TIME_REFCTL_ACTIVE = true → s.refLost.refChoose.ev W.TIME E.TIME_REFSWITCH = true) := by
  rw [s.refLost_refChoose]
  have hact := s.refLost.refSwitch_active false
  have hloss : s.refLost.ev W.TIME E.TIME_REFLOSS = true := State.ev_raise _ _ _
  refine ⟨?_, by simpa [State.on] using hact, ?_, fun hon => ?_⟩
  · rw [State.get_refSwitch_ne _ _ (by decide) (by decide) (by decide), s.refLost_extvalid]
  · rwa [State.ev, State.on, State.get_refSwitch_ne _ _ (by decide) (by decide) (by decide)]
  · have hon' : s.refLost.on F.TIME_REFCTL_ACTIVE = !false := by
      rwa [State.on, State.get_refLost_ne _ (by decide) (by decide)]
    rw [State.refSwitch_of_change hon']
    exact State.ev_raise _ _ _

/-! PPS_IN -/

/-- The registers of the capture of PPS_IN. -/
def State.ppsCaptured (s : State) : State :=
  (s.sets [(F.TIME_PPSFRAC_FRAC, tbFracOf s.tm.tb), (F.TIME_PPSNS_NS, tbNsOf s.tm.tb), (F.TIME_PPSSECLO_SEC, tbSecOf s.tm.tb % 2 ^ 32),
    (F.TIME_PPSSECHI_SEC, tbSecOf s.tm.tb / 2 ^ 32)]).raise W.TIME E.TIME_PPSCAP

theorem tbFracOf_lt (tb : Nat) : tbFracOf tb < 2 ^ 16 := Nat.mod_lt _ (by decide)
theorem tbNsOf_lt (tb : Nat) : tbNsOf tb < 2 ^ 32 := lt_of_lt_of_le (Nat.mod_lt _ (by decide)) (by decide)

theorem State.ppsCaptured_time (s : State) : s.ppsCaptured.get F.TIME_PPSNS_NS = tbNsOf s.tm.tb
    ∧ s.ppsCaptured.get F.TIME_PPSFRAC_FRAC = tbFracOf s.tm.tb ∧ s.ppsCaptured.get F.TIME_PPSSECLO_SEC = tbSecOf s.tm.tb % 2 ^ 32 := by
  simp only [State.ppsCaptured, State.sets, List.foldl_cons, List.foldl_nil]
  refine ⟨?_, ?_, ?_⟩
  · rw [State.get_raise_ne _ _ _ (by decide), State.get_set_ne _ _ (by decide), State.get_set_ne _ _ (by decide), State.get_set_same]
    exact Nat.mod_eq_of_lt (tbNsOf_lt _)
  · rw [State.get_raise_ne _ _ _ (by decide), State.get_set_ne _ _ (by decide), State.get_set_ne _ _ (by decide),
      State.get_set_ne _ _ (by decide), State.get_set_same]
    exact Nat.mod_eq_of_lt (tbFracOf_lt _)
  · rw [State.get_raise_ne _ _ _ (by decide), State.get_set_ne _ _ (by decide), State.get_set_same]
    exact Nat.mod_mod _ _

/-- With no measurement asked of it, an edge of PPS_IN is its capture. -/
theorem State.ppsInEdge_eq {s : State} (hon : s.winOn W.TIME = true) (hrun : s.tm.tick ≠ .stopped) (hsrc : s.get F.TIME_SYNCCFG_SRC ≠ 3) :
    execPpsInEdge s = .next s.ppsCaptured := by
  obtain ⟨hlive, hdom⟩ := State.winOn_parts hon
  have hgo : (s.live && s.domSt 1 == 2 && s.tm.tick != .stopped) = true := by
    have hdom' : s.domSt 1 = 2 := hdom
    simp [hlive, hdom', hrun]
  simp only [execPpsInEdge, if_pos hgo, if_neg hsrc, State.ppsCaptured]

/-! The sleep calibration -/

/-- The state after a window of the sleep counter. -/
def State.sleepMeasured (s : State) : State :=
  ({ s with tm := { s.tm with calAcc := 0 } }).sets [(F.TIME_SLPPER_FRAC, s.tm.calAcc / 2 ^ 31 % 65536),
    (F.TIME_SLPPER_INT, s.tm.calAcc / 2 ^ 31 / 65536), (F.TIME_SLPCFG_CALVALID, 1)]

theorem State.sleepMeasured_period (s : State) : s.sleepMeasured.get F.TIME_SLPPER_FRAC = s.tm.calAcc / 2 ^ 31 % 65536 := by
  simp only [State.sleepMeasured, State.sets, List.foldl_cons, List.foldl_nil]
  rw [State.get_set_ne _ _ (by decide), State.get_set_ne _ _ (by decide), State.get_set_same]
  exact Nat.mod_mod _ _

theorem State.sleepMeasured_valid (s : State) : s.sleepMeasured.get F.TIME_SLPCFG_CALVALID = 1 := State.get_set_same _ _ _

theorem State.sleepCalWindow_eq {s : State} (hlive : s.live = true) (hrun : s.tm.tick ≠ .stopped) :
    execSleepCalWindow s = .next s.sleepMeasured := by
  simp only [execSleepCalWindow, State.sleepMeasured]
  rw [if_pos (by simp [hlive, hrun])]

/-- Settles O20: a valid REF10_IN is used where SEL asks for it, its loss returns to the TCXO; PPS_IN is captured; a window of the
sleep counter gives its period. -/
theorem referenceAndCapture : Obligations.ReferenceAndCapture := by
  unfold Obligations.ReferenceAndCapture
  refine ⟨fun s a b hon ha hb hsel hact => ⟨_, State.ref10Valid_eq hon ha hb, ?_⟩,
    fun s a b hon ha hb hsel hact hrun => ⟨_, State.ref10Valid_eq hon ha hb, ?_⟩, fun s hvalid => ⟨_, rfl, ?_⟩,
    fun s hon hrun hsrc => ⟨_, State.ppsInEdge_eq hon hrun hsrc, ?_⟩, fun s hlive hrun => ⟨_, State.sleepCalWindow_eq hlive hrun, ?_⟩⟩
  · have hsel' : (s.refNoted a b).on F.TIME_REFCTL_SEL = false := by rwa [State.on, State.get_refNoted_ne _ _ _ (by decide)]
    have hact' : (s.refNoted a b).on F.TIME_REFCTL_ACTIVE = false := by rwa [State.on, State.get_refNoted_ne _ _ _ (by decide)]
    rw [State.refChoose, hsel', Bool.false_and, Bool.false_and, State.refSwitch_of_same hact']
    exact ⟨s.refNoted_extvalid a b, rfl, rfl, rfl, State.keeps_refNoted a b (by simp), rfl⟩
  · have hsel' : (s.refNoted a b).on F.TIME_REFCTL_SEL = true := by rwa [State.on, State.get_refNoted_ne _ _ _ (by decide)]
    have hact' : (s.refNoted a b).on F.TIME_REFCTL_ACTIVE = !true := by rwa [State.on, State.get_refNoted_ne _ _ _ (by decide)]
    have hval' : (s.refNoted a b).on F.TIME_REFCTL_EXTVALID = true := by simp [State.on, s.refNoted_extvalid]
    have hrun' : (s.refNoted a b).tm.tick = .run := hrun
    have hto : (s.refNoted a b).refChoose = (s.refNoted a b).refSwitch true := by simp [State.refChoose, hsel', hval', hrun']
    rw [hto]
    refine ⟨?_, ?_, State.keeps_refSwitch (by simp) (by simp) (by simp) (State.keeps_refNoted a b (by simp)), State.refSwitch_mem _ _⟩
    · rw [State.refSwitch_of_change hact', State.get_raise_ne _ _ _ (by decide), State.get_set_same]
      rfl
    · rw [State.refSwitch_of_change hact']
      exact State.ev_raise _ _ _
  · rw [if_pos hvalid]
    obtain ⟨hext, hact, hloss, hsw⟩ := s.refLost_frame
    refine ⟨hext, hact, hloss, hsw, ?_, ?_⟩
    · rw [State.refChoose]
      exact State.keeps_refSwitch (by simp) (by simp) (by simp) (State.keeps_raise (by simp) (State.keeps_set (by simp) (s.keeps_refl _)))
    · rw [State.refChoose]
      exact (State.refSwitch_mem _ _).trans (State.raise_mem _ _ _)
  · obtain ⟨hns, hfrac, hsec⟩ := s.ppsCaptured_time
    exact ⟨hns, hfrac, hsec, State.ev_raise _ _ _, State.keeps_raise (by simp) (State.keeps_sets (by simp) (s.keeps_refl _)),
      (State.raise_mem _ _ _).trans (s.sets_regsOnly _).mem⟩
  · exact ⟨by simp [State.on, s.sleepMeasured_valid], rfl, s.sleepMeasured_period, rfl,
      State.keeps_sets (by simp) (State.keeps_congr (t := s) rfl rfl (s.keeps_refl _)), rfl⟩

end Sys2Proof.Machine
end


section
/-!
The states of synchronisation, R93, R96, R97.
-/

namespace Sys2Proof.Machine

/-! Signed fields and saturating counters -/

/-- A signed value stored in a field of its width reads back. -/
theorem State.getI_setI_same (s : State) {f : Fld} (v : Nat) (hlen : f.len = 32) : (s.setI f (sgn 32 v)).getI f = sgn 32 v := by
  rw [State.getI, State.setI, State.get_set_same, hlen, Nat.min_self]
  unfold sgn unsgn
  split_ifs <;> omega

theorem State.getI_congr {s t : State} {f : Fld} (h : t.get f = s.get f) : t.getI f = s.getI f := by rw [State.getI, State.getI, h]

theorem State.get_satAdd_ne (s : State) {cnt ovf f : Fld} {w ev n : Nat} (hcnt : f.key ≠ cnt.key) (hovf : f.key ≠ ovf.key)
    (hev : f.key ≠ (F.EV_RAW w ev).key) : (s.satAdd cnt ovf w ev n).get f = s.get f :=
  State.keeps_satAdd (l := [cnt, ovf, F.EV_RAW w ev]) (by simp) (by simp) (by simp) (s.keeps_refl _) f (by simp [hcnt, hovf, hev])

/-- A counter short of its limit counts. -/
theorem State.satAdd_of_lt {s : State} {cnt ovf : Fld} {w ev n : Nat} (h : s.get cnt + n < 2 ^ cnt.len - 1) :
    s.satAdd cnt ovf w ev n = s.set cnt (s.get cnt + n) := by
  simp [State.satAdd, h]

/-! The state of synchronisation -/

/-- The state moves: to another one with STATECHG. -/
theorem State.syncTo_of_ne {s : State} {st : Nat} (h : s.get F.TIME_STATE_STATE ≠ st) :
    s.syncTo st = (({ s with tm := { s.tm with acq := if st = 1 then 0 else s.tm.acq } } : State).set F.TIME_STATE_STATE st).raise W.TIME
      E.TIME_STATECHG := by
  simp [State.syncTo, h]

theorem State.syncTo_state {s : State} {st : Nat} (hst : st < 8) (h : s.get F.TIME_STATE_STATE ≠ st) :
    (s.syncTo st).get F.TIME_STATE_STATE = st ∧ (s.syncTo st).ev W.TIME E.TIME_STATECHG = true := by
  rw [State.syncTo_of_ne h, State.get_raise_ne _ _ _ (by decide), State.get_set_same]
  exact ⟨Nat.mod_eq_of_lt hst, State.ev_raise _ _ _⟩

theorem State.get_syncTo_ne (s : State) (st : Nat) {f : Fld} (hst : f.key ≠ F.TIME_STATE_STATE.key)
    (hev : f.key ≠ (F.EV_RAW W.TIME E.TIME_STATECHG).key) : (s.syncTo st).get f = s.get f := by
  simp only [State.syncTo]
  split
  · rfl
  · rw [State.get_raise_ne _ _ _ hev, State.get_set_ne _ _ hst]
    rfl

theorem State.keeps_syncTo {s t : State} {l : List Fld} {st : Nat} (hst : F.TIME_STATE_STATE ∈ l)
    (hev : F.EV_RAW W.TIME E.TIME_STATECHG ∈ l) (h : s.keeps t l) : s.keeps (t.syncTo st) l := by
  simp only [State.syncTo]
  split
  · exact State.keeps_congr (t := t) rfl rfl h
  · exact State.keeps_raise hev <| State.keeps_set hst <| State.keeps_congr (t := t) rfl rfl h

theorem State.syncTo_tm (s : State) (st : Nat) : (s.syncTo st).tm = { s.tm with acq := if st = 1 then 0 else s.tm.acq } := by
  simp only [State.syncTo]
  split <;> simp

@[simp] theorem State.syncTo_mem (s : State) (st : Nat) : (s.syncTo st).mem = s.mem := by
  simp only [State.syncTo]
  split <;> simp

theorem State.setUnc_unc (s : State) (v : Nat) : (s.setUnc v).get F.TIME_UNC_UNC = min v 0xFFFFFFFF := by
  have hlt : min v 0xFFFFFFFF < 2 ^ 32 := by omega
  rw [State.setUnc, State.get_set_same]
  exact Nat.mod_eq_of_lt hlt

/-! Writes of TIME -/

theorem State.tabWrite_meas (s : State) (rq : Rq) (v : Nat) : s.tabWrite rq W.TIME 0x70 v = s := by
  have hrow : regAt W.TIME 0x70 = some (⟨"TIME_MEAS", 0x70, 4, 1, 4, 1, [⟨0, 32, .wo, .is 0, .any, false, false⟩]⟩, 0) := by decide
  rw [State.tabWrite_of_row s rq hrow (by decide)]
  rfl

/-- A measurement written while SRC is not 1 is nothing. -/
theorem State.put_meas_of_other {s : State} {rq : Rq} (v : Word) (hon : s.winOn W.TIME = true) (hdbg : rq.cls = 2 → s.dbgLevel = 2)
    (hsrc : s.get F.TIME_SYNCCFG_SRC ≠ 1) : s.put rq W.TIME 0x70 v = s.answer 0 := by
  rw [State.put_of_plain v (by decide) (by decide) (by decide) (by decide) hon hdbg (by decide), s.tabWrite_meas rq v.toNat]
  exact congrArg (State.answer · 0) (if_neg hsrc)

theorem State.put_meas {s : State} {rq : Rq} (v : Word) (hon : s.winOn W.TIME = true) (hdbg : rq.cls = 2 → s.dbgLevel = 2)
    (hsrc : s.get F.TIME_SYNCCFG_SRC = 1) : s.put rq W.TIME 0x70 v = (s.measure (sgn 32 v.toNat)).answer 0 := by
  rw [State.put_of_plain v (by decide) (by decide) (by decide) (by decide) hon hdbg (by decide), s.tabWrite_meas rq v.toNat]
  exact congrArg (State.answer · 0) (if_pos hsrc)

/-- A field of TIME that software writes takes its bits of the word. -/
theorem State.fldWrite_time (s0 s : State) (rq : Rq) {off v : Nat} {f : FldRow} (hacc : f.acc = .rw) (hlock : f.lock = false)
    (hwd : f.wd = false) (hst : f.store = .any) :
    s0.fldWrite rq W.TIME off 0 v s f = s.set (fldOf W.TIME off 0 f) (v / 2 ^ f.lo % 2 ^ f.len) := by
  rw [State.fldWrite_of_rw s rq hacc hlock hwd (s0.fldReserved_of_any off 0 _ v hst (.inl (by decide))) rfl
    (s0.ringTakes_of_ne off 0 _ _ (by decide)) (s0.sfBars_of_ne off 0 _ _ _ (by decide)), hst]
  rfl

/-- The state with a word in the fields of TIME_SYNCCFG. -/
def State.syncCfgSet (s : State) (v : Nat) : State :=
  s.sets [(F.TIME_SYNCCFG_SRC, v / 2 ^ 0 % 2 ^ 2), (F.TIME_SYNCCFG_SERVO, v / 2 ^ 2 % 2 ^ 1), (F.TIME_SYNCCFG_STEPOK, v / 2 ^ 3 % 2 ^ 1),
    (F.TIME_SYNCCFG_KP, v / 2 ^ 4 % 2 ^ 4), (F.TIME_SYNCCFG_KI, v / 2 ^ 8 % 2 ^ 4)]

theorem State.tabWrite_syncCfg (s : State) (rq : Rq) (v : Nat) : s.tabWrite rq W.TIME 0x68 v = s.syncCfgSet v := by
  have hrow : regAt W.TIME 0x68 = some (⟨"TIME_SYNCCFG", 0x68, 4, 1, 4, 1, [⟨0, 2, .rw, .is 0, .any, false, false⟩,
    ⟨2, 1, .rw, .is 1, .any, false, false⟩, ⟨3, 1, .rw, .is 0, .any, false, false⟩, ⟨4, 4, .rw, .is 1, .any, false, false⟩,
    ⟨8, 4, .rw, .is 4, .any, false, false⟩]⟩, 0) := by decide
  rw [State.tabWrite_of_row s rq hrow (by decide)]
  simp only [List.foldl_cons, List.foldl_nil, State.fldWrite_time]
  rfl

theorem State.syncCfgSet_src (s : State) (v : Nat) : (s.syncCfgSet v).get F.TIME_SYNCCFG_SRC = v % 4 := by
  simp only [State.syncCfgSet, State.sets, List.foldl_cons, List.foldl_nil]
  iterate 4 rw [State.get_set_ne _ _ (by decide)]
  rw [State.get_set_same, Nat.pow_zero, Nat.div_one]
  exact Nat.mod_mod _ _

/-- SRC written 0: Free, with TIME_UNC all-ones. -/
theorem State.put_syncSrc_zero {s : State} {rq : Rq} (v : Word) (hon : s.winOn W.TIME = true) (hdbg : rq.cls = 2 → s.dbgLevel = 2)
    (hv : v.toNat % 4 = 0) : s.put rq W.TIME 0x68 v =
      ((({ s.syncCfgSet v.toNat with tm := { (s.syncCfgSet v.toNat).tm with elapsed := 0 } } : State).setUnc 0xFFFFFFFF).syncTo 0).answer 0 := by
  have hsrc : (s.syncCfgSet v.toNat).get F.TIME_SYNCCFG_SRC = 0 := (s.syncCfgSet_src _).trans hv
  rw [State.put_of_plain v (by decide) (by decide) (by decide) (by decide) hon hdbg (by decide), s.tabWrite_syncCfg rq v.toNat]
  exact congrArg (State.answer · 0) (if_pos hsrc)

/-! A measurement -/

/-- The registers and the record of a measurement y, before the servo and the state. -/
def State.measNoted (s : State) (y : Int) : State :=
  let t := (((s.setI F.TIME_LASTMEAS_Y y).satAdd F.TIME_MEASCNT_COUNT F.TIME_MEASCNT_OVF W.TIME E.TIME_CNTSAT 1).set F.TIME_STATE_MISSES 0).setUnc
    (y.natAbs + s.get F.TIME_UNCCFG_FLOOR)
  { t with tm := { t.tm with meas := true, uncAcc := 0 } }

/-- The registers a measurement notes. -/
def measRegs : List Fld :=
  [F.TIME_LASTMEAS_Y, F.TIME_MEASCNT_COUNT, F.TIME_MEASCNT_OVF, F.TIME_STATE_MISSES, F.TIME_UNC_UNC, F.EV_RAW W.TIME E.TIME_CNTSAT]

theorem State.keeps_measNoted {s : State} {l : List Fld} (y : Int) (h : ∀ f ∈ measRegs, f ∈ l) : s.keeps (s.measNoted y) l := by
  have hsat : s.keeps ((s.setI F.TIME_LASTMEAS_Y y).satAdd F.TIME_MEASCNT_COUNT F.TIME_MEASCNT_OVF W.TIME E.TIME_CNTSAT 1) l :=
    State.keeps_satAdd (h _ (by decide)) (h _ (by decide)) (h _ (by decide)) (State.keeps_set (h _ (by decide)) (s.keeps_refl _))
  exact State.keeps_congr rfl rfl (State.keeps_set (h _ (by decide)) (State.keeps_set (h _ (by decide)) hsat))

theorem State.get_measNoted_ne (s : State) (y : Int) {f : Fld} (h : ∀ g ∈ measRegs, f.key ≠ g.key) : (s.measNoted y).get f = s.get f :=
  State.keeps_measNoted y (fun _ hf => hf) f h

/-- The counter of measurements leaves everything but registers. -/
theorem State.measCounted_regsOnly (s : State) (y : Int) :
    s.RegsOnly ((s.setI F.TIME_LASTMEAS_Y y).satAdd F.TIME_MEASCNT_COUNT F.TIME_MEASCNT_OVF W.TIME E.TIME_CNTSAT 1) :=
  (s.set_regsOnly _ _).trans (State.satAdd_regsOnly _ _ _ _ _ _)

theorem State.measNoted_incr (s : State) (y : Int) : (s.measNoted y).tm.incr = s.tm.incr := by
  have htm := congrArg TimeS.incr (s.measCounted_regsOnly y).tm
  exact htm

theorem State.measNoted_mem (s : State) (y : Int) : (s.measNoted y).mem = s.mem := (s.measCounted_regsOnly y).mem

theorem State.measNoted_misses (s : State) (y : Int) : (s.measNoted y).get F.TIME_STATE_MISSES = 0 :=
  (State.get_set_ne _ _ (by decide)).trans (State.get_set_same _ _ _)

theorem State.measNoted_unc (s : State) (y : Int) :
    (s.measNoted y).get F.TIME_UNC_UNC = min (y.natAbs + s.get F.TIME_UNCCFG_FLOOR) 0xFFFFFFFF :=
  State.setUnc_unc _ _

theorem State.measNoted_last (s : State) (v : Nat) : (s.measNoted (sgn 32 v)).getI F.TIME_LASTMEAS_Y = sgn 32 v := by
  refine (State.getI_congr ?_).trans (s.getI_setI_same v rfl)
  refine (State.get_set_ne _ _ (by decide)).trans ((State.get_set_ne _ _ (by decide)).trans ?_)
  exact State.get_satAdd_ne _ (by decide) (by decide) (by decide)

/-- A measurement in Free, with no servo, moves the state to Acquiring. -/
theorem State.measure_of_free {s : State} (y : Int) (hservo : s.on F.TIME_SYNCCFG_SERVO = false) (htrail : s.trails = false)
    (hfree : s.get F.TIME_STATE_STATE = 0) : s.measure y = (s.measNoted y).syncTo 1 := by
  have hservo' : (s.measNoted y).on F.TIME_SYNCCFG_SERVO = false := by rwa [State.on, State.get_measNoted_ne _ _ (by decide)]
  have hfree' : (s.measNoted y).get F.TIME_STATE_STATE = 0 := by rwa [State.get_measNoted_ne _ _ (by decide)]
  have hmeas : s.measure y = ((s.measNoted y).servo y).measState y := by
    unfold State.measure
    exact if_neg (by simp [htrail])
  rw [hmeas, State.servo, hservo', Bool.not_false, if_pos rfl]
  simp only [State.measState, hfree']

/-! An interval -/

/-- The state with an interval begun, e being the time elapsed of it. -/
def State.ivlBegun (s : State) (e : Nat) : State := { s with tm := { s.tm with elapsed := e, meas := false } }

theorem State.get_ivlBegun (s : State) (e : Nat) (f : Fld) : (s.ivlBegun e).get f = s.get f := rfl
theorem State.ivlBegun_mem (s : State) (e : Nat) : (s.ivlBegun e).mem = s.mem := rfl

/-- The state at the boundary of an interval. -/
def State.ivlNext (s : State) : State := s.ivlBegun (s.tm.elapsed - s.syncIvl)

theorem State.get_ivlNext (s : State) (f : Fld) : s.ivlNext.get f = s.get f := s.get_ivlBegun _ f
theorem State.ivlNext_mem (s : State) : s.ivlNext.mem = s.mem := s.ivlBegun_mem _
theorem State.keeps_ivlNext (s : State) (l : List Fld) : s.keeps s.ivlNext l := fun f _ => s.get_ivlNext f

/-- The state at the boundary of an interval without a measurement, its miss counted. -/
def State.ivlMissed (s : State) : State :=
  (s.ivlNext.satAdd F.TIME_MISSCNT_COUNT F.TIME_MISSCNT_OVF W.TIME E.TIME_CNTSAT 1).satAdd F.TIME_STATE_MISSES F.TIME_STATE_MOVF W.TIME
    E.TIME_CNTSAT 1

/-- The total of the misses counted does not touch the misses of the state. -/
theorem State.ivlMissed_misses {s : State} (h : s.get F.TIME_STATE_MISSES = 2) :
    s.ivlMissed = (s.ivlNext.satAdd F.TIME_MISSCNT_COUNT F.TIME_MISSCNT_OVF W.TIME E.TIME_CNTSAT 1).set F.TIME_STATE_MISSES (2 + 1) := by
  have hmiss : (s.ivlNext.satAdd F.TIME_MISSCNT_COUNT F.TIME_MISSCNT_OVF W.TIME E.TIME_CNTSAT 1).get F.TIME_STATE_MISSES = 2 := by
    rw [State.get_satAdd_ne _ (by decide) (by decide) (by decide), State.get_ivlNext, h]
  have hlt : (s.ivlNext.satAdd F.TIME_MISSCNT_COUNT F.TIME_MISSCNT_OVF W.TIME E.TIME_CNTSAT 1).get F.TIME_STATE_MISSES + 1
      < 2 ^ F.TIME_STATE_MISSES.len - 1 := by
    rw [hmiss]
    decide
  rw [State.ivlMissed, State.satAdd_of_lt hlt, hmiss]

/-- The third miss in Locked moves the state to Coasting. -/
theorem State.boundary_of_third {s : State} (hmeas : s.tm.meas = false) (htrail : s.trails = false) (hlock : s.get F.TIME_STATE_STATE = 2)
    (hmiss : s.get F.TIME_STATE_MISSES = 2) : s.boundary = (s.ivlMissed.syncTo 3).raise W.TIME E.TIME_COASTING
      ∧ s.ivlMissed.get F.TIME_STATE_STATE = 2 ∧ s.ivlMissed.get F.TIME_STATE_MISSES = 3 := by
  have hlock' : s.ivlMissed.get F.TIME_STATE_STATE = 2 := by
    rw [State.ivlMissed_misses hmiss, State.get_set_ne _ _ (by decide), State.get_satAdd_ne _ (by decide) (by decide) (by decide),
      State.get_ivlNext, hlock]
  have hthree : s.ivlMissed.get F.TIME_STATE_MISSES = 3 := by
    rw [State.ivlMissed_misses hmiss, State.get_set_same]
    rfl
  refine ⟨?_, hlock', hthree⟩
  have hgo : s.boundary = (match s.ivlMissed.get F.TIME_STATE_STATE with
      | 2 => if 3 ≤ s.ivlMissed.get F.TIME_STATE_MISSES then (s.ivlMissed.syncTo 3).raise W.TIME E.TIME_COASTING else s.ivlMissed
      | 3 => if 16 ≤ s.ivlMissed.get F.TIME_STATE_MISSES then (s.ivlMissed.syncTo 4).raise W.TIME E.TIME_ADRIFT else s.ivlMissed.driftCheck
      | 5 => if 16 ≤ s.ivlMissed.get F.TIME_STATE_MISSES then (s.ivlMissed.syncTo 4).raise W.TIME E.TIME_ADRIFT else s.ivlMissed.driftCheck
      | _ => s.ivlMissed) := by
    have hno : ¬ (s.tm.meas || s.trails) = true := by simp [hmeas, htrail]
    unfold State.boundary
    exact if_neg hno
  rw [hgo, hlock', hthree]
  rfl

theorem State.boundary_of_measured {s : State} (hmeas : s.tm.meas = true) : s.boundary = s.ivlNext := by
  unfold State.boundary
  exact if_pos (by simp [hmeas])

/-- Settles O21: a measurement in Free leads to Acquiring, SRC 0 to Free, and the third miss in Locked to Coasting. -/
theorem syncStates : Obligations.SyncStates := by
  unfold Obligations.SyncStates
  refine ⟨fun s rq v hon hdbg hsrc hservo htrail hfree => ⟨_, rfl, ?_⟩, fun s rq v hon hdbg hsrc => ⟨_, rfl, ?_⟩,
    fun s rq v hon hdbg hv hst => ⟨_, rfl, ?_⟩, fun s hivl hmeas htrail hlock hmiss => ⟨_, rfl, ?_⟩, fun s hivl hmeas => ⟨_, rfl, ?_⟩⟩
  · rw [State.put_meas v hon hdbg hsrc, State.measure_of_free _ hservo htrail hfree]
    have hne : (s.measNoted (sgn 32 v.toNat)).get F.TIME_STATE_STATE ≠ 1 := by
      rw [State.get_measNoted_ne _ _ (by decide), hfree]
      decide
    obtain ⟨hstate, hchg⟩ := State.syncTo_state (by decide) hne
    refine ⟨hstate, hchg, ?_, ?_, ?_, ?_, ?_, ?_⟩
    · exact (State.getI_congr (State.get_syncTo_ne _ _ (by decide) (by decide))).trans (s.measNoted_last _)
    · exact (State.get_syncTo_ne _ _ (by decide) (by decide)).trans (s.measNoted_misses _)
    · exact (State.get_syncTo_ne _ _ (by decide) (by decide)).trans (s.measNoted_unc _)
    · have hincr : ((s.measNoted (sgn 32 v.toNat)).syncTo 1).tm.incr = (s.measNoted (sgn 32 v.toNat)).tm.incr := by rw [State.syncTo_tm]
      exact hincr.trans (s.measNoted_incr _)
    · exact State.keeps_syncTo (by simp) (by simp) (State.keeps_measNoted _ (by decide))
    · exact (State.syncTo_mem _ _).trans (s.measNoted_mem _)
  · rw [State.put_meas_of_other v hon hdbg hsrc]
    exact ⟨rfl, fun _ _ => rfl, rfl⟩
  · have hne : ((({ s.syncCfgSet v.toNat with tm := { (s.syncCfgSet v.toNat).tm with elapsed := 0 } } : State).setUnc 0xFFFFFFFF)).get
        F.TIME_STATE_STATE ≠ 0 := by
      have hkeep : (s.syncCfgSet v.toNat).get F.TIME_STATE_STATE = s.get F.TIME_STATE_STATE :=
        State.keeps_sets (l := [F.TIME_SYNCCFG_SRC, F.TIME_SYNCCFG_SERVO, F.TIME_SYNCCFG_STEPOK, F.TIME_SYNCCFG_KP, F.TIME_SYNCCFG_KI])
          (by simp) (s.keeps_refl _) _ (by decide)
      rw [State.setUnc, State.get_set_ne _ _ (by decide)]
      exact fun h => hst (hkeep.symm.trans h)
    obtain ⟨hstate, hchg⟩ := State.syncTo_state (by decide) hne
    rw [State.put_syncSrc_zero v hon hdbg hv]
    refine ⟨hstate, ?_, ?_, hchg, ?_, ?_, State.syncTo_mem _ _⟩
    · exact (State.get_syncTo_ne _ _ (by decide) (by decide)).trans (State.setUnc_unc _ _)
    · refine (State.get_syncTo_ne _ _ (by decide) (by decide)).trans ((State.get_set_ne _ _ (by decide)).trans ?_)
      exact (s.syncCfgSet_src _).trans hv
    · exact congrArg TimeS.elapsed (State.syncTo_tm _ _)
    · exact State.keeps_syncTo (by simp) (by simp) (State.keeps_set (by simp)
        (State.keeps_congr (t := s.syncCfgSet v.toNat) rfl rfl (State.keeps_sets (by simp) (s.keeps_refl _))))
  · obtain ⟨hgo, hst, hthree⟩ := State.boundary_of_third hmeas htrail hlock hmiss
    obtain ⟨hstate, hchg⟩ := State.syncTo_state (s := s.ivlMissed) (st := 3) (by decide) (by rw [hst]; decide)
    rw [if_pos hivl, hgo]
    refine ⟨?_, ?_, State.ev_raise _ _ _, ?_, ?_, ?_, ?_⟩
    · exact (State.get_raise_ne _ _ _ (by decide)).trans hstate
    · exact (State.get_raise_ne _ _ _ (by decide)).trans ((State.get_syncTo_ne _ _ (by decide) (by decide)).trans hthree)
    · rw [State.ev, State.on, State.get_raise_ne _ _ _ (by decide)]
      exact hchg
    · rw [State.raise_tm, State.syncTo_tm, State.ivlMissed_misses hmiss, State.set_tm,
        (State.satAdd_regsOnly _ _ _ _ _ _).tm]
      rfl
    · refine State.keeps_raise (by simp) (State.keeps_syncTo (by simp) (by simp) ?_)
      rw [State.ivlMissed_misses hmiss]
      exact State.keeps_set (by simp) (State.keeps_satAdd (by simp) (by simp) (by simp) (s.keeps_ivlNext _))
    · rw [State.raise_mem, State.syncTo_mem, State.ivlMissed_misses hmiss, State.set_mem, (State.satAdd_regsOnly _ _ _ _ _ _).mem, State.ivlNext_mem]
  · rw [if_pos hivl, State.boundary_of_measured hmeas]
    exact ⟨rfl, rfl, s.keeps_ivlNext _, s.ivlNext_mem⟩

end Sys2Proof.Machine
end


section
/-!
The tick, slews, steps, and the end of PPS_OUT, R77, R79, R80, R88.
-/

namespace Sys2Proof.Machine

/-! What leaves the clock and memory alone -/

/-- The time, its increment, the slew, the elapsed time of the interval, and memory are in t as in s. -/
structure State.SameClock (s t : State) : Prop where
  tb : t.tm.tb = s.tm.tb
  incr : t.tm.incr = s.tm.incr
  slew : t.tm.slew = s.tm.slew
  elapsed : t.tm.elapsed = s.tm.elapsed
  mem : t.mem = s.mem

theorem State.SameClock.of_eq {s t : State} (htm : t.tm = s.tm) (hmem : t.mem = s.mem) : s.SameClock t :=
  ⟨by rw [htm], by rw [htm], by rw [htm], by rw [htm], hmem⟩

theorem State.SameClock.refl (s : State) : s.SameClock s := .of_eq rfl rfl

theorem State.SameClock.trans {s t u : State} (h : s.SameClock t) (g : t.SameClock u) : s.SameClock u :=
  ⟨g.tb.trans h.tb, g.incr.trans h.incr, g.slew.trans h.slew, g.elapsed.trans h.elapsed, g.mem.trans h.mem⟩

theorem State.RegsOnly.sameClock {s t : State} (h : s.RegsOnly t) : s.SameClock t := .of_eq h.tm h.mem

/-- Taking a step that leaves the clock alone leaves it as it was. -/
theorem State.SameClock.regs {s t u : State} (h : s.SameClock t) (g : t.RegsOnly u) : s.SameClock u := h.trans g.sameClock

/-! A PPDU handed to the path -/

theorem State.wphyCnt_sameClock (s : State) (r n : Nat) : s.SameClock (s.wphyCnt r n) := (s.bump_regsOnly _ _ _).sameClock

theorem State.nocal_regsOnly (s : State) (r : Nat) : s.RegsOnly (s.nocal r) :=
  (s.satAdd_regsOnly _ _ _ _ _).trans (State.raise_regsOnly _ _ _)

theorem State.pwrClass_sameClock (s : State) (r : Nat) : s.SameClock (s.pwrClass r).2 := by
  unfold State.pwrClass
  split
  · exact .refl s
  · split
    · exact .refl s
    · exact ((s.bump_regsOnly _ _ _).trans (State.raise_regsOnly _ _ _)).sameClock
    · exact .refl s
    · exact (s.bump_regsOnly _ _ _).sameClock
    · exact .refl s

theorem State.txRefuse_sameClock (s : State) (r status : Nat) : s.SameClock (s.txRefuse r status) := by
  unfold State.txRefuse
  split
  · exact (s.satAdd_regsOnly _ _ _ _ _).sameClock
  · exact (s.nocal_regsOnly r).sameClock
  · exact ((s.satAdd_regsOnly _ _ _ _ _).trans (State.raise_regsOnly _ _ _)).sameClock
  · exact (s.satAdd_regsOnly _ _ _ _ _).sameClock
  · exact ((s.satAdd_regsOnly _ _ _ _ _).trans (State.raise_regsOnly _ _ _)).sameClock
  · exact .refl s

theorem State.meterAdd_sameClock (s : State) (m window n : Nat) : s.SameClock (s.meterAdd m window n) := by
  unfold State.meterAdd
  dsimp only
  split_ifs
  · refine .trans ?_ ((State.set_regsOnly _ _ _).trans (State.raise_regsOnly _ _ _)).sameClock
    exact .of_eq rfl rfl
  · exact .of_eq rfl rfl

theorem State.limAdmit_sameClock (s : State) (q : LimAsk) : s.SameClock (s.limAdmit q).2 := by
  unfold State.limAdmit
  split
  · exact List.foldlRecOn (motive := fun t => s.SameClock t) _ _ (.refl s) fun t ht e _ => ht.trans ((t.meterAdd_sameClock _ _ _).trans (.of_eq rfl rfl))
  · have hr (off : Nat) : s.RegsOnly ((s.bump 0x05 off E.LIM_CNTSAT).raise 0x05 E.LIM_REFUSED) :=
      (s.bump_regsOnly _ _ _).trans (State.raise_regsOnly _ _ _)
    dsimp only
    split_ifs
    · exact ((hr _).trans (State.bump_regsOnly _ _ _ _)).sameClock
    · exact (hr _).sameClock

theorem State.ppduPow_sameClock (s : State) (r kind fmt cls : Nat) (users : List WUser) : s.SameClock (s.ppduPow r kind fmt cls users).2 := by
  cases users <;> exact .of_eq rfl rfl

theorem State.retune_sameClock (s : State) (r p port i tEnd : Nat) : s.SameClock (s.retune r p port i tEnd) := by
  unfold State.retune
  dsimp only
  split
  · exact .of_eq rfl rfl
  · exact .refl s

theorem State.txAccept_sameClock (s : State) (r p : Nat) (c : TxCmd) : s.SameClock (s.txAccept r p c) := by
  unfold State.txAccept
  split
  · exact .refl s
  · exact (s.retune_sameClock _ _ _ _ _).trans (.of_eq rfl rfl)

theorem State.txBound_sameClock (s : State) (r p : Nat) : s.SameClock (s.txBound r p) := by
  unfold State.txBound
  split
  · exact .refl s
  · exact .of_eq rfl rfl

theorem State.bufRelease_sameClock (s : State) (h : Nat) : s.SameClock (s.bufRelease h) := by
  unfold State.bufRelease
  split <;> exact .of_eq rfl rfl

theorem State.wrxFree_sameClock (s : State) (r : Nat) : s.SameClock (s.wrxFree r) := by
  unfold State.wrxFree
  split
  · exact .refl s
  · exact (s.bufRelease_sameClock _).trans (.of_eq rfl rfl)

theorem State.wAbort_sameClock (s : State) (r : Nat) : s.SameClock (s.wAbort r) := by
  unfold State.wAbort
  split
  · exact .refl s
  · exact ((s.wphyCnt_sameClock _ _).trans (State.wrxFree_sameClock _ _)).trans (.of_eq rfl rfl)

/-- A PPDU on its way holds the medium and stands in the list of its radio. -/
theorem State.queued_sameClock (s : State) (r b : Nat) (l : List WTx) :
    s.SameClock ((s.medBusy r b).setWl { (s.medBusy r b).wl with tx := l }) := .of_eq rfl rfl

/-- A PPDU, taken or refused, leaves the clock and memory. -/
theorem State.ppdu_sameClock (s : State) (r kind fmt ru : Nat) (users : List WUser) (acked : List Nat) (data : List Byte) (timed : Bool)
    (a air : Nat) : s.SameClock (s.ppdu r kind fmt ru users acked data timed a air).2 := by
  unfold State.ppdu
  split
  · exact s.wphyCnt_sameClock _ _
  · have hcls := s.pwrClass_sameClock r
    dsimp only
    split
    · exact hcls
    · have hid : s.SameClock (s.pwrClass r).2.carrId.2 := hcls.trans (.of_eq rfl rfl)
      split_ifs
      · exact (hid.trans (State.txRefuse_sameClock _ _ _)).trans (.of_eq rfl rfl)
      · exact hid.trans (State.limAdmit_sameClock _ _)
      · refine .trans ?_ (State.queued_sameClock _ _ _ _)
        refine .trans ?_ (State.wAbort_sameClock _ _)
        refine .trans ?_ (State.txBound_sameClock _ _ _)
        refine .trans ?_ (State.txAccept_sameClock _ _ _ _)
        exact (hid.trans (State.limAdmit_sameClock _ _)).trans (State.ppduPow_sameClock _ _ _ _ _ _)

/-- A beacon that waits for the medium leaves the clock and memory. -/
theorem State.bcnGo_sameClock (s : State) (r : Nat) : s.SameClock (s.bcnGo r) := by
  unfold State.bcnGo
  split
  · exact .refl s
  · dsimp only
    split
    · exact .refl s
    · refine .trans ?_ (State.ppdu_sameClock _ _ _ _ _ _ _ _ _ _ _)
      exact .of_eq rfl rfl

theorem State.bcnTick_sameClock (s : State) : s.SameClock s.bcnTick :=
  ((s.bcnGo_sameClock 0).trans (State.bcnGo_sameClock _ 1)).trans (State.bcnGo_sameClock _ 2)

/-! The tick -/

theorem State.driftCheck_sameClock (s : State) : s.SameClock s.driftCheck := by
  unfold State.driftCheck
  dsimp only
  split
  · exact .trans ⟨by rw [State.syncTo_tm], by rw [State.syncTo_tm], by rw [State.syncTo_tm], by rw [State.syncTo_tm], s.syncTo_mem 4⟩
      (State.raise_regsOnly _ _ _).sameClock
  · exact .refl s

theorem State.growUnc_sameClock (s : State) (dt : Nat) : s.SameClock (s.growUnc dt) := by
  unfold State.growUnc
  split
  · exact .refl s
  · refine .trans ?_ (State.driftCheck_sameClock _)
    exact ⟨rfl, rfl, rfl, rfl, rfl⟩

theorem State.residency_sameClock (s : State) (dt : Nat) : s.SameClock (s.residency dt) := .of_eq rfl rfl

theorem State.slewNow_of_none {s : State} (hrun : s.tm.tick = .run) (hslew : s.tm.slew = 0) : s.slewNow = 0 := by
  simp [State.slewNow, State.slewPart, hrun, hslew, Tick.scale]

theorem State.tickAdd_of_no_slew {s : State} (hrun : s.tm.tick = .run) (hslew : s.tm.slew = 0) : s.tickAdd = s.tm.incr := by
  simp [State.tickAdd, State.slewNow_of_none hrun hslew, hrun, Tick.scale]

/-- What a pulse of PPS_OUT at the tick leaves. -/
theorem State.ppsPulse_frame (s : State) (a b : Nat) : (s.ppsPulse a b).tm.incr = s.tm.incr ∧ (s.ppsPulse a b).tm.elapsed = s.tm.elapsed
    ∧ (s.ppsPulse a b).mem = s.mem := by
  unfold State.ppsPulse
  split <;> exact ⟨rfl, rfl, rfl⟩

/-- The state of the clock after a tick, the pulse of PPS_OUT at it done. -/
def State.ticked (s t : State) : State :=
  { t with tm := { t.tm with tb := s.tickNext.1, slew := s.tm.slew - s.slewNow, pend := [], elapsed := t.tm.elapsed + s.tm.tick.period,
                             mono := t.tm.mono + s.tm.tick.period, calAcc := t.tm.calAcc + s.tickAdd } }

theorem State.tickTime_eq {s : State} (hlive : s.live = true) (hrun : s.tm.tick = .run) (hpend : s.tm.pend = []) :
    s.tickTime = (((((s.ticked (s.ppsPulse s.tm.tb (s.tm.tb + s.tickAdd))).raiseIf s.tickNext.2.2 W.TIME E.TIME_STEPREF).followStep
      s.tickNext.2.1).residency s.tm.tick.period).growUnc s.tm.tick.period) := by
  have hgo : ¬ (s.tm.tick == .stopped || !s.live) = true := by simp [hrun, hlive]
  have hop : tickOp s = (((((s.ticked (s.ppsPulse s.tm.tb (s.tm.tb + s.tickAdd))).raiseIf s.tickNext.2.2 W.TIME E.TIME_STEPREF).followStep
      s.tickNext.2.1).residency s.tm.tick.period).growUnc s.tm.tick.period) := by
    unfold tickOp
    exact if_neg hgo
  have hhush : ¬ (s.tm.tick == .hush) = true := by simp [hrun]
  rw [State.tickTime, hpend, List.isEmpty_nil, if_pos rfl, if_neg hhush, hop]

/-- A tick with nothing pending adds the increment. -/
theorem State.tickTime_frame {s : State} (hlive : s.live = true) (hrun : s.tm.tick = .run) (hpend : s.tm.pend = []) (hslew : s.tm.slew = 0) :
    s.tickTime.tm.tb = (s.tm.tb + s.tm.incr) % tbMod ∧ s.tickTime.tm.elapsed = s.tm.elapsed + 4 ∧ s.tickTime.tm.incr = s.tm.incr
      ∧ s.tickTime.tm.slew = 0 ∧ s.tickTime.mem = s.mem := by
  have hadd := State.tickAdd_of_no_slew hrun hslew
  have hnext : s.tickNext = ((s.tm.tb + s.tm.incr) % tbMod, 0, false) := by simp [State.tickNext, hpend, hadd]
  obtain ⟨hincr, helapsed, hmem⟩ := s.ppsPulse_frame s.tm.tb (s.tm.tb + s.tickAdd)
  have hfollow (t : State) : t.followStep 0 = t := if_pos rfl
  rw [State.tickTime_eq hlive hrun hpend, hnext, hfollow, hrun]
  have hsame := ((State.raiseIf_regsOnly (s.ticked (s.ppsPulse s.tm.tb (s.tm.tb + s.tickAdd))) false W.TIME E.TIME_STEPREF).sameClock.trans
    (State.residency_sameClock _ Tick.run.period)).trans (State.growUnc_sameClock _ Tick.run.period)
  refine ⟨hsame.tb.trans ?_, hsame.elapsed.trans ?_, hsame.incr.trans hincr, hsame.slew.trans ?_, hsame.mem.trans hmem⟩
  · rw [State.ticked, hnext]
  · simp only [State.ticked, helapsed, hrun]
    rfl
  · simp [State.ticked, hslew, State.slewNow_of_none hrun hslew]

/-! Slews and steps -/

theorem State.put_slew {s : State} {rq : Rq} (v : Word) (hon : s.winOn W.TIME = true) (hdbg : rq.cls = 2 → s.dbgLevel = 2) :
    s.put rq W.TIME 0x5C v = (s.setSlew (sgn 32 v.toNat)).answer 0 := by
  rw [State.put_eq v (by decide) (by decide) (by decide) hon hdbg]
  rfl

theorem State.tabWrite_step (s : State) (rq : Rq) (v : Nat) : s.tabWrite rq W.TIME 0x58 v = s := by
  have hrow : regAt W.TIME 0x58 = some (⟨"TIME_STEP", 0x58, 4, 1, 4, 1, [⟨0, 32, .wo, .is 0, .any, false, false⟩]⟩, 0) := by decide
  rw [State.tabWrite_of_row s rq hrow (by decide)]
  rfl

theorem State.put_step {s : State} {rq : Rq} (v : Word) (hon : s.winOn W.TIME = true) (hdbg : rq.cls = 2 → s.dbgLevel = 2) :
    s.put rq W.TIME 0x58 v = (s.askStep (sgn 32 v.toNat)).answer 0 := by
  rw [State.put_of_plain v (by decide) (by decide) (by decide) (by decide) hon hdbg (by decide), s.tabWrite_step rq v.toNat]
  rfl

/-- A step forward with no Tile enabled waits for the next tick. -/
theorem State.askStep_of_forward {s : State} {n : Int} (htile : s.anyTile = false) (hn : 0 ≤ n) :
    s.askStep n = { s with tm := { s.tm with pend := s.tm.pend ++ [.step n] } } := by
  have hno : ¬ ((s.anyTile && s.stepMax < n.natAbs) || (s.tickNext.1 : Int) + n * 2 ^ 32 < 0) = true := by
    simp only [htile, Bool.false_and, Bool.false_or, decide_eq_true_eq]
    omega
  exact if_neg hno

/-- A step beyond the limit while a Tile is enabled is refused. -/
theorem State.askStep_of_large {s : State} {n : Int} (htile : s.anyTile = true) (hn : s.stepMax < n.natAbs) :
    s.askStep n = s.raise W.TIME E.TIME_STEPREF := by
  simp [State.askStep, htile, hn]

/-- Settles O19: a tick adds the increment, a slew replaces what is left of the last, and a step waits or is refused. -/
theorem tickAndSlew : Obligations.TickAndSlew := by
  unfold Obligations.TickAndSlew
  refine ⟨fun s hlive hrun hpend hslew => ⟨_, rfl, ?_⟩, fun s rq v hon hdbg => ⟨_, rfl, ?_⟩, fun s hslewing hslew => ⟨_, rfl, ?_⟩,
    fun s rq v hon hdbg htile hn => ⟨_, rfl, ?_⟩, fun s rq v hon hdbg htile hn => ⟨_, rfl, ?_⟩, fun s hout hend => ⟨_, rfl, ?_⟩⟩
  · obtain ⟨htb, helapsed, hincr, hslew', hmem⟩ := State.tickTime_frame hlive hrun hpend hslew
    have hbcn := s.tickTime.bcnTick_sameClock
    exact ⟨hbcn.tb.trans htb, hbcn.elapsed.trans helapsed, hbcn.incr.trans hincr, hbcn.slew.trans hslew', hbcn.mem.trans hmem⟩
  · rw [State.put_slew v hon hdbg]
    exact ⟨rfl, rfl, rfl, fun _ _ => rfl, rfl⟩
  · rw [if_pos (by simp [hslewing, hslew])]
    exact ⟨by simp, State.ev_raise _ _ _, by simp, State.keeps_raise (by simp) (State.keeps_congr (t := s) rfl rfl (s.keeps_refl _)), by simp⟩
  · rw [State.put_step v hon hdbg, State.askStep_of_forward htile hn]
    exact ⟨rfl, rfl, fun _ _ => rfl, rfl⟩
  · rw [State.put_step v hon hdbg, State.askStep_of_large htile hn]
    exact ⟨State.ev_raise _ _ _, State.raise_tm _ _ _, State.keeps_raise (by simp) (s.keeps_refl _), State.raise_mem _ _ _⟩
  · rw [if_pos (by simp [hout, hend])]
    exact ⟨rfl, rfl, fun _ _ => rfl, rfl⟩

end Sys2Proof.Machine
end


section
/-!
Grants, the arming of the taps of a radio, and its channel, R201, R205, R212.
-/

namespace Sys2Proof.Machine

/-! Grants -/

/-- A word of a grant set reads back; the others stay. -/
theorem State.grantW_setGrantW (s : State) (i w v : Nat) {k : Nat} (hk : k < 4) (hv : v ≠ 0) (hw : w < 4) :
    (s.setGrantW i w v).grantW i k = if k = w then v else s.grantW i k := by
  have hne : ¬ ((List.range 4).map fun k => if k = w then v else s.grantW i k) = [0, 0, 0, 0] := by
    intro h
    have hget := congrArg (fun l => l[w]?) h
    interval_cases w <;> simp [List.range, List.range.loop, hv] at hget
  have hgrants : kget (s.setGrantW i w v).wl.grants i = some ((List.range 4).map fun k => if k = w then v else s.grantW i k) := by
    simp only [State.setGrantW, if_neg hne, State.setWl]
    exact kget_kset_same _ _ _
  rw [State.grantW, hgrants]
  interval_cases k <;> rfl

/-- A grant at its end is no longer valid, and shows that it expired. -/
theorem State.grantExp_of_end {s : State} {i : Nat} (hvalid : bitOf (s.grantW i 0) 16 = true) (hend : s.grantEnd i ≤ s.sec) :
    s.grantExp i = (s.setGrantW i 0 (s.grantW i 0 % 65536 + 2 ^ 17)).raise (W.WPHY 2) E.WPHY_GRANTEXP := by
  simp [State.grantExp, hvalid, hend]

theorem State.grantExp_of_early {s : State} {i : Nat} (h : s.sec < s.grantEnd i) : s.grantExp i = s := by
  simp [State.grantExp, Nat.not_le.mpr h]

theorem State.grantW_raise (s : State) (w b i k : Nat) : (s.raise w b).grantW i k = s.grantW i k := by
  rw [State.grantW, State.grantW, State.raise_wl]

/-! Writes of a radio -/

/-- The key of a register field of a radio. -/
theorem wphy_key_ne {r off lo off' lo' : Nat} {l l' x x' : Nat} (hlo : lo < 32) (hlo' : lo' < 32) (h : off ≠ off' ∨ lo ≠ lo') :
    (mkF (0x18 + r) off lo l x).key ≠ (mkF (0x18 + r) off' lo' l' x').key := by
  simp only [mkF]
  omega

theorem winOk_wphy : ∀ r < 3, winOk (W.WPHY r) = true ∧ W.WPHY r ≠ W.DBG ∧ specialAt (W.WPHY r) 0x44 = false
    ∧ specialAt (W.WPHY r) 0x54 = false := by decide

/-- The register of the channel command. -/
def chanctlRow : RegRow := ⟨"WPHY_CHANCTL", 0x44, 4, 1, 4, 1, [⟨0, 1, .w1s, .is 0, .any, false, false⟩,
  ⟨1, 1, .ro, .is 0, .any, false, false⟩, ⟨4, 3, .ro, .is 0, .any, false, false⟩]⟩

/-- The register of the taps. -/
def eqcfgRow : RegRow := ⟨"WPHY_EQCFG", 0x54, 4, 1, 4, 1, [⟨0, 12, .rw, .is 0, .any, false, false⟩,
  ⟨12, 2, .rw, .is 1, .within 0 2, false, false⟩, ⟨14, 1, .w1s, .is 0, .any, false, false⟩, ⟨15, 1, .ro, .is 0, .any, false, false⟩]⟩

theorem regAt_wphy : ∀ r < 3, regAt (W.WPHY r) 0x44 = some (chanctlRow, 0) ∧ regAt (W.WPHY r) 0x54 = some (eqcfgRow, 0) := by decide

theorem fldHere_wphy : ∀ r < 3, (chanctlRow.flds.all fun f => fldHere (W.WPHY r) 0x44 f.lo) = true
    ∧ (eqcfgRow.flds.all fun f => fldHere (W.WPHY r) 0x54 f.lo) = true := by decide

/-- A word written to a register that has all its fields goes to each of them. -/
theorem State.tabWrite_of_full (s : State) (rq : Rq) {w off j v : Nat} {r : RegRow} (hr : regAt w off = some (r, j))
    (hall : (r.flds.all fun f => fldHere w off f.lo) = true) : s.tabWrite rq w off v = r.flds.foldl (s.fldWrite rq w off j v) s := by
  have hfil : r.flds.filter (fun f => fldHere w off f.lo) = r.flds := List.filter_eq_self.mpr (List.all_eq_true.mp hall)
  simp only [State.tabWrite, hr, hfil]

theorem State.put_chanctl {s : State} {rq : Rq} {r : Nat} {v : Word} (hr : r < 3) (hon : s.winOn (W.WPHY r) = true)
    (hdbg : rq.cls = 2 → s.dbgLevel = 2) (hv : v.toNat % 2 = 1) : s.put rq (W.WPHY r) 0x44 v = (s.chanCommit r).answer 0 := by
  obtain ⟨hwin, hnd, hp, -⟩ := winOk_wphy r hr
  have htab : s.tabWrite rq (W.WPHY r) 0x44 v.toNat = s := by
    rw [State.tabWrite_of_full s rq (regAt_wphy r hr).1 (fldHere_wphy r hr).1]
    simp only [chanctlRow, List.foldl_cons, List.foldl_nil, State.fldWrite_of_w1s, State.fldWrite_of_ro]
  have hbit : bitOf v.toNat 0 = true := by simp [bitOf, hv]
  rw [State.put_of_plain v hwin (by decide) (by decide) hnd hon hdbg hp, htab]
  interval_cases r <;> simp +decide only [State.hook, State.hookWlan, hbit] <;> rfl

/-! The taps -/

/-- The fields AID and NG of the taps register. -/
def aidFld : FldRow := ⟨0, 12, .rw, .is 0, .any, false, false⟩
def ngFld : FldRow := ⟨12, 2, .rw, .is 1, .within 0 2, false, false⟩

theorem State.fldReserved_aid (s : State) (r x v : Nat) : s.fldReserved (W.WPHY r) 0x54 0 aidFld x v = false := by
  simp [State.fldReserved, aidFld, W.WPHY, W.MPHY]

/-- The code 3 of NG is reserved. -/
theorem State.fldReserved_ng (s : State) (r x v : Nat) : s.fldReserved (W.WPHY r) 0x54 0 ngFld x v = !decide (x ≤ 2) := by
  simp [State.fldReserved, ngFld, W.WPHY, W.MPHY]

/-- A field of the taps register that software writes takes a code that is not reserved. -/
theorem State.fldWrite_eqcfg {s0 : State} (s : State) (rq : Rq) {r v : Nat} {f : FldRow} (hr : r < 3) (hacc : f.acc = .rw)
    (hlock : f.lock = false) (hwd : f.wd = false) (hst : storeAs f.store = id)
    (hres : s0.fldReserved (W.WPHY r) 0x54 0 f (v / 2 ^ f.lo % 2 ^ f.len) v = false) :
    s0.fldWrite rq (W.WPHY r) 0x54 0 v s f = s.set (fldOf (W.WPHY r) 0x54 0 f) (v / 2 ^ f.lo % 2 ^ f.len) := by
  have htake : s0.regTakes (W.WPHY r) 0x54 = true := by interval_cases r <;> rfl
  have hapc : W.WPHY r ≠ W.APC := by
    simp only [W.WPHY, W.APC]
    omega
  have hmlc : W.WPHY r ≠ W.MLC := by
    simp only [W.WPHY, W.MLC]
    omega
  rw [State.fldWrite_of_rw s rq hacc hlock hwd hres htake (s0.ringTakes_of_ne _ _ _ _ hapc) (s0.sfBars_of_ne _ _ _ _ _ hmlc), hst]
  rfl

/-- A reserved code is an error of the window. -/
theorem State.fldWrite_of_reserved {s0 : State} (s : State) (rq : Rq) {w off j v : Nat} {f : FldRow} (hacc : f.acc = .rw)
    (hlock : f.lock = false) (hres : s0.fldReserved w off j f (v / 2 ^ f.lo % 2 ^ f.len) v = true) :
    s0.fldWrite rq w off j v s f = s.errRec rq w off 5 := by
  simp [State.fldWrite, hacc, hlock, hres]

/-- The state with a word in AID and NG of a radio's taps register. -/
def State.eqcfgSet (s : State) (r v : Nat) : State :=
  (s.set (F.WPHY_EQCFG_AID r) (v / 2 ^ 0 % 2 ^ 12)).set (F.WPHY_EQCFG_NG r) (v / 2 ^ 12 % 2 ^ 2)

theorem State.tabWrite_eqcfg (s : State) (rq : Rq) {r v : Nat} (hr : r < 3) :
    s.tabWrite rq (W.WPHY r) 0x54 v = if v / 2 ^ 12 % 2 ^ 2 ≤ 2 then s.eqcfgSet r v
      else (s.set (F.WPHY_EQCFG_AID r) (v / 2 ^ 0 % 2 ^ 12)).errRec rq (W.WPHY r) 0x54 5 := by
  rw [State.tabWrite_of_full s rq (regAt_wphy r hr).2 (fldHere_wphy r hr).2]
  have haid := State.fldWrite_eqcfg (s0 := s) s rq (v := v) (f := aidFld) hr rfl rfl rfl rfl (s.fldReserved_aid r _ _)
  have hfold : eqcfgRow.flds.foldl (s.fldWrite rq (W.WPHY r) 0x54 0 v) s =
      s.fldWrite rq (W.WPHY r) 0x54 0 v (s.fldWrite rq (W.WPHY r) 0x54 0 v s aidFld) ngFld := by
    simp only [eqcfgRow, List.foldl_cons, List.foldl_nil, State.fldWrite_of_w1s, State.fldWrite_of_ro]
    rfl
  rw [hfold, haid]
  split
  next hng =>
    refine State.fldWrite_eqcfg _ rq (f := ngFld) hr rfl rfl rfl rfl ?_
    rw [s.fldReserved_ng, Bool.not_eq_false', decide_eq_true_eq]
    exact hng
  next hng =>
    have hres : s.fldReserved (W.WPHY r) 0x54 0 ngFld (v / 2 ^ ngFld.lo % 2 ^ ngFld.len) v = true := by
      rw [s.fldReserved_ng, Bool.not_eq_true', decide_eq_false_iff_not]
      exact hng
    rw [State.fldWrite_of_reserved _ rq rfl rfl hres]
    rfl

theorem State.put_eqcfg {s : State} {rq : Rq} {r : Nat} {v : Word} (hr : r < 3) (hon : s.winOn (W.WPHY r) = true)
    (hdbg : rq.cls = 2 → s.dbgLevel = 2) (harm : v.toNat / 2 ^ 14 % 2 = 1) :
    ∃ n, s.put rq (W.WPHY r) 0x54 v = ((s.tabWrite rq (W.WPHY r) 0x54 v.toNat).wEqArm rq r n).answer 0
      ∧ n = (s.tabWrite rq (W.WPHY r) 0x54 v.toNat).get (F.WPHY_EQCFG_NG r) * 2 ^ 12 := by
  obtain ⟨hwin, hnd, -, hp⟩ := winOk_wphy r hr
  have hbit : bitOf v.toNat 14 = true := beq_iff_eq.mpr harm
  refine ⟨_, ?_, rfl⟩
  rw [State.put_of_plain v hwin (by decide) (by decide) hnd hon hdbg hp]
  interval_cases r <;> simp +decide only [State.hook, State.hookWlan, hbit] <;> rfl

/-- The octets that the taps of a radio take at the code 2 of NG. -/
theorem eqOctets_le : ∀ r < 3, ([484, 1992, 3984].getD r 0 + ngOf (bitsOf (2 * 2 ^ 12) 12 2) - 1) / ngOf (bitsOf (2 * 2 ^ 12) 12 2)
    * [4, 8, 8].getD r 0 * [4, 8, 8].getD r 0 * 8 ≤ 127488 := by decide

/-- With room for the taps, ARM sets ARMED. -/
theorem State.wEqArm_of_room {s : State} (rq : Rq) {r : Nat} (hr : r < 3) (hlo : 0x13000000 ≤ s.get (F.WPHY_EQADDR_ADDR r))
    (hal : s.get (F.WPHY_EQADDR_ADDR r) % 8 = 0) (hhi : s.get (F.WPHY_EQADDR_ADDR r) + 127488 ≤ 0x14000000) :
    s.wEqArm rq r (2 * 2 ^ 12) = s.set (F.WPHY_EQCFG_ARMED r) 1 := by
  have hend : s.get (F.WPHY_EQADDR_ADDR r) + ([484, 1992, 3984].getD r 0 + ngOf (bitsOf (2 * 2 ^ 12) 12 2) - 1) / ngOf (bitsOf (2 * 2 ^ 12) 12 2)
    * [4, 8, 8].getD r 0 * [4, 8, 8].getD r 0 * 8 ≤ 0x14000000 := le_trans (Nat.add_le_add_left (eqOctets_le r hr) _) hhi
  unfold State.wEqArm
  exact if_pos (by simp only [hlo, hal, hend, decide_true, Bool.and_self])

/-- With no room for the taps, ARM is an error. -/
theorem State.wEqArm_of_low {s : State} (rq : Rq) {r : Nat} (n : Nat) (hlo : s.get (F.WPHY_EQADDR_ADDR r) < 0x13000000) :
    s.wEqArm rq r n = s.errRec rq (W.WPHY r) 0x54 5 := by
  unfold State.wEqArm
  exact if_neg (by simp [hlo])

theorem State.get_eqcfgSet_ne (s : State) (r v : Nat) {f : Fld} (haid : f.key ≠ (F.WPHY_EQCFG_AID r).key)
    (hng : f.key ≠ (F.WPHY_EQCFG_NG r).key) : (s.eqcfgSet r v).get f = s.get f := by
  rw [State.eqcfgSet, State.get_set_ne _ _ hng, State.get_set_ne _ _ haid]

theorem State.eqcfgSet_get (s : State) (r v : Nat) : (s.eqcfgSet r v).get (F.WPHY_EQCFG_NG r) = v / 2 ^ 12 % 2 ^ 2
    ∧ (s.eqcfgSet r v).get (F.WPHY_EQCFG_AID r) = v % 4096 := by
  have hne : (F.WPHY_EQCFG_AID r).key ≠ (F.WPHY_EQCFG_NG r).key := wphy_key_ne (by decide) (by decide) (.inr (by decide))
  rw [State.eqcfgSet, State.get_set_same, State.get_set_ne _ _ hne, State.get_set_same]
  simp only [F.WPHY_EQCFG_NG, F.WPHY_EQCFG_AID, mkF, Nat.pow_zero, Nat.div_one]
  exact ⟨Nat.mod_mod _ _, Nat.mod_mod _ _⟩

/-- A window's first error leaves the fields of a radio's other registers. -/
theorem State.get_errRec_wphy (s : State) (rq : Rq) (r off cause : Nat) {o lo l x : Nat} (hlo : lo < 32) (ho : o ≠ 0x2C) :
    (s.errRec rq (W.WPHY r) off cause).get (mkF (0x18 + r) o lo l x) = s.get (mkF (0x18 + r) o lo l x) := by
  refine s.keeps_errRec rq _ off cause _ fun g hg => ?_
  simp only [errRegs, List.mem_cons, List.not_mem_nil, or_false] at hg
  obtain rfl | rfl | rfl | rfl | rfl := hg <;> exact wphy_key_ne hlo (by decide) (.inl ho)

theorem State.errRec_of_later {s : State} (rq : Rq) {w : Nat} (off cause : Nat) (h : s.on (F.ERRINFO_VALID w) = true) :
    s.errRec rq w off cause = s := by
  simp [State.errRec, h]

/-- ARM with no room records cause 5 and leaves ARMED. -/
theorem State.eqcfg_refused {s : State} (rq : Rq) {r : Nat} (v : Nat) (hr : r < 3) (n : Nat)
    (hlo : s.get (F.WPHY_EQADDR_ADDR r) < 0x13000000) (hfirst : s.on (F.ERRINFO_VALID (W.WPHY r)) = false) :
    ∃ u, (s.tabWrite rq (W.WPHY r) 0x54 v).wEqArm rq r n = u ∧ u.get (F.ERRINFO_CAUSE (W.WPHY r)) = 5
      ∧ u.get (F.ERRINFO_VALID (W.WPHY r)) = 1 ∧ u.get (F.WPHY_EQCFG_ARMED r) = s.get (F.WPHY_EQCFG_ARMED r) ∧ u.mem = s.mem := by
  have haid {off lo l x : Nat} (hlo : lo < 32) (ho : off ≠ 0x54 ∨ lo ≠ 0) :
      (s.set (F.WPHY_EQCFG_AID r) (v / 2 ^ 0 % 2 ^ 12)).get (mkF (0x18 + r) off lo l x) = s.get (mkF (0x18 + r) off lo l x) :=
    State.get_set_ne _ _ (wphy_key_ne hlo (by decide) ho)
  rw [s.tabWrite_eqcfg rq hr]
  split
  · have hset {off lo l x : Nat} (hlo : lo < 32) (ho : off ≠ 0x54 ∨ lo ≠ 0 ∧ lo ≠ 12) :
        (s.eqcfgSet r v).get (mkF (0x18 + r) off lo l x) = s.get (mkF (0x18 + r) off lo l x) :=
      s.get_eqcfgSet_ne r v (wphy_key_ne hlo (by decide) (by omega)) (wphy_key_ne hlo (by decide) (by omega))
    have hfirst' : (s.eqcfgSet r v).on (F.ERRINFO_VALID (W.WPHY r)) = false :=
      (congrArg (· != 0) (hset (by decide) (.inl (by decide)))).trans hfirst
    obtain ⟨hcause, hvalid, hregs⟩ := State.errRec_of_first rq 0x54 (by decide : 5 < 16) hfirst'
    refine ⟨_, State.wEqArm_of_low rq n ?_, hcause, hvalid, ?_, hregs.mem⟩
    · exact lt_of_eq_of_lt (hset (by decide) (.inl (by decide))) hlo
    · exact (State.get_errRec_wphy _ rq r _ _ (by decide) (by decide)).trans (hset (by decide) (.inr (by decide)))
  · have hfirst' : (s.set (F.WPHY_EQCFG_AID r) (v / 2 ^ 0 % 2 ^ 12)).on (F.ERRINFO_VALID (W.WPHY r)) = false :=
      (congrArg (· != 0) (haid (by decide) (.inl (by decide)))).trans hfirst
    obtain ⟨hcause, hvalid, hregs⟩ := State.errRec_of_first rq 0x54 (by decide : 5 < 16) hfirst'
    refine ⟨_, (State.wEqArm_of_low rq n ?_).trans (State.errRec_of_later rq _ _ ?_), hcause, hvalid, ?_, hregs.mem⟩
    · exact lt_of_eq_of_lt ((State.get_errRec_wphy _ rq r _ _ (by decide) (by decide)).trans (haid (by decide) (.inl (by decide)))) hlo
    · rw [State.on, hvalid]
      rfl
    · exact (State.get_errRec_wphy _ rq r _ _ (by decide) (by decide)).trans (haid (by decide) (.inr (by decide)))

/-! The channel -/

theorem State.chanCause_of_bad {s : State} {r : Nat}
    (h : chanOk r (s.get (F.WPHY_CHANSTAGE_PRIMARY r)) (s.get (F.WPHY_CHANSTAGE_WIDTH r)) = false) : s.chanCause r = 1 := by
  simp [State.chanCause, h]

theorem State.chanCause_of_good {s : State} {r : Nat}
    (h : chanOk r (s.get (F.WPHY_CHANSTAGE_PRIMARY r)) (s.get (F.WPHY_CHANSTAGE_WIDTH r)) = true) (hdis : s.get (F.WPHY_CHANSTAGE_DISSUB r) = 0)
    (hlim : s.lim.img = none) (hcal : (s.calFind r 0 (chanKHz r (s.stageN r)) (s.get (F.WPHY_CHANSTAGE_WIDTH r))).isSome = true) :
    s.chanCause r = 0 := by
  have hgone (w c : Nat) : s.chanGone r w c = false := by simp [State.chanGone, hlim]
  have hfound : (s.calFind r 0 (chanKHz r (s.stageN r)) (s.get (F.WPHY_CHANSTAGE_WIDTH r))).isNone = false := by
    rw [← Option.not_isSome, hcal]
    rfl
  simp [State.chanCause, h, hdis, hgone, hfound]

/-- The registers of a channel command that ended with a cause. -/
def State.chanJudged (s : State) (r c : Nat) : State := (s.set (F.WPHY_CHANCTL_CAUSE r) c).set (F.WPHY_CHANCTL_PENDING r) (b2n (c == 0))

theorem State.chanJudged_get (s : State) {r c : Nat} (hc : c < 8) : (s.chanJudged r c).get (F.WPHY_CHANCTL_CAUSE r) = c
    ∧ (s.chanJudged r c).on (F.WPHY_CHANCTL_PENDING r) = (c == 0) := by
  have hne : (F.WPHY_CHANCTL_CAUSE r).key ≠ (F.WPHY_CHANCTL_PENDING r).key := wphy_key_ne (by decide) (by decide) (.inr (by decide))
  refine ⟨?_, ?_⟩
  · rw [State.chanJudged, State.get_set_ne _ _ hne, State.get_set_same]
    exact Nat.mod_eq_of_lt hc
  · rw [State.chanJudged, State.on, State.get_set_same]
    cases hz : c == 0 <;> rfl

theorem State.keeps_chanJudged (s : State) (r c : Nat) {l : List Fld} (hc : F.WPHY_CHANCTL_CAUSE r ∈ l) (hp : F.WPHY_CHANCTL_PENDING r ∈ l) :
    s.keeps (s.chanJudged r c) l :=
  State.keeps_set hp (State.keeps_set hc (s.keeps_refl _))

theorem State.chanCommit_of_bad {s : State} {r : Nat} (h : s.chanCause r = 1) :
    s.chanCommit r = (s.chanJudged r 1).raise (W.WPHY r) E.WPHY_CHREF := by
  simp only [State.chanCommit, h]
  rfl

/-- The state with the channel staged for a radio. -/
def State.chanStaged (s : State) (r : Nat) : State :=
  (s.chanJudged r 0).setWl { (s.chanJudged r 0).wl with stage := kset (s.chanJudged r 0).wl.stage r (s.chanStage r + s.stageN r * 2 ^ 32) }

theorem State.chanCommit_of_good {s : State} {r : Nat} (h : s.chanCause r = 0) : s.chanCommit r = s.chanStaged r := by
  simp only [State.chanCommit, h]
  rfl

/-! The channel takes effect -/

theorem State.calFind_congr {s t : State} (h : t.rfe = s.rfe) (r p f width : Nat) : t.calFind r p f width = s.calFind r p f width := by
  unfold State.calFind State.calW
  rw [h]

theorem State.retunes_congr {s t : State} (h : t.rfe = s.rfe) (r p port i : Nat) : t.retunes r p port i = s.retunes r p port i := by
  simp only [State.retunes, State.path, State.preselOf, State.calW, h]

/-- An entry found is one of the radio's. -/
theorem State.calFind_lt {s : State} {r p f width i : Nat} (hr : r < 3) (h : s.calFind r p f width = some i) : i < 64 := by
  have hall : ∀ b ∈ s.calFind r p f width, b < 64 := by
    unfold State.calFind
    rw [if_neg (by omega)]
    refine List.foldlRecOn (motive := fun b : Option Nat => ∀ x ∈ b, x < 64) _ _ (by simp) fun b hb a ha => ?_
    have hlt : a < 64 := List.mem_range.mp ha
    split
    · split
      · simpa using hlt
      · split
        · simpa using hlt
        · exact hb
    · exact hb
  exact hall i h

/-- The state with a radio's channel word v in force. -/
def State.chanShown (s : State) (r v : Nat) : State :=
  let t := (s.set (F.WPHY_CHANCTL_PENDING r) 0).set (F.WPHY_CHANCUR_CHAN r) (v % 2 ^ 32)
  (t.setWl { t.wl with cen := kset t.wl.cen r (v / 2 ^ 32) }).raise (W.WPHY r) E.WPHY_CHAPPLIED

/-- The entry i in force on the path of a radio, with its retune. -/
def State.entrySet (s : State) (r i : Nat) : State :=
  (s.retune r 0 0 i (s.ns + tuneTime r)).set (F.RFE_PATHSTAT_ENTRY r 0) i

theorem State.rxEntry_of_found {s : State} {r freq width i : Nat} (hr : r < 3) (h : s.calFind r 0 freq width = some i) :
    s.rxEntry r 0 freq width = s.entrySet r i := by
  simp only [State.rxEntry, h, if_pos hr, State.entrySet]

/-- The quiet periods taken again change the record of MLC alone. -/
theorem State.quietAgain_eq (s : State) : ∃ m, s.quietAgain = s.setMlc m := by
  refine List.foldlRecOn (motive := fun u => ∃ m, u = s.setMlc m) _ _ ⟨s.mlc, rfl⟩ ?_
  rintro _ ⟨m, rfl⟩ e -
  dsimp only
  split
  · exact ⟨m, rfl⟩
  · unfold State.quietGive
    dsimp only
    split
    · exact ⟨_, rfl⟩
    · exact ⟨m, rfl⟩

/-- An idle radio takes the channel staged for it. -/
theorem State.chanApply_of_idle {s : State} {r x : Nat} (hpend : s.on (F.WPHY_CHANCTL_PENDING r) = true) (hon : s.winOn (W.WPHY r) = true)
    (hhold : (s.wmac r).hold ≤ s.ns) (hrx : (s.wrx r).st = 0) (htx : (s.path r 0).txs = []) (hstage : kget s.wl.stage r = some x) :
    s.chanApply r = if r = 0 then ((s.chanShown r x).rxEntry r 0 ((s.chanShown r x).chanC r) ((s.chanShown r x).chanW r)).quietAgain
      else (s.chanShown r x).rxEntry r 0 ((s.chanShown r x).chanC r) ((s.chanShown r x).chanW r) := by
  have hgo : ¬ (!s.on (F.WPHY_CHANCTL_PENDING r) || !s.winOn (W.WPHY r) || s.ns < (s.wmac r).hold || (s.wrx r).st ≠ 0
      || !(s.path r 0).txs.isEmpty) = true := by
    simp [hpend, hon, hhold, hrx, htx]
  unfold State.chanApply
  rw [if_neg hgo, hstage]
  rfl

/-- The key of a register of a radio's path is none of its own. -/
theorem wphy_rfe_key_ne {r off lo off' lo' : Nat} {l l' x x' : Nat} (hoff : off < 65536) (hoff' : off' < 65536) (hlo : lo < 32)
    (hlo' : lo' < 32) : (mkF (0x18 + r) off lo l x).key ≠ (mkF (0x10 + r) off' lo' l' x').key := by
  simp only [mkF]
  omega

/-- The channel shown, the entry in force. -/
def State.chanTaken (s : State) (r v i : Nat) : State := (s.chanShown r v).entrySet r i

theorem State.chanShown_rfe (s : State) (r v : Nat) : (s.chanShown r v).rfe = s.rfe := by
  simp [State.chanShown, State.setWl]

/-- The registers that a channel taking effect writes. -/
def chanRegs (r : Nat) : List Fld := [F.WPHY_CHANCTL_PENDING r, F.WPHY_CHANCUR_CHAN r, F.RFE_PATHSTAT_TUNING r 0, F.RFE_PATHSTAT_ENTRY r 0,
  F.EV_RAW (W.WPHY r) E.WPHY_CHAPPLIED]

theorem State.keeps_chanShown (s : State) (r v : Nat) : s.keeps (s.chanShown r v) (chanRegs r) :=
  State.keeps_raise (by simp [chanRegs]) <| State.keeps_congr rfl rfl <| State.keeps_set (by simp [chanRegs])
    (State.keeps_set (by simp [chanRegs]) (s.keeps_refl _))

theorem State.keeps_entrySet {s t : State} {l : List Fld} {r i : Nat} (ht : F.RFE_PATHSTAT_TUNING r 0 ∈ l) (he : F.RFE_PATHSTAT_ENTRY r 0 ∈ l)
    (h : s.keeps t l) : s.keeps (t.entrySet r i) l := by
  refine State.keeps_set he ?_
  unfold State.retune
  dsimp only
  split
  · exact State.keeps_set ht (State.keeps_congr (t := t) rfl rfl h)
  · exact h

/-- The entry in force leaves the registers but its own and TUNING. -/
theorem State.get_entrySet_ne (s : State) (r i : Nat) {f : Fld} (ht : f.key ≠ (F.RFE_PATHSTAT_TUNING r 0).key)
    (he : f.key ≠ (F.RFE_PATHSTAT_ENTRY r 0).key) : (s.entrySet r i).get f = s.get f :=
  State.keeps_entrySet (l := [F.RFE_PATHSTAT_TUNING r 0, F.RFE_PATHSTAT_ENTRY r 0]) (by simp) (by simp) (s.keeps_refl _) f (by simp [ht, he])

/-- The entry in force leaves the record of the radios and memory. -/
theorem State.entrySet_frame (s : State) (r i : Nat) : (s.entrySet r i).wl = s.wl ∧ (s.entrySet r i).mem = s.mem := by
  unfold State.entrySet State.retune
  dsimp only
  split <;> exact ⟨rfl, rfl⟩

theorem State.entrySet_tuning (s : State) (r i : Nat) : (s.entrySet r i).on (F.RFE_PATHSTAT_TUNING r 0) =
    (s.on (F.RFE_PATHSTAT_TUNING r 0) || s.retunes r 0 0 i) := by
  have hne : (F.RFE_PATHSTAT_TUNING r 0).key ≠ (F.RFE_PATHSTAT_ENTRY r 0).key := by
    simp only [F.RFE_PATHSTAT_TUNING, F.RFE_PATHSTAT_ENTRY, mkF]
    omega
  rw [State.on, State.entrySet, State.get_set_ne _ _ hne]
  unfold State.retune
  dsimp only
  split
  next h =>
    rw [State.get_set_same, h, Bool.or_true]
    rfl
  next h => simp [h, State.on]

theorem State.on_of_zero {s : State} {f : Fld} (h : s.get f = 0) : s.on f = false := by simp [State.on, h]

theorem State.chanShown_get (s : State) (r v : Nat) : (s.chanShown r v).get (F.WPHY_CHANCUR_CHAN r) = v % 2 ^ 32
    ∧ (s.chanShown r v).on (F.WPHY_CHANCTL_PENDING r) = false := by
  have hne : (F.WPHY_CHANCTL_PENDING r).key ≠ (F.WPHY_CHANCUR_CHAN r).key := wphy_key_ne (by decide) (by decide) (.inl (by decide))
  have hcur : (F.WPHY_CHANCUR_CHAN r).key ≠ (F.EV_RAW (W.WPHY r) E.WPHY_CHAPPLIED).key := wphy_key_ne (by decide) (by decide) (.inl (by decide))
  have hpend : (F.WPHY_CHANCTL_PENDING r).key ≠ (F.EV_RAW (W.WPHY r) E.WPHY_CHAPPLIED).key :=
    wphy_key_ne (by decide) (by decide) (.inl (by decide))
  have hset : (s.chanShown r v).get (F.WPHY_CHANCTL_PENDING r) = 0 :=
    (State.get_raise_ne _ _ _ hpend).trans ((State.get_set_ne _ _ hne).trans (State.get_set_same _ _ _))
  exact ⟨(State.get_raise_ne _ _ _ hcur).trans ((State.get_set_same _ _ _).trans (Nat.mod_mod _ _)), State.on_of_zero hset⟩

theorem State.chanShown_cen (s : State) (r v : Nat) : kget (s.chanShown r v).wl.cen r = some (v / 2 ^ 32) := by
  rw [State.chanShown, State.raise_wl]
  exact kget_kset_same _ _ _

/-- With its entry found, a channel that takes effect is shown, and its entry is in force. -/
theorem State.chanShown_rxEntry {s : State} {r x i : Nat} (hr : r < 3)
    (hcal : s.calFind r 0 (chanKHz r (x / 2 ^ 32)) (bitsOf (x % 2 ^ 32) 8 3) = some i) :
    (s.chanShown r x).rxEntry r 0 ((s.chanShown r x).chanC r) ((s.chanShown r x).chanW r) = s.chanTaken r x i := by
  refine State.rxEntry_of_found hr ?_
  rw [State.calFind_congr (s.chanShown_rfe r x), State.chanC, State.chanN, State.chanW, s.chanShown_cen, (s.chanShown_get r x).1]
  exact hcal

/-- A channel that takes effect is that of the command; its entry is in force, retuned where the entry asks for it. -/
theorem State.chanTaken_frame {s : State} {r x i : Nat} (hi : i < 64) : (s.chanTaken r x i).get (F.WPHY_CHANCUR_CHAN r) = x % 2 ^ 32
    ∧ (s.chanTaken r x i).chanN r = x / 2 ^ 32
    ∧ (s.chanTaken r x i).on (F.WPHY_CHANCTL_PENDING r) = false
    ∧ (s.chanTaken r x i).get (F.RFE_PATHSTAT_ENTRY r 0) = i
    ∧ (s.chanTaken r x i).on (F.RFE_PATHSTAT_TUNING r 0) = (s.on (F.RFE_PATHSTAT_TUNING r 0) || s.retunes r 0 0 i)
    ∧ (s.chanTaken r x i).ev (W.WPHY r) E.WPHY_CHAPPLIED = true
    ∧ s.keeps (s.chanTaken r x i) (chanRegs r)
    ∧ (s.chanTaken r x i).mem = s.mem := by
  have hother {off lo l y : Nat} (hoff : off < 65536) (hlo : lo < 32) :
      (s.chanTaken r x i).get (mkF (0x18 + r) off lo l y) = (s.chanShown r x).get (mkF (0x18 + r) off lo l y) :=
    State.get_entrySet_ne _ r i (wphy_rfe_key_ne hoff (by omega) hlo (by decide)) (wphy_rfe_key_ne hoff (by omega) hlo (by decide))
  obtain ⟨hcur, hpend⟩ := s.chanShown_get r x
  obtain ⟨hwl, hmem⟩ := (s.chanShown r x).entrySet_frame r i
  have htun : (s.chanShown r x).get (F.RFE_PATHSTAT_TUNING r 0) = s.get (F.RFE_PATHSTAT_TUNING r 0) := by
    refine (State.get_raise_ne _ _ _ ?_).trans ((State.get_set_ne _ _ ?_).trans (State.get_set_ne _ _ ?_)) <;>
      exact (wphy_rfe_key_ne (by decide) (by decide) (by decide) (by decide)).symm
  refine ⟨(hother (by decide) (by decide)).trans hcur, ?_, ?_, ?_, ?_, ?_, ?_, hmem.trans ?_⟩
  · rw [State.chanN, State.chanTaken, hwl, s.chanShown_cen]
    rfl
  · rw [State.on]
    exact (congrArg (· != 0) (hother (by decide) (by decide))).trans hpend
  · have hwide : i < 2 ^ 8 := by omega
    exact (State.get_set_same _ _ _).trans (Nat.mod_eq_of_lt hwide)
  · rw [State.chanTaken, State.entrySet_tuning, State.on, htun, State.retunes_congr (s.chanShown_rfe r x)]
    rfl
  · exact (congrArg (· != 0) (hother (by decide) (by decide))).trans (State.ev_raise _ _ _)
  · exact State.keeps_entrySet (by simp [chanRegs]) (by simp [chanRegs]) (s.keeps_chanShown r x)
  · rw [State.chanShown, State.raise_mem]
    rfl

/-- Settles O37: a grant expires at its end; ARM needs room; COMMIT stages a channel that passes; an idle radio takes it. -/
theorem grantsAndChannels : Obligations.GrantsAndChannels := by
  unfold Obligations.GrantsAndChannels
  refine ⟨fun s i hvalid hend => ⟨_, rfl, ?_⟩, fun s i hearly => ⟨_, rfl, ?_⟩, fun s rq r v hr hon hdbg harm hng hlo hal hhi => ⟨_, rfl, ?_⟩,
    fun s rq r v hr hon hdbg harm hlo hfirst => ⟨_, rfl, ?_⟩, fun s rq r v hr hon hdbg hv hbad => ⟨_, rfl, ?_⟩,
    fun s rq r v hr hon hdbg hv hok hdis hlim hcal => ⟨_, rfl, ?_⟩, fun s r x i hr hpend hon hhold hrx htx hstage hcal => ⟨_, rfl, ?_⟩⟩
  · have hword {k : Nat} (hk : k < 4) := s.grantW_setGrantW i 0 (s.grantW i 0 % 65536 + 2 ^ 17) hk (by omega) (by decide)
    rw [State.grantExp_of_end hvalid hend]
    simp only [State.grantW_raise, hword (by decide : 0 < 4), hword (by decide : 2 < 4), if_true, if_neg (by decide : ¬ 2 = 0)]
    have hlow : s.grantW i 0 % 65536 < 65536 := Nat.mod_lt _ (by decide)
    refine ⟨?_, ?_, by omega, trivial, State.ev_raise _ _ _, State.keeps_raise (by simp) (fun _ _ => rfl), by simp [State.setGrantW, State.setWl]⟩
    · refine beq_eq_false_iff_ne.mpr ?_
      omega
    · refine beq_iff_eq.mpr ?_
      omega
  · have hsame := State.grantExp_of_early hearly
    exact ⟨hsame, congrArg State.mem hsame⟩
  · obtain ⟨n, hput, hn⟩ := State.put_eqcfg hr hon hdbg harm
    have hcode : v.toNat / 2 ^ 12 % 2 ^ 2 = 2 := hng
    obtain ⟨hgetng, hgetaid⟩ := s.eqcfgSet_get r v.toNat
    rw [s.tabWrite_eqcfg rq hr, if_pos (by rw [hcode])] at hput hn
    have haddr : (s.eqcfgSet r v.toNat).get (F.WPHY_EQADDR_ADDR r) = s.get (F.WPHY_EQADDR_ADDR r) :=
      s.get_eqcfgSet_ne r _ (wphy_key_ne (by decide) (by decide) (.inl (by decide))) (wphy_key_ne (by decide) (by decide) (.inl (by decide)))
    have harmed := State.wEqArm_of_room (s := s.eqcfgSet r v.toNat) rq hr (by rwa [haddr]) (by rwa [haddr]) (by rwa [haddr])
    rw [Nat.mod_eq_of_lt hr, hput, hn, hgetng, hcode, harmed]
    have hne : (F.WPHY_EQCFG_AID r).key ≠ (F.WPHY_EQCFG_ARMED r).key := wphy_key_ne (by decide) (by decide) (.inr (by decide))
    refine ⟨?_, (State.get_set_ne _ _ hne).trans hgetaid, ?_, rfl⟩
    · rw [State.on, State.get_answer, State.get_set_same]
      rfl
    · exact State.keeps_set (by simp) (State.keeps_set (by simp) (State.keeps_set (by simp) (s.keeps_refl _)))
  · obtain ⟨n, hput, -⟩ := State.put_eqcfg hr hon hdbg harm
    obtain ⟨u, hu, hcause, hvalid, harmed, hmem⟩ := State.eqcfg_refused rq v.toNat hr n hlo hfirst
    rw [Nat.mod_eq_of_lt hr, hput, hu]
    exact ⟨harmed, hcause, hvalid, hmem⟩
  · obtain ⟨hcause, hp⟩ := s.chanJudged_get (r := r) (c := 1) (by decide)
    rw [Nat.mod_eq_of_lt hr, State.put_chanctl hr hon hdbg hv, State.chanCommit_of_bad (State.chanCause_of_bad hbad)]
    have hne1 : (F.WPHY_CHANCTL_CAUSE r).key ≠ (F.EV_RAW (W.WPHY r) E.WPHY_CHREF).key := wphy_key_ne (by decide) (by decide) (.inl (by decide))
    have hne2 : (F.WPHY_CHANCTL_PENDING r).key ≠ (F.EV_RAW (W.WPHY r) E.WPHY_CHREF).key :=
      wphy_key_ne (by decide) (by decide) (.inl (by decide))
    refine ⟨(State.get_raise_ne _ _ _ hne1).trans hcause, ?_, State.ev_raise _ _ _, State.raise_wl _ _ _,
      State.keeps_raise (by simp) (s.keeps_chanJudged r 1 (by simp) (by simp)), State.raise_mem _ _ _⟩
    exact (congrArg (· != 0) (State.get_raise_ne _ _ _ hne2)).trans hp
  · obtain ⟨hcause, hp⟩ := s.chanJudged_get (r := r) (c := 0) (by decide)
    have hcur : (s.chanJudged r 0).get (F.WPHY_CHANCUR_CHAN r) = s.get (F.WPHY_CHANCUR_CHAN r) :=
      (State.get_set_ne _ _ (wphy_key_ne (by decide) (by decide) (.inl (by decide)))).trans
        (State.get_set_ne _ _ (wphy_key_ne (by decide) (by decide) (.inl (by decide))))
    rw [Nat.mod_eq_of_lt hr, State.put_chanctl hr hon hdbg hv, State.chanCommit_of_good (State.chanCause_of_good hok hdis hlim hcal)]
    exact ⟨hcause, hp, kget_kset_same _ _ _, hcur, s.keeps_chanJudged r 0 (by simp) (by simp), rfl⟩
  · have hframe := State.chanTaken_frame (s := s) (r := r) (x := x) (State.calFind_lt hr hcal)
    rw [State.chanApply_of_idle hpend hon hhold hrx htx hstage, State.chanShown_rxEntry hr hcal]
    split
    · obtain ⟨m, hm⟩ := (s.chanTaken r x i).quietAgain_eq
      rw [hm]
      exact hframe
    · exact hframe

end Sys2Proof.Machine
end


section
/-!
A listener assigned, searching, qualifying and giving up, R126, R127, R131, R132, R134.
-/

namespace Sys2Proof.Machine

/-! What leaves the listeners, the registers and memory alone -/

/-- The listeners, what waits for them, the registers and memory are in t as in s. -/
structure State.LisFrame (s t : State) : Prop where
  lis : t.mphy.lis = s.mphy.lis
  regs : t.regs = s.regs
  nv : t.nv = s.nv
  mem : t.mem = s.mem
  later : t.mlc.later = s.mlc.later
  tries : t.mlc.tries = s.mlc.tries

theorem State.LisFrame.refl (s : State) : s.LisFrame s := ⟨rfl, rfl, rfl, rfl, rfl, rfl⟩

theorem State.LisFrame.trans {s t u : State} (h : s.LisFrame t) (g : t.LisFrame u) : s.LisFrame u :=
  ⟨g.lis.trans h.lis, g.regs.trans h.regs, g.nv.trans h.nv, g.mem.trans h.mem, g.later.trans h.later, g.tries.trans h.tries⟩

theorem State.LisFrame.listener {s t : State} (h : s.LisFrame t) (l : Nat) : t.lis l = s.lis l := by rw [State.lis, State.lis, h.lis]

theorem State.LisFrame.keeps {s t u : State} {l : List Fld} (h : t.LisFrame u) (hk : s.keeps t l) : s.keeps u l :=
  State.keeps_congr h.regs h.nv hk

theorem State.LisFrame.get {s t : State} (h : s.LisFrame t) (f : Fld) : t.get f = s.get f := by
  simp only [State.get, State.base, h.regs, h.nv]

theorem State.pathGo_lisFrame (s : State) (r p goal : Nat) : s.LisFrame (s.pathGo r p goal) := ⟨rfl, rfl, rfl, rfl, rfl, rfl⟩

theorem State.pathRx_lisFrame (s : State) (r p : Nat) (rx : Bool) : s.LisFrame ((s.pathRx r p rx).getD s) := by
  unfold State.pathRx
  dsimp only
  split_ifs
  · exact .refl s
  · exact s.pathGo_lisFrame r p 2
  · exact .refl s
  · exact s.pathGo_lisFrame r p 3
  · exact .refl s

theorem State.pathFree_lisFrame (s : State) (r p : Nat) : s.LisFrame (s.pathFree r p) := by
  unfold State.pathFree
  dsimp only
  split
  · exact s.pathGo_lisFrame r p _
  · exact .refl s

/-- The record of the paths that MLC holds, written. -/
theorem State.mlcHeld_lisFrame (s : State) (l : List Nat) : s.LisFrame { s with mlc := { s.mlc with held := l } } := ⟨rfl, rfl, rfl, rfl, rfl, rfl⟩

theorem State.mlcPath1_lisFrame (s : State) (p : Nat) : s.LisFrame (s.mlcPath1 p) := by
  unfold State.mlcPath1
  dsimp only
  split_ifs
  · exact s.mlcHeld_lisFrame _
  · exact s.pathRx_lisFrame 3 p true
  · exact (s.pathRx_lisFrame 3 p true).trans (State.mlcHeld_lisFrame _ _)
  · exact (s.pathFree_lisFrame 3 p).trans (State.mlcHeld_lisFrame _ _)
  · exact .refl s

theorem State.mlcPath_lisFrame (s : State) : s.LisFrame s.mlcPath := (s.mlcPath1_lisFrame 0).trans (State.mlcPath1_lisFrame _ 2)

/-- With no attempt of MLC open, telling MLC is nothing. -/
theorem State.mlcTold_lisFrame {s : State} (h : s.mlc.tries = []) : s.LisFrame s.mlcTold := by
  have hnone : s.mlcTold = { s with mphy := { s.mphy with told := [] } } := by
    unfold State.mlcTold
    simp only [h, List.filter_nil, List.foldl_nil]
  rw [hnone]
  exact ⟨rfl, rfl, rfl, rfl, rfl, rfl⟩

/-- With nothing waiting for a listener, none is assigned in its turn. -/
theorem State.mlcFeed_of_none {s : State} (h : s.mlc.later = []) (l : Nat) : s.mlcFeed l = s := by
  have hnone : s.laterOf l = none := by simp [State.laterOf, h]
  unfold State.mlcFeed
  dsimp only
  rw [hnone]
  split <;> rfl

theorem State.coexRelease_lisFrame (s : State) : s.LisFrame s.coexRelease := by
  unfold State.coexRelease
  split
  · exact ⟨rfl, rfl, rfl, rfl, rfl, rfl⟩
  · exact .refl s

/-- What follows a listener's change, with nothing waiting and no attempt open. -/
theorem State.lisThen_lisFrame {s : State} (hlater : s.mlc.later = []) (htries : s.mlc.tries = []) (l : Nat) : s.LisFrame (s.lisThen l) := by
  have hpath : s.LisFrame s.mlcTold.mlcPath := (State.mlcTold_lisFrame htries).trans (State.mlcPath_lisFrame _)
  unfold State.lisThen
  rw [State.mlcFeed_of_none hlater]
  dsimp only
  split
  · exact hpath.trans (State.coexRelease_lisFrame _)
  · exact hpath

/-! A listener written -/

@[simp] theorem State.lis_setLis (s : State) (l : Nat) (x : Lis) : (s.setLis l x).lis l = x := by
  unfold State.lis State.setLis
  by_cases h : x = lis0 <;> simp [h]

theorem State.get_setLis (s : State) (l : Nat) (x : Lis) (f : Fld) : (s.setLis l x).get f = s.get f := rfl
theorem State.setLis_mlc (s : State) (l : Nat) (x : Lis) : (s.setLis l x).mlc = s.mlc := rfl

theorem State.lisSearch_eq (s : State) (l : Nat) : (s.lisSearch l).lis l =
    { s.lis l with st := 2, cfg := s.lcfg l, buf := none, len := 0, fcslen := false, dw := false } := State.lis_setLis _ _ _

/-- The registers that the entry of a listener's channel writes, or the lack of one. -/
def lisEntryRegs (l : Nat) : List Fld := [F.RFE_CNT1_NOCAL 3, F.RFE_CNT1_NOVF 3, F.EV_RAW 0x13 E.RFE_CNTSAT, F.EV_RAW 0x13 E.RFE_NOCAL,
  F.RFE_PATHSTAT_ENTRY 3 (lisPath l)]

theorem State.nocal_keeps {s t : State} {l : Nat} (h : s.keeps t (lisEntryRegs l)) : s.keeps (t.nocal 3) (lisEntryRegs l) :=
  State.keeps_raise (by simp [lisEntryRegs, W.RFE]) (State.keeps_satAdd (by simp [lisEntryRegs]) (by simp [lisEntryRegs])
    (by simp [lisEntryRegs, W.RFE]) h)

/-- The entry of a listener's channel is sought, and only registers are written. -/
theorem State.rxEntry_frame (s : State) (l freq : Nat) : s.RegsOnly (s.rxEntry 3 (lisPath l) freq 0)
    ∧ s.keeps (s.rxEntry 3 (lisPath l) freq 0) (lisEntryRegs l) := by
  unfold State.rxEntry
  split
  · exact ⟨s.nocal_regsOnly 3, State.nocal_keeps (s.keeps_refl _)⟩
  · rw [if_neg (by decide)]
    exact ⟨s.set_regsOnly _ _, State.keeps_set (by simp [lisEntryRegs]) (s.keeps_refl _)⟩

theorem State.RegsOnly.mphy {s t : State} (h : s.RegsOnly t) : t.mphy = s.mphy := by obtain ⟨_, _, rfl⟩ := h; rfl
theorem State.RegsOnly.mlc {s t : State} (h : s.RegsOnly t) : t.mlc = s.mlc := by obtain ⟨_, _, rfl⟩ := h; rfl

theorem State.RegsOnly.listener {s t : State} (h : s.RegsOnly t) (l : Nat) : t.lis l = s.lis l := by rw [State.lis, State.lis, h.mphy]

/-! The assignment -/

/-- The state with an assignment in a listener, its entry sought. -/
def State.lisArmed (s : State) (l : Nat) (a : Asn) : State := (s.setLis l { lis0 with st := 1, cur := some a }).rxEntry 3 (lisPath l) a.freq 0

theorem State.lisArmed_frame (s : State) (l : Nat) (a : Asn) : (s.lisArmed l a).lis l = { lis0 with st := 1, cur := some a }
    ∧ s.keeps (s.lisArmed l a) (lisEntryRegs l) ∧ (s.lisArmed l a).mlc = s.mlc ∧ (s.lisArmed l a).mem = s.mem := by
  obtain ⟨hr, hk⟩ := (s.setLis l { lis0 with st := 1, cur := some a }).rxEntry_frame l a.freq
  exact ⟨(hr.listener l).trans (s.lis_setLis _ _), hk, hr.mlc, hr.mem⟩

theorem State.giveAsn_of_free {s : State} {l : Nat} {a : Asn} (hok : s.asnOk l a = true) (hst : (s.lis l).st < 5) :
    (s.giveAsn l a).2 = (s.lisArmed l a).mlcPath := by
  simp only [State.giveAsn, hok, Nat.not_le.mpr hst, Bool.not_true, Bool.false_eq_true, if_false]
  rfl

/-- The state with the next assignment of a listener set. -/
def State.lisQueued (s : State) (l : Nat) (a : Asn) : State := s.setLis l { s.lis l with next := some a }

theorem State.giveAsn_of_frame {s : State} {l : Nat} {a : Asn} (hok : s.asnOk l a = true) (hst : 5 ≤ (s.lis l).st) :
    (s.giveAsn l a).2 = s.lisQueued l a := by
  simp only [State.giveAsn, hok, hst, Bool.not_true, Bool.false_eq_true, if_false, if_true]
  rfl

/-- The state with an assignment refused and told. -/
def State.lisRefused (s : State) (l : Nat) (a : Asn) : State := ((s.mphyCnt 6).raise W.MPHY E.MPHY_OUTWIN).lisTell l a

theorem State.giveAsn_of_bad {s : State} {l : Nat} {a : Asn} (hok : s.asnOk l a = false) : (s.giveAsn l a).2 = s.lisRefused l a := by
  simp only [State.giveAsn, hok, Bool.not_false, if_true]
  rfl

/-- The registers that a refused assignment writes. -/
def outwinRegs : List Fld :=
  [mkF W.MPHY (0xC0 + 4 * 6) 0 31 0, mkF W.MPHY (0xC0 + 4 * 6) 31 1 0, F.EV_RAW W.MPHY E.MPHY_CNTSAT, F.EV_RAW W.MPHY E.MPHY_OUTWIN]

theorem State.lisTell_frame (s : State) (l : Nat) (a : Asn) : (s.lisTell l a).mphy.lis = s.mphy.lis ∧ (s.lisTell l a).mlc = s.mlc
    ∧ (∀ f, (s.lisTell l a).get f = s.get f) ∧ (s.lisTell l a).mem = s.mem := ⟨rfl, rfl, fun _ => rfl, rfl⟩

theorem State.lisRefused_frame (s : State) (l : Nat) (a : Asn) : (s.lisRefused l a).lis l = s.lis l ∧ (s.lisRefused l a).mlc = s.mlc
    ∧ (s.lisRefused l a).ev W.MPHY E.MPHY_OUTWIN = true ∧ s.keeps (s.lisRefused l a) outwinRegs ∧ (s.lisRefused l a).mem = s.mem := by
  have hr : s.RegsOnly ((s.mphyCnt 6).raise W.MPHY E.MPHY_OUTWIN) := (s.bump_regsOnly _ _ _).trans (State.raise_regsOnly _ _ _)
  have hk : s.keeps ((s.mphyCnt 6).raise W.MPHY E.MPHY_OUTWIN) outwinRegs :=
    State.keeps_raise (by simp [outwinRegs]) (State.keeps_bump (by simp [outwinRegs]) (by simp [outwinRegs]) (by simp [outwinRegs]) (s.keeps_refl _))
  obtain ⟨hlis, hmlc, hget, hmem⟩ := ((s.mphyCnt 6).raise W.MPHY E.MPHY_OUTWIN).lisTell_frame l a
  refine ⟨?_, hmlc.trans hr.mlc, ?_, fun f hf => (hget f).trans (hk f hf), hmem.trans hr.mem⟩
  · rw [State.lis, State.lisRefused, hlis, hr.mphy, State.lis]
  · rw [State.ev, State.on, State.lisRefused, hget]
    exact State.ev_raise _ _ _

/-! The listener gives up -/

theorem State.lisBack_of_alone {s : State} {l : Nat} {a : Asn} (hcur : (s.lis l).cur = some a) (hnext : (s.lis l).next = none) :
    s.lisBack l = if s.ns < a.cls then s.lisSearch l else s.lisIdle l := by
  simp only [State.lisBack, hnext, State.lisReturn, hcur]

theorem State.lisBack_of_next {s : State} {l : Nat} {b : Asn} (hnext : (s.lis l).next = some b) (hopn : b.opn ≤ s.ns) (hcls : s.ns ≤ b.cls) :
    s.lisBack l = (s.lisArmed l b).lisSearch l := by
  simp only [State.lisBack, hnext, Nat.not_lt.mpr hcls, if_false, hopn, if_true]
  rfl

/-- The search of a listener leaves registers, memory and what waits. -/
theorem State.lisSearch_frame (s : State) (l : Nat) : (∀ f, (s.lisSearch l).get f = s.get f) ∧ (s.lisSearch l).mem = s.mem
    ∧ (s.lisSearch l).mlc = s.mlc := ⟨fun _ => rfl, rfl, rfl⟩

theorem State.lisFam_of_cur {s : State} {l : Nat} {a : Asn} (hcur : (s.lis l).cur = some a) : s.lisFam l = modeFam a.mode := by
  simp only [State.lisFam, hcur]

/-- A listener that qualifies no more goes back. -/
theorem State.lisUnqualify_of_fail {s : State} {l : Nat} {corr : List Nat} {e : Int} (hst : (s.lis l).st = 3)
    (hfail : (corr.length = s.get (F.MPHY_QUAL_M (s.lisFam l)) ∧ s.corrCount (s.lisFam l) corr < s.get (F.MPHY_QUAL_N (s.lisFam l)))
      ∨ e < s.lisThr l) : s.lisUnqualify l corr e = s.lisBack l := by
  have hgo : ((s.lis l).st = 3 && ((corr.length == s.get (F.MPHY_QUAL_M (s.lisFam l)) && !s.qualified (s.lisFam l) corr)
      || decide (e < s.lisThr l))) = true := by
    obtain ⟨hlen, hcnt⟩ | he := hfail
    · simp [hst, hlen, State.qualified, hcnt]
    · simp [hst, he]
  simp only [State.lisUnqualify]
  exact if_pos hgo

theorem State.lisOpen_of_due {s : State} {l : Nat} {a : Asn} (hst : (s.lis l).st = 1) (hcur : (s.lis l).cur = some a) (hopn : a.opn ≤ s.ns) :
    s.lisOpen l = s.lisSearch l := by
  simp [State.lisOpen, hst, hcur, hopn]

theorem State.lisEnergy_of_loud {s : State} {l : Nat} {e : Int} (hst : (s.lis l).st = 2) (hhear : s.hears l = true) (he : s.lisThr l ≤ e) :
    s.lisEnergy l e = s.setLis l { s.lis l with st := 3, rssi := e } := by
  simp [State.lisEnergy, hst, hhear, he]

theorem State.lisQualify_of_pass {s : State} {l : Nat} {corr : List Nat} {a : Asn} (e0 e1 : Int) (hst : (s.lis l).st = 3)
    (hcur : (s.lis l).cur = some a) (hhear : s.hears l = true) (hlen : corr.length = s.get (F.MPHY_QUAL_M (modeFam a.mode)))
    (hcnt : s.get (F.MPHY_QUAL_N (modeFam a.mode)) ≤ s.corrCount (modeFam a.mode) corr) :
    s.lisQualify l corr e0 e1 = s.setLis l { s.lis l with st := 4, aerial := s.aerial (lisPath l) e0 e1 } := by
  have hpass : ((s.lis l).st = 3 && s.hears l && s.qualified (s.lisFam l) corr) = true := by
    rw [State.lisFam_of_cur hcur]
    simp [hst, hhear, State.qualified, hlen, hcnt]
  simp only [State.lisQualify]
  exact if_pos hpass

theorem State.lisFalse_of_late {s : State} {l u : Nat} {a : Asn} (hst : (s.lis l).st = 4) (hcur : (s.lis l).cur = some a)
    (hwait : s.get (F.MPHY_QUAL_SFDWAIT (modeFam a.mode)) ≤ u) (hu : 1 ≤ u) : s.lisFalse l u = (s.mphyCnt 0).lisBack l := by
  have hgo : ((s.lis l).st = 4 && s.sfdWait (s.lisFam l) ≤ u) = true := by
    rw [State.lisFam_of_cur hcur]
    simp [hst, State.sfdWait, hwait, hu]
  simp only [State.lisFalse]
  exact if_pos hgo

theorem State.lisClose_of_end {s : State} {l : Nat} {a : Asn} (hlo : 2 ≤ (s.lis l).st) (hhi : (s.lis l).st ≤ 4) (hcur : (s.lis l).cur = some a)
    (hcls : a.cls ≤ s.ns) : s.lisClose l = s.lisBack l := by
  simp [State.lisClose, hlo, hhi, hcur, hcls]

/-- Settles O27: a listener follows its window and what it hears; what follows each change leaves it, the registers and memory. -/
theorem listenerSearch : Obligations.ListenerSearch := by
  unfold Obligations.ListenerSearch
  refine ⟨fun s l a hok hst hlater htries => ⟨_, rfl, ?_⟩, fun s l a hok hst hlater htries => ⟨_, rfl, ?_⟩,
    fun s l a hok hlater htries => ⟨_, rfl, ?_⟩, fun s l a hst hcur hopn => ⟨_, rfl, ?_⟩, fun s l e hst hhear he => ⟨_, rfl, ?_⟩,
    fun s l corr e0 e1 a hst hcur hhear hlen hcnt => ⟨_, rfl, ?_⟩, fun s l corr e a hst hcur hnext hfail hcls hlater htries => ⟨_, rfl, ?_⟩,
    fun s l corr e b hst hnext hopn hcls he hlater htries => ⟨_, rfl, ?_⟩,
    fun s l u a hst hcur hnext hwait hu hcls hlater htries => ⟨_, rfl, ?_⟩,
    fun s l a hlo hhi hcur hnext hcls hlater htries => ⟨_, rfl, ?_⟩⟩
  all_goals dsimp only
  · obtain ⟨hlis, hkeep, hmlc, hmem⟩ := s.lisArmed_frame l a
    have hpath := (s.lisArmed l a).mlcPath_lisFrame
    have hf := State.lisThen_lisFrame (hpath.later.trans (by rw [hmlc, hlater])) (hpath.tries.trans (by rw [hmlc, htries])) l
    have hall := (hf.listener l).trans ((hpath.listener l).trans hlis)
    rw [State.giveAsn_of_free hok hst, hall]
    exact ⟨rfl, rfl, rfl, hf.keeps (hpath.keeps hkeep), hf.mem.trans (hpath.mem.trans hmem)⟩
  · have hf := State.lisThen_lisFrame (s := s.lisQueued l a) hlater htries l
    rw [State.giveAsn_of_frame hok hst]
    exact ⟨(hf.listener l).trans (s.lis_setLis _ _), hf.keeps fun _ _ => rfl, hf.mem⟩
  · obtain ⟨hlis, hmlc, hev, hkeep, hmem⟩ := s.lisRefused_frame l a
    have hf := State.lisThen_lisFrame (s := s.lisRefused l a) (by rw [hmlc, hlater]) (by rw [hmlc, htries]) l
    rw [State.giveAsn_of_bad hok]
    refine ⟨(hf.listener l).trans hlis, ?_, hf.keeps hkeep, hf.mem.trans hmem⟩
    rw [State.ev, State.on, hf.get]
    exact hev
  · rw [State.lisOpen_of_due hst hcur hopn, State.lisSearch_eq]
    exact ⟨rfl, hcur, rfl, fun _ _ => rfl, rfl⟩
  · rw [State.lisEnergy_of_loud hst hhear he, State.lis_setLis]
    exact ⟨rfl, rfl, fun _ _ => rfl, rfl⟩
  · rw [State.lisQualify_of_pass e0 e1 hst hcur hhear hlen hcnt, State.lis_setLis]
    exact ⟨rfl, rfl, fun _ _ => rfl, rfl⟩
  · have hf := State.lisThen_lisFrame (s := s.lisSearch l) hlater htries l
    have hgo : s.lisUnqualify l corr e = s.lisSearch l := by
      rw [State.lisUnqualify_of_fail hst (by rw [State.lisFam_of_cur hcur]; exact hfail.symm), State.lisBack_of_alone hcur hnext, if_pos hcls]
    rw [hgo, hf.listener l, State.lisSearch_eq]
    exact ⟨rfl, hcur, hf.keeps fun _ _ => rfl, hf.mem⟩
  · obtain ⟨hlis, hkeep, hmlc, hmem⟩ := s.lisArmed_frame l b
    have hf := State.lisThen_lisFrame (s := (s.lisArmed l b).lisSearch l) (by rw [← hlater, ← hmlc]; rfl) (by rw [← htries, ← hmlc]; rfl) l
    rw [State.lisUnqualify_of_fail hst (.inr he), State.lisBack_of_next hnext hopn hcls, hf.listener l, State.lisSearch_eq, hlis]
    exact ⟨rfl, rfl, rfl, hf.keeps hkeep, hf.mem.trans hmem⟩
  · have hr : s.RegsOnly (s.mphyCnt 0) := s.bump_regsOnly _ _ _
    have hlis : (s.mphyCnt 0).lis l = s.lis l := hr.listener l
    have hns : (s.mphyCnt 0).ns = s.ns := by rw [State.ns, State.ns, hr.tm]
    have hf := State.lisThen_lisFrame (s := (s.mphyCnt 0).lisSearch l) (by rw [← hlater]; exact congrArg MlcS.later hr.mlc)
      (by rw [← htries]; exact congrArg MlcS.tries hr.mlc) l
    have hgo : s.lisFalse l u = (s.mphyCnt 0).lisSearch l := by
      rw [State.lisFalse_of_late hst hcur hwait hu, State.lisBack_of_alone (by rw [hlis]; exact hcur) (by rw [hlis]; exact hnext), hns, if_pos hcls]
    rw [hgo, hf.listener l, State.lisSearch_eq, hlis]
    exact ⟨rfl, hcur, hf.keeps (State.keeps_bump (t := s) (by simp) (by simp) (by simp) (s.keeps_refl _)), hf.mem.trans hr.mem⟩
  · have hf := State.lisThen_lisFrame (s := s.lisIdle l) hlater htries l
    have hgo : s.lisClose l = s.lisIdle l := by
      rw [State.lisClose_of_end hlo hhi hcur hcls, State.lisBack_of_alone hcur hnext, if_neg (Nat.not_lt.mpr hcls)]
    rw [State.winClose, hgo, hf.listener l, State.lisIdle, State.lis_setLis]
    exact ⟨rfl, rfl, hf.keeps fun _ _ => rfl, hf.mem⟩

end Sys2Proof.Machine
end


section
/-!
A frame boundary starts the next frame, R275, R277, R278.
-/

namespace Sys2Proof.Machine

/-! The state brought up to the time -/

/-- The state with the shapers and the MACs replaced. -/
def State.withPorts (s : State) (a : List (Nat × ShpS)) (b : List (Nat × EmacS)) : State := { s with shp := a, emac := b }

/-- Bringing a port up to the time changes the shapers and the MACs alone: credits, and when the port was last busy. -/
theorem State.portSync_eq (s : State) (n : Nat) : ∃ a b cr busy, s.portSync n = s.withPorts a b
    ∧ (s.portSync n).shpOf n = { s.shpOf n with credit := cr, mark := s.el }
    ∧ (s.portSync n).emacOf n = { s.emacOf n with busyAt := busy } := by
  have hshp (t : State) (x : ShpS) : (t.setShp n x).shpOf n = x := by simp [State.shpOf, State.setShp]
  have hemac (t : State) (x : EmacS) : (t.setEmac n x).emacOf n = x := by simp [State.emacOf, State.setEmac]
  unfold State.portSync
  by_cases hq : s.lpiQuiet n = true
  · simp only [hq, if_true]
    exact ⟨_, s.emac, _, (s.emacOf n).busyAt, rfl, hshp _ _, rfl⟩
  · simp only [hq]
    exact ⟨_, _, _, _, rfl, hshp _ _, hemac _ _⟩

theorem State.get_withPorts (s : State) (a : List (Nat × ShpS)) (b : List (Nat × EmacS)) (f : Fld) : (s.withPorts a b).get f = s.get f := rfl

/-- A port may start a frame when its registers, its lane and its MAC allow it and it sends none. -/
theorem State.canStart_withPorts {s : State} {a : List (Nat × ShpS)} {b : List (Nat × EmacS)} {n : Nat}
    (hwake : ((s.withPorts a b).emacOf n).wake = (s.emacOf n).wake) (htx : ((s.withPorts a b).shpOf n).tx = (s.shpOf n).tx) :
    (s.withPorts a b).canStart n = s.canStart n := by
  unfold State.canStart
  rw [hwake, htx]
  rfl

/-! One frame waits -/

theorem State.setShp_eq (s : State) (n : Nat) (x : ShpS) : s.setShp n x = s.withPorts (kset s.shp n x) s.emac := rfl

@[simp] theorem State.shpOf_setShp (s : State) (n : Nat) (x : ShpS) : (s.setShp n x).shpOf n = x := by simp [State.shpOf, State.setShp]

/-- A port whose turn list does not run drops no frame for its gates. -/
theorem State.gateDrops_of_stopped {s : State} {n : Nat} (h : s.on (F.SHP_TLCTL_RUNNING n) = false) (c : Nat) (l : List SEnt) :
    s.gateDrops n c l = s := by
  cases l with
  | nil => rfl
  | cons e l => simp [State.gateDrops, State.neverFits, h]

/-- A port with one frame waiting, in class c, that nothing holds back. -/
structure State.OneReady (s : State) (n c : Nat) (e : SEnt) : Prop where
  timed : (s.shpOf n).timed = []
  want : (s.emacOf n).want = none
  q : (s.shpOf n).q = [(c, [e])]
  cls : c < 8
  gate : s.gateOpen n c = true
  free : s.paused n c = false
  stopped : s.on (F.SHP_TLCTL_RUNNING n) = false
  good : s.txBad n e.out.handle = 0
  credit : (s.shpCfg n c).1 = 0 ∨ 0 ≤ s.credit n c

theorem State.OneReady.shpQ {s : State} {n c : Nat} {e : SEnt} (h : s.OneReady n c e) (k : Nat) :
    s.shpQ n k = if k = c then [e] else [] := by
  unfold State.shpQ
  rw [h.q]
  by_cases hk : k = c
  · subst hk
    simp [kget]
  · simp [kget, hk, Ne.symm hk]

/-- The class of the frame that waits is the one class that may send. -/
theorem State.OneReady.eligible {s : State} {n c : Nat} {e : SEnt} (h : s.OneReady n c e) (k : Nat) : s.eligible n k = decide (k = c) := by
  have hfirst : s.firstT n = none := by simp [State.firstT, h.timed]
  have hmode : ((s.shpCfg n c).1 == 0 || s.on (F.SHP_TLCTL_SLOPEBAD n) || decide (0 ≤ s.credit n c)) = true := by
    obtain hm | hc := h.credit
    · simp [hm]
    · simp [hc]
  unfold State.eligible
  rw [h.shpQ k]
  by_cases hk : k = c
  · subst hk
    simp only [if_true, h.gate, h.free, hmode, h.stopped, State.beforeT, hfirst, decide_true]
    rfl
  · simp [hk]

theorem find_class : ∀ c < 8, [7, 6, 5, 4, 3, 2, 1, 0].find? (fun k => decide (k = c)) = some c := by decide

/-- The one frame that waits starts. -/
theorem State.OneReady.pickClass {s : State} {n c : Nat} {e : SEnt} (h : s.OneReady n c e) :
    s.pickClass n = (false, (s.setShpQ n c []).ethSend n c e none) := by
  have hdrops : (List.range 8).foldl (fun t k => t.gateDrops n k (t.shpQ n k)) s = s :=
    List.foldlRecOn (motive := fun t => t = s) _ _ rfl fun t ht k _ => by rw [ht, State.gateDrops_of_stopped h.stopped]
  have hel : (fun k => s.eligible n k) = fun k => decide (k = c) := funext h.eligible
  have hgood : (s.setShpQ n c []).txBad n e.out.handle = 0 := h.good
  unfold State.pickClass
  simp only [hdrops, hel, find_class c h.cls, State.pickTake, h.shpQ c, if_true, hgood]

theorem State.OneReady.shpGo {s : State} {n c : Nat} {e : SEnt} (h : s.OneReady n c e) (hgo : s.canStart n = true) :
    s.shpGo n = (s.setShpQ n c []).ethSend n c e none := by
  have hdue : s.timedDue n = s := by simp [State.timedDue, hgo, h.timed]
  simp only [State.shpGo, hdue, h.q, Nat.add_comm 1, State.shpPick, hgo, State.pickNext, h.want, h.pickClass]
  rfl

/-- What a frame that starts leaves: its class's queue is empty, and it is on the wire. -/
theorem State.OneReady.sent {s : State} {n c : Nat} {e : SEnt} (h : s.OneReady n c e) :
    (((s.setShpQ n c []).ethSend n c e none).shpOf n).tx.map (fun x => (x.ent, x.cls, x.beg)) = some (some e, c, s.el)
      ∧ (((s.setShpQ n c []).ethSend n c e none).shpOf n).q = []
      ∧ s.keeps ((s.setShpQ n c []).ethSend n c e none) []
      ∧ ((s.setShpQ n c []).ethSend n c e none).mem = s.mem := by
  have hq : kdel (s.shpOf n).q c = [] := by simp [h.q, kdel]
  refine ⟨?_, ?_, fun _ _ => rfl, rfl⟩
  · rw [State.ethSend, State.shpOf_setShp]
    rfl
  · rw [State.ethSend, State.shpOf_setShp, State.setShpQ, State.shpOf_setShp]
    exact hq

/-- A port with one frame waiting is as ready brought up to the time. -/
theorem State.OneReady.synced {s : State} {n c : Nat} {e : SEnt} (htx : (s.shpOf n).tx = none) (hgo : s.canStart n = true)
    (htimed : (s.shpOf n).timed = []) (hwant : (s.emacOf n).want = none) (hq : (s.shpOf n).q = [(c, [e])]) (hc : c < 8)
    (hgate : s.gateOpen n c = true) (hfree : s.paused n c = false) (hstop : s.on (F.SHP_TLCTL_RUNNING n) = false)
    (hgood : s.txBad n e.out.handle = 0) (hcredit : (s.shpCfg n c).1 = 0 ∨ 0 ≤ (s.portSync n).credit n c) :
    (s.portSync n).OneReady n c e ∧ (s.portSync n).canStart n = true ∧ ((s.portSync n).shpOf n).tx = none
      ∧ (s.portSync n).el = s.el ∧ (∀ f, (s.portSync n).get f = s.get f) ∧ (s.portSync n).mem = s.mem := by
  obtain ⟨a, b, cr, busy, heq, hshp, hemac⟩ := s.portSync_eq n
  rw [heq] at hshp hemac hcredit ⊢
  refine ⟨⟨?_, ?_, ?_, hc, hgate, ?_, hstop, hgood, ?_⟩, ?_, ?_, rfl, fun _ => rfl, rfl⟩
  · rw [hshp, htimed]
  · rw [hemac, hwant]
  · rw [hshp, hq]
  · rw [State.paused, hemac]
    exact hfree
  · refine hcredit.imp_left fun hm => ?_
    rw [State.shpCfg, hshp]
    exact hm
  · rw [State.canStart_withPorts (by rw [hemac]) (by rw [hshp]), hgo]
  · rw [hshp, htx]

/-! A boundary with nothing to start -/

/-- Bringing a port up to the time leaves what it sends and what waits. -/
theorem State.portSync_queues (s : State) (n : Nat) : ((s.portSync n).shpOf n).tx = (s.shpOf n).tx ∧ ((s.portSync n).shpOf n).q = (s.shpOf n).q
    ∧ (s.portSync n).el = s.el ∧ (∀ k, (s.portSync n).air16 n k = s.air16 n k) ∧ (∀ f, (s.portSync n).get f = s.get f)
    ∧ (s.portSync n).mem = s.mem := by
  obtain ⟨a, b, cr, busy, heq, hshp, -⟩ := s.portSync_eq n
  rw [hshp, heq]
  exact ⟨rfl, rfl, rfl, fun _ => rfl, fun _ => rfl, rfl⟩

/-- A frame on the wire goes on until its end. -/
theorem State.boundaryOp_of_busy {s : State} {n : Nat} {x : STx} (htx : (s.shpOf n).tx = some x) (hend : s.el < x.beg + s.air16 n x.len) :
    s.boundaryOp n = s.portSync n := by
  obtain ⟨htx', -, hel, hair, -, -⟩ := s.portSync_queues n
  simp only [State.boundaryOp, htx'.trans htx, hel, hair]
  exact if_pos hend

theorem State.boundaryOp_of_idle {s : State} {n : Nat} (htx : (s.shpOf n).tx = none) : s.boundaryOp n = (s.portSync n).shpGo n := by
  simp only [State.boundaryOp, (s.portSync_queues n).1.trans htx]

/-- What EMAC sends itself ends, and with no transmission enabled nothing follows. -/
theorem State.boundaryOp_of_pause {s : State} {n : Nat} {x : STx} (htx : (s.shpOf n).tx = some x) (hent : x.ent = none)
    (hend : x.beg + s.air16 n x.len ≤ s.el) (hen : s.on (F.EMAC_CFG_TXEN n) = false) (hidle : s.on (F.LANE_CTRL2_EIDLE n) = false) :
    s.boundaryOp n = (s.portSync n).setShp n { (s.portSync n).shpOf n with tx := none } := by
  obtain ⟨htx', -, hel, hair, hget, -⟩ := s.portSync_queues n
  have hidle' : ((s.portSync n).setShp n { (s.portSync n).shpOf n with tx := none }).on (F.LANE_CTRL2_EIDLE n) = false :=
    (congrArg (· != 0) (hget _)).trans hidle
  have hen' : ((s.portSync n).setShp n { (s.portSync n).shpOf n with tx := none }).on (F.EMAC_CFG_TXEN n) = false :=
    (congrArg (· != 0) (hget _)).trans hen
  simp only [State.boundaryOp, htx'.trans htx, hel, hair, if_neg (Nat.not_lt.mpr hend), hent]
  rw [hidle', if_neg Bool.false_ne_true, State.shpGo_of_idle (State.canStart_of_txen hen')]

/-! A refill -/

/-- The idle slopes fit, and the parameters of the registers are taken. -/
theorem State.refill_of_fit {s : State} {n : Nat} (hdirty : (s.shpOf n).dirty = true) (hwrote : (s.shpOf n).wrote ≠ some s.tm.mono)
    (hfit : s.slopesFit n (s.shpRegs n) = true) : ∃ cr, s.refill n =
      (s.setShp n { s.shpOf n with cfg := s.shpRegs n, dirty := false, credit := cr }).set (F.SHP_TLCTL_SLOPEBAD n) 0 := by
  have hgo : ¬ ((!(s.shpOf n).dirty && !s.on (F.SHP_TLCTL_SLOPEBAD n)) || (s.shpOf n).wrote == some s.tm.mono) = true := by
    simp [hdirty, hwrote]
  unfold State.refill
  dsimp only
  rw [if_neg hgo, if_pos hfit]
  exact ⟨_, rfl⟩

theorem State.refill_of_unfit {s : State} {n : Nat} (hdirty : (s.shpOf n).dirty = true) (hwrote : (s.shpOf n).wrote ≠ some s.tm.mono)
    (hfit : s.slopesFit n (s.shpRegs n) = false) : s.refill n = (s.setShp n { s.shpOf n with dirty := false }).slopeBad n := by
  have hgo : ¬ ((!(s.shpOf n).dirty && !s.on (F.SHP_TLCTL_SLOPEBAD n)) || (s.shpOf n).wrote == some s.tm.mono) = true := by
    simp [hdirty, hwrote]
  unfold State.refill
  dsimp only
  rw [if_neg hgo, hfit, if_neg Bool.false_ne_true, hdirty, if_pos rfl]

/-- What a refill writes is not TXEN. -/
theorem txen_key_ne (n : Nat) : (F.EMAC_CFG_TXEN n).key ≠ (F.SHP_TLCTL_SLOPEBAD n).key
    ∧ (F.EMAC_CFG_TXEN n).key ≠ (F.EV_RAW (W.SHP n) E.SHP_SLOPEREF).key := by
  simp only [F.EMAC_CFG_TXEN, F.SHP_TLCTL_SLOPEBAD, F.EV_RAW, W.SHP, E.SHP_SLOPEREF, mkF]
  omega

/-- A refill of a port brought up to the time finds the parameters of the registers as they are. -/
theorem State.portSync_refill (s : State) (n : Nat) : ((s.portSync n).shpOf n).dirty = (s.shpOf n).dirty
    ∧ ((s.portSync n).shpOf n).wrote = (s.shpOf n).wrote ∧ ((s.portSync n).shpOf n).cfg = (s.shpOf n).cfg
    ∧ (s.portSync n).tm = s.tm ∧ (s.portSync n).shpRegs n = s.shpRegs n
    ∧ (∀ l, (s.portSync n).slopesFit n l = s.slopesFit n l) := by
  obtain ⟨a, b, cr, busy, heq, hshp, -⟩ := s.portSync_eq n
  rw [hshp, heq]
  exact ⟨rfl, rfl, rfl, rfl, rfl, fun _ => rfl⟩

/-- Settles O47: the one frame that waits starts at a boundary or when its credit is back; a refill takes the parameters that fit. -/
theorem frameStarts : Obligations.FrameStarts := by
  unfold Obligations.FrameStarts
  refine ⟨fun s n c e hn htx hgo htimed hwant hq hc hgate hfree hstop _ hgood hmode => ⟨_, rfl, ?_⟩,
    fun s n x hn htx hent hend hen hidle => ⟨_, rfl, ?_⟩, fun s n x htx hend => ⟨_, rfl, ?_⟩,
    fun s n c e hn htx hcr hgo htimed hwant hq hc hgate hfree hstop _ hgood => ⟨_, rfl, ?_⟩,
    fun s n hn hon hdirty hwrote hfit hen => ⟨_, rfl, ?_⟩, fun s n hn hon hdirty hwrote hfit hen => ⟨_, rfl, ?_⟩⟩
  · obtain ⟨hready, hgo', htx', hel, hget, hmem⟩ := State.OneReady.synced htx hgo htimed hwant hq hc hgate hfree hstop hgood (.inl hmode)
    rw [if_pos hn, State.boundaryOp_of_idle htx, hready.shpGo hgo']
    obtain ⟨hsent, hempty, hkeep, hmem'⟩ := hready.sent
    exact ⟨hsent.trans (by rw [hel]), hempty, fun f hf => (hkeep f hf).trans (hget f), hmem'.trans hmem⟩
  · obtain ⟨-, hq, -, -, hget, hmem⟩ := s.portSync_queues n
    rw [if_pos hn, State.boundaryOp_of_pause htx hent hend hen hidle]
    exact ⟨by rw [State.shpOf_setShp], by rw [State.shpOf_setShp]; exact hq, fun f _ => hget f, hmem⟩
  · split
    · obtain ⟨htx', hq, -, -, hget, hmem⟩ := s.portSync_queues n
      rw [State.boundaryOp_of_busy htx hend]
      exact ⟨htx', hq, fun f _ => hget f, hmem⟩
    · exact ⟨rfl, rfl, fun _ _ => rfl, rfl⟩
  · obtain ⟨hready, hgo', htx', hel, hget, hmem⟩ := State.OneReady.synced htx hgo htimed hwant hq hc hgate hfree hstop hgood (.inr hcr)
    rw [if_pos (by simp [hn, hcr]), hready.shpGo hgo']
    obtain ⟨hsent, hempty, hkeep, hmem'⟩ := hready.sent
    exact ⟨hsent.trans (by rw [hel]), hempty, fun f hf => (hkeep f hf).trans (hget f), hmem'.trans hmem⟩
  · obtain ⟨hd, hw, -, htm, hregs, hslopes⟩ := s.portSync_refill n
    obtain ⟨-, -, -, -, hget, hmem⟩ := s.portSync_queues n
    obtain ⟨cr, hrefill⟩ := State.refill_of_fit (s := s.portSync n) (n := n) (hd.trans hdirty) (by rw [hw, htm]; exact hwrote)
      (by rw [hregs, hslopes, hfit])
    have hen' : ((s.portSync n).refill n).on (F.EMAC_CFG_TXEN n) = false := by
      rw [State.on, hrefill, State.get_set_ne _ _ (txen_key_ne n).1]
      exact (congrArg (· != 0) (hget _)).trans hen
    rw [if_pos (by simp [hn, hon]), State.shpGo_of_idle (State.canStart_of_txen hen'), hrefill]
    refine ⟨?_, ?_, State.on_of_zero (State.get_set_same _ _ _), State.keeps_set (by simp) fun f _ => hget f, hmem⟩
    · exact (congrArg ShpS.cfg (State.shpOf_setShp _ _ _)).trans hregs
    · exact congrArg ShpS.dirty (State.shpOf_setShp _ _ _)
  · obtain ⟨hd, hw, hcfg, htm, hregs, hslopes⟩ := s.portSync_refill n
    obtain ⟨-, -, -, -, hget, hmem⟩ := s.portSync_queues n
    have hrefill := State.refill_of_unfit (s := s.portSync n) (n := n) (hd.trans hdirty) (by rw [hw, htm]; exact hwrote)
      (by rw [hregs, hslopes, hfit])
    have hen' : ((s.portSync n).refill n).on (F.EMAC_CFG_TXEN n) = false := by
      rw [State.on, hrefill, State.slopeBad, State.get_raise_ne _ _ _ (txen_key_ne n).2, State.get_set_ne _ _ (txen_key_ne n).1]
      exact (congrArg (· != 0) (hget _)).trans hen
    have hne : (F.SHP_TLCTL_SLOPEBAD n).key ≠ (F.EV_RAW (W.SHP n) E.SHP_SLOPEREF).key := by
      simp only [F.SHP_TLCTL_SLOPEBAD, F.EV_RAW, W.SHP, E.SHP_SLOPEREF, mkF]
      omega
    rw [if_pos (by simp [hn, hon]), State.shpGo_of_idle (State.canStart_of_txen hen'), hrefill, State.slopeBad]
    refine ⟨?_, ?_, State.ev_raise _ _ _, State.keeps_raise (by simp) (State.keeps_set (by simp) fun f _ => hget f),
      (State.raise_mem _ _ _).trans hmem⟩
    · rw [State.shpOf, State.raise_shp]
      exact (congrArg ShpS.cfg (State.shpOf_setShp _ _ _)).trans hcfg
    · rw [State.on, State.get_raise_ne _ _ _ hne, State.get_set_same]
      rfl

end Sys2Proof.Machine
end


section
/-!
A domain that arrives in its new state, and a coach that drains, R357 and R359.
-/

namespace Sys2Proof.Machine

/-! What a domain is to be -/

/-- What the state of each domain is to be is asked for in t as in s. -/
structure State.GoalSame (s t : State) : Prop where
  cap : t.pwr.capState = s.pwr.capState
  req : ∀ w, t.get (F.CTRL_DOMREQ w) = s.get (F.CTRL_DOMREQ w)
  lanes : t.get F.PWR_STATECFG_VLANES = s.get F.PWR_STATECFG_VLANES

theorem State.GoalSame.refl (s : State) : s.GoalSame s := ⟨rfl, fun _ => rfl, rfl⟩

theorem State.GoalSame.trans {s t u : State} (h : s.GoalSame t) (g : t.GoalSame u) : s.GoalSame u :=
  ⟨g.cap.trans h.cap, fun w => (g.req w).trans (h.req w), g.lanes.trans h.lanes⟩

theorem State.GoalSame.of_regs {s t : State} (hregs : t.regs = s.regs) (hnv : t.nv = s.nv) (hcap : t.pwr.capState = s.pwr.capState) :
    s.GoalSame t := by
  have hget (f : Fld) : t.get f = s.get f := by simp only [State.get, State.base, hregs, hnv]
  exact ⟨hcap, fun w => hget _, hget _⟩

theorem State.GoalSame.goal {s t : State} (h : s.GoalSame t) (d : Nat) : t.domGoal d = s.domGoal d := by
  have hreq : t.domReq d = s.domReq d := by simp only [State.domReq, State.winReq, h.req]
  have hlanes : t.vlanes = s.vlanes := by simp only [State.vlanes, h.lanes]
  have hcap : t.domCap t.pwr.capState d = s.domCap s.pwr.capState d := by
    unfold State.domCap
    rw [hlanes, h.cap]
  unfold State.domGoal
  rw [hreq, hcap, h.cap]

theorem domreq_key (w : Nat) : (F.CTRL_DOMREQ w).key = (w * 65536 + 8) * 32 + 2 := rfl

/-- No event is a request for a domain. -/
theorem State.raise_goalSame (s : State) (w : Nat) {b : Nat} (hb : b < 32) : s.GoalSame (s.raise w b) := by
  refine ⟨by rw [State.raise_pwr], fun v => State.get_raise_ne _ _ _ ?_, State.get_raise_ne _ _ _ ?_⟩
  · rw [domreq_key]
    simp only [F.EV_RAW, mkF]
    omega
  · simp only [F.PWR_STATECFG_VLANES, F.EV_RAW, mkF]
    omega

/-- A register beyond the page header's first is no request for a domain. -/
theorem State.set_goalSame (s : State) {w off lo len rst : Nat} (v : Nat) (hlo : lo < 32) (hoff : 0x10 ≤ off ∧ off < 65536)
    (hw : w ≠ W.PWR) : s.GoalSame (s.set (mkF w off lo len rst) v) := by
  have hpwr : w ≠ 1 := hw
  refine ⟨rfl, fun u => State.get_set_ne _ _ ?_, State.get_set_ne _ _ ?_⟩
  · rw [domreq_key]
    simp only [mkF]
    omega
  · simp only [F.PWR_STATECFG_VLANES, mkF]
    omega

theorem State.bump_goalSame (s : State) {w off : Nat} {ev : Nat} (hoff : 0x10 ≤ off ∧ off < 65536) (hw : w ≠ W.PWR) (hev : ev < 32) :
    s.GoalSame (s.bump w off ev) := by
  unfold State.bump State.satAdd
  dsimp only
  split_ifs
  · exact s.set_goalSame _ (by decide) hoff hw
  · exact .refl s
  · exact ((s.set_goalSame _ (by decide) hoff hw).trans (State.set_goalSame _ _ (by decide) hoff hw)).trans (State.raise_goalSame _ _ hev)

theorem State.opKill_goalSame (s : State) {w : Nat} (hw : w ≠ W.PWR) : s.GoalSame (s.opKill w) := by
  unfold State.opKill
  split
  · exact ((s.set_goalSame _ (by decide) (by decide) hw).trans (State.set_goalSame _ _ (by decide) (by decide) hw)).trans
      (State.raise_goalSame _ _ (by decide))
  · exact .refl s

/-! The yard's record -/

/-- The registers, the domains, the draining coaches and the engines are in t as in s. -/
structure State.EngFrame (s t : State) : Prop where
  regs : t.regs = s.regs
  nv : t.nv = s.nv
  pwr : t.pwr = s.pwr
  doms : t.doms = s.doms
  drain : t.drain = s.drain
  engs : t.yard.engs = s.yard.engs

theorem State.EngFrame.refl (s : State) : s.EngFrame s := ⟨rfl, rfl, rfl, rfl, rfl, rfl⟩

theorem State.EngFrame.trans {s t u : State} (h : s.EngFrame t) (g : t.EngFrame u) : s.EngFrame u :=
  ⟨g.regs.trans h.regs, g.nv.trans h.nv, g.pwr.trans h.pwr, g.doms.trans h.doms, g.drain.trans h.drain, g.engs.trans h.engs⟩

theorem State.bufRelease_engFrame (s : State) (h : Nat) : s.EngFrame (s.bufRelease h) := by
  unfold State.bufRelease
  split <;> exact ⟨rfl, rfl, rfl, rfl, rfl, rfl⟩

theorem State.wagFree_engFrame (s : State) (w : Nat) : s.EngFrame (s.wagFree w) := by
  unfold State.wagFree
  split
  · exact .refl s
  next x _ =>
    have hbufs : s.EngFrame (x.bufs.foldl (fun t h => t.bufRelease h) s) :=
      List.foldlRecOn (motive := fun t => s.EngFrame t) _ _ (.refl s) fun t ht h _ => ht.trans (t.bufRelease_engFrame h)
    exact hbufs.trans ⟨rfl, rfl, rfl, rfl, rfl, rfl⟩

theorem State.unstage_engFrame (s : State) (w : Nat) : s.EngFrame (s.unstage w) := by
  unfold State.unstage
  split
  · exact .refl s
  next x _ =>
    have hkids : s.EngFrame (x.kids.foldl (fun t c => t.wagFree c) s) :=
      List.foldlRecOn (motive := fun t => s.EngFrame t) _ _ (.refl s) fun t ht c _ => ht.trans (t.wagFree_engFrame c)
    exact hkids.trans ⟨rfl, rfl, rfl, rfl, rfl, rfl⟩

theorem State.makeReady_engFrame (s : State) (w : Nat) : s.EngFrame (s.makeReady w) := by
  unfold State.makeReady
  split
  · exact .refl s
  · exact ⟨rfl, rfl, rfl, rfl, rfl, rfl⟩

/-! An engine fails -/

theorem State.eng_of_engs {s t : State} (h : t.yard.engs = s.yard.engs) (e : Nat) : t.eng e = s.eng e := by rw [State.eng, State.eng, h]

/-- An engine that fails holds no wagon; the others hold theirs; no domain, coach or request changes. -/
structure State.EngFailed (s t : State) (e : Nat) : Prop where
  goals : s.GoalSame t
  doms : t.doms = s.doms
  drain : t.drain = s.drain
  own : (t.eng e).wag = none
  others : ∀ k, k ≠ e → (t.eng k).wag = (s.eng k).wag

theorem State.RegsOnly.engFailed {s t u : State} {e : Nat} (h : t.RegsOnly u) (hg : t.GoalSame u) (hf : s.EngFailed t e) : s.EngFailed u e := by
  have heng (k : Nat) : u.eng k = t.eng k := State.eng_of_engs (by rw [h.yard]) k
  have hdrain : u.drain = t.drain := by
    obtain ⟨_, _, rfl⟩ := h
    rfl
  exact ⟨hf.goals.trans hg, h.doms.trans hf.doms, hdrain.trans hf.drain, by rw [heng]; exact hf.own, fun k hk => by rw [heng]; exact hf.others k hk⟩

theorem State.engFree_failed {s : State} {e w : Nat} (h : (s.eng e).wag = some w) : s.EngFailed (s.engFree e) e := by
  have hfree : s.engFree e = s.setEng e { s.eng e with wag := none, busy := (s.eng e).busy + (s.ns - max (s.eng e).since s.yard.loadAt) } := by
    simp only [State.engFree, h]
  rw [hfree]
  refine ⟨⟨rfl, fun _ => rfl, rfl⟩, rfl, rfl, ?_, fun k hk => ?_⟩
  · simp [State.eng, State.setEng]
  · simp only [State.eng, State.setEng]
    rw [kget_kset_ne _ _ hk]

theorem State.engFail_failed {s : State} {e w : Nat} (h : (s.eng e).wag = some w) (charge : Bool) : s.EngFailed (s.engFail e charge) e := by
  have hf := ((s.engFree e).unstage_engFrame w).trans (State.makeReady_engFrame _ w)
  have heng (k : Nat) := State.eng_of_engs hf.engs k
  have hfree := State.engFree_failed h
  have hready : s.EngFailed (((s.engFree e).unstage w).makeReady w) e :=
    ⟨hfree.goals.trans (.of_regs hf.regs hf.nv (by rw [hf.pwr])), hf.doms.trans hfree.doms, hf.drain.trans hfree.drain,
      by rw [heng]; exact hfree.own, fun k hk => by rw [heng]; exact hfree.others k hk⟩
  simp only [State.engFail, h]
  split
  · exact ((State.bump_regsOnly _ _ _ _).trans (State.raise_regsOnly _ _ _)).engFailed
      ((State.bump_goalSame _ (by decide) (by decide) (by decide)).trans (State.raise_goalSame _ _ (by decide))) hready
  · exact hready

theorem State.engFail_of_idle {s : State} {e : Nat} (h : (s.eng e).wag = none) (charge : Bool) : s.engFail e charge = s := by
  simp only [State.engFail, h]

/-! A coach leaves -/

/-- No engine of a coach holds a wagon. -/
def State.coachIdle (s : State) (c : Nat) : Prop := ∀ i < 8, (s.eng (8 * c + i)).wag = none

theorem State.coachHolds_of_idle {s : State} {c : Nat} (h : s.coachIdle c) : s.coachHolds c = false := by
  simp only [State.coachHolds, List.any_eq_false, List.mem_range]
  intro i hi
  rw [h i hi]
  exact Bool.false_ne_true

/-- The state that a coach takes when it leaves on. -/
def State.leaveSt (s : State) (c : Nat) : Nat := if s.domGoal (8 + c) = 1 then 4 else 5

theorem State.domSt_setDom (s : State) (d : Nat) {st : Nat} (h : st ≠ 2) : (s.setDom d st).domSt d = st := by
  simp [State.domSt, State.setDom, h]

/-- A key that a filter drops is not in the map it leaves. -/
theorem kget_filter_of_dropped {α : Type} {p : Nat × α → Bool} {k : Nat} (hp : ∀ a, p (k, a) = false) (m : List (Nat × α)) :
    kget (m.filter p) k = none := by
  induction m with
  | nil => rfl
  | cons e m ih =>
    obtain ⟨j, a⟩ := e
    rw [List.filter_cons]
    split
    next hja =>
      have hj : j ≠ k := by
        rintro rfl
        rw [hp] at hja
        cases hja
      rw [kget, if_neg hj, ih]
    · exact ih

/-- A key that a filter keeps is mapped as before. -/
theorem kget_filter_of_kept {α : Type} {p : Nat × α → Bool} {k : Nat} (hp : ∀ a, p (k, a) = true) (m : List (Nat × α)) :
    kget (m.filter p) k = kget m k := by
  induction m with
  | nil => rfl
  | cons e m ih =>
    obtain ⟨j, a⟩ := e
    rw [List.filter_cons, kget]
    split
    · rw [kget, ih]
    next hja =>
      have hj : j ≠ k := by
        rintro rfl
        exact hja (hp a)
      rw [if_neg hj, ih]

theorem State.coachStop_of_idle {s : State} {c : Nat} (h : s.coachIdle c) :
    s.GoalSame (s.coachStop c) ∧ (s.coachStop c).coachIdle c := by
  have hfold : (List.range 8).foldl (fun t i => t.engFail (8 * c + i) true) s = s :=
    List.foldlRecOn (motive := fun t => t = s) _ _ rfl fun t ht i hi => by
      rw [ht]
      exact State.engFail_of_idle (h i (List.mem_range.mp hi)) true
  unfold State.coachStop
  rw [hfold]
  refine ⟨⟨rfl, fun _ => rfl, rfl⟩, fun i hi => ?_⟩
  have hdropped (e : EngS) : ((8 * c + i, e).1 / 8 != c) = false := by
    have hc : (8 * c + i) / 8 = c := by omega
    simp [hc]
  have hnone := kget_filter_of_dropped (p := fun e => e.1 / 8 != c) hdropped s.yard.engs
  simp only [State.eng, hnone]
  rfl

/-- A coach that has left: its domain's state is the one it takes, and it no longer drains. -/
structure State.CoachLeft (s t : State) (c : Nat) : Prop where
  dom : t.domSt (8 + c) = s.leaveSt c
  drain : t.drain.contains c = false
  idle : t.coachIdle c

theorem State.coachIdle_of_engs {s t : State} {c : Nat} (h : t.yard.engs = s.yard.engs) (hs : s.coachIdle c) : t.coachIdle c :=
  fun i hi => by rw [State.eng_of_engs h]; exact hs i hi

theorem State.coachLeave_left {s t : State} {c : Nat} (hg : s.GoalSame t) (hidle : t.coachIdle c) : s.CoachLeft (t.coachLeave c) c := by
  have hst : (if t.domGoal (8 + c) = 1 then 4 else 5) = s.leaveSt c := by rw [hg.goal]; rfl
  have hne : s.leaveSt c ≠ 2 := by
    unfold State.leaveSt
    split <;> decide
  have hkill : (t.opKill (W.ENG c)).coachIdle c := State.coachIdle_of_engs (by rw [(t.opKill_regsOnly (W.ENG c)).yard]) hidle
  have hstop := (State.coachStop_of_idle hkill).2
  unfold State.coachLeave
  dsimp only
  rw [hst]
  generalize (t.opKill (W.ENG c)).coachStop c = u at hstop ⊢
  refine ⟨State.domSt_setDom _ _ hne, ?_, State.coachIdle_of_engs (s := u) rfl hstop⟩
  have hgone : (u.drain.filter (· != c)).contains c = false := by simp
  exact hgone

theorem State.coachCheck_of_idle {s t : State} {c : Nat} (hg : s.GoalSame t) (hdrain : t.drain.contains c = true) (hidle : t.coachIdle c) :
    s.CoachLeft (t.coachCheck c) c := by
  have hcheck : t.coachCheck c = t.coachLeave c := by simp only [State.coachCheck, hdrain, State.coachHolds_of_idle hidle]; rfl
  rw [hcheck]
  exact State.coachLeave_left hg hidle

theorem State.coachCheck_of_holding {s : State} {c : Nat} (h : s.coachHolds c = true) : s.coachCheck c = s := by
  simp only [State.coachCheck, h, Bool.not_true, Bool.and_false, Bool.false_eq_true, if_false]

theorem State.coachCheck_of_left {s t : State} {c : Nat} (h : s.CoachLeft t c) : t.coachCheck c = t := by
  simp only [State.coachCheck, h.drain, Bool.false_and, Bool.false_eq_true, if_false]

theorem State.coachIdle_of_not_holds {s : State} {c : Nat} (h : s.coachHolds c = false) : s.coachIdle c := by
  simp only [State.coachHolds, List.any_eq_false, List.mem_range] at h
  intro i hi
  simpa using h i hi

/-- While a coach's drain ends, after n of its engines: it still drains with those engines idle, or it has left. -/
def State.Draining (s t : State) (c n : Nat) : Prop :=
  (s.GoalSame t ∧ t.drain.contains c = true ∧ ∀ i < n, (t.eng (8 * c + i)).wag = none) ∨ s.CoachLeft t c

/-- One engine of a coach stops at the end of the drain. -/
def State.drainEng (s : State) (c i : Nat) : State :=
  if (s.eng (8 * c + i)).wag.isSome then s.engFails (8 * c + i) true else s

theorem State.engFails_draining {s t : State} {c n w : Nat} (hn : n < 8) (hg : s.GoalSame t) (hdrain : t.drain.contains c = true)
    (hidle : ∀ i < n, (t.eng (8 * c + i)).wag = none) (hw : (t.eng (8 * c + n)).wag = some w) :
    s.Draining (t.engFails (8 * c + n) true) c (n + 1) := by
  have hcoach : (8 * c + n) / 8 = c := by omega
  have hfail := (State.raise_regsOnly _ (W.ENG c) E.ENG_FAIL).engFailed (State.raise_goalSame _ _ (by decide)) (State.engFail_failed hw true)
  unfold State.engFails
  rw [hcoach]
  generalize (t.engFail (8 * c + n) true).raise (W.ENG c) E.ENG_FAIL = u at hfail ⊢
  have hudrain : u.drain.contains c = true := by rw [hfail.drain, hdrain]
  have hug := hg.trans hfail.goals
  by_cases hhold : u.coachHolds c = true
  · rw [State.coachCheck_of_holding hhold]
    refine .inl ⟨hug, hudrain, fun i hi => ?_⟩
    by_cases hin : i = n
    · rw [hin]
      exact hfail.own
    · rw [hfail.others _ (by omega)]
      exact hidle i (by omega)
  · exact .inr (State.coachCheck_of_idle hug hudrain (State.coachIdle_of_not_holds (by simpa using hhold)))

theorem State.drainEng_draining {s t : State} {c n : Nat} (hn : n < 8) (h : s.Draining t c n) :
    s.Draining (t.drainEng c n) c (n + 1) := by
  unfold State.drainEng
  rcases hwag : (t.eng (8 * c + n)).wag with _ | w
  · refine h.imp (fun ⟨hg, hdrain, hidle⟩ => ⟨hg, hdrain, fun i hi => ?_⟩) id
    by_cases hin : i = n
    · rw [hin]
      exact hwag
    · exact hidle i (by omega)
  · rcases h with ⟨hg, hdrain, hidle⟩ | hleft
    · exact State.engFails_draining hn hg hdrain hidle hwag
    · rw [hleft.idle n hn] at hwag
      cases hwag

theorem State.drainFold_draining {s : State} {c : Nat} (hdrain : s.drain.contains c = true) :
    ∀ n ≤ 8, s.Draining ((List.range n).foldl (fun t i => t.drainEng c i) s) c n
  | 0, _ => .inl ⟨.refl s, hdrain, fun i hi => absurd hi (Nat.not_lt_zero i)⟩
  | n + 1, hn => by
    rw [List.range_succ, List.foldl_append]
    exact State.drainEng_draining (by omega) (State.drainFold_draining hdrain n (by omega))

/-- A coach that still drains when the time runs out leaves on. -/
theorem State.drainEnd_left {s : State} {c : Nat} (hdrain : s.drain.contains c = true) : s.CoachLeft (s.drainEnd c) c := by
  have hend : s.drainEnd c = ((List.range 8).foldl (fun t i => t.drainEng c i) s).coachCheck c := by
    simp only [State.drainEnd, State.drainEng, hdrain, Bool.not_true, Bool.false_eq_true, if_false]
  rw [hend]
  rcases State.drainFold_draining hdrain 8 le_rfl with ⟨hg, hdr, hidle⟩ | hleft
  · exact State.coachCheck_of_idle hg hdr hidle
  · rw [State.coachCheck_of_left hleft]
    exact hleft

/-! A transition that is done -/

/-- What the front end's first domain and MLD's lose is no register and no domain. -/
theorem State.domLose_same {s : State} {d : Nat} (hd : d = 2 ∨ d = 6) (off : Bool) :
    s.GoalSame (s.domLose d off) ∧ (s.domLose d off).doms = s.doms := by
  rcases hd with rfl | rfl
  · have hlose : s.domLose 2 off = if !off then s else s.domLose 2 true := by cases off <;> rfl
    rw [hlose]
    split
    · exact ⟨.refl s, rfl⟩
    · exact ⟨⟨rfl, fun _ => rfl, rfl⟩, rfl⟩
  · have hlose : s.domLose 6 off =
        if off || !s.on F.PWR_RETSEL_MLDTAB then s.setWl { s.wl with sta := [], twt := [], spNext := [], spOpen := [] } else s := rfl
    rw [hlose]
    split
    · exact ⟨⟨rfl, fun _ => rfl, rfl⟩, rfl⟩
    · exact ⟨.refl s, rfl⟩

theorem State.setDom_goalSame (s : State) (d st : Nat) : s.GoalSame (s.setDom d st) := ⟨rfl, fun _ => rfl, rfl⟩

theorem State.domDone_of_moving {s : State} {d : Nat} (hmem : domAllList.contains d = true) (hlive : s.live = true) (hst : s.domSt d ≠ 2) :
    s.domDone d = (s.domArrive d).domEval d := by
  simp only [State.domDone, hmem, hlive, hst]
  rfl

/-- A domain at rest where it is to be stays. -/
theorem State.domEval_of_rest {s : State} {d : Nat} (h : s.domSt d = 0 ∧ s.domGoal d = 0 ∨ s.domSt d = 3 ∧ s.domGoal d = 1) : s.domEval d = s := by
  unfold State.domEval
  rcases h with ⟨hst, hgoal⟩ | ⟨hst, hgoal⟩ <;> simp [hst, hgoal]

theorem State.domEval_of_on {s : State} {d : Nat} (hd : d < 8) (hst : s.domSt d = 2) (hgoal : s.domGoal d = 2) : s.domEval d = s := by
  have hcoach : ¬ 8 ≤ d := by omega
  simp [State.domEval, hst, hgoal, hcoach]

theorem State.lost_domSt {s : State} {d st : Nat} (hd : d = 2 ∨ d = 6) (hst : st ≠ 2) (off : Bool) :
    ((s.setDom d st).domLose d off).domSt d = st := by
  rw [State.domSt, (State.domLose_same hd off).2]
  exact State.domSt_setDom s d hst

theorem State.lost_goal {s : State} {d : Nat} (hd : d = 2 ∨ d = 6) (st : Nat) (off : Bool) :
    ((s.setDom d st).domLose d off).domGoal d = s.domGoal d :=
  ((s.setDom_goalSame d st).trans (State.domLose_same hd off).1).goal d

theorem State.regsReset_goalSame (s : State) {w : Nat} (dom : Bool) (hw : w ≠ W.PWR) : s.GoalSame (s.regsReset w dom) := by
  have hpwr : w ≠ 1 := hw
  have hkept {f : Fld} (h : ∀ a : Nat, ((f.key, a).1 / 2097152 != w || keepReg w ((f.key, a).1 / 32 % 65536) ((f.key, a).1 % 32) dom) = true) :
      (s.regsReset w dom).get f = s.get f := by
    have hk := kget_filter_of_kept (p := fun e => e.1 / 2097152 != w || keepReg w (e.1 / 32 % 65536) (e.1 % 32) dom) h s.regs
    simp only [State.get, State.base, State.regsReset, hk]
  refine ⟨rfl, fun v => hkept fun a => ?_, hkept fun a => ?_⟩
  · have hoff : ((v * 65536 + 8) * 32 + 2) / 32 % 65536 = 8 := by omega
    simp [domreq_key, hoff, keepReg]
  · have hwin : F.PWR_STATECFG_VLANES.key / 2097152 = 1 := by decide
    simp [hwin, Ne.symm hpwr]

theorem domWins_mld : domWins 6 = [0x1F] := by decide

theorem State.domOn_mld (s : State) : s.domOn 6 = (s.setDom 6 2).regsReset 0x1F true := by
  simp only [State.domOn, domWins_mld]
  rfl

theorem State.setDom_on (s : State) (d : Nat) : (s.setDom d 2).domSt d = 2 := by
  simp [State.domSt, State.setDom]

/-- Settles O18: a domain arrives where it is to be and stays, and a coach that drains leaves with its engines idle. -/
theorem domainTransitions : Obligations.DomainTransitions := by
  unfold Obligations.DomainTransitions
  refine ⟨fun s d hlive hd hst hgoal => ⟨_, rfl, ?_⟩, fun s d hlive hd hst hgoal => ⟨_, rfl, ?_⟩, fun s d hlive hd hst hgoal => ⟨_, rfl, ?_⟩,
    fun s c _ hdrain _ => ⟨_, rfl, (State.drainEnd_left hdrain).dom, (State.drainEnd_left hdrain).drain⟩⟩
  · have hmem : domAllList.contains d = true := by rcases hd with rfl | rfl <;> decide
    have harrive : s.domArrive d = (s.setDom d 0).domLose d true := by simp only [State.domArrive, hst]
    have hoff := State.lost_domSt (s := s) hd (show 0 ≠ 2 by decide) true
    rw [State.domDone_of_moving hmem hlive (by rw [hst]; decide), harrive,
      State.domEval_of_rest (.inl ⟨hoff, (State.lost_goal hd 0 true).trans hgoal⟩)]
    exact hoff
  · have hmem : domAllList.contains d = true := by rcases hd with rfl | rfl <;> decide
    have harrive : s.domArrive d = (s.setDom d 3).domLose d false := by simp only [State.domArrive, hst]
    have hret := State.lost_domSt (s := s) hd (show 3 ≠ 2 by decide) false
    rw [State.domDone_of_moving hmem hlive (by rw [hst]; decide), harrive,
      State.domEval_of_rest (.inr ⟨hret, (State.lost_goal hd 3 false).trans hgoal⟩)]
    exact hret
  · subst hd
    have harrive : s.domArrive 6 = (s.setDom 6 2).regsReset 0x1F true := by
      rw [← State.domOn_mld]
      simp only [State.domArrive, hst, hgoal]
      rfl
    have hon : ((s.setDom 6 2).regsReset 0x1F true).domSt 6 = 2 := s.setDom_on 6
    have hsame := (s.setDom_goalSame 6 2).trans (State.regsReset_goalSame _ true (by decide : (0x1F : Nat) ≠ W.PWR))
    rw [State.domDone_of_moving (by decide) hlive (by rw [hst]; decide), harrive,
      State.domEval_of_on (by decide) hon ((hsame.goal 6).trans hgoal)]
    refine ⟨hon, ?_⟩
    have hdom : winDom W.MLD = 6 := by decide
    have hlive' : ((s.setDom 6 2).regsReset 0x1F true).live = true := hlive
    simp only [State.winOn, hdom, hon, hlive']
    rfl

end Sys2Proof.Machine
end


section
/-!
How SEC answers each request, R329, R330 and R338.
-/

namespace Sys2Proof.Machine

/-! A request answered -/

theorem getD_lset_same {α : Type} (l : List α) {k : Nat} (a d : α) (h : k < l.length) : (lset l k a).getD k d = a := by
  induction l generalizing k with
  | nil => exact absurd h (Nat.not_lt_zero k)
  | cons b l ih =>
    cases k with
    | zero => rfl
    | succ k => simpa [lset] using ih (Nat.lt_of_succ_lt_succ h)

/-- The request is the one not answered, and the wagon of it waits for the coupling of its slot, of type ty. -/
structure State.Asked (s : State) (r : Req) (x : Wagon) (ty : Nat) : Prop where
  reqs : s.yard.reqs = [r]
  late : s.ram.late = []
  ue : s.ram.ue = []
  wag : s.wag r.wid = some x
  waits : x.st = 2
  slot : r.slot < 8
  decl : bitOf x.decl r.slot = true
  arr : bitOf x.arr r.slot = false
  ctype : bitsOf x.ctype (4 * r.slot) 4 = ty
  cpl : x.cpl.length = 8

theorem State.Asked.of_eq {s t : State} {r : Req} {x : Wagon} {ty : Nat} (h : s.Asked r x ty) (hyard : t.yard = s.yard) (hram : t.ram = s.ram) :
    t.Asked r x ty := by
  refine ⟨by rw [hyard]; exact h.reqs, by rw [hram]; exact h.late, by rw [hram]; exact h.ue, ?_, h.waits, h.slot, h.decl, h.arr, h.ctype, h.cpl⟩
  rw [State.wag, hyard]
  exact h.wag

/-- No request is left, and the wagon's coupling of the request's slot holds v; registers, keys and memory stay. -/
structure State.Answered (s t : State) (r : Req) (v : Nat) : Prop where
  reqs : t.yard.reqs = []
  value : (t.wag r.wid).map (fun y => y.cpl.getD r.slot 0) = some v
  keys : t.keys = s.keys
  regs : t.regs = s.regs
  nv : t.nv = s.nv
  mem : t.mem = s.mem

theorem State.reqTake_of_asked {s : State} {r : Req} {x : Wagon} {ty : Nat} (h : s.Asked r x ty) :
    (s.reqTake r).yard = { s.yard with reqs := [] } ∧ (s.reqTake r).keys = s.keys ∧ (s.reqTake r).regs = s.regs ∧ (s.reqTake r).nv = s.nv
      ∧ (s.reqTake r).mem = s.mem := by
  refine ⟨?_, rfl, rfl, rfl, rfl⟩
  simp [State.reqTake, h.reqs]

/-- A wagon that settles keeps its couplings. -/
theorem State.settle_cpl (s : State) (w k : Nat) :
    ((s.settle w).wag w).map (fun y => y.cpl.getD k 0) = (s.wag w).map (fun y => y.cpl.getD k 0) := by
  unfold State.settle State.makeReady
  rcases hw : s.wag w with _ | x
  · simp only [hw]
  · dsimp only
    split
    · simp [State.wag, State.setWag]
    · rw [hw]

theorem State.settle_frame (s : State) (w : Nat) : (s.settle w).yard.reqs = s.yard.reqs ∧ (s.settle w).keys = s.keys
    ∧ (s.settle w).regs = s.regs ∧ (s.settle w).nv = s.nv ∧ (s.settle w).mem = s.mem := by
  unfold State.settle State.makeReady
  rcases s.wag w with _ | x
  · exact ⟨rfl, rfl, rfl, rfl, rfl⟩
  · dsimp only
    split <;> exact ⟨rfl, rfl, rfl, rfl, rfl⟩

/-- A coupling that a wagon waits for arrives. -/
theorem State.couple_of_waiting {s : State} {w k ty v : Nat} {x : Wagon} (hw : s.wag w = some x) (hst : x.st = 2) (hk : k < 8)
    (hdecl : bitOf x.decl k = true) (harr : bitOf x.arr k = false) (hty : bitsOf x.ctype (4 * k) 4 = ty) (snap : List Byte) :
    ∃ y, y.cpl = lset x.cpl k (v % 2 ^ 32) ∧ s.couple w k ty v snap = (s.setWag w y).settle w := by
  unfold State.couple
  rw [hw]
  dsimp only
  rw [if_pos (by simp [hst, hk, hdecl, harr, hty])]
  exact ⟨_, rfl, rfl⟩

/-- A request that is taken off and answered in the coupling its wagon waits for. -/
theorem State.answered_of_asked {s : State} {r : Req} {x : Wagon} {ty v : Nat} (h : s.Asked r x ty) (hv : v < 2 ^ 32) (snap : List Byte) :
    s.Answered ((s.reqTake r).couple r.wid r.slot ty v snap) r v := by
  obtain ⟨hyard, hkeys, hregs, hnv, hmem⟩ := State.reqTake_of_asked h
  have hwag : (s.reqTake r).wag r.wid = some x := by
    rw [State.wag, hyard]
    exact h.wag
  have hreqs : (s.reqTake r).yard.reqs = [] := by rw [hyard]
  obtain ⟨y, hcpl, hy⟩ := State.couple_of_waiting (v := v) hwag h.waits h.slot h.decl h.arr h.ctype snap
  rw [hy]
  generalize s.reqTake r = t at *
  obtain ⟨greqs, gkeys, gregs, gnv, gmem⟩ := (t.setWag r.wid y).settle_frame r.wid
  refine ⟨greqs.trans hreqs, ?_, gkeys.trans hkeys, gregs.trans hregs, gnv.trans hnv, gmem.trans hmem⟩
  rw [State.settle_cpl]
  have hset : (t.setWag r.wid y).wag r.wid = some y := kget_kset_same _ _ _
  rw [hset, Option.map_some, hcpl, getD_lset_same _ _ _ (by rw [h.cpl]; exact h.slot), Nat.mod_eq_of_lt hv]

/-! Memory written -/

/-- t is s with some octets of memory written within the ranges of l. -/
def State.Wrote (s t : State) (l : List (Nat × Nat)) : Prop := (∃ m, t = { s with mem := m }) ∧ s.memBut t l

theorem State.Wrote.refl (s : State) (l : List (Nat × Nat)) : s.Wrote s l := ⟨⟨s.mem, rfl⟩, fun _ _ => rfl⟩

theorem State.Wrote.poke {s t : State} {l : List (Nat × Nat)} (h : s.Wrote t l) (hue : s.ram.ue = []) {a lo n : Nat} {b : List Byte}
    (hr : (lo, n) ∈ l) (hlo : lo ≤ a) (hhi : a + b.length ≤ lo + n) (ha : a < 0x8000000000) : s.Wrote (t.poke a b) l := by
  obtain ⟨⟨m, rfl⟩, hbut⟩ := h
  rw [State.poke_of_good (s := { s with mem := m }) hue ha]
  refine ⟨⟨_, rfl⟩, fun c hc => ?_⟩
  have hout := hc (lo, n) hr
  dsimp only at hout
  rw [State.peek_withOctets_out _ (by omega)]
  exact hbut c hc

/-- The first word of a frame buffer's header is written. -/
theorem State.pokeHdr_first (s : State) (h v : Nat) : s.pokeHdr h 0 [v] = s.poke (handleAddr h) (toLE 4 v) := rfl

theorem State.peeks_congr {s t : State} {a n : Nat} (h : ∀ i < n, t.peek (a + i) = s.peek (a + i)) : t.peeks a n = s.peeks a n :=
  List.map_congr_left fun i hi => h i (List.mem_range.mp hi)

theorem handleAddr_lt {h : Nat} (hh : h < 2 ^ 20) : handleAddr h < 0x14000000 := by
  unfold handleAddr
  omega

theorem State.outCap_le (s : State) (h : Nat) : s.outCap h ≤ 16384 := by
  unfold State.outCap bufData
  split
  · split <;> decide
  · decide

/-- Octets that a frame buffer holds, and the first word of its header, are written inside the buffer. -/
theorem State.wrote_pokeOut {s : State} (hue : s.ram.ue = []) {h ofs : Nat} {l : List Byte} (hh : h < 2 ^ 20)
    (hfit : ofs + l.length ≤ s.outCap h) (v : Nat) :
    s.Wrote ((s.pokeData h ofs l).pokeHdr h 0 [v]) [(handleAddr h, 64 + s.outCap h)] := by
  have haddr := handleAddr_lt hh
  have hcap := s.outCap_le h
  have hdata : s.Wrote (s.pokeData h ofs l) [(handleAddr h, 64 + s.outCap h)] :=
    (State.Wrote.refl s _).poke hue (List.mem_singleton_self _) (by omega) (by omega) (by omega)
  rw [State.pokeHdr_first]
  exact hdata.poke hue (List.mem_singleton_self _) le_rfl (by rw [length_toLE]; omega) (by omega)

theorem State.Wrote.asked {s t : State} {l : List (Nat × Nat)} {r : Req} {x : Wagon} {ty : Nat} (h : s.Wrote t l) (hs : s.Asked r x ty) :
    t.Asked r x ty := by
  obtain ⟨⟨m, rfl⟩, -⟩ := h
  exact hs.of_eq rfl rfl

/-- A request answered after memory was written. -/
theorem State.Wrote.answered {s t u : State} {l : List (Nat × Nat)} {r : Req} {v : Nat} (h : s.Wrote t l) (g : t.Answered u r v) :
    u.yard.reqs = [] ∧ u.keys = s.keys ∧ (u.wag r.wid).map (fun y => y.cpl.getD r.slot 0) = some v ∧ s.keeps u [] ∧ s.memBut u l := by
  obtain ⟨⟨m, rfl⟩, hbut⟩ := h
  refine ⟨g.reqs, g.keys, g.value, State.keeps_congr g.regs g.nv (State.keeps_refl _ _), fun a ha => ?_⟩
  rw [State.peek, g.mem]
  exact hbut a ha

/-! The pieces of SEC -/

theorem Req.secOut_lt (r : Req) : r.secOut < 2 ^ 20 := Nat.mod_lt _ (by decide)

theorem State.secAns_answered {s : State} {r : Req} {x : Wagon} (h : s.Asked r x 2) {handle result : Nat} (hh : handle < 2 ^ 20) (hr : result < 4) :
    s.Answered (s.secAns r handle result) r (handle + result * 2 ^ 20) :=
  State.answered_of_asked h (by omega) []

/-- A refused request changes a counter and its event, and answers its result. -/
theorem State.secCnt_answered {s : State} {r : Req} {x : Wagon} (h : s.Asked r x 2) (n : Nat) {result : Nat} (hr : result < 4) :
    let t := (s.secCnt n).secAns r 0 result
    t.yard.reqs = [] ∧ t.keys = s.keys ∧ (t.wag r.wid).map (fun y => y.cpl.getD r.slot 0) = some (result * 2 ^ 20)
      ∧ s.keeps t [mkF W.SEC (0x80 + 4 * n) 0 31 0, mkF W.SEC (0x80 + 4 * n) 31 1 0, F.EV_RAW W.SEC E.SEC_CNTSAT] ∧ t.mem = s.mem := by
  have hcnt : s.RegsOnly (s.secCnt n) := s.bump_regsOnly _ _ _
  have hkeep : s.keeps (s.secCnt n) [mkF W.SEC (0x80 + 4 * n) 0 31 0, mkF W.SEC (0x80 + 4 * n) 31 1 0, F.EV_RAW W.SEC E.SEC_CNTSAT] :=
    State.keeps_bump (by simp) (by simp) (by simp) (s.keeps_refl _)
  have hans := State.secAns_answered (h.of_eq hcnt.yard hcnt.ram) (handle := 0) (by decide) hr
  rw [Nat.zero_add] at hans
  exact ⟨hans.reqs, hans.keys.trans hcnt.keys, hans.value, State.keeps_congr hans.regs hans.nv hkeep, hans.mem.trans hcnt.mem⟩

/-- The buffer that OUT names takes the octets where they fit, and the request is answered. -/
theorem State.secPut_answered {s : State} {r : Req} {x : Wagon} (h : s.Asked r x 2) (hout : r.secOut ≠ 0) (l : List Byte) :
    ∃ t, s.Wrote t [(handleAddr r.secOut, 64 + s.outCap r.secOut)] ∧
      t.Answered (s.secPut r l) r (if r.hdrofs + l.length ≤ s.outCap r.secOut then r.secOut else 2 * 2 ^ 20) := by
  have hlt := r.secOut_lt
  unfold State.secPut
  by_cases hfit : r.hdrofs + l.length ≤ s.outCap r.secOut
  · simp only [State.secBuf, hout, if_false, hfit, if_true]
    have hwrote := State.wrote_pokeOut h.ue hlt (ofs := 0) (l := s.peeks (handleAddr r.inH + 64) r.hdrofs ++ l)
      (by rw [List.length_append, length_peeks, Nat.zero_add]; omega)
    generalize State.hdrW _ r.secOut 0 - _ + _ = v
    have hans := State.secAns_answered ((hwrote v).asked h) hlt (result := 0) (by decide)
    rw [Nat.zero_mul, Nat.add_zero] at hans
    exact ⟨_, hwrote v, hans⟩
  · simp only [State.secBuf, hout, if_false, hfit]
    have hans := State.secAns_answered h (handle := 0) (by decide) (result := 2) (by decide)
    rw [Nat.zero_add] at hans
    exact ⟨s, .refl s _, hans⟩

/-- The counter of SEC at an offset and its saturation event. -/
def secCntRegs (n : Nat) : List Fld := [mkF W.SEC (0x80 + 4 * n) 0 31 0, mkF W.SEC (0x80 + 4 * n) 31 1 0, F.EV_RAW W.SEC E.SEC_CNTSAT]

/-- What a decryption leaves: its octets in OUT, or the failure of its integrity code. -/
theorem State.secOpen_ends {s : State} {r : Req} {x : Wagon} (h : s.Asked r x 2) (hout : r.secOut ≠ 0) (l : Option (List Byte)) :
    let t := s.secOpen r l
    t.yard.reqs = [] ∧ t.keys = s.keys ∧ (l = none → (t.wag r.wid).map (fun y => y.cpl.getD r.slot 0) = some (2 ^ 20))
      ∧ (∀ m ∈ l.toList, r.hdrofs + m.length ≤ s.outCap r.secOut → (t.wag r.wid).map (fun y => y.cpl.getD r.slot 0) = some r.secOut)
      ∧ s.keeps t (secCntRegs 0) ∧ s.memBut t [(handleAddr r.secOut, 64 + s.outCap r.secOut)] := by
  rcases l with _ | m
  · obtain ⟨hreqs, hkeys, hval, hkeep, hmem⟩ := State.secCnt_answered h 0 (result := 1) (by decide)
    refine ⟨hreqs, hkeys, fun _ => hval, fun m hm => absurd hm (List.not_mem_nil), hkeep, fun a _ => ?_⟩
    rw [State.peek, State.peek, show (s.secOpen r none).mem = s.mem from hmem]
  · obtain ⟨t, hwrote, hans⟩ := State.secPut_answered h hout m
    obtain ⟨hreqs, hkeys, hval, hkeep, hbut⟩ := hwrote.answered hans
    refine ⟨hreqs, hkeys, fun hl => absurd hl (Option.some_ne_none m), fun m' hm' hfit => ?_, State.keeps_mono hkeep (List.nil_subset _), hbut⟩
    obtain rfl : m' = m := by simpa using hm'
    rw [if_pos hfit] at hval
    exact hval

theorem State.keyBlock_of_single {s : State} {i : Nat} {k : KeyS} (h : k.paired = false) : s.keyBlock i k = s := by
  simp [State.keyBlock, h]

/-- What an encryption leaves: its octets in OUT, and the key's next counter. -/
theorem State.secSeal_ends {s : State} {r : Req} {x : Wagon} {k : KeyS} (h : s.Asked r x 2) (hout : r.secOut ≠ 0) (hkey : k.paired = false)
    (hexh : k.exh = false) (hcnt : k.cnt < 0xFFFFFFFF) (f : List Byte → List Byte) :
    let t := s.secSeal r k f
    t.yard.reqs = [] ∧ (kget t.keys r.key).map (fun y => (y.cnt, y.exh)) = some (k.cnt + 1, false)
      ∧ (r.hdrofs + (f (s.secIn r)).length ≤ s.outCap r.secOut → (t.wag r.wid).map (fun y => y.cpl.getD r.slot 0) = some r.secOut)
      ∧ s.keeps t [] ∧ s.memBut t [(handleAddr r.secOut, 64 + s.outCap r.secOut)] := by
  obtain ⟨t, hwrote, hans⟩ := State.secPut_answered h hout (f (s.secIn r))
  obtain ⟨hreqs, -, hval, hkeep, hbut⟩ := hwrote.answered hans
  have hstep : s.secSeal r k f = { s.secPut r (f (s.secIn r)) with
      keys := kset (s.secPut r (f (s.secIn r))).keys r.key { k with cnt := k.cnt + 1 } } := by
    simp only [State.secSeal, State.keyStep, State.keyBlock_of_single hkey, hexh, hkey, Nat.ne_of_lt hcnt, Bool.false_and, Bool.false_eq_true, if_false]
  rw [hstep]
  dsimp only
  refine ⟨hreqs, ?_, fun hfit => ?_, State.keeps_congr rfl rfl hkeep, hbut⟩
  · simp [hexh]
  · rw [if_pos hfit] at hval
    exact hval

theorem State.secSeal_of_exhausted {s : State} {r : Req} {k : KeyS} (hkey : k.paired = false) (hexh : k.exh = true) (f : List Byte → List Byte) :
    s.secSeal r k f = (s.secCnt 2).secAns r 0 3 := by
  simp only [State.secSeal, State.keyBlock_of_single hkey, hexh, if_true]

/-! A request is taken up -/

section
variable {s : State} {r : Req} {op : Nat}

theorem State.secOut_of_pool (h : s.inPool r.secOut = true) : r.secOut ≠ 0 := by
  simp only [State.inPool, Bool.and_eq_true, decide_eq_true_eq] at h
  omega

theorem State.secRun_of_key {k : KeyS} (f : State → Req → KeyS → State) (hon : s.enabled W.SEC = true) (hreqs : s.yard.reqs = [r])
    (hsec : r.sec = true) (hop : r.op = op) (hin : s.inPool r.inH = true) (hout : s.inPool r.secOut = true) (hkey : kget s.keys r.key = some k)
    (huse : useFits op k.use = true) : s.secRun op f = f s r k := by
  simp [State.secRun, hon, hreqs, hsec, hop, hin, hout, hkey, huse]

theorem State.secRun_of_no_key (f : State → Req → KeyS → State) (hon : s.enabled W.SEC = true) (hreqs : s.yard.reqs = [r])
    (hsec : r.sec = true) (hop : r.op = op) (hin : s.inPool r.inH = true) (hout : s.inPool r.secOut = true) (hkey : kget s.keys r.key = none) :
    s.secRun op f = (s.secCnt 1).secAns r 0 2 := by
  simp [State.secRun, hon, hreqs, hsec, hop, hin, hout, hkey]

end

theorem useFits_macsec {op use : Nat} (hop : 4 < op) (h : use = 3 ∨ use = 4) : useFits op use = true := by
  have h2 : ¬ op ≤ 2 := by omega
  have h4 : ¬ op ≤ 4 := by omega
  simp [useFits, h2, h4, h]

/-- Settles O55: the answer is the coupling that the request's wagon waits for. -/
theorem secRequests : Obligations.SecRequests := by
  unfold Obligations.SecRequests
  refine ⟨fun s r x k hon hreqs hsec hop hin hout hlate hue hwag hst hslot hdecl harr hty hcpl hkey huse => ⟨_, rfl, ?_⟩,
    fun s r x k hon hreqs hsec hop hin hout hlate hue hwag hst hslot hdecl harr hty hcpl hkey huse => ⟨_, rfl, ?_⟩,
    fun s r x k hon hreqs hsec hop hin hout hlate hue hwag hst hslot hdecl harr hty hcpl hkey huse => ⟨_, rfl, ?_⟩,
    fun s r x k hon hreqs hsec hop hin hout hlate hue hwag hst hslot hdecl harr hty hcpl hkey huse hpair hexh hcnt => ⟨_, rfl, ?_⟩,
    fun s r x k hon hreqs hsec hop hin hout hlate hue hwag hst hslot hdecl harr hty hcpl hkey huse hpair hexh hcnt => ⟨_, rfl, ?_⟩,
    fun s r x k hon hreqs hsec hop hin hout hlate hue hwag hst hslot hdecl harr hty hcpl hkey huse hpair hexh hcnt => ⟨_, rfl, ?_⟩,
    fun s r x k hon hreqs hsec hop hin hout hlate hue hwag hst hslot hdecl harr hty hcpl hkey huse hpair hexh => ⟨_, rfl, ?_⟩,
    fun s r x k hon hreqs hsec hop hin hout hlate hue hwag hst hslot hdecl harr hty hcpl hkey huse hpair hexh => ⟨_, rfl, ?_⟩,
    fun s r x k hon hreqs hsec hop hin hout hlate hue hwag hst hslot hdecl harr hty hcpl hkey huse hpair hexh => ⟨_, rfl, ?_⟩,
    fun s r x hon hreqs hsec hop hin hout hlate hue hwag hst hslot hdecl harr hty hcpl hkey => ⟨_, rfl, ?_⟩⟩
  all_goals
    dsimp only
    have hasked : s.Asked r x 2 := ⟨hreqs, hlate, hue, hwag, hst, hslot, hdecl, harr, hty, hcpl⟩
    have hbuf := State.secOut_of_pool hout
  · rw [State.secRun_of_key _ hon hreqs hsec hop hin hout hkey (by rw [huse]; rfl)]
    exact State.secOpen_ends hasked hbuf _
  · rw [State.secRun_of_key _ hon hreqs hsec hop hin hout hkey (by rw [huse]; rfl)]
    exact State.secOpen_ends hasked hbuf _
  · rw [State.secRun_of_key _ hon hreqs hsec hop hin hout hkey (useFits_macsec (by decide) huse)]
    exact State.secOpen_ends hasked hbuf _
  · rw [State.secRun_of_key _ hon hreqs hsec hop hin hout hkey (by rw [huse]; rfl)]
    exact State.secSeal_ends hasked hbuf hpair hexh hcnt _
  · rw [State.secRun_of_key _ hon hreqs hsec hop hin hout hkey (by rw [huse]; rfl)]
    exact State.secSeal_ends hasked hbuf hpair hexh hcnt _
  · rw [State.secRun_of_key _ hon hreqs hsec hop hin hout hkey (useFits_macsec (by decide) huse)]
    exact State.secSeal_ends hasked hbuf hpair hexh hcnt _
  · rw [State.secRun_of_key _ hon hreqs hsec hop hin hout hkey (by rw [huse]; rfl), State.ccmEnc, State.secSeal_of_exhausted hpair hexh]
    obtain ⟨hend, hkeys, hval, hkeep, hmem⟩ := State.secCnt_answered hasked 2 (result := 3) (by decide)
    exact ⟨hend, hkeys, hval, hkeep, hmem⟩
  · rw [State.secRun_of_key _ hon hreqs hsec hop hin hout hkey (by rw [huse]; rfl), State.gcmpEnc, State.secSeal_of_exhausted hpair hexh]
    obtain ⟨hend, hkeys, hval, hkeep, hmem⟩ := State.secCnt_answered hasked 2 (result := 3) (by decide)
    exact ⟨hend, hkeys, hval, hkeep, hmem⟩
  · rw [State.secRun_of_key _ hon hreqs hsec hop hin hout hkey (useFits_macsec (by decide) huse), State.macsecEnc, State.secSeal_of_exhausted hpair hexh]
    obtain ⟨hend, hkeys, hval, hkeep, hmem⟩ := State.secCnt_answered hasked 2 (result := 3) (by decide)
    exact ⟨hend, hkeys, hval, hkeep, hmem⟩
  · rw [State.secRun_of_no_key _ hon hreqs hsec hop hin hout hkey]
    obtain ⟨hend, -, hval, hkeep, hmem⟩ := State.secCnt_answered hasked 1 (result := 2) (by decide)
    exact ⟨hend, hval, hkeep, hmem⟩

end Sys2Proof.Machine
end


section
/-!
How RTE answers each request, R261 to R269.
-/

namespace Sys2Proof.Machine

theorem Req.outH_lt (r : Req) : r.outH < 2 ^ 20 := Nat.mod_lt _ (by decide)

/-! What RTE reads -/

/-- With no set kept and none released, a request finds the tables in force. -/
theorem State.rteSet_of_settled {s : State} (hold : s.rte.old = none) (hlast : s.rte.lastT = none) (cs : Nat) :
    s.rteSet cs = (s.rte.tabs, s) := by
  simp [State.rteSet, State.pastSet, hold, hlast]

theorem State.rteRun_of_good {s : State} {r : Req} {op : Nat} (f : State → Req → State) (hon : s.enabled W.RTE = true) (hreqs : s.yard.reqs = [r])
    (hsec : r.sec = false) (hop : r.op = op) (hin : s.inPool r.inH = true) (hout : s.inPool r.outH = true)
    (hlen : r.inofs + r.inlen ≤ s.frmLen r.inH) : s.rteRun op f = f s r := by
  have hfits : ¬ s.frmLen r.inH < r.inofs + r.inlen := by omega
  simp [State.rteRun, hon, hreqs, hsec, hop, hin, hout, hfits]

/-! The answers -/

theorem State.rteAns_answered {s : State} {r : Req} {x : Wagon} (h : s.Asked r x 4) {status : Nat} (hst : status < 16) (detail : Nat) :
    s.Answered (s.rteAns r status detail) r (r.outH + status * 2 ^ 20 + detail % 256 * 2 ^ 24) := by
  have hlt := r.outH_lt
  exact State.answered_of_asked h (by omega) []

/-- A status that is not counted is answered alone. -/
theorem State.rteAns_ends {s : State} {r : Req} {x : Wagon} (h : s.Asked r x 4) {status : Nat} (hst : status < 16) (detail : Nat) :
    let t := s.rteAns r status detail
    t.yard.reqs = [] ∧ (t.wag r.wid).map (fun y => y.cpl.getD r.slot 0) = some (r.outH + status * 2 ^ 20 + detail % 256 * 2 ^ 24)
      ∧ s.keeps t [] ∧ t.mem = s.mem := by
  have hans := State.rteAns_answered h hst detail
  exact ⟨hans.reqs, hans.value, State.keeps_congr hans.regs hans.nv (s.keeps_refl _), hans.mem⟩

theorem State.rteFail_ends_alone {s : State} {r : Req} {x : Wagon} (h : s.Asked r x 4) {status : Nat} (hst : status < 16)
    (hcnt : rteCntOf status = none) :
    let t := s.rteFail r status
    t.yard.reqs = [] ∧ (t.wag r.wid).map (fun y => y.cpl.getD r.slot 0) = some (r.outH + status * 2 ^ 20) ∧ s.keeps t [] ∧ t.mem = s.mem := by
  have hends := State.rteAns_ends h hst 0
  rw [Nat.zero_mod, Nat.zero_mul, Nat.add_zero] at hends
  rw [State.rteFail, hcnt]
  exact hends

/-- A status that is counted is answered, with its counter and its event. -/
theorem State.rteFail_ends {s : State} {r : Req} {x : Wagon} (h : s.Asked r x 4) {status n : Nat} (hst : status < 16)
    (hcnt : rteCntOf status = some n) :
    let t := s.rteFail r status
    t.yard.reqs = [] ∧ (t.wag r.wid).map (fun y => y.cpl.getD r.slot 0) = some (r.outH + status * 2 ^ 20)
      ∧ s.keeps t [mkF W.RTE (0x180 + 4 * n) 0 31 0, mkF W.RTE (0x180 + 4 * n) 31 1 0, F.EV_RAW W.RTE E.RTE_CNTSAT] ∧ t.mem = s.mem := by
  have hregs : s.RegsOnly (s.rteCnt n) := s.bump_regsOnly _ _ _
  have hkeep : s.keeps (s.rteCnt n) [mkF W.RTE (0x180 + 4 * n) 0 31 0, mkF W.RTE (0x180 + 4 * n) 31 1 0, F.EV_RAW W.RTE E.RTE_CNTSAT] :=
    State.keeps_bump (by simp) (by simp) (by simp) (s.keeps_refl _)
  have hans := State.rteAns_answered (h.of_eq hregs.yard hregs.ram) hst 0
  rw [Nat.zero_mod, Nat.zero_mul, Nat.add_zero] at hans
  rw [State.rteFail, hcnt]
  exact ⟨hans.reqs, hans.value, State.keeps_congr hans.regs hans.nv hkeep, hans.mem.trans hregs.mem⟩

/-- Octets written in a frame buffer read back, with the first word of its header written after them. -/
theorem State.peeks_pokeOut {s : State} (hue : s.ram.ue = []) {h ofs : Nat} {l : List Byte} (hh : h < 2 ^ 20) (hfit : ofs + l.length ≤ s.outCap h)
    (v : Nat) : ((s.pokeData h ofs l).pokeHdr h 0 [v]).peeks (handleAddr h + 64 + ofs) l.length = l := by
  have haddr := handleAddr_lt hh
  have hcap := s.outCap_le h
  have hdata : s.pokeData h ofs l = s.withOctets (handleAddr h + 64 + ofs) l := State.poke_of_good hue (by omega) l
  have hue' : (s.withOctets (handleAddr h + 64 + ofs) l).ram.ue = [] := hue
  rw [State.pokeHdr_first, hdata, State.poke_of_good hue' (by omega)]
  have hout : ((s.withOctets (handleAddr h + 64 + ofs) l).withOctets (handleAddr h) (toLE 4 v)).peeks (handleAddr h + 64 + ofs) l.length
      = (s.withOctets (handleAddr h + 64 + ofs) l).peeks (handleAddr h + 64 + ofs) l.length :=
    State.peeks_congr fun i _ => State.peek_withOctets_out _ (by rw [length_toLE]; omega)
  rw [hout]
  simpa using s.peeks_withOctets (handleAddr h + 64 + ofs) (l := l) (i := 0) (n := l.length) (by omega)

/-- A result that OUT holds is there, and the request is answered OK. -/
theorem State.rteOut_ends {s : State} {r : Req} {x : Wagon} (h : s.Asked r x 4) {l : List Byte} (hfit : r.outofs + l.length ≤ s.outCap r.outH) :
    let t := s.rteOut r l
    t.yard.reqs = [] ∧ (t.wag r.wid).map (fun y => y.cpl.getD r.slot 0) = some (r.outH + 0 * 2 ^ 20)
      ∧ t.peeks (handleAddr r.outH + 64 + r.outofs) l.length = l ∧ s.keeps t []
      ∧ s.memBut t [(handleAddr r.outH, 64 + s.outCap r.outH)] := by
  have hsmall : ¬ s.outCap r.outH < r.outofs + l.length := by omega
  simp only [State.rteOut, hsmall, if_false]
  generalize State.hdrW _ r.outH 0 - _ + _ = v
  have hwrote := State.wrote_pokeOut h.ue r.outH_lt hfit v
  have hback := State.peeks_pokeOut h.ue r.outH_lt hfit v
  generalize (s.pokeData r.outH r.outofs l).pokeHdr r.outH 0 [v] = t at hwrote hback
  have hans := State.rteAns_answered (hwrote.asked h) (status := 0) (by decide) 0
  rw [Nat.zero_mod, Nat.zero_mul, Nat.zero_mul, Nat.add_zero] at hans
  obtain ⟨hreqs, -, hval, hkeep, hbut⟩ := hwrote.answered hans
  refine ⟨hreqs, by rw [Nat.zero_mul]; exact hval, ?_, hkeep, hbut⟩
  rw [State.peeks_congr (s := t) fun i _ => by rw [State.peek, State.peek, hans.mem]]
  exact hback

/-! LOOKUP -/

section
variable {s : State} {r : Req} {p : Pkt}

theorem State.lookupOp_of_bad_header (hold : s.rte.old = none) (hlast : s.rte.lastT = none) (hp : pktOf (s.reqData r) = none) :
    s.lookupOp r = s.rteFail r 7 := by
  simp only [State.lookupOp, State.rteSet_of_settled hold hlast, hp]

/-- The answer for a packet whose destination is a host entry of a node. -/
def nodeWords (p : Pkt) (l : List Nat) : List Nat :=
  [2 ^ 15 + (if p.v4 then 32 else 128) * 2 ^ 16, bitsOf (l.getD 6 0) 17 12 * 2 ^ 16, 2, l.getD 5 0 % 2 ^ 18, bitsOf (l.getD 6 0) 17 12 * 2 ^ 16, 0, 0,
   l.getD 6 0 % 2 ^ 17 + 2 ^ 17]

theorem length_flatMap_toLE (l : List Nat) : (l.flatMap fun q => toLE 4 q).length = 4 * l.length := by
  induction l with
  | nil => rfl
  | cons a l ih =>
    rw [List.flatMap_cons, List.length_append, ih, length_toLE, List.length_cons]
    omega

theorem State.lookupOp_of_node {l : List Nat} (hold : s.rte.old = none) (hlast : s.rte.lastT = none) (hp : pktOf (s.reqData r) = some p)
    (hvid : s.vidOf r = none) (hacl : s.get F.RTE_CFG_ACLCOUNT = 0) (hdef : s.get F.RTE_CFG_ACLDEF = 0)
    (hhost : hostOf s.rte.tabs p.v4 (ofBE p.dst) = some l) (hnode : bitOf (l.getD 4 0) 2 = true) (hhop : 2 ≤ p.hop) :
    s.lookupOp r = s.rteOut r ((nodeWords p l).flatMap fun q => toLE 4 q) := by
  have hlive : ¬ p.hop ≤ 1 := by omega
  have hbit : bitOf (l[4]?.getD 0) 2 = true := by rw [← List.getD_eq_getElem?_getD, hnode]
  simp only [State.lookupOp, State.rteSet_of_settled hold hlast, hp, hvid, hacl, hdef, hhost, hlive]
  simp [nodeWords, b2n, hbit]

theorem State.lookupOp_of_no_route (hold : s.rte.old = none) (hlast : s.rte.lastT = none) (hp : pktOf (s.reqData r) = some p)
    (hvid : s.vidOf r = none) (hacl : s.get F.RTE_CFG_ACLCOUNT = 0) (hdef : s.get F.RTE_CFG_ACLDEF = 0)
    (hhost : hostOf s.rte.tabs p.v4 (ofBE p.dst) = none) (hlpm : lpm s.rte.tabs p.v4 (ofBE p.dst) = none) :
    s.lookupOp r = s.rteFail r 1 := by
  simp only [State.lookupOp, State.rteSet_of_settled hold hlast, hp, hvid, hacl, hdef, hhost, hlpm]
  simp

/-! The 6LoWPAN unit -/

/-- A packet under the uncompressed dispatch is copied. -/
theorem State.decompOp_of_plain (hold : s.rte.old = none) (hlast : s.rte.lastT = none) (hdisp : (s.reqData r).headD 0 = 0x41) :
    s.decompOp r = s.rteOut r ((s.reqData r).drop 1) := by
  have hoct : ((s.reqData r).headD 0).toNat = 0x41 := by rw [hdisp]; rfl
  simp only [State.decompOp, State.rteSet_of_settled hold hlast, hoct, sixOpen]
  rfl

theorem pktOf_of_short {l : List Byte} (h : l.length < 40) {p : Pkt} (hp : pktOf l = some p) : p.v4 = true := by
  unfold pktOf at hp
  simp only [h, decide_true, Bool.true_or, if_true] at hp
  split at hp
  · cases hp
  · split at hp
    · split at hp
      · cases hp
      · rw [← Option.some.inj hp]
    · cases hp

theorem State.compWhat_of_short {t : KMap (KMap (List Nat))} (h : (s.reqData r).length < 40) : s.compWhat t r = .inl 7 := by
  rcases hp : pktOf (s.reqData r) with _ | p
  · simp only [State.compWhat, hp]
  · simp only [State.compWhat, hp, pktOf_of_short h hp, if_true]

/-- The headers of a packet compressed for the Tile of a request, and the octets they stand for. -/
def State.sealed (s : State) (r : Req) (l : List Byte) : List Byte × Nat :=
  iphcSeal (rteCtx s.rte.tabs r.tile true) (mac154 (s.peeks (handleAddr r.outH + 64) r.outofs)) l

theorem State.compWhat_of_packet (hp : pktOf (s.reqData r) = some p) (h4 : p.v4 = false) (htot : p.total ≤ 2047) {l : List Byte}
    (hl : l = (s.reqData r).take p.total) :
    s.compWhat s.rte.tabs r = .inr (l, (s.sealed r l).1, (s.sealed r l).2, s.mtu r.tile) := by
  have hbig : ¬ 2047 < p.total := by omega
  simp only [State.compWhat, hp, h4, hbig, State.sealed, hl]
  rfl

theorem State.compOp_of_bad (hold : s.rte.old = none) (hlast : s.rte.lastT = none) {st : Nat} (h : s.compWhat s.rte.tabs r = .inl st) :
    s.compOp r = s.rteFail r st := by
  simp only [State.compOp, State.rteSet_of_settled hold hlast, h]

theorem State.compOp_of_packet (hold : s.rte.old = none) (hlast : s.rte.lastT = none) {l h : List Byte} {k mtu : Nat}
    (hw : s.compWhat s.rte.tabs r = .inr (l, h, k, mtu)) :
    s.compOp r = if (h ++ l.drop k).length ≤ mtu then s.rteOut r (h ++ l.drop k)
      else if cuts mtu h.length k l.length then s.rteAns r 9 (fragCount mtu h.length k l.length) else s.rteFail r 8 := by
  simp only [State.compOp, State.rteSet_of_settled hold hlast, hw]

/-- The first fragment of a packet: its dispatch, size and tag, the headers and what they leave of it. -/
def firstFrag (tag : Nat) (l h : List Byte) (k a : Nat) : List Byte := toBE 2 (0xC000 + l.length) ++ toBE 2 tag ++ h ++ (l.take a).drop k

theorem length_firstFrag (tag : Nat) (l h : List Byte) {k a : Nat} (ha : a ≤ l.length) :
    (firstFrag tag l h k a).length = 4 + h.length + (a - k) := by
  simp only [firstFrag, toBE, List.length_append, List.length_reverse, length_toLE, List.length_drop, List.length_take, Nat.min_eq_left ha]

theorem State.fragOp_of_first (hold : s.rte.old = none) (hlast : s.rte.lastT = none) {l h : List Byte} {k mtu : Nat}
    (hw : s.compWhat s.rte.tabs r = .inr (l, h, k, mtu)) (hcuts : cuts mtu h.length k l.length = true) (hk : r.fragk = 0) :
    s.fragOp r = s.rteOut r (firstFrag r.tag l h k (frag0 mtu h.length k)) := by
  simp only [State.fragOp, State.rteSet_of_settled hold hlast, hw, hcuts, hk]
  rfl

/-! SRHINS -/

/-- A destination one hop down takes no routing header. -/
theorem State.srhOp_of_child (hold : s.rte.old = none) (hlast : s.rte.lastT = none) (hlen : 40 ≤ (s.reqData r).length)
    (hv6 : ((s.reqData r).headD 0).toNat / 16 = 6) {l : List Nat}
    (hhost : hostOf s.rte.tabs false (ofBE (((s.reqData r).drop 24).take 16)) = some l) (hroute : bitOf (l.getD 6 0) 16 = true)
    (hone : ((rteEnt s.rte.tabs 6 (l.getD 6 0 % 2 ^ 16)).getD []).getD 0 0 % 8 = 1) : s.srhOp r = s.rteOut r (s.reqData r) := by
  have hlong : ¬ (s.reqData r).length < 40 := by omega
  simp only [State.srhOp, State.rteSet_of_settled hold hlast, hv6, hlong, hhost, hroute, hone]
  rfl

theorem State.srhOp_of_no_host (hold : s.rte.old = none) (hlast : s.rte.lastT = none) (hlen : 40 ≤ (s.reqData r).length)
    (hv6 : ((s.reqData r).headD 0).toNat / 16 = 6)
    (hhost : hostOf s.rte.tabs false (ofBE (((s.reqData r).drop 24).take 16)) = none) : s.srhOp r = s.rteFail r 13 := by
  have hlong : ¬ (s.reqData r).length < 40 := by omega
  simp only [State.srhOp, State.rteSet_of_settled hold hlast, hv6, hlong, hhost]
  rfl

end

/-- A reassembly older than the limit goes. -/
theorem State.reasmExpire_ends {s : State} {n : Nat} {x : Reasm} (hx : s.rte.reasm[n]? = some x)
    (hold : x.since + max 1 (s.get F.RTE_REASM_TIMEOUT) * 1000000000 < s.ns) :
    completes (.reasmExpire n) s fun t => t = ((s.setRte { s.rte with reasm := s.rte.reasm.erase x }).rteCnt 8).raise W.RTE E.RTE_REASMEXP := by
  refine ⟨_, rfl, ?_⟩
  simp only [hx, hold, if_true]

/-- Settles O45: the answer is the coupling that the request's wagon waits for. -/
theorem rteAnswers : Obligations.RteAnswers := by
  unfold Obligations.RteAnswers
  refine ⟨fun s r x p l hon hreqs hsec hop hin hout hlen hlate hue hold hlast hwag hst hslot hdecl harr hty hcpl hp hvid hacl hdef hhost hnode hhop hfit => ⟨_, rfl, ?_⟩,
    fun s r x p hon hreqs hsec hop hin hout hlen hlate hue hold hlast hwag hst hslot hdecl harr hty hcpl hp hvid hacl hdef hhost hlpm => ⟨_, rfl, ?_⟩,
    fun s r x hon hreqs hsec hop hin hout hlen hlate hue hold hlast hwag hst hslot hdecl harr hty hcpl hp => ⟨_, rfl, ?_⟩,
    fun s r x hon hreqs hsec hop hin hout hlen hlate hue hold hlast hwag hst hslot hdecl harr hty hcpl hdisp hfit => ⟨_, rfl, ?_⟩,
    fun s r x hon hreqs hsec hop hin hout hlen hlate hue hold hlast hwag hst hslot hdecl harr hty hcpl hshort => ⟨_, rfl, ?_⟩,
    fun s r x p l c hon hreqs hsec hop hin hout hlen hlate hue hold hlast hwag hst hslot hdecl harr hty hcpl hp h4 htot hl hc hmtu hfit => ⟨_, rfl, ?_⟩,
    fun s r x p l c hon hreqs hsec hop hin hout hlen hlate hue hold hlast hwag hst hslot hdecl harr hty hcpl hp h4 htot hl hc hmtu hcuts => ⟨_, rfl, ?_⟩,
    fun s r x p l c hon hreqs hsec hop hin hout hlen hlate hue hold hlast hwag hst hslot hdecl harr hty hcpl hp h4 htot hl hc hcuts hfrag hfit ha => ⟨_, rfl, ?_⟩,
    fun s r x l hon hreqs hsec hop hin hout hlen hlate hue hold hlast hwag hst hslot hdecl harr hty hcpl h40 hv6 hhost hroute hone hfit => ⟨_, rfl, ?_⟩,
    fun s r x hon hreqs hsec hop hin hout hlen hlate hue hold hlast hwag hst hslot hdecl harr hty hcpl h40 hv6 hhost => ⟨_, rfl, ?_⟩,
    fun s n x hx hexp => ?_⟩
  case refine_11 =>
    obtain ⟨t, ht, rfl⟩ := State.reasmExpire_ends hx hexp
    refine ⟨_, ht, ?_, State.ev_raise _ _ _, ?_, ?_⟩
    · rw [State.raise_rte, State.rteCnt, (State.bump_regsOnly _ _ _ _).rte]
      rfl
    · exact State.keeps_raise (by simp) (State.keeps_bump (by simp) (by simp) (by simp) (State.keeps_congr rfl rfl (s.keeps_refl _)))
    · rw [State.raise_mem, State.rteCnt, (State.bump_regsOnly _ _ _ _).mem]
      rfl
  all_goals
    dsimp only
    have hasked : s.Asked r x 4 := ⟨hreqs, hlate, hue, hwag, hst, hslot, hdecl, harr, hty, hcpl⟩
    rw [State.rteRun_of_good _ hon hreqs hsec hop hin hout hlen]
  · rw [State.lookupOp_of_node hold hlast hp hvid hacl hdef hhost hnode hhop]
    exact State.rteOut_ends hasked (by rw [length_flatMap_toLE]; exact hfit)
  · rw [State.lookupOp_of_no_route hold hlast hp hvid hacl hdef hhost hlpm]
    exact State.rteFail_ends hasked (by decide) rfl
  · rw [State.lookupOp_of_bad_header hold hlast hp]
    exact State.rteFail_ends hasked (by decide) rfl
  · have hlen1 : ((s.reqData r).drop 1).length = r.inlen - 1 := by rw [List.length_drop, State.reqData, length_peeks]
    have hpos : 1 ≤ r.inlen := by
      by_contra hzero
      have hnil : s.reqData r = [] := List.eq_nil_of_length_eq_zero (by rw [State.reqData, length_peeks]; omega)
      rw [hnil] at hdisp
      exact absurd hdisp (by decide)
    rw [State.decompOp_of_plain hold hlast hdisp, ← hlen1]
    exact State.rteOut_ends hasked (by rw [hlen1]; omega)
  · rw [State.compOp_of_bad hold hlast (State.compWhat_of_short hshort)]
    exact State.rteFail_ends hasked (by decide) rfl
  · obtain rfl : c = s.sealed r l := hc
    have hwhole : ((s.sealed r l).1 ++ l.drop (s.sealed r l).2).length = (s.sealed r l).1.length + (l.length - (s.sealed r l).2) := by simp
    rw [State.compOp_of_packet hold hlast (State.compWhat_of_packet hp h4 htot hl), if_pos (by rw [hwhole]; exact hmtu)]
    have hends := State.rteOut_ends hasked (l := (s.sealed r l).1 ++ l.drop (s.sealed r l).2) (by rw [hwhole, ← Nat.add_assoc]; exact hfit)
    rw [hwhole] at hends
    exact hends
  · obtain rfl : c = s.sealed r l := hc
    have hwhole : ((s.sealed r l).1 ++ l.drop (s.sealed r l).2).length = (s.sealed r l).1.length + (l.length - (s.sealed r l).2) := by simp
    rw [State.compOp_of_packet hold hlast (State.compWhat_of_packet hp h4 htot hl), if_neg (by rw [hwhole]; exact Nat.not_le_of_lt hmtu),
      if_pos hcuts]
    exact State.rteAns_ends hasked (by decide) _
  · obtain rfl : c = s.sealed r l := hc
    have hfirst := length_firstFrag r.tag l (s.sealed r l).1 (k := (s.sealed r l).2) ha
    rw [State.fragOp_of_first hold hlast (State.compWhat_of_packet hp h4 htot hl) hcuts hfrag]
    have hends := State.rteOut_ends hasked (l := firstFrag r.tag l (s.sealed r l).1 (s.sealed r l).2
      (frag0 (s.mtu r.tile) (s.sealed r l).1.length (s.sealed r l).2)) (by rw [hfirst, ← Nat.add_assoc, ← Nat.add_assoc]; exact hfit)
    rw [hfirst] at hends
    exact hends
  · rw [State.srhOp_of_child hold hlast h40 hv6 hhost hroute hone]
    obtain ⟨hend, hval, -, hkeep, hbut⟩ := State.rteOut_ends hasked (l := s.reqData r) (by rw [State.reqData, length_peeks]; exact hfit)
    exact ⟨hend, hval, hkeep, hbut⟩
  · rw [State.srhOp_of_no_host hold hlast h40 hv6 hhost]
    exact State.rteFail_ends_alone hasked (by decide) rfl

end Sys2Proof.Machine
end


section
/-!
A refutation by a concrete state: an attempt fails while a Tile's checks pass, and its record's upset memory names a ledger page far away.
-/

namespace Sys2Proof.Machine

/-- A frame of node 0 that has been retried to the end. -/
def lostFrame : QEnt :=
  { out := { handle := 7, dest := 2, queue := 0, launch := 0, timed := false, compl := false, keep := true, ctrain := 0 }, miss := false, since := 0,
    retries := 100, rec' := none, promo := false }

/-- The hopping sequence of Tile 5 on the channels 3 and 7 of a band about 868 MHz, which its checks pass. -/
def hopRegs : List (Fld × Nat) :=
  ((List.range 16).flatMap fun j => [(F.MLC_HOP_EVEN 5 j, 3), (F.MLC_HOP_ODD 5 j, 7)]) ++ [(F.MLC_TILE_CH0_CH0 5, 868000)]

/-- Tile 5 follows a neighbour and its checks pass. The frame's node record lies at address 0, whose word is upset, and the ledger's entry of
that page is listed twice, under the number whose register is at the address of the Tile's CTRL. -/
def farPageState : State :=
  let s := (({ State.reset with env := { State.reset.env with phase := .software } }).sets (hopRegs ++
    [(F.CTRL_ENABLE W.MLC, 1), (F.MLC_TILE_CTL_EN 5, 1), (F.MLC_TILE_CTL_FOLLOW 5, 1), (F.MNODE_TBL0HI_ADDR, 0)])).setTile 5 { tile0 with chk := 1 }
  { s with
    mlc := { s.mlc with tries :=
      [{ tile := 5, what := 0, q := some lostFrame, id := 1, stamp := 0, lis := some 0, seq := none, own := none }] },
    mn := { s.mn with q := [(0, [lostFrame])] }, ram := { s.ram with ue := [0] }, flt := { s.flt with pages := [(295104, 1), (295104, 0)] } }

/-- Refutes O30: with attempts in progress, what else fails at the checks can clear the Tile's EN. -/
theorem not_tilesAndSlots : ¬ Obligations.TilesAndSlots := by
  unfold Obligations.TilesAndSlots
  rintro ⟨-, -, -, -, -, hfollow, -⟩
  have h := (hfollow farPageState 5 (by decide) (by decide) (by decide) (by decide) (by decide)).of_exec rfl
  obtain ⟨-, hen, -⟩ := h
  exact absurd hen (by decide +kernel)

end Sys2Proof.Machine
end


section
/-!
What a domain that leaves or comes on does not touch: the module's phase and supply, the power manager, and the registers of the start, the
change in progress and the baseplate's thresholds. One lemma per operation, in the order of the definitions.
-/

namespace Sys2Proof.Machine

/-! The relation -/

/-- The registers of the start's cause, the change in progress and the baseplate's thresholds. -/
def steadyRegs : List Fld := [F.SYS_START_CAUSE, F.PWR_STATUS_CHANGING, F.PINS_BASETEMP_WARN, F.PINS_BASETEMP_HOLD]

/-- The phase, the supply, the power manager, the entries of the harts, the regulatory image, the settings store, the keys and those registers
are in t as in s, and THERM_HOLD stays raised. -/
structure State.Steady (s t : State) : Prop where
  phase : t.env.phase = s.env.phase
  path : t.env.path = s.env.path
  cut : t.env.cut = s.env.cut
  timer : t.env.timer = s.env.timer
  pwr : t.pwr = s.pwr
  entry : t.apc.entry = s.apc.entry
  img : t.lim.img = s.lim.img
  nvs : t.nvs = s.nvs
  keys : t.keys = s.keys
  regs : ∀ f ∈ steadyRegs, t.get f = s.get f
  held : s.ev W.PINS E.PINS_THERM_HOLD = true → t.ev W.PINS E.PINS_THERM_HOLD = true

theorem State.Steady.refl (s : State) : s.Steady s := ⟨rfl, rfl, rfl, rfl, rfl, rfl, rfl, rfl, rfl, fun _ _ => rfl, id⟩

theorem State.Steady.trans {s t u : State} (h : s.Steady t) (g : t.Steady u) : s.Steady u :=
  ⟨g.phase.trans h.phase, g.path.trans h.path, g.cut.trans h.cut, g.timer.trans h.timer, g.pwr.trans h.pwr, g.entry.trans h.entry,
    g.img.trans h.img, g.nvs.trans h.nvs, g.keys.trans h.keys, fun f hf => (g.regs f hf).trans (h.regs f hf),
    fun he => g.held (h.held he)⟩

/-- What the relation reads of a state. -/
def State.steadyPart (s : State) : List (Nat × Nat) × KMap Nat × EnvS × PwrS × List Nat × Option RegImage × NvsS × KMap KeyS :=
  (s.regs, s.nv, s.env, s.pwr, s.apc.entry, s.lim.img, s.nvs, s.keys)

/-- A record of which the relation reads nothing changes. -/
theorem State.Steady.of_eq {s t : State} (h : t.steadyPart = s.steadyPart) : s.Steady t := by
  simp only [State.steadyPart, Prod.mk.injEq] at h
  obtain ⟨hregs, hnv, henv, hpwr, hentry, himg, hnvs, hkeys⟩ := h
  refine ⟨by rw [henv], by rw [henv], by rw [henv], by rw [henv], hpwr, hentry, himg, hnvs, hkeys, fun f _ => State.get_congr hregs hnv f, fun he => ?_⟩
  rw [State.ev, State.on, State.get_congr hregs hnv]
  exact he

/-- The same, before an operation. -/
theorem State.Steady.of_start {s t u : State} (h : t.Steady u) (heq : t.steadyPart = s.steadyPart) : s.Steady u :=
  (State.Steady.of_eq heq).trans h

theorem State.Steady.foldl {α : Type} {f : State → α → State} {l : List α} (h : ∀ (t : State) (a : α), a ∈ l → t.Steady (f t a)) (s : State) : s.Steady (l.foldl f s) :=
  List.foldlRecOn (motive := fun t => s.Steady t) l f (.refl s) fun t ht a ha => ht.trans (h t a ha)

theorem State.Steady.ite {s t u : State} {c : Prop} [Decidable c] (h : s.Steady t) (g : s.Steady u) : s.Steady (if c then t else u) := by
  split
  · exact h
  · exact g

/-- A field that is at the place of none of them, nor at THERM_HOLD's. -/
def Fld.Far (f : Fld) : Prop := ∀ g ∈ F.EV_RAW W.PINS E.PINS_THERM_HOLD :: steadyRegs, g.key ≠ f.key

theorem far_mkF {w off lo len rst : Nat} (hw : 2 ≤ w) (hlo : lo < 32)
    (h : off < 65536 ∧ off ≠ 0x10 ∧ off ≠ 0x44 ∨ lo ≠ 5 ∧ lo ≠ 16 ∧ lo ≠ 17) : (mkF w off lo len rst).Far := by
  intro g hg
  simp only [steadyRegs, List.mem_cons, List.not_mem_nil, or_false] at hg
  obtain rfl | rfl | rfl | rfl | rfl := hg <;>
    simp only [F.EV_RAW, F.SYS_START_CAUSE, F.PWR_STATUS_CHANGING, F.PINS_BASETEMP_WARN, F.PINS_BASETEMP_HOLD, W.PINS, E.PINS_THERM_HOLD, mkF] <;>
    omega

theorem Fld.Far.steady {f g : Fld} (h : f.Far) (hg : g ∈ steadyRegs) : g.key ≠ f.key := h g (List.mem_cons_of_mem _ hg)

theorem State.set_steady (s : State) {f : Fld} (v : Nat) (h : f.Far) : s.Steady (s.set f v) :=
  ⟨rfl, rfl, rfl, rfl, rfl, rfl, rfl, rfl, rfl, fun _ hg => State.get_set_ne s v (h.steady hg), fun he => by
    rw [State.ev, State.on, State.get_set_ne s v (h _ List.mem_cons_self)]
    exact he⟩

theorem State.sets_steady (s : State) {l : List (Fld × Nat)} (h : ∀ e ∈ l, e.1.Far) : s.Steady (s.sets l) :=
  .foldl (fun t e he => t.set_steady e.2 (h e he)) s

theorem State.raise_entry (s : State) (w b : Nat) : (s.raise w b).apc.entry = s.apc.entry := by
  unfold State.raise State.plicSample
  split <;> rfl

/-- No event is one of the registers; THERM_HOLD is only ever raised. -/
theorem State.raise_steady (s : State) (w : Nat) {b : Nat} (hb : b < 32) : s.Steady (s.raise w b) := by
  have hregs := s.raise_regsOnly w b
  refine ⟨by rw [hregs.env], by rw [hregs.env], by rw [hregs.env], by rw [hregs.env], hregs.pwr, s.raise_entry w b, ?_, hregs.nvs, ?_, fun g hg => ?_, fun he => ?_⟩
  · obtain ⟨_, _, heq⟩ := hregs
    rw [heq]
  · obtain ⟨_, _, heq⟩ := hregs
    rw [heq]
  · refine State.get_raise_ne s w b ?_
    simp only [steadyRegs, List.mem_cons, List.not_mem_nil, or_false] at hg
    obtain rfl | rfl | rfl | rfl := hg <;>
      simp only [F.EV_RAW, F.SYS_START_CAUSE, F.PWR_STATUS_CHANGING, F.PINS_BASETEMP_WARN, F.PINS_BASETEMP_HOLD, mkF] <;> omega
  · by_cases hk : (F.EV_RAW W.PINS E.PINS_THERM_HOLD).key = (F.EV_RAW w b).key
    · have hsame := s.ev_raise w b
      rw [State.ev, State.on, State.get, State.base, ← hk] at hsame
      exact hsame
    · rw [State.ev, State.on, State.get_raise_ne s w b hk]
      exact he

theorem State.raiseIf_steady (s : State) (c : Bool) (w : Nat) {b : Nat} (hb : b < 32) : s.Steady (s.raiseIf c w b) :=
  .ite (s.raise_steady w hb) (.refl s)

theorem State.satAdd_steady (s : State) {cnt ovf : Fld} (w : Nat) {ev : Nat} (n : Nat) (hcnt : cnt.Far) (hovf : ovf.Far) (hev : ev < 32) :
    s.Steady (s.satAdd cnt ovf w ev n) :=
  .ite (s.set_steady _ hcnt) (.ite (.refl s) (((s.set_steady _ hcnt).trans (State.set_steady _ _ hovf)).trans (State.raise_steady _ _ hev)))

theorem State.bump_steady (s : State) {w : Nat} (off : Nat) {ev : Nat} (hw : 2 ≤ w) (hev : ev < 32) : s.Steady (s.bump w off ev) :=
  s.satAdd_steady w 1 (far_mkF hw (by decide) (.inr (by decide))) (far_mkF hw (by decide) (.inr (by decide))) hev

/-! Operations, counters and the ledger -/

theorem State.opFinish_steady (s : State) {w : Nat} (st cause : Nat) (hw : 2 ≤ w) : s.Steady (s.opFinish w st cause) :=
  ((s.set_steady st (far_mkF hw (by decide) (.inl (by decide)))).trans
    (State.set_steady _ cause (far_mkF hw (by decide) (.inl (by decide))))).trans (State.raise_steady _ _ (by decide))

theorem State.opKill_steady (s : State) {w : Nat} (hw : 2 ≤ w) : s.Steady (s.opKill w) := .ite (s.opFinish_steady _ _ hw) (.refl s)

theorem State.fltCnt_steady (s : State) (n : Nat) : s.Steady (s.fltCnt n) := s.bump_steady _ (by decide) (by decide)
theorem State.yardCnt_steady (s : State) (n : Nat) : s.Steady (s.yardCnt n) := s.bump_steady _ (by decide) (by decide)
theorem State.mphyCnt_steady (s : State) (n : Nat) : s.Steady (s.mphyCnt n) := s.bump_steady _ (by decide) (by decide)
theorem State.mnCnt_steady (s : State) (n : Nat) : s.Steady (s.mnCnt n) := s.bump_steady _ (by decide) (by decide)
theorem State.mlcCnt_steady (s : State) (n : Nat) : s.Steady (s.mlcCnt n) := s.bump_steady _ (by decide) (by decide)
theorem State.mldCnt_steady (s : State) (n : Nat) : s.Steady (s.mldCnt n) := s.bump_steady _ (by decide) (by decide)
theorem State.wphyCnt_steady (s : State) (r n : Nat) : s.Steady (s.wphyCnt r n) := s.bump_steady _ (Nat.le_add_right_of_le (by decide)) (by decide)
theorem State.shpCnt_steady (s : State) (n k : Nat) : s.Steady (s.shpCnt n k) := s.bump_steady _ (Nat.le_add_right_of_le (by decide)) (by decide)
theorem State.emacCnt_steady (s : State) (n k : Nat) : s.Steady (s.emacCnt n k) := s.bump_steady _ (Nat.le_add_right_of_le (by decide)) (by decide)

theorem State.fltLast_steady (s : State) (code : Nat) (hard lasting : Bool) : s.Steady (s.fltLast code hard lasting) :=
  s.sets_steady (by
    simp only [List.forall_mem_cons, List.not_mem_nil, false_imp_iff, implies_true, and_true]
    refine ⟨?_, ?_, ?_, ?_, ?_⟩ <;> exact far_mkF (by decide) (by decide) (.inl (by decide)))

theorem far_page {n lo len rst : Nat} (hlo : lo = 0 ∨ lo = 30 ∨ lo = 31) : (mkF 0x03 (0x80 + 4 * n) lo len rst).Far :=
  far_mkF (by decide) (by omega) (.inr (by omega))

theorem State.fltTake_steady (s : State) (code : Nat) (hard : Bool) : s.Steady (s.fltTake code hard) := by
  have hlast (l : Ledger) (b : Bool) : s.Steady ((s.setLedger code l).fltLast code hard b) :=
    .of_start (State.fltLast_steady _ _ _ _) rfl
  have hnote (l : Ledger) (b : Bool) (n : Nat) {ev : Nat} (hev : ev < 32) : s.Steady ((((s.setLedger code l).fltLast code hard b).fltCnt n).raise W.FLT ev) :=
    ((hlast l b).trans (State.fltCnt_steady _ _)).trans (State.raise_steady _ _ hev)
  refine .ite (hlast _ _) (.ite (.ite ?_ (hnote _ _ _ (by decide))) (hnote _ _ _ (by decide)))
  exact (hnote _ _ _ (by decide)).trans (State.set_steady _ _ (far_page (by decide)))

theorem State.fltEvent_steady (s : State) (code page : Nat) (hard : Bool) : s.Steady (s.fltEvent code page hard) := by
  refine .ite ?_ (.ite (s.fltTake_steady _ _) (.refl s))
  split
  · exact (s.fltCnt_steady _).trans (State.raise_steady _ _ (by decide))
  next n _ =>
    refine .ite (s.fltTake_steady _ _) (.trans (.trans ?_ (State.sets_steady _ ?_)) (State.fltTake_steady _ _ _))
    · exact .of_eq rfl
    · simp only [List.forall_mem_cons, List.not_mem_nil, false_imp_iff, implies_true, and_true]
      exact ⟨far_page (.inl rfl), far_page (.inr (.inl rfl)), far_page (.inr (.inr rfl))⟩

/-! Memory -/

theorem State.ueReport_steady (s : State) (a : Nat) : s.Steady (s.ueReport a) := by
  unfold State.ueReport
  dsimp only
  refine .trans ?_ (State.fltEvent_steady _ _ _ _)
  refine .trans (((s.bump_steady _ (by decide) (by decide)).trans (State.bump_steady _ _ (by decide) (by decide))).trans
    (State.raise_steady _ _ (by decide))) (.ite (.refl _) (State.sets_steady _ ?_))
  simp only [List.forall_mem_cons, List.not_mem_nil, false_imp_iff, implies_true, and_true]
  refine ⟨?_, ?_, ?_⟩ <;> exact far_mkF (by decide) (by decide) (.inl (by decide))

theorem State.ueHit_steady (s : State) (a n : Nat) : s.Steady (s.ueHit a n) := by
  refine .foldl (fun t u _ => ?_) s
  exact .ite (.of_start (State.bump_steady _ _ (by decide) (by decide)) rfl) (t.ueReport_steady _)

theorem State.pokeOne_steady (s : State) (a : Nat) (l : List Byte) : s.Steady (s.pokeOne a l) :=
  .ite (.of_eq rfl) (.of_start (State.ueHit_steady _ _ _) rfl)

theorem State.poke_steady (s : State) (a : Nat) (l : List Byte) : s.Steady (s.poke a l) := by
  unfold State.poke
  split
  · exact ((s.ueHit_steady _ _).trans (State.pokeOne_steady _ _ _)).trans (State.pokeOne_steady _ _ _)
  · exact s.pokeOne_steady _ _

theorem State.bufRelease_steady (s : State) (h : Nat) : s.Steady (s.bufRelease h) := .ite (.of_eq rfl) (.of_eq rfl)

/-! The yard -/

theorem State.unresv_steady (s : State) (t : Nat) : s.Steady (s.unresv t) := .of_eq rfl

theorem State.makeReady_steady (s : State) (w : Nat) : s.Steady (s.makeReady w) := by
  unfold State.makeReady
  split
  · exact .refl s
  · exact .of_eq rfl

theorem State.settle_steady (s : State) (w : Nat) : s.Steady (s.settle w) := by
  unfold State.settle
  split
  · exact .refl s
  · exact .ite (s.makeReady_steady w) (.refl s)

theorem State.pick_steady (s : State) (p : Nat → Bool) (n lo : Nat) : s.Steady (s.pick p n lo).2 := by
  unfold State.pick
  dsimp only
  split <;> exact .of_eq rfl

theorem State.placeNew_steady (s : State) (x : Wagon) : s.Steady (s.placeNew x).2 := by
  have hwid : s.Steady s.freeWid.2 := s.pick_steady _ _ _
  unfold State.placeNew
  dsimp only
  split
  · exact hwid
  · exact hwid.trans (.of_start (State.settle_steady _ _) rfl)

theorem State.txDone_steady (s : State) (ctrain status : Nat) (stamp : Option Nat) (miss : Bool) (frame : Option Nat) :
    s.Steady (s.txDone ctrain status stamp miss frame) := by
  have hfull : s.Steady (if s.enabled 0x20 then s.yardFull else s) :=
    .ite ((s.yardCnt_steady _).trans (State.raise_steady _ _ (by decide))) (.refl s)
  refine .ite (s.placeNew_steady _) ?_
  split
  · exact hfull.trans (State.bufRelease_steady _ _)
  · exact hfull

theorem State.outDone_steady (s : State) (o : Out) (miss : Bool) (status : Nat) (stamp : Option Nat) : s.Steady (s.outDone o miss status stamp) := by
  have hbuf : s.Steady (if o.compl && o.keep then s else s.bufRelease o.handle) := .ite (.refl s) (s.bufRelease_steady _)
  exact .ite (hbuf.trans (State.txDone_steady _ _ _ _ _ _)) hbuf

theorem State.stray_steady (s : State) (ty v : Nat) : s.Steady (s.stray ty v) :=
  .trans (.trans (.ite (s.bufRelease_steady _) (.refl s)) (State.yardCnt_steady _ _)) (State.raise_steady _ _ (by decide))

theorem State.couple_steady (s : State) (w k ty v : Nat) (snap : List Byte) : s.Steady (s.couple w k ty v snap) := by
  unfold State.couple
  split
  · exact s.stray_steady _ _
  · exact .ite (.of_start (State.settle_steady _ _) rfl) (s.stray_steady _ _)

theorem State.engFree_steady (s : State) (e : Nat) : s.Steady (s.engFree e) := by
  unfold State.engFree
  dsimp only
  split
  · exact .refl s
  · exact .of_eq rfl

theorem State.wagFree_steady (s : State) (w : Nat) : s.Steady (s.wagFree w) := by
  unfold State.wagFree
  split
  · exact .refl s
  · exact .trans (.foldl (fun t h _ => t.bufRelease_steady h) s) (.of_eq rfl)

theorem State.unstage_steady (s : State) (w : Nat) : s.Steady (s.unstage w) := by
  unfold State.unstage
  split
  · exact .refl s
  · exact .trans (.foldl (fun t c _ => t.wagFree_steady c) s) (.of_eq rfl)

theorem State.engFail_steady (s : State) (e : Nat) (charge : Bool) : s.Steady (s.engFail e charge) := by
  unfold State.engFail
  split
  · exact .refl s
  next w _ =>
    have hready := ((s.engFree_steady e).trans (State.unstage_steady _ w)).trans (State.makeReady_steady _ w)
    exact .ite ((hready.trans (State.yardCnt_steady _ _)).trans (State.raise_steady _ _ (by decide))) hready

theorem State.coachStop_steady (s : State) (c : Nat) : s.Steady (s.coachStop c) := by
  have hfail : s.Steady ((List.range 8).foldl (fun t i => t.engFail (8 * c + i) true) s) := .foldl (fun t _ _ => t.engFail_steady _ _) s
  unfold State.coachStop
  generalize (List.range 8).foldl (fun t i => t.engFail (8 * c + i) true) s = t at hfail ⊢
  exact hfail.trans (.of_eq rfl)

theorem coach_far (c : Nat) : 2 ≤ W.ENG c := Nat.le_add_right_of_le (by decide)

theorem State.coachLeave_steady (s : State) (c : Nat) : s.Steady (s.coachLeave c) := by
  have hstop := (s.opKill_steady (coach_far c)).trans (State.coachStop_steady _ c)
  unfold State.coachLeave
  generalize (s.opKill (W.ENG c)).coachStop c = t at hstop ⊢
  exact hstop.trans (.of_eq rfl)

theorem State.coachCheck_steady (s : State) (c : Nat) : s.Steady (s.coachCheck c) := .ite (s.coachLeave_steady c) (.refl s)

theorem State.engFails_steady (s : State) (e : Nat) (charge : Bool) : s.Steady (s.engFails e charge) :=
  ((s.engFail_steady e charge).trans (State.raise_steady _ _ (by decide))).trans (State.coachCheck_steady _ _)

theorem State.drainEnd_steady (s : State) (c : Nat) : s.Steady (s.drainEnd c) :=
  .ite (.refl s) (.trans (.foldl (fun t _ _ => .ite (t.engFails_steady _ _) (.refl t)) s) (State.coachCheck_steady _ c))

end Sys2Proof.Machine
end


section
/-!
The same for the blocks of a domain: what each stops, loses and starts, R357 and R359.
-/

namespace Sys2Proof.Machine

/-! Paths, listeners and carriers -/

theorem State.setPath_steady (s : State) (r p : Nat) (x : PathS) : s.Steady (s.setPath r p x) := .of_eq rfl
theorem State.pathGo_steady (s : State) (r p goal : Nat) : s.Steady (s.pathGo r p goal) := .of_eq rfl
theorem State.pathOff_steady (s : State) (r p : Nat) : s.Steady ((s.pathCut r p 6).pathGo r p 0) := .of_eq rfl

theorem State.nocal_steady (s : State) (r : Nat) : s.Steady (s.nocal r) :=
  (s.satAdd_steady _ _ (far_mkF (Nat.le_add_right_of_le (by decide)) (by decide) (.inr (by decide)))
    (far_mkF (Nat.le_add_right_of_le (by decide)) (by decide) (.inr (by decide))) (by decide)).trans (State.raise_steady _ _ (by decide))

theorem far_pathstat {r p lo len rst : Nat} (hlo : lo < 16) (h5 : lo ≠ 5) : (mkF (0x10 + r) (0x50 + 4 * p) lo len rst).Far :=
  far_mkF (by omega) (by omega) (.inr (by omega))

theorem State.retune_steady (s : State) (r p port i tEnd : Nat) : s.Steady (s.retune r p port i tEnd) := by
  refine .ite ?_ (.refl s)
  exact (s.setPath_steady _ _ _).trans (State.set_steady _ _ (far_pathstat (by decide) (by decide)))

theorem State.rxEntry_steady (s : State) (r p freq width : Nat) : s.Steady (s.rxEntry r p freq width) := by
  unfold State.rxEntry
  split
  · exact s.nocal_steady r
  · exact .trans (.ite (s.retune_steady _ _ _ _ _) (.refl s)) (State.set_steady _ _ (far_pathstat (by decide) (by decide)))

theorem State.setLis_steady (s : State) (l : Nat) (x : Lis) : s.Steady (s.setLis l x) := .of_eq rfl

theorem State.lisReturn_steady (s : State) (l : Nat) : s.Steady (s.lisReturn l) := by
  unfold State.lisReturn
  split
  · exact .ite (s.setLis_steady _ _) (s.setLis_steady _ _)
  · exact s.setLis_steady _ _

theorem State.lisTell_steady (s : State) (l : Nat) (a : Asn) : s.Steady (s.lisTell l a) := .of_eq rfl

theorem State.lisBack_steady (s : State) (l : Nat) : s.Steady (s.lisBack l) := by
  unfold State.lisBack
  dsimp only
  split
  · exact s.lisReturn_steady l
  · refine .ite ?_ ?_
    · exact (((s.setLis_steady _ _).trans (State.mphyCnt_steady _ _)).trans (State.lisTell_steady _ _ _)).trans (State.lisReturn_steady _ _)
    · have hentry (x : Lis) (freq : Nat) : s.Steady ((s.setLis l x).rxEntry 3 (lisPath l) freq 0) :=
        (s.setLis_steady l x).trans (State.rxEntry_steady _ _ _ _ _)
      exact .ite ((hentry _ _).trans (State.setLis_steady _ _ _)) (hentry _ _)

theorem State.lisRelease_steady (s : State) (l : Nat) : s.Steady (s.lisRelease l) := by
  unfold State.lisRelease
  dsimp only
  split
  · exact .refl s
  · exact ((s.unresv_steady _).trans (State.bufRelease_steady _ _)).trans (State.setLis_steady _ _ _)

theorem State.lisDrop_steady (s : State) (l : Nat) : s.Steady (s.lisDrop l) := (s.lisRelease_steady l).trans (State.setLis_steady _ _ _)

theorem State.lisPower_steady (s : State) : s.Steady s.lisPower := .foldl (fun t _ _ => t.lisDrop_steady _) s

theorem State.blank_steady (s : State) (p : Nat) : s.Steady (s.blank p) :=
  .foldl (fun t _ _ => (((t.mphyCnt_steady _).trans (State.raise_steady _ _ (by decide))).trans (State.lisRelease_steady _ _)).trans
    (State.lisBack_steady _ _)) s

theorem State.limCut_steady (s : State) (id : Nat) : s.Steady (s.limCut id) := .of_eq rfl

theorem State.carrShow_steady (s : State) : s.Steady s.carrShow := by
  refine s.sets_steady ?_
  simp only [List.forall_mem_cons, List.not_mem_nil, false_imp_iff, implies_true, and_true]
  refine ⟨?_, ?_, ?_⟩ <;> exact far_mkF (by decide) (by decide) (.inl (by decide))

theorem State.carrDrop_steady (s : State) (id : Nat) : s.Steady (s.carrDrop id) := .of_start (State.carrShow_steady _) rfl

theorem State.carrStatus_steady (s : State) (st : Nat) : s.Steady (s.carrStatus st) :=
  .of_start (State.raiseIf_steady _ _ _ (by decide)) rfl

/-! The queues of the mesh -/

theorem State.setMn_steady (s : State) (m : MnodeS) : s.Steady (s.setMn m) := .of_eq rfl
theorem State.setMlc_steady (s : State) (m : MlcS) : s.Steady (s.setMlc m) := .of_eq rfl

theorem State.setRecF_steady (s : State) (i w lo len v : Nat) : s.Steady (s.setRecF i w lo len v) :=
  (s.poke_steady _ _).trans (State.poke_steady _ _ _)

theorem State.setMap_steady (s : State) (t a v : Nat) : s.Steady (s.setMap t a v) := s.poke_steady _ _

theorem State.recLose_steady (s : State) (i : Nat) : s.Steady (s.recLose i) := by
  unfold State.recLose
  dsimp only
  refine .trans (.trans ?_ (State.set_steady _ _ ?_)) (State.raise_steady _ _ (by decide))
  · exact (s.setMap_steady _ _ _).trans (State.setMn_steady _ _)
  · exact far_mkF (by decide) (by decide) (.inl (by decide))

theorem State.recLoad_steady (s : State) (i : Nat) : s.Steady (s.recLoad i) := by
  refine .ite (s.setMn_steady _) (.ite (.ite (.refl s) ?_) ?_)
  · exact ((s.ueHit_steady _ _).trans (State.ueHit_steady _ _ _)).trans (State.recLose_steady _ _)
  · exact ((((s.ueHit_steady _ _).trans (State.poke_steady _ _ _)).trans (State.mnCnt_steady _ _)).trans
      (State.raise_steady _ _ (by decide))).trans (State.setMn_steady _ _)

theorem State.setNodeQ_steady (s : State) (i : Nat) (l : List QEnt) : s.Steady (s.setNodeQ i l) := by
  have hload := s.recLoad_steady i
  unfold State.setNodeQ
  dsimp only
  generalize s.recLoad i = t at hload ⊢
  refine .trans (.trans ?_ (State.setRecF_steady _ _ _ _ _ _)) (State.setRecF_steady _ _ _ _ _ _)
  exact hload.trans (.of_eq rfl)

theorem State.qDrop_steady (s : State) (h : Nat) : s.Steady (s.qDrop h) := by
  have hforget : s.Steady (s.tryForget h) := .of_eq rfl
  refine hforget.trans (.trans (.foldl (fun t _ _ => .ite (t.setNodeQ_steady _ _) (.refl t)) _) (.foldl (fun t _ _ => .ite ?_ (.refl t)) _))
  exact t.setMn_steady _

theorem State.qEnd_steady (s : State) (h status : Nat) (stamp : Option Nat) : s.Steady (s.qEnd h status stamp) := by
  unfold State.qEnd
  split
  · exact .refl s
  · exact (s.qDrop_steady h).trans (State.outDone_steady _ _ _ _ _)

theorem State.frameFail_steady (s : State) (t what h : Nat) : s.Steady (s.frameFail t what h) := by
  unfold State.frameFail
  split
  · exact .refl s
  next e _ =>
    have hend := ((s.mlcCnt_steady 6).trans (State.raise_steady _ W.MLC (by decide : E.MLC_TXDROP < 32))).trans (State.qEnd_steady _ h 16 none)
    have hmod : s.Steady (s.qMod h fun e => { e with retries := e.retries + 1 }) := s.setMn_steady _
    exact .ite (.ite (hend.trans (State.setMlc_steady _ _)) hend) (.ite (hmod.trans (State.setMlc_steady _ _)) hmod)

theorem State.tryFail_steady (s : State) (r : Try) (noAck : Bool) : s.Steady (s.tryFail r noAck) := by
  have hdrop : s.Steady (if noAck then (s.tryDrop r.id).mlcCnt 5 else s.tryDrop r.id) :=
    .ite ((s.setMlc_steady _).trans (State.mlcCnt_steady _ _)) (s.setMlc_steady _)
  unfold State.tryFail
  dsimp only
  split
  · exact hdrop
  · exact hdrop.trans (State.frameFail_steady _ _ _ _)

theorem State.tryRefused_steady (s : State) (r : Try) (status : Nat) : s.Steady (s.tryRefused r status) := by
  have hdrop : s.Steady (s.tryDrop r.id) := s.setMlc_steady _
  refine .ite ?_ (hdrop.trans (State.mlcCnt_steady _ _))
  split
  · exact hdrop.trans (State.qEnd_steady _ _ _ _)
  · exact hdrop

theorem State.carrEnd_steady (s : State) (id : Nat) : s.Steady ((s.carrDrop id).limCut id) := (s.carrDrop_steady id).trans (State.limCut_steady _ _)

theorem State.carrCut_steady (s : State) (id : Nat) : s.Steady (s.carrCut id) := by
  have hend := s.carrEnd_steady id
  unfold State.carrCut
  generalize (s.carrDrop id).limCut id = t at hend ⊢
  have hstatus : s.Steady { t with mphy := { t.mphy with status := 11 } } := hend.trans (.of_eq rfl)
  dsimp only
  split
  · exact hstatus
  · exact .ite (hstatus.trans (State.tryFail_steady _ _ _)) (hstatus.trans (State.setMlc_steady _ _))

theorem State.carrRefused_steady (s : State) (id status : Nat) : s.Steady (s.carrRefused id status) := by
  have hstatus := (s.carrEnd_steady id).trans (State.carrStatus_steady _ status)
  unfold State.carrRefused
  generalize ((s.carrDrop id).limCut id).carrStatus status = t at hstatus ⊢
  dsimp only
  split
  · exact hstatus
  · exact hstatus.trans (State.tryRefused_steady _ _ _)

theorem State.pathForget_steady (s : State) (p id : Nat) : s.Steady (s.pathForget p id) := s.setPath_steady _ _ _

theorem State.meshStop_steady (s : State) (p : Nat) : s.Steady (s.meshStop p) :=
  .trans (.foldl (fun t _ _ => t.carrCut_steady _) s) (.foldl (fun t _ _ => t.carrRefused_steady _ _) _)

theorem State.mphyStop_steady (s : State) : s.Steady s.mphyStop := by
  have hdrop : s.Steady (s.mphy.lis.foldl (fun t e => t.lisDrop e.1) s) := .foldl (fun t _ _ => t.lisDrop_steady _) s
  unfold State.mphyStop
  dsimp only
  generalize s.mphy.lis.foldl (fun t e => t.lisDrop e.1) s = t at hdrop ⊢
  have hcut : t.Steady (t.mphy.active.foldl (fun t c => (t.carrCut c.id).pathForget (carrPath c.port) c.id) t) :=
    .foldl (fun t _ _ => (t.carrCut_steady _).trans (State.pathForget_steady _ _ _)) t
  generalize t.mphy.active.foldl (fun t c => (t.carrCut c.id).pathForget (carrPath c.port) c.id) t = u at hcut ⊢
  have hrefuse : u.Steady (u.mphy.waiting.foldl (fun t c => (t.carrRefused c.id 2).pathForget (carrPath c.port) c.id) u) :=
    .foldl (fun t _ _ => (t.carrRefused_steady _ _).trans (State.pathForget_steady _ _ _)) u
  generalize u.mphy.waiting.foldl (fun t c => (t.carrRefused c.id 2).pathForget (carrPath c.port) c.id) u = v at hrefuse ⊢
  exact ((hdrop.trans hcut).trans hrefuse).trans (.of_eq rfl)

theorem State.mlcStop_steady (s : State) : s.Steady s.mlcStop := by
  have hdrop : s.Steady (s.mphy.lis.foldl (fun t e => if e.2.cur.isSome then t.lisDrop e.1 else t) s) :=
    .foldl (fun t _ _ => .ite (t.lisDrop_steady _) (.refl t)) s
  unfold State.mlcStop
  dsimp only
  generalize s.mphy.lis.foldl (fun t e => if e.2.cur.isSome then t.lisDrop e.1 else t) s = t at hdrop ⊢
  have hfree : t.Steady (t.mphy.handed.foldl (fun t x => (t.bufRelease x.buf).unresv x.trn) t) :=
    .foldl (fun t _ _ => (t.bufRelease_steady _).trans (State.unresv_steady _ _)) t
  generalize t.mphy.handed.foldl (fun t x => (t.bufRelease x.buf).unresv x.trn) t = u at hfree ⊢
  exact (hdrop.trans hfree).trans (.of_eq rfl)

theorem State.mnStop_steady (s : State) : s.Steady s.mnStop :=
  .trans (.foldl (fun t _ _ => t.qEnd_steady _ _ _) s) (State.setMn_steady _ _)

/-! The WLAN radios -/

theorem State.setWl_steady (s : State) (w : WlanS) : s.Steady (s.setWl w) := .of_eq rfl

theorem State.wAbort_steady (s : State) (r : Nat) : s.Steady (s.wAbort r) := by
  have hfree (t : State) : t.Steady (t.wrxFree r) := by
    unfold State.wrxFree
    split
    · exact .refl t
    · exact ((t.bufRelease_steady _).trans (State.unresv_steady _ _)).trans (State.setWl_steady _ _)
  exact .ite (.refl s) (((s.wphyCnt_steady r 3).trans (hfree _)).trans (State.setWl_steady _ _))

theorem State.wEnd_steady (s : State) (h status : Nat) (stamp : Option Nat) : s.Steady (s.wEnd h status stamp) := by
  unfold State.wEnd
  split
  · exact .refl s
  · exact (s.setWl_steady _).trans (State.outDone_steady _ _ _ _ _)

theorem State.timedEnd_steady (s : State) (r h status stamp : Nat) : s.Steady (s.timedEnd r h status stamp) := by
  unfold State.timedEnd
  split
  · exact .refl s
  · exact .ite (s.setWl_steady _) ((s.setWl_steady _).trans (State.outDone_steady _ _ _ _ _))

theorem State.wFrameEnd_steady (s : State) (r h status stamp : Nat) : s.Steady (s.wFrameEnd r h status stamp) :=
  .ite (s.timedEnd_steady _ _ _ _) (s.wEnd_steady _ _ _)

theorem State.ppduCut_steady (s : State) (r : Nat) : s.Steady (s.ppduCut r) :=
  (s.setWl_steady _).trans (.foldl (fun t _ _ => (t.limCut_steady _).trans
    (.foldl (fun t _ _ => .foldl (fun t _ _ => t.wFrameEnd_steady _ _ _ _) t) _)) _)

theorem State.wphyStop_steady (s : State) (r : Nat) : s.Steady (s.wphyStop r) :=
  (((s.wAbort_steady r).trans (State.ppduCut_steady _ r)).trans (State.setPath_steady _ _ _ _)).trans (State.setWl_steady _ _)

theorem State.wmacStop_steady (s : State) (r : Nat) : s.Steady (s.wmacStop r) :=
  (s.setWl_steady _).trans (.foldl (fun t _ _ => t.timedEnd_steady _ _ _ _) _)

theorem State.mldStop_steady (s : State) : s.Steady s.mldStop :=
  .trans (.foldl (fun t _ _ => (t.mldCnt_steady _).trans (State.wEnd_steady _ _ _ _)) s) (State.setWl_steady _ _)

/-! The fabric and the router -/

theorem State.yardStop_steady (s : State) : s.Steady s.yardStop := by
  have hfree : s.Steady (s.yard.wagons.foldl (fun t e => t.wagFree e.1) s) := .foldl (fun t _ _ => t.wagFree_steady _) s
  unfold State.yardStop
  generalize s.yard.wagons.foldl (fun t e => t.wagFree e.1) s = t at hfree ⊢
  exact hfree.trans (.of_eq rfl)

theorem State.rteStop_steady (s : State) : s.Steady s.rteStop := by
  have hgone : s.Steady s.oldGone := by
    unfold State.oldGone
    split
    · exact .of_eq rfl
    · exact .refl s
  unfold State.rteStop
  generalize s.oldGone = t at hgone ⊢
  exact hgone.trans (.of_eq rfl)

theorem State.secAns_steady (s : State) (r : Req) (handle result : Nat) : s.Steady (s.secAns r handle result) := by
  have htake : s.Steady (s.reqTake r) := .of_eq rfl
  exact htake.trans (State.couple_steady _ _ _ _ _ _)

theorem State.secStop_steady (s : State) : s.Steady s.secStop := .foldl (fun t _ _ => t.secAns_steady _ _ _) s

/-! Lanes, links and ports -/

theorem State.sticky_steady (s : State) (n : Nat) {f : Fld} (h : f.Far) : s.Steady (s.sticky n f) :=
  (s.set_steady _ h).trans (State.raiseIf_steady _ _ _ (by decide))

theorem far_emac {n off lo len rst : Nat} (hlo : lo < 32) (hoff : off < 65536 ∧ off ≠ 0x10 ∧ off ≠ 0x44) : (mkF (0x38 + n) off lo len rst).Far :=
  far_mkF (by omega) hlo (.inl hoff)

theorem State.laneOff_steady (s : State) (n : Nat) : s.Steady (s.laneOff n) := by
  refine .ite (.refl s) (s.sets_steady ?_)
  simp only [List.forall_mem_cons, List.not_mem_nil, false_imp_iff, implies_true, and_true]
  refine ⟨?_, ?_, ?_, ?_, ?_, ?_⟩ <;> exact far_mkF (Nat.le_add_right_of_le (by decide)) (by decide) (.inl (by decide))

theorem State.setShp_steady (s : State) (n : Nat) (x : ShpS) : s.Steady (s.setShp n x) := .of_eq rfl
theorem State.setEmac_steady (s : State) (n : Nat) (x : EmacS) : s.Steady (s.setEmac n x) := .of_eq rfl

theorem State.portSync_steady (s : State) (n : Nat) : s.Steady (s.portSync n) :=
  .ite (s.setShp_steady _ _) ((s.setShp_steady _ _).trans (State.setEmac_steady _ _ _))

theorem State.shpFlush_steady (s : State) (n : Nat) : s.Steady (s.shpFlush n) :=
  .trans ((s.setShp_steady _ _).trans (.foldl (fun t _ _ => (t.shpCnt_steady _ _).trans (State.outDone_steady _ _ _ _ _)) _))
    (State.raiseIf_steady _ _ _ (by decide))

theorem State.txNote_steady (s : State) (n h status : Nat) : s.Steady (s.txNote n h status) := by
  unfold State.txNote
  split
  · exact (s.sticky_steady n (far_emac (by decide) (by decide))).trans (State.emacCnt_steady _ _ _)
  · exact ((s.ueHit_steady _ _).trans (State.sticky_steady _ n (far_emac (by decide) (by decide)))).trans (State.emacCnt_steady _ _ _)
  · exact s.emacCnt_steady _ _
  · exact .refl s

theorem State.txCut_steady (s : State) (n status : Nat) : s.Steady (s.txCut n status) := by
  unfold State.txCut
  split
  · exact .refl s
  next x _ =>
    dsimp only
    split
    · exact s.setShp_steady _ _
    · exact ((s.setShp_steady _ _).trans (State.txNote_steady _ _ _ _)).trans (State.outDone_steady _ _ _ _ _)

theorem State.ethGive_steady (s : State) (n : Nat) : s.Steady (s.ethGive n) := by
  unfold State.ethGive
  split
  · exact .refl s
  · exact ((s.setEmac_steady _ _).trans (State.bufRelease_steady _ _)).trans (State.unresv_steady _ _)

theorem State.linkLost_steady (s : State) (n : Nat) : s.Steady (s.linkLost n) := by
  have hcut := (s.portSync_steady n).trans (State.txCut_steady _ n 11)
  unfold State.linkLost
  dsimp only
  generalize (s.portSync n).txCut n 11 = t at hcut ⊢
  have hgive : t.Steady (if (t.emacOf n).rx.isSome then (t.ethGive n).emacCnt n 3 else t) :=
    .ite ((t.ethGive_steady n).trans (State.emacCnt_steady _ _ _)) (.refl t)
  generalize (if (t.emacOf n).rx.isSome then (t.ethGive n).emacCnt n 3 else t) = u at hgive ⊢
  refine (hcut.trans hgive).trans (((u.shpFlush_steady n).trans (State.setEmac_steady _ _ _)).trans (State.sets_steady _ ?_))
  simp only [List.forall_mem_cons, List.not_mem_nil, false_imp_iff, implies_true, and_true]
  refine ⟨?_, ?_, ?_, ?_, ?_, ?_⟩ <;> exact far_mkF (Nat.le_add_right_of_le (by decide)) (by decide) (.inl (by decide))

theorem State.linkDownOp_steady (s : State) (n : Nat) (loc rem : Bool) : s.Steady (s.linkDownOp n loc rem) := by
  have hsticky (t : State) (c : Bool) {f : Fld} (h : f.Far) : t.Steady (if c then t.sticky n f else t) := .ite (t.sticky_steady n h) (.refl t)
  refine .ite (.refl s) (.trans (.trans (.trans (.trans ((s.linkLost_steady n).trans (State.sets_steady _ ?_)) (State.sticky_steady _ n ?_))
    (State.raise_steady _ _ (by decide))) (hsticky _ loc ?_)) (hsticky _ rem ?_))
  · simp only [List.forall_mem_cons, List.not_mem_nil, false_imp_iff, implies_true, and_true]
    exact ⟨far_emac (by decide) (by decide), far_emac (by decide) (by decide)⟩
  all_goals exact far_emac (by decide) (by decide)

theorem State.emacStop_steady (s : State) (n : Nat) : s.Steady (s.emacStop n) := (s.linkLost_steady n).trans (State.setEmac_steady _ _ _)
theorem State.shpStop_steady (s : State) (n : Nat) : s.Steady (s.shpStop n) := (s.shpFlush_steady n).trans (State.setShp_steady _ _ _)

end Sys2Proof.Machine
end


section
/-!
A domain that is evaluated, arrives or drains leaves the module's phase, its supply and the power manager alone, R357 and R359.
-/

namespace Sys2Proof.Machine

/-! A front end and the coupler -/

theorem rfe_far (r : Nat) : 2 ≤ W.RFE r := Nat.le_add_right_of_le (by decide)

theorem State.rfeEnable_steady (s : State) (r : Nat) (en : Bool) : s.Steady (s.rfeEnable r en) := by
  have hpaths : s.Steady ((List.range (pathsOf r)).foldl (fun t p =>
      if en then (if t.pst r p = 0 && !(r < 3 && s.get F.CPL_STAT_STATE == 5) then t.pathGo r p 1 else t)
      else (t.pathCut r p 6).pathGo r p 0) s) :=
    .foldl (fun t p _ => .ite (.ite (t.pathGo_steady _ _ _) (.refl t)) (t.pathOff_steady _ _)) s
  exact .ite (hpaths.trans (State.opFinish_steady _ _ _ (rfe_far r))) hpaths

theorem State.airStop_steady (s : State) (r : Nat) : s.Steady (s.airStop r) :=
  .ite ((s.meshStop_steady 1).trans (State.meshStop_steady _ 2)) (s.ppduCut_steady r)

theorem State.rfeStop_steady (s : State) (r : Nat) : s.Steady (s.rfeStop r) := by
  have hair := s.airStop_steady r
  unfold State.rfeStop
  dsimp only
  generalize s.airStop r = t at hair ⊢
  have hcut : t.Steady (if r < 3 then t.wAbort r else ((t.blank 0).blank 1).blank 2) :=
    .ite (t.wAbort_steady r) (((t.blank_steady 0).trans (State.blank_steady _ 1)).trans (State.blank_steady _ 2))
  generalize (if r < 3 then t.wAbort r else ((t.blank 0).blank 1).blank 2) = u at hcut ⊢
  have hidle : u.Steady ((List.range (pathsOf r)).foldl (fun t p =>
      (t.setPath r p { pathIdle with presel := (t.path r p).presel, fg := (t.path r p).fg }).set (F.RFE_PATHSTAT_STATE r p) 0) u) :=
    .foldl (fun t p _ => (t.setPath_steady _ _ _).trans (State.set_steady _ _ (far_pathstat (by decide) (by decide)))) u
  generalize (List.range (pathsOf r)).foldl _ u = v at hidle ⊢
  exact ((hair.trans hcut).trans hidle).trans (.ite (.of_eq rfl) (.of_eq rfl))

theorem State.unlend_steady (s : State) : s.Steady s.unlend := by
  refine .trans (.trans (s.sets_steady ?_) (State.setMlc_steady _ _)) (.foldl (fun t _ _ => t.carrRefused_steady _ _) _)
  simp only [List.forall_mem_cons, List.not_mem_nil, false_imp_iff, implies_true, and_true]
  refine ⟨?_, ?_, ?_⟩ <;> exact far_mkF (by decide) (by decide) (.inl (by decide))

theorem State.radios_steady (s : State) (on : Bool) : s.Steady (s.radios on) :=
  .foldl (fun t r _ => .ite (.refl t) (.ite (t.rfeEnable_steady r true) (.foldl (fun t _ _ => t.pathOff_steady _ _) t))) s

theorem State.syncTo_steady (s : State) (st : Nat) : s.Steady (s.syncTo st) := by
  refine .ite (.of_eq rfl) (.trans ?_ (State.raise_steady _ _ (by decide)))
  exact .of_start (State.set_steady _ _ (far_mkF (by decide) (by decide) (.inl (by decide)))) rfl

theorem State.lifeOut_steady (s : State) (v : Nat) : s.Steady { s with env := { s.env with lifeOut := v } } :=
  ⟨rfl, rfl, rfl, rfl, rfl, rfl, rfl, rfl, rfl, fun _ _ => rfl, id⟩

theorem State.setPair_steady (s : State) (x : CplS) : s.Steady (s.setPair x) := .of_eq rfl

theorem far_cpl {off lo len rst : Nat} (hlo : lo < 32) (hoff : off < 65536 ∧ off ≠ 0x10 ∧ off ≠ 0x44) : (mkF 0x48 off lo len rst).Far :=
  far_mkF (by decide) hlo (.inl hoff)

theorem State.cplTo_steady (s : State) (st : Nat) : s.Steady (s.cplTo st) := by
  refine .ite (.refl s) ?_
  have hstate := (s.set_steady st (f := F.CPL_STAT_STATE) (far_cpl (by decide) (by decide))).trans
    (State.raise_steady _ W.CPL (by decide : E.CPL_STATECHG < 32))
  generalize (s.set F.CPL_STAT_STATE st).raise W.CPL E.CPL_STATECHG = t at hstate ⊢
  have hset (u : State) (x : State → CplS) {f : Fld} (h : f.Far) (c : Prop) [Decidable c] :
      u.Steady (if c then (u.set f 0).setPair (x (u.set f 0)) else u) :=
    .ite ((u.set_steady _ h).trans (State.setPair_steady _ _)) (.refl u)
  refine hstate.trans (.trans (.trans (.trans (.trans (.trans (.trans (t.lifeOut_steady _) (.ite (State.unlend_steady _) (.refl _)))
    (.ite (State.set_steady _ _ (far_cpl (by decide) (by decide))) (.refl _))) (hset _ (fun u => { u.pair with mq := [] }) ?_ _))
    (.ite ((State.pathGo_steady _ _ _ _).trans (State.radios_steady _ _)) (.ite (State.radios_steady _ _) (.refl _))))
    (hset _ (fun u => { u.pair with heard := false }) ?_ _)) (.ite (State.syncTo_steady _ _) (.refl _)))
  all_goals exact far_cpl (by decide) (by decide)

theorem State.cplSolo_steady (s : State) : s.Steady s.cplSolo := by
  have hmute : s.Steady (if 4 ≤ s.cpl then s.setMlc { s.mlc with mute := true } else s) := .ite (s.setMlc_steady _) (.refl s)
  unfold State.cplSolo
  dsimp only
  generalize (if 4 ≤ s.cpl then s.setMlc { s.mlc with mute := true } else s) = t at hmute ⊢
  have hsolo := hmute.trans (t.cplTo_steady 0)
  generalize t.cplTo 0 = u at hsolo ⊢
  refine .trans (.trans (hsolo.trans (u.setPair_steady _)) (.foldl (fun t _ _ => t.outDone_steady _ _ _ _) _)) (State.sets_steady _ ?_)
  simp only [List.forall_mem_cons, List.not_mem_nil, false_imp_iff, implies_true, and_true]
  refine ⟨?_, ?_, ?_⟩ <;> exact far_cpl (by decide) (by decide)

theorem State.dbgStop_steady (s : State) : s.Steady s.dbgStop := .of_eq rfl

/-! A block stops and starts -/

theorem State.blockStop_steady (s : State) (w : Nat) : s.Steady (s.blockStop w) := by
  unfold State.blockStop
  refine .ite (s.dbgStop_steady) ?_
  refine .ite (.refl s) ?_
  refine .ite (s.rfeStop_steady _) ?_
  refine .ite (s.mphyStop_steady) ?_
  refine .ite (s.mlcStop_steady) ?_
  refine .ite (s.mnStop_steady) ?_
  refine .ite (s.wphyStop_steady _) ?_
  refine .ite (s.wmacStop_steady _) ?_
  refine .ite (s.mldStop_steady) ?_
  refine .ite (s.yardStop_steady) ?_
  refine .ite (s.coachStop_steady _) ?_
  refine .ite (s.rteStop_steady) ?_
  refine .ite (s.secStop_steady) ?_
  refine .ite (s.laneOff_steady _) ?_
  refine .ite (s.emacStop_steady _) ?_
  refine .ite (s.shpStop_steady _) ?_
  refine .ite (s.cplSolo_steady) ?_
  exact .refl s

theorem State.blockStart_steady (s : State) (w : Nat) : s.Steady (s.blockStart w) := by
  refine .ite (.ite (s.rfeEnable_steady _ _) (.refl s)) (.ite (.foldl (fun t _ _ => t.set_steady _ ?_) s) (.ite (.ite (s.set_steady _ ?_) (.refl s)) (.refl s)))
  · exact far_mkF (by decide) (by decide) (.inr (by decide))
  · exact far_mkF (Nat.le_add_right_of_le (by decide)) (by decide) (.inl (by decide))

/-- No window of a domain that comes and goes is among those that are always on. -/
theorem domWins_far {d w : Nat} (hd : d ≠ 0) (hw : w ∈ domWins d) : 2 ≤ w ∧ w ≠ W.PINS := by
  have hdom : winDom w = d := by
    have hboth := (List.mem_filter.mp hw).2
    rw [Bool.and_eq_true, beq_iff_eq] at hboth
    exact hboth.2
  have hne (v : Nat) (hv : winDom v = 0) : w ≠ v := by
    rintro rfl
    exact hd (hdom.symm.trans hv)
  have h0 := hne 0 (by decide)
  have h1 := hne 1 (by decide)
  exact ⟨by omega, hne W.PINS (by decide)⟩

/-- A filter that keeps the registers of the relation and of THERM_HOLD. -/
theorem State.Steady.of_filter {s t : State} {p : Nat × Nat → Bool} (hregs : t.regs = s.regs.filter p) (h : t.steadyPart.2 = s.steadyPart.2)
    (hp : ∀ f ∈ F.EV_RAW W.PINS E.PINS_THERM_HOLD :: steadyRegs, ∀ v, p (f.key, v) = true) : s.Steady t := by
  simp only [State.steadyPart, Prod.mk.injEq] at h
  obtain ⟨hnv, henv, hpwr, hentry, himg, hnvs, hkeys⟩ := h
  have hget (f : Fld) (hf : f ∈ F.EV_RAW W.PINS E.PINS_THERM_HOLD :: steadyRegs) : t.get f = s.get f := by
    simp only [State.get, State.base, hregs, hnv, kget_filter_of_kept (hp f hf)]
  refine ⟨by rw [henv], by rw [henv], by rw [henv], by rw [henv], hpwr, hentry, himg, hnvs, hkeys, fun f hf => hget f (List.mem_cons_of_mem _ hf),
    fun he => ?_⟩
  rw [State.ev, State.on, hget _ List.mem_cons_self]
  exact he

theorem steady_window {f : Fld} (hf : f ∈ F.EV_RAW W.PINS E.PINS_THERM_HOLD :: steadyRegs) : f.key / 2097152 < 2 ∨ f.key / 2097152 = W.PINS := by
  revert f
  decide

theorem steady_offset {f : Fld} (hf : f ∈ F.EV_RAW W.PINS E.PINS_THERM_HOLD :: steadyRegs) : f.key / 32 % 65536 ≠ 0x4C := by
  revert f
  decide

theorem State.regsReset_steady (s : State) {w : Nat} (dom : Bool) (hw : 2 ≤ w ∧ w ≠ W.PINS) : s.Steady (s.regsReset w dom) := by
  refine .of_filter rfl rfl fun f hf v => ?_
  have hne : f.key / 2097152 ≠ w := by
    rcases steady_window hf with h | h
    · omega
    · rw [h]
      exact hw.2.symm
  simp [hne]

/-! A domain -/

theorem State.setDom_steady (s : State) (d st : Nat) : s.Steady (s.setDom d st) := .of_eq rfl

theorem State.domLeave_steady (s : State) {d : Nat} (hd : d ≠ 0) : s.Steady (s.domLeave d) := by
  refine .ite (s.coachLeave_steady _) ?_
  have hkill : s.Steady ((domWins d).foldl (fun t w => t.opKill w) s) := .foldl (fun t w hw => t.opKill_steady (domWins_far hd hw).1) s
  generalize (domWins d).foldl (fun t w => t.opKill w) s = t at hkill ⊢
  have hlane : t.Steady (if 20 ≤ d then (t.laneOff (d - 20)).linkDownOp (d - 20) false false else t) :=
    .ite ((t.laneOff_steady _).trans (State.linkDownOp_steady _ _ _ _)) (.refl t)
  dsimp only
  generalize (if 20 ≤ d then (t.laneOff (d - 20)).linkDownOp (d - 20) false false else t) = u at hlane ⊢
  have hstop : u.Steady (if d = 15 then u else (domWins d).foldl (fun t w => t.blockStop w) u) :=
    .ite (.refl u) (.foldl (fun t w _ => t.blockStop_steady w) u)
  generalize (if d = 15 then u else (domWins d).foldl (fun t w => t.blockStop w) u) = v at hstop ⊢
  have hwin : v.Steady (if d = 2 then { v with mphy := { v.mphy with win := [], nf := [], nfs := [] } } else v) :=
    .ite (.of_eq rfl) (.refl v)
  generalize (if d = 2 then { v with mphy := { v.mphy with win := [], nf := [], nfs := [] } } else v) = x at hwin ⊢
  have hall := ((hkill.trans hlane).trans hstop).trans hwin
  refine hall.trans ?_
  split
  · exact .trans (.foldl (fun t _ _ => t.setPath_steady _ _ _) x) (State.setDom_steady _ _ _)
  · exact x.setDom_steady _ _

theorem State.domEval_steady (s : State) {d : Nat} (hd : d ≠ 0) : s.Steady (s.domEval d) := by
  unfold State.domEval
  dsimp only
  split
  · refine .ite (.ite (.of_eq rfl) (.refl s)) (.ite (.refl s) (.ite ?_ (s.domLeave_steady hd)))
    exact .of_start (State.coachCheck_steady _ _) rfl
  · exact .ite (s.setDom_steady _ _) (.ite (s.setDom_steady _ _) (.refl s))
  · exact .ite (.refl s) (s.setDom_steady _ _)
  · exact .refl s

theorem domAll_pos {d : Nat} (h : d ∈ domAllList) : d ≠ 0 := by
  rintro rfl
  exact absurd h (by decide)

theorem State.domAll_steady (s : State) : s.Steady s.domAll := .foldl (fun t _ hd => t.domEval_steady (domAll_pos hd)) s

/-! A domain that arrives: the cluster's loses the harts' entries -/

/-- The phase, the supply, the cause of the start, the residency counters, the settings store and the keys are in t as in s. -/
structure State.SameStart (s t : State) : Prop where
  phase : t.env.phase = s.env.phase
  path : t.env.path = s.env.path
  cut : t.env.cut = s.env.cut
  res : t.pwr.res = s.pwr.res
  nvs : t.nvs = s.nvs
  keys : t.keys = s.keys
  cause : t.get F.SYS_START_CAUSE = s.get F.SYS_START_CAUSE

theorem State.SameStart.refl (s : State) : s.SameStart s := ⟨rfl, rfl, rfl, rfl, rfl, rfl, rfl⟩

theorem State.SameStart.trans {s t u : State} (h : s.SameStart t) (g : t.SameStart u) : s.SameStart u :=
  ⟨g.phase.trans h.phase, g.path.trans h.path, g.cut.trans h.cut, g.res.trans h.res, g.nvs.trans h.nvs, g.keys.trans h.keys, g.cause.trans h.cause⟩

theorem State.SameStart.ite {s t u : State} {c : Prop} [Decidable c] (h : s.SameStart t) (g : s.SameStart u) : s.SameStart (if c then t else u) := by
  split
  · exact h
  · exact g

theorem State.Steady.sameStart {s t : State} (h : s.Steady t) : s.SameStart t :=
  ⟨h.phase, h.path, h.cut, by rw [h.pwr], h.nvs, h.keys, h.regs _ List.mem_cons_self⟩

theorem State.set_sameStart (s : State) {f : Fld} (v : Nat) (h : F.SYS_START_CAUSE.key ≠ f.key) : s.SameStart (s.set f v) :=
  ⟨rfl, rfl, rfl, rfl, rfl, rfl, State.get_set_ne s v h⟩

/-- What the cluster's domain loses: the harts' entries among the rest. -/
theorem State.clusterLost_sameStart (s : State) (apc : ApcS) (dbg : DbgS) :
    s.SameStart (State.set { ((domWins 15).foldl (fun (t : State) w => t.regsReset w true) s) with apc := apc, dbg := dbg } F.APC_HARTSTAT_RUN 1) := by
  have hreset : s.Steady ((domWins 15).foldl (fun t w => t.regsReset w true) s) :=
    .foldl (fun t w hw => t.regsReset_steady true (domWins_far (by decide) hw)) s
  generalize (domWins 15).foldl (fun t w => t.regsReset w true) s = t at hreset ⊢
  have hsame : t.SameStart { t with apc := apc, dbg := dbg } := ⟨rfl, rfl, rfl, rfl, rfl, rfl, rfl⟩
  exact (hreset.sameStart.trans hsame).trans (State.set_sameStart _ 1 (f := F.APC_HARTSTAT_RUN) (by decide))

theorem State.domLose_sameStart (s : State) (d : Nat) (off : Bool) : s.SameStart (s.domLose d off) := by
  unfold State.domLose
  refine .ite (.ite (.refl s) (.ite ⟨rfl, rfl, rfl, rfl, rfl, rfl, rfl⟩ (.ite ⟨rfl, rfl, rfl, rfl, rfl, rfl, rfl⟩ ⟨rfl, rfl, rfl, rfl, rfl, rfl, rfl⟩)))
    (.ite (.ite ⟨rfl, rfl, rfl, rfl, rfl, rfl, rfl⟩ (.refl s)) (.ite (.ite ⟨rfl, rfl, rfl, rfl, rfl, rfl, rfl⟩ (.refl s)) (.ite ?_ (.ite ?_ (.refl s)))))
  · exact .ite (.refl s) (s.clusterLost_sameStart _ _)
  · refine .ite (State.Steady.sameStart (.of_filter rfl rfl fun f hf v => ?_)) (.refl s)
    have hoff := steady_offset hf
    have hne : f.key / 32 ≠ (0x30 + (d - 20)) * 65536 + 0x4C := by omega
    simp only [bne_iff_ne, ne_eq]
    exact hne

theorem State.domOn_steady (s : State) {d : Nat} (hd : d ≠ 0) : s.Steady (s.domOn d) := by
  refine .ite (s.setDom_steady _ _) ?_
  have hwins : (s.setDom d 2).Steady ((domWins d).foldl (fun t w => (t.regsReset w true).blockStart w) (s.setDom d 2)) :=
    .foldl (fun t w hw => (t.regsReset_steady true (domWins_far hd hw)).trans (State.blockStart_steady _ w)) _
  generalize (domWins d).foldl (fun t w => (t.regsReset w true).blockStart w) (s.setDom d 2) = t at hwins ⊢
  exact ((s.setDom_steady d 2).trans hwins).trans (.ite (.of_eq rfl) (.refl t))

theorem State.domArrive_sameStart (s : State) {d : Nat} (hd : d ≠ 0) : s.SameStart (s.domArrive d) := by
  unfold State.domArrive
  split
  · exact .ite (s.setDom_steady _ _).sameStart (s.domOn_steady hd).sameStart
  · exact (s.setDom_steady _ _).sameStart.trans (State.domLose_sameStart _ _ _)
  · exact (s.setDom_steady _ _).sameStart.trans (State.domLose_sameStart _ _ _)
  · exact .refl s

theorem State.domSettle_sameStart (s : State) : s.SameStart s.domSettle := by
  refine List.foldlRecOn (motive := fun t => s.SameStart t) _ _ (.refl s) fun t ht d hd => ht.trans ?_
  have hpos := domAll_pos hd
  have heval := t.domEval_steady hpos
  have hdrain : t.Steady (if 8 ≤ d && d ≤ 13 then (t.domEval d).drainEnd (d - 8) else t.domEval d) :=
    .ite (heval.trans (State.drainEnd_steady _ _)) heval
  exact (hdrain.sameStart.trans (State.domArrive_sameStart _ hpos)).trans (State.domEval_steady _ hpos).sameStart

end Sys2Proof.Machine
end


section
/-!
The baseplate's thresholds, R32.
-/

namespace Sys2Proof.Machine

/-! The temperature felt -/

theorem State.feel_temp (s : State) {x : Int} (hlo : -2048 ≤ x) (hhi : x ≤ 2047) : (s.feel x).temp = x := by
  have hclamp : clampI (-2048) 2047 x = x := by
    unfold clampI
    split_ifs <;> omega
  rw [State.temp, State.feel, hclamp, State.getI, State.setI, State.get_set_same]
  simp only [F.PINS_BASETEMP_TEMP, mkF, sgn, unsgn, show min 12 32 = 12 from rfl]
  split_ifs <;> omega

theorem State.get_feel_ne (s : State) (x : Int) {f : Fld} (h : f.key ≠ F.PINS_BASETEMP_TEMP.key) : (s.feel x).get f = s.get f :=
  State.get_set_ne _ _ h

theorem State.on_feel (s : State) (x : Int) {f : Fld} (h : f.key ≠ F.PINS_BASETEMP_TEMP.key) : (s.feel x).on f = s.on f := by
  rw [State.on, State.on, s.get_feel_ne x h]

theorem State.keeps_feel (s : State) (x : Int) : s.keeps (s.feel x) [F.PINS_BASETEMP_TEMP] :=
  State.keeps_set List.mem_cons_self (s.keeps_refl _)

theorem State.feel_live (s : State) (x : Int) : (s.feel x).live = s.live := rfl
theorem State.feel_mem (s : State) (x : Int) : (s.feel x).mem = s.mem := rfl

theorem State.temp_set_ne (s : State) {f : Fld} (v : Nat) (h : F.PINS_BASETEMP_TEMP.key ≠ f.key) : (s.set f v).temp = s.temp := by
  rw [State.temp, State.temp, State.getI, State.getI, State.get_set_ne s v h]

theorem State.temp_raise (s : State) (w : Nat) {b : Nat} (hb : b < 32) : (s.raise w b).temp = s.temp := by
  have hkey : F.PINS_BASETEMP_TEMP.key ≠ (F.EV_RAW w b).key := by
    simp only [F.PINS_BASETEMP_TEMP, F.EV_RAW, mkF]
    omega
  rw [State.temp, State.temp, State.getI, State.getI, State.get_raise_ne s w b hkey]

/-- A threshold's flag is set or cleared, with its event. -/
theorem State.flag_get (s : State) {f : Fld} {v : Nat} (w : Nat) {b : Nat} (hlen : f.len = 1) (hv : v < 2) (hkey : f.key ≠ (F.EV_RAW w b).key) :
    ((s.set f v).raise w b).get f = v := by
  rw [State.get_raise_ne _ _ _ hkey, State.get_set_same, hlen]
  exact Nat.mod_eq_of_lt hv

theorem State.thermWarn_of_hot {s : State} (hlive : s.live = true) (hhot : 704 ≤ s.temp) (hwarn : s.on F.PINS_BASETEMP_WARN = false) :
    s.thermWarn = (s.set F.PINS_BASETEMP_WARN 1).raise W.PINS E.PINS_THERM_WARN := by
  simp [State.thermWarn, hlive, hhot, hwarn]

/-- The warning is raised at most, and nothing else of the thresholds changes. -/
theorem State.thermWarn_frame {s : State} (hlive : s.live = true) (hhot : 704 ≤ s.temp) :
    s.RegsOnly s.thermWarn ∧ s.thermWarn.temp = s.temp ∧ s.thermWarn.on F.PINS_BASETEMP_HOLD = s.on F.PINS_BASETEMP_HOLD
      ∧ s.thermWarn.dev = s.dev ∧ (s.thermWarn.get F.PINS_BASETEMP_WARN = 1 ∨ s.get F.PINS_BASETEMP_WARN ≠ 0) := by
  rcases hwarn : s.on F.PINS_BASETEMP_WARN with _ | _
  · rw [State.thermWarn_of_hot hlive hhot hwarn]
    have hget {f : Fld} (hf : f.key ≠ F.PINS_BASETEMP_WARN.key) (hev : f.key ≠ (F.EV_RAW W.PINS E.PINS_THERM_WARN).key) :
        ((s.set F.PINS_BASETEMP_WARN 1).raise W.PINS E.PINS_THERM_WARN).get f = s.get f :=
      (State.get_raise_ne _ _ _ hev).trans (State.get_set_ne _ _ hf)
    refine ⟨(s.set_regsOnly _ _).trans (State.raise_regsOnly _ _ _), ?_, ?_, hget (by decide) (by decide), .inl (State.flag_get _ _ rfl (by decide) (by decide))⟩
    · rw [State.temp_raise _ _ (by decide), State.temp_set_ne _ _ (by decide)]
    · rw [State.on, hget (by decide) (by decide), State.on]
  · have hsame : s.thermWarn = s := by simp [State.thermWarn, hwarn]
    rw [hsame]
    exact ⟨.refl s, rfl, rfl, rfl, .inr (by simpa [State.on] using hwarn)⟩

/-! The change to Vigil -/

theorem State.pwrCnt_steady (s : State) (n : Nat) : s.Steady (s.pwrCnt n) := by
  have hfar (lo len : Nat) (hlo : lo = 0 ∨ lo = 31) : (mkF W.PWR (0xE0 + 4 * n) lo len 0).Far := by
    intro g hg
    simp only [steadyRegs, List.mem_cons, List.not_mem_nil, or_false] at hg
    obtain rfl | rfl | rfl | rfl | rfl := hg <;>
      simp only [F.EV_RAW, F.SYS_START_CAUSE, F.PWR_STATUS_CHANGING, F.PINS_BASETEMP_WARN, F.PINS_BASETEMP_HOLD, W.PINS, W.PWR, E.PINS_THERM_HOLD, mkF] <;>
      omega
  exact s.satAdd_steady _ _ (hfar 0 31 (.inl rfl)) (hfar 31 1 (.inr rfl)) (by decide)

/-- Neither the change pending nor its refusal is the change in progress or the state. -/
theorem State.pendDrop_frame (s : State) : s.pendDrop.env = s.env ∧ s.pendDrop.pwr.change = s.pwr.change ∧ s.pendDrop.dev = s.dev
    ∧ (∀ f ∈ steadyRegs, s.pendDrop.get f = s.get f)
    ∧ (s.ev W.PINS E.PINS_THERM_HOLD = true → s.pendDrop.ev W.PINS E.PINS_THERM_HOLD = true) := by
  unfold State.pendDrop
  split
  · exact ⟨rfl, rfl, rfl, fun _ _ => rfl, id⟩
  · dsimp only
    split
    · exact ⟨rfl, rfl, rfl, fun _ _ => rfl, id⟩
    · have hcause : F.PWR_STATECMD_CAUSE.Far := by
        unfold Fld.Far
        decide
      generalize ht : ({ s with pwr := { s.pwr with pend := none } } : State) = t
      have hregs : t.RegsOnly (t.refuse 6) :=
        ((t.set_regsOnly _ _).trans (State.bump_regsOnly _ _ _ _)).trans (State.raise_regsOnly _ _ _)
      have hsteady : t.Steady (t.refuse 6) :=
        ((t.set_steady 6 hcause).trans (State.pwrCnt_steady _ 1)).trans (State.raise_steady _ _ (by decide))
      have hdev : (t.refuse 6).dev = t.dev := by
        have hkey (n : Nat) : F.PWR_STATUS_STATE.key ≠ (mkF W.PWR (0xE0 + 4 * n) 0 31 0).key
            ∧ F.PWR_STATUS_STATE.key ≠ (mkF W.PWR (0xE0 + 4 * n) 31 1 0).key := by
          simp only [F.PWR_STATUS_STATE, mkF, W.PWR]
          omega
        refine (State.get_raise_ne _ _ _ (by decide)).trans ((State.get_bump_ne _ (hkey 1).1 (hkey 1).2 (by decide)).trans ?_)
        exact State.get_set_ne _ _ (by decide)
      subst ht
      exact ⟨hregs.env, by rw [hregs.pwr], hdev, hsteady.regs, hsteady.held⟩

/-- The state before the domains are evaluated for a change out of Run. -/
def State.stepBegun (s : State) (next final : Nat) : State :=
  ({ (({ s with pwr := { s.pwr with change := some next, final := final } }).set F.PWR_STATUS_CHANGING 1) with
    pwr := { s.pwr with change := some next, final := final, capState := 1 } }).park (· != 0) true

theorem State.stepStart_of_run {s : State} (next final : Nat) (h : s.dev = 0) :
    s.stepStart next final = (s.stepBegun next final).lanesIdle.domAll.perfEval := by
  have hdev : (({ s with pwr := { s.pwr with change := some next, final := final } }).set F.PWR_STATUS_CHANGING 1).dev = 0 := by
    rw [State.dev, State.get_set_ne _ _ (by decide)]
    exact h
  simp only [State.stepStart, h, if_true]
  rfl

theorem State.lanesIdle_steady (s : State) : s.Steady s.lanesIdle :=
  .foldl (fun t n _ => .ite (.refl t) (t.set_steady _ (far_mkF (Nat.le_add_right_of_le (by decide)) (by decide) (.inl (by decide))))) s

/-- A change out of Run leaves the thresholds as they are. -/
theorem State.stepStart_frame {s : State} (next final : Nat) (h : s.dev = 0) :
    (s.stepStart next final).pwr.change = some next
      ∧ (∀ f ∈ [F.PINS_BASETEMP_WARN, F.PINS_BASETEMP_HOLD], (s.stepStart next final).get f = s.get f)
      ∧ (s.ev W.PINS E.PINS_THERM_HOLD = true → (s.stepStart next final).ev W.PINS E.PINS_THERM_HOLD = true) := by
  have hdoms := (s.stepBegun next final).lanesIdle_steady.trans (State.domAll_steady _)
  have hbegun (f : Fld) (hf : f.key ≠ F.PWR_STATUS_CHANGING.key) : (s.stepBegun next final).get f = s.get f :=
    (State.get_congr rfl rfl f).trans (State.get_set_ne _ _ hf)
  rw [State.stepStart_of_run next final h]
  generalize (s.stepBegun next final).lanesIdle.domAll = t at hdoms ⊢
  refine ⟨?_, fun f hf => ?_, fun he => ?_⟩
  · exact congrArg PwrS.change hdoms.pwr
  · have hne : f.key ≠ F.PWR_STATUS_CHANGING.key := by
      revert f
      decide
    have hmem : f ∈ steadyRegs := List.mem_of_mem_drop (i := 2) hf
    exact (hdoms.regs f hmem).trans (hbegun f hne)
  · refine hdoms.held ?_
    rw [State.ev, State.on, hbegun _ (by decide)]
    exact he

theorem State.forceVigil_of_run {s : State} (hchange : s.pwr.change = none) (hdev : s.dev = 0) :
    s.forceVigil false = s.pendDrop.stepStart 1 1 := by
  obtain ⟨-, hc, hd, -, -⟩ := s.pendDrop_frame
  simp [State.forceVigil, hc.trans hchange, hd.trans hdev]

/-- What the hold leaves: its flag and event, the warning of before, and the change to Vigil. -/
theorem State.hold_frame {s : State} (hchange : s.pwr.change = none) (hdev : s.dev = 0) :
    let t := ((s.set F.PINS_BASETEMP_HOLD 1).raise W.PINS E.PINS_THERM_HOLD).forceVigil false
    t.get F.PINS_BASETEMP_HOLD = 1 ∧ t.ev W.PINS E.PINS_THERM_HOLD = true ∧ t.get F.PINS_BASETEMP_WARN = s.get F.PINS_BASETEMP_WARN
      ∧ t.pwr.change = some 1 := by
  have hregs := (s.set_regsOnly F.PINS_BASETEMP_HOLD 1).trans (State.raise_regsOnly _ W.PINS E.PINS_THERM_HOLD)
  have hhold : ((s.set F.PINS_BASETEMP_HOLD 1).raise W.PINS E.PINS_THERM_HOLD).get F.PINS_BASETEMP_HOLD = 1 :=
    State.flag_get _ _ rfl (by decide) (by decide)
  have hev := State.ev_raise (s.set F.PINS_BASETEMP_HOLD 1) W.PINS E.PINS_THERM_HOLD
  have hget {f : Fld} (hf : f.key ≠ F.PINS_BASETEMP_HOLD.key) (hne : f.key ≠ (F.EV_RAW W.PINS E.PINS_THERM_HOLD).key) :
      ((s.set F.PINS_BASETEMP_HOLD 1).raise W.PINS E.PINS_THERM_HOLD).get f = s.get f :=
    (State.get_raise_ne _ _ _ hne).trans (State.get_set_ne _ _ hf)
  have hwarn := hget (f := F.PINS_BASETEMP_WARN) (by decide) (by decide)
  have hrun := (hget (f := F.PWR_STATUS_STATE) (by decide) (by decide)).trans hdev
  generalize (s.set F.PINS_BASETEMP_HOLD 1).raise W.PINS E.PINS_THERM_HOLD = t at hregs hhold hev hwarn hrun ⊢
  obtain ⟨-, -, hd, hkeep, hheld⟩ := t.pendDrop_frame
  obtain ⟨hc, hthr, hraised⟩ := State.stepStart_frame 1 1 (hd.trans hrun)
  dsimp only
  rw [State.forceVigil_of_run (by rw [hregs.pwr]; exact hchange) hrun]
  exact ⟨((hthr _ (by simp)).trans (hkeep _ (by simp [steadyRegs]))).trans hhold, hraised (hheld hev),
    ((hthr _ (by simp)).trans (hkeep _ (by simp [steadyRegs]))).trans hwarn, hc⟩

theorem State.thermHold_of_hot {s : State} (hsoft : s.env.phase = .software) (hhot : 760 ≤ s.temp) (hhold : s.on F.PINS_BASETEMP_HOLD = false) :
    s.thermHold = ((s.thermWarn.set F.PINS_BASETEMP_HOLD 1).raise W.PINS E.PINS_THERM_HOLD).forceVigil false := by
  have hlive : s.live = true := by simp [State.live, hsoft]
  obtain ⟨hregs, htemp, hon, -, -⟩ := State.thermWarn_frame hlive (by omega)
  have hlive' : s.thermWarn.live = true := by rw [State.live, hregs.env]; exact hlive
  have hphase : s.thermWarn.env.phase = .software := (congrArg EnvS.phase hregs.env).trans hsoft
  simp [State.thermHold, hlive', htemp, hhot, hon, hhold, hphase]

/-! A start -/

theorem State.devTo_sameStart (s : State) (st : Nat) : s.SameStart (s.devTo st) :=
  (s.set_sameStart st (by decide)).trans ((State.pwrCnt_steady _ 0).trans (State.raise_steady _ _ (by decide))).sameStart

theorem State.bootVigil_sameStart (s : State) : s.SameStart s.bootVigil := by
  have hvigil : s.SameStart { s with env := { s.env with bootVigil := true }, pwr := { s.pwr with capState := 1 } } :=
    ⟨rfl, rfl, rfl, rfl, rfl, rfl, rfl⟩
  have hpark (t : State) : t.Steady (t.park (· != 0) true) := .of_eq rfl
  exact .ite (.refl s) ((hvigil.trans (State.devTo_sameStart _ 1)).trans
    ((((hpark _).trans (State.domAll_steady _)).sameStart.trans (State.domSettle_sameStart _)).trans (State.lisPower_steady _).sameStart))

theorem State.flag_sameStart (s : State) (c : Prop) [Decidable c] {f : Fld} (h : F.SYS_START_CAUSE.key ≠ f.key) {b : Nat} (hb : b < 32) :
    s.SameStart (if c then (s.set f 1).raise W.PINS b else s) :=
  .ite ((s.set_sameStart 1 h).trans (State.raise_steady _ _ hb).sameStart) (.refl s)

theorem State.startState_sameStart (s : State) (kind : Nat) (bridging : Bool) : s.SameStart (s.startState kind bridging) := by
  have hdev : s.SameStart (if kind ≤ 2 && s.dev ≠ 0 then s.devTo 0 else s) := .ite (s.devTo_sameStart 0) (.refl s)
  unfold State.startState
  dsimp only
  generalize (if kind ≤ 2 && s.dev ≠ 0 then s.devTo 0 else s) = t at hdev ⊢
  have hboot : t.SameStart (if kind = 3 then t.bootVigil else t) := .ite t.bootVigil_sameStart (.refl t)
  generalize (if kind = 3 then t.bootVigil else t) = u at hboot ⊢
  have hwarn := u.flag_sameStart (704 ≤ u.temp && !u.on F.PINS_BASETEMP_WARN) (f := F.PINS_BASETEMP_WARN) (by decide)
    (by decide : E.PINS_THERM_WARN < 32)
  generalize (if 704 ≤ u.temp && !u.on F.PINS_BASETEMP_WARN then (u.set F.PINS_BASETEMP_WARN 1).raise W.PINS E.PINS_THERM_WARN else u) = v
    at hwarn ⊢
  have hhold := v.flag_sameStart (760 ≤ u.temp && !u.on F.PINS_BASETEMP_HOLD) (f := F.PINS_BASETEMP_HOLD) (by decide)
    (by decide : E.PINS_THERM_HOLD < 32)
  exact (((hdev.trans hboot).trans hwarn).trans hhold).trans (.ite (State.bootVigil_sameStart _) (.refl _))

theorem State.plicStart_sameStart (s : State) : s.SameStart s.plicStart := by
  refine State.Steady.sameStart (.foldl (fun t w _ => ?_) s)
  exact .ite (.of_eq rfl) (.refl t)

/-- A start from Off is in Boot, on the path it was given, with its cause recorded. -/
theorem State.start_of_off {s : State} (h : s.env.phase = .off) :
    (s.start 0 0).env.phase = .boot ∧ (s.start 0 0).env.path = s.env.path ∧ (s.start 0 0).env.cut = false
      ∧ (s.start 0 0).get F.SYS_START_CAUSE = 0 := by
  have hrec : s.startRec 0 = 0 := by simp only [State.startRec, h]
  have hregs : ((s.startKept 0 0).startRegs (s.timeRestore 0) 0 0).env = (s.startKept 0 0).env := by
    exact (State.sets_regsOnly _ _).env.trans (State.sets_regsOnly _ _).env
  have hcause : ((s.startKept 0 0).startRegs (s.timeRestore 0) 0 0).get F.SYS_START_CAUSE = 0 := by
    refine (State.get_sets_ne _ _ (by simp only [List.forall_mem_cons, List.not_mem_nil, false_imp_iff, implies_true, and_true]; decide)).trans ?_
    refine (State.get_congr rfl rfl _).trans ?_
    refine (State.get_sets_ne (State.sets _ [(F.PWR_STATUS_CHANGING, 0), (F.PWR_PERFSTAT_FABRIC, 0), (F.PWR_PERFSTAT_CLUSTER, 0), (F.DBG_AUTH_BUSY, 0),
      (F.SYS_START_CAUSE, 0)]) [(F.SYS_START_FALLBACK, 0), (F.SYS_START_VIGIL, 0), (F.SYS_START_BOOTMS, 0)] (by decide)).trans ?_
    exact State.get_set_same _ _ _
  have hstart := (((s.startKept 0 0).startRegs (s.timeRestore 0) 0 0).startState_sameStart 0 (s.env.path == .bridging)).trans
    (State.plicStart_sameStart _)
  have henv : (s.startKept 0 0).env = { s.env with phase := .boot, cut := false, lifeOut := 0, startKind := s.startRec 0, bootVigil := false } := rfl
  rw [henv] at hregs
  have hbegun : s.start 0 0 = (((s.startKept 0 0).startRegs (s.timeRestore 0) 0 0).startState 0 (s.env.path == .bridging)).plicStart := by
    rw [State.start, hrec]
  rw [hbegun]
  generalize ((s.startKept 0 0).startRegs (s.timeRestore 0) 0 0) = t at hregs hcause hstart ⊢
  exact ⟨hstart.phase.trans (congrArg EnvS.phase hregs), hstart.path.trans (by rw [hregs]), hstart.cut.trans (congrArg EnvS.cut hregs),
    hstart.cause.trans hcause⟩

/-- Settles O10: the change to Vigil and a start leave the thresholds and the start's cause as they set them. -/
theorem thermalThresholds : Obligations.ThermalThresholds := by
  unfold Obligations.ThermalThresholds
  refine ⟨fun s x hlive hlo hhi hwarn => ⟨_, rfl, ?_⟩, fun s x hlive hlo hhi => ⟨_, rfl, ?_⟩, fun s x hsoft hlo hhi hhold hdev hchange => ⟨_, rfl, ?_⟩,
    fun s x hlive hlo hhi hhold => ⟨_, rfl, ?_⟩, fun s x hoff hlo hhi => ⟨_, rfl, ?_⟩, fun s x hcut hoff hlo hhi hmains => ⟨_, rfl, ?_⟩⟩
  all_goals dsimp only
  · have htemp := s.feel_temp (by omega) hhi
    rw [State.thermWarn_of_hot (s := s.feel x) hlive (by rw [htemp]; exact hlo) ((s.on_feel x (by decide)).trans hwarn)]
    refine ⟨State.flag_get _ _ rfl (by decide) (by decide), State.ev_raise _ _ _, ?_, ?_, ?_⟩
    · rw [State.temp_raise _ _ (by decide), State.temp_set_ne _ _ (by decide), htemp]
    · exact State.keeps_raise (by simp) (State.keeps_set (by simp) (State.keeps_mono (s.keeps_feel x) (by simp)))
    · rw [State.raise_mem]
      rfl
  · have htemp := s.feel_temp hlo (by omega)
    have hcool : (s.feel x).warnClear = (s.feel x).set F.PINS_BASETEMP_WARN 0 := by
      simp [State.warnClear, State.feel_live, hlive, htemp, hhi]
    rw [hcool]
    refine ⟨State.get_set_same _ _ _, ?_, State.keeps_set (by simp) (State.keeps_mono (s.keeps_feel x) (by simp)), rfl⟩
    rw [State.temp_set_ne _ _ (by decide), htemp]
  · have htemp := s.feel_temp (by omega) hhi
    have hlive : s.live = true := by simp [State.live, hsoft]
    obtain ⟨hregs, -, -, hrun, hwarn⟩ := State.thermWarn_frame (s := s.feel x) hlive (by omega)
    obtain ⟨hset, hev, hsame, hc⟩ := State.hold_frame (s := (s.feel x).thermWarn) (by rw [hregs.pwr]; exact hchange)
      ((hrun.trans (s.get_feel_ne x (by decide))).trans hdev)
    rw [State.thermHold_of_hot (s := s.feel x) hsoft (by omega) ((s.on_feel x (by decide)).trans hhold)]
    refine ⟨hset, hev, ?_, hc⟩
    rw [hsame, ← s.get_feel_ne x (f := F.PINS_BASETEMP_WARN) (by decide)]
    exact hwarn
  · have htemp := s.feel_temp hlo (by omega)
    have hcool : (s.feel x).thermClear = ((s.feel x).set F.PINS_BASETEMP_HOLD 0).raise W.PINS E.PINS_THERM_CLEAR := by
      simp [State.thermClear, State.feel_live, hlive, htemp, hhi, s.on_feel x (f := F.PINS_BASETEMP_HOLD) (by decide), hhold]
    rw [hcool]
    refine ⟨State.flag_get _ _ rfl (by decide) (by decide), State.ev_raise _ _ _, ?_, ?_, ?_⟩
    · exact (State.get_raise_ne _ _ _ (by decide)).trans ((State.get_set_ne _ _ (by decide)).trans (s.get_feel_ne x (by decide)))
    · exact State.keeps_raise (by simp) (State.keeps_set (by simp) (State.keeps_mono (s.keeps_feel x) (by simp)))
    · rw [State.raise_mem]
      rfl
  · have htemp := s.feel_temp (by omega) hhi
    have hcut : (s.feel x).thermCut = { ((s.feel x).supTo .off).dieOff .off 0 with
        env := { (((s.feel x).supTo .off).dieOff .off 0).env with cut := true } } := by
      have hphase : (s.feel x).env.phase ≠ .off := hoff
      simp [State.thermCut, hphase, htemp, hlo]
    obtain ⟨-, -, -, hmem⟩ := State.dieOff_frame ((s.feel x).supTo .off) .off 0
    have henv := ((s.feel x).supTo .off).dieOff_env .off 0
    have hkeep : s.keeps (((s.feel x).supTo .off).dieOff .off 0)
        (F.PINS_BASETEMP_TEMP :: F.PINS_SUPPLY_SOURCE :: (List.range 8).map F.LANE_STAT_IDLE) :=
      State.keeps_dieOff _ _ (fun n hn => List.mem_cons_of_mem _ (List.mem_cons_of_mem _ (List.mem_map_of_mem (List.mem_range.mpr hn))))
        (State.keeps_supTo (by simp) (State.keeps_mono (s.keeps_feel x) (by simp)))
    rw [hcut]
    generalize ((s.feel x).supTo .off).dieOff .off 0 = t at hmem henv hkeep ⊢
    rw [henv]
    exact ⟨rfl, rfl, rfl, rfl, State.keeps_congr rfl rfl hkeep, hmem⟩
  · have htemp := s.feel_temp hlo (by omega)
    have hcool : ¬ 600 ≤ x := by omega
    have hgood : (s.feel x).mainsOk = true := (s.on_feel x (by decide)).trans hmains
    have hphase : (s.feel x).env.phase = .off := hoff
    have hleave : (s.feel x).leaveOff = ((s.feel x).supTo .onMains).start 0 0 := by
      simp [State.leaveOff, hphase, hgood, htemp, hcool]
    rw [if_pos hcut, hleave]
    exact State.start_of_off (s := (s.feel x).supTo .onMains) hphase

end Sys2Proof.Machine
end


section
/-!
A start finds nothing under way: no carrier, no frame queued, no wagon, no request. A domain that leaves or comes on then ends nothing, and no
event reaches the ledger (R384, R375). One lemma per operation, in the order of the definitions.
-/

namespace Sys2Proof.Machine

/-- The ledger is empty, and the listeners, carriers, queues, wagons, requests and ports have nothing under way. -/
structure State.Idle (s : State) : Prop where
  led : s.flt.led = []
  lis : s.mphy.lis = []
  active : s.mphy.active = []
  waiting : s.mphy.waiting = []
  handed : s.mphy.handed = []
  nodeQ : s.mn.q = []
  sharedQ : s.mn.sq = []
  lent : s.mlc.lent = []
  wrx : s.wl.rx = []
  wtx : s.wl.tx = []
  timed : s.wl.timed = []
  staQ : s.wl.q = []
  grpQ : s.wl.grp = []
  wagons : s.yard.wagons = []
  engs : s.yard.engs = []
  reqs : s.yard.reqs = []
  pairQ : s.pair.q = []
  ports : ∀ n, (s.shpOf n).tx = none ∧ (s.shpOf n).q = [] ∧ (s.shpOf n).timed = []
  macs : ∀ n, (s.emacOf n).rx = none

/-- What it reads of a state. -/
def State.idlePart (s : State) : (KMap Ledger × KMap Lis × List Carr × List Carr × List Handed)
    × (KMap (List QEnt) × KMap (List QEnt) × List Carr) × (KMap WRx × List WTx × List (Nat × WEnt) × KMap (List WEnt) × KMap (List WEnt))
    × (KMap Wagon × KMap EngS × List Req) × List (Out × Bool) × KMap ShpS × KMap EmacS :=
  ((s.flt.led, s.mphy.lis, s.mphy.active, s.mphy.waiting, s.mphy.handed), (s.mn.q, s.mn.sq, s.mlc.lent),
    (s.wl.rx, s.wl.tx, s.wl.timed, s.wl.q, s.wl.grp), (s.yard.wagons, s.yard.engs, s.yard.reqs), s.pair.q, s.shp, s.emac)

namespace State.Idle

variable {s t : State}

/-- A record of which it reads nothing changes. -/
theorem of_eq (h : s.Idle) (heq : t.idlePart = s.idlePart) : t.Idle := by
  simp only [State.idlePart, Prod.mk.injEq] at heq
  obtain ⟨⟨h1, h2, h3, h4, h5⟩, ⟨h6, h7, h8⟩, ⟨h9, h10, h11, h12, h13⟩, ⟨h14, h15, h16⟩, h17, h18, h19⟩ := heq
  refine ⟨h1.trans h.led, h2.trans h.lis, h3.trans h.active, h4.trans h.waiting, h5.trans h.handed, h6.trans h.nodeQ, h7.trans h.sharedQ,
    h8.trans h.lent, h9.trans h.wrx, h10.trans h.wtx, h11.trans h.timed, h12.trans h.staQ, h13.trans h.grpQ, h14.trans h.wagons,
    h15.trans h.engs, h16.trans h.reqs, h17.trans h.pairQ, fun n => ?_, fun n => ?_⟩
  · rw [State.shpOf, h18]
    exact h.ports n
  · rw [State.emacOf, h19]
    exact h.macs n

theorem of_regsOnly (h : s.Idle) (hregs : s.RegsOnly t) : t.Idle := by
  obtain ⟨_, _, rfl⟩ := hregs
  exact h.of_eq rfl

theorem ite {c : Prop} [Decidable c] (ht : s.Idle) (hu : t.Idle) : (if c then s else t).Idle := by
  split
  · exact ht
  · exact hu

theorem foldl {α : Type} {f : State → α → State} (h : s.Idle) {l : List α} (hf : ∀ (t : State) (a : α), a ∈ l → t.Idle → (f t a).Idle) :
    (l.foldl f s).Idle :=
  List.foldlRecOn (motive := State.Idle) l f h fun t ht a ha => hf t a ha ht

/-! Registers and events -/

theorem set (h : s.Idle) (f : Fld) (v : Nat) : (s.set f v).Idle := h.of_regsOnly (s.set_regsOnly f v)
theorem sets (h : s.Idle) (l : List (Fld × Nat)) : (s.sets l).Idle := h.of_regsOnly (s.sets_regsOnly l)
theorem raise (h : s.Idle) (w b : Nat) : (s.raise w b).Idle := h.of_regsOnly (s.raise_regsOnly w b)
theorem raiseIf (h : s.Idle) (c : Bool) (w b : Nat) : (s.raiseIf c w b).Idle := h.of_regsOnly (s.raiseIf_regsOnly c w b)
theorem bump (h : s.Idle) (w off ev : Nat) : (s.bump w off ev).Idle := h.of_regsOnly (s.bump_regsOnly w off ev)
theorem fresh (h : s.Idle) : s.fresh.2.Idle := h.of_eq rfl
theorem opKill (h : s.Idle) (w : Nat) : (s.opKill w).Idle := h.of_regsOnly (s.opKill_regsOnly w)
theorem opFinish (h : s.Idle) (w st cause : Nat) : (s.opFinish w st cause).Idle := h.of_regsOnly (s.opFinish_regsOnly w st cause)

/-! Paths -/

theorem setPath (h : s.Idle) (r p : Nat) (x : PathS) : (s.setPath r p x).Idle := h.of_eq rfl
theorem pathGo (h : s.Idle) (r p goal : Nat) : (s.pathGo r p goal).Idle := h.of_eq rfl
theorem pathOff (h : s.Idle) (r p : Nat) : ((s.pathCut r p 6).pathGo r p 0).Idle := h.of_eq rfl

theorem rfeEnable (h : s.Idle) (r : Nat) (en : Bool) : (s.rfeEnable r en).Idle := by
  have hpaths : ((List.range (pathsOf r)).foldl (fun t p =>
      if en then (if t.pst r p = 0 && !(r < 3 && s.get F.CPL_STAT_STATE == 5) then t.pathGo r p 1 else t)
      else (t.pathCut r p 6).pathGo r p 0) s).Idle :=
    h.foldl fun _ _ _ ht => .ite (.ite (ht.pathGo _ _ _) ht) (ht.pathOff _ _)
  exact .ite (hpaths.opFinish _ _ _) hpaths

theorem radios (h : s.Idle) (on : Bool) : (s.radios on).Idle :=
  h.foldl fun _ _ _ ht => .ite ht (.ite (ht.rfeEnable _ true) (ht.foldl fun _ _ _ hu => hu.pathOff _ _))

/-! Nothing of a radio, the mesh or the yard is ended -/

theorem meshStop (h : s.Idle) (p : Nat) : s.meshStop p = s := by
  rw [State.meshStop, h.active, h.waiting]
  rfl

theorem wAbort (h : s.Idle) (r : Nat) : s.wAbort r = s := by
  rw [State.wAbort, State.wrx, h.wrx]
  rfl

theorem blank (h : s.Idle) (p : Nat) : s.blank p = s := by
  rw [State.blank, h.lis]
  rfl

theorem ppduCut (h : s.Idle) (r : Nat) : (s.ppduCut r).Idle := by
  refine h.of_eq ?_
  simp only [State.ppduCut, h.wtx]
  simp [State.idlePart, State.setWl, h.wtx]

theorem airStop (h : s.Idle) (r : Nat) : (s.airStop r).Idle := by
  unfold State.airStop
  refine .ite ?_ (h.ppduCut r)
  rw [h.meshStop, h.meshStop]
  exact h

theorem rfeStop (h : s.Idle) (r : Nat) : (s.rfeStop r).Idle := by
  have hair := h.airStop r
  unfold State.rfeStop
  dsimp only
  generalize s.airStop r = t at hair ⊢
  rw [hair.wAbort, hair.blank, hair.blank, hair.blank, ite_self]
  have hidle : ((List.range (pathsOf r)).foldl (fun t p =>
      (t.setPath r p { pathIdle with presel := (t.path r p).presel, fg := (t.path r p).fg }).set (F.RFE_PATHSTAT_STATE r p) 0) t).Idle :=
    hair.foldl fun _ _ _ hu => (hu.setPath _ _ _).set _ _
  generalize (List.range (pathsOf r)).foldl _ t = u at hidle ⊢
  exact .ite (hidle.of_eq rfl) (hidle.of_eq rfl)

theorem mphyStop (h : s.Idle) : s.mphyStop.Idle := by
  refine h.of_eq ?_
  simp only [State.mphyStop, h.lis, h.active, h.waiting, List.foldl_nil]
  simp [State.idlePart, h.lis, h.active, h.waiting]

theorem mlcStop (h : s.Idle) : s.mlcStop.Idle := by
  refine h.of_eq ?_
  simp only [State.mlcStop, h.lis, h.handed, List.foldl_nil]
  simp [State.idlePart, State.setMlc, h.lis, h.handed]

theorem mnStop (h : s.Idle) : s.mnStop.Idle := by
  refine h.of_eq ?_
  simp only [State.mnStop, h.nodeQ, h.sharedQ, List.flatMap_nil, List.append_nil, List.map_nil, List.foldl_nil]
  simp [State.idlePart, State.setMn, h.nodeQ, h.sharedQ]

theorem wphyStop (h : s.Idle) (r : Nat) : (s.wphyStop r).Idle := by
  have hcut := h.ppduCut r
  unfold State.wphyStop
  rw [h.wAbort]
  generalize s.ppduCut r = t at hcut ⊢
  refine hcut.of_eq ?_
  simp [State.idlePart, State.setWl, State.setPath, hcut.wrx, kdel]

theorem wmacStop (h : s.Idle) (r : Nat) : (s.wmacStop r).Idle := by
  refine h.of_eq ?_
  simp only [State.wmacStop, h.timed, List.filter_nil, List.foldl_nil]
  simp [State.idlePart, State.setWl, h.timed]

theorem mldStop (h : s.Idle) : s.mldStop.Idle := by
  refine h.of_eq ?_
  simp only [State.mldStop, h.staQ, h.grpQ, List.flatMap_nil, List.append_nil, List.eraseDups_nil, List.foldl_nil]
  simp [State.idlePart, State.setWl, h.staQ, h.grpQ]

theorem yardStop (h : s.Idle) : s.yardStop.Idle := by
  refine h.of_eq ?_
  simp only [State.yardStop, h.wagons, List.foldl_nil, h.engs]
  simp [State.idlePart, h.wagons, h.engs]

theorem engFail (h : s.Idle) (e : Nat) (charge : Bool) : s.engFail e charge = s := by
  rw [State.engFail, State.eng, h.engs]
  rfl

theorem coachStop (h : s.Idle) (c : Nat) : (s.coachStop c).Idle := by
  have hall : ((List.range 8).foldl (fun t i => t.engFail (8 * c + i) true) s).Idle :=
    h.foldl fun _ _ _ ht => by rwa [ht.engFail]
  unfold State.coachStop
  dsimp only
  generalize (List.range 8).foldl _ s = t at hall ⊢
  refine hall.of_eq ?_
  simp [State.idlePart, hall.engs]

theorem rteStop (h : s.Idle) : s.rteStop.Idle := by
  refine h.of_eq ?_
  unfold State.rteStop State.oldGone
  split <;> rfl

theorem secStop (h : s.Idle) : s.secStop = s := by
  rw [State.secStop, h.reqs]
  rfl

/-! Ports and lanes -/

theorem laneOff (h : s.Idle) (n : Nat) : (s.laneOff n).Idle := .ite h (h.sets _)

theorem setShp (h : s.Idle) (n : Nat) {x : ShpS} (htx : x.tx = none) (hq : x.q = []) (ht : x.timed = []) : (s.setShp n x).Idle := by
  refine { h with ports := fun m => ?_, macs := h.macs }
  rw [State.shpOf, State.setShp]
  by_cases hm : m = n
  · subst hm
    rw [kget_kset_same]
    exact ⟨htx, hq, ht⟩
  · rw [kget_kset_ne _ _ hm]
    exact h.ports m

theorem setEmac (h : s.Idle) (n : Nat) {x : EmacS} (hrx : x.rx = none) : (s.setEmac n x).Idle := by
  refine { h with ports := h.ports, macs := fun m => ?_ }
  rw [State.emacOf, State.setEmac]
  by_cases hm : m = n
  · subst hm
    rw [kget_kset_same]
    exact hrx
  · rw [kget_kset_ne _ _ hm]
    exact h.macs m

theorem portSync (h : s.Idle) (n : Nat) : (s.portSync n).Idle := by
  obtain ⟨htx, hq, htimed⟩ := h.ports n
  have hsync : (s.shpSync n).Idle := h.setShp n htx hq htimed
  unfold State.portSync
  dsimp only
  generalize s.shpSync n = t at hsync ⊢
  exact .ite hsync (hsync.setEmac n (hsync.macs n))

theorem txCut (h : s.Idle) (n status : Nat) : s.txCut n status = s := by
  rw [State.txCut, (h.ports n).1]

theorem shpFlush (h : s.Idle) (n : Nat) : (s.shpFlush n).Idle := by
  obtain ⟨htx, hq, htimed⟩ := h.ports n
  have hset := h.setShp n (x := { s.shpOf n with q := [], timed := [], credit := [] }) htx rfl rfl
  unfold State.shpFlush
  dsimp only
  generalize s.setShp n _ = t at hset ⊢
  rw [hq, htimed]
  exact hset.raiseIf _ _ _

theorem linkLost (h : s.Idle) (n : Nat) : (s.linkLost n).Idle := by
  have hsync := h.portSync n
  unfold State.linkLost
  dsimp only
  generalize s.portSync n = t at hsync ⊢
  rw [hsync.txCut, hsync.macs n, Option.isSome_none, if_neg Bool.false_ne_true]
  have hflush := hsync.shpFlush n
  generalize t.shpFlush n = u at hflush ⊢
  exact (hflush.setEmac n (x := { u.emacOf n with pause := [], want := none, sent := none }) (hflush.macs n)).sets _

theorem sticky (h : s.Idle) (n : Nat) (f : Fld) : (s.sticky n f).Idle := (h.set f 1).raiseIf _ _ _

theorem linkDownOp (h : s.Idle) (n : Nat) (loc rem : Bool) : (s.linkDownOp n loc rem).Idle := by
  have hlost := ((((h.linkLost n).sets [(F.EMAC_LINK_LOCFAULT n, b2n loc), (F.EMAC_LINK_REMFAULT n, b2n rem)]).sticky n
    (F.EMAC_STICKY_LINKDOWN n)).raise (W.EMAC n) E.EMAC_LINKDOWN)
  unfold State.linkDownOp
  refine .ite h ?_
  dsimp only
  generalize State.raise _ (W.EMAC n) E.EMAC_LINKDOWN = t at hlost ⊢
  have hloc : (if loc then t.sticky n (F.EMAC_STICKY_LOCFAULT n) else t).Idle := .ite (hlost.sticky _ _) hlost
  exact .ite (hloc.sticky _ _) hloc

theorem emacStop (h : s.Idle) (n : Nat) : (s.emacStop n).Idle := (h.linkLost n).setEmac n rfl

theorem shpStop (h : s.Idle) (n : Nat) : (s.shpStop n).Idle := by
  have hflush := h.shpFlush n
  unfold State.shpStop
  dsimp only
  generalize s.shpFlush n = t at hflush ⊢
  exact hflush.setShp n (hflush.ports n).1 rfl rfl

/-! The coupler -/

theorem unlend (h : s.Idle) : s.unlend.Idle := by
  have hsets := h.sets [(F.CPL_LEND_MT0, 0), (F.CPL_LEND_MT1, 0), (F.CPL_LEND_BYFLT, 0)]
  unfold State.unlend
  dsimp only
  generalize s.sets _ = t at hsets ⊢
  rw [h.lent, List.foldl_nil]
  refine hsets.of_eq ?_
  simp [State.idlePart, State.setMlc, hsets.lent]

theorem syncTo (h : s.Idle) (st : Nat) : (s.syncTo st).Idle := by
  have ht : State.Idle { s with tm := { s.tm with acq := if st = 1 then 0 else s.tm.acq } } := h.of_eq rfl
  exact .ite ht ((ht.set _ _).raise _ _)

theorem setPair (h : s.Idle) {x : CplS} (hq : x.q = []) : (s.setPair x).Idle := by
  refine h.of_eq ?_
  simp [State.idlePart, State.setPair, hq, h.pairQ]

theorem cplTo (h : s.Idle) (st : Nat) : (s.cplTo st).Idle := by
  have hstate := (h.set F.CPL_STAT_STATE st).raise W.CPL E.CPL_STATECHG
  unfold State.cplTo
  refine .ite h ?_
  dsimp only
  generalize (s.set F.CPL_STAT_STATE st).raise W.CPL E.CPL_STATECHG = t at hstate ⊢
  have hlife : State.Idle { t with env := { t.env with lifeOut := if st = 0 then 0 else 1 } } := hstate.of_eq rfl
  generalize ({ t with env := { t.env with lifeOut := if st = 0 then 0 else 1 } } : State) = u at hlife ⊢
  have hlent : (if s.cpl = 3 then u.unlend else u).Idle := .ite hlife.unlend hlife
  generalize (if s.cpl = 3 then u.unlend else u) = v at hlent ⊢
  have hblocks : (if st = 3 then v.set F.CPL_DETBLK_BLOCKS 0 else v).Idle := .ite (hlent.set _ _) hlent
  generalize (if st = 3 then v.set F.CPL_DETBLK_BLOCKS 0 else v) = w at hblocks ⊢
  have hprog := ite (c := st = 4) ((hblocks.set F.CPL_SYNCPROG_DONE 0).setPair (x := { w.pair with mq := [] }) hblocks.pairQ) hblocks
  generalize (if st = 4 then (w.set F.CPL_SYNCPROG_DONE 0).setPair { w.pair with mq := [] } else w) = x at hprog ⊢
  have hradio := ite (c := st = 5) ((hprog.pathGo 3 1 2).radios false) (ite (c := s.cpl = 5) (hprog.radios true) hprog)
  generalize (if st = 5 then (x.pathGo 3 1 2).radios false else if s.cpl = 5 then x.radios true else x) = y at hradio ⊢
  have hwatch := ite (c := st = 7) ((hradio.set F.CPL_WATCH_MISSES 0).setPair (x := { y.pair with heard := false }) hradio.pairQ) hradio
  exact .ite (hwatch.syncTo 3) hwatch

theorem cplSolo (h : s.Idle) : s.cplSolo.Idle := by
  have hmute : (if 4 ≤ s.cpl then s.setMlc { s.mlc with mute := true } else s).Idle := .ite (h.of_eq rfl) h
  unfold State.cplSolo
  dsimp only
  generalize (if 4 ≤ s.cpl then s.setMlc { s.mlc with mute := true } else s) = t at hmute ⊢
  rw [h.pairQ]
  exact ((hmute.cplTo 0).setPair rfl).sets _

/-! A block stops and starts -/

theorem dbgStop (h : s.Idle) : s.dbgStop.Idle := h.of_eq rfl

theorem blockStop (h : s.Idle) (w : Nat) : (s.blockStop w).Idle := by
  unfold State.blockStop
  refine .ite h.dbgStop ?_
  refine .ite h ?_
  refine .ite (h.rfeStop _) ?_
  refine .ite h.mphyStop ?_
  refine .ite h.mlcStop ?_
  refine .ite h.mnStop ?_
  refine .ite (h.wphyStop _) ?_
  refine .ite (h.wmacStop _) ?_
  refine .ite h.mldStop ?_
  refine .ite h.yardStop ?_
  refine .ite (h.coachStop _) ?_
  refine .ite h.rteStop ?_
  refine .ite (h.secStop.symm ▸ h) ?_
  refine .ite (h.laneOff _) ?_
  refine .ite (h.emacStop _) ?_
  refine .ite (h.shpStop _) ?_
  exact .ite h.cplSolo h

theorem blockStart (h : s.Idle) (w : Nat) : (s.blockStart w).Idle :=
  .ite (.ite (h.rfeEnable _ _) h) (.ite (h.foldl fun _ _ _ ht => ht.set _ _) (.ite (.ite (h.set _ _) h) h))

/-! A domain leaves, arrives or drains -/

theorem setDom (h : s.Idle) (d st : Nat) : (s.setDom d st).Idle := h.of_eq rfl

theorem regsReset (h : s.Idle) (w : Nat) (dom : Bool) : (s.regsReset w dom).Idle := h.of_eq rfl

theorem coachLeave (h : s.Idle) (c : Nat) : (s.coachLeave c).Idle := by
  have hstop := (h.opKill (W.ENG c)).coachStop c
  unfold State.coachLeave
  dsimp only
  generalize (s.opKill (W.ENG c)).coachStop c = t at hstop ⊢
  exact hstop.of_eq rfl

theorem coachCheck (h : s.Idle) (c : Nat) : (s.coachCheck c).Idle := .ite (h.coachLeave c) h

theorem domLeave (h : s.Idle) (d : Nat) : (s.domLeave d).Idle := by
  unfold State.domLeave
  refine .ite (h.coachLeave _) ?_
  dsimp only
  have hops : ((domWins d).foldl (fun t w => t.opKill w) s).Idle := h.foldl fun _ w _ ht => ht.opKill w
  generalize (domWins d).foldl (fun t w => t.opKill w) s = t at hops ⊢
  have hlane := ite (c := 20 ≤ d) ((hops.laneOff (d - 20)).linkDownOp (d - 20) false false) hops
  generalize (if 20 ≤ d then _ else t) = u at hlane ⊢
  have hstop : (if d = 15 then u else (domWins d).foldl (fun t w => t.blockStop w) u).Idle :=
    .ite hlane (hlane.foldl fun _ w _ ht => ht.blockStop w)
  generalize (if d = 15 then u else (domWins d).foldl (fun t w => t.blockStop w) u) = v at hstop ⊢
  have hwin : (if d = 2 then { v with mphy := { v.mphy with win := [], nf := [], nfs := [] } } else v).Idle := .ite (hstop.of_eq rfl) hstop
  generalize (if d = 2 then _ else v) = w at hwin ⊢
  exact (ite (hwin.foldl fun _ _ _ ht => ht.setPath _ _ _) hwin).setDom _ _

theorem domEval (h : s.Idle) (d : Nat) : (s.domEval d).Idle := by
  unfold State.domEval
  dsimp only
  split
  · refine .ite (.ite (h.of_eq rfl) h) (.ite h (.ite ?_ (h.domLeave d)))
    exact State.Idle.coachCheck (h.of_eq (by rfl)) _
  · exact .ite (h.setDom _ _) (.ite (h.setDom _ _) h)
  · exact .ite h (h.setDom _ _)
  · exact h

theorem domAll (h : s.Idle) : s.domAll.Idle := h.foldl fun _ d _ ht => ht.domEval d

theorem domOn (h : s.Idle) (d : Nat) : (s.domOn d).Idle := by
  have hdom := h.setDom d 2
  unfold State.domOn
  dsimp only
  refine .ite hdom ?_
  have hwins : ((domWins d).foldl (fun t w => (t.regsReset w true).blockStart w) (s.setDom d 2)).Idle :=
    hdom.foldl fun _ w _ ht => (ht.regsReset w true).blockStart w
  generalize (domWins d).foldl _ (s.setDom d 2) = t at hwins ⊢
  exact .ite (hwins.of_eq rfl) hwins

theorem domLose (h : s.Idle) (d : Nat) (off : Bool) : (s.domLose d off).Idle := by
  unfold State.domLose
  dsimp only
  refine .ite (.ite h ?_) (.ite (.ite (h.of_eq rfl) h) (.ite (.ite (h.of_eq rfl) h) (.ite (.ite h ?_) (.ite (.ite (h.of_eq rfl) h) h))))
  · exact .ite (h.of_eq rfl) (.ite (h.of_eq rfl) (h.of_eq rfl))
  · have hwins : ((domWins 15).foldl (fun t w => t.regsReset w true) s).Idle := h.foldl fun _ w _ ht => ht.regsReset w true
    generalize (domWins 15).foldl _ s = t at hwins ⊢
    exact State.Idle.set (hwins.of_eq (by rfl)) _ _

theorem domArrive (h : s.Idle) (d : Nat) : (s.domArrive d).Idle := by
  unfold State.domArrive
  split
  · exact .ite (h.setDom _ _) (h.domOn d)
  · exact (h.setDom _ _).domLose _ _
  · exact (h.setDom _ _).domLose _ _
  · exact h

theorem drainEnd (h : s.Idle) (c : Nat) : (s.drainEnd c).Idle := by
  refine .ite h (State.Idle.coachCheck (h.foldl fun t i _ ht => ?_) c)
  rw [State.eng, ht.engs]
  exact ht

theorem domSettle (h : s.Idle) : s.domSettle.Idle := by
  refine h.foldl fun t d _ ht => ?_
  have hdrain := ite (c := 8 ≤ d && d ≤ 13) ((ht.domEval d).drainEnd (d - 8)) (ht.domEval d)
  exact (hdrain.domArrive d).domEval d

theorem lisPower (h : s.Idle) : s.lisPower.Idle := by
  rw [State.lisPower, h.lis]
  exact h

/-! A start -/

theorem devTo (h : s.Idle) (st : Nat) : (s.devTo st).Idle := ((h.set _ _).bump _ _ _).raise _ _

theorem bootVigil (h : s.Idle) : s.bootVigil.Idle := by
  have hvigil : State.Idle { s with env := { s.env with bootVigil := true }, pwr := { s.pwr with capState := 1 } } := h.of_eq rfl
  have hpark : (State.park (State.devTo { s with env := { s.env with bootVigil := true }, pwr := { s.pwr with capState := 1 } } 1)
      (· != 0) true).Idle := (hvigil.devTo 1).of_eq rfl
  exact .ite h hpark.domAll.domSettle.lisPower

theorem startState (h : s.Idle) (kind : Nat) (bridging : Bool) : (s.startState kind bridging).Idle := by
  unfold State.startState
  dsimp only
  have hdev := ite (c := kind ≤ 2 && s.dev ≠ 0) (h.devTo 0) h
  generalize (if kind ≤ 2 && s.dev ≠ 0 then s.devTo 0 else s) = t at hdev ⊢
  have hboot := ite (c := kind = 3) hdev.bootVigil hdev
  generalize (if kind = 3 then t.bootVigil else t) = u at hboot ⊢
  have hwarn := ite (c := 704 ≤ u.temp && !u.on F.PINS_BASETEMP_WARN) ((hboot.set F.PINS_BASETEMP_WARN 1).raise W.PINS E.PINS_THERM_WARN) hboot
  generalize (if 704 ≤ u.temp && !u.on F.PINS_BASETEMP_WARN then _ else u) = v at hwarn ⊢
  have hhold := ite (c := 760 ≤ u.temp && !u.on F.PINS_BASETEMP_HOLD) ((hwarn.set F.PINS_BASETEMP_HOLD 1).raise W.PINS E.PINS_THERM_HOLD) hwarn
  generalize (if 760 ≤ u.temp && !u.on F.PINS_BASETEMP_HOLD then _ else v) = x at hhold ⊢
  exact .ite hhold.bootVigil hhold

theorem plicStart (h : s.Idle) : s.plicStart.Idle := h.foldl fun _ _ _ ht => .ite (ht.of_eq rfl) ht

end State.Idle

/-- What a start keeps has nothing under way, and the ledger of a power-on or a reset is empty. -/
theorem State.startKept_idle (s : State) {kind : Nat} (n : Nat) (h : kind < 2) : (s.startKept kind n).Idle := by
  have hflt : (s.startKept kind n).flt = State.reset.flt := if_pos h
  exact ⟨congrArg FltS.led hflt, rfl, rfl, rfl, rfl, rfl, rfl, rfl, rfl, rfl, rfl, rfl, rfl, rfl, rfl, rfl, rfl, fun _ => ⟨rfl, rfl, rfl⟩,
    fun _ => rfl⟩

theorem State.Idle.startRegs {t : State} (h : t.Idle) (s : State) {kind : Nat} (rec' : Nat) (hkind : kind ≠ 3) : (t.startRegs s kind rec').Idle := by
  unfold State.startRegs
  simp only [if_neg hkind]
  exact (State.Idle.fresh (State.Idle.fresh (h.sets _))).sets _

/-- After a power-on or a reset the ledger is empty. -/
theorem State.start_led (s : State) {kind : Nat} (n : Nat) (h : kind < 2) : (s.start kind n).flt.led = [] := by
  have hidle := (s.startKept_idle n h).startRegs (s.timeRestore n) (s.startRec kind) (by omega : kind ≠ 3)
  unfold State.start
  dsimp only
  generalize (s.startKept kind n).startRegs (s.timeRestore n) kind (s.startRec kind) = t at hidle ⊢
  exact ((hidle.startState _ _).plicStart).led

end Sys2Proof.Machine
end


section
/-!
The regulatory image is the image of the boot and of the activation alone (R325, R331): no write of a register or of memory changes it. One lemma
per operation, in the order of the definitions; first the operations over registers, fields and front ends, then those of the blocks.
-/

namespace Sys2Proof.Machine

/-- The regulatory image in force is i. -/
structure State.ImgIs (i : Option RegImage) (s : State) : Prop where
  img : s.lim.img = i

theorem State.Steady.imgIs {s t : State} {i : Option RegImage} (g : s.Steady t) (h : s.ImgIs i) : t.ImgIs i := ⟨g.img.trans h.img⟩

theorem State.RegsOnly.imgIs {s t : State} {i : Option RegImage} (g : s.RegsOnly t) (h : s.ImgIs i) : t.ImgIs i := ⟨(congrArg LimS.img g.lim).trans h.img⟩

namespace State.ImgIs

variable {s t : State} {i : Option RegImage}

theorem of_eq (h : s.ImgIs i) (heq : t.lim.img = s.lim.img) : t.ImgIs i := ⟨heq.trans h.img⟩

theorem ite {c : Prop} [Decidable c] (hs : s.ImgIs i) (ht : t.ImgIs i) : (if c then s else t).ImgIs i := by
  split
  · exact hs
  · exact ht

theorem foldl {α : Type} {f : State → α → State} (h : s.ImgIs i) {l : List α} (hf : ∀ (t : State) (a : α), t.ImgIs i → (f t a).ImgIs i) :
    (l.foldl f s).ImgIs i :=
  List.foldlRecOn (motive := State.ImgIs i) l f h fun t ht a _ => hf t a ht

/-! Registers, events and operations -/

theorem set (h : s.ImgIs i) (f : Fld) (v : Nat) : (s.set f v).ImgIs i := h.of_eq rfl
theorem sets (h : s.ImgIs i) (l : List (Fld × Nat)) : (s.sets l).ImgIs i := (s.sets_regsOnly l).imgIs h
theorem plicSample (h : s.ImgIs i) (w : Nat) (level : Bool) : (s.plicSample w level).ImgIs i := (s.plicSample_regsOnly w level).imgIs h
theorem raise (h : s.ImgIs i) (w b : Nat) : (s.raise w b).ImgIs i := (s.raise_regsOnly w b).imgIs h
theorem raiseIf (h : s.ImgIs i) (c : Bool) (w b : Nat) : (s.raiseIf c w b).ImgIs i := (s.raiseIf_regsOnly c w b).imgIs h
theorem satAdd (h : s.ImgIs i) (cnt ovf : Fld) (w ev n : Nat) : (s.satAdd cnt ovf w ev n).ImgIs i := (s.satAdd_regsOnly cnt ovf w ev n).imgIs h
theorem bump (h : s.ImgIs i) (w off ev : Nat) : (s.bump w off ev).ImgIs i := h.satAdd _ _ _ _ _
theorem fresh (h : s.ImgIs i) : s.fresh.2.ImgIs i := h.of_eq rfl
theorem opFinish (h : s.ImgIs i) (w st cause : Nat) : (s.opFinish w st cause).ImgIs i := (s.opFinish_regsOnly w st cause).imgIs h
theorem opFail (h : s.ImgIs i) (w cause : Nat) : (s.opFail w cause).ImgIs i := h.opFinish _ _ _
theorem opDone (h : s.ImgIs i) (w : Nat) : (s.opDone w).ImgIs i := h.opFinish _ _ _
theorem opKill (h : s.ImgIs i) (w : Nat) : (s.opKill w).ImgIs i := (s.opKill_regsOnly w).imgIs h
theorem opUnits (h : s.ImgIs i) (w n part : Nat) : (s.opUnits w n part).ImgIs i := (h.set _ _).set _ _
theorem answer (h : s.ImgIs i) (v : Nat) : (s.answer v).ImgIs i := h.of_eq rfl
theorem answerErr (h : s.ImgIs i) (r : Rq) (dark : Bool) : (s.answerErr r dark).ImgIs i := h.of_eq rfl
theorem errRec (h : s.ImgIs i) (r : Rq) (w off cause : Nat) : (s.errRec r w off cause).ImgIs i := .ite h (h.sets _)
theorem darkRec (h : s.ImgIs i) (r : Rq) (a kind : Nat) : (s.darkRec r a kind).ImgIs i := .ite (h.set _ _) (h.sets _)

theorem opStart (h : s.ImgIs i) (r : Rq) (w : Nat) (valid free : Bool) : (s.opStart r w valid free).ImgIs i :=
  .ite (h.errRec _ _ _ _) (.ite (h.errRec _ _ _ _) (.ite (h.opFail _ _) (((h.opUnits _ _ _).set _ _).set _ _)))

/-! Memory and the frame pool -/

theorem ueHit (h : s.ImgIs i) (a n : Nat) : (s.ueHit a n).ImgIs i := (s.ueHit_steady a n).imgIs h
theorem pokeN (h : s.ImgIs i) (a n v : Nat) : (s.pokeN a n v).ImgIs i := (s.poke_steady a _).imgIs h
theorem bufRelease (h : s.ImgIs i) (b : Nat) : (s.bufRelease b).ImgIs i := (s.bufRelease_steady b).imgIs h
theorem ramOf (h : s.ImgIs i) (m : MemS) : ({ s with ram := m } : State).ImgIs i := h.of_eq rfl

theorem bufAlloc (h : s.ImgIs i) (n : Nat) : (s.bufAlloc n).2.ImgIs i := by
  have hpick (p : Nat → Bool) (c : Nat) : (s.pick p c 0).2.ImgIs i := (s.pick_steady p c 0).imgIs h
  unfold State.bufAlloc
  split
  · exact h.bump _ _ _
  · dsimp only
    split
    · exact hpick _ _
    · exact ((hpick _ _).ramOf _).pokeN _ _ _

theorem memAllocOp (h : s.ImgIs i) (rq : Rq) (n : Nat) : (s.memAllocOp rq n).ImgIs i := .ite h ((h.bufAlloc n).ramOf _)

theorem memFreeOp (h : s.ImgIs i) (b : Nat) : (s.memFreeOp b).ImgIs i := .ite (h.bufRelease _) (h.bump _ _ _)

theorem mirrorSet (h : s.ImgIs i) (w : Nat) : (s.mirrorSet w).ImgIs i := .ite (h.set _ _) (.ite ((h.set _ _).set _ _) ((h.set _ _).raise _ _))

theorem poolSet (h : s.ImgIs i) : s.poolSet.ImgIs i := .ite ((h.ramOf _).raise _ _) (h.ramOf _)

theorem chkStart (h : s.ImgIs i) (rq : Rq) (u : Nat) : (s.chkStart rq u).ImgIs i := .ite ((h.opStart _ _ _ _).sets _) (h.opStart _ _ _ _)

theorem upset (h : s.ImgIs i) (a : Nat) (u : Upset) : (s.upset a u).ImgIs i := by
  unfold State.upset
  refine .ite h ?_
  cases u with
  | none => exact h
  | single => exact (State.fltEvent_steady _ _ _ _).imgIs (h.bump _ _ _)
  | double => exact h.of_eq rfl

theorem answerUe (h : s.ImgIs i) (rq : Rq) (n : Nat) : (s.answerUe rq n).ImgIs i := .ite (h.of_eq rfl) (h.fresh.of_eq rfl)

theorem memRd (h : s.ImgIs i) (rq : Rq) (a n : Nat) : (s.memRd rq a n).ImgIs i := .ite ((h.ueHit a n).answerUe rq n) ((h.ueHit a n).answer _)

theorem memWr (h : s.ImgIs i) (rq : Rq) (a n v : Nat) : (s.memWr rq a n v).ImgIs i := .ite ((h.pokeN a n v).answerUe rq n) ((h.pokeN a n v).answer _)

/-! The cluster's own registers -/

theorem apcOf (h : s.ImgIs i) (a : ApcS) : ({ s with apc := a } : State).ImgIs i := h.of_eq rfl

theorem hartStart (h : s.ImgIs i) (v : Nat) : (s.hartStart v).ImgIs i :=
  State.ImgIs.raiseIf (State.ImgIs.set (h.of_eq (by rfl)) _ _) _ _ _

theorem plicClaimOp (h : s.ImgIs i) (ctx : Nat) : (s.plicClaimOp ctx).ImgIs i := by
  unfold State.plicClaimOp
  split
  · exact h.answer _
  · exact (h.apcOf _).answer _

theorem plicDone (h : s.ImgIs i) (ctx k : Nat) : (s.plicDone ctx k).ImgIs i := .ite ((h.apcOf _).plicSample _ _) h

theorem plicWr (h : s.ImgIs i) (o v : Nat) : (s.plicWr o v).ImgIs i := by
  unfold State.plicWr
  refine .ite (.ite (h.apcOf _) h) (.ite (h.apcOf _) (.ite (h.apcOf _) ?_))
  split
  · exact h.plicDone _ _
  · exact h

theorem privRd (h : s.ImgIs i) (rq : Rq) (a : Nat) : (s.privRd rq a).ImgIs i := by
  unfold State.privRd
  refine .ite ?_ (.ite (State.ImgIs.answer (h.of_eq (by rfl)) _) (.ite (h.answer _) ?_))
  · split
    · exact h.plicClaimOp _
    · exact h.answer _
  · split <;> exact h.answer _

theorem privWr (h : s.ImgIs i) (rq : Rq) (a v : Nat) : (s.privWr rq a v).ImgIs i := by
  unfold State.privWr
  refine .ite (h.plicWr _ _) ?_
  split
  · exact h.of_eq rfl
  · exact h.of_eq rfl
  · exact h.apcOf _
  · exact h

theorem privAcc (h : s.ImgIs i) (rq : Rq) (a n : Nat) (wr : Bool) (v : Nat) : (s.privAcc rq a n wr v).ImgIs i :=
  .ite (h.answer _) (.ite (.ite (((h.privWr _ _ _).privWr _ _ _).answer _) (((h.privRd _ _).privRd _ _).answer _))
    (.ite (.ite ((h.privWr _ _ _).answer _) (h.privRd _ _)) (.ite (h.answer _) ((h.privRd _ _).answer _))))

/-! The ledger and the stop of the die -/

theorem fltRestoreOp (h : s.ImgIs i) : s.fltRestoreOp.ImgIs i := .ite h (.ite (State.ImgIs.set (h.of_eq (by rfl)) _ _) (h.of_eq rfl))

theorem dieOff (h : s.ImgIs i) (p : Phase) (life : Nat) : (s.dieOff p life).ImgIs i := by
  unfold State.dieOff
  dsimp only
  exact State.ImgIs.foldl (h.of_eq (by rfl)) fun _ _ ht => ht.set _ _

theorem envOf (h : s.ImgIs i) (e : EnvS) : ({ s with env := e } : State).ImgIs i := h.of_eq rfl

theorem dieStop (h : s.ImgIs i) (cause cls : Nat) : (s.dieStop cause cls).ImgIs i := by
  have hkill : (((List.range 83).filter winOk).foldl (fun t w => t.opKill w) s).ImgIs i := h.foldl fun _ _ ht => ht.opKill _
  exact .ite h (((hkill.sets _).dieOff .stopped 2).envOf _)

/-! Time -/

theorem tmOf (h : s.ImgIs i) (m : TimeS) : ({ s with tm := m } : State).ImgIs i := h.of_eq rfl
theorem setIncr (h : s.ImgIs i) (v : Int) : (s.setIncr v).ImgIs i := (h.tmOf _).raiseIf _ _ _
theorem askStep (h : s.ImgIs i) (n : Int) : (s.askStep n).ImgIs i := .ite (h.raise _ _) (h.tmOf _)
theorem askLoad (h : s.ImgIs i) (sec ns frac : Nat) : (s.askLoad sec ns frac).ImgIs i := .ite (h.raise _ _) (h.tmOf _)
theorem syncTo (h : s.ImgIs i) (st : Nat) : (s.syncTo st).ImgIs i := (s.syncTo_steady st).imgIs h
theorem driftCheck (h : s.ImgIs i) : s.driftCheck.ImgIs i := .ite ((h.syncTo 4).raise _ _) h

theorem refChoose (h : s.ImgIs i) : s.refChoose.ImgIs i := .ite h (((h.setIncr _).set _ _).raise _ _)

theorem servo (h : s.ImgIs i) (y : Int) : (s.servo y).ImgIs i := .ite h (.ite (h.askStep _) ((h.setIncr _).tmOf _))

theorem measState (h : s.ImgIs i) (y : Int) : (s.measState y).ImgIs i := by
  unfold State.measState
  dsimp only
  split
  · exact h.syncTo 1
  · exact .ite ((h.tmOf _).syncTo 2) (h.tmOf _)
  · exact h.syncTo 2
  · exact h.syncTo 1
  · exact .ite (h.syncTo 2) (h.syncTo 1)
  · exact h

theorem measure (h : s.ImgIs i) (y : Int) : (s.measure y).ImgIs i := by
  have hmeas := (h.set F.TIME_LASTMEAS_Y (unsgn F.TIME_LASTMEAS_Y.len y)).satAdd F.TIME_MEASCNT_COUNT F.TIME_MEASCNT_OVF W.TIME E.TIME_CNTSAT 1
  exact .ite hmeas ((((((hmeas.set _ _).set _ _).tmOf _).servo _).measState _))

theorem srcWritten (h : s.ImgIs i) (old : Nat) : (s.srcWritten old).ImgIs i :=
  .ite (((h.tmOf _).set _ _).syncTo 0) (.ite (((h.tmOf _).set _ _).syncTo 1) (h.tmOf _))

theorem hookTime (h : s.ImgIs i) (o : State) (off v : Nat) : (s.hookTime o off v).ImgIs i := by
  unfold State.hookTime
  split
  · exact h.askStep _
  · exact h.tmOf _
  · exact h.refChoose
  · exact h.srcWritten _
  · exact h.tmOf _
  · exact .ite (h.measure _) h
  · exact .ite (h.set _ _) (h.tmOf _).driftCheck
  · exact h.driftCheck
  · exact h

end State.ImgIs
end Sys2Proof.Machine
end


section
/-!
No write to a front end, the mesh or the WLAN changes the regulatory image: the operations those writes start, in the order of the definitions.
-/

namespace Sys2Proof.Machine

namespace State.ImgIs

variable {s : State} {i : Option RegImage}

/-! Front ends -/

theorem rfeOf (h : s.ImgIs i) (x : RfeS) : ({ s with rfe := x } : State).ImgIs i := h.of_eq rfl
theorem setPath (h : s.ImgIs i) (r p : Nat) (x : PathS) : (s.setPath r p x).ImgIs i := h.rfeOf _
theorem pathGo (h : s.ImgIs i) (r p goal : Nat) : (s.pathGo r p goal).ImgIs i := h.rfeOf _
theorem pathFree (h : s.ImgIs i) (r p : Nat) : (s.pathFree r p).ImgIs i := .ite (h.pathGo _ _ _) h
theorem setCalW (h : s.ImgIs i) (r k w v : Nat) : (s.setCalW r k w v).ImgIs i := h.rfeOf _
theorem rfeEnable (h : s.ImgIs i) (r : Nat) (en : Bool) : (s.rfeEnable r en).ImgIs i := (s.rfeEnable_steady r en).imgIs h
theorem airStop (h : s.ImgIs i) (r : Nat) : (s.airStop r).ImgIs i := (s.airStop_steady r).imgIs h

/-- A receive command is refused, or moves the path. -/
theorem pathRx (h : s.ImgIs i) (r p : Nat) (rx : Bool) : ((s.pathRx r p rx).getD s).ImgIs i := by
  unfold State.pathRx
  dsimp only
  split_ifs
  · exact h
  · exact h.pathGo _ _ _
  · exact h
  · exact h.pathGo _ _ _
  · exact h

theorem rfeStart (h : s.ImgIs i) (rq : Rq) (r : Nat) (valid c : Bool) : (s.rfeStart rq r valid c).ImgIs i :=
  .ite ((h.opStart _ _ _ _).opFail _ _) (h.opStart _ _ _ _)

theorem sweepSkip (h : s.ImgIs i) (r n : Nat) : (s.sweepSkip r n).ImgIs i := by
  induction n generalizing s with
  | zero => exact h
  | succ n ih => exact .ite (ih (h.opUnits _ _ _)) h

theorem startSweep (h : s.ImgIs i) (rq : Rq) (r : Nat) : (s.startSweep rq r).ImgIs i := by
  have hskip {t : State} (ht : t.ImgIs i) : (t.sweepEnd r).ImgIs i := .ite ht (ht.opDone _)
  exact .ite (hskip ((h.rfeStart _ _ _ _).sweepSkip _ _)) (h.rfeStart _ _ _ _)

theorem calStore (h : s.ImgIs i) (r k : Nat) (m : CalMeas) : (s.calStore r k m).ImgIs i :=
  ((((h.setCalW _ _ _ _).setCalW _ _ _ _).setCalW _ _ _ _).setCalW _ _ _ _).rfeOf _

theorem dmaWord (h : s.ImgIs i) (a v : Nat) : (s.dmaWord a v).ImgIs i := .ite (h.raise _ _) (.ite (h.raise _ _) (h.pokeN _ _ _))

theorem startSurvey (h : s.ImgIs i) (rq : Rq) (r : Nat) : (s.startSurvey rq r).ImgIs i :=
  .ite (((h.rfeStart _ _ _ _).rfeOf _).foldl fun _ _ ht => ht.dmaWord _ _) (h.rfeStart _ _ _ _)

theorem startFg (h : s.ImgIs i) (rq : Rq) (r : Nat) : (s.startFg rq r).ImgIs i :=
  .ite ((((h.rfeStart _ _ _ _).setPath _ _ _).set _ _).setPath _ _ _) (h.rfeStart _ _ _ _)

theorem fgStart (h : s.ImgIs i) (rq : Rq) (r : Nat) : (s.fgStart rq r).ImgIs i := by
  have hfg := h.startFg rq r
  unfold State.fgStart
  dsimp only
  generalize s.startFg rq r = t at hfg ⊢
  exact .ite (.ite ((t.meshStop_steady _).imgIs hfg) (((t.ppduCut_steady r).trans (State.wAbort_steady _ r)).imgIs hfg)) hfg

theorem rfeOp (h : s.ImgIs i) (rq : Rq) (r : Nat) : (s.rfeOp rq r).ImgIs i := by
  unfold State.rfeOp
  split
  · exact h.startSweep _ _
  · exact h.startSurvey _ _
  · exact h.fgStart _ _
  · exact h.opStart _ _ _ _

theorem fgLeave (h : s.ImgIs i) (r p : Nat) (done : Bool) : (s.fgLeave r p done).ImgIs i := ((h.setPath _ _ _).set _ _).pathGo _ _ _

theorem rfeAbort (h : s.ImgIs i) (r : Nat) : (s.rfeAbort r).ImgIs i := by
  have hfree : s.freeCal.2.ImgIs i := h.fresh.fresh.fresh.fresh.fresh
  unfold State.rfeAbort
  dsimp only
  split
  · exact .ite ((hfree.calStore _ _ _).opUnits _ _ _) h
  · exact h.fgLeave _ _ _
  · exact h

theorem cancClr (h : s.ImgIs i) : s.cancClr.ImgIs i := (h.rfeOf _).foldl fun _ _ ht => ht.set _ _

theorem restGo (h : s.ImgIs i) (r p : Nat) : (s.restGo r p).ImgIs i := .ite (h.pathGo _ _ _) h

theorem hookRfe (h : s.ImgIs i) (r off v : Nat) : (s.hookRfe r off v).ImgIs i := by
  have hclr : (if bitOf v 2 then s.cancClr else s).ImgIs i := .ite h.cancClr h
  unfold State.hookRfe
  dsimp only
  generalize (if bitOf v 2 then s.cancClr else s) = t at hclr ⊢
  exact .ite (h.restGo _ _) (.ite (.ite (hclr.rfeOf _) hclr) (.ite (h.rfeOf _) h))

theorem calWrite (h : s.ImgIs i) (rq : Rq) (r k v : Nat) : (s.calWrite rq r k v).ImgIs i := by
  have hdrop {t : State} (ht : t.ImgIs i) (n : Nat) : (t.nfDrop r n).ImgIs i := .ite (ht.of_eq rfl) ht
  have hwidth : (if 4 < calWidth v then s.errRec rq (W.RFE r) 0x74 5 else s).ImgIs i := .ite (h.errRec _ _ _ _) h
  unfold State.calWrite
  dsimp only
  generalize (if 4 < calWidth v then s.errRec rq (W.RFE r) 0x74 5 else s) = t at hwidth ⊢
  exact .ite h (.ite (hdrop (hwidth.setCalW _ _ _ _) _) (.ite (hdrop (h.setCalW _ _ _ _) _) (hdrop (h.setCalW _ _ _ _) _)))

/-! Listeners, windows and Tiles -/

theorem mphyOf (h : s.ImgIs i) (x : MphyS) : ({ s with mphy := x } : State).ImgIs i := h.of_eq rfl
theorem mlcOf (h : s.ImgIs i) (x : MlcS) : ({ s with mlc := x } : State).ImgIs i := h.of_eq rfl
theorem setLis (h : s.ImgIs i) (l : Nat) (x : Lis) : (s.setLis l x).ImgIs i := h.mphyOf _
theorem setTile (h : s.ImgIs i) (t : Nat) (x : TileS) : (s.setTile t x).ImgIs i := h.mlcOf _
theorem lisDrop (h : s.ImgIs i) (l : Nat) : (s.lisDrop l).ImgIs i := (s.lisDrop_steady l).imgIs h

theorem mlcPath1 (h : s.ImgIs i) (p : Nat) : (s.mlcPath1 p).ImgIs i :=
  .ite (h.mlcOf _) (.ite (.ite (h.pathRx 3 p true) ((h.pathRx 3 p true).mlcOf _)) (.ite ((h.pathFree 3 p).mlcOf _) h))

theorem mlcPath (h : s.ImgIs i) : s.mlcPath.ImgIs i := (h.mlcPath1 0).mlcPath1 2

theorem giveAsn (h : s.ImgIs i) (l : Nat) (a : Asn) : (s.giveAsn l a).2.ImgIs i := by
  unfold State.giveAsn
  dsimp only
  split_ifs
  · exact ((h.bump _ _ _).raise _ _).mphyOf _
  · exact h.setLis _ _
  · exact ((State.rxEntry_steady _ _ _ _ _).imgIs (h.setLis _ _)).mlcPath

theorem mlcFeed (h : s.ImgIs i) (l : Nat) : (s.mlcFeed l).ImgIs i := by
  unfold State.mlcFeed
  dsimp only
  refine .ite ?_ h
  split
  · exact (h.mlcOf _).giveAsn _ _
  · exact h

theorem withdraw (h : s.ImgIs i) (t k : Nat) : (s.withdraw t k).ImgIs i :=
  (h.mlcOf _).foldl fun _ _ hu => .ite (hu.setLis _ _) (.ite ((hu.setLis _ lis0).mlcFeed _) hu)

theorem tileEn (h : s.ImgIs i) (t : Nat) (old new : Bool) : (s.tileEn t old new).ImgIs i := by
  have hout := (h.withdraw t 0).setTile t { s.tile t with chk := 0, stop := false, prep := 0 }
  unfold State.tileEn
  dsimp only
  generalize (s.withdraw t 0).setTile t { s.tile t with chk := 0, stop := false, prep := 0 } = u at hout ⊢
  refine State.ImgIs.mlcPath ?_
  split
  · exact .ite (h.setTile _ _) (h.setTile _ _)
  · exact .ite (h.setTile _ _) (.ite ((hout.set _ _).lisDrop _) hout)
  · exact h

theorem winApply (h : s.ImgIs i) : s.winApply.ImgIs i := by
  have hset := (h.set F.MPHY_WINCTL_PENDING 0)
  unfold State.winApply
  dsimp only
  refine .ite h (.ite ?_ (hset.raise _ _))
  exact State.ImgIs.raise (.ite (hset.mphyOf _) ((State.blank_steady _ 0).imgIs ((State.ImgIs.setPath (hset.mphyOf _) _ _ _).set _ _))) _ _

theorem winCommit (h : s.ImgIs i) : s.winCommit.ImgIs i := .ite (h.set _ _) (h.set _ _).winApply

theorem eqArm (h : s.ImgIs i) (rq : Rq) : (s.eqArm rq).ImgIs i := .ite (h.set _ _) (h.errRec _ _ _ _)

theorem lcfgWrite (h : s.ImgIs i) (rq : Rq) (v : Nat) : (s.lcfgWrite rq v).ImgIs i :=
  State.ImgIs.mphyOf (.ite (h.errRec _ _ _ _) h) _

theorem bankRead (h : s.ImgIs i) (t f b : Nat) : (s.bankRead t f b).ImgIs i := .ite h (h.ueHit _ _)
theorem sfRefuse (h : s.ImgIs i) (t f cause : Nat) : (s.sfRefuse t f cause).ImgIs i := ((h.set _ _).set _ _).raise _ _
theorem sfDo (h : s.ImgIs i) (t f : Nat) : (s.sfDo t f).ImgIs i := (((h.set _ _).set _ _).set _ _).raise _ _

theorem sfArm (h : s.ImgIs i) (t f : Nat) : (s.sfArm t f).ImgIs i :=
  .ite (h.raise _ _) (.ite (.ite (h.sfDo _ _) ((h.bankRead _ _ _).sfRefuse _ _ _))
    (.ite (h.sfRefuse _ _ _) (.ite ((h.bankRead _ _ _).sfRefuse _ _ _) (h.set _ _))))

theorem boardStart (h : s.ImgIs i) (rq : Rq) : (s.boardStart rq).ImgIs i := .ite ((h.opStart _ _ _ _).opFail _ _) (h.opStart _ _ _ _)

/-! Nodes -/

theorem mnOf (h : s.ImgIs i) (x : MnodeS) : ({ s with mn := x } : State).ImgIs i := h.of_eq rfl

theorem mnGo (h : s.ImgIs i) (rq : Rq) : (s.mnGo rq).ImgIs i :=
  .ite (h.errRec _ _ _ _) (.ite ((((h.mnOf _).set _ _).set _ _).raise _ _) ((h.mnOf _).set _ _))

theorem rebStart (h : s.ImgIs i) (rq : Rq) (m : Nat) : (s.rebStart rq m).ImgIs i :=
  .ite h (.ite (.ite ((h.opStart _ _ _ _).opFail _ _)
    ((h.opStart _ _ _ _).foldl fun t _ ht => (t.qEnd_steady _ 8 none).imgIs ht)) (h.opStart _ _ _ _))

theorem hookMesh (h : s.ImgIs i) (o : State) (rq : Rq) (w off v : Nat) : (s.hookMesh o rq w off v).ImgIs i :=
  .ite (.ite h.winCommit (.ite (h.eqArm _) h))
    (.ite (.ite (.ite (h.tileEn _ _ _) (.ite (h.setTile _ _) h)) (.ite (h.sfArm _ _) h)) (.ite (h.mnGo _) h))

/-! WLAN -/

theorem setWl (h : s.ImgIs i) (x : WlanS) : (s.setWl x).ImgIs i := h.of_eq rfl

theorem wEqArm (h : s.ImgIs i) (rq : Rq) (r v : Nat) : (s.wEqArm rq r v).ImgIs i := .ite (h.set _ _) (h.errRec _ _ _ _)

theorem chanCommit (h : s.ImgIs i) (r : Nat) : (s.chanCommit r).ImgIs i := .ite (((h.set _ _).set _ _).setWl _) (((h.set _ _).set _ _).raise _ _)

theorem staGo (h : s.ImgIs i) (rq : Rq) : (s.staGo rq).ImgIs i :=
  .ite (h.errRec _ _ _ _) (.ite ((((h.setWl _).set _ _).set _ _).raise _ _) ((h.setWl _).set _ _))

theorem hookWlan (h : s.ImgIs i) (rq : Rq) (w off v : Nat) : (s.hookWlan rq w off v).ImgIs i :=
  .ite (.ite (h.chanCommit _) (.ite (h.wEqArm _ _ _) h)) (.ite (.ite (h.setWl _) h) (.ite (h.staGo _) h))

theorem tsfWrite (h : s.ImgIs i) (reg v : Nat) : (s.tsfWrite reg v).ImgIs i := (h.setWl _).set _ _

theorem grantWrite (h : s.ImgIs i) (k v : Nat) : (s.grantWrite k v).ImgIs i := .ite (h.setWl _) (.ite h (h.setWl _))

theorem twtClear (h : s.ImgIs i) (a : Nat) : (s.twtClear a).ImgIs i := by
  unfold State.twtClear
  split
  · exact h
  · exact h.setWl _

theorem twtValid (h : s.ImgIs i) (rq : Rq) (v : Nat) : (s.twtValid rq v).ImgIs i := .ite (h.errRec _ _ _ _) ((h.setWl _).setWl _)

theorem twtWrite (h : s.ImgIs i) (rq : Rq) (k v : Nat) : (s.twtWrite rq k v).ImgIs i :=
  .ite (.ite (h.twtValid _ _) ((h.twtClear _).setWl _)) (.ite h (h.setWl _))

end State.ImgIs
end Sys2Proof.Machine
end


section
/-!
No write to the yard, the router, a lane, a port, the coupler, the power manager or the debug port changes the regulatory image, and none through a
window's header: the operations those writes start, up to the access of a hart and of the debug port itself.
-/

namespace Sys2Proof.Machine

namespace State.ImgIs

variable {s : State} {i : Option RegImage}

/-! The yard and the router -/

theorem startLoad (h : s.ImgIs i) (rq : Rq) (c : Nat) : (s.startLoad rq c).ImgIs i := .ite ((h.opStart _ _ _ _).opFail _ _) (h.opStart _ _ _ _)

theorem yardFull (h : s.ImgIs i) : s.yardFull.ImgIs i := (h.bump _ _ _).raise _ _

theorem swCreate (h : s.ImgIs i) (rq : Rq) (a : Nat) : (s.swCreate rq a).ImgIs i := by
  have hplace (x : Wagon) : (s.placeNew x).2.ImgIs i := (s.placeNew_steady x).imgIs h
  unfold State.swCreate
  refine .ite (h.errRec _ _ _ _) (.ite (h.set _ _) (.ite (h.yardFull.set _ _) ?_))
  dsimp only
  split
  · exact (hplace _).yardFull.set _ _
  · exact ((hplace _).set _ _).set _ _

theorem rteOf (h : s.ImgIs i) (x : RteS) : ({ s with rte := x } : State).ImgIs i := h.of_eq rfl

theorem watchSet (h : s.ImgIs i) (w : Nat) (up : Bool) : (s.watchSet w up).ImgIs i := ((h.rteOf _).set _ _).raise _ _

theorem watchChg (h : s.ImgIs i) (w : Nat) : (s.watchChg w).ImgIs i := .ite h (.ite ((h.rteOf _).watchSet _ _) (h.rteOf _))

theorem watchBack (h : s.ImgIs i) (w : Nat) : (s.watchBack w).ImgIs i := .ite (h.watchSet _ _) h

theorem hookYard (h : s.ImgIs i) (rq : Rq) (w off v : Nat) : (s.hookYard rq w off v).ImgIs i := by
  unfold State.hookYard
  refine .ite ?_ (.ite (.ite ((h.watchChg _).watchBack _) (h.watchChg _)) h)
  split
  · exact .ite (h.set _ _) h
  · exact h.swCreate _ _
  · exact (State.couple_steady _ _ _ _ _ _).imgIs h
  · exact h

theorem commitStart (h : s.ImgIs i) (rq : Rq) : (s.commitStart rq).ImgIs i := .ite ((h.opStart _ _ _ _).rteOf _) (h.opStart _ _ _ _)

/-! Ports -/

theorem setShp (h : s.ImgIs i) (n : Nat) (x : ShpS) : (s.setShp n x).ImgIs i := h.of_eq rfl
theorem setEmac (h : s.ImgIs i) (n : Nat) (x : EmacS) : (s.setEmac n x).ImgIs i := h.of_eq rfl
theorem portSync (h : s.ImgIs i) (n : Nat) : (s.portSync n).ImgIs i := (s.portSync_steady n).imgIs h
theorem shpEnd (h : s.ImgIs i) (e : SEnt) (status : Nat) : (s.shpEnd e status).ImgIs i := (s.outDone_steady _ _ _ _).imgIs h
theorem txNote (h : s.ImgIs i) (n b status : Nat) : (s.txNote n b status).ImgIs i := (s.txNote_steady n b status).imgIs h
theorem ethSend (h : s.ImgIs i) (n c : Nat) (e : SEnt) (at' : Option Nat) : (s.ethSend n c e at').ImgIs i := h.setShp _ _

theorem timedGo (h : s.ImgIs i) (n : Nat) (e : SEnt) : (s.timedGo n e).ImgIs i := by
  have hdel : (s.timedDel n e).ImgIs i := h.setShp _ _
  unfold State.timedGo
  dsimp only
  refine .ite ((State.ImgIs.bump hdel _ _ _).shpEnd _ _) ?_
  split
  · exact hdel.ethSend _ _ _ _
  · exact (hdel.txNote _ _ _).shpEnd _ _

theorem timedDue (h : s.ImgIs i) (n : Nat) : (s.timedDue n).ImgIs i := by
  unfold State.timedDue
  refine .ite h ?_
  split
  · exact h.timedGo _ _
  · exact h

theorem gateDrops (h : s.ImgIs i) (n c : Nat) (l : List SEnt) : (s.gateDrops n c l).ImgIs i := by
  induction l generalizing s with
  | nil => exact h
  | cons e l ih => exact .ite (ih (State.ImgIs.shpEnd (((h.setShp _ _).bump _ _ _).raise _ _) _ _)) h

theorem pickTake (h : s.ImgIs i) (n c : Nat) : (s.pickTake n c).2.ImgIs i := by
  unfold State.pickTake
  split
  · exact h
  next e l _ =>
    have hq : (s.setShpQ n c l).ImgIs i := h.setShp _ _
    dsimp only
    generalize s.setShpQ n c l = t at hq ⊢
    split <;> dsimp only
    · exact hq.ethSend _ _ _ _
    · exact (hq.txNote _ _ _).shpEnd _ _

theorem pickClass (h : s.ImgIs i) (n : Nat) : (s.pickClass n).2.ImgIs i := by
  have hdrops : ((List.range 8).foldl (fun t c => t.gateDrops n c (t.shpQ n c)) s).ImgIs i := h.foldl fun _ _ ht => ht.gateDrops _ _ _
  unfold State.pickClass
  extract_lets t
  have ht : t.ImgIs i := hdrops
  clear_value t
  generalize List.find? _ _ = c
  cases c with
  | none => exact ht
  | some c => exact ht.pickTake _ _

theorem pickNext (h : s.ImgIs i) (n : Nat) (want : Option (Nat × Nat)) : (s.pickNext n want).2.ImgIs i := by
  unfold State.pickNext
  split
  · exact .ite ((((h.setEmac _ _).set _ _).setShp _ _).bump _ _ _) h
  · exact h.pickClass n

theorem shpPick (h : s.ImgIs i) (n k : Nat) : (s.shpPick n k).ImgIs i := by
  induction k generalizing s with
  | zero => exact h
  | succ k ih => exact .ite h (.ite (ih (h.pickNext _ _)) (h.pickNext _ _))

theorem shpGo (h : s.ImgIs i) (n : Nat) : (s.shpGo n).ImgIs i := (h.timedDue n).shpPick _ _

theorem pauseAsk (h : s.ImgIs i) (rq : Rq) (n : Nat) : (s.pauseAsk rq n).ImgIs i :=
  .ite (h.errRec _ _ _ _) ((((h.portSync n).setEmac _ _).set _ _).shpGo n)

theorem tlShow (h : s.ImgIs i) (n : Nat) : (s.tlShow n).ImgIs i := .ite ((h.set _ _).set _ _) ((h.set _ _).set _ _)

theorem tlRefuse (h : s.ImgIs i) (n cause : Nat) : (s.tlRefuse n cause).ImgIs i := (h.set _ _).raise _ _

theorem tlOn (h : s.ImgIs i) (n : Nat) : (s.tlOn n).ImgIs i := by
  unfold State.tlOn
  dsimp only
  split
  · exact ((h.set _ _).setShp _ _).sets _
  · exact (h.set _ _).tlRefuse _ _

theorem tlOff (h : s.ImgIs i) (n : Nat) : (s.tlOff n).ImgIs i := (((h.setShp _ _).set _ _).set _ _).tlShow n

theorem tlSwap (h : s.ImgIs i) (n : Nat) : (s.tlSwap n).ImgIs i := by
  unfold State.tlSwap
  dsimp only
  refine .ite (h.raise _ _) ?_
  split
  · exact .ite ((((h.set _ _).set _ _).setShp _ _).sets _) ((h.set _ _).set _ _)
  · exact h.tlRefuse _ _

/-! Lanes and the coupler -/

theorem laneTo (h : s.ImgIs i) (n st : Nat) : (s.laneTo n st).ImgIs i := (h.set _ _).raiseIf _ _ _
theorem laneOn (h : s.ImgIs i) (n : Nat) : (s.laneOn n).ImgIs i := .ite ((h.set _ _).laneTo _ _) h
theorem laneRetrain (h : s.ImgIs i) (n : Nat) : (s.laneRetrain n).ImgIs i := .ite ((h.set _ _).laneTo _ _) h

theorem laneIdle (h : s.ImgIs i) (n : Nat) (on : Bool) : (s.laneIdle n on).ImgIs i :=
  .ite (.ite h (h.set _ _)) (.ite h (((h.portSync n).set _ _).shpGo n))

theorem cplTo (h : s.ImgIs i) (st : Nat) : (s.cplTo st).ImgIs i := (s.cplTo_steady st).imgIs h

theorem cplEnable (h : s.ImgIs i) (en : Bool) : (s.cplEnable en).ImgIs i :=
  .ite (s.cplSolo_steady.imgIs h) (.ite h (.ite (h.raise _ _) (h.cplTo 1)))

theorem cplHand (h : s.ImgIs i) : s.cplHand.ImgIs i := .ite ((h.mlcOf _).cplTo 5) h

theorem cplResyncOp (h : s.ImgIs i) : s.cplResyncOp.ImgIs i := .ite (h.cplTo 4) h

/-! The power manager and the reset of a block -/

theorem pwrOf (h : s.ImgIs i) (x : PwrS) : ({ s with pwr := x } : State).ImgIs i := h.of_eq rfl
theorem perfEval (h : s.ImgIs i) : s.perfEval.ImgIs i := h.pwrOf _
theorem domAll (h : s.ImgIs i) : s.domAll.ImgIs i := s.domAll_steady.imgIs h
theorem refuse (h : s.ImgIs i) (cause : Nat) : (s.refuse cause).ImgIs i := ((h.set _ _).bump _ _ _).raise _ _

theorem stepStart (h : s.ImgIs i) (next final : Nat) : (s.stepStart next final).ImgIs i := by
  have hset := (h.pwrOf { s.pwr with change := some next, final := final }).set F.PWR_STATUS_CHANGING 1
  unfold State.stepStart
  dsimp only
  generalize State.set _ F.PWR_STATUS_CHANGING 1 = t at hset ⊢
  exact .ite (State.lanesIdle_steady _ |>.imgIs ((hset.pwrOf _).apcOf _)).domAll.perfEval (.ite (hset.pwrOf _).domAll.perfEval hset)

theorem goReq (h : s.ImgIs i) (tgt wake : Nat) : (s.goReq tgt wake).ImgIs i := by
  have hask : (s.ask tgt wake).ImgIs i := .ite h (.ite (h.refuse _) (h.stepStart _ _))
  exact .ite h (.ite (State.ImgIs.pwrOf (.ite (h.refuse 6) h) _) hask)

theorem blockReset (h : s.ImgIs i) (w : Nat) (dom : Bool) : (s.blockReset w dom).ImgIs i :=
  (State.blockStart_steady _ w).imgIs (State.ImgIs.opKill (((s.blockStop_steady w).imgIs h).of_eq (by rfl)) w)

theorem sresetOp (h : s.ImgIs i) (rq : Rq) (w : Nat) : (s.sresetOp rq w).ImgIs i :=
  .ite h (.ite (h.errRec _ _ _ _) (.ite (((h.poolSet.ramOf _).blockReset _ _).raiseIf _ _ _) (h.blockReset _ _)))

theorem hookPwr (h : s.ImgIs i) (o : State) (w off v wake : Nat) : (s.hookPwr o w off v wake).ImgIs i := by
  have hrest : (if bitOf v 1 then s.fltRestoreOp else s).ImgIs i := .ite h.fltRestoreOp h
  unfold State.hookPwr
  dsimp only
  refine .ite ?_ (.ite (.ite (hrest.dieStop _ _) hrest) (.ite (h.sets _) h))
  split
  · exact .ite (h.goReq _ _) h
  · exact h.domAll
  · exact h.perfEval
  · exact h

/-! The fields of a register -/

theorem fldWrite (h : s.ImgIs i) (o : State) (rq : Rq) (w off j v : Nat) (f : FldRow) : (o.fldWrite rq w off j v s f).ImgIs i := by
  unfold State.fldWrite
  dsimp only
  split
  · exact .ite (h.errRec _ _ _ _) (.ite (h.errRec _ _ _ _) (.ite h (.ite (h.raiseIf _ _ _) (.ite (h.raise _ _) (h.set _ _)))))
  · exact h.set _ _
  · exact .ite (h.errRec _ _ _ _) h
  · exact h

theorem tabWrite (h : s.ImgIs i) (rq : Rq) (w off v : Nat) : (s.tabWrite rq w off v).ImgIs i := by
  unfold State.tabWrite
  split
  · exact h
  · exact h.foldl fun _ _ ht => ht.fldWrite _ _ _ _ _ _ _

theorem multiWrite (h : s.ImgIs i) (rq : Rq) (w off v : Nat) (l : List Nat) : (s.multiWrite rq w off v l).ImgIs i := by
  have hstore {t : State} (ht : t.ImgIs i) (ws : List Nat) : (t.multiStore rq w l ws).ImgIs i :=
    .ite (.ite (ht.askLoad _ _ _) (ht.setIncr _)) (.ite (ht.pwrOf _) (ht.foldl fun _ _ hu => hu.tabWrite _ _ _ _))
  exact .ite h (.ite (h.of_eq rfl) (hstore (h.of_eq (by rfl)) _))

/-! What a write of a register does beyond its fields -/

theorem hookNet (h : s.ImgIs i) {o : State} (ho : o.ImgIs i) (rq : Rq) (w off v : Nat) : (s.hookNet o rq w off v).ImgIs i := by
  have hidle (n : Nat) (e : Bool) {c : Prop} [Decidable c] : (if c then s else s.laneIdle n e).ImgIs i := .ite h (h.laneIdle _ _)
  have hlist (n : Nat) (a b : Bool) : (if !a && b then (s.portSync n).tlOn n else if a && !b then ((s.portSync n).tlOff n).shpGo n else s.portSync n).ImgIs i :=
    .ite ((h.portSync n).tlOn n) (.ite (((h.portSync n).tlOff n).shpGo n) (h.portSync n))
  have hhand : (if bitOf v 0 then s.cplHand else s).ImgIs i := .ite h.cplHand h
  unfold State.hookNet
  dsimp only
  refine .ite (.ite h (.ite ((hidle _ _).laneRetrain _) (hidle _ _))) (.ite (.ite (((ho.portSync _).tabWrite _ _ _ _).shpGo _) (.ite (h.pauseAsk _ _) h))
    (.ite (.ite (h.setShp _ _) (.ite (.ite ((hlist _ _ _).tlSwap _) (hlist _ _ _)) (.ite (h.raise _ _) h)))
      (.ite (.ite hhand.cplResyncOp hhand) h)))

theorem hookCore (h : s.ImgIs i) (rq : Rq) (w off v : Nat) : (s.hookCore rq w off v).ImgIs i :=
  .ite (.ite (h.hartStart _) h) (.ite (h.memAllocOp _ _) (.ite (h.memFreeOp _) (.ite (h.mirrorSet _) h)))

theorem hook (h : s.ImgIs i) {o : State} (ho : o.ImgIs i) (rq : Rq) (w off v wake : Nat) : (s.hook o rq w off v wake).ImgIs i := by
  unfold State.hook
  refine .ite (h.hookTime _ _ _) ?_
  refine .ite (h.hookPwr _ _ _ _ _) ?_
  refine .ite (h.hookRfe _ _ _) ?_
  refine .ite (h.hookMesh _ _ _ _ _) ?_
  refine .ite (h.hookWlan _ _ _ _) ?_
  refine .ite (h.hookYard _ _ _ _) ?_
  refine .ite (h.hookNet ho _ _ _ _) ?_
  exact .ite (h.hookCore _ _ _ _) h

theorem blockWrite (h : s.ImgIs i) (rq : Rq) (w off v wake : Nat) : (s.blockWrite rq w off v wake).ImgIs i := by
  unfold State.blockWrite
  split
  · exact h.multiWrite _ _ _ _ _
  · refine .ite (h.calWrite _ _ _ _) ?_
    refine .ite (h.lcfgWrite _ _) ?_
    refine .ite (h.grantWrite _ _) ?_
    refine .ite (h.twtWrite _ _ _) ?_
    refine .ite (h.tsfWrite _ _) ?_
    refine .ite (h.tsfWrite _ _) ?_
    exact .ite (h.hookTime _ _ _) ((h.tabWrite _ _ _ _).hook h _ _ _ _ _)

/-! The header of a window -/

theorem enableHook (h : s.ImgIs i) (w : Nat) (en : Bool) : (s.enableHook w en).ImgIs i := by
  unfold State.enableHook
  refine .ite (.ite (.ite (h.rfeEnable _ _) h) (.ite (h.rfeEnable _ _) ((h.airStop _).rfeEnable _ _))) ?_
  refine .ite (.ite (h.setWl _) h) ?_
  refine .ite (.ite (h.of_eq rfl) h) ?_
  refine .ite (.ite (h.laneOn _) ((s.laneOff_steady _).imgIs h)) ?_
  refine .ite (h.cplEnable _) ?_
  exact .ite (.ite ((h.portSync _).shpGo _) h) h

theorem ctrlWr (h : s.ImgIs i) (rq : Rq) (w v : Nat) : (s.ctrlWr rq w v).ImgIs i := by
  have hen : (if s.on (F.CTRL_ENABLE w) == bitOf v 0 then s.set (F.CTRL_ENABLE w) (b2n (bitOf v 0))
      else (s.set (F.CTRL_ENABLE w) (b2n (bitOf v 0))).enableHook w (bitOf v 0)).ImgIs i := .ite (h.set _ _) ((h.set _ _).enableHook _ _)
  unfold State.ctrlWr
  dsimp only
  generalize (if s.on (F.CTRL_ENABLE w) == bitOf v 0 then s.set (F.CTRL_ENABLE w) (b2n (bitOf v 0))
      else (s.set (F.CTRL_ENABLE w) (b2n (bitOf v 0))).enableHook w (bitOf v 0)) = t at hen ⊢
  have hdom : (if bitsOf v 2 2 = 3 then t.errRec rq w 8 5
      else if winDom w = 0 || winDom w = 1 || winDom w = 16 then t
      else if winDom w = 14 || 20 ≤ winDom w then (t.set (F.CTRL_DOMREQ w) (bitsOf v 2 2)).domAll
        else (t.set (F.CTRL_DOMREQ w) (bitsOf v 2 2)).domEval (winDom w)).ImgIs i := by
    refine .ite (hen.errRec _ _ _ _) ?_
    split_ifs with hd
    · exact hen
    · exact (hen.set _ _).domAll
    · have hpos : winDom w ≠ 0 := by
        intro h0
        simp [h0] at hd
      exact (State.domEval_steady _ hpos).imgIs (hen.set _ _)
  generalize (if bitsOf v 2 2 = 3 then t.errRec rq w 8 5 else _) = u at hdom ⊢
  exact .ite (hdom.sresetOp _ _) hdom

theorem opGo (h : s.ImgIs i) (rq : Rq) (w : Nat) : (s.opGo rq w).ImgIs i := by
  unfold State.opGo
  refine .ite (.ite ((h.opStart _ _ _ _).opFail _ _) (h.opStart _ _ _ _)) ?_
  refine .ite (h.chkStart _ _) ?_
  refine .ite (h.rfeOp _ _) ?_
  refine .ite (h.boardStart _) ?_
  refine .ite (h.rebStart _ _) ?_
  refine .ite (h.startLoad _ _) ?_
  refine .ite (h.commitStart _) ?_
  exact .ite (h.opStart _ _ _ _) h

theorem opAbort (h : s.ImgIs i) (w : Nat) : (s.opAbort w).ImgIs i := by
  have hrfe : (if 0x10 ≤ w && w ≤ 0x13 && s.opSt w = 2 then s.rfeAbort (w - 0x10) else s).ImgIs i := .ite (h.rfeAbort _) h
  unfold State.opAbort
  dsimp only
  generalize (if 0x10 ≤ w && w ≤ 0x13 && s.opSt w = 2 then s.rfeAbort (w - 0x10) else s) = t at hrfe ⊢
  exact .ite h (State.ImgIs.opFinish (.ite (hrfe.rteOf _) hrfe) _ _ _)

theorem hdrWrite (h : s.ImgIs i) (rq : Rq) (w off v : Nat) : (s.hdrWrite rq w off v).ImgIs i := by
  unfold State.hdrWrite
  split
  · exact h.ctrlWr _ _ _
  · exact h.foldl fun _ _ ht => .ite (ht.set _ _) ht
  · exact (h.set _ _).plicSample _ _
  · exact h.foldl fun _ _ ht => ht.raiseIf _ _ _
  · exact .ite (h.opAbort _) (.ite (h.opGo _ _) h)
  · exact .ite (h.sets _) h
  · exact .ite (h.sets _) (.ite (h.sets _) (h.sets _))
  · exact h.tabWrite _ _ _ _

/-! The debug port -/

theorem dbgOf (h : s.ImgIs i) (x : DbgS) : ({ s with dbg := x } : State).ImgIs i := h.of_eq rfl

theorem tokenWord (h : s.ImgIs i) (v : Nat) : (s.tokenWord v).ImgIs i := by
  have hfail {t : State} (ht : t.ImgIs i) : t.tokenFail.ImgIs i :=
    .ite (((ht.set _ _).raise _ _).set _ _) (.ite ((ht.set _ _).raise _ _) (((ht.set _ _).raise _ _).sets _))
  exact .ite (h.dbgOf _) (hfail (h.dbgOf _))

theorem tokenCheck (h : s.ImgIs i) : s.tokenCheck.ImgIs i := (h.fresh.fresh.dbgOf _).sets _

theorem yieldOp (h : s.ImgIs i) : s.yieldOp.ImgIs i := .ite (((s.engFail_steady _ _).trans (State.coachCheck_steady _ _)).imgIs h) h

theorem coreWrite (h : s.ImgIs i) (rq : Rq) (w off v wake : Nat) : (s.coreWrite rq w off v wake).ImgIs i := by
  have htab := h.tabWrite rq W.DBG off v
  refine .ite ?_ (.ite (h.hdrWrite _ _ _ _) (h.blockWrite _ _ _ _ _))
  unfold State.dbgWrite
  dsimp only
  generalize s.tabWrite rq W.DBG off v = t at htab ⊢
  split
  · exact .ite htab.tokenCheck htab
  · exact htab.tokenWord _
  · exact .ite htab.yieldOp htab
  · exact htab

/-! Accesses of a word by any but an engine -/

theorem opLatch (h : s.ImgIs i) (rq : Rq) (w : Nat) : (s.opLatch rq w).ImgIs i := .ite (h.of_eq rfl) (h.of_eq rfl)

theorem rcClear (h : s.ImgIs i) (w off lo n : Nat) : (s.rcClear w off lo n).ImgIs i := by
  unfold State.rcClear
  split
  · exact h
  · exact h.foldl fun _ _ ht => .ite (ht.set _ _) ht

theorem regRead (h : s.ImgIs i) (rq : Rq) (w off lo n : Nat) : (s.regRead rq w off lo n).ImgIs i := by
  unfold State.regRead
  extract_lets v t u x
  have ht : t.ImgIs i := by
    unfold t
    split
    · exact .ite h (.ite (h.of_eq rfl) (h.of_eq rfl))
    · exact h
  have hu : u.ImgIs i := .ite (ht.opLatch _ _) ht
  have hx : x.ImgIs i := .ite (hu.of_eq rfl) hu
  exact (hx.rcClear _ _ _ _).answer _

variable {rq : Rq}

theorem memAcc (h : s.ImgIs i) (hrq : rq.cls ≠ 1) (a n : Nat) (wr : Bool) (v : Nat) (u : Upset) : (s.memAcc rq a n wr v u).ImgIs i := by
  have hmis : (s.misMem rq).ImgIs i := by
    rw [State.misMem, if_neg hrq]
    exact h.answer _
  unfold State.memAcc
  refine .ite hmis (.ite (h.answer _) (.ite ?_ ((h.upset _ _).memRd _ _ _)))
  split
  next t ht =>
    have hbar : t.ImgIs i := by
      unfold State.sramBars at ht
      dsimp only at ht
      split_ifs at ht
      all_goals
        obtain rfl := Option.some.inj ht
        exact h.raise _ _
    exact hbar.answer _
  · exact (h.upset _ _).memWr _ _ _ _

theorem accessBy (h : s.ImgIs i) (hrq : rq.cls ≠ 1) {f : State → Rq → Nat → Nat → Nat → State}
    (hf : ∀ (t : State) (w off v : Nat), t.ImgIs i → (f t rq w off v).ImgIs i) (a : Nat) (wr : Bool) (v : Nat) (u : Upset) :
    (s.accessBy f rq a 4 wr v u).ImgIs i := by
  have hreg : (s.regAcc f rq a 4 wr v).ImgIs i := by
    unfold State.regAcc
    dsimp only
    rw [if_neg hrq, if_neg (by decide : ¬ 4 = 8), if_pos rfl]
    exact .ite ((h.errRec _ _ _ _).answer _) (.ite ((hf _ _ _ _ h).answer _) (h.regRead _ _ _ _ _))
  have hraw : (s.accRaw f rq a 4 wr v u).ImgIs i := by
    unfold State.accRaw
    split
    · exact (h.darkRec _ _ _).answerErr _ _
    · exact .ite hreg (.ite (h.privAcc _ _ _ _ _) (h.memAcc hrq _ _ _ _ _))
  have hans : ((s.accRaw f rq a 4 wr v u).engAns rq) = s.accRaw f rq a 4 wr v u := by
    simp [State.engAns, hrq]
  unfold State.accessBy
  rw [hans]
  exact .ite h (.ite (h.answer _) hraw)

theorem mapGo (h : s.ImgIs i) (v : Nat) : (s.mapGo rq v).ImgIs i := by
  have htab := h.tabWrite rq W.DBG 0x5C v
  unfold State.mapGo
  extract_lets t wr at' a ok u b bad x y
  have ht : t.ImgIs i := htab
  clear_value t
  refine .ite ht ?_
  have hu : u.ImgIs i := .ite (ht.accessBy (by decide) (fun _ _ _ _ hs => hs.coreWrite _ _ _ _ _) _ _ _ _) (ht.answer _)
  have hx : x.ImgIs i := .ite hu (hu.set _ _)
  exact .ite ((hx.sets _).sets _) (hx.sets _)

theorem access (h : s.ImgIs i) (hrq : rq.cls ≠ 1) (a : Nat) (wr : Bool) (v : Nat) (u : Upset) : (s.access rq a 4 wr v u).ImgIs i :=
  h.accessBy hrq (fun _ _ _ _ ht => .ite (ht.mapGo _) (ht.coreWrite _ _ _ _ _)) _ _ _ _

/-! The register set of the boot -/

theorem nvWord (h : s.ImgIs i) (w off v : Nat) : (s.nvWord w off v).ImgIs i := by
  unfold State.nvWord
  split
  · exact h
  · exact h.foldl fun _ _ ht => ht.of_eq rfl

theorem regPair (h : s.ImgIs i) (e : Nat × Nat) : (s.regPair e).ImgIs i :=
  State.ImgIs.access (.ite (h.nvWord _ _ _) h) (by decide) _ _ _ _

theorem setApply (h : s.ImgIs i) (slot : Nat) : (s.setApply slot).ImgIs i :=
  (h.foldl fun _ _ ht => ht.regPair _).foldl fun _ _ ht => ht.of_eq rfl

end State.ImgIs
end Sys2Proof.Machine
end


section
/-!
nRESET_IN, the bridge timer and the hand-over of the boot, R45, R49, R325, R384, R387.
-/

namespace Sys2Proof.Machine

/-! nRESET_IN -/

/-- While nRESET_IN is low the die is off, and the kind of its next start is all that changes after that. -/
theorem State.nresetLow_of_on {s : State} (h : s.env.phase ≠ .off) :
    ∃ k : Nat, s.nresetLow = { s.dieOff .inReset 0 with env := { (s.dieOff .inReset 0).env with startKind := k } } := by
  unfold State.nresetLow
  rw [if_neg h]
  exact ⟨_, rfl⟩

/-- What a start writes in the registers, but after Dormant: the cause among them; the records stay. -/
theorem State.startRegs_frame (t s1 : State) {kind : Nat} (rec' : Nat) (hkind : kind ≠ 3) :
    (t.startRegs s1 kind rec').env = t.env ∧ (t.startRegs s1 kind rec').pwr = t.pwr ∧ (t.startRegs s1 kind rec').nvs = t.nvs
      ∧ (t.startRegs s1 kind rec').keys = t.keys ∧ (t.startRegs s1 kind rec').get F.SYS_START_CAUSE = rec' % 8 := by
  unfold State.startRegs
  simp only [if_neg hkind]
  have hset := State.sets_regsOnly t [(F.PWR_STATUS_CHANGING, 0), (F.PWR_PERFSTAT_FABRIC, 0), (F.PWR_PERFSTAT_CLUSTER, 0), (F.DBG_AUTH_BUSY, 0),
    (F.SYS_START_CAUSE, rec'), (F.SYS_START_FALLBACK, 0), (F.SYS_START_VIGIL, 0), (F.SYS_START_BOOTMS, 0)]
  have hcause : (t.sets [(F.PWR_STATUS_CHANGING, 0), (F.PWR_PERFSTAT_FABRIC, 0), (F.PWR_PERFSTAT_CLUSTER, 0), (F.DBG_AUTH_BUSY, 0),
      (F.SYS_START_CAUSE, rec'), (F.SYS_START_FALLBACK, 0), (F.SYS_START_VIGIL, 0), (F.SYS_START_BOOTMS, 0)]).get F.SYS_START_CAUSE = rec' % 8 :=
    (State.get_sets_ne (State.sets t [(F.PWR_STATUS_CHANGING, 0), (F.PWR_PERFSTAT_FABRIC, 0), (F.PWR_PERFSTAT_CLUSTER, 0), (F.DBG_AUTH_BUSY, 0),
      (F.SYS_START_CAUSE, rec')]) [(F.SYS_START_FALLBACK, 0), (F.SYS_START_VIGIL, 0), (F.SYS_START_BOOTMS, 0)] (by decide)).trans
        (State.get_set_same _ _ _)
  generalize t.sets _ = u at hset hcause ⊢
  have hchal (a b : Nat) := State.sets_regsOnly u.fresh.2.fresh.2 [(F.DBG_CHALLENGELO_CHAL, a), (F.DBG_CHALLENGEHI_CHAL, b)]
  refine ⟨(hchal _ _).env.trans hset.env, (hchal _ _).pwr.trans hset.pwr, (hchal _ _).nvs.trans hset.nvs, (hchal _ _).keys.trans hset.keys, ?_⟩
  refine (State.get_sets_ne _ _ ?_).trans ((State.get_congr rfl rfl _).trans hcause)
  simp only [List.forall_mem_cons, List.not_mem_nil, false_imp_iff, implies_true, and_true]
  decide

/-- A start out of reset is in Boot with its cause recorded; the residency counters are cleared, the settings store and the keys stay. -/
theorem State.start_of_reset (s : State) :
    (s.start 1 0).env.phase = .boot ∧ (s.start 1 0).pwr.res = State.reset.pwr.res ∧ (s.start 1 0).nvs = s.nvs ∧ (s.start 1 0).keys = s.keys
      ∧ (s.start 1 0).get F.SYS_START_CAUSE = s.startRec 1 % 8 := by
  obtain ⟨henv, hpwr, hnvs, hkeys, hcause⟩ := (s.startKept 1 0).startRegs_frame (s.timeRestore 0) (s.startRec 1) (by decide : 1 ≠ 3)
  unfold State.start
  dsimp only
  generalize (s.startKept 1 0).startRegs (s.timeRestore 0) 1 (s.startRec 1) = t at henv hpwr hnvs hkeys hcause ⊢
  have hsame := (t.startState_sameStart (s.startRec 1) (s.env.path == .bridging)).trans (State.plicStart_sameStart _)
  exact ⟨hsame.phase.trans (congrArg EnvS.phase henv), hsame.res.trans (congrArg PwrS.res hpwr), hsame.nvs.trans hnvs, hsame.keys.trans hkeys,
    hsame.cause.trans hcause⟩

/-! The bridge timer -/

theorem State.cplHand_steady (s : State) : s.Steady s.cplHand := .ite ((s.setMlc_steady _).trans (State.cplTo_steady _ 5)) (.refl s)

/-- A change out of Run shows that it is in progress, and leaves the supply as it is. -/
theorem State.stepStart_changing {s : State} (next final : Nat) (h : s.dev = 0) :
    (s.stepStart next final).env.timer = s.env.timer ∧ (s.stepStart next final).get F.PWR_STATUS_CHANGING = 1 := by
  have hbegun : (s.stepBegun next final).get F.PWR_STATUS_CHANGING = 1 := State.get_set_same (s := { s with pwr := { s.pwr with change := some next, final := final } }) _ _
  have hdoms := (s.stepBegun next final).lanesIdle_steady.trans (State.domAll_steady _)
  rw [State.stepStart_of_run next final h]
  generalize (s.stepBegun next final).lanesIdle.domAll = t at hdoms ⊢
  exact ⟨hdoms.timer, (hdoms.regs _ (by simp [steadyRegs])).trans hbegun⟩

/-- The bridge timer's expiry in Run starts the change to Vigil, with or without the hand-over of the coupler. -/
theorem State.forceVigil_frame {s : State} (r45 : Bool) (hchange : s.pwr.change = none) (hdev : s.dev = 0) :
    (s.forceVigil r45).env.timer = s.env.timer ∧ (s.forceVigil r45).pwr.change = some 1 ∧ (s.forceVigil r45).get F.PWR_STATUS_CHANGING = 1 := by
  obtain ⟨henv, hc, hd, -, -⟩ := s.pendDrop_frame
  have hrun : s.pendDrop.dev = 0 := hd.trans hdev
  obtain ⟨htimer, hget⟩ := State.stepStart_changing 1 1 hrun
  obtain ⟨hpwr, -, -⟩ := State.stepStart_frame 1 1 hrun
  have hstep : s.forceVigil r45 = if r45 && s.pendDrop.dev = 0 && s.pendDrop.on F.CPL_CFG_VIGILREL then (s.pendDrop.stepStart 1 1).cplHand
      else s.pendDrop.stepStart 1 1 := by
    simp [State.forceVigil, hc.trans hchange, hrun]
  rw [henv] at htimer
  generalize s.pendDrop.stepStart 1 1 = t at htimer hget hpwr hstep
  have hhand : t.Steady (s.forceVigil r45) := by
    rw [hstep]
    exact .ite t.cplHand_steady (.refl t)
  exact ⟨hhand.timer.trans htimer, (congrArg PwrS.change hhand.pwr).trans hpwr, (hhand.regs _ (by simp [steadyRegs])).trans hget⟩

/-! The hand-over -/

theorem State.ImgIs.limRestore {s : State} {i : Option RegImage} (h : s.ImgIs i) : s.limRestore.ImgIs i := by
  unfold State.limRestore
  split <;> exact h.of_eq rfl

theorem State.ImgIs.softwareOn {s : State} {i : Option RegImage} (h : s.ImgIs i) (k : Nat) : (s.softwareOn k).ImgIs i :=
  ((s.poke_steady _ _).imgIs h).of_eq rfl

/-- Without a valid image there is none in force when the software runs or the module holds. -/
theorem State.handOver_img {s : State} (ms : Nat) (h : s.bootSlot 0 = none) : (s.handOver ms).lim.img = none := by
  refine State.ImgIs.img (i := none) ?_
  unfold State.handOver
  extract_lets g r c back noted imaged registers restored t
  have himaged : imaged.ImgIs none := by
    change (noted.imgApply (s.bootSlot 0)).ImgIs none
    rw [h]
    exact ⟨rfl⟩
  have hset : registers.ImgIs none := by
    unfold registers
    generalize r = o
    cases o with
    | none => exact himaged
    | some k => exact (himaged.setApply k).poolSet
  have ht : t.ImgIs none := hset.limRestore.sets _
  clear_value t
  generalize c = o
  cases o with
  | none => exact ht.envOf _
  | some k => exact .ite ((ht.softwareOn k).perfEval).domAll (ht.envOf _)

/-- An entry just written is written again to no effect. -/
theorem lset_lset {α : Type} (l : List α) (n : Nat) (a : α) : lset (lset l n a) n a = lset l n a := by
  induction l generalizing n with
  | nil => rfl
  | cons x l ih =>
    cases n with
    | zero => rfl
    | succ n => exact congrArg (x :: ·) (ih n)

/-- The software runs at its entry when it and a register set are valid. -/
theorem State.handOver_of_valid {s : State} (ms : Nat) (hset : (s.bootSlot 1).isSome = true) (hsoft : (s.bootSlot 2).isSome = true) :
    (s.handOver ms).env.phase = .software ∧ (s.handOver ms).apc.entry = lset (s.handOver ms).apc.entry 0 0x8010000000 := by
  obtain ⟨k, hk⟩ := Option.isSome_iff_exists.mp hsoft
  have hrun (t : State) : (t.softwareOn k).perfEval.domAll.env.phase = .software
      ∧ (t.softwareOn k).perfEval.domAll.apc.entry = lset (t.softwareOn k).perfEval.domAll.apc.entry 0 0x8010000000 := by
    have hdoms := (t.softwareOn k).perfEval.domAll_steady
    rw [hdoms.entry]
    exact ⟨hdoms.phase, (lset_lset _ _ _).symm⟩
  unfold State.handOver
  extract_lets g r c back noted imaged registers restored t
  clear_value t
  have hc : c = some k := hk
  have hr : r.isSome = true := hset
  rw [hc]
  dsimp only
  rw [if_pos hr]
  exact hrun t

theorem State.handOver_of_invalid {s : State} (ms : Nat) (h : s.bootSlot 1 = none ∨ s.bootSlot 2 = none) : (s.handOver ms).env.phase = .safeHold := by
  unfold State.handOver
  extract_lets g r c back noted imaged registers restored t
  have hslots : r = none ∨ c = none := h
  clear_value t
  obtain hr | hc := hslots
  · rw [hr]
    generalize c = o
    cases o <;> rfl
  · rw [hc]

/-- Settles O11: the die goes off or starts, the change to Vigil is shown, and the boot hands over what was found valid. -/
theorem resetAndStart : Obligations.ResetAndStart := by
  unfold Obligations.ResetAndStart
  refine ⟨fun s hon => ⟨_, rfl, ?_⟩, fun s hreset => ⟨_, rfl, ?_⟩, fun s htimer hsoft hdev hchange => ⟨_, rfl, ?_⟩,
    fun s ms hboot hhart => ⟨_, rfl, ?_⟩⟩
  all_goals dsimp only
  · obtain ⟨k, hk⟩ := State.nresetLow_of_on hon
    obtain ⟨hpps, hmphy, hwl⟩ := s.dieOff_silent .inReset 0
    obtain ⟨-, -, -, hmem⟩ := s.dieOff_frame .inReset 0
    have hkeep := State.keeps_dieOff (l := (List.range 8).map F.LANE_STAT_IDLE) .inReset 0
      (fun n hn => List.mem_map_of_mem (List.mem_range.mpr hn)) (s.keeps_refl _)
    have henv := s.dieOff_env .inReset 0
    rw [hk]
    generalize s.dieOff .inReset 0 = t at hpps hmphy hwl hmem hkeep henv ⊢
    have hphase : t.env.phase = .inReset := congrArg EnvS.phase henv
    refine ⟨hphase, ?_, hpps, congrArg EnvS.lifeOut henv, congrArg MphyS.active hmphy, congrArg MphyS.waiting hmphy, congrArg WlanS.tx hwl,
      State.keeps_congr rfl rfl hkeep, hmem⟩
    simp [State.live, hphase]
  · rw [if_pos hreset]
    obtain ⟨hphase, hres, hnvs, hkeys, hcause⟩ := s.start_of_reset
    refine ⟨hphase, hres, s.start_led 0 (by decide), hnvs, hkeys, ?_⟩
    rw [hcause]
    omega
  · have hexp : s.bridgeExpire = State.forceVigil { s with env := { s.env with timer := false } } true := by
      have hforce (t : State) (hphase : t.env.phase = .software) (hrun : t.dev = 0) :
          (if (t.env.phase = .software || t.env.phase = .safeHold) && (t.dev = 0 || (t.pwr.change.isSome && t.pwr.final = 0)) then t.forceVigil true
            else t) = t.forceVigil true := if_pos (by simp [hphase, hrun])
      unfold State.bridgeExpire
      rw [if_neg (by simp [htimer])]
      exact hforce _ hsoft hdev
    rw [hexp]
    exact State.forceVigil_frame (s := { s with env := { s.env with timer := false } }) true hchange hdev
  · rw [if_pos (by simp [hboot, hhart])]
    exact ⟨State.handOver_of_valid ms, State.handOver_of_invalid ms, State.handOver_img ms⟩

end Sys2Proof.Machine
end
